-- ==== Sys2Proof/Word.lean ====
section
/-! DEFINITION. The word and byte types of the register map and the memories, and their plainest arithmetic. -/

namespace Sys2Proof

/-- A register is 32 bits wide (00_scope, Registers). -/
abbrev Word := BitVec 32

/-- One byte of a memory. -/
abbrev Byte := BitVec 8

end Sys2Proof
end

