-- ==== Sys2Proof/Syntax.lean ====
section
/-! DEFINITION. The commands of the controller: one constructor per row of the table of operations and events
(spec/opcode_table.json), with the operands each needs. A register command carries the master that writes it and the word
written; an event from outside (a pin, a frame, a measurement, the end of work the spec bounds only in time) carries what
is observed. Timer rows carry nothing beyond the unit whose timer expires. -/

namespace Sys2Proof

/-- Masters of the register space, numbered as the UT windows: security core 0, application cores 1 to 4, host 5, MSPI 6,
parent controller 7 (02, R54; 21, SYS_BUS_MST). -/
abbrev Master := Fin 8

/-- A block on a lane (R320): the 2-bit sync header, and the payload of 64 bits as it stands on the line, bit 0 first. -/
structure Block where
  hdr : Fin 4
  pay : BitVec 64
  deriving DecidableEq, Repr

/-- What BOOT meets outside: whether VDDIO0 is above 1.95 V (R498), how often each step of DRAM training fails (4: every time), in
the order channel, rank, step of R313, and the VREF setting that training finds for rank 0 of channels A and B. -/
structure BootEnv where
  io0High : Bool
  fails : List (Fin 5)
  vrefA : Fin 64
  vrefB : Fin 64
  deriving DecidableEq, Repr

/-- One command: a row of spec/opcode_table.json. -/
inductive Instr where
  /-- REGISTER_WRITE (R5). -/
  | registerWrite (m : Master) (addr : Word) (width : Nat) (data : Word)
  /-- POWER_ON_RESET (R482). -/
  | powerOnReset (pin : Bool)
  /-- SUPPLY_BROWNOUT (R492). -/
  | supplyBrownout
  /-- VDDIO5_LOSS (R492). -/
  | vddio5Loss
  /-- RESET_COLD (R483). -/
  | resetCold (m : Master) (w : Word)
  /-- RESET_WARM (R483). -/
  | resetWarm (m : Master) (w : Word)
  /-- SWI (R484). -/
  | swi (m : Master) (w : Word)
  /-- BOOT_SEQUENCE (R418). -/
  | bootSequence (env : BootEnv)
  /-- MODE_REQUEST (R433). -/
  | modeRequest (m : Master) (w : Word)
  /-- MODE_TRANSITION_EFFECT (R29). -/
  | modeTransitionEffect (serviceEnded : Bool)
  /-- MODE_TIMEOUT (R435). -/
  | modeTimeout
  /-- UT_SEL_WRITE (R55). -/
  | utSelWrite (m : Master) (w : Word)
  /-- UT_SNAPSHOT_TIMEOUT (R55). -/
  | utSnapshotTimeout (win : Master)
  /-- SET_ENABLE (R45). -/
  | setEnable (m : Master)
  /-- SET_DELAY (R45). -/
  | setDelay (m : Master)
  /-- SET_TRIM (R45). -/
  | setTrim (m : Master)
  /-- CLEAR_STATUS (R45). -/
  | clearStatus (m : Master)
  /-- CLEAR_COUNTERS (R45). -/
  | clearCounters (m : Master)
  /-- RELEASE (R45). -/
  | release (m : Master)
  /-- SPIT (R45). -/
  | spit (m : Master)
  /-- IDENTIFY (R45). -/
  | identify (m : Master)
  /-- UT_CMD_COMPLETE (R50). -/
  | utCmdComplete
  /-- UT_FORWARD_TIMEOUT (R50). -/
  | utForwardTimeout
  /-- SI_RELOAD_START (R73). -/
  | siReloadStart (m : Master)
  /-- SI_RELOAD_ABORT (R76). -/
  | siReloadAbort (m : Master)
  /-- SI_VERIFY_DONE (R74). -/
  | siVerifyDone
  /-- ENCODER_LEVEL_ACCEPT (R80). -/
  | encoderLevelAccept (ch : Fin 2) (a b z : Bool)
  /-- ENC_WIRE_TIMEOUT (R79). -/
  | encWireTimeout (ch : Fin 2) (sig : Fin 3)
  /-- SSI_FRAME_START (R83). -/
  | ssiFrameStart (ch : Fin 2)
  /-- SSI_FRAME_DONE (R84). -/
  | ssiFrameDone (ch : Fin 2) (bits : BitVec 40)
  /-- SSI_COUNT_ISSUE (R85). -/
  | ssiCountIssue (ch : Fin 2)
  /-- WP_CPR_WRITE (R88). -/
  | wpCprWrite (m : Master) (ch : Fin 2) (w : Word)
  /-- ARM (R90). -/
  | arm (m : Master) (w : Word)
  /-- ZLATCH (R87). -/
  | zlatch (m : Master) (w : Word)
  /-- SRC (R91). -/
  | src (m : Master) (w : Word)
  /-- PRESS_HOLD_RELEASE (R97). -/
  | pressHoldRelease
  /-- BACKUP_TIMEOUT (R98). -/
  | backupTimeout
  /-- CMP_ARM (R101). -/
  | cmpArm (m : Master) (k : Fin 8) (w : Word)
  /-- PT_OUTPUT_STEP (R104). -/
  | ptOutputStep (ch : Fin 2)
  /-- LINE_COMPOSE_DONE (R162). -/
  | lineComposeDone (e : Fin 16) (cycles : Nat)
  /-- COMPOSE_DEADLINE (R16). -/
  | composeDeadline
  /-- FRAME_SHIFT (R163). -/
  | frameShift (b : Fin 16)
  /-- SHIFT_COMPLETE (R165). -/
  | shiftComplete (b : Fin 16)
  /-- LAT_ISSUE (R185). -/
  | latIssue (b : Fin 16)
  /-- LINE_FIRE (R183). -/
  | lineFire (p : Fin 64)
  /-- WARMING_LINE (R196). -/
  | warmingLine (b : Fin 16)
  /-- SPIT_LINE (R215). -/
  | spitLine (p : Fin 64)
  /-- CFG_SEND (R167). -/
  | cfgSend (m : Master) (w : Word)
  /-- GATE_CLEAR (R176). -/
  | gateClear (m : Master) (w : Word)
  /-- HEAD_RETURN_FRAME (R169). -/
  | headReturnFrame (p : Fin 64) (bytes : List Byte)
  /-- HEAD_ABSENT_TIMEOUT (R171). -/
  | headAbsentTimeout (p : Fin 64)
  /-- HEAD_STALE_TIMEOUT (R171). -/
  | headStaleTimeout (p : Fin 64)
  /-- GATE_INPUT_ASSERT (R175). -/
  | gateInputAssert (g : Fin 9)
  /-- GATE_INPUT_DEASSERT (R176). -/
  | gateInputDeassert (g : Fin 9)
  /-- NOZZLE_RECORD_WRITE (R199). -/
  | nozzleRecordWrite (m : Master) (i : Fin 131072) (w : Word)
  /-- MAP_STAGING_START (R207). -/
  | mapStagingStart
  /-- MAP_STAGING_COMPLETE (R207). -/
  | mapStagingComplete
  /-- NH_SWEEP (R200). -/
  | nhSweep
  /-- NH_SHADOW_WRITE (R201). -/
  | nhShadowWrite (i : Fin 131072)
  /-- RESTORE (R202). -/
  | restore (m : Master) (w : Word)
  /-- EVIDENCE_RECORD_APPLY (R210). -/
  | evidenceRecordApply
  /-- GATE_SCAN_START (R212). -/
  | gateScanStart (m : Master) (w : Word)
  /-- GATE_SCAN_ABORT (R214). -/
  | gateScanAbort (m : Master) (w : Word)
  /-- GATE_SCAN_SETTLE_DONE (R212). -/
  | gateScanSettleDone (levelA levelB : Fin 1024)
  /-- GATE_SHOT (R213). -/
  | gateShot (ta tb : Option Nat)
  /-- DECAP_TIMER_EXPIRE (R215). -/
  | decapTimerExpire (p : Fin 64)
  /-- JOB_LOAD (R114). -/
  | jobLoad (m : Master) (w : Word)
  /-- JOB_ARM (R107). -/
  | jobArm (m : Master) (w : Word)
  /-- JOB_UNLOAD (R106). -/
  | jobUnload (m : Master) (w : Word)
  /-- OPEN (R110). -/
  | plateOpen (m : Master) (w : Word)
  /-- SEAL (R110). -/
  | plateSeal (m : Master) (w : Word)
  /-- FREE (R110). -/
  | plateFree (m : Master) (w : Word)
  /-- RING_WP_WRITE (R117). -/
  | ringWpWrite (m : Master) (j : Fin 2) (w : Word)
  /-- RENDER_INSTANCE_BEGIN (R119). -/
  | renderInstanceBegin (j : Fin 2)
  /-- RENDER_INSTANCE_DONE (R117). -/
  | renderInstanceDone
  /-- LINE_RING_FILL (R121). -/
  | lineRingFill
  /-- LINE_RING_ENTRY_DONE (R121). -/
  | lineRingEntryDone
  /-- IN_ENABLE (R227). -/
  | inEnable (m : Master) (w : Word)
  /-- IN_TAB_DATA_WRITE (R232). -/
  | inTabDataWrite (m : Master) (w : Word)
  /-- IN_BANK_WRITE (R232). -/
  | inBankWrite (m : Master) (k : Fin 16) (b : Fin 2) (w : Word)
  /-- CSI_PACKET (R224). -/
  | csiPacket (n : Fin 2) (di : Byte) (wc : BitVec 16) (ecc : Byte) (payload : List Byte) (crc : BitVec 16) (fits : Bool)
  /-- MERGED_LINE_CLOSE (R237). -/
  | mergedLineClose
  /-- EXPECTED_LINE_COMPUTE (R240). -/
  | expectedLineCompute
  /-- SYMBOL_VERIFY (R243). -/
  | symbolVerify
  /-- TICKET_VERDICT (R247). -/
  | ticketVerdict
  /-- CLOSE_TIMEOUT (R248). -/
  | closeTimeout
  /-- IN_EXPORT_START (R251). -/
  | inExportStart (m : Master) (w : Word)
  /-- LOOP_TICK (R254). -/
  | loopTick
  /-- AUTO (R264). -/
  | auto (m : Master) (c : Fin 64) (w : Word)
  /-- MAN (R264). -/
  | man (m : Master) (c : Fin 64) (w : Word)
  /-- MOVE (R275). -/
  | move (m : Master) (a : Fin 4) (w : Word)
  /-- HOME (R283). -/
  | home (m : Master) (a : Fin 4) (w : Word)
  /-- STOP (R284). -/
  | stop (m : Master) (a : Fin 4) (w : Word)
  /-- ENABLE (R275). -/
  | enable (m : Master) (a : Fin 4) (w : Word)
  /-- DISABLE (R275). -/
  | disable (m : Master) (a : Fin 4) (w : Word)
  /-- PROFILE_TICK (R277). -/
  | profileTick
  /-- PWM_PERIOD (R278). -/
  | pwmPeriod (a : Fin 4) (rawA rawB : Fin 4096)
  /-- LIMIT_SWITCH_EDGE (R282). -/
  | limitSwitchEdge (a : Fin 4) (hi : Bool)
  /-- LIMIT_SWITCH_ACCEPT (R281). -/
  | limitSwitchAccept (a : Fin 4) (hi level : Bool)
  /-- CAP_SEQUENCE_NEXT_AXIS (R285). -/
  | capSequenceNextAxis
  /-- MO_CMP_ARM (R287). -/
  | moCmpArm (m : Master) (k : Fin 8) (w : Word)
  /-- FABRIC_TRANSFER_REQUEST (R293). -/
  | fabricTransferRequest (a : Fin 10) (r : Fin 12) (lane : Fin 16) (addr n : Nat) (write : Bool) (data : List Byte)
  /-- ARB_SLOT_DECISION (R296). -/
  | arbSlotDecision (a : Fin 10) (reads : Fin 65) (camera : Fin 1025)
  /-- FABRIC_TRANSFER_COMPLETE (R299). -/
  | fabricTransferComplete (a : Fin 10) (r : Fin 12) (lane : Fin 16)
  /-- DRAM_REFRESH_DUE (R312). -/
  | dramRefreshDue (c : Fin 2)
  /-- DRAM_MR4_READ (R312). -/
  | dramMr4Read (c : Fin 2) (rate : Fin 8) (hot : Bool)
  /-- DRAM_TRACK_INTERVAL (R314). -/
  | dramTrackInterval (c : Fin 2) (osc : Fin 65536) (shift : Int)
  /-- WRITE_DRAIN_BATCH (R311). -/
  | writeDrainBatch (c : Fin 2)
  /-- ENUM (R337). -/
  | enumStart (m : Master) (w : Word)
  /-- RETRAIN (R326). -/
  | retrain (m : Master) (w : Word)
  /-- LINK_LOS (R322). -/
  | linkLos (k : Fin 8)
  /-- LINK_LOL (R322). -/
  | linkLol (k : Fin 8)
  /-- TRAIN_BLOCK (R325). -/
  | trainBlock (g : Fin 3) (lane : Fin 4) (before : List Block) (hdr : Fin 4) (lo hi : BitVec 32) (cdr : Bool)
  /-- AM_BLOCK (R323). -/
  | amBlock (k : Fin 8) (blocks : List Block) (skew : Nat)
  /-- LINK_BRINGUP_TIMEOUT (R325). -/
  | linkBringupTimeout (g : Fin 3)
  /-- RETRAIN_TIMEOUT (R326). -/
  | retrainTimeout (g : Fin 3)
  /-- ACK (R329). -/
  | ack (g : Fin 3) (seq creq cpri : Nat)
  /-- NAK (R330). -/
  | nak (g : Fin 3) (seq : Nat)
  /-- ACK_TIMER (R329). -/
  | ackTimer (g : Fin 3)
  /-- REPLAY_TIMEOUT (R330). -/
  | replayTimeout (g : Fin 3)
  /-- PACKET_TRANSMIT (R331). -/
  | packetTransmit (g : Fin 3)
  /-- ECHO_REQ (R345). -/
  | echoReq (g : Fin 3) (token turn : Nat)
  /-- ECHO_RSP (R345). -/
  | echoRsp (g : Fin 3) (token turn : Nat)
  /-- LATENCY_MEASURE_TIMER (R345). -/
  | latencyMeasureTimer (g : Fin 3)
  /-- ENUM_BLOCK (R337). -/
  | enumBlock (g : Fin 3) (kind value depth : Nat)
  /-- ENUM_TIMEOUT (R337). -/
  | enumTimeout (g : Fin 3)
  /-- REG_WR (R333). -/
  | regWr (g : Fin 3) (bytes : List Byte)
  /-- REG_RD (R333). -/
  | regRd (g : Fin 3) (bytes : List Byte)
  /-- RD_CPL (R333). -/
  | rdCpl (g : Fin 3) (bytes : List Byte)
  /-- DMA_WR (R334). -/
  | dmaWr (g : Fin 3) (bytes : List Byte)
  /-- POS (R346). -/
  | posPacket (g : Fin 3) (bytes : List Byte)
  /-- EVT (R340). -/
  | evt (g : Fin 3) (bytes : List Byte)
  /-- AUD (R341). -/
  | aud (g : Fin 3) (bytes : List Byte)
  /-- EVT_PERIODIC (R340). -/
  | evtPeriodic
  /-- CHIP_EVT_TIMEOUT (R340). -/
  | chipEvtTimeout (c : Fin 256)
  /-- POS_SAMPLE (R343). -/
  | posSample
  /-- POS_TIMEOUT (R347). -/
  | posTimeout
  /-- MSPI_FRAME (R349). -/
  | mspiFrame (bytes : List Byte) (answered : Bool)
  /-- ETH_FRAME_RECEIVE (R358). -/
  | ethFrameReceive (k : Fin 2) (bytes : List Byte) (fcsOk : Bool)
  /-- ETH_FRAME_TRANSMIT (R357). -/
  | ethFrameTransmit
  /-- PRP_SUPERVISION_TIMER (R357). -/
  | prpSupervisionTimer
  /-- PRP_ENTRY_EXPIRE (R358). -/
  | prpEntryExpire (i : Fin 128)
  /-- ETH_LINK_CHANGE (R372). -/
  | ethLinkChange (k : Fin 2) (up : Bool)
  /-- SET (R362). -/
  | setTime (m : Master) (w : Word)
  /-- TX_KICK (R355). -/
  | txKick (m : Master) (w : Word)
  /-- RX_KICK (R355). -/
  | rxKick (m : Master) (w : Word)
  /-- OFFSET_WRITE (R365). -/
  | offsetWrite (m : Master) (domB : Bool) (w : Word)
  /-- DOMAIN_HEALTH_TIMEOUT (R366). -/
  | domainHealthTimeout (domB : Bool)
  /-- DOMAIN_REVERT (R366). -/
  | domainRevert
  /-- BIAS_SLEW_STEP (R367). -/
  | biasSlewStep
  /-- TN_CAP_READ (R370). -/
  | tnCapRead (m : Master)
  /-- TN_TXTS_READ (R363). -/
  | tnTxtsRead (m : Master) (k : Fin 2)
  /-- ZEROIZE (R394). -/
  | zeroize (m : Master) (w : Word)
  /-- ATTEST (R396). -/
  | attest (m : Master) (w : Word)
  /-- REPLAY (R388). -/
  | replay (m : Master) (w : Word)
  /-- GEN_DEV (R389). -/
  | genDev (m : Master) (w : Word)
  /-- GEN_EPH (R390). -/
  | genEph (m : Master) (w : Word)
  /-- UNWRAP (R390). -/
  | unwrap (m : Master) (w : Word)
  /-- SET_PUB (R391). -/
  | setPub (m : Master) (w : Word)
  /-- EXPORT_PUB (R391). -/
  | exportPub (m : Master) (w : Word)
  /-- EPH_KEY_EXPIRE (R390). -/
  | ephKeyExpire
  /-- TAMPER (R395). -/
  | tamper (i : Fin 4)
  /-- CAIRN_ISSUE (R380). -/
  | cairnIssue
  /-- SUMMIT_TIMER (R384). -/
  | summitTimer
  /-- SUMMIT_ISSUE (R385). -/
  | summitIssue
  /-- AUDIT_RING_WRITE (R386). -/
  | auditRingWrite (ok : Bool)
  /-- AUDIT_RING_ACK_WRITE (R386). -/
  | auditRingAckWrite (m : Master) (hi : Bool) (w : Word)
  /-- AUDIT_FRAME_TIMER (R388). -/
  | auditFrameTimer
  /-- LINE (R398). -/
  | lineRecord (bytes : List Byte)
  /-- BLANK (R397). -/
  | blankRecord (bytes : List Byte)
  /-- COMMIT (R397). -/
  | commitRecord (bytes : List Byte)
  /-- STATUS (R398). -/
  | statusRecord (bytes : List Byte)
  /-- COSIGN_REQ (R398). -/
  | cosignReq (bytes : List Byte)
  /-- COSIGN_RSP (R398). -/
  | cosignRsp (bytes : List Byte)
  /-- WITNESS_STATUS_SEND (R397). -/
  | witnessStatusSend
  /-- WITNESS_LATE (R398). -/
  | witnessLate
  /-- WITNESS_LOST (R398). -/
  | witnessLost
  /-- COSIGN_TIMEOUT (R398). -/
  | cosignTimeout
  /-- DCMP_START (R403). -/
  | dcmpStart (m : Master) (d : Fin 4) (w : Word)
  /-- DCMP_ABORT (R404). -/
  | dcmpAbort (m : Master) (d : Fin 4) (w : Word)
  /-- DCMP_BLOCK_DONE (R403). -/
  | dcmpBlockDone (d : Fin 4)
  /-- CZ_START (R406). -/
  | czStart (m : Master) (w : Word)
  /-- CZ_ABORT (R408). -/
  | czAbort (m : Master) (w : Word)
  /-- CZ_JOB_DONE (R408). -/
  | czJobDone
  /-- CONFIRM (R428). -/
  | confirm (m : Master) (w : Word)
  /-- CONFIRM_TIMEOUT (R428). -/
  | confirmTimeout
  /-- SUBMIT (R424). -/
  | submit (m : Master) (w : Word)
  /-- BU_ARM (R426). -/
  | buArm (m : Master) (w : Word)
  /-- DISARM (R426). -/
  | disarm (m : Master) (w : Word)
  /-- DISCARD (R426). -/
  | discard (m : Master) (w : Word)
  /-- SETTINGS_READ (R431). -/
  | settingsRead (m : Master) (w : Word)
  /-- SETTINGS_COMMIT (R432). -/
  | settingsCommit (m : Master) (w : Word)
  /-- EVENT_COLLECT (R443). -/
  | eventCollect
  /-- FL_EQ_ACK (R446). -/
  | flEqAck (m : Master) (w : Word)
  /-- OVF_CLEAR (R447). -/
  | ovfClear (m : Master) (w : Word)
  /-- CSR_CLEAR (R452). -/
  | csrClear (m : Master) (w : Word)
  /-- FABRIC_WDOG_EXPIRE (R458). -/
  | fabricWdogExpire
  /-- CLOCK_LOSS (R461). -/
  | clockLoss (src : Fin 6)
  /-- HLREF_LOSS (R460). -/
  | hlrefLoss
  /-- SENSE_SLOT_START (R466). -/
  | senseSlotStart (delay : Nat)
  /-- SENSE_CONVERSION_DONE (R468). -/
  | senseConversionDone (code : Fin 65536)
  /-- CAL_START (R471). -/
  | calStart (m : Master) (w : Word)
  /-- CAL_PASS_TIMER (R470). -/
  | calPassTimer
  /-- MZERO (R473). -/
  | mzero (m : Master) (w : Word) (means : List Nat)
  /-- PD_CROSSING (R474). -/
  | pdCrossing (i : Fin 2) (t : Nat)
  /-- PD_BRIGHT (R474). -/
  | pdBright (i : Fin 2)
  /-- TS_START (R508). -/
  | tsStart (m : Master) (w : Word)
  /-- TS_STOP (R510). -/
  | tsStop (m : Master) (w : Word)
  /-- SELFTEST (R511). -/
  | selftest (m : Master) (w : Word)
  /-- TEST_LOOP_DURATION_END (R510). -/
  | testLoopDurationEnd (errs bitsRun : Nat)
  /-- TAP_INSTRUCTION (R513). -/
  | tapInstruction (c : Fin 6)
  /-- REGISTER_READ (R5). -/
  | registerRead (m : Master) (addr : Word)
  /-- ROPE_WPOS_ADVANCE (R346). -/
  | ropeWposAdvance
  /-- STOPPED_CLOCK_RESTART (R458). -/
  | stoppedClockRestart (d : Fin 12)
  /-- REFCLK_RETURN (R461). -/
  | refclkReturn
  /-- HLREF_RETURN (R460). -/
  | hlrefReturn
  /-- VDDIO5_RETURN (R492). -/
  | vddio5Return
  /-- CHECKER_LOCK_CHANGE (R509). -/
  | checkerLockChange (gained : Bool)
  /-- TEST_LOOP_PASS_COMPLETE (R510). -/
  | testLoopPassComplete (crc : Word) (ok : Bool)
  /-- TAP_RESET (R513). -/
  | tapReset
  deriving DecidableEq, Repr

end Sys2Proof
end

