-- ==== Sys2Proof/Decode.lean ====
section
/-! DEFINITION. Decoding of commands from words: the table of operations and events gives no row any bits (the commands
come from pins, links and register accesses, not from an instruction memory), so no word spells a command. -/

namespace Sys2Proof

/-- The command a word of the table's bits spells: none, for every word. -/
def decodeTableWord (_nbits _w : Nat) : Option Instr := none

end Sys2Proof
end

