-- ==== Sys2Proof/Machine/RegMap.lean ====
section
/-! DEFINITION. The register map: one row per register heading of spec/02 to spec/23 (name, offset, array strides,
reset value, fields with their access types), the address of each register as a function of its indices, and the
bits of each field. Reserved bits are not listed: they read 0 and a write to them is ignored (R5, R6). -/

namespace Sys2Proof.Machine

/-- The field types of R5. -/
inductive FieldType where
  | rw | ro | wo | w1c | rws | rc
  deriving DecidableEq, Repr

/-- The bits `[hi:lo]` of a register. -/
structure BitField where
  hi : Nat
  lo : Nat
  deriving DecidableEq, Repr

/-- One field of a register as its table gives it. -/
structure FieldRow where
  name : String
  hi : Nat
  lo : Nat
  ty : FieldType
  deriving DecidableEq, Repr

/-- One register heading: `dims` holds (count, stride) for each index, `resets` the reset value (or, where the heading
gives one per index, those values in index order). -/
structure RegRow where
  name : String
  base : Nat
  dims : List (Nat × Nat)
  resets : List Nat
  fields : List FieldRow
  deriving DecidableEq, Repr

/-- Registers of block UT, part 1 (02). -/
def regsUT1 : List RegRow := [
  ⟨"UT_SEL", 0x10000, [(8, 0x100)], [0x0], [⟨"CHIP", 31, 24, .rw⟩, ⟨"HANDLE", 23, 0, .rw⟩]⟩,
  ⟨"UT_INFO", 0x10004, [(8, 0x100)], [0x0], [⟨"VALID", 31, 31, .ro⟩, ⟨"SNAP_READY", 30, 30, .ro⟩, ⟨"KIND", 27, 24, .ro⟩, ⟨"DEPTH", 23, 16, .ro⟩, ⟨"CHILDREN", 15, 0, .ro⟩]⟩,
  ⟨"UT_PARENT", 0x10008, [(8, 0x100)], [0xFFFFFF], [⟨"PARENT", 23, 0, .ro⟩]⟩,
  ⟨"UT_CFG", 0x1000C, [(8, 0x100)], [0x0], [⟨"EN", 31, 31, .ro⟩, ⟨"EN_EFF", 30, 30, .ro⟩, ⟨"TRIM", 23, 20, .ro⟩, ⟨"TRIM_EFF", 19, 16, .ro⟩, ⟨"LDELAY", 9, 0, .ro⟩]⟩,
  ⟨"UT_SUB", 0x10010, [(8, 0x100)], [0x0], [⟨"SLDELAY_EFF", 29, 16, .ro⟩, ⟨"SLDELAY", 13, 0, .ro⟩]⟩,
  ⟨"UT_STATUS", 0x10014, [(8, 0x100)], [0x0], [⟨"LDELAY_EFF", 25, 16, .ro⟩, ⟨"LATCH_VOID", 9, 9, .ro⟩, ⟨"LATCH_WARN", 8, 8, .ro⟩, ⟨"OWN", 6, 4, .ro⟩, ⟨"DOME", 2, 0, .ro⟩]⟩,
  ⟨"UT_CNT_EVENT", 0x10018, [(8, 0x100)], [0x0], [⟨"COUNT", 31, 0, .ro⟩]⟩,
  ⟨"UT_CNT_VOID", 0x1001C, [(8, 0x100)], [0x0], [⟨"COUNT", 31, 0, .ro⟩]⟩,
  ⟨"UT_CNT_CMD", 0x10020, [(8, 0x100)], [0x0], [⟨"COUNT", 31, 0, .ro⟩]⟩,
  ⟨"UT_GEOM", 0x10024, [(8, 0x100)], [0x0], [⟨"BANK", 23, 20, .ro⟩, ⟨"RES2400", 18, 18, .ro⟩, ⟨"MIRROR", 17, 17, .ro⟩, ⟨"COL_ORIGIN", 16, 0, .ro⟩]⟩,
  ⟨"UT_CHILD_SEL", 0x10028, [(8, 0x100)], [0x0], [⟨"INDEX", 15, 0, .rw⟩]⟩,
  ⟨"UT_CHILD", 0x1002C, [(8, 0x100)], [0x0], [⟨"VALID", 31, 31, .ro⟩, ⟨"HANDLE", 23, 0, .ro⟩]⟩]

/-- Registers of block UT, part 2 (02). -/
def regsUT2 : List RegRow := [
  ⟨"UT_ARG", 0x10030, [(8, 0x100)], [0x0], [⟨"ARG", 31, 0, .rw⟩]⟩,
  ⟨"UT_CMD", 0x10034, [(8, 0x100)], [0x0], [⟨"CODE", 7, 0, .wo⟩]⟩,
  ⟨"UT_CMD_STAT", 0x10038, [(8, 0x100)], [0x0], [⟨"ERR", 7, 4, .ro⟩, ⟨"PENDING", 2, 2, .ro⟩, ⟨"DONE", 1, 1, .w1c⟩, ⟨"BUSY", 0, 0, .ro⟩]⟩,
  ⟨"UT_CMD_LINE", 0x1003C, [(8, 0x100)], [0x0], [⟨"LINE", 31, 0, .ro⟩]⟩]

/-- All registers of block UT. -/
def regsUT : List RegRow := regsUT1 ++ regsUT2

/-- Registers of block BU, part 1 (03, 18). -/
def regsBU1 : List RegRow := [
  ⟨"BU_SI_CTRL", 0x100200, [], [0x0], [⟨"ABORT", 1, 1, .wo⟩, ⟨"START", 0, 0, .wo⟩]⟩,
  ⟨"BU_SI_STAGE", 0x100204, [], [0x0], [⟨"ADDR64", 31, 0, .rw⟩]⟩,
  ⟨"BU_SI_SIZE", 0x100208, [], [0x0], [⟨"SIZE", 22, 0, .rw⟩]⟩,
  ⟨"BU_SI_STATUS", 0x10020C, [], [0x0], [⟨"FAIL_SECTION", 23, 16, .ro⟩, ⟨"ERR", 11, 8, .ro⟩, ⟨"STATE", 3, 0, .ro⟩]⟩,
  ⟨"BU_SI_ACT_LINE", 0x100210, [], [0x0], [⟨"LINE", 31, 0, .ro⟩]⟩,
  ⟨"BU_SI_ID", 0x100214, [], [0x0], [⟨"VALUE", 31, 0, .ro⟩]⟩,
  ⟨"BU_SI_VER", 0x100218, [], [0x0], [⟨"VALUE", 31, 0, .ro⟩]⟩,
  ⟨"BU_SI_MEASi", 0x100220, [(12, 0x4)], [0x0], [⟨"BYTES", 31, 0, .ro⟩]⟩,
  ⟨"BU_SI_PARTIALS", 0x100250, [], [0x0], [⟨"COUNT", 15, 0, .ro⟩]⟩,
  ⟨"BU_BOOT_STAT", 0x100000, [], [0x0], [⟨"ERR", 19, 16, .ro⟩, ⟨"TRIES", 13, 12, .ro⟩, ⟨"PHASE", 10, 8, .ro⟩, ⟨"FALLBACK", 6, 6, .ro⟩, ⟨"SLOT", 5, 4, .ro⟩, ⟨"STATE", 3, 0, .ro⟩]⟩,
  ⟨"BU_CTRL", 0x100004, [], [0x0], [⟨"CONFIRM", 0, 0, .wo⟩]⟩,
  ⟨"BU_CONFIRM_TMO", 0x100008, [], [0x258], [⟨"S", 15, 0, .rw⟩]⟩]

/-- Registers of block BU, part 2 (18). -/
def regsBU2 : List RegRow := [
  ⟨"BU_SVN", 0x10000C, [], [0x0], [⟨"VALUE", 31, 0, .ro⟩]⟩,
  ⟨"BU_SVN_FLOOR", 0x100010, [], [0x0], [⟨"VALUE", 31, 0, .ro⟩]⟩,
  ⟨"BU_FW_VER", 0x100014, [], [0x0], [⟨"VALUE", 31, 0, .ro⟩]⟩,
  ⟨"BU_FW_MEASi", 0x100020, [(12, 0x4)], [0x0], [⟨"BYTES", 31, 0, .ro⟩]⟩,
  ⟨"BU_UP_CTRL", 0x100080, [], [0x0], [⟨"DISCARD", 3, 3, .wo⟩, ⟨"DISARM", 2, 2, .wo⟩, ⟨"ARM", 1, 1, .wo⟩, ⟨"SUBMIT", 0, 0, .wo⟩]⟩,
  ⟨"BU_UP_STAT", 0x100084, [], [0x0], [⟨"DONE", 9, 9, .w1c⟩, ⟨"BUSY", 8, 8, .ro⟩, ⟨"ERR", 7, 4, .ro⟩, ⟨"STATE", 2, 0, .ro⟩]⟩,
  ⟨"BU_UP_PROG", 0x100088, [], [0x0], [⟨"DUP", 31, 16, .rc⟩, ⟨"MISSING", 12, 0, .ro⟩]⟩,
  ⟨"BU_UP_ID_LO", 0x10008C, [], [0x0], [⟨"ID", 31, 0, .ro⟩]⟩,
  ⟨"BU_UP_ID_HI", 0x100090, [], [0x0], [⟨"ID", 31, 0, .ro⟩]⟩,
  ⟨"BU_SET_CTRL", 0x1000C0, [], [0x0], [⟨"COMMIT", 1, 1, .wo⟩, ⟨"READ", 0, 0, .wo⟩]⟩,
  ⟨"BU_SET_ADDR", 0x1000C4, [], [0x0], [⟨"VALUE", 31, 0, .rw⟩]⟩,
  ⟨"BU_SET_LEN", 0x1000C8, [], [0x0], [⟨"VALUE", 31, 0, .rw⟩]⟩]

/-- Registers of block BU, part 3 (18). -/
def regsBU3 : List RegRow := [
  ⟨"BU_SET_STAT", 0x1000CC, [], [0x0], [⟨"ERR", 31, 28, .ro⟩, ⟨"DONE", 20, 20, .w1c⟩, ⟨"BUSY", 19, 19, .ro⟩, ⟨"COPY", 18, 18, .ro⟩, ⟨"NONE", 17, 17, .ro⟩, ⟨"MIGRATE", 16, 16, .ro⟩, ⟨"SVER", 15, 0, .ro⟩]⟩,
  ⟨"BU_SET_VER", 0x1000D0, [], [0x0], [⟨"SETTINGS_VER", 15, 0, .ro⟩]⟩,
  ⟨"BU_UP_BUFi", 0x101000, [(1040, 0x4)], [0x0], [⟨"BYTES", 31, 0, .wo⟩]⟩]

/-- All registers of block BU. -/
def regsBU : List RegRow := regsBU1 ++ regsBU2 ++ regsBU3

/-- Registers of block WP, part 1 (04). -/
def regsWP1 : List RegRow := [
  ⟨"WP_CHk_CFG", 0x20000, [(2, 0x40)], [0x1000400], [⟨"WIRE_T", 31, 26, .rw⟩, ⟨"EDGE_MIN", 25, 16, .rw⟩, ⟨"FILT", 15, 8, .rw⟩, ⟨"IDX_EN", 4, 4, .rw⟩, ⟨"WIRE_EN", 3, 3, .rw⟩, ⟨"INV_DIR", 2, 2, .rw⟩, ⟨"MODE", 1, 0, .rw⟩]⟩,
  ⟨"WP_CHk_CPR", 0x20004, [(2, 0x40)], [0x4], [⟨"COUNTS_PER_REV", 31, 0, .rw⟩]⟩,
  ⟨"WP_CHk_ZPOS", 0x20008, [(2, 0x40)], [0x0], [⟨"Z_POS", 31, 0, .rw⟩]⟩,
  ⟨"WP_CHk_IDX", 0x2000C, [(2, 0x40)], [0x10002], [⟨"DIR_HYST", 23, 16, .rw⟩, ⟨"INDEX_TOL", 15, 0, .rw⟩]⟩,
  ⟨"WP_CHk_SSI", 0x20010, [(2, 0x40)], [0xA013319], [⟨"MONO", 31, 24, .rw⟩, ⟨"MISS_MAX", 19, 16, .rw⟩, ⟨"ERRBIT", 15, 15, .rw⟩, ⟨"PAR", 14, 13, .rw⟩, ⟨"GRAY", 12, 12, .rw⟩, ⟨"ST_BITS", 11, 6, .rw⟩, ⟨"BITS", 5, 0, .rw⟩]⟩,
  ⟨"WP_CHk_SSIT", 0x20014, [(2, 0x40)], [0xA0064], [⟨"PERIOD", 31, 16, .rw⟩, ⟨"SCK_HALF", 15, 0, .rw⟩]⟩,
  ⟨"WP_CHk_CNT", 0x20018, [(2, 0x40)], [0x0], [⟨"VALUE", 31, 0, .ro⟩]⟩,
  ⟨"WP_CHk_REV", 0x2001C, [(2, 0x40)], [0x0], [⟨"VALUE", 31, 0, .ro⟩]⟩,
  ⟨"WP_CHk_STAT", 0x20020, [(2, 0x40)], [0x0], [⟨"LEVEL", 18, 16, .ro⟩, ⟨"DIR", 15, 15, .ro⟩, ⟨"SSI_JUMP", 9, 9, .w1c⟩, ⟨"SSI_LOST", 8, 8, .w1c⟩, ⟨"SSI_PARITY", 7, 7, .w1c⟩, ⟨"INDEX_MISSING", 6, 6, .w1c⟩, ⟨"INDEX_ERR", 5, 5, .w1c⟩, ⟨"OVERRATE", 4, 4, .w1c⟩, ⟨"ILLEGAL", 3, 3, .w1c⟩, ⟨"WIRE_Z", 2, 2, .w1c⟩, ⟨"WIRE_B", 1, 1, .w1c⟩, ⟨"WIRE_A", 0, 0, .w1c⟩]⟩,
  ⟨"WP_CHk_QERR", 0x20024, [(2, 0x40)], [0x0], [⟨"IDX_DEV", 31, 16, .ro⟩, ⟨"ILLEGAL_CNT", 15, 0, .rc⟩]⟩,
  ⟨"WP_CHk_PT", 0x20028, [(2, 0x40)], [0x10000], [⟨"ZLINES", 31, 16, .rw⟩, ⟨"CPL", 15, 8, .rw⟩, ⟨"PT_MODE", 1, 0, .rw⟩]⟩,
  ⟨"WP_CTRL", 0x20100, [], [0x0], [⟨"ZLATCH", 5, 5, .wo⟩, ⟨"ARM", 4, 4, .wo⟩, ⟨"SRC", 1, 0, .wo⟩]⟩]

/-- Registers of block WP, part 2 (04). -/
def regsWP2 : List RegRow := [
  ⟨"WP_RATIO_FRAC", 0x20104, [], [0x0], [⟨"FRAC", 31, 0, .rw⟩]⟩,
  ⟨"WP_RATIO_INT", 0x20108, [], [0x0], [⟨"INT", 15, 0, .rw⟩]⟩,
  ⟨"WP_ARM_POS_LO", 0x2010C, [], [0x0], [⟨"POS", 31, 0, .rw⟩]⟩,
  ⟨"WP_ARM_POS_HI", 0x20110, [], [0x0], [⟨"POS", 15, 0, .rw⟩]⟩,
  ⟨"WP_POS_LO", 0x20114, [], [0x0], [⟨"POS", 31, 0, .ro⟩]⟩,
  ⟨"WP_POS_HI", 0x20118, [], [0x0], [⟨"POS", 15, 0, .ro⟩]⟩,
  ⟨"WP_LINE", 0x2011C, [], [0x0], [⟨"LINE", 31, 0, .ro⟩]⟩,
  ⟨"WP_HWM", 0x20120, [], [0x0], [⟨"LINE", 31, 0, .ro⟩]⟩,
  ⟨"WP_HOLD_LINE", 0x20124, [], [0x0], [⟨"LINE", 31, 0, .ro⟩]⟩,
  ⟨"WP_PERIOD", 0x20128, [], [0x0], [⟨"P", 31, 0, .ro⟩]⟩,
  ⟨"WP_BACKUP", 0x2012C, [], [0x0], [⟨"PIN_LOW", 1, 1, .ro⟩, ⟨"ACTIVE", 0, 0, .ro⟩]⟩,
  ⟨"WP_BACKUP_TMO", 0x20130, [], [0x2710], [⟨"MS", 31, 0, .rw⟩]⟩]

/-- Registers of block WP, part 3 (04). -/
def regsWP3 : List RegRow := [
  ⟨"WP_BACKUP_CNT", 0x20134, [], [0x0], [⟨"COUNT", 31, 0, .ro⟩]⟩,
  ⟨"WP_TICKS_IDLE", 0x20138, [], [0x0], [⟨"COUNT", 31, 0, .ro⟩]⟩,
  ⟨"WP_PLACE_MAX", 0x2013C, [], [0x0], [⟨"PORT", 31, 16, .rc⟩, ⟨"ERR", 15, 0, .rc⟩]⟩,
  ⟨"WP_STAT", 0x20140, [], [0x0], [⟨"SRC", 9, 8, .ro⟩, ⟨"PT_LAG", 7, 7, .w1c⟩, ⟨"CFG_REFUSED", 6, 6, .w1c⟩, ⟨"COMPARE_BEHIND", 5, 5, .w1c⟩, ⟨"BACKUP_TIMEOUT", 4, 4, .w1c⟩, ⟨"RANGE", 3, 3, .w1c⟩, ⟨"LINE_RATE_HIGH", 2, 2, .w1c⟩, ⟨"LINE_MISSED", 1, 1, .w1c⟩, ⟨"OVERSPEED", 0, 0, .w1c⟩]⟩,
  ⟨"WP_CMPk_LO", 0x20200, [(8, 0x10)], [0x0], [⟨"TARGET", 31, 0, .rw⟩]⟩,
  ⟨"WP_CMPk_HI", 0x20204, [(8, 0x10)], [0x0], [⟨"TARGET", 15, 0, .rw⟩]⟩,
  ⟨"WP_CMPk_CTRL", 0x20208, [(8, 0x10)], [0x0], [⟨"ARMED", 13, 13, .ro⟩, ⟨"BEHIND", 12, 12, .w1c⟩, ⟨"FIRED", 11, 11, .w1c⟩, ⟨"AXIS", 10, 9, .rw⟩, ⟨"ACTION", 8, 6, .rw⟩, ⟨"SRC", 5, 4, .rw⟩, ⟨"DIR", 3, 2, .rw⟩, ⟨"ARM", 0, 0, .wo⟩]⟩]

/-- All registers of block WP. -/
def regsWP : List RegRow := regsWP1 ++ regsWP2 ++ regsWP3

/-- Registers of block JS, part 1 (05). -/
def regsJS1 : List RegRow := [
  ⟨"JS_CTRL", 0x30000, [], [0x0], [⟨"SLOT", 8, 8, .wo⟩, ⟨"UNLOAD", 2, 2, .wo⟩, ⟨"ARM", 1, 1, .wo⟩, ⟨"LOAD", 0, 0, .wo⟩]⟩,
  ⟨"JS_STAT", 0x30004, [], [0x0], [⟨"NEXT_VALID", 9, 9, .ro⟩, ⟨"CUR_SLOT", 8, 8, .ro⟩, ⟨"ARM_REFUSED", 5, 5, .w1c⟩, ⟨"RASTER_ORDER", 4, 4, .w1c⟩, ⟨"RECORD_ORDER", 3, 3, .w1c⟩, ⟨"RECORD_BAD", 2, 2, .w1c⟩, ⟨"LINE_LATE", 1, 1, .w1c⟩, ⟨"LOAD_REFUSED", 0, 0, .w1c⟩]⟩,
  ⟨"JS_LATE_LINE", 0x30008, [], [0x0], [⟨"VALUE", 31, 0, .ro⟩]⟩,
  ⟨"JS_LATE_CNT", 0x3000C, [], [0x0], [⟨"VALUE", 31, 0, .rc⟩]⟩,
  ⟨"JS_LRING", 0x30010, [], [0x0], [⟨"NEED_KIB", 31, 16, .ro⟩, ⟨"ENTRY_KIB", 15, 0, .ro⟩]⟩,
  ⟨"JS_PLATE_CMD", 0x30020, [], [0x0], [⟨"OP", 9, 8, .wo⟩, ⟨"SLOT", 3, 0, .wo⟩]⟩,
  ⟨"JS_PLATE_STAT", 0x30024, [], [0x0], [⟨"ERR", 3, 0, .ro⟩]⟩,
  ⟨"JS_PLATEk_BASE", 0x30040, [(16, 0x10)], [0x0], [⟨"ADDR64K", 31, 0, .rw⟩]⟩,
  ⟨"JS_PLATEk_CFG", 0x30044, [(16, 0x10)], [0x1], [⟨"STATE", 31, 30, .ro⟩, ⟨"LINES", 16, 0, .rw⟩]⟩,
  ⟨"JS_PLATEk_FILL", 0x30048, [(16, 0x10)], [0x0], [⟨"BYTES", 31, 0, .ro⟩]⟩,
  ⟨"JS_JOBs_DESC", 0x30200, [(2, 0x40)], [0x0], [⟨"ADDR64", 31, 0, .rw⟩]⟩,
  ⟨"JS_JOBs_STAT", 0x30204, [(2, 0x40)], [0x0], [⟨"ERR", 11, 8, .ro⟩, ⟨"STATE", 2, 0, .ro⟩]⟩]

/-- Registers of block JS, part 2 (05). -/
def regsJS2 : List RegRow := [
  ⟨"JS_JOBs_RING_WP", 0x30208, [(2, 0x40)], [0x0], [⟨"OFFSET", 31, 6, .rw⟩]⟩,
  ⟨"JS_JOBs_RING_RP", 0x3020C, [(2, 0x40)], [0x0], [⟨"OFFSET", 31, 0, .ro⟩]⟩,
  ⟨"JS_JOBs_END_LINE", 0x30210, [(2, 0x40)], [0x0], [⟨"VALUE", 31, 0, .ro⟩]⟩,
  ⟨"JS_JOBs_LAST_ROW", 0x30214, [(2, 0x40)], [0x0], [⟨"VALUE", 31, 0, .ro⟩]⟩,
  ⟨"JS_JOBs_RASTER_WP", 0x30218, [(2, 0x40)], [0x0], [⟨"COUNT", 31, 0, .ro⟩]⟩,
  ⟨"JS_JOBs_DISCARD", 0x3021C, [(2, 0x40)], [0x0], [⟨"COUNT", 31, 0, .ro⟩]⟩]

/-- All registers of block JS. -/
def regsJS : List RegRow := regsJS1 ++ regsJS2

/-- Registers of block AU, part 1 (06, 16). -/
def regsAU1 : List RegRow := [
  ⟨"AU_PLAY_CFG", 0xE0400, [], [0x8], [⟨"FAIL_MAX", 7, 0, .rw⟩]⟩,
  ⟨"AU_PLAY_STAT", 0xE0404, [], [0x0], [⟨"FAIL_RUN", 15, 8, .ro⟩, ⟨"SEAL_ACCESS", 3, 3, .w1c⟩, ⟨"BURST", 2, 2, .w1c⟩, ⟨"AUTH_FAIL", 1, 1, .w1c⟩, ⟨"KEY_LOCKED", 0, 0, .ro⟩]⟩,
  ⟨"AU_PLAY_OK", 0xE0408, [], [0x0], [⟨"COUNT", 31, 0, .ro⟩]⟩,
  ⟨"AU_PLAY_FAIL", 0xE040C, [], [0x0], [⟨"COUNT", 31, 0, .ro⟩]⟩,
  ⟨"AU_SEAL_ACC", 0xE0410, [], [0x0], [⟨"REGION", 7, 4, .ro⟩, ⟨"REQ", 3, 0, .ro⟩]⟩,
  ⟨"AU_RNDR_ERR", 0xE0414, [], [0x0], [⟨"REASON", 25, 21, .ro⟩, ⟨"FIELD", 20, 16, .ro⟩, ⟨"CELL", 9, 0, .ro⟩]⟩,
  ⟨"AU_RNDR_ERR_INST", 0xE0418, [], [0x0], [⟨"INST", 31, 0, .ro⟩]⟩,
  ⟨"AU_STAT", 0xE0000, [], [0x0], [⟨"KEYS_MISSING", 8, 8, .ro⟩, ⟨"KEYSTORE_EXH", 7, 7, .w1c⟩, ⟨"FLASH_ERR", 6, 6, .w1c⟩, ⟨"RING_FULL", 5, 5, .w1c⟩, ⟨"RING_WARN", 4, 4, .w1c⟩, ⟨"ZEROIZED", 3, 3, .w1c⟩, ⟨"TAMPER", 2, 2, .w1c⟩, ⟨"WIT_LOST", 1, 1, .w1c⟩, ⟨"WIT_MISMATCH", 0, 0, .w1c⟩]⟩,
  ⟨"AU_CHIP_ID_LO", 0xE0004, [], [0x0], [⟨"ID", 31, 0, .ro⟩]⟩,
  ⟨"AU_CHIP_ID_HI", 0xE0008, [], [0x0], [⟨"ID", 31, 0, .ro⟩]⟩,
  ⟨"AU_SEQ_LO", 0xE000C, [], [0x0], [⟨"SEQ", 31, 0, .ro⟩]⟩,
  ⟨"AU_SEQ_HI", 0xE0010, [], [0x0], [⟨"SEQ", 31, 0, .ro⟩]⟩]

/-- Registers of block AU, part 2 (16). -/
def regsAU2 : List RegRow := [
  ⟨"AU_SUMMIT_SEQ", 0xE0014, [], [0x0], [⟨"SEQ", 31, 0, .ro⟩]⟩,
  ⟨"AU_OPEN", 0xE0018, [], [0x0], [⟨"MAX", 31, 16, .rc⟩, ⟨"USED", 15, 0, .ro⟩]⟩,
  ⟨"AU_CTRL", 0xE001C, [], [0x0], [⟨"CONFIRM", 15, 8, .wo⟩, ⟨"REPLAY", 2, 2, .wo⟩, ⟨"ATTEST", 1, 1, .wo⟩, ⟨"ZEROIZE", 0, 0, .wo⟩]⟩,
  ⟨"AU_ATT_ADDR", 0xE0020, [], [0x0], [⟨"VALUE", 31, 0, .rw⟩]⟩,
  ⟨"AU_REPLAY_SEQ_LO", 0xE0024, [], [0x0], [⟨"VALUE", 31, 0, .rw⟩]⟩,
  ⟨"AU_REPLAY_SEQ_HI", 0xE0028, [], [0x0], [⟨"VALUE", 31, 0, .rw⟩]⟩,
  ⟨"AU_PUB_CTR", 0xE002C, [], [0x0], [⟨"CTR", 31, 0, .ro⟩]⟩,
  ⟨"AU_KEY_CMD", 0xE0100, [], [0x0], [⟨"SLOT", 11, 8, .wo⟩, ⟨"OP", 2, 0, .wo⟩]⟩,
  ⟨"AU_KEY_ARG", 0xE0104, [], [0x0], [⟨"ADDR64", 31, 0, .rw⟩]⟩,
  ⟨"AU_KEY_STAT", 0xE0108, [], [0x0], [⟨"ERR", 23, 20, .ro⟩, ⟨"DONE", 17, 17, .w1c⟩, ⟨"BUSY", 16, 16, .ro⟩, ⟨"FILLED", 15, 0, .ro⟩]⟩,
  ⟨"AU_KEY_GEN", 0xE010C, [], [0x0], [⟨"ZGEN", 6, 0, .ro⟩]⟩,
  ⟨"AU_TAMPER_CFG", 0xE0110, [], [0x0], [⟨"POL", 7, 4, .rw⟩, ⟨"EN", 3, 0, .rws⟩]⟩]

/-- Registers of block AU, part 3 (16). -/
def regsAU3 : List RegRow := [
  ⟨"AU_TAMPER_STAT", 0xE0114, [], [0x0], [⟨"LEVEL", 7, 4, .ro⟩, ⟨"HIT", 3, 0, .rws⟩]⟩,
  ⟨"AU_TAMPER_CNT", 0xE0118, [], [0x0], [⟨"COUNT", 31, 0, .rws⟩]⟩,
  ⟨"AU_TAMPER_FILT", 0xE011C, [], [0x0], [⟨"FILT3", 31, 24, .rw⟩, ⟨"FILT2", 23, 16, .rw⟩, ⟨"FILT1", 15, 8, .rw⟩, ⟨"FILT0", 7, 0, .rw⟩]⟩,
  ⟨"AU_RING_CFG", 0xE0200, [], [0x50], [⟨"WARN_PCT", 6, 0, .rw⟩]⟩,
  ⟨"AU_RING_ACK_LO", 0xE0204, [], [0x0], [⟨"SEQ", 31, 0, .rw⟩]⟩,
  ⟨"AU_RING_ACK_HI", 0xE0208, [], [0x0], [⟨"SEQ", 31, 0, .rw⟩]⟩,
  ⟨"AU_RING_STAT", 0xE020C, [], [0x0], [⟨"HELD", 7, 7, .ro⟩, ⟨"FILL_PCT", 6, 0, .ro⟩]⟩,
  ⟨"AU_NET_CFG", 0xE0210, [], [0x0], [⟨"UP_EN", 1, 1, .rw⟩, ⟨"ETH_EN", 0, 0, .rw⟩]⟩,
  ⟨"AU_NET_DST_LO", 0xE0214, [], [0x0], [⟨"VALUE", 31, 0, .rw⟩]⟩,
  ⟨"AU_NET_DST_HI", 0xE0218, [], [0x0], [⟨"VALUE", 15, 0, .rw⟩]⟩,
  ⟨"AU_WIT_CFG", 0xE0300, [], [0x0], [⟨"PARTNER", 31, 24, .rw⟩, ⟨"WIT_TMO", 23, 12, .rw⟩, ⟨"WIT_LOSS", 11, 4, .rw⟩, ⟨"ROLE", 1, 0, .rw⟩]⟩,
  ⟨"AU_WIT_LINE", 0xE0304, [], [0x0], [⟨"LINE", 31, 0, .ro⟩]⟩]

/-- Registers of block AU, part 4 (16). -/
def regsAU4 : List RegRow := [
  ⟨"AU_WIT_MISMATCH", 0xE0308, [], [0xFFFFFFFF], [⟨"LINE", 31, 0, .ro⟩]⟩]

/-- All registers of block AU. -/
def regsAU : List RegRow := regsAU1 ++ regsAU2 ++ regsAU3 ++ regsAU4

/-- Registers of block HP, part 1 (07). -/
def regsHP1 : List RegRow := [
  ⟨"HP_CTRL", 0x40000, [], [0x0], [⟨"CFG_SEND", 1, 1, .wo⟩, ⟨"GATE_CLEAR", 0, 0, .wo⟩]⟩,
  ⟨"HP_STAT", 0x40004, [], [0x0], [⟨"CFG_REFUSED", 8, 8, .w1c⟩, ⟨"HEAD_INSERT", 7, 7, .w1c⟩, ⟨"RET_FRAME", 6, 6, .w1c⟩, ⟨"HEAD_CFG", 5, 5, .w1c⟩, ⟨"HEAD_MISMATCH", 4, 4, .w1c⟩, ⟨"HEAD_LOST", 3, 3, .w1c⟩, ⟨"HEAD_SEQ", 2, 2, .w1c⟩, ⟨"HEAD_CRC", 1, 1, .w1c⟩, ⟨"GATE_CUT", 0, 0, .w1c⟩]⟩,
  ⟨"HP_GATE", 0x40008, [], [0x0], [⟨"CUT", 24, 16, .ro⟩, ⟨"LEVEL", 8, 0, .ro⟩]⟩,
  ⟨"HP_RET_CFG", 0x4000C, [], [0x140064], [⟨"ABSENT_US", 23, 16, .rw⟩, ⟨"STALE_US", 15, 0, .rw⟩]⟩,
  ⟨"HP_LEe", 0x40040, [(16, 0x4)], [0x0], [⟨"LATE", 31, 16, .rc⟩, ⟨"MAX_CYCLES", 15, 0, .rc⟩]⟩,
  ⟨"HP_Pp_STAT", 0x40100, [(64, 0x10)], [0x0], [⟨"HEAD_TYPE", 31, 16, .ro⟩, ⟨"REV", 15, 12, .ro⟩, ⟨"INHIBIT", 10, 10, .ro⟩, ⟨"CFG_OK", 9, 9, .ro⟩, ⟨"PAR_ECHO", 8, 8, .ro⟩, ⟨"RET_ERR", 6, 6, .w1c⟩, ⟨"SEQ_ERR", 5, 5, .w1c⟩, ⟨"CRC_ERR", 4, 4, .w1c⟩, ⟨"STATE", 2, 0, .ro⟩]⟩,
  ⟨"HP_Pp_TEMP", 0x40104, [(64, 0x10)], [0x0], [⟨"AGE_US", 31, 16, .ro⟩, ⟨"TEMP", 13, 0, .ro⟩]⟩,
  ⟨"HP_Pp_SERIAL", 0x40108, [(64, 0x10)], [0x0], [⟨"SERIAL", 31, 0, .ro⟩]⟩,
  ⟨"HP_Pp_ERRCNT", 0x4010C, [(64, 0x10)], [0x0], [⟨"HEAD_CRC", 31, 16, .rc⟩, ⟨"RET_BAD", 15, 0, .rc⟩]⟩]

/-- All registers of block HP. -/
def regsHP : List RegRow := regsHP1

/-- Registers of block FE, part 1 (08). -/
def regsFE1 : List RegRow := [
  ⟨"FE_STAT", 0x50000, [], [0x0], [⟨"VH_RANGE", 4, 4, .w1c⟩, ⟨"WIDTH_CLAMP", 3, 3, .w1c⟩, ⟨"HEAD_DERATE", 2, 2, .w1c⟩, ⟨"HEAD_HOT", 1, 1, .w1c⟩, ⟨"BANK_LIMIT", 0, 0, .w1c⟩]⟩,
  ⟨"FE_WTAB_BASE", 0x50004, [], [0x8000], [⟨"OFFSET", 31, 0, .ro⟩]⟩,
  ⟨"FE_WTAB_COUNT", 0x50008, [], [0x0], [⟨"COUNT", 5, 0, .ro⟩]⟩,
  ⟨"FE_BANKb_CFG", 0x50100, [(16, 0x10)], [0x0], [⟨"OVF", 31, 28, .ro⟩, ⟨"PHASES", 27, 23, .ro⟩, ⟨"BANK_MAX", 13, 0, .ro⟩]⟩,
  ⟨"FE_BANKb_WARM", 0x50104, [(16, 0x10)], [0x0], [⟨"HZ", 15, 0, .rw⟩]⟩,
  ⟨"FE_BANKb_LOAD", 0x50108, [(16, 0x10)], [0x0], [⟨"BLANK", 31, 16, .rc⟩, ⟨"MAXLOAD", 15, 0, .rc⟩]⟩,
  ⟨"FE_BANKb_DEFER", 0x5010C, [(16, 0x10)], [0x0], [⟨"COUNT", 31, 0, .rc⟩]⟩,
  ⟨"FE_Pp_CFG", 0x50400, [(64, 0x10)], [0x0], [⟨"PITCH", 27, 16, .ro⟩, ⟨"WSEL", 9, 8, .ro⟩, ⟨"ENTRY", 5, 0, .ro⟩]⟩,
  ⟨"FE_Pp_WARM", 0x50404, [(64, 0x10)], [0x0], [⟨"WIDTH", 8, 0, .rw⟩]⟩,
  ⟨"FE_Pp_FACT", 0x50408, [(64, 0x10)], [0x0], [⟨"F_V", 31, 16, .ro⟩, ⟨"F_T", 15, 0, .ro⟩]⟩,
  ⟨"FE_Pp_STAT", 0x5040C, [(64, 0x10)], [0x0], [⟨"DERATE_IDX", 18, 16, .ro⟩, ⟨"VH_RANGE", 3, 3, .w1c⟩, ⟨"CLAMP", 2, 2, .w1c⟩, ⟨"DERATE", 1, 1, .ro⟩, ⟨"HOT", 0, 0, .ro⟩]⟩]

/-- All registers of block FE. -/
def regsFE : List RegRow := regsFE1

/-- Registers of block NH, part 1 (09). -/
def regsNH1 : List RegRow := [
  ⟨"NH_CTRL", 0x60000, [], [0x0], [⟨"RESTORE", 8, 8, .wo⟩, ⟨"PORT", 5, 0, .wo⟩]⟩,
  ⟨"NH_STAT", 0x60004, [], [0x0], [⟨"RESTORE_REFUSED", 8, 8, .w1c⟩, ⟨"HEAD_NEW", 7, 7, .w1c⟩, ⟨"DECAP_RISK", 6, 6, .w1c⟩, ⟨"DECAP_DUE", 5, 5, .w1c⟩, ⟨"GATE_ABORT", 4, 4, .w1c⟩, ⟨"EVID_STALE", 3, 3, .w1c⟩, ⟨"NQ_FULL", 2, 2, .w1c⟩, ⟨"HEAD_REPLACE", 1, 1, .w1c⟩, ⟨"NOZZLE_STATE", 0, 0, .w1c⟩]⟩,
  ⟨"NH_CFG", 0x60008, [], [0x330400], [⟨"WARM_SPIT", 31, 31, .rw⟩, ⟨"AUTO_SPIT", 30, 30, .rw⟩, ⟨"DECAP_K", 29, 24, .rw⟩, ⟨"MISS_N", 23, 20, .rw⟩, ⟨"WEAK_N", 19, 16, .rw⟩, ⟨"EVID_WINDOW", 15, 0, .rw⟩]⟩,
  ⟨"NH_EPOCH", 0x6000C, [], [0x0], [⟨"PENDING", 17, 17, .ro⟩, ⟨"STAGING", 16, 16, .ro⟩, ⟨"EPOCH", 15, 0, .ro⟩]⟩,
  ⟨"NH_COMMIT_LINE", 0x60010, [], [0x0], [⟨"LINE", 31, 0, .ro⟩]⟩,
  ⟨"NH_QUEUE", 0x60014, [], [0x0], [⟨"DROPPED", 31, 16, .rc⟩, ⟨"USED", 8, 0, .ro⟩]⟩,
  ⟨"NH_HIST_SEL", 0x60018, [], [0x0], [⟨"INDEX", 7, 0, .rw⟩]⟩,
  ⟨"NH_HIST_LINE", 0x6001C, [], [0x0], [⟨"VALUE", 31, 0, .ro⟩]⟩,
  ⟨"NH_HIST_EPOCH", 0x60020, [], [0x0], [⟨"VALID", 16, 16, .ro⟩, ⟨"EPOCH", 15, 0, .ro⟩]⟩,
  ⟨"NH_SHADOW", 0x60024, [], [0x0], [⟨"ADDR128K", 31, 0, .rw⟩]⟩,
  ⟨"NH_EVID_DROP", 0x60028, [], [0x0], [⟨"STALE", 31, 16, .rc⟩, ⟨"SPLIT_GAP", 15, 0, .rc⟩]⟩,
  ⟨"NH_WEAR_CFG", 0x6002C, [], [0xA8003C], [⟨"HORIZON_H", 31, 16, .rw⟩, ⟨"WIN_S", 15, 0, .rw⟩]⟩]

/-- Registers of block NH, part 2 (09). -/
def regsNH2 : List RegRow := [
  ⟨"NH_GATE_CTRL", 0x60040, [], [0x0], [⟨"ABORT", 1, 1, .wo⟩, ⟨"START", 0, 0, .wo⟩]⟩,
  ⟨"NH_GATE_CFG", 0x60044, [], [0x44000000], [⟨"REPEATS", 31, 28, .rw⟩, ⟨"VALUE", 27, 26, .rw⟩, ⟨"UNIT", 23, 0, .rw⟩]⟩,
  ⟨"NH_GATE_TIME", 0x60048, [], [0x13880064], [⟨"SHOT_HZ", 31, 16, .rw⟩, ⟨"SETTLE_US", 15, 0, .rw⟩]⟩,
  ⟨"NH_GATE_WIN", 0x6004C, [], [0xFA00064], [⟨"WIN_LEN", 31, 16, .rw⟩, ⟨"WIN_OPEN", 15, 0, .rw⟩]⟩,
  ⟨"NH_GATE_DT", 0x60050, [], [0xBB801F4], [⟨"DT_MAX", 31, 16, .rw⟩, ⟨"DT_MIN", 15, 0, .rw⟩]⟩,
  ⟨"NH_GATE_ORG", 0x60054, [], [0x0], [⟨"VALUE", 31, 0, .rw⟩]⟩,
  ⟨"NH_GATE_MPP", 0x60058, [], [0x0], [⟨"VALUE", 31, 0, .rw⟩]⟩,
  ⟨"NH_GATE_STAT", 0x6005C, [], [0x0], [⟨"SCAN", 31, 16, .ro⟩, ⟨"CAUSE", 7, 4, .ro⟩, ⟨"STATE", 3, 0, .ro⟩]⟩,
  ⟨"NH_SPITk", 0x60080, [(16, 0x4)], [0x3E80140], [⟨"HZ", 31, 16, .rw⟩, ⟨"STRIDE", 12, 10, .rw⟩, ⟨"VALUE", 9, 8, .rw⟩, ⟨"LINES", 7, 0, .rw⟩]⟩,
  ⟨"NH_Pp_CFG", 0x60100, [(64, 0x10)], [0x0], [⟨"WEAR_LIMIT", 31, 16, .rw⟩, ⟨"DECAP_MS", 15, 0, .rw⟩]⟩,
  ⟨"NH_Pp_LIM", 0x60104, [(64, 0x10)], [0x0], [⟨"COVER_MIN", 26, 16, .rw⟩, ⟨"GAP_MAX", 11, 0, .rw⟩]⟩,
  ⟨"NH_Pp_STAT", 0x60108, [(64, 0x10)], [0x0], [⟨"HEAD_REPLACE_REQ", 31, 31, .ro⟩, ⟨"WEAR", 30, 30, .ro⟩, ⟨"GAP_HIGH", 29, 29, .ro⟩, ⟨"COVER_LOW", 28, 28, .ro⟩, ⟨"DECAP_DUE", 27, 27, .w1c⟩, ⟨"COVER", 26, 16, .ro⟩, ⟨"GAPS", 11, 0, .ro⟩]⟩]

/-- Registers of block NH, part 3 (09). -/
def regsNH3 : List RegRow := [
  ⟨"NH_Pp_WEAR", 0x6010C, [(64, 0x10)], [0xFFFF0000], [⟨"PROJ_H", 31, 16, .ro⟩, ⟨"MAX_CNT", 15, 0, .ro⟩]⟩]

/-- All registers of block NH. -/
def regsNH : List RegRow := regsNH1 ++ regsNH2 ++ regsNH3

/-- Registers of block IN, part 1 (10). -/
def regsIN1 : List RegRow := [
  ⟨"IN_CTRL", 0x70000, [], [0x0], [⟨"EN", 0, 0, .rw⟩]⟩,
  ⟨"IN_STAT", 0x70004, [], [0x0], [⟨"EN_ERR", 31, 28, .ro⟩, ⟨"EN_REFUSED", 13, 13, .w1c⟩, ⟨"SEAL_ACCESS", 12, 12, .w1c⟩, ⟨"BANK_BUSY", 11, 11, .w1c⟩, ⟨"CFG_REFUSED", 10, 10, .w1c⟩, ⟨"TICKET_UNVER", 9, 9, .w1c⟩, ⟨"INSPECT_VOID", 8, 8, .w1c⟩, ⟨"SEG_LATE", 7, 7, .w1c⟩, ⟨"RX_OVERFLOW", 6, 6, .w1c⟩, ⟨"META_MISS", 5, 5, .w1c⟩, ⟨"PARAM_MISS", 4, 4, .w1c⟩, ⟨"CSI_CRC", 3, 3, .w1c⟩, ⟨"CSI_ECC", 2, 2, .w1c⟩, ⟨"LINE_LEN", 1, 1, .w1c⟩, ⟨"FRAME_LEN", 0, 0, .w1c⟩]⟩,
  ⟨"IN_CFG", 0x70008, [], [0x27104000], [⟨"CLOSE_TMO", 31, 16, .rw⟩, ⟨"ASM_LAG", 15, 8, .rw⟩, ⟨"SYM_REQUIRE", 3, 3, .rw⟩, ⟨"UNVER_POLICY", 2, 2, .rw⟩, ⟨"PT_CH", 1, 1, .rw⟩, ⟨"EXPOSURES", 0, 0, .rw⟩]⟩,
  ⟨"IN_PORTn_CFG", 0x70010, [(2, 0x4)], [0x9C40002], [⟨"RATE_MBPS", 27, 16, .rw⟩, ⟨"POL", 7, 4, .rw⟩, ⟨"LANES", 1, 0, .rw⟩]⟩,
  ⟨"IN_PORTn_ERR", 0x70018, [(2, 0x4)], [0x0], [⟨"ECC_FIX", 31, 16, .rc⟩, ⟨"DISCARD", 15, 0, .rc⟩]⟩,
  ⟨"IN_THR", 0x70020, [], [0x2580258], [⟨"DARK_T", 27, 16, .rw⟩, ⟨"LIGHT_T", 11, 0, .rw⟩]⟩,
  ⟨"IN_CNT_CFG", 0x70024, [], [0x100040], [⟨"N_MIN", 31, 16, .rw⟩, ⟨"DEFECT_MAX", 15, 0, .rw⟩]⟩,
  ⟨"IN_EVID_CFG", 0x70028, [], [0x4000100], [⟨"CONTRAST_MIN", 27, 16, .rw⟩, ⟨"EVID_LINES", 12, 0, .rw⟩]⟩,
  ⟨"IN_EVID_THR", 0x7002C, [], [0x99A0400], [⟨"MISS_T", 28, 16, .rw⟩, ⟨"WEAK_T", 12, 0, .rw⟩]⟩,
  ⟨"IN_SYM_CFG", 0x70030, [], [0x6660C88], [⟨"SC_MIN", 27, 16, .rw⟩, ⟨"MOD_MARGIN", 15, 4, .rw⟩, ⟨"INSET", 3, 0, .rw⟩]⟩,
  ⟨"IN_SYM_ERR", 0x70034, [], [0x4], [⟨"MODERR_MAX", 15, 0, .rw⟩]⟩,
  ⟨"IN_DROPW", 0x70038, [], [0x201810], [⟨"W3", 21, 16, .rw⟩, ⟨"W2", 13, 8, .rw⟩, ⟨"W1", 5, 0, .rw⟩]⟩]

/-- Registers of block IN, part 2 (10). -/
def regsIN2 : List RegRow := [
  ⟨"IN_KERNr", 0x70040, [(3, 0x4)], [0x102010, 0x204020, 0x102010], [⟨"K2", 23, 16, .rw⟩, ⟨"K1", 15, 8, .rw⟩, ⟨"K0", 7, 0, .rw⟩]⟩,
  ⟨"IN_EXP_ADDR", 0x70050, [], [0x0], [⟨"VALUE", 31, 0, .rw⟩]⟩,
  ⟨"IN_EXP_LINES", 0x70054, [], [0x0], [⟨"VALUE", 31, 0, .rw⟩]⟩,
  ⟨"IN_IMG_ADDR", 0x70058, [], [0x0], [⟨"VALUE", 31, 0, .rw⟩]⟩,
  ⟨"IN_IMG_LINES", 0x7005C, [], [0x0], [⟨"VALUE", 31, 0, .rw⟩]⟩,
  ⟨"IN_IHWM", 0x70060, [], [0x0], [⟨"V", 31, 0, .ro⟩]⟩,
  ⟨"IN_DISCARD", 0x70064, [], [0x0], [⟨"EARLY", 31, 16, .rc⟩, ⟨"REPEAT", 15, 0, .rc⟩]⟩,
  ⟨"IN_VPASS", 0x70068, [], [0x0], [⟨"COUNT", 31, 0, .rc⟩]⟩,
  ⟨"IN_VVOID", 0x7006C, [], [0x0], [⟨"COUNT", 31, 0, .rc⟩]⟩,
  ⟨"IN_VUNVER", 0x70070, [], [0x0], [⟨"COUNT", 31, 0, .rc⟩]⟩,
  ⟨"IN_SEAL_ACC", 0x70074, [], [0x0], [⟨"REGION", 5, 4, .ro⟩, ⟨"REQ", 3, 0, .ro⟩]⟩,
  ⟨"IN_TAB_SEL", 0x70080, [], [0x0], [⟨"TABLE", 31, 28, .rw⟩, ⟨"SEG", 27, 24, .rw⟩, ⟨"BANK", 23, 23, .rw⟩, ⟨"EXP", 22, 22, .rw⟩, ⟨"INDEX", 10, 0, .rw⟩]⟩]

/-- Registers of block IN, part 3 (10). -/
def regsIN3 : List RegRow := [
  ⟨"IN_TAB_DATA", 0x70084, [], [0x0], [⟨"VALUE", 15, 0, .rw⟩]⟩,
  ⟨"IN_XP_CTRL", 0x70090, [], [0x0], [⟨"START", 0, 0, .wo⟩]⟩,
  ⟨"IN_XP_FIRST", 0x70094, [], [0x0], [⟨"VALUE", 31, 0, .rw⟩]⟩,
  ⟨"IN_XP_COUNT", 0x70098, [], [0x0], [⟨"VALUE", 31, 0, .rw⟩]⟩,
  ⟨"IN_XP_DESC", 0x7009C, [], [0x0], [⟨"VALUE", 31, 0, .rw⟩]⟩,
  ⟨"IN_XP_STAT", 0x700A0, [], [0x0], [⟨"ERR", 7, 4, .ro⟩, ⟨"DONE", 1, 1, .w1c⟩, ⟨"BUSY", 0, 0, .ro⟩]⟩,
  ⟨"IN_SEGk_SRC", 0x70100, [(16, 0x40)], [0x0], [⟨"MIRROR", 6, 6, .rw⟩, ⟨"RAW12", 5, 5, .rw⟩, ⟨"VC", 4, 2, .rw⟩, ⟨"PORT", 1, 1, .rw⟩, ⟨"EN", 0, 0, .rw⟩]⟩,
  ⟨"IN_SEGk_GEOM", 0x70104, [(16, 0x40)], [0x800400], [⟨"FRAME_LINES", 27, 16, .rw⟩, ⟨"LINE_PIX", 11, 0, .rw⟩]⟩,
  ⟨"IN_SEGk_X0", 0x70108, [(16, 0x40)], [0x0], [⟨"VALUE", 31, 0, .rw⟩]⟩,
  ⟨"IN_SEGk_PITCH", 0x7010C, [(16, 0x40)], [0x80000], [⟨"VALUE", 31, 0, .rw⟩]⟩,
  ⟨"IN_SEGk_UWIN", 0x70110, [(16, 0x40)], [0x0], [⟨"U_HI", 29, 16, .rw⟩, ⟨"U_LO", 13, 0, .rw⟩]⟩,
  ⟨"IN_SEGk_SUB", 0x70114, [(16, 0x40)], [0x0], [⟨"CAM_SUB", 31, 0, .rw⟩]⟩]

/-- Registers of block IN, part 4 (10). -/
def regsIN4 : List RegRow := [
  ⟨"IN_SEGk_EMB", 0x70118, [(16, 0x40)], [0x40000], [⟨"SET_OFF", 27, 16, .rw⟩, ⟨"Q_OFF", 11, 0, .rw⟩]⟩,
  ⟨"IN_SEGk_BANK0", 0x7011C, [(16, 0x40)], [0x0], [⟨"BLEND_SH", 31, 28, .rw⟩, ⟨"KNEE", 27, 16, .rw⟩, ⟨"IN_USE", 9, 9, .ro⟩, ⟨"VALID", 8, 8, .rw⟩, ⟨"SET_ID", 7, 0, .rw⟩]⟩,
  ⟨"IN_SEGk_BANK1", 0x70120, [(16, 0x40)], [0x0], [⟨"BLEND_SH", 31, 28, .rw⟩, ⟨"KNEE", 27, 16, .rw⟩, ⟨"IN_USE", 9, 9, .ro⟩, ⟨"VALID", 8, 8, .rw⟩, ⟨"SET_ID", 7, 0, .rw⟩]⟩,
  ⟨"IN_SEGk_STAT", 0x70124, [(16, 0x40)], [0x0], [⟨"FRAME_LEN", 31, 16, .rc⟩, ⟨"BANK_SEL", 8, 8, .ro⟩, ⟨"LAST_SET", 7, 0, .ro⟩]⟩,
  ⟨"IN_SEGk_ERR", 0x70128, [(16, 0x40)], [0x0], [⟨"DROPPED", 31, 16, .rc⟩, ⟨"LINE_LEN", 15, 0, .rc⟩]⟩]

/-- All registers of block IN. -/
def regsIN : List RegRow := regsIN1 ++ regsIN2 ++ regsIN3 ++ regsIN4

/-- Registers of block LE, part 1 (11). -/
def regsLE1 : List RegRow := [
  ⟨"LE_STAT", 0x80000, [], [0x0], [⟨"AT_SAFE", 4, 4, .w1c⟩, ⟨"FROZEN", 3, 3, .w1c⟩, ⟨"IMPLAUSIBLE", 2, 2, .w1c⟩, ⟨"FAULT", 1, 1, .w1c⟩, ⟨"LATE", 0, 0, .w1c⟩]⟩,
  ⟨"LE_TICK", 0x80004, [], [0x0], [⟨"TICK", 31, 0, .ro⟩]⟩,
  ⟨"LE_LOAD", 0x80008, [], [0x0], [⟨"MAX_CYCLES", 31, 16, .rc⟩, ⟨"LAST_CYCLES", 15, 0, .ro⟩]⟩,
  ⟨"LE_XINi", 0x80040, [(16, 0x4)], [0x0], [⟨"VALUE", 15, 0, .rw⟩]⟩,
  ⟨"LE_XOUTi", 0x80080, [(16, 0x4)], [0x0], [⟨"VALUE", 15, 0, .rw⟩]⟩,
  ⟨"LE_Cc_CTRL", 0x80400, [(64, 0x20)], [0x0], [⟨"AUTO", 1, 1, .wo⟩, ⟨"MAN", 0, 0, .wo⟩]⟩,
  ⟨"LE_Cc_CFG", 0x80404, [(64, 0x20)], [0x0], [⟨"EN", 31, 31, .ro⟩, ⟨"CLASS", 30, 29, .ro⟩, ⟨"GATE", 28, 28, .rw⟩, ⟨"PERIOD", 15, 0, .ro⟩]⟩,
  ⟨"LE_Cc_STAT", 0x80408, [(64, 0x20)], [0x0], [⟨"REQ_REFUSED", 8, 8, .w1c⟩, ⟨"FAULT", 7, 7, .w1c⟩, ⟨"FROZEN", 6, 6, .w1c⟩, ⟨"IMPLAUSIBLE", 5, 5, .w1c⟩, ⟨"LATE", 4, 4, .w1c⟩, ⟨"INBAND", 3, 3, .ro⟩, ⟨"STATE", 2, 0, .ro⟩]⟩,
  ⟨"LE_Cc_SP", 0x8040C, [(64, 0x20)], [0x0], [⟨"SP", 15, 0, .rw⟩]⟩,
  ⟨"LE_Cc_Y", 0x80410, [(64, 0x20)], [0x0], [⟨"MODEL", 31, 16, .ro⟩, ⟨"Y", 15, 0, .ro⟩]⟩,
  ⟨"LE_Cc_OUT", 0x80414, [(64, 0x20)], [0x0], [⟨"E", 31, 16, .ro⟩, ⟨"OUTV", 15, 0, .ro⟩]⟩,
  ⟨"LE_Cc_INTEG", 0x80418, [(64, 0x20)], [0x0], [⟨"INTEG", 31, 0, .ro⟩]⟩]

/-- Registers of block LE, part 2 (11). -/
def regsLE2 : List RegRow := [
  ⟨"LE_Cc_CNT", 0x8041C, [(64, 0x20)], [0x0], [⟨"LATE", 31, 16, .rc⟩, ⟨"RUNS", 15, 0, .rc⟩]⟩]

/-- All registers of block LE. -/
def regsLE : List RegRow := regsLE1 ++ regsLE2

/-- Registers of block MO, part 1 (12). -/
def regsMO1 : List RegRow := [
  ⟨"MO_CFG", 0x90000, [], [0x1E80000], [⟨"ESTOP_HALT", 31, 31, .rw⟩, ⟨"CAP_HOME", 30, 30, .rw⟩, ⟨"I_LSB", 27, 16, .rw⟩, ⟨"FITTED", 3, 0, .rw⟩]⟩,
  ⟨"MO_VM", 0x90004, [], [0x5DC0], [⟨"VALUE", 31, 0, .rw⟩]⟩,
  ⟨"MO_OPEN_DIST", 0x90008, [], [0x0], [⟨"VALUE", 31, 0, .rw⟩]⟩,
  ⟨"MO_STAT", 0x9000C, [], [0x0], [⟨"CAP_SEQ", 7, 7, .ro⟩, ⟨"AT_CAP", 6, 6, .ro⟩, ⟨"CMP_HIT", 5, 5, .w1c⟩, ⟨"CAP_FAIL", 4, 4, .w1c⟩, ⟨"CHATTER", 3, 3, .w1c⟩, ⟨"HOMING_FAULT", 2, 2, .w1c⟩, ⟨"LIMIT", 1, 1, .w1c⟩, ⟨"STALL", 0, 0, .w1c⟩]⟩,
  ⟨"MO_Aa_CMD", 0x90100, [(4, 0x40)], [0x0], [⟨"TRIG", 4, 4, .wo⟩, ⟨"OP", 2, 0, .wo⟩]⟩,
  ⟨"MO_Aa_TARGET", 0x90104, [(4, 0x40)], [0x0], [⟨"POS", 31, 0, .rw⟩]⟩,
  ⟨"MO_Aa_HOME_POS", 0x90128, [(4, 0x40)], [0x0], [⟨"POS", 31, 0, .rw⟩]⟩,
  ⟨"MO_Aa_CAP_POS", 0x9012C, [(4, 0x40)], [0x0], [⟨"POS", 31, 0, .rw⟩]⟩,
  ⟨"MO_Aa_VMAX", 0x90108, [(4, 0x40)], [0x0], [⟨"VALUE", 31, 0, .rw⟩]⟩,
  ⟨"MO_Aa_AMAX", 0x9010C, [(4, 0x40)], [0x0], [⟨"VALUE", 31, 0, .rw⟩]⟩,
  ⟨"MO_Aa_JMAX", 0x90110, [(4, 0x40)], [0x0], [⟨"VALUE", 31, 0, .rw⟩]⟩,
  ⟨"MO_Aa_POS", 0x90114, [(4, 0x40)], [0x0], [⟨"POS", 31, 0, .ro⟩]⟩]

/-- Registers of block MO, part 2 (12). -/
def regsMO2 : List RegRow := [
  ⟨"MO_Aa_STAT", 0x90118, [(4, 0x40)], [0x10], [⟨"ERR", 15, 12, .ro⟩, ⟨"CAUSE", 11, 10, .ro⟩, ⟨"TRIG_NONE", 9, 9, .w1c⟩, ⟨"SAT", 8, 8, .w1c⟩, ⟨"LIM_HI", 7, 7, .ro⟩, ⟨"LIM_LO", 6, 6, .ro⟩, ⟨"QUEUED", 5, 5, .ro⟩, ⟨"LOST", 4, 4, .ro⟩, ⟨"HOMED", 3, 3, .ro⟩, ⟨"STATE", 2, 0, .ro⟩]⟩,
  ⟨"MO_Aa_ELEC", 0x9011C, [(4, 0x40)], [0x0], [⟨"KE", 31, 16, .rw⟩, ⟨"R_COIL", 15, 0, .rw⟩]⟩,
  ⟨"MO_Aa_CUR", 0x90120, [(4, 0x40)], [0x64000000], [⟨"HOLD_MS", 31, 24, .rw⟩, ⟨"I_HOLD", 23, 12, .rw⟩, ⟨"I_RUN", 11, 0, .rw⟩]⟩,
  ⟨"MO_Aa_HOME", 0x90124, [(4, 0x40)], [0x0], [⟨"HOME_DIR", 31, 31, .rw⟩, ⟨"HOME_V", 20, 0, .rw⟩]⟩,
  ⟨"MO_Aa_HOME_LIM", 0x90130, [(4, 0x40)], [0x2000186], [⟨"BACKOFF", 31, 16, .rw⟩, ⟨"HOME_MAX", 15, 0, .rw⟩]⟩,
  ⟨"MO_Aa_STALL", 0x90134, [(4, 0x40)], [0x83201F4], [⟨"STALL_N", 31, 24, .rw⟩, ⟨"STALL_PCT", 23, 16, .rw⟩, ⟨"STALL_VMIN", 15, 0, .rw⟩]⟩,
  ⟨"MO_Aa_LIM", 0x90138, [(4, 0x40)], [0x14], [⟨"LIM_DB", 7, 0, .rw⟩]⟩,
  ⟨"MO_CMPm_TARGET", 0x90200, [(8, 0x10)], [0x0], [⟨"TARGET", 31, 0, .rw⟩]⟩,
  ⟨"MO_CMPm_CTRL", 0x90204, [(8, 0x10)], [0x0], [⟨"ARMED", 13, 13, .ro⟩, ⟨"BEHIND", 12, 12, .w1c⟩, ⟨"FIRED", 11, 11, .w1c⟩, ⟨"TAXIS", 10, 9, .rw⟩, ⟨"ACTION", 8, 6, .rw⟩, ⟨"DIR", 3, 2, .rw⟩, ⟨"ARM", 0, 0, .wo⟩]⟩]

/-- All registers of block MO. -/
def regsMO : List RegRow := regsMO1 ++ regsMO2

/-- Registers of block MF, part 1 (13). -/
def regsMF1 : List RegRow := [
  ⟨"MF_STAT", 0xA0000, [], [0x0], [⟨"PARK_FULL", 3, 3, .w1c⟩, ⟨"REFUSED", 2, 2, .w1c⟩, ⟨"STARVE", 1, 1, .w1c⟩, ⟨"CYCLE", 0, 0, .w1c⟩]⟩,
  ⟨"MF_SET", 0xA0004, [], [0x1], [⟨"PENDING", 8, 8, .ro⟩, ⟨"SET", 0, 0, .ro⟩]⟩,
  ⟨"MF_PARK_T", 0xA0008, [], [0x100], [⟨"CYCLES", 15, 0, .rw⟩]⟩,
  ⟨"MF_WFW", 0xA000C, [], [0x4000], [⟨"LIMIT", 31, 0, .rw⟩]⟩,
  ⟨"MF_WFW_STAT", 0xA0010, [], [0x0], [⟨"KIND", 12, 12, .ro⟩, ⟨"ARB", 11, 8, .ro⟩, ⟨"REQ", 3, 0, .ro⟩]⟩,
  ⟨"MF_REFUSE", 0xA0014, [], [0x0], [⟨"WHY", 9, 8, .ro⟩, ⟨"REQ", 3, 0, .ro⟩]⟩,
  ⟨"MF_CNT_SEL", 0xA0018, [], [0x0], [⟨"ARB", 11, 8, .rw⟩, ⟨"REQ", 3, 0, .rw⟩]⟩,
  ⟨"MF_CNT_GRANT", 0xA001C, [], [0x0], [⟨"COUNT", 31, 0, .rc⟩]⟩,
  ⟨"MF_CNT_WAIT", 0xA0020, [], [0x0], [⟨"COUNT", 31, 0, .rc⟩]⟩,
  ⟨"MF_CNT_MAXWAIT", 0xA0024, [], [0x0], [⟨"COUNT", 31, 0, .rc⟩]⟩,
  ⟨"MF_CNT_REVOKE", 0xA0028, [], [0x0], [⟨"IMPOSED", 31, 16, .rc⟩, ⟨"REVOKED", 15, 0, .rc⟩]⟩,
  ⟨"MF_CNT_HINT", 0xA002C, [], [0xFFFF], [⟨"TURN_HINT", 15, 0, .ro⟩]⟩]

/-- Registers of block MF, part 2 (13). -/
def regsMF2 : List RegRow := [
  ⟨"MF_ARBa_STAT", 0xA0040, [(10, 0x4)], [0x0], [⟨"STALE", 31, 16, .rc⟩, ⟨"FLOOR_NEXT", 15, 12, .ro⟩, ⟨"PARKED", 11, 8, .ro⟩, ⟨"CAMW_PANIC", 1, 1, .ro⟩, ⟨"HSTR_PANIC", 0, 0, .ro⟩]⟩]

/-- All registers of block MF. -/
def regsMF : List RegRow := regsMF1 ++ regsMF2

/-- Registers of block DC, part 1 (13). -/
def regsDC1 : List RegRow := [
  ⟨"DC_CFG", 0xB0000, [], [0x0], [⟨"RATE", 26, 24, .rw⟩, ⟨"DBI", 20, 20, .rw⟩, ⟨"RANK1", 16, 16, .rw⟩, ⟨"SIZE", 7, 0, .rw⟩]⟩,
  ⟨"DC_STAT", 0xB0004, [], [0x0], [⟨"TRAIN_FAIL", 3, 3, .rws⟩, ⟨"DRIFT", 2, 2, .w1c⟩, ⟨"HOT", 1, 1, .w1c⟩, ⟨"REFRESH_FORCED", 0, 0, .w1c⟩]⟩,
  ⟨"DC_TRACK_CFG", 0xB0008, [], [0x320100], [⟨"DRIFT_LIM", 31, 16, .rw⟩, ⟨"INTERVAL", 15, 0, .rw⟩]⟩,
  ⟨"DC_CHc_TRAIN", 0xB0100, [(2, 0x100)], [0x0], [⟨"VREF_DQ", 21, 16, .ro⟩, ⟨"RETRIES", 9, 8, .ro⟩, ⟨"PASS", 4, 0, .ro⟩]⟩,
  ⟨"DC_CHc_TRACK", 0xB0104, [(2, 0x100)], [0x0], [⟨"SHIFT", 31, 16, .ro⟩, ⟨"OSC", 15, 0, .ro⟩]⟩,
  ⟨"DC_CHc_REF", 0xB0108, [(2, 0x100)], [0x0], [⟨"FORCED", 31, 16, .rc⟩, ⟨"MAXPOST", 15, 12, .rc⟩, ⟨"POSTPONED", 11, 8, .ro⟩, ⟨"MR4_RATE", 2, 0, .ro⟩]⟩,
  ⟨"DC_CHc_WQ", 0xB010C, [(2, 0x100)], [0x30100000], [⟨"HIGH", 31, 24, .ro⟩, ⟨"LOW", 23, 16, .ro⟩, ⟨"FILL", 6, 0, .ro⟩]⟩,
  ⟨"DC_CHc_PAGE", 0xB0110, [(2, 0x100)], [0x0], [⟨"MISS", 31, 16, .rc⟩, ⟨"HIT", 15, 0, .rc⟩]⟩,
  ⟨"DC_CHc_FWD", 0xB0114, [(2, 0x100)], [0x0], [⟨"COUNT", 31, 0, .rc⟩]⟩,
  ⟨"DC_CHc_QSTALL", 0xB0118, [(2, 0x100)], [0x0], [⟨"COUNT", 31, 0, .rc⟩]⟩]

/-- All registers of block DC. -/
def regsDC : List RegRow := regsDC1

/-- Registers of block HL, part 1 (14). -/
def regsHL1 : List RegRow := [
  ⟨"HL_CFG", 0xC0000, [], [0xCF0000], [⟨"AUTH_REQ", 31, 31, .rw⟩, ⟨"DOWN1_W", 27, 26, .rw⟩, ⟨"DOWN0_W", 25, 24, .rw⟩, ⟨"UP_W", 23, 22, .rw⟩, ⟨"UP_MAX", 19, 18, .rw⟩, ⟨"DOWN_MAX", 17, 16, .rw⟩]⟩,
  ⟨"HL_CTRL", 0xC0004, [], [0x0], [⟨"ENUM", 4, 4, .wo⟩, ⟨"RETRAIN", 2, 0, .wo⟩]⟩,
  ⟨"HL_STAT", 0xC0008, [], [0x0], [⟨"ENUM_DONE", 11, 11, .w1c⟩, ⟨"CFG_REFUSED", 10, 10, .w1c⟩, ⟨"MSPI_ERR", 9, 9, .w1c⟩, ⟨"NOROUTE", 8, 8, .w1c⟩, ⟨"DMA_REFUSED", 7, 7, .w1c⟩, ⟨"LINK_AUTH", 6, 6, .w1c⟩, ⟨"ENUM_FAIL", 5, 5, .w1c⟩, ⟨"POS_JUMP", 4, 4, .w1c⟩, ⟨"POS_LOST", 3, 3, .w1c⟩, ⟨"LINK_NARROW", 2, 2, .w1c⟩, ⟨"LINK_RETRAIN", 1, 1, .w1c⟩, ⟨"LINK_DOWN", 0, 0, .w1c⟩]⟩,
  ⟨"HL_INDEX", 0xC000C, [], [0xC0000100], [⟨"VALID", 31, 31, .ro⟩, ⟨"SUMMIT", 30, 30, .ro⟩, ⟨"ENUM_ERR", 29, 26, .ro⟩, ⟨"DEPTH", 21, 17, .ro⟩, ⟨"SIZE", 16, 8, .ro⟩, ⟨"INDEX", 7, 0, .ro⟩]⟩,
  ⟨"HL_ROUTE0", 0xC0010, [], [0x0], [⟨"VALID", 31, 31, .ro⟩, ⟨"HI", 15, 8, .ro⟩, ⟨"LO", 7, 0, .ro⟩]⟩,
  ⟨"HL_ROUTE1", 0xC0014, [], [0x0], [⟨"VALID", 31, 31, .ro⟩, ⟨"HI", 15, 8, .ro⟩, ⟨"LO", 7, 0, .ro⟩]⟩,
  ⟨"HL_POS_CFG", 0xC0018, [], [0x80100FA0], [⟨"EN", 31, 31, .rw⟩, ⟨"TMO", 23, 16, .rw⟩, ⟨"PERIOD_NS", 15, 0, .rw⟩]⟩,
  ⟨"HL_POS_STAT", 0xC001C, [], [0x0], [⟨"AGE", 31, 16, .ro⟩, ⟨"CORR", 15, 0, .ro⟩]⟩,
  ⟨"HL_MSPI_CFG", 0xC0020, [], [0x0], [⟨"RO", 0, 0, .rws⟩]⟩,
  ⟨"HL_MSPI_ERR", 0xC0024, [], [0x0], [⟨"CRC", 31, 16, .rc⟩, ⟨"ABORT", 15, 0, .rc⟩]⟩,
  ⟨"HL_AUTH_SEQ_LO", 0xC0028, [], [0x0], [⟨"SEQ", 31, 0, .ro⟩]⟩,
  ⟨"HL_AUTH_SEQ_HI", 0xC002C, [], [0x0], [⟨"SEQ", 31, 0, .ro⟩]⟩]

/-- Registers of block HL, part 2 (14). -/
def regsHL2 : List RegRow := [
  ⟨"HL_DMA_ERR", 0xC0030, [], [0x0], [⟨"COUNT", 31, 0, .rc⟩]⟩,
  ⟨"HL_Gg_STAT", 0xC0100, [(3, 0x40)], [0x0], [⟨"LOCKED", 19, 16, .ro⟩, ⟨"PARTNER", 13, 12, .ro⟩, ⟨"WIDTH", 9, 8, .ro⟩, ⟨"SPEED", 5, 4, .ro⟩, ⟨"STATE", 2, 0, .ro⟩]⟩,
  ⟨"HL_Gg_LAT", 0xC0104, [(3, 0x40)], [0x0], [⟨"ADJ", 31, 16, .rw⟩, ⟨"LAT", 15, 0, .ro⟩]⟩,
  ⟨"HL_Gg_LINK", 0xC0108, [(3, 0x40)], [0x0], [⟨"RETRAIN", 31, 16, .rc⟩, ⟨"DOWN", 15, 0, .rc⟩]⟩,
  ⟨"HL_Gg_PKT", 0xC010C, [(3, 0x40)], [0x0], [⟨"CRC_ERR", 31, 16, .rc⟩, ⟨"REPLAY", 15, 0, .rc⟩]⟩,
  ⟨"HL_Gg_FLOW", 0xC0110, [(3, 0x40)], [0x0], [⟨"TX_CREDIT", 31, 16, .ro⟩, ⟨"RX_FILL", 15, 0, .ro⟩]⟩,
  ⟨"HL_Gg_POSDROP", 0xC0114, [(3, 0x40)], [0x0], [⟨"COUNT", 31, 0, .rc⟩]⟩,
  ⟨"HL_Lk_STAT", 0xC0400, [(8, 0x20)], [0xC0], [⟨"SKEW", 20, 16, .ro⟩, ⟨"GROUP", 7, 6, .ro⟩, ⟨"AM_LOCK", 4, 4, .ro⟩, ⟨"BLOCK_LOCK", 3, 3, .ro⟩, ⟨"CDR_LOCK", 2, 2, .ro⟩, ⟨"LOL", 1, 1, .w1c⟩, ⟨"LOS", 0, 0, .w1c⟩]⟩,
  ⟨"HL_Lk_ERR", 0xC0404, [(8, 0x20)], [0x0], [⟨"SYNC_ERR", 31, 16, .rc⟩, ⟨"AM_ERR", 15, 0, .rc⟩]⟩,
  ⟨"HL_Lk_FFEs", 0xC0408, [(8, 0x20), (4, 0x4)], [0x3F00, 0x3F00, 0x3708, 0x43308], [⟨"PRE", 21, 16, .rw⟩, ⟨"MAIN", 13, 8, .rw⟩, ⟨"POST", 5, 0, .rw⟩]⟩]

/-- All registers of block HL. -/
def regsHL : List RegRow := regsHL1 ++ regsHL2

/-- Registers of block TN, part 1 (15). -/
def regsTN1 : List RegRow := [
  ⟨"TN_CFG", 0xD0000, [], [0x0], [⟨"TSRC", 0, 0, .rw⟩]⟩,
  ⟨"TN_CTRL", 0xD0004, [], [0x0], [⟨"RX_KICK", 2, 2, .wo⟩, ⟨"TX_KICK", 1, 1, .wo⟩, ⟨"SET", 0, 0, .wo⟩]⟩,
  ⟨"TN_STAT", 0xD0008, [], [0x200], [⟨"B_HEALTHY", 11, 11, .ro⟩, ⟨"A_HEALTHY", 10, 10, .ro⟩, ⟨"DOM", 9, 8, .ro⟩, ⟨"CFG_REFUSED", 7, 7, .w1c⟩, ⟨"TS_LOST", 6, 6, .w1c⟩, ⟨"PRP_WRONG_LAN", 5, 5, .w1c⟩, ⟨"ETH_LINK", 4, 4, .w1c⟩, ⟨"SERVO_LIMIT", 3, 3, .w1c⟩, ⟨"TIME_STEP", 2, 2, .w1c⟩, ⟨"HOLDOVER", 1, 1, .w1c⟩, ⟨"SWITCH", 0, 0, .w1c⟩]⟩,
  ⟨"TN_TIME_SEC_LO", 0xD0010, [], [0x0], [⟨"VALUE", 31, 0, .ro⟩]⟩,
  ⟨"TN_TIME_SEC_HI", 0xD0014, [], [0x0], [⟨"VALUE", 31, 0, .ro⟩]⟩,
  ⟨"TN_TIME_NS", 0xD0018, [], [0x0], [⟨"VALUE", 31, 0, .ro⟩]⟩,
  ⟨"TN_TIME_FRAC", 0xD001C, [], [0x0], [⟨"VALUE", 31, 0, .ro⟩]⟩,
  ⟨"TN_SET_SEC_LO", 0xD0020, [], [0x0], [⟨"VALUE", 31, 0, .rw⟩]⟩,
  ⟨"TN_SET_SEC_HI", 0xD0024, [], [0x0], [⟨"VALUE", 31, 0, .rw⟩]⟩,
  ⟨"TN_SET_NS", 0xD0028, [], [0x0], [⟨"VALUE", 31, 0, .rw⟩]⟩,
  ⟨"TN_ADDEND0", 0xD002C, [], [0x0], [⟨"VALUE", 31, 0, .rw⟩]⟩,
  ⟨"TN_ADDEND", 0xD0030, [], [0x0], [⟨"VALUE", 31, 0, .ro⟩]⟩]

/-- Registers of block TN, part 2 (15). -/
def regsTN2 : List RegRow := [
  ⟨"TN_SERVO_GAIN", 0xD0034, [], [0x100800], [⟨"KI", 31, 16, .rw⟩, ⟨"KP", 15, 0, .rw⟩]⟩,
  ⟨"TN_SERVO_CFG", 0xD0038, [], [0x7A120], [⟨"STEP_EN", 31, 31, .rw⟩, ⟨"MAX_PPB", 19, 0, .rw⟩]⟩,
  ⟨"TN_STEP_T", 0xD003C, [], [0xF4240], [⟨"NS", 31, 0, .rw⟩]⟩,
  ⟨"TN_OFS_A", 0xD0040, [], [0x0], [⟨"OFS", 31, 1, .rw⟩, ⟨"QUAL", 0, 0, .rw⟩]⟩,
  ⟨"TN_OFS_B", 0xD0044, [], [0x0], [⟨"OFS", 31, 1, .rw⟩, ⟨"QUAL", 0, 0, .rw⟩]⟩,
  ⟨"TN_DOMAIN_CFG", 0xD0048, [], [0x27100BB8], [⟨"SLEW", 29, 16, .rw⟩, ⟨"HEALTH_TMO", 15, 0, .rw⟩]⟩,
  ⟨"TN_BIAS", 0xD004C, [], [0x0], [⟨"VALUE", 31, 0, .ro⟩]⟩,
  ⟨"TN_DIFF", 0xD0050, [], [0x0], [⟨"VALUE", 31, 0, .ro⟩]⟩,
  ⟨"TN_REVERT", 0xD0054, [], [0x0], [⟨"MS", 31, 0, .ro⟩]⟩,
  ⟨"TN_CAP", 0xD0058, [], [0x0], [⟨"VALID", 31, 31, .ro⟩, ⟨"LOST", 23, 8, .rc⟩, ⟨"SRC", 7, 0, .ro⟩]⟩,
  ⟨"TN_CAP_TS0", 0xD005C, [], [0x0], [⟨"BYTES", 31, 0, .ro⟩]⟩,
  ⟨"TN_CAP_TS1", 0xD0060, [], [0x0], [⟨"BYTES", 31, 0, .ro⟩]⟩]

/-- Registers of block TN, part 3 (15). -/
def regsTN3 : List RegRow := [
  ⟨"TN_CAP_TS2", 0xD0064, [], [0x0], [⟨"BYTES", 31, 0, .ro⟩]⟩,
  ⟨"TN_CAP_CFG", 0xD0068, [], [0x0], [⟨"TICK_DIV", 15, 0, .rw⟩]⟩,
  ⟨"TN_TICK_TS0", 0xD006C, [], [0x0], [⟨"BYTES", 31, 0, .ro⟩]⟩,
  ⟨"TN_TICK_TS1", 0xD0070, [], [0x0], [⟨"BYTES", 31, 0, .ro⟩]⟩,
  ⟨"TN_TICK_TS2", 0xD0074, [], [0x0], [⟨"BYTES", 31, 0, .ro⟩]⟩,
  ⟨"TN_MAC_LO", 0xD0078, [], [0x0], [⟨"ADDR", 31, 0, .rw⟩]⟩,
  ⟨"TN_MAC_HI", 0xD007C, [], [0x0], [⟨"ADDR", 15, 0, .rw⟩]⟩,
  ⟨"TN_TXRING", 0xD0080, [], [0x0], [⟨"COUNT", 25, 16, .rw⟩, ⟨"ADDR64K", 15, 0, .rw⟩]⟩,
  ⟨"TN_RXRING", 0xD0084, [], [0x0], [⟨"COUNT", 25, 16, .rw⟩, ⟨"ADDR64K", 15, 0, .rw⟩]⟩,
  ⟨"TN_PRP_CFG", 0xD0088, [], [0x7D0], [⟨"RX_DROP", 31, 16, .rc⟩, ⟨"LIFE_MS", 15, 0, .rw⟩]⟩,
  ⟨"TN_Pk_CFG", 0xD0100, [(2, 0x40)], [0x3], [⟨"AN_EN", 1, 1, .rw⟩, ⟨"EN", 0, 0, .rw⟩]⟩,
  ⟨"TN_Pk_LAT", 0xD0104, [(2, 0x40)], [0x0], [⟨"EGR", 31, 16, .rw⟩, ⟨"ING", 15, 0, .rw⟩]⟩]

/-- Registers of block TN, part 4 (15). -/
def regsTN4 : List RegRow := [
  ⟨"TN_Pk_ASYM", 0xD0108, [(2, 0x40)], [0x0], [⟨"ASYM", 31, 0, .rw⟩]⟩,
  ⟨"TN_Pk_STAT", 0xD010C, [(2, 0x40)], [0x0], [⟨"LINK_LOST", 2, 2, .w1c⟩, ⟨"AN_DONE", 1, 1, .ro⟩, ⟨"LINK", 0, 0, .ro⟩]⟩,
  ⟨"TN_Pk_PRP", 0xD0110, [(2, 0x40)], [0x0], [⟨"DUP", 31, 16, .rc⟩, ⟨"WRONG_LAN", 15, 0, .rc⟩]⟩,
  ⟨"TN_Pk_TXTS", 0xD0114, [(2, 0x40)], [0x0], [⟨"VALID", 31, 31, .ro⟩, ⟨"TAG", 15, 0, .ro⟩]⟩,
  ⟨"TN_Pk_TXTS0", 0xD0118, [(2, 0x40)], [0x0], [⟨"BYTES", 31, 0, .ro⟩]⟩,
  ⟨"TN_Pk_TXTS1", 0xD011C, [(2, 0x40)], [0x0], [⟨"BYTES", 31, 0, .ro⟩]⟩,
  ⟨"TN_Pk_TXTS2", 0xD0120, [(2, 0x40)], [0x0], [⟨"BYTES", 31, 0, .ro⟩]⟩]

/-- All registers of block TN. -/
def regsTN : List RegRow := regsTN1 ++ regsTN2 ++ regsTN3 ++ regsTN4

/-- Registers of block CZ, part 1 (17). -/
def regsCZ1 : List RegRow := [
  ⟨"CZ_STAT", 0xF0000, [], [0x0], [⟨"CZ_ERR", 1, 1, .w1c⟩, ⟨"DCMP_ERR", 0, 0, .w1c⟩]⟩,
  ⟨"CZ_Dd_CTRL", 0xF0100, [(4, 0x20)], [0x0], [⟨"ABORT", 1, 1, .wo⟩, ⟨"START", 0, 0, .wo⟩]⟩,
  ⟨"CZ_Dd_SRC", 0xF0104, [(4, 0x20)], [0x0], [⟨"ADDR64", 31, 0, .rw⟩]⟩,
  ⟨"CZ_Dd_DST", 0xF0108, [(4, 0x20)], [0x0], [⟨"ADDR64", 31, 0, .rw⟩]⟩,
  ⟨"CZ_Dd_FIRST", 0xF010C, [(4, 0x20)], [0x0], [⟨"VALUE", 16, 0, .rw⟩]⟩,
  ⟨"CZ_Dd_COUNT", 0xF0110, [(4, 0x20)], [0x1], [⟨"VALUE", 16, 0, .rw⟩]⟩,
  ⟨"CZ_Dd_LIMIT", 0xF0114, [(4, 0x20)], [0x10000], [⟨"OUT_LIMIT", 16, 0, .rw⟩]⟩,
  ⟨"CZ_Dd_STAT", 0xF0118, [(4, 0x20)], [0x0], [⟨"ERR", 7, 4, .ro⟩, ⟨"DONE", 1, 1, .w1c⟩, ⟨"BUSY", 0, 0, .ro⟩]⟩,
  ⟨"CZ_Dd_BLOCK", 0xF011C, [(4, 0x20)], [0x0], [⟨"BLOCK", 16, 0, .ro⟩]⟩,
  ⟨"CZ_C_CTRL", 0xF0200, [], [0x0], [⟨"ABORT", 1, 1, .wo⟩, ⟨"START", 0, 0, .wo⟩]⟩,
  ⟨"CZ_C_SRC", 0xF0204, [], [0x0], [⟨"VALUE", 31, 0, .rw⟩]⟩,
  ⟨"CZ_C_LEN", 0xF0208, [], [0x0], [⟨"VALUE", 31, 0, .rw⟩]⟩]

/-- Registers of block CZ, part 2 (17). -/
def regsCZ2 : List RegRow := [
  ⟨"CZ_C_DESC", 0xF020C, [], [0x0], [⟨"VALUE", 31, 0, .rw⟩]⟩,
  ⟨"CZ_C_CFG", 0xF0210, [], [0x1], [⟨"LEVEL", 1, 0, .rw⟩]⟩,
  ⟨"CZ_C_STAT", 0xF0214, [], [0x0], [⟨"ERR", 7, 4, .ro⟩, ⟨"SOURCE", 2, 2, .ro⟩, ⟨"DONE", 1, 1, .w1c⟩, ⟨"BUSY", 0, 0, .ro⟩]⟩,
  ⟨"CZ_C_OUT", 0xF0218, [], [0x0], [⟨"BYTES", 31, 0, .ro⟩]⟩]

/-- All registers of block CZ. -/
def regsCZ : List RegRow := regsCZ1 ++ regsCZ2

/-- Registers of block SYS, part 1 (18, 21). -/
def regsSYS1 : List RegRow := [
  ⟨"SYS_MODE_REQ", 0x100, [], [0x0], [⟨"MODE", 2, 0, .wo⟩]⟩,
  ⟨"SYS_MODE_STAT", 0x104, [], [0x0], [⟨"HOLD_CAUSE", 18, 16, .ro⟩, ⟨"TIMEOUT", 13, 13, .w1c⟩, ⟨"REFUSED", 12, 12, .w1c⟩, ⟨"REFUSE", 11, 8, .ro⟩, ⟨"BUSY", 7, 7, .ro⟩, ⟨"TARGET", 6, 4, .ro⟩, ⟨"MODE", 2, 0, .ro⟩]⟩,
  ⟨"SYS_MODE_TMO", 0x108, [], [0xEA60], [⟨"MS", 31, 0, .rw⟩]⟩,
  ⟨"SYS_ID", 0x0, [], [0x13100000], [⟨"PART", 31, 16, .ro⟩, ⟨"STEPPING", 7, 0, .ro⟩]⟩,
  ⟨"SYS_CAP", 0x4, [], [0x182840A9], [⟨"SRAM_MIB", 31, 24, .ro⟩, ⟨"DRAM_CH", 23, 20, .ro⟩, ⟨"LANES", 19, 16, .ro⟩, ⟨"PORTS", 15, 8, .ro⟩, ⟨"CSI", 7, 6, .ro⟩, ⟨"ETH", 5, 4, .ro⟩, ⟨"AXES", 3, 1, .ro⟩, ⟨"WITNESS", 0, 0, .ro⟩]⟩,
  ⟨"SYS_RST", 0x8, [], [0x0], [⟨"KEY", 15, 8, .wo⟩, ⟨"COLD", 1, 1, .wo⟩, ⟨"WARM", 0, 0, .wo⟩]⟩,
  ⟨"SYS_RST_STAT", 0xC, [], [0x0], [⟨"CAUSE", 2, 0, .ro⟩]⟩,
  ⟨"SYS_BUS_ERR", 0x10, [], [0x0], [⟨"VALUE", 31, 0, .rc⟩]⟩,
  ⟨"SYS_BUS_MST", 0x14, [], [0x0], [⟨"VALUE", 31, 0, .ro⟩]⟩,
  ⟨"SYS_SWI", 0x30, [], [0x0], [⟨"CORE", 4, 0, .wo⟩]⟩,
  ⟨"SYS_COREc_IEN", 0x40, [(5, 0x8)], [0x0], [⟨"EN", 7, 0, .rw⟩]⟩,
  ⟨"SYS_COREc_IPEND", 0x44, [(5, 0x8)], [0x0], [⟨"SWI", 7, 7, .w1c⟩, ⟨"KEYOP", 6, 6, .ro⟩, ⟨"NET", 5, 5, .ro⟩, ⟨"ENGINE", 4, 4, .ro⟩, ⟨"UTCMD", 3, 3, .ro⟩, ⟨"FL", 2, 0, .ro⟩]⟩]

/-- All registers of block SYS. -/
def regsSYS : List RegRow := regsSYS1

/-- Registers of block FL, part 1 (19). -/
def regsFL1 : List RegRow := [
  ⟨"FL_STAT", 0x110000, [], [0x0], [⟨"CSR", 8, 8, .ro⟩, ⟨"CHIP_SERVICE", 7, 7, .w1c⟩, ⟨"GATE_CHATTER", 6, 6, .w1c⟩, ⟨"HLREF_LOSS", 5, 5, .w1c⟩, ⟨"CLOCK_LOSS", 4, 4, .w1c⟩, ⟨"XING_RESET", 3, 3, .w1c⟩, ⟨"RELAY_OVERRUN", 2, 2, .w1c⟩, ⟨"FABRIC_TIMEOUT", 1, 1, .w1c⟩, ⟨"ERRQ_OVERFLOW", 0, 0, .w1c⟩]⟩,
  ⟨"FL_CFG", 0x110004, [], [0x108], [⟨"CASCADE_HOLD", 8, 8, .rw⟩, ⟨"GCH_N", 7, 0, .rw⟩]⟩,
  ⟨"FL_CTRL", 0x110008, [], [0x0], [⟨"CSR_CLEAR", 1, 1, .wo⟩, ⟨"OVF_CLEAR", 0, 0, .wo⟩]⟩,
  ⟨"FL_CSR", 0x11000C, [], [0x0], [⟨"CLOCK", 3, 3, .rws⟩, ⟨"KEYSTORE", 2, 2, .ro⟩, ⟨"FALLBACK", 1, 1, .ro⟩, ⟨"EVENT", 0, 0, .rws⟩]⟩,
  ⟨"FL_HRR_LO", 0x110010, [], [0x0], [⟨"PORTS", 31, 0, .ro⟩]⟩,
  ⟨"FL_HRR_HI", 0x110014, [], [0x0], [⟨"PORTS", 31, 0, .ro⟩]⟩,
  ⟨"FL_EQ_STAT", 0x110020, [], [0x0], [⟨"HEAD_SEQ", 31, 16, .ro⟩, ⟨"ACK_STALE", 10, 10, .w1c⟩, ⟨"PREEMPT", 9, 9, .w1c⟩, ⟨"OVERFLOW", 8, 8, .ro⟩, ⟨"USED", 5, 0, .ro⟩]⟩,
  ⟨"FL_EQ_SEL", 0x110024, [], [0x0], [⟨"INDEX", 4, 0, .rw⟩]⟩,
  ⟨"FL_EQ_ID", 0x110028, [], [0x0], [⟨"SEQ", 31, 16, .ro⟩, ⟨"EVENT_ID", 15, 0, .ro⟩]⟩,
  ⟨"FL_EQ_INFO", 0x11002C, [], [0x0], [⟨"REPEAT", 15, 8, .ro⟩, ⟨"CHIP", 7, 7, .ro⟩, ⟨"IRQ", 6, 5, .ro⟩, ⟨"IRQ_VALID", 4, 4, .ro⟩, ⟨"CLASS", 2, 0, .ro⟩]⟩,
  ⟨"FL_EQ_UNIT", 0x110030, [], [0x0], [⟨"VALUE", 31, 0, .ro⟩]⟩,
  ⟨"FL_EQ_DETAIL", 0x110034, [], [0x0], [⟨"VALUE", 31, 0, .ro⟩]⟩]

/-- Registers of block FL, part 2 (19). -/
def regsFL2 : List RegRow := [
  ⟨"FL_EQ_TS0", 0x110038, [], [0x0], [⟨"BYTES", 31, 0, .ro⟩]⟩,
  ⟨"FL_EQ_TS1", 0x11003C, [], [0x0], [⟨"BYTES", 31, 0, .ro⟩]⟩,
  ⟨"FL_EQ_TS2", 0x110040, [], [0x0], [⟨"BYTES", 31, 0, .ro⟩]⟩,
  ⟨"FL_EQ_ACK", 0x110044, [], [0x0], [⟨"SEQ", 15, 0, .wo⟩]⟩,
  ⟨"FL_LOST", 0x110048, [], [0x0], [⟨"ERRQ_LOST", 31, 16, .rc⟩, ⟨"SOURCE", 15, 0, .rc⟩]⟩,
  ⟨"FL_IRQm_STAT", 0x110080, [(3, 0x10)], [0x0], [⟨"EVENT", 3, 3, .w1c⟩, ⟨"OVF", 2, 2, .w1c⟩, ⟨"PREEMPT", 1, 1, .w1c⟩, ⟨"QNE", 0, 0, .ro⟩]⟩,
  ⟨"FL_IRQm_MASK", 0x110084, [(3, 0x10)], [0x0], [⟨"MASK", 3, 0, .rw⟩]⟩,
  ⟨"FL_IRQ_CFG", 0x1100B0, [], [0x0], [⟨"PREEMPT_LINE", 5, 4, .rw⟩, ⟨"QNE_LINE", 1, 0, .rw⟩]⟩,
  ⟨"FL_EVCNT_SEL", 0x1100C0, [], [0x0], [⟨"SEL", 15, 0, .rw⟩]⟩,
  ⟨"FL_EVCNT", 0x1100C4, [], [0x0], [⟨"VALUE", 31, 0, .rc⟩]⟩,
  ⟨"FL_WDOG_CYC", 0x1100D0, [], [0x10000], [⟨"VALUE", 31, 0, .ro⟩]⟩,
  ⟨"FL_WDOG_ADDR", 0x1100D4, [], [0x0], [⟨"VALUE", 31, 0, .ro⟩]⟩]

/-- Registers of block FL, part 3 (19). -/
def regsFL3 : List RegRow := [
  ⟨"FL_WDOG_CNT", 0x1100D8, [], [0x0], [⟨"VALUE", 31, 0, .rc⟩]⟩,
  ⟨"FL_XING_CNT", 0x1100E0, [], [0x0], [⟨"OVERRUN", 31, 16, .rc⟩, ⟨"RESET", 15, 0, .rc⟩]⟩,
  ⟨"FL_XING_SRC", 0x1100E4, [], [0x0], [⟨"RESET_BLK", 15, 8, .ro⟩, ⟨"OVERRUN_BLK", 7, 0, .ro⟩]⟩,
  ⟨"FL_CLKMON", 0x1100F0, [], [0x0], [⟨"LAST_SRC", 18, 16, .ro⟩, ⟨"HLREF_OK", 6, 6, .ro⟩, ⟨"REF_OK", 5, 5, .ro⟩, ⟨"ON_OSC", 4, 4, .ro⟩, ⟨"PLL_LOCK", 3, 0, .ro⟩]⟩,
  ⟨"FL_GATE_MON", 0x1100F4, [], [0x0], [⟨"CHATTER", 8, 0, .w1c⟩]⟩]

/-- All registers of block FL. -/
def regsFL : List RegRow := regsFL1 ++ regsFL2 ++ regsFL3

/-- Registers of block AN, part 1 (20). -/
def regsAN1 : List RegRow := [
  ⟨"AN_CTRL", 0x120000, [], [0x0], [⟨"MZERO", 9, 9, .wo⟩, ⟨"CAL_START", 8, 8, .wo⟩, ⟨"CH", 4, 0, .wo⟩]⟩,
  ⟨"AN_STAT", 0x120004, [], [0x0], [⟨"REJECT", 31, 28, .ro⟩, ⟨"STEP", 27, 24, .ro⟩, ⟨"CAL_CH", 20, 16, .ro⟩, ⟨"PD_BRIGHT", 5, 5, .w1c⟩, ⟨"PD_DARK", 4, 4, .w1c⟩, ⟨"VH_FAULT", 3, 3, .w1c⟩, ⟨"CAL_REJECT", 2, 2, .w1c⟩, ⟨"CFG_REFUSED", 1, 1, .w1c⟩, ⟨"BUSY", 0, 0, .ro⟩]⟩,
  ⟨"AN_CFG", 0x120008, [], [0xE106441], [⟨"CAL_INT", 31, 16, .rw⟩, ⟨"GUARD", 15, 8, .rw⟩, ⟨"NCAL_SH", 7, 4, .rw⟩, ⟨"QUIET", 0, 0, .rw⟩]⟩,
  ⟨"AN_CAL_LIM", 0x12000C, [], [0x14400100], [⟨"GAIN_LIM", 31, 24, .rw⟩, ⟨"NOISE_LIM", 23, 16, .rw⟩, ⟨"ZERO_LIM", 15, 0, .rw⟩]⟩,
  ⟨"AN_XCHK", 0x120010, [], [0x32], [⟨"XCHK_MV", 15, 0, .rw⟩]⟩,
  ⟨"AN_VREF", 0x120014, [], [0x0], [⟨"VREF_UV", 20, 0, .ro⟩]⟩,
  ⟨"AN_CNT", 0x120018, [], [0x0], [⟨"LOADED", 31, 16, .rc⟩, ⟨"CAL_DONE", 15, 0, .rc⟩]⟩,
  ⟨"AN_PD_CFG", 0x120020, [], [0xB2960080], [⟨"AUTO_THR", 31, 31, .rw⟩, ⟨"LO_PCT", 30, 24, .rw⟩, ⟨"HI_PCT", 23, 16, .rw⟩, ⟨"PD_MIN", 9, 0, .rw⟩]⟩,
  ⟨"AN_PD0_THR", 0x120024, [], [0x3FF0100], [⟨"HI", 25, 16, .rw⟩, ⟨"LO", 9, 0, .rw⟩]⟩,
  ⟨"AN_PD1_THR", 0x120028, [], [0x3FF0100], [⟨"HI", 25, 16, .rw⟩, ⟨"LO", 9, 0, .rw⟩]⟩,
  ⟨"AN_PD0_LVL", 0x12002C, [], [0x0], [⟨"CLEAR", 25, 16, .ro⟩, ⟨"LEVEL", 9, 0, .ro⟩]⟩,
  ⟨"AN_PD1_LVL", 0x120030, [], [0x0], [⟨"CLEAR", 25, 16, .ro⟩, ⟨"LEVEL", 9, 0, .ro⟩]⟩]

/-- Registers of block AN, part 2 (20). -/
def regsAN2 : List RegRow := [
  ⟨"AN_MOFFi", 0x120040, [(8, 0x4)], [0x800], [⟨"MOFF", 11, 0, .rw⟩]⟩,
  ⟨"AN_CHk_DIV", 0x120100, [(17, 0x20)], [0x10000], [⟨"DIV", 31, 0, .rw⟩]⟩,
  ⟨"AN_CHk_GCAL", 0x120104, [(17, 0x20)], [0x1312D0], [⟨"CALOK", 31, 31, .ro⟩, ⟨"GCAL", 23, 0, .ro⟩]⟩,
  ⟨"AN_CHk_VAL", 0x120108, [(17, 0x20)], [0x0], [⟨"MV", 31, 16, .ro⟩, ⟨"SRC", 15, 15, .ro⟩, ⟨"LOADED", 14, 14, .ro⟩]⟩,
  ⟨"AN_CHk_RAW", 0x12010C, [(17, 0x20)], [0x0], [⟨"RAW", 31, 16, .ro⟩, ⟨"OFF", 15, 0, .ro⟩]⟩,
  ⟨"AN_CHk_LIM", 0x120110, [(17, 0x20)], [0xFFFF0000], [⟨"HI", 31, 16, .rw⟩, ⟨"LO", 15, 0, .rw⟩]⟩]

/-- All registers of block AN. -/
def regsAN : List RegRow := regsAN1 ++ regsAN2

/-- Registers of block TS, part 1 (23). -/
def regsTS1 : List RegRow := [
  ⟨"TS_CTRL", 0x130000, [], [0x0], [⟨"SELFTEST", 2, 2, .wo⟩, ⟨"STOP", 1, 1, .wo⟩, ⟨"START", 0, 0, .wo⟩]⟩,
  ⟨"TS_CFG", 0x130004, [], [0x0], [⟨"PAT", 17, 16, .rw⟩, ⟨"INST", 13, 8, .rw⟩, ⟨"DEPTH", 5, 4, .rw⟩, ⟨"IF", 3, 0, .rw⟩]⟩,
  ⟨"TS_DUR", 0x130008, [], [0x64], [⟨"VALUE", 31, 0, .rw⟩]⟩,
  ⟨"TS_WORD", 0x13000C, [], [0x0], [⟨"VALUE", 31, 0, .rw⟩]⟩,
  ⟨"TS_CAM_CRC", 0x130010, [], [0x0], [⟨"VALUE", 31, 0, .rw⟩]⟩,
  ⟨"TS_STAT", 0x130014, [], [0x0], [⟨"ERR", 11, 8, .ro⟩, ⟨"PASS", 3, 3, .ro⟩, ⟨"LOCK", 2, 2, .ro⟩, ⟨"DONE", 1, 1, .w1c⟩, ⟨"BUSY", 0, 0, .ro⟩]⟩,
  ⟨"TS_ERRCNT", 0x130018, [], [0x0], [⟨"VALUE", 31, 0, .rc⟩]⟩,
  ⟨"TS_BITS_LO", 0x13001C, [], [0x0], [⟨"VALUE", 31, 0, .ro⟩]⟩,
  ⟨"TS_BITS_HI", 0x130020, [], [0x0], [⟨"VALUE", 31, 0, .ro⟩]⟩,
  ⟨"TS_SELF", 0x130024, [], [0x0], [⟨"SKIP", 26, 16, .rws⟩, ⟨"FAIL", 10, 0, .rws⟩]⟩,
  ⟨"TS_SELF_RUN", 0x130028, [], [0x0], [⟨"RUNS", 15, 1, .rws⟩, ⟨"COMPLETE", 0, 0, .rws⟩]⟩,
  ⟨"TS_SELF_INST", 0x13002C, [], [0x0], [⟨"INST", 13, 8, .rws⟩, ⟨"ITEM", 3, 0, .rws⟩]⟩]

/-- Registers of block TS, part 2 (23). -/
def regsTS2 : List RegRow := [
  ⟨"TS_IDCODE", 0x130030, [], [0x13109AB], [⟨"IDCODE", 31, 0, .ro⟩]⟩]

/-- All registers of block TS. -/
def regsTS : List RegRow := regsTS1 ++ regsTS2

end Sys2Proof.Machine
end

