-- ==== Sys2Proof/Machine/RegNames.lean ====
section
/-! DEFINITION. The name of each register as its byte address in the map of R478 (a function of the register's indices),
in the namespace Reg, and of each field as its bits, in the namespace F. The offsets are those of the register headings of
spec/02 to spec/23. -/

namespace Sys2Proof.Machine.Reg

/-! spec/02_unit_tree.md -/
def UT_SEL (w : Nat) : Nat := 0x10000 + 0x100 * w
def UT_INFO (w : Nat) : Nat := 0x10004 + 0x100 * w
def UT_PARENT (w : Nat) : Nat := 0x10008 + 0x100 * w
def UT_CFG (w : Nat) : Nat := 0x1000C + 0x100 * w
def UT_SUB (w : Nat) : Nat := 0x10010 + 0x100 * w
def UT_STATUS (w : Nat) : Nat := 0x10014 + 0x100 * w
def UT_CNT_EVENT (w : Nat) : Nat := 0x10018 + 0x100 * w
def UT_CNT_VOID (w : Nat) : Nat := 0x1001C + 0x100 * w
def UT_CNT_CMD (w : Nat) : Nat := 0x10020 + 0x100 * w
def UT_GEOM (w : Nat) : Nat := 0x10024 + 0x100 * w
def UT_CHILD_SEL (w : Nat) : Nat := 0x10028 + 0x100 * w
def UT_CHILD (w : Nat) : Nat := 0x1002C + 0x100 * w
def UT_ARG (w : Nat) : Nat := 0x10030 + 0x100 * w
def UT_CMD (w : Nat) : Nat := 0x10034 + 0x100 * w
def UT_CMD_STAT (w : Nat) : Nat := 0x10038 + 0x100 * w
def UT_CMD_LINE (w : Nat) : Nat := 0x1003C + 0x100 * w
/-! spec/03_structure_image.md -/
def BU_SI_CTRL : Nat := 0x100200
def BU_SI_STAGE : Nat := 0x100204
def BU_SI_SIZE : Nat := 0x100208
def BU_SI_STATUS : Nat := 0x10020C
def BU_SI_ACT_LINE : Nat := 0x100210
def BU_SI_ID : Nat := 0x100214
def BU_SI_VER : Nat := 0x100218
def BU_SI_MEASi (i : Nat) : Nat := 0x100220 + 0x4 * i
def BU_SI_PARTIALS : Nat := 0x100250
/-! spec/04_web_position.md -/
def WP_CHk_CFG (k : Nat) : Nat := 0x20000 + 0x40 * k
def WP_CHk_CPR (k : Nat) : Nat := 0x20004 + 0x40 * k
def WP_CHk_ZPOS (k : Nat) : Nat := 0x20008 + 0x40 * k
def WP_CHk_IDX (k : Nat) : Nat := 0x2000C + 0x40 * k
def WP_CHk_SSI (k : Nat) : Nat := 0x20010 + 0x40 * k
def WP_CHk_SSIT (k : Nat) : Nat := 0x20014 + 0x40 * k
def WP_CHk_CNT (k : Nat) : Nat := 0x20018 + 0x40 * k
def WP_CHk_REV (k : Nat) : Nat := 0x2001C + 0x40 * k
def WP_CHk_STAT (k : Nat) : Nat := 0x20020 + 0x40 * k
def WP_CHk_QERR (k : Nat) : Nat := 0x20024 + 0x40 * k
def WP_CHk_PT (k : Nat) : Nat := 0x20028 + 0x40 * k
def WP_CTRL : Nat := 0x20100
def WP_RATIO_FRAC : Nat := 0x20104
def WP_RATIO_INT : Nat := 0x20108
def WP_ARM_POS_LO : Nat := 0x2010C
def WP_ARM_POS_HI : Nat := 0x20110
def WP_POS_LO : Nat := 0x20114
def WP_POS_HI : Nat := 0x20118
def WP_LINE : Nat := 0x2011C
def WP_HWM : Nat := 0x20120
def WP_HOLD_LINE : Nat := 0x20124
def WP_PERIOD : Nat := 0x20128
def WP_BACKUP : Nat := 0x2012C
def WP_BACKUP_TMO : Nat := 0x20130
def WP_BACKUP_CNT : Nat := 0x20134
def WP_TICKS_IDLE : Nat := 0x20138
def WP_PLACE_MAX : Nat := 0x2013C
def WP_STAT : Nat := 0x20140
def WP_CMPk_LO (k : Nat) : Nat := 0x20200 + 0x10 * k
def WP_CMPk_HI (k : Nat) : Nat := 0x20204 + 0x10 * k
def WP_CMPk_CTRL (k : Nat) : Nat := 0x20208 + 0x10 * k
/-! spec/05_job_stream.md -/
def JS_CTRL : Nat := 0x30000
def JS_STAT : Nat := 0x30004
def JS_LATE_LINE : Nat := 0x30008
def JS_LATE_CNT : Nat := 0x3000C
def JS_LRING : Nat := 0x30010
def JS_PLATE_CMD : Nat := 0x30020
def JS_PLATE_STAT : Nat := 0x30024
def JS_PLATEk_BASE (k : Nat) : Nat := 0x30040 + 0x10 * k
def JS_PLATEk_CFG (k : Nat) : Nat := 0x30044 + 0x10 * k
def JS_PLATEk_FILL (k : Nat) : Nat := 0x30048 + 0x10 * k
def JS_JOBs_DESC (s : Nat) : Nat := 0x30200 + 0x40 * s
def JS_JOBs_STAT (s : Nat) : Nat := 0x30204 + 0x40 * s
def JS_JOBs_RING_WP (s : Nat) : Nat := 0x30208 + 0x40 * s
def JS_JOBs_RING_RP (s : Nat) : Nat := 0x3020C + 0x40 * s
def JS_JOBs_END_LINE (s : Nat) : Nat := 0x30210 + 0x40 * s
def JS_JOBs_LAST_ROW (s : Nat) : Nat := 0x30214 + 0x40 * s
def JS_JOBs_RASTER_WP (s : Nat) : Nat := 0x30218 + 0x40 * s
def JS_JOBs_DISCARD (s : Nat) : Nat := 0x3021C + 0x40 * s
/-! spec/06_field_rendering.md -/
def AU_PLAY_CFG : Nat := 0xE0400
def AU_PLAY_STAT : Nat := 0xE0404
def AU_PLAY_OK : Nat := 0xE0408
def AU_PLAY_FAIL : Nat := 0xE040C
def AU_SEAL_ACC : Nat := 0xE0410
def AU_RNDR_ERR : Nat := 0xE0414
def AU_RNDR_ERR_INST : Nat := 0xE0418
/-! spec/07_head_ports.md -/
def HP_CTRL : Nat := 0x40000
def HP_STAT : Nat := 0x40004
def HP_GATE : Nat := 0x40008
def HP_RET_CFG : Nat := 0x4000C
def HP_LEe (e : Nat) : Nat := 0x40040 + 0x4 * e
def HP_Pp_STAT (p : Nat) : Nat := 0x40100 + 0x10 * p
def HP_Pp_TEMP (p : Nat) : Nat := 0x40104 + 0x10 * p
def HP_Pp_SERIAL (p : Nat) : Nat := 0x40108 + 0x10 * p
def HP_Pp_ERRCNT (p : Nat) : Nat := 0x4010C + 0x10 * p
/-! spec/08_firing_energy.md -/
def FE_STAT : Nat := 0x50000
def FE_WTAB_BASE : Nat := 0x50004
def FE_WTAB_COUNT : Nat := 0x50008
def FE_BANKb_CFG (b : Nat) : Nat := 0x50100 + 0x10 * b
def FE_BANKb_WARM (b : Nat) : Nat := 0x50104 + 0x10 * b
def FE_BANKb_LOAD (b : Nat) : Nat := 0x50108 + 0x10 * b
def FE_BANKb_DEFER (b : Nat) : Nat := 0x5010C + 0x10 * b
def FE_Pp_CFG (p : Nat) : Nat := 0x50400 + 0x10 * p
def FE_Pp_WARM (p : Nat) : Nat := 0x50404 + 0x10 * p
def FE_Pp_FACT (p : Nat) : Nat := 0x50408 + 0x10 * p
def FE_Pp_STAT (p : Nat) : Nat := 0x5040C + 0x10 * p
/-! spec/09_nozzle_health.md -/
def NH_CTRL : Nat := 0x60000
def NH_STAT : Nat := 0x60004
def NH_CFG : Nat := 0x60008
def NH_EPOCH : Nat := 0x6000C
def NH_COMMIT_LINE : Nat := 0x60010
def NH_QUEUE : Nat := 0x60014
def NH_HIST_SEL : Nat := 0x60018
def NH_HIST_LINE : Nat := 0x6001C
def NH_HIST_EPOCH : Nat := 0x60020
def NH_SHADOW : Nat := 0x60024
def NH_EVID_DROP : Nat := 0x60028
def NH_WEAR_CFG : Nat := 0x6002C
def NH_GATE_CTRL : Nat := 0x60040
def NH_GATE_CFG : Nat := 0x60044
def NH_GATE_TIME : Nat := 0x60048
def NH_GATE_WIN : Nat := 0x6004C
def NH_GATE_DT : Nat := 0x60050
def NH_GATE_ORG : Nat := 0x60054
def NH_GATE_MPP : Nat := 0x60058
def NH_GATE_STAT : Nat := 0x6005C
def NH_SPITk (k : Nat) : Nat := 0x60080 + 0x4 * k
def NH_Pp_CFG (p : Nat) : Nat := 0x60100 + 0x10 * p
def NH_Pp_LIM (p : Nat) : Nat := 0x60104 + 0x10 * p
def NH_Pp_STAT (p : Nat) : Nat := 0x60108 + 0x10 * p
def NH_Pp_WEAR (p : Nat) : Nat := 0x6010C + 0x10 * p
/-! spec/10_inspection.md -/
def IN_CTRL : Nat := 0x70000
def IN_STAT : Nat := 0x70004
def IN_CFG : Nat := 0x70008
def IN_PORTn_CFG (n : Nat) : Nat := 0x70010 + 0x4 * n
def IN_PORTn_ERR (n : Nat) : Nat := 0x70018 + 0x4 * n
def IN_THR : Nat := 0x70020
def IN_CNT_CFG : Nat := 0x70024
def IN_EVID_CFG : Nat := 0x70028
def IN_EVID_THR : Nat := 0x7002C
def IN_SYM_CFG : Nat := 0x70030
def IN_SYM_ERR : Nat := 0x70034
def IN_DROPW : Nat := 0x70038
def IN_KERNr (r : Nat) : Nat := 0x70040 + 0x4 * r
def IN_EXP_ADDR : Nat := 0x70050
def IN_EXP_LINES : Nat := 0x70054
def IN_IMG_ADDR : Nat := 0x70058
def IN_IMG_LINES : Nat := 0x7005C
def IN_IHWM : Nat := 0x70060
def IN_DISCARD : Nat := 0x70064
def IN_VPASS : Nat := 0x70068
def IN_VVOID : Nat := 0x7006C
def IN_VUNVER : Nat := 0x70070
def IN_SEAL_ACC : Nat := 0x70074
def IN_TAB_SEL : Nat := 0x70080
def IN_TAB_DATA : Nat := 0x70084
def IN_XP_CTRL : Nat := 0x70090
def IN_XP_FIRST : Nat := 0x70094
def IN_XP_COUNT : Nat := 0x70098
def IN_XP_DESC : Nat := 0x7009C
def IN_XP_STAT : Nat := 0x700A0
def IN_SEGk_SRC (k : Nat) : Nat := 0x70100 + 0x40 * k
def IN_SEGk_GEOM (k : Nat) : Nat := 0x70104 + 0x40 * k
def IN_SEGk_X0 (k : Nat) : Nat := 0x70108 + 0x40 * k
def IN_SEGk_PITCH (k : Nat) : Nat := 0x7010C + 0x40 * k
def IN_SEGk_UWIN (k : Nat) : Nat := 0x70110 + 0x40 * k
def IN_SEGk_SUB (k : Nat) : Nat := 0x70114 + 0x40 * k
def IN_SEGk_EMB (k : Nat) : Nat := 0x70118 + 0x40 * k
def IN_SEGk_BANK0 (k : Nat) : Nat := 0x7011C + 0x40 * k
def IN_SEGk_BANK1 (k : Nat) : Nat := 0x70120 + 0x40 * k
def IN_SEGk_STAT (k : Nat) : Nat := 0x70124 + 0x40 * k
def IN_SEGk_ERR (k : Nat) : Nat := 0x70128 + 0x40 * k
/-! spec/11_loop_engine.md -/
def LE_STAT : Nat := 0x80000
def LE_TICK : Nat := 0x80004
def LE_LOAD : Nat := 0x80008
def LE_XINi (i : Nat) : Nat := 0x80040 + 0x4 * i
def LE_XOUTi (i : Nat) : Nat := 0x80080 + 0x4 * i
def LE_Cc_CTRL (c : Nat) : Nat := 0x80400 + 0x20 * c
def LE_Cc_CFG (c : Nat) : Nat := 0x80404 + 0x20 * c
def LE_Cc_STAT (c : Nat) : Nat := 0x80408 + 0x20 * c
def LE_Cc_SP (c : Nat) : Nat := 0x8040C + 0x20 * c
def LE_Cc_Y (c : Nat) : Nat := 0x80410 + 0x20 * c
def LE_Cc_OUT (c : Nat) : Nat := 0x80414 + 0x20 * c
def LE_Cc_INTEG (c : Nat) : Nat := 0x80418 + 0x20 * c
def LE_Cc_CNT (c : Nat) : Nat := 0x8041C + 0x20 * c
/-! spec/12_motion.md -/
def MO_CFG : Nat := 0x90000
def MO_VM : Nat := 0x90004
def MO_OPEN_DIST : Nat := 0x90008
def MO_STAT : Nat := 0x9000C
def MO_Aa_CMD (a : Nat) : Nat := 0x90100 + 0x40 * a
def MO_Aa_TARGET (a : Nat) : Nat := 0x90104 + 0x40 * a
def MO_Aa_HOME_POS (a : Nat) : Nat := 0x90128 + 0x40 * a
def MO_Aa_CAP_POS (a : Nat) : Nat := 0x9012C + 0x40 * a
def MO_Aa_VMAX (a : Nat) : Nat := 0x90108 + 0x40 * a
def MO_Aa_AMAX (a : Nat) : Nat := 0x9010C + 0x40 * a
def MO_Aa_JMAX (a : Nat) : Nat := 0x90110 + 0x40 * a
def MO_Aa_POS (a : Nat) : Nat := 0x90114 + 0x40 * a
def MO_Aa_STAT (a : Nat) : Nat := 0x90118 + 0x40 * a
def MO_Aa_ELEC (a : Nat) : Nat := 0x9011C + 0x40 * a
def MO_Aa_CUR (a : Nat) : Nat := 0x90120 + 0x40 * a
def MO_Aa_HOME (a : Nat) : Nat := 0x90124 + 0x40 * a
def MO_Aa_HOME_LIM (a : Nat) : Nat := 0x90130 + 0x40 * a
def MO_Aa_STALL (a : Nat) : Nat := 0x90134 + 0x40 * a
def MO_Aa_LIM (a : Nat) : Nat := 0x90138 + 0x40 * a
def MO_CMPm_TARGET (m : Nat) : Nat := 0x90200 + 0x10 * m
def MO_CMPm_CTRL (m : Nat) : Nat := 0x90204 + 0x10 * m
/-! spec/13_memory_fabric.md -/
def MF_STAT : Nat := 0xA0000
def MF_SET : Nat := 0xA0004
def MF_PARK_T : Nat := 0xA0008
def MF_WFW : Nat := 0xA000C
def MF_WFW_STAT : Nat := 0xA0010
def MF_REFUSE : Nat := 0xA0014
def MF_CNT_SEL : Nat := 0xA0018
def MF_CNT_GRANT : Nat := 0xA001C
def MF_CNT_WAIT : Nat := 0xA0020
def MF_CNT_MAXWAIT : Nat := 0xA0024
def MF_CNT_REVOKE : Nat := 0xA0028
def MF_CNT_HINT : Nat := 0xA002C
def MF_ARBa_STAT (a : Nat) : Nat := 0xA0040 + 0x4 * a
def DC_CFG : Nat := 0xB0000
def DC_STAT : Nat := 0xB0004
def DC_TRACK_CFG : Nat := 0xB0008
def DC_CHc_TRAIN (c : Nat) : Nat := 0xB0100 + 0x100 * c
def DC_CHc_TRACK (c : Nat) : Nat := 0xB0104 + 0x100 * c
def DC_CHc_REF (c : Nat) : Nat := 0xB0108 + 0x100 * c
def DC_CHc_WQ (c : Nat) : Nat := 0xB010C + 0x100 * c
def DC_CHc_PAGE (c : Nat) : Nat := 0xB0110 + 0x100 * c
def DC_CHc_FWD (c : Nat) : Nat := 0xB0114 + 0x100 * c
def DC_CHc_QSTALL (c : Nat) : Nat := 0xB0118 + 0x100 * c
/-! spec/14_host_link.md -/
def HL_CFG : Nat := 0xC0000
def HL_CTRL : Nat := 0xC0004
def HL_STAT : Nat := 0xC0008
def HL_INDEX : Nat := 0xC000C
def HL_ROUTE0 : Nat := 0xC0010
def HL_ROUTE1 : Nat := 0xC0014
def HL_POS_CFG : Nat := 0xC0018
def HL_POS_STAT : Nat := 0xC001C
def HL_MSPI_CFG : Nat := 0xC0020
def HL_MSPI_ERR : Nat := 0xC0024
def HL_AUTH_SEQ_LO : Nat := 0xC0028
def HL_AUTH_SEQ_HI : Nat := 0xC002C
def HL_DMA_ERR : Nat := 0xC0030
def HL_Gg_STAT (g : Nat) : Nat := 0xC0100 + 0x40 * g
def HL_Gg_LAT (g : Nat) : Nat := 0xC0104 + 0x40 * g
def HL_Gg_LINK (g : Nat) : Nat := 0xC0108 + 0x40 * g
def HL_Gg_PKT (g : Nat) : Nat := 0xC010C + 0x40 * g
def HL_Gg_FLOW (g : Nat) : Nat := 0xC0110 + 0x40 * g
def HL_Gg_POSDROP (g : Nat) : Nat := 0xC0114 + 0x40 * g
def HL_Lk_STAT (k : Nat) : Nat := 0xC0400 + 0x20 * k
def HL_Lk_ERR (k : Nat) : Nat := 0xC0404 + 0x20 * k
def HL_Lk_FFEs (k s : Nat) : Nat := 0xC0408 + 0x20 * k + 0x4 * s
/-! spec/15_time_network.md -/
def TN_CFG : Nat := 0xD0000
def TN_CTRL : Nat := 0xD0004
def TN_STAT : Nat := 0xD0008
def TN_TIME_SEC_LO : Nat := 0xD0010
def TN_TIME_SEC_HI : Nat := 0xD0014
def TN_TIME_NS : Nat := 0xD0018
def TN_TIME_FRAC : Nat := 0xD001C
def TN_SET_SEC_LO : Nat := 0xD0020
def TN_SET_SEC_HI : Nat := 0xD0024
def TN_SET_NS : Nat := 0xD0028
def TN_ADDEND0 : Nat := 0xD002C
def TN_ADDEND : Nat := 0xD0030
def TN_SERVO_GAIN : Nat := 0xD0034
def TN_SERVO_CFG : Nat := 0xD0038
def TN_STEP_T : Nat := 0xD003C
def TN_OFS_A : Nat := 0xD0040
def TN_OFS_B : Nat := 0xD0044
def TN_DOMAIN_CFG : Nat := 0xD0048
def TN_BIAS : Nat := 0xD004C
def TN_DIFF : Nat := 0xD0050
def TN_REVERT : Nat := 0xD0054
def TN_CAP : Nat := 0xD0058
def TN_CAP_TS0 : Nat := 0xD005C
def TN_CAP_TS1 : Nat := 0xD0060
def TN_CAP_TS2 : Nat := 0xD0064
def TN_CAP_CFG : Nat := 0xD0068
def TN_TICK_TS0 : Nat := 0xD006C
def TN_TICK_TS1 : Nat := 0xD0070
def TN_TICK_TS2 : Nat := 0xD0074
def TN_MAC_LO : Nat := 0xD0078
def TN_MAC_HI : Nat := 0xD007C
def TN_TXRING : Nat := 0xD0080
def TN_RXRING : Nat := 0xD0084
def TN_PRP_CFG : Nat := 0xD0088
def TN_Pk_CFG (k : Nat) : Nat := 0xD0100 + 0x40 * k
def TN_Pk_LAT (k : Nat) : Nat := 0xD0104 + 0x40 * k
def TN_Pk_ASYM (k : Nat) : Nat := 0xD0108 + 0x40 * k
def TN_Pk_STAT (k : Nat) : Nat := 0xD010C + 0x40 * k
def TN_Pk_PRP (k : Nat) : Nat := 0xD0110 + 0x40 * k
def TN_Pk_TXTS (k : Nat) : Nat := 0xD0114 + 0x40 * k
def TN_Pk_TXTS0 (k : Nat) : Nat := 0xD0118 + 0x40 * k
def TN_Pk_TXTS1 (k : Nat) : Nat := 0xD011C + 0x40 * k
def TN_Pk_TXTS2 (k : Nat) : Nat := 0xD0120 + 0x40 * k
/-! spec/16_audit_security.md -/
def AU_STAT : Nat := 0xE0000
def AU_CHIP_ID_LO : Nat := 0xE0004
def AU_CHIP_ID_HI : Nat := 0xE0008
def AU_SEQ_LO : Nat := 0xE000C
def AU_SEQ_HI : Nat := 0xE0010
def AU_SUMMIT_SEQ : Nat := 0xE0014
def AU_OPEN : Nat := 0xE0018
def AU_CTRL : Nat := 0xE001C
def AU_ATT_ADDR : Nat := 0xE0020
def AU_REPLAY_SEQ_LO : Nat := 0xE0024
def AU_REPLAY_SEQ_HI : Nat := 0xE0028
def AU_PUB_CTR : Nat := 0xE002C
def AU_KEY_CMD : Nat := 0xE0100
def AU_KEY_ARG : Nat := 0xE0104
def AU_KEY_STAT : Nat := 0xE0108
def AU_KEY_GEN : Nat := 0xE010C
def AU_TAMPER_CFG : Nat := 0xE0110
def AU_TAMPER_STAT : Nat := 0xE0114
def AU_TAMPER_CNT : Nat := 0xE0118
def AU_TAMPER_FILT : Nat := 0xE011C
def AU_RING_CFG : Nat := 0xE0200
def AU_RING_ACK_LO : Nat := 0xE0204
def AU_RING_ACK_HI : Nat := 0xE0208
def AU_RING_STAT : Nat := 0xE020C
def AU_NET_CFG : Nat := 0xE0210
def AU_NET_DST_LO : Nat := 0xE0214
def AU_NET_DST_HI : Nat := 0xE0218
def AU_WIT_CFG : Nat := 0xE0300
def AU_WIT_LINE : Nat := 0xE0304
def AU_WIT_MISMATCH : Nat := 0xE0308
/-! spec/17_compression.md -/
def CZ_STAT : Nat := 0xF0000
def CZ_Dd_CTRL (d : Nat) : Nat := 0xF0100 + 0x20 * d
def CZ_Dd_SRC (d : Nat) : Nat := 0xF0104 + 0x20 * d
def CZ_Dd_DST (d : Nat) : Nat := 0xF0108 + 0x20 * d
def CZ_Dd_FIRST (d : Nat) : Nat := 0xF010C + 0x20 * d
def CZ_Dd_COUNT (d : Nat) : Nat := 0xF0110 + 0x20 * d
def CZ_Dd_LIMIT (d : Nat) : Nat := 0xF0114 + 0x20 * d
def CZ_Dd_STAT (d : Nat) : Nat := 0xF0118 + 0x20 * d
def CZ_Dd_BLOCK (d : Nat) : Nat := 0xF011C + 0x20 * d
def CZ_C_CTRL : Nat := 0xF0200
def CZ_C_SRC : Nat := 0xF0204
def CZ_C_LEN : Nat := 0xF0208
def CZ_C_DESC : Nat := 0xF020C
def CZ_C_CFG : Nat := 0xF0210
def CZ_C_STAT : Nat := 0xF0214
def CZ_C_OUT : Nat := 0xF0218
/-! spec/18_boot_update.md -/
def SYS_MODE_REQ : Nat := 0x100
def SYS_MODE_STAT : Nat := 0x104
def SYS_MODE_TMO : Nat := 0x108
def BU_BOOT_STAT : Nat := 0x100000
def BU_CTRL : Nat := 0x100004
def BU_CONFIRM_TMO : Nat := 0x100008
def BU_SVN : Nat := 0x10000C
def BU_SVN_FLOOR : Nat := 0x100010
def BU_FW_VER : Nat := 0x100014
def BU_FW_MEASi (i : Nat) : Nat := 0x100020 + 0x4 * i
def BU_UP_CTRL : Nat := 0x100080
def BU_UP_STAT : Nat := 0x100084
def BU_UP_PROG : Nat := 0x100088
def BU_UP_ID_LO : Nat := 0x10008C
def BU_UP_ID_HI : Nat := 0x100090
def BU_SET_CTRL : Nat := 0x1000C0
def BU_SET_ADDR : Nat := 0x1000C4
def BU_SET_LEN : Nat := 0x1000C8
def BU_SET_STAT : Nat := 0x1000CC
def BU_SET_VER : Nat := 0x1000D0
def BU_UP_BUFi (i : Nat) : Nat := 0x101000 + 0x4 * i
/-! spec/19_faults_crossings.md -/
def FL_STAT : Nat := 0x110000
def FL_CFG : Nat := 0x110004
def FL_CTRL : Nat := 0x110008
def FL_CSR : Nat := 0x11000C
def FL_HRR_LO : Nat := 0x110010
def FL_HRR_HI : Nat := 0x110014
def FL_EQ_STAT : Nat := 0x110020
def FL_EQ_SEL : Nat := 0x110024
def FL_EQ_ID : Nat := 0x110028
def FL_EQ_INFO : Nat := 0x11002C
def FL_EQ_UNIT : Nat := 0x110030
def FL_EQ_DETAIL : Nat := 0x110034
def FL_EQ_TS0 : Nat := 0x110038
def FL_EQ_TS1 : Nat := 0x11003C
def FL_EQ_TS2 : Nat := 0x110040
def FL_EQ_ACK : Nat := 0x110044
def FL_LOST : Nat := 0x110048
def FL_IRQm_STAT (m : Nat) : Nat := 0x110080 + 0x10 * m
def FL_IRQm_MASK (m : Nat) : Nat := 0x110084 + 0x10 * m
def FL_IRQ_CFG : Nat := 0x1100B0
def FL_EVCNT_SEL : Nat := 0x1100C0
def FL_EVCNT : Nat := 0x1100C4
def FL_WDOG_CYC : Nat := 0x1100D0
def FL_WDOG_ADDR : Nat := 0x1100D4
def FL_WDOG_CNT : Nat := 0x1100D8
def FL_XING_CNT : Nat := 0x1100E0
def FL_XING_SRC : Nat := 0x1100E4
def FL_CLKMON : Nat := 0x1100F0
def FL_GATE_MON : Nat := 0x1100F4
/-! spec/20_sense_calibration.md -/
def AN_CTRL : Nat := 0x120000
def AN_STAT : Nat := 0x120004
def AN_CFG : Nat := 0x120008
def AN_CAL_LIM : Nat := 0x12000C
def AN_XCHK : Nat := 0x120010
def AN_VREF : Nat := 0x120014
def AN_CNT : Nat := 0x120018
def AN_PD_CFG : Nat := 0x120020
def AN_PD0_THR : Nat := 0x120024
def AN_PD1_THR : Nat := 0x120028
def AN_PD0_LVL : Nat := 0x12002C
def AN_PD1_LVL : Nat := 0x120030
def AN_MOFFi (i : Nat) : Nat := 0x120040 + 0x4 * i
def AN_CHk_DIV (k : Nat) : Nat := 0x120100 + 0x20 * k
def AN_CHk_GCAL (k : Nat) : Nat := 0x120104 + 0x20 * k
def AN_CHk_VAL (k : Nat) : Nat := 0x120108 + 0x20 * k
def AN_CHk_RAW (k : Nat) : Nat := 0x12010C + 0x20 * k
def AN_CHk_LIM (k : Nat) : Nat := 0x120110 + 0x20 * k
/-! spec/21_address_map.md -/
def SYS_ID : Nat := 0x0
def SYS_CAP : Nat := 0x4
def SYS_RST : Nat := 0x8
def SYS_RST_STAT : Nat := 0xC
def SYS_BUS_ERR : Nat := 0x10
def SYS_BUS_MST : Nat := 0x14
def SYS_SWI : Nat := 0x30
def SYS_COREc_IEN (c : Nat) : Nat := 0x40 + 0x8 * c
def SYS_COREc_IPEND (c : Nat) : Nat := 0x44 + 0x8 * c
/-! spec/23_test_loopbacks.md -/
def TS_CTRL : Nat := 0x130000
def TS_CFG : Nat := 0x130004
def TS_DUR : Nat := 0x130008
def TS_WORD : Nat := 0x13000C
def TS_CAM_CRC : Nat := 0x130010
def TS_STAT : Nat := 0x130014
def TS_ERRCNT : Nat := 0x130018
def TS_BITS_LO : Nat := 0x13001C
def TS_BITS_HI : Nat := 0x130020
def TS_SELF : Nat := 0x130024
def TS_SELF_RUN : Nat := 0x130028
def TS_SELF_INST : Nat := 0x13002C
def TS_IDCODE : Nat := 0x130030

end Sys2Proof.Machine.Reg

namespace Sys2Proof.Machine.F

/-! spec/02_unit_tree.md -/
def UT_SEL_CHIP : BitField := ⟨31, 24⟩
def UT_SEL_HANDLE : BitField := ⟨23, 0⟩
def UT_INFO_VALID : BitField := ⟨31, 31⟩
def UT_INFO_SNAP_READY : BitField := ⟨30, 30⟩
def UT_INFO_KIND : BitField := ⟨27, 24⟩
def UT_INFO_DEPTH : BitField := ⟨23, 16⟩
def UT_INFO_CHILDREN : BitField := ⟨15, 0⟩
def UT_PARENT_PARENT : BitField := ⟨23, 0⟩
def UT_CFG_EN : BitField := ⟨31, 31⟩
def UT_CFG_EN_EFF : BitField := ⟨30, 30⟩
def UT_CFG_TRIM : BitField := ⟨23, 20⟩
def UT_CFG_TRIM_EFF : BitField := ⟨19, 16⟩
def UT_CFG_LDELAY : BitField := ⟨9, 0⟩
def UT_SUB_SLDELAY_EFF : BitField := ⟨29, 16⟩
def UT_SUB_SLDELAY : BitField := ⟨13, 0⟩
def UT_STATUS_LDELAY_EFF : BitField := ⟨25, 16⟩
def UT_STATUS_LATCH_VOID : BitField := ⟨9, 9⟩
def UT_STATUS_LATCH_WARN : BitField := ⟨8, 8⟩
def UT_STATUS_OWN : BitField := ⟨6, 4⟩
def UT_STATUS_DOME : BitField := ⟨2, 0⟩
def UT_CNT_EVENT_COUNT : BitField := ⟨31, 0⟩
def UT_CNT_VOID_COUNT : BitField := ⟨31, 0⟩
def UT_CNT_CMD_COUNT : BitField := ⟨31, 0⟩
def UT_GEOM_BANK : BitField := ⟨23, 20⟩
def UT_GEOM_RES2400 : BitField := ⟨18, 18⟩
def UT_GEOM_MIRROR : BitField := ⟨17, 17⟩
def UT_GEOM_COL_ORIGIN : BitField := ⟨16, 0⟩
def UT_CHILD_SEL_INDEX : BitField := ⟨15, 0⟩
def UT_CHILD_VALID : BitField := ⟨31, 31⟩
def UT_CHILD_HANDLE : BitField := ⟨23, 0⟩
def UT_ARG_ARG : BitField := ⟨31, 0⟩
def UT_CMD_CODE : BitField := ⟨7, 0⟩
def UT_CMD_STAT_ERR : BitField := ⟨7, 4⟩
def UT_CMD_STAT_PENDING : BitField := ⟨2, 2⟩
def UT_CMD_STAT_DONE : BitField := ⟨1, 1⟩
def UT_CMD_STAT_BUSY : BitField := ⟨0, 0⟩
def UT_CMD_LINE_LINE : BitField := ⟨31, 0⟩
/-! spec/03_structure_image.md -/
def BU_SI_CTRL_ABORT : BitField := ⟨1, 1⟩
def BU_SI_CTRL_START : BitField := ⟨0, 0⟩
def BU_SI_STAGE_ADDR64 : BitField := ⟨31, 0⟩
def BU_SI_SIZE_SIZE : BitField := ⟨22, 0⟩
def BU_SI_STATUS_FAIL_SECTION : BitField := ⟨23, 16⟩
def BU_SI_STATUS_ERR : BitField := ⟨11, 8⟩
def BU_SI_STATUS_STATE : BitField := ⟨3, 0⟩
def BU_SI_ACT_LINE_LINE : BitField := ⟨31, 0⟩
def BU_SI_ID_VALUE : BitField := ⟨31, 0⟩
def BU_SI_VER_VALUE : BitField := ⟨31, 0⟩
def BU_SI_MEASi_BYTES : BitField := ⟨31, 0⟩
def BU_SI_PARTIALS_COUNT : BitField := ⟨15, 0⟩
/-! spec/04_web_position.md -/
def WP_CHk_CFG_WIRE_T : BitField := ⟨31, 26⟩
def WP_CHk_CFG_EDGE_MIN : BitField := ⟨25, 16⟩
def WP_CHk_CFG_FILT : BitField := ⟨15, 8⟩
def WP_CHk_CFG_IDX_EN : BitField := ⟨4, 4⟩
def WP_CHk_CFG_WIRE_EN : BitField := ⟨3, 3⟩
def WP_CHk_CFG_INV_DIR : BitField := ⟨2, 2⟩
def WP_CHk_CFG_MODE : BitField := ⟨1, 0⟩
def WP_CHk_CPR_COUNTS_PER_REV : BitField := ⟨31, 0⟩
def WP_CHk_ZPOS_Z_POS : BitField := ⟨31, 0⟩
def WP_CHk_IDX_DIR_HYST : BitField := ⟨23, 16⟩
def WP_CHk_IDX_INDEX_TOL : BitField := ⟨15, 0⟩
def WP_CHk_SSI_MONO : BitField := ⟨31, 24⟩
def WP_CHk_SSI_MISS_MAX : BitField := ⟨19, 16⟩
def WP_CHk_SSI_ERRBIT : BitField := ⟨15, 15⟩
def WP_CHk_SSI_PAR : BitField := ⟨14, 13⟩
def WP_CHk_SSI_GRAY : BitField := ⟨12, 12⟩
def WP_CHk_SSI_ST_BITS : BitField := ⟨11, 6⟩
def WP_CHk_SSI_BITS : BitField := ⟨5, 0⟩
def WP_CHk_SSIT_PERIOD : BitField := ⟨31, 16⟩
def WP_CHk_SSIT_SCK_HALF : BitField := ⟨15, 0⟩
def WP_CHk_CNT_VALUE : BitField := ⟨31, 0⟩
def WP_CHk_REV_VALUE : BitField := ⟨31, 0⟩
def WP_CHk_STAT_LEVEL : BitField := ⟨18, 16⟩
def WP_CHk_STAT_DIR : BitField := ⟨15, 15⟩
def WP_CHk_STAT_SSI_JUMP : BitField := ⟨9, 9⟩
def WP_CHk_STAT_SSI_LOST : BitField := ⟨8, 8⟩
def WP_CHk_STAT_SSI_PARITY : BitField := ⟨7, 7⟩
def WP_CHk_STAT_INDEX_MISSING : BitField := ⟨6, 6⟩
def WP_CHk_STAT_INDEX_ERR : BitField := ⟨5, 5⟩
def WP_CHk_STAT_OVERRATE : BitField := ⟨4, 4⟩
def WP_CHk_STAT_ILLEGAL : BitField := ⟨3, 3⟩
def WP_CHk_STAT_WIRE_Z : BitField := ⟨2, 2⟩
def WP_CHk_STAT_WIRE_B : BitField := ⟨1, 1⟩
def WP_CHk_STAT_WIRE_A : BitField := ⟨0, 0⟩
def WP_CHk_QERR_IDX_DEV : BitField := ⟨31, 16⟩
def WP_CHk_QERR_ILLEGAL_CNT : BitField := ⟨15, 0⟩
def WP_CHk_PT_ZLINES : BitField := ⟨31, 16⟩
def WP_CHk_PT_CPL : BitField := ⟨15, 8⟩
def WP_CHk_PT_PT_MODE : BitField := ⟨1, 0⟩
def WP_CTRL_ZLATCH : BitField := ⟨5, 5⟩
def WP_CTRL_ARM : BitField := ⟨4, 4⟩
def WP_CTRL_SRC : BitField := ⟨1, 0⟩
def WP_RATIO_FRAC_FRAC : BitField := ⟨31, 0⟩
def WP_RATIO_INT_INT : BitField := ⟨15, 0⟩
def WP_ARM_POS_LO_POS : BitField := ⟨31, 0⟩
def WP_ARM_POS_HI_POS : BitField := ⟨15, 0⟩
def WP_POS_LO_POS : BitField := ⟨31, 0⟩
def WP_POS_HI_POS : BitField := ⟨15, 0⟩
def WP_LINE_LINE : BitField := ⟨31, 0⟩
def WP_HWM_LINE : BitField := ⟨31, 0⟩
def WP_HOLD_LINE_LINE : BitField := ⟨31, 0⟩
def WP_PERIOD_P : BitField := ⟨31, 0⟩
def WP_BACKUP_PIN_LOW : BitField := ⟨1, 1⟩
def WP_BACKUP_ACTIVE : BitField := ⟨0, 0⟩
def WP_BACKUP_TMO_MS : BitField := ⟨31, 0⟩
def WP_BACKUP_CNT_COUNT : BitField := ⟨31, 0⟩
def WP_TICKS_IDLE_COUNT : BitField := ⟨31, 0⟩
def WP_PLACE_MAX_PORT : BitField := ⟨31, 16⟩
def WP_PLACE_MAX_ERR : BitField := ⟨15, 0⟩
def WP_STAT_SRC : BitField := ⟨9, 8⟩
def WP_STAT_PT_LAG : BitField := ⟨7, 7⟩
def WP_STAT_CFG_REFUSED : BitField := ⟨6, 6⟩
def WP_STAT_COMPARE_BEHIND : BitField := ⟨5, 5⟩
def WP_STAT_BACKUP_TIMEOUT : BitField := ⟨4, 4⟩
def WP_STAT_RANGE : BitField := ⟨3, 3⟩
def WP_STAT_LINE_RATE_HIGH : BitField := ⟨2, 2⟩
def WP_STAT_LINE_MISSED : BitField := ⟨1, 1⟩
def WP_STAT_OVERSPEED : BitField := ⟨0, 0⟩
def WP_CMPk_LO_TARGET : BitField := ⟨31, 0⟩
def WP_CMPk_HI_TARGET : BitField := ⟨15, 0⟩
def WP_CMPk_CTRL_ARMED : BitField := ⟨13, 13⟩
def WP_CMPk_CTRL_BEHIND : BitField := ⟨12, 12⟩
def WP_CMPk_CTRL_FIRED : BitField := ⟨11, 11⟩
def WP_CMPk_CTRL_AXIS : BitField := ⟨10, 9⟩
def WP_CMPk_CTRL_ACTION : BitField := ⟨8, 6⟩
def WP_CMPk_CTRL_SRC : BitField := ⟨5, 4⟩
def WP_CMPk_CTRL_DIR : BitField := ⟨3, 2⟩
def WP_CMPk_CTRL_ARM : BitField := ⟨0, 0⟩
/-! spec/05_job_stream.md -/
def JS_CTRL_SLOT : BitField := ⟨8, 8⟩
def JS_CTRL_UNLOAD : BitField := ⟨2, 2⟩
def JS_CTRL_ARM : BitField := ⟨1, 1⟩
def JS_CTRL_LOAD : BitField := ⟨0, 0⟩
def JS_STAT_NEXT_VALID : BitField := ⟨9, 9⟩
def JS_STAT_CUR_SLOT : BitField := ⟨8, 8⟩
def JS_STAT_ARM_REFUSED : BitField := ⟨5, 5⟩
def JS_STAT_RASTER_ORDER : BitField := ⟨4, 4⟩
def JS_STAT_RECORD_ORDER : BitField := ⟨3, 3⟩
def JS_STAT_RECORD_BAD : BitField := ⟨2, 2⟩
def JS_STAT_LINE_LATE : BitField := ⟨1, 1⟩
def JS_STAT_LOAD_REFUSED : BitField := ⟨0, 0⟩
def JS_LATE_LINE_VALUE : BitField := ⟨31, 0⟩
def JS_LATE_CNT_VALUE : BitField := ⟨31, 0⟩
def JS_LRING_NEED_KIB : BitField := ⟨31, 16⟩
def JS_LRING_ENTRY_KIB : BitField := ⟨15, 0⟩
def JS_PLATE_CMD_OP : BitField := ⟨9, 8⟩
def JS_PLATE_CMD_SLOT : BitField := ⟨3, 0⟩
def JS_PLATE_STAT_ERR : BitField := ⟨3, 0⟩
def JS_PLATEk_BASE_ADDR64K : BitField := ⟨31, 0⟩
def JS_PLATEk_CFG_STATE : BitField := ⟨31, 30⟩
def JS_PLATEk_CFG_LINES : BitField := ⟨16, 0⟩
def JS_PLATEk_FILL_BYTES : BitField := ⟨31, 0⟩
def JS_JOBs_DESC_ADDR64 : BitField := ⟨31, 0⟩
def JS_JOBs_STAT_ERR : BitField := ⟨11, 8⟩
def JS_JOBs_STAT_STATE : BitField := ⟨2, 0⟩
def JS_JOBs_RING_WP_OFFSET : BitField := ⟨31, 6⟩
def JS_JOBs_RING_RP_OFFSET : BitField := ⟨31, 0⟩
def JS_JOBs_END_LINE_VALUE : BitField := ⟨31, 0⟩
def JS_JOBs_LAST_ROW_VALUE : BitField := ⟨31, 0⟩
def JS_JOBs_RASTER_WP_COUNT : BitField := ⟨31, 0⟩
def JS_JOBs_DISCARD_COUNT : BitField := ⟨31, 0⟩
/-! spec/06_field_rendering.md -/
def AU_PLAY_CFG_FAIL_MAX : BitField := ⟨7, 0⟩
def AU_PLAY_STAT_FAIL_RUN : BitField := ⟨15, 8⟩
def AU_PLAY_STAT_SEAL_ACCESS : BitField := ⟨3, 3⟩
def AU_PLAY_STAT_BURST : BitField := ⟨2, 2⟩
def AU_PLAY_STAT_AUTH_FAIL : BitField := ⟨1, 1⟩
def AU_PLAY_STAT_KEY_LOCKED : BitField := ⟨0, 0⟩
def AU_PLAY_OK_COUNT : BitField := ⟨31, 0⟩
def AU_PLAY_FAIL_COUNT : BitField := ⟨31, 0⟩
def AU_SEAL_ACC_REGION : BitField := ⟨7, 4⟩
def AU_SEAL_ACC_REQ : BitField := ⟨3, 0⟩
def AU_RNDR_ERR_REASON : BitField := ⟨25, 21⟩
def AU_RNDR_ERR_FIELD : BitField := ⟨20, 16⟩
def AU_RNDR_ERR_CELL : BitField := ⟨9, 0⟩
def AU_RNDR_ERR_INST_INST : BitField := ⟨31, 0⟩
/-! spec/07_head_ports.md -/
def HP_CTRL_CFG_SEND : BitField := ⟨1, 1⟩
def HP_CTRL_GATE_CLEAR : BitField := ⟨0, 0⟩
def HP_STAT_CFG_REFUSED : BitField := ⟨8, 8⟩
def HP_STAT_HEAD_INSERT : BitField := ⟨7, 7⟩
def HP_STAT_RET_FRAME : BitField := ⟨6, 6⟩
def HP_STAT_HEAD_CFG : BitField := ⟨5, 5⟩
def HP_STAT_HEAD_MISMATCH : BitField := ⟨4, 4⟩
def HP_STAT_HEAD_LOST : BitField := ⟨3, 3⟩
def HP_STAT_HEAD_SEQ : BitField := ⟨2, 2⟩
def HP_STAT_HEAD_CRC : BitField := ⟨1, 1⟩
def HP_STAT_GATE_CUT : BitField := ⟨0, 0⟩
def HP_GATE_CUT : BitField := ⟨24, 16⟩
def HP_GATE_LEVEL : BitField := ⟨8, 0⟩
def HP_RET_CFG_ABSENT_US : BitField := ⟨23, 16⟩
def HP_RET_CFG_STALE_US : BitField := ⟨15, 0⟩
def HP_LEe_LATE : BitField := ⟨31, 16⟩
def HP_LEe_MAX_CYCLES : BitField := ⟨15, 0⟩
def HP_Pp_STAT_HEAD_TYPE : BitField := ⟨31, 16⟩
def HP_Pp_STAT_REV : BitField := ⟨15, 12⟩
def HP_Pp_STAT_INHIBIT : BitField := ⟨10, 10⟩
def HP_Pp_STAT_CFG_OK : BitField := ⟨9, 9⟩
def HP_Pp_STAT_PAR_ECHO : BitField := ⟨8, 8⟩
def HP_Pp_STAT_RET_ERR : BitField := ⟨6, 6⟩
def HP_Pp_STAT_SEQ_ERR : BitField := ⟨5, 5⟩
def HP_Pp_STAT_CRC_ERR : BitField := ⟨4, 4⟩
def HP_Pp_STAT_STATE : BitField := ⟨2, 0⟩
def HP_Pp_TEMP_AGE_US : BitField := ⟨31, 16⟩
def HP_Pp_TEMP_TEMP : BitField := ⟨13, 0⟩
def HP_Pp_SERIAL_SERIAL : BitField := ⟨31, 0⟩
def HP_Pp_ERRCNT_HEAD_CRC : BitField := ⟨31, 16⟩
def HP_Pp_ERRCNT_RET_BAD : BitField := ⟨15, 0⟩
/-! spec/08_firing_energy.md -/
def FE_STAT_VH_RANGE : BitField := ⟨4, 4⟩
def FE_STAT_WIDTH_CLAMP : BitField := ⟨3, 3⟩
def FE_STAT_HEAD_DERATE : BitField := ⟨2, 2⟩
def FE_STAT_HEAD_HOT : BitField := ⟨1, 1⟩
def FE_STAT_BANK_LIMIT : BitField := ⟨0, 0⟩
def FE_WTAB_BASE_OFFSET : BitField := ⟨31, 0⟩
def FE_WTAB_COUNT_COUNT : BitField := ⟨5, 0⟩
def FE_BANKb_CFG_OVF : BitField := ⟨31, 28⟩
def FE_BANKb_CFG_PHASES : BitField := ⟨27, 23⟩
def FE_BANKb_CFG_BANK_MAX : BitField := ⟨13, 0⟩
def FE_BANKb_WARM_HZ : BitField := ⟨15, 0⟩
def FE_BANKb_LOAD_BLANK : BitField := ⟨31, 16⟩
def FE_BANKb_LOAD_MAXLOAD : BitField := ⟨15, 0⟩
def FE_BANKb_DEFER_COUNT : BitField := ⟨31, 0⟩
def FE_Pp_CFG_PITCH : BitField := ⟨27, 16⟩
def FE_Pp_CFG_WSEL : BitField := ⟨9, 8⟩
def FE_Pp_CFG_ENTRY : BitField := ⟨5, 0⟩
def FE_Pp_WARM_WIDTH : BitField := ⟨8, 0⟩
def FE_Pp_FACT_F_V : BitField := ⟨31, 16⟩
def FE_Pp_FACT_F_T : BitField := ⟨15, 0⟩
def FE_Pp_STAT_DERATE_IDX : BitField := ⟨18, 16⟩
def FE_Pp_STAT_VH_RANGE : BitField := ⟨3, 3⟩
def FE_Pp_STAT_CLAMP : BitField := ⟨2, 2⟩
def FE_Pp_STAT_DERATE : BitField := ⟨1, 1⟩
def FE_Pp_STAT_HOT : BitField := ⟨0, 0⟩
/-! spec/09_nozzle_health.md -/
def NH_CTRL_RESTORE : BitField := ⟨8, 8⟩
def NH_CTRL_PORT : BitField := ⟨5, 0⟩
def NH_STAT_RESTORE_REFUSED : BitField := ⟨8, 8⟩
def NH_STAT_HEAD_NEW : BitField := ⟨7, 7⟩
def NH_STAT_DECAP_RISK : BitField := ⟨6, 6⟩
def NH_STAT_DECAP_DUE : BitField := ⟨5, 5⟩
def NH_STAT_GATE_ABORT : BitField := ⟨4, 4⟩
def NH_STAT_EVID_STALE : BitField := ⟨3, 3⟩
def NH_STAT_NQ_FULL : BitField := ⟨2, 2⟩
def NH_STAT_HEAD_REPLACE : BitField := ⟨1, 1⟩
def NH_STAT_NOZZLE_STATE : BitField := ⟨0, 0⟩
def NH_CFG_WARM_SPIT : BitField := ⟨31, 31⟩
def NH_CFG_AUTO_SPIT : BitField := ⟨30, 30⟩
def NH_CFG_DECAP_K : BitField := ⟨29, 24⟩
def NH_CFG_MISS_N : BitField := ⟨23, 20⟩
def NH_CFG_WEAK_N : BitField := ⟨19, 16⟩
def NH_CFG_EVID_WINDOW : BitField := ⟨15, 0⟩
def NH_EPOCH_PENDING : BitField := ⟨17, 17⟩
def NH_EPOCH_STAGING : BitField := ⟨16, 16⟩
def NH_EPOCH_EPOCH : BitField := ⟨15, 0⟩
def NH_COMMIT_LINE_LINE : BitField := ⟨31, 0⟩
def NH_QUEUE_DROPPED : BitField := ⟨31, 16⟩
def NH_QUEUE_USED : BitField := ⟨8, 0⟩
def NH_HIST_SEL_INDEX : BitField := ⟨7, 0⟩
def NH_HIST_LINE_VALUE : BitField := ⟨31, 0⟩
def NH_HIST_EPOCH_VALID : BitField := ⟨16, 16⟩
def NH_HIST_EPOCH_EPOCH : BitField := ⟨15, 0⟩
def NH_SHADOW_ADDR128K : BitField := ⟨31, 0⟩
def NH_EVID_DROP_STALE : BitField := ⟨31, 16⟩
def NH_EVID_DROP_SPLIT_GAP : BitField := ⟨15, 0⟩
def NH_WEAR_CFG_HORIZON_H : BitField := ⟨31, 16⟩
def NH_WEAR_CFG_WIN_S : BitField := ⟨15, 0⟩
def NH_GATE_CTRL_ABORT : BitField := ⟨1, 1⟩
def NH_GATE_CTRL_START : BitField := ⟨0, 0⟩
def NH_GATE_CFG_REPEATS : BitField := ⟨31, 28⟩
def NH_GATE_CFG_VALUE : BitField := ⟨27, 26⟩
def NH_GATE_CFG_UNIT : BitField := ⟨23, 0⟩
def NH_GATE_TIME_SHOT_HZ : BitField := ⟨31, 16⟩
def NH_GATE_TIME_SETTLE_US : BitField := ⟨15, 0⟩
def NH_GATE_WIN_WIN_LEN : BitField := ⟨31, 16⟩
def NH_GATE_WIN_WIN_OPEN : BitField := ⟨15, 0⟩
def NH_GATE_DT_DT_MAX : BitField := ⟨31, 16⟩
def NH_GATE_DT_DT_MIN : BitField := ⟨15, 0⟩
def NH_GATE_ORG_VALUE : BitField := ⟨31, 0⟩
def NH_GATE_MPP_VALUE : BitField := ⟨31, 0⟩
def NH_GATE_STAT_SCAN : BitField := ⟨31, 16⟩
def NH_GATE_STAT_CAUSE : BitField := ⟨7, 4⟩
def NH_GATE_STAT_STATE : BitField := ⟨3, 0⟩
def NH_SPITk_HZ : BitField := ⟨31, 16⟩
def NH_SPITk_STRIDE : BitField := ⟨12, 10⟩
def NH_SPITk_VALUE : BitField := ⟨9, 8⟩
def NH_SPITk_LINES : BitField := ⟨7, 0⟩
def NH_Pp_CFG_WEAR_LIMIT : BitField := ⟨31, 16⟩
def NH_Pp_CFG_DECAP_MS : BitField := ⟨15, 0⟩
def NH_Pp_LIM_COVER_MIN : BitField := ⟨26, 16⟩
def NH_Pp_LIM_GAP_MAX : BitField := ⟨11, 0⟩
def NH_Pp_STAT_HEAD_REPLACE_REQ : BitField := ⟨31, 31⟩
def NH_Pp_STAT_WEAR : BitField := ⟨30, 30⟩
def NH_Pp_STAT_GAP_HIGH : BitField := ⟨29, 29⟩
def NH_Pp_STAT_COVER_LOW : BitField := ⟨28, 28⟩
def NH_Pp_STAT_DECAP_DUE : BitField := ⟨27, 27⟩
def NH_Pp_STAT_COVER : BitField := ⟨26, 16⟩
def NH_Pp_STAT_GAPS : BitField := ⟨11, 0⟩
def NH_Pp_WEAR_PROJ_H : BitField := ⟨31, 16⟩
def NH_Pp_WEAR_MAX_CNT : BitField := ⟨15, 0⟩
/-! spec/10_inspection.md -/
def IN_CTRL_EN : BitField := ⟨0, 0⟩
def IN_STAT_EN_ERR : BitField := ⟨31, 28⟩
def IN_STAT_EN_REFUSED : BitField := ⟨13, 13⟩
def IN_STAT_SEAL_ACCESS : BitField := ⟨12, 12⟩
def IN_STAT_BANK_BUSY : BitField := ⟨11, 11⟩
def IN_STAT_CFG_REFUSED : BitField := ⟨10, 10⟩
def IN_STAT_TICKET_UNVER : BitField := ⟨9, 9⟩
def IN_STAT_INSPECT_VOID : BitField := ⟨8, 8⟩
def IN_STAT_SEG_LATE : BitField := ⟨7, 7⟩
def IN_STAT_RX_OVERFLOW : BitField := ⟨6, 6⟩
def IN_STAT_META_MISS : BitField := ⟨5, 5⟩
def IN_STAT_PARAM_MISS : BitField := ⟨4, 4⟩
def IN_STAT_CSI_CRC : BitField := ⟨3, 3⟩
def IN_STAT_CSI_ECC : BitField := ⟨2, 2⟩
def IN_STAT_LINE_LEN : BitField := ⟨1, 1⟩
def IN_STAT_FRAME_LEN : BitField := ⟨0, 0⟩
def IN_CFG_CLOSE_TMO : BitField := ⟨31, 16⟩
def IN_CFG_ASM_LAG : BitField := ⟨15, 8⟩
def IN_CFG_SYM_REQUIRE : BitField := ⟨3, 3⟩
def IN_CFG_UNVER_POLICY : BitField := ⟨2, 2⟩
def IN_CFG_PT_CH : BitField := ⟨1, 1⟩
def IN_CFG_EXPOSURES : BitField := ⟨0, 0⟩
def IN_PORTn_CFG_RATE_MBPS : BitField := ⟨27, 16⟩
def IN_PORTn_CFG_POL : BitField := ⟨7, 4⟩
def IN_PORTn_CFG_LANES : BitField := ⟨1, 0⟩
def IN_PORTn_ERR_ECC_FIX : BitField := ⟨31, 16⟩
def IN_PORTn_ERR_DISCARD : BitField := ⟨15, 0⟩
def IN_THR_DARK_T : BitField := ⟨27, 16⟩
def IN_THR_LIGHT_T : BitField := ⟨11, 0⟩
def IN_CNT_CFG_N_MIN : BitField := ⟨31, 16⟩
def IN_CNT_CFG_DEFECT_MAX : BitField := ⟨15, 0⟩
def IN_EVID_CFG_CONTRAST_MIN : BitField := ⟨27, 16⟩
def IN_EVID_CFG_EVID_LINES : BitField := ⟨12, 0⟩
def IN_EVID_THR_MISS_T : BitField := ⟨28, 16⟩
def IN_EVID_THR_WEAK_T : BitField := ⟨12, 0⟩
def IN_SYM_CFG_SC_MIN : BitField := ⟨27, 16⟩
def IN_SYM_CFG_MOD_MARGIN : BitField := ⟨15, 4⟩
def IN_SYM_CFG_INSET : BitField := ⟨3, 0⟩
def IN_SYM_ERR_MODERR_MAX : BitField := ⟨15, 0⟩
def IN_DROPW_W3 : BitField := ⟨21, 16⟩
def IN_DROPW_W2 : BitField := ⟨13, 8⟩
def IN_DROPW_W1 : BitField := ⟨5, 0⟩
def IN_KERNr_K2 : BitField := ⟨23, 16⟩
def IN_KERNr_K1 : BitField := ⟨15, 8⟩
def IN_KERNr_K0 : BitField := ⟨7, 0⟩
def IN_EXP_ADDR_VALUE : BitField := ⟨31, 0⟩
def IN_EXP_LINES_VALUE : BitField := ⟨31, 0⟩
def IN_IMG_ADDR_VALUE : BitField := ⟨31, 0⟩
def IN_IMG_LINES_VALUE : BitField := ⟨31, 0⟩
def IN_IHWM_V : BitField := ⟨31, 0⟩
def IN_DISCARD_EARLY : BitField := ⟨31, 16⟩
def IN_DISCARD_REPEAT : BitField := ⟨15, 0⟩
def IN_VPASS_COUNT : BitField := ⟨31, 0⟩
def IN_VVOID_COUNT : BitField := ⟨31, 0⟩
def IN_VUNVER_COUNT : BitField := ⟨31, 0⟩
def IN_SEAL_ACC_REGION : BitField := ⟨5, 4⟩
def IN_SEAL_ACC_REQ : BitField := ⟨3, 0⟩
def IN_TAB_SEL_TABLE : BitField := ⟨31, 28⟩
def IN_TAB_SEL_SEG : BitField := ⟨27, 24⟩
def IN_TAB_SEL_BANK : BitField := ⟨23, 23⟩
def IN_TAB_SEL_EXP : BitField := ⟨22, 22⟩
def IN_TAB_SEL_INDEX : BitField := ⟨10, 0⟩
def IN_TAB_DATA_VALUE : BitField := ⟨15, 0⟩
def IN_XP_CTRL_START : BitField := ⟨0, 0⟩
def IN_XP_FIRST_VALUE : BitField := ⟨31, 0⟩
def IN_XP_COUNT_VALUE : BitField := ⟨31, 0⟩
def IN_XP_DESC_VALUE : BitField := ⟨31, 0⟩
def IN_XP_STAT_ERR : BitField := ⟨7, 4⟩
def IN_XP_STAT_DONE : BitField := ⟨1, 1⟩
def IN_XP_STAT_BUSY : BitField := ⟨0, 0⟩
def IN_SEGk_SRC_MIRROR : BitField := ⟨6, 6⟩
def IN_SEGk_SRC_RAW12 : BitField := ⟨5, 5⟩
def IN_SEGk_SRC_VC : BitField := ⟨4, 2⟩
def IN_SEGk_SRC_PORT : BitField := ⟨1, 1⟩
def IN_SEGk_SRC_EN : BitField := ⟨0, 0⟩
def IN_SEGk_GEOM_FRAME_LINES : BitField := ⟨27, 16⟩
def IN_SEGk_GEOM_LINE_PIX : BitField := ⟨11, 0⟩
def IN_SEGk_X0_VALUE : BitField := ⟨31, 0⟩
def IN_SEGk_PITCH_VALUE : BitField := ⟨31, 0⟩
def IN_SEGk_UWIN_U_HI : BitField := ⟨29, 16⟩
def IN_SEGk_UWIN_U_LO : BitField := ⟨13, 0⟩
def IN_SEGk_SUB_CAM_SUB : BitField := ⟨31, 0⟩
def IN_SEGk_EMB_SET_OFF : BitField := ⟨27, 16⟩
def IN_SEGk_EMB_Q_OFF : BitField := ⟨11, 0⟩
def IN_SEGk_BANK0_BLEND_SH : BitField := ⟨31, 28⟩
def IN_SEGk_BANK0_KNEE : BitField := ⟨27, 16⟩
def IN_SEGk_BANK0_IN_USE : BitField := ⟨9, 9⟩
def IN_SEGk_BANK0_VALID : BitField := ⟨8, 8⟩
def IN_SEGk_BANK0_SET_ID : BitField := ⟨7, 0⟩
def IN_SEGk_BANK1_BLEND_SH : BitField := ⟨31, 28⟩
def IN_SEGk_BANK1_KNEE : BitField := ⟨27, 16⟩
def IN_SEGk_BANK1_IN_USE : BitField := ⟨9, 9⟩
def IN_SEGk_BANK1_VALID : BitField := ⟨8, 8⟩
def IN_SEGk_BANK1_SET_ID : BitField := ⟨7, 0⟩
def IN_SEGk_STAT_FRAME_LEN : BitField := ⟨31, 16⟩
def IN_SEGk_STAT_BANK_SEL : BitField := ⟨8, 8⟩
def IN_SEGk_STAT_LAST_SET : BitField := ⟨7, 0⟩
def IN_SEGk_ERR_DROPPED : BitField := ⟨31, 16⟩
def IN_SEGk_ERR_LINE_LEN : BitField := ⟨15, 0⟩
/-! spec/11_loop_engine.md -/
def LE_STAT_AT_SAFE : BitField := ⟨4, 4⟩
def LE_STAT_FROZEN : BitField := ⟨3, 3⟩
def LE_STAT_IMPLAUSIBLE : BitField := ⟨2, 2⟩
def LE_STAT_FAULT : BitField := ⟨1, 1⟩
def LE_STAT_LATE : BitField := ⟨0, 0⟩
def LE_TICK_TICK : BitField := ⟨31, 0⟩
def LE_LOAD_MAX_CYCLES : BitField := ⟨31, 16⟩
def LE_LOAD_LAST_CYCLES : BitField := ⟨15, 0⟩
def LE_XINi_VALUE : BitField := ⟨15, 0⟩
def LE_XOUTi_VALUE : BitField := ⟨15, 0⟩
def LE_Cc_CTRL_AUTO : BitField := ⟨1, 1⟩
def LE_Cc_CTRL_MAN : BitField := ⟨0, 0⟩
def LE_Cc_CFG_EN : BitField := ⟨31, 31⟩
def LE_Cc_CFG_CLASS : BitField := ⟨30, 29⟩
def LE_Cc_CFG_GATE : BitField := ⟨28, 28⟩
def LE_Cc_CFG_PERIOD : BitField := ⟨15, 0⟩
def LE_Cc_STAT_REQ_REFUSED : BitField := ⟨8, 8⟩
def LE_Cc_STAT_FAULT : BitField := ⟨7, 7⟩
def LE_Cc_STAT_FROZEN : BitField := ⟨6, 6⟩
def LE_Cc_STAT_IMPLAUSIBLE : BitField := ⟨5, 5⟩
def LE_Cc_STAT_LATE : BitField := ⟨4, 4⟩
def LE_Cc_STAT_INBAND : BitField := ⟨3, 3⟩
def LE_Cc_STAT_STATE : BitField := ⟨2, 0⟩
def LE_Cc_SP_SP : BitField := ⟨15, 0⟩
def LE_Cc_Y_MODEL : BitField := ⟨31, 16⟩
def LE_Cc_Y_Y : BitField := ⟨15, 0⟩
def LE_Cc_OUT_E : BitField := ⟨31, 16⟩
def LE_Cc_OUT_OUTV : BitField := ⟨15, 0⟩
def LE_Cc_INTEG_INTEG : BitField := ⟨31, 0⟩
def LE_Cc_CNT_LATE : BitField := ⟨31, 16⟩
def LE_Cc_CNT_RUNS : BitField := ⟨15, 0⟩
/-! spec/12_motion.md -/
def MO_CFG_ESTOP_HALT : BitField := ⟨31, 31⟩
def MO_CFG_CAP_HOME : BitField := ⟨30, 30⟩
def MO_CFG_I_LSB : BitField := ⟨27, 16⟩
def MO_CFG_FITTED : BitField := ⟨3, 0⟩
def MO_VM_VALUE : BitField := ⟨31, 0⟩
def MO_OPEN_DIST_VALUE : BitField := ⟨31, 0⟩
def MO_STAT_CAP_SEQ : BitField := ⟨7, 7⟩
def MO_STAT_AT_CAP : BitField := ⟨6, 6⟩
def MO_STAT_CMP_HIT : BitField := ⟨5, 5⟩
def MO_STAT_CAP_FAIL : BitField := ⟨4, 4⟩
def MO_STAT_CHATTER : BitField := ⟨3, 3⟩
def MO_STAT_HOMING_FAULT : BitField := ⟨2, 2⟩
def MO_STAT_LIMIT : BitField := ⟨1, 1⟩
def MO_STAT_STALL : BitField := ⟨0, 0⟩
def MO_Aa_CMD_TRIG : BitField := ⟨4, 4⟩
def MO_Aa_CMD_OP : BitField := ⟨2, 0⟩
def MO_Aa_TARGET_POS : BitField := ⟨31, 0⟩
def MO_Aa_HOME_POS_POS : BitField := ⟨31, 0⟩
def MO_Aa_CAP_POS_POS : BitField := ⟨31, 0⟩
def MO_Aa_VMAX_VALUE : BitField := ⟨31, 0⟩
def MO_Aa_AMAX_VALUE : BitField := ⟨31, 0⟩
def MO_Aa_JMAX_VALUE : BitField := ⟨31, 0⟩
def MO_Aa_POS_POS : BitField := ⟨31, 0⟩
def MO_Aa_STAT_ERR : BitField := ⟨15, 12⟩
def MO_Aa_STAT_CAUSE : BitField := ⟨11, 10⟩
def MO_Aa_STAT_TRIG_NONE : BitField := ⟨9, 9⟩
def MO_Aa_STAT_SAT : BitField := ⟨8, 8⟩
def MO_Aa_STAT_LIM_HI : BitField := ⟨7, 7⟩
def MO_Aa_STAT_LIM_LO : BitField := ⟨6, 6⟩
def MO_Aa_STAT_QUEUED : BitField := ⟨5, 5⟩
def MO_Aa_STAT_LOST : BitField := ⟨4, 4⟩
def MO_Aa_STAT_HOMED : BitField := ⟨3, 3⟩
def MO_Aa_STAT_STATE : BitField := ⟨2, 0⟩
def MO_Aa_ELEC_KE : BitField := ⟨31, 16⟩
def MO_Aa_ELEC_R_COIL : BitField := ⟨15, 0⟩
def MO_Aa_CUR_HOLD_MS : BitField := ⟨31, 24⟩
def MO_Aa_CUR_I_HOLD : BitField := ⟨23, 12⟩
def MO_Aa_CUR_I_RUN : BitField := ⟨11, 0⟩
def MO_Aa_HOME_HOME_DIR : BitField := ⟨31, 31⟩
def MO_Aa_HOME_HOME_V : BitField := ⟨20, 0⟩
def MO_Aa_HOME_LIM_BACKOFF : BitField := ⟨31, 16⟩
def MO_Aa_HOME_LIM_HOME_MAX : BitField := ⟨15, 0⟩
def MO_Aa_STALL_STALL_N : BitField := ⟨31, 24⟩
def MO_Aa_STALL_STALL_PCT : BitField := ⟨23, 16⟩
def MO_Aa_STALL_STALL_VMIN : BitField := ⟨15, 0⟩
def MO_Aa_LIM_LIM_DB : BitField := ⟨7, 0⟩
def MO_CMPm_TARGET_TARGET : BitField := ⟨31, 0⟩
def MO_CMPm_CTRL_ARMED : BitField := ⟨13, 13⟩
def MO_CMPm_CTRL_BEHIND : BitField := ⟨12, 12⟩
def MO_CMPm_CTRL_FIRED : BitField := ⟨11, 11⟩
def MO_CMPm_CTRL_TAXIS : BitField := ⟨10, 9⟩
def MO_CMPm_CTRL_ACTION : BitField := ⟨8, 6⟩
def MO_CMPm_CTRL_DIR : BitField := ⟨3, 2⟩
def MO_CMPm_CTRL_ARM : BitField := ⟨0, 0⟩
/-! spec/13_memory_fabric.md -/
def MF_STAT_PARK_FULL : BitField := ⟨3, 3⟩
def MF_STAT_REFUSED : BitField := ⟨2, 2⟩
def MF_STAT_STARVE : BitField := ⟨1, 1⟩
def MF_STAT_CYCLE : BitField := ⟨0, 0⟩
def MF_SET_PENDING : BitField := ⟨8, 8⟩
def MF_SET_SET : BitField := ⟨0, 0⟩
def MF_PARK_T_CYCLES : BitField := ⟨15, 0⟩
def MF_WFW_LIMIT : BitField := ⟨31, 0⟩
def MF_WFW_STAT_KIND : BitField := ⟨12, 12⟩
def MF_WFW_STAT_ARB : BitField := ⟨11, 8⟩
def MF_WFW_STAT_REQ : BitField := ⟨3, 0⟩
def MF_REFUSE_WHY : BitField := ⟨9, 8⟩
def MF_REFUSE_REQ : BitField := ⟨3, 0⟩
def MF_CNT_SEL_ARB : BitField := ⟨11, 8⟩
def MF_CNT_SEL_REQ : BitField := ⟨3, 0⟩
def MF_CNT_GRANT_COUNT : BitField := ⟨31, 0⟩
def MF_CNT_WAIT_COUNT : BitField := ⟨31, 0⟩
def MF_CNT_MAXWAIT_COUNT : BitField := ⟨31, 0⟩
def MF_CNT_REVOKE_IMPOSED : BitField := ⟨31, 16⟩
def MF_CNT_REVOKE_REVOKED : BitField := ⟨15, 0⟩
def MF_CNT_HINT_TURN_HINT : BitField := ⟨15, 0⟩
def MF_ARBa_STAT_STALE : BitField := ⟨31, 16⟩
def MF_ARBa_STAT_FLOOR_NEXT : BitField := ⟨15, 12⟩
def MF_ARBa_STAT_PARKED : BitField := ⟨11, 8⟩
def MF_ARBa_STAT_CAMW_PANIC : BitField := ⟨1, 1⟩
def MF_ARBa_STAT_HSTR_PANIC : BitField := ⟨0, 0⟩
def DC_CFG_RATE : BitField := ⟨26, 24⟩
def DC_CFG_DBI : BitField := ⟨20, 20⟩
def DC_CFG_RANK1 : BitField := ⟨16, 16⟩
def DC_CFG_SIZE : BitField := ⟨7, 0⟩
def DC_STAT_TRAIN_FAIL : BitField := ⟨3, 3⟩
def DC_STAT_DRIFT : BitField := ⟨2, 2⟩
def DC_STAT_HOT : BitField := ⟨1, 1⟩
def DC_STAT_REFRESH_FORCED : BitField := ⟨0, 0⟩
def DC_TRACK_CFG_DRIFT_LIM : BitField := ⟨31, 16⟩
def DC_TRACK_CFG_INTERVAL : BitField := ⟨15, 0⟩
def DC_CHc_TRAIN_VREF_DQ : BitField := ⟨21, 16⟩
def DC_CHc_TRAIN_RETRIES : BitField := ⟨9, 8⟩
def DC_CHc_TRAIN_PASS : BitField := ⟨4, 0⟩
def DC_CHc_TRACK_SHIFT : BitField := ⟨31, 16⟩
def DC_CHc_TRACK_OSC : BitField := ⟨15, 0⟩
def DC_CHc_REF_FORCED : BitField := ⟨31, 16⟩
def DC_CHc_REF_MAXPOST : BitField := ⟨15, 12⟩
def DC_CHc_REF_POSTPONED : BitField := ⟨11, 8⟩
def DC_CHc_REF_MR4_RATE : BitField := ⟨2, 0⟩
def DC_CHc_WQ_HIGH : BitField := ⟨31, 24⟩
def DC_CHc_WQ_LOW : BitField := ⟨23, 16⟩
def DC_CHc_WQ_FILL : BitField := ⟨6, 0⟩
def DC_CHc_PAGE_MISS : BitField := ⟨31, 16⟩
def DC_CHc_PAGE_HIT : BitField := ⟨15, 0⟩
def DC_CHc_FWD_COUNT : BitField := ⟨31, 0⟩
def DC_CHc_QSTALL_COUNT : BitField := ⟨31, 0⟩
/-! spec/14_host_link.md -/
def HL_CFG_AUTH_REQ : BitField := ⟨31, 31⟩
def HL_CFG_DOWN1_W : BitField := ⟨27, 26⟩
def HL_CFG_DOWN0_W : BitField := ⟨25, 24⟩
def HL_CFG_UP_W : BitField := ⟨23, 22⟩
def HL_CFG_UP_MAX : BitField := ⟨19, 18⟩
def HL_CFG_DOWN_MAX : BitField := ⟨17, 16⟩
def HL_CTRL_ENUM : BitField := ⟨4, 4⟩
def HL_CTRL_RETRAIN : BitField := ⟨2, 0⟩
def HL_STAT_ENUM_DONE : BitField := ⟨11, 11⟩
def HL_STAT_CFG_REFUSED : BitField := ⟨10, 10⟩
def HL_STAT_MSPI_ERR : BitField := ⟨9, 9⟩
def HL_STAT_NOROUTE : BitField := ⟨8, 8⟩
def HL_STAT_DMA_REFUSED : BitField := ⟨7, 7⟩
def HL_STAT_LINK_AUTH : BitField := ⟨6, 6⟩
def HL_STAT_ENUM_FAIL : BitField := ⟨5, 5⟩
def HL_STAT_POS_JUMP : BitField := ⟨4, 4⟩
def HL_STAT_POS_LOST : BitField := ⟨3, 3⟩
def HL_STAT_LINK_NARROW : BitField := ⟨2, 2⟩
def HL_STAT_LINK_RETRAIN : BitField := ⟨1, 1⟩
def HL_STAT_LINK_DOWN : BitField := ⟨0, 0⟩
def HL_INDEX_VALID : BitField := ⟨31, 31⟩
def HL_INDEX_SUMMIT : BitField := ⟨30, 30⟩
def HL_INDEX_ENUM_ERR : BitField := ⟨29, 26⟩
def HL_INDEX_DEPTH : BitField := ⟨21, 17⟩
def HL_INDEX_SIZE : BitField := ⟨16, 8⟩
def HL_INDEX_INDEX : BitField := ⟨7, 0⟩
def HL_ROUTE0_VALID : BitField := ⟨31, 31⟩
def HL_ROUTE0_HI : BitField := ⟨15, 8⟩
def HL_ROUTE0_LO : BitField := ⟨7, 0⟩
def HL_ROUTE1_VALID : BitField := ⟨31, 31⟩
def HL_ROUTE1_HI : BitField := ⟨15, 8⟩
def HL_ROUTE1_LO : BitField := ⟨7, 0⟩
def HL_POS_CFG_EN : BitField := ⟨31, 31⟩
def HL_POS_CFG_TMO : BitField := ⟨23, 16⟩
def HL_POS_CFG_PERIOD_NS : BitField := ⟨15, 0⟩
def HL_POS_STAT_AGE : BitField := ⟨31, 16⟩
def HL_POS_STAT_CORR : BitField := ⟨15, 0⟩
def HL_MSPI_CFG_RO : BitField := ⟨0, 0⟩
def HL_MSPI_ERR_CRC : BitField := ⟨31, 16⟩
def HL_MSPI_ERR_ABORT : BitField := ⟨15, 0⟩
def HL_AUTH_SEQ_LO_SEQ : BitField := ⟨31, 0⟩
def HL_AUTH_SEQ_HI_SEQ : BitField := ⟨31, 0⟩
def HL_DMA_ERR_COUNT : BitField := ⟨31, 0⟩
def HL_Gg_STAT_LOCKED : BitField := ⟨19, 16⟩
def HL_Gg_STAT_PARTNER : BitField := ⟨13, 12⟩
def HL_Gg_STAT_WIDTH : BitField := ⟨9, 8⟩
def HL_Gg_STAT_SPEED : BitField := ⟨5, 4⟩
def HL_Gg_STAT_STATE : BitField := ⟨2, 0⟩
def HL_Gg_LAT_ADJ : BitField := ⟨31, 16⟩
def HL_Gg_LAT_LAT : BitField := ⟨15, 0⟩
def HL_Gg_LINK_RETRAIN : BitField := ⟨31, 16⟩
def HL_Gg_LINK_DOWN : BitField := ⟨15, 0⟩
def HL_Gg_PKT_CRC_ERR : BitField := ⟨31, 16⟩
def HL_Gg_PKT_REPLAY : BitField := ⟨15, 0⟩
def HL_Gg_FLOW_TX_CREDIT : BitField := ⟨31, 16⟩
def HL_Gg_FLOW_RX_FILL : BitField := ⟨15, 0⟩
def HL_Gg_POSDROP_COUNT : BitField := ⟨31, 0⟩
def HL_Lk_STAT_SKEW : BitField := ⟨20, 16⟩
def HL_Lk_STAT_GROUP : BitField := ⟨7, 6⟩
def HL_Lk_STAT_AM_LOCK : BitField := ⟨4, 4⟩
def HL_Lk_STAT_BLOCK_LOCK : BitField := ⟨3, 3⟩
def HL_Lk_STAT_CDR_LOCK : BitField := ⟨2, 2⟩
def HL_Lk_STAT_LOL : BitField := ⟨1, 1⟩
def HL_Lk_STAT_LOS : BitField := ⟨0, 0⟩
def HL_Lk_ERR_SYNC_ERR : BitField := ⟨31, 16⟩
def HL_Lk_ERR_AM_ERR : BitField := ⟨15, 0⟩
def HL_Lk_FFEs_PRE : BitField := ⟨21, 16⟩
def HL_Lk_FFEs_MAIN : BitField := ⟨13, 8⟩
def HL_Lk_FFEs_POST : BitField := ⟨5, 0⟩
/-! spec/15_time_network.md -/
def TN_CFG_TSRC : BitField := ⟨0, 0⟩
def TN_CTRL_RX_KICK : BitField := ⟨2, 2⟩
def TN_CTRL_TX_KICK : BitField := ⟨1, 1⟩
def TN_CTRL_SET : BitField := ⟨0, 0⟩
def TN_STAT_B_HEALTHY : BitField := ⟨11, 11⟩
def TN_STAT_A_HEALTHY : BitField := ⟨10, 10⟩
def TN_STAT_DOM : BitField := ⟨9, 8⟩
def TN_STAT_CFG_REFUSED : BitField := ⟨7, 7⟩
def TN_STAT_TS_LOST : BitField := ⟨6, 6⟩
def TN_STAT_PRP_WRONG_LAN : BitField := ⟨5, 5⟩
def TN_STAT_ETH_LINK : BitField := ⟨4, 4⟩
def TN_STAT_SERVO_LIMIT : BitField := ⟨3, 3⟩
def TN_STAT_TIME_STEP : BitField := ⟨2, 2⟩
def TN_STAT_HOLDOVER : BitField := ⟨1, 1⟩
def TN_STAT_SWITCH : BitField := ⟨0, 0⟩
def TN_TIME_SEC_LO_VALUE : BitField := ⟨31, 0⟩
def TN_TIME_SEC_HI_VALUE : BitField := ⟨31, 0⟩
def TN_TIME_NS_VALUE : BitField := ⟨31, 0⟩
def TN_TIME_FRAC_VALUE : BitField := ⟨31, 0⟩
def TN_SET_SEC_LO_VALUE : BitField := ⟨31, 0⟩
def TN_SET_SEC_HI_VALUE : BitField := ⟨31, 0⟩
def TN_SET_NS_VALUE : BitField := ⟨31, 0⟩
def TN_ADDEND0_VALUE : BitField := ⟨31, 0⟩
def TN_ADDEND_VALUE : BitField := ⟨31, 0⟩
def TN_SERVO_GAIN_KI : BitField := ⟨31, 16⟩
def TN_SERVO_GAIN_KP : BitField := ⟨15, 0⟩
def TN_SERVO_CFG_STEP_EN : BitField := ⟨31, 31⟩
def TN_SERVO_CFG_MAX_PPB : BitField := ⟨19, 0⟩
def TN_STEP_T_NS : BitField := ⟨31, 0⟩
def TN_OFS_A_OFS : BitField := ⟨31, 1⟩
def TN_OFS_A_QUAL : BitField := ⟨0, 0⟩
def TN_OFS_B_OFS : BitField := ⟨31, 1⟩
def TN_OFS_B_QUAL : BitField := ⟨0, 0⟩
def TN_DOMAIN_CFG_SLEW : BitField := ⟨29, 16⟩
def TN_DOMAIN_CFG_HEALTH_TMO : BitField := ⟨15, 0⟩
def TN_BIAS_VALUE : BitField := ⟨31, 0⟩
def TN_DIFF_VALUE : BitField := ⟨31, 0⟩
def TN_REVERT_MS : BitField := ⟨31, 0⟩
def TN_CAP_VALID : BitField := ⟨31, 31⟩
def TN_CAP_LOST : BitField := ⟨23, 8⟩
def TN_CAP_SRC : BitField := ⟨7, 0⟩
def TN_CAP_TS0_BYTES : BitField := ⟨31, 0⟩
def TN_CAP_TS1_BYTES : BitField := ⟨31, 0⟩
def TN_CAP_TS2_BYTES : BitField := ⟨31, 0⟩
def TN_CAP_CFG_TICK_DIV : BitField := ⟨15, 0⟩
def TN_TICK_TS0_BYTES : BitField := ⟨31, 0⟩
def TN_TICK_TS1_BYTES : BitField := ⟨31, 0⟩
def TN_TICK_TS2_BYTES : BitField := ⟨31, 0⟩
def TN_MAC_LO_ADDR : BitField := ⟨31, 0⟩
def TN_MAC_HI_ADDR : BitField := ⟨15, 0⟩
def TN_TXRING_COUNT : BitField := ⟨25, 16⟩
def TN_TXRING_ADDR64K : BitField := ⟨15, 0⟩
def TN_RXRING_COUNT : BitField := ⟨25, 16⟩
def TN_RXRING_ADDR64K : BitField := ⟨15, 0⟩
def TN_PRP_CFG_RX_DROP : BitField := ⟨31, 16⟩
def TN_PRP_CFG_LIFE_MS : BitField := ⟨15, 0⟩
def TN_Pk_CFG_AN_EN : BitField := ⟨1, 1⟩
def TN_Pk_CFG_EN : BitField := ⟨0, 0⟩
def TN_Pk_LAT_EGR : BitField := ⟨31, 16⟩
def TN_Pk_LAT_ING : BitField := ⟨15, 0⟩
def TN_Pk_ASYM_ASYM : BitField := ⟨31, 0⟩
def TN_Pk_STAT_LINK_LOST : BitField := ⟨2, 2⟩
def TN_Pk_STAT_AN_DONE : BitField := ⟨1, 1⟩
def TN_Pk_STAT_LINK : BitField := ⟨0, 0⟩
def TN_Pk_PRP_DUP : BitField := ⟨31, 16⟩
def TN_Pk_PRP_WRONG_LAN : BitField := ⟨15, 0⟩
def TN_Pk_TXTS_VALID : BitField := ⟨31, 31⟩
def TN_Pk_TXTS_TAG : BitField := ⟨15, 0⟩
def TN_Pk_TXTS0_BYTES : BitField := ⟨31, 0⟩
def TN_Pk_TXTS1_BYTES : BitField := ⟨31, 0⟩
def TN_Pk_TXTS2_BYTES : BitField := ⟨31, 0⟩
/-! spec/16_audit_security.md -/
def AU_STAT_KEYS_MISSING : BitField := ⟨8, 8⟩
def AU_STAT_KEYSTORE_EXH : BitField := ⟨7, 7⟩
def AU_STAT_FLASH_ERR : BitField := ⟨6, 6⟩
def AU_STAT_RING_FULL : BitField := ⟨5, 5⟩
def AU_STAT_RING_WARN : BitField := ⟨4, 4⟩
def AU_STAT_ZEROIZED : BitField := ⟨3, 3⟩
def AU_STAT_TAMPER : BitField := ⟨2, 2⟩
def AU_STAT_WIT_LOST : BitField := ⟨1, 1⟩
def AU_STAT_WIT_MISMATCH : BitField := ⟨0, 0⟩
def AU_CHIP_ID_LO_ID : BitField := ⟨31, 0⟩
def AU_CHIP_ID_HI_ID : BitField := ⟨31, 0⟩
def AU_SEQ_LO_SEQ : BitField := ⟨31, 0⟩
def AU_SEQ_HI_SEQ : BitField := ⟨31, 0⟩
def AU_SUMMIT_SEQ_SEQ : BitField := ⟨31, 0⟩
def AU_OPEN_MAX : BitField := ⟨31, 16⟩
def AU_OPEN_USED : BitField := ⟨15, 0⟩
def AU_CTRL_CONFIRM : BitField := ⟨15, 8⟩
def AU_CTRL_REPLAY : BitField := ⟨2, 2⟩
def AU_CTRL_ATTEST : BitField := ⟨1, 1⟩
def AU_CTRL_ZEROIZE : BitField := ⟨0, 0⟩
def AU_ATT_ADDR_VALUE : BitField := ⟨31, 0⟩
def AU_REPLAY_SEQ_LO_VALUE : BitField := ⟨31, 0⟩
def AU_REPLAY_SEQ_HI_VALUE : BitField := ⟨31, 0⟩
def AU_PUB_CTR_CTR : BitField := ⟨31, 0⟩
def AU_KEY_CMD_SLOT : BitField := ⟨11, 8⟩
def AU_KEY_CMD_OP : BitField := ⟨2, 0⟩
def AU_KEY_ARG_ADDR64 : BitField := ⟨31, 0⟩
def AU_KEY_STAT_ERR : BitField := ⟨23, 20⟩
def AU_KEY_STAT_DONE : BitField := ⟨17, 17⟩
def AU_KEY_STAT_BUSY : BitField := ⟨16, 16⟩
def AU_KEY_STAT_FILLED : BitField := ⟨15, 0⟩
def AU_KEY_GEN_ZGEN : BitField := ⟨6, 0⟩
def AU_TAMPER_CFG_POL : BitField := ⟨7, 4⟩
def AU_TAMPER_CFG_EN : BitField := ⟨3, 0⟩
def AU_TAMPER_STAT_LEVEL : BitField := ⟨7, 4⟩
def AU_TAMPER_STAT_HIT : BitField := ⟨3, 0⟩
def AU_TAMPER_CNT_COUNT : BitField := ⟨31, 0⟩
def AU_TAMPER_FILT_FILT3 : BitField := ⟨31, 24⟩
def AU_TAMPER_FILT_FILT2 : BitField := ⟨23, 16⟩
def AU_TAMPER_FILT_FILT1 : BitField := ⟨15, 8⟩
def AU_TAMPER_FILT_FILT0 : BitField := ⟨7, 0⟩
def AU_RING_CFG_WARN_PCT : BitField := ⟨6, 0⟩
def AU_RING_ACK_LO_SEQ : BitField := ⟨31, 0⟩
def AU_RING_ACK_HI_SEQ : BitField := ⟨31, 0⟩
def AU_RING_STAT_HELD : BitField := ⟨7, 7⟩
def AU_RING_STAT_FILL_PCT : BitField := ⟨6, 0⟩
def AU_NET_CFG_UP_EN : BitField := ⟨1, 1⟩
def AU_NET_CFG_ETH_EN : BitField := ⟨0, 0⟩
def AU_NET_DST_LO_VALUE : BitField := ⟨31, 0⟩
def AU_NET_DST_HI_VALUE : BitField := ⟨15, 0⟩
def AU_WIT_CFG_PARTNER : BitField := ⟨31, 24⟩
def AU_WIT_CFG_WIT_TMO : BitField := ⟨23, 12⟩
def AU_WIT_CFG_WIT_LOSS : BitField := ⟨11, 4⟩
def AU_WIT_CFG_ROLE : BitField := ⟨1, 0⟩
def AU_WIT_LINE_LINE : BitField := ⟨31, 0⟩
def AU_WIT_MISMATCH_LINE : BitField := ⟨31, 0⟩
/-! spec/17_compression.md -/
def CZ_STAT_CZ_ERR : BitField := ⟨1, 1⟩
def CZ_STAT_DCMP_ERR : BitField := ⟨0, 0⟩
def CZ_Dd_CTRL_ABORT : BitField := ⟨1, 1⟩
def CZ_Dd_CTRL_START : BitField := ⟨0, 0⟩
def CZ_Dd_SRC_ADDR64 : BitField := ⟨31, 0⟩
def CZ_Dd_DST_ADDR64 : BitField := ⟨31, 0⟩
def CZ_Dd_FIRST_VALUE : BitField := ⟨16, 0⟩
def CZ_Dd_COUNT_VALUE : BitField := ⟨16, 0⟩
def CZ_Dd_LIMIT_OUT_LIMIT : BitField := ⟨16, 0⟩
def CZ_Dd_STAT_ERR : BitField := ⟨7, 4⟩
def CZ_Dd_STAT_DONE : BitField := ⟨1, 1⟩
def CZ_Dd_STAT_BUSY : BitField := ⟨0, 0⟩
def CZ_Dd_BLOCK_BLOCK : BitField := ⟨16, 0⟩
def CZ_C_CTRL_ABORT : BitField := ⟨1, 1⟩
def CZ_C_CTRL_START : BitField := ⟨0, 0⟩
def CZ_C_SRC_VALUE : BitField := ⟨31, 0⟩
def CZ_C_LEN_VALUE : BitField := ⟨31, 0⟩
def CZ_C_DESC_VALUE : BitField := ⟨31, 0⟩
def CZ_C_CFG_LEVEL : BitField := ⟨1, 0⟩
def CZ_C_STAT_ERR : BitField := ⟨7, 4⟩
def CZ_C_STAT_SOURCE : BitField := ⟨2, 2⟩
def CZ_C_STAT_DONE : BitField := ⟨1, 1⟩
def CZ_C_STAT_BUSY : BitField := ⟨0, 0⟩
def CZ_C_OUT_BYTES : BitField := ⟨31, 0⟩
/-! spec/18_boot_update.md -/
def SYS_MODE_REQ_MODE : BitField := ⟨2, 0⟩
def SYS_MODE_STAT_HOLD_CAUSE : BitField := ⟨18, 16⟩
def SYS_MODE_STAT_TIMEOUT : BitField := ⟨13, 13⟩
def SYS_MODE_STAT_REFUSED : BitField := ⟨12, 12⟩
def SYS_MODE_STAT_REFUSE : BitField := ⟨11, 8⟩
def SYS_MODE_STAT_BUSY : BitField := ⟨7, 7⟩
def SYS_MODE_STAT_TARGET : BitField := ⟨6, 4⟩
def SYS_MODE_STAT_MODE : BitField := ⟨2, 0⟩
def SYS_MODE_TMO_MS : BitField := ⟨31, 0⟩
def BU_BOOT_STAT_ERR : BitField := ⟨19, 16⟩
def BU_BOOT_STAT_TRIES : BitField := ⟨13, 12⟩
def BU_BOOT_STAT_PHASE : BitField := ⟨10, 8⟩
def BU_BOOT_STAT_FALLBACK : BitField := ⟨6, 6⟩
def BU_BOOT_STAT_SLOT : BitField := ⟨5, 4⟩
def BU_BOOT_STAT_STATE : BitField := ⟨3, 0⟩
def BU_CTRL_CONFIRM : BitField := ⟨0, 0⟩
def BU_CONFIRM_TMO_S : BitField := ⟨15, 0⟩
def BU_SVN_VALUE : BitField := ⟨31, 0⟩
def BU_SVN_FLOOR_VALUE : BitField := ⟨31, 0⟩
def BU_FW_VER_VALUE : BitField := ⟨31, 0⟩
def BU_FW_MEASi_BYTES : BitField := ⟨31, 0⟩
def BU_UP_CTRL_DISCARD : BitField := ⟨3, 3⟩
def BU_UP_CTRL_DISARM : BitField := ⟨2, 2⟩
def BU_UP_CTRL_ARM : BitField := ⟨1, 1⟩
def BU_UP_CTRL_SUBMIT : BitField := ⟨0, 0⟩
def BU_UP_STAT_DONE : BitField := ⟨9, 9⟩
def BU_UP_STAT_BUSY : BitField := ⟨8, 8⟩
def BU_UP_STAT_ERR : BitField := ⟨7, 4⟩
def BU_UP_STAT_STATE : BitField := ⟨2, 0⟩
def BU_UP_PROG_DUP : BitField := ⟨31, 16⟩
def BU_UP_PROG_MISSING : BitField := ⟨12, 0⟩
def BU_UP_ID_LO_ID : BitField := ⟨31, 0⟩
def BU_UP_ID_HI_ID : BitField := ⟨31, 0⟩
def BU_SET_CTRL_COMMIT : BitField := ⟨1, 1⟩
def BU_SET_CTRL_READ : BitField := ⟨0, 0⟩
def BU_SET_ADDR_VALUE : BitField := ⟨31, 0⟩
def BU_SET_LEN_VALUE : BitField := ⟨31, 0⟩
def BU_SET_STAT_ERR : BitField := ⟨31, 28⟩
def BU_SET_STAT_DONE : BitField := ⟨20, 20⟩
def BU_SET_STAT_BUSY : BitField := ⟨19, 19⟩
def BU_SET_STAT_COPY : BitField := ⟨18, 18⟩
def BU_SET_STAT_NONE : BitField := ⟨17, 17⟩
def BU_SET_STAT_MIGRATE : BitField := ⟨16, 16⟩
def BU_SET_STAT_SVER : BitField := ⟨15, 0⟩
def BU_SET_VER_SETTINGS_VER : BitField := ⟨15, 0⟩
def BU_UP_BUFi_BYTES : BitField := ⟨31, 0⟩
/-! spec/19_faults_crossings.md -/
def FL_STAT_CSR : BitField := ⟨8, 8⟩
def FL_STAT_CHIP_SERVICE : BitField := ⟨7, 7⟩
def FL_STAT_GATE_CHATTER : BitField := ⟨6, 6⟩
def FL_STAT_HLREF_LOSS : BitField := ⟨5, 5⟩
def FL_STAT_CLOCK_LOSS : BitField := ⟨4, 4⟩
def FL_STAT_XING_RESET : BitField := ⟨3, 3⟩
def FL_STAT_RELAY_OVERRUN : BitField := ⟨2, 2⟩
def FL_STAT_FABRIC_TIMEOUT : BitField := ⟨1, 1⟩
def FL_STAT_ERRQ_OVERFLOW : BitField := ⟨0, 0⟩
def FL_CFG_CASCADE_HOLD : BitField := ⟨8, 8⟩
def FL_CFG_GCH_N : BitField := ⟨7, 0⟩
def FL_CTRL_CSR_CLEAR : BitField := ⟨1, 1⟩
def FL_CTRL_OVF_CLEAR : BitField := ⟨0, 0⟩
def FL_CSR_CLOCK : BitField := ⟨3, 3⟩
def FL_CSR_KEYSTORE : BitField := ⟨2, 2⟩
def FL_CSR_FALLBACK : BitField := ⟨1, 1⟩
def FL_CSR_EVENT : BitField := ⟨0, 0⟩
def FL_HRR_LO_PORTS : BitField := ⟨31, 0⟩
def FL_HRR_HI_PORTS : BitField := ⟨31, 0⟩
def FL_EQ_STAT_HEAD_SEQ : BitField := ⟨31, 16⟩
def FL_EQ_STAT_ACK_STALE : BitField := ⟨10, 10⟩
def FL_EQ_STAT_PREEMPT : BitField := ⟨9, 9⟩
def FL_EQ_STAT_OVERFLOW : BitField := ⟨8, 8⟩
def FL_EQ_STAT_USED : BitField := ⟨5, 0⟩
def FL_EQ_SEL_INDEX : BitField := ⟨4, 0⟩
def FL_EQ_ID_SEQ : BitField := ⟨31, 16⟩
def FL_EQ_ID_EVENT_ID : BitField := ⟨15, 0⟩
def FL_EQ_INFO_REPEAT : BitField := ⟨15, 8⟩
def FL_EQ_INFO_CHIP : BitField := ⟨7, 7⟩
def FL_EQ_INFO_IRQ : BitField := ⟨6, 5⟩
def FL_EQ_INFO_IRQ_VALID : BitField := ⟨4, 4⟩
def FL_EQ_INFO_CLASS : BitField := ⟨2, 0⟩
def FL_EQ_UNIT_VALUE : BitField := ⟨31, 0⟩
def FL_EQ_DETAIL_VALUE : BitField := ⟨31, 0⟩
def FL_EQ_TS0_BYTES : BitField := ⟨31, 0⟩
def FL_EQ_TS1_BYTES : BitField := ⟨31, 0⟩
def FL_EQ_TS2_BYTES : BitField := ⟨31, 0⟩
def FL_EQ_ACK_SEQ : BitField := ⟨15, 0⟩
def FL_LOST_ERRQ_LOST : BitField := ⟨31, 16⟩
def FL_LOST_SOURCE : BitField := ⟨15, 0⟩
def FL_IRQm_STAT_EVENT : BitField := ⟨3, 3⟩
def FL_IRQm_STAT_OVF : BitField := ⟨2, 2⟩
def FL_IRQm_STAT_PREEMPT : BitField := ⟨1, 1⟩
def FL_IRQm_STAT_QNE : BitField := ⟨0, 0⟩
def FL_IRQm_MASK_MASK : BitField := ⟨3, 0⟩
def FL_IRQ_CFG_PREEMPT_LINE : BitField := ⟨5, 4⟩
def FL_IRQ_CFG_QNE_LINE : BitField := ⟨1, 0⟩
def FL_EVCNT_SEL_SEL : BitField := ⟨15, 0⟩
def FL_EVCNT_VALUE : BitField := ⟨31, 0⟩
def FL_WDOG_CYC_VALUE : BitField := ⟨31, 0⟩
def FL_WDOG_ADDR_VALUE : BitField := ⟨31, 0⟩
def FL_WDOG_CNT_VALUE : BitField := ⟨31, 0⟩
def FL_XING_CNT_OVERRUN : BitField := ⟨31, 16⟩
def FL_XING_CNT_RESET : BitField := ⟨15, 0⟩
def FL_XING_SRC_RESET_BLK : BitField := ⟨15, 8⟩
def FL_XING_SRC_OVERRUN_BLK : BitField := ⟨7, 0⟩
def FL_CLKMON_LAST_SRC : BitField := ⟨18, 16⟩
def FL_CLKMON_HLREF_OK : BitField := ⟨6, 6⟩
def FL_CLKMON_REF_OK : BitField := ⟨5, 5⟩
def FL_CLKMON_ON_OSC : BitField := ⟨4, 4⟩
def FL_CLKMON_PLL_LOCK : BitField := ⟨3, 0⟩
def FL_GATE_MON_CHATTER : BitField := ⟨8, 0⟩
/-! spec/20_sense_calibration.md -/
def AN_CTRL_MZERO : BitField := ⟨9, 9⟩
def AN_CTRL_CAL_START : BitField := ⟨8, 8⟩
def AN_CTRL_CH : BitField := ⟨4, 0⟩
def AN_STAT_REJECT : BitField := ⟨31, 28⟩
def AN_STAT_STEP : BitField := ⟨27, 24⟩
def AN_STAT_CAL_CH : BitField := ⟨20, 16⟩
def AN_STAT_PD_BRIGHT : BitField := ⟨5, 5⟩
def AN_STAT_PD_DARK : BitField := ⟨4, 4⟩
def AN_STAT_VH_FAULT : BitField := ⟨3, 3⟩
def AN_STAT_CAL_REJECT : BitField := ⟨2, 2⟩
def AN_STAT_CFG_REFUSED : BitField := ⟨1, 1⟩
def AN_STAT_BUSY : BitField := ⟨0, 0⟩
def AN_CFG_CAL_INT : BitField := ⟨31, 16⟩
def AN_CFG_GUARD : BitField := ⟨15, 8⟩
def AN_CFG_NCAL_SH : BitField := ⟨7, 4⟩
def AN_CFG_QUIET : BitField := ⟨0, 0⟩
def AN_CAL_LIM_GAIN_LIM : BitField := ⟨31, 24⟩
def AN_CAL_LIM_NOISE_LIM : BitField := ⟨23, 16⟩
def AN_CAL_LIM_ZERO_LIM : BitField := ⟨15, 0⟩
def AN_XCHK_XCHK_MV : BitField := ⟨15, 0⟩
def AN_VREF_VREF_UV : BitField := ⟨20, 0⟩
def AN_CNT_LOADED : BitField := ⟨31, 16⟩
def AN_CNT_CAL_DONE : BitField := ⟨15, 0⟩
def AN_PD_CFG_AUTO_THR : BitField := ⟨31, 31⟩
def AN_PD_CFG_LO_PCT : BitField := ⟨30, 24⟩
def AN_PD_CFG_HI_PCT : BitField := ⟨23, 16⟩
def AN_PD_CFG_PD_MIN : BitField := ⟨9, 0⟩
def AN_PD0_THR_HI : BitField := ⟨25, 16⟩
def AN_PD0_THR_LO : BitField := ⟨9, 0⟩
def AN_PD1_THR_HI : BitField := ⟨25, 16⟩
def AN_PD1_THR_LO : BitField := ⟨9, 0⟩
def AN_PD0_LVL_CLEAR : BitField := ⟨25, 16⟩
def AN_PD0_LVL_LEVEL : BitField := ⟨9, 0⟩
def AN_PD1_LVL_CLEAR : BitField := ⟨25, 16⟩
def AN_PD1_LVL_LEVEL : BitField := ⟨9, 0⟩
def AN_MOFFi_MOFF : BitField := ⟨11, 0⟩
def AN_CHk_DIV_DIV : BitField := ⟨31, 0⟩
def AN_CHk_GCAL_CALOK : BitField := ⟨31, 31⟩
def AN_CHk_GCAL_GCAL : BitField := ⟨23, 0⟩
def AN_CHk_VAL_MV : BitField := ⟨31, 16⟩
def AN_CHk_VAL_SRC : BitField := ⟨15, 15⟩
def AN_CHk_VAL_LOADED : BitField := ⟨14, 14⟩
def AN_CHk_RAW_RAW : BitField := ⟨31, 16⟩
def AN_CHk_RAW_OFF : BitField := ⟨15, 0⟩
def AN_CHk_LIM_HI : BitField := ⟨31, 16⟩
def AN_CHk_LIM_LO : BitField := ⟨15, 0⟩
/-! spec/21_address_map.md -/
def SYS_ID_PART : BitField := ⟨31, 16⟩
def SYS_ID_STEPPING : BitField := ⟨7, 0⟩
def SYS_CAP_SRAM_MIB : BitField := ⟨31, 24⟩
def SYS_CAP_DRAM_CH : BitField := ⟨23, 20⟩
def SYS_CAP_LANES : BitField := ⟨19, 16⟩
def SYS_CAP_PORTS : BitField := ⟨15, 8⟩
def SYS_CAP_CSI : BitField := ⟨7, 6⟩
def SYS_CAP_ETH : BitField := ⟨5, 4⟩
def SYS_CAP_AXES : BitField := ⟨3, 1⟩
def SYS_CAP_WITNESS : BitField := ⟨0, 0⟩
def SYS_RST_KEY : BitField := ⟨15, 8⟩
def SYS_RST_COLD : BitField := ⟨1, 1⟩
def SYS_RST_WARM : BitField := ⟨0, 0⟩
def SYS_RST_STAT_CAUSE : BitField := ⟨2, 0⟩
def SYS_BUS_ERR_VALUE : BitField := ⟨31, 0⟩
def SYS_BUS_MST_VALUE : BitField := ⟨31, 0⟩
def SYS_SWI_CORE : BitField := ⟨4, 0⟩
def SYS_COREc_IEN_EN : BitField := ⟨7, 0⟩
def SYS_COREc_IPEND_SWI : BitField := ⟨7, 7⟩
def SYS_COREc_IPEND_KEYOP : BitField := ⟨6, 6⟩
def SYS_COREc_IPEND_NET : BitField := ⟨5, 5⟩
def SYS_COREc_IPEND_ENGINE : BitField := ⟨4, 4⟩
def SYS_COREc_IPEND_UTCMD : BitField := ⟨3, 3⟩
def SYS_COREc_IPEND_FL : BitField := ⟨2, 0⟩
/-! spec/23_test_loopbacks.md -/
def TS_CTRL_SELFTEST : BitField := ⟨2, 2⟩
def TS_CTRL_STOP : BitField := ⟨1, 1⟩
def TS_CTRL_START : BitField := ⟨0, 0⟩
def TS_CFG_PAT : BitField := ⟨17, 16⟩
def TS_CFG_INST : BitField := ⟨13, 8⟩
def TS_CFG_DEPTH : BitField := ⟨5, 4⟩
def TS_CFG_IF : BitField := ⟨3, 0⟩
def TS_DUR_VALUE : BitField := ⟨31, 0⟩
def TS_WORD_VALUE : BitField := ⟨31, 0⟩
def TS_CAM_CRC_VALUE : BitField := ⟨31, 0⟩
def TS_STAT_ERR : BitField := ⟨11, 8⟩
def TS_STAT_PASS : BitField := ⟨3, 3⟩
def TS_STAT_LOCK : BitField := ⟨2, 2⟩
def TS_STAT_DONE : BitField := ⟨1, 1⟩
def TS_STAT_BUSY : BitField := ⟨0, 0⟩
def TS_ERRCNT_VALUE : BitField := ⟨31, 0⟩
def TS_BITS_LO_VALUE : BitField := ⟨31, 0⟩
def TS_BITS_HI_VALUE : BitField := ⟨31, 0⟩
def TS_SELF_SKIP : BitField := ⟨26, 16⟩
def TS_SELF_FAIL : BitField := ⟨10, 0⟩
def TS_SELF_RUN_RUNS : BitField := ⟨15, 1⟩
def TS_SELF_RUN_COMPLETE : BitField := ⟨0, 0⟩
def TS_SELF_INST_INST : BitField := ⟨13, 8⟩
def TS_SELF_INST_ITEM : BitField := ⟨3, 0⟩
def TS_IDCODE_IDCODE : BitField := ⟨31, 0⟩

end Sys2Proof.Machine.F
end

