-- ==== Sys2Proof/Machine/Map.lean ====
section
/-! DEFINITION. Finite maps in one canonical form: a list of (key, value) pairs, keys strictly rising, no pair equal to
what an unlisted key reads as. Registers, memories and the large tables of the machine are such maps, so that equal
contents are equal data. Also the byte, bit and saturation helpers every block uses. -/

namespace Sys2Proof.Machine

/-- A sparse map from `Nat` keys. What an unlisted key reads as is given where the map is read. -/
abbrev AMap (β : Type) := List (Nat × β)

/-- The entry of key `a`, if listed. -/
def AMap.find? {β : Type} : AMap β → Nat → Option β
  | [], _ => none
  | (k, v) :: m, a => if k = a then some v else AMap.find? m a

/-- What key `a` reads as, `d a` where it is not listed. -/
def AMap.get {β : Type} (d : Nat → β) (m : AMap β) (a : Nat) : β := (AMap.find? m a).getD (d a)

/-- The map without key `a`. -/
def AMap.erase {β : Type} : AMap β → Nat → AMap β
  | [], _ => []
  | (k, v) :: m, a => if k = a then AMap.erase m a else (k, v) :: AMap.erase m a

/-- `(a, v)` placed before the first larger key. -/
def AMap.place {β : Type} : AMap β → Nat → β → AMap β
  | [], a, v => [(a, v)]
  | (k, w) :: m, a, v => if a < k then (a, v) :: (k, w) :: m else (k, w) :: AMap.place m a v

/-- Key `a` set to `v`; the entry is removed where `v` is what the unlisted key reads as. -/
def AMap.set {β : Type} [DecidableEq β] (d : Nat → β) (m : AMap β) (a : Nat) (v : β) : AMap β :=
  if v = d a then AMap.erase m a else AMap.place (AMap.erase m a) a v

/-- The canonical form: keys strictly rising, no entry equal to its default. -/
def AMap.wf {β : Type} [DecidableEq β] (d : Nat → β) : AMap β → Bool
  | [] => true
  | [(k, v)] => decide (v ≠ d k)
  | (k, v) :: (k', v') :: m => decide (v ≠ d k) && decide (k < k') && AMap.wf d ((k', v') :: m)

/-- A memory of bytes: the same cells as `Host.Cell`. -/
abbrev Mem := AMap Byte

/-- `n` bytes from address `a`, where an unlisted address reads as `d`. -/
def Mem.bytes (d : Byte) (m : Mem) (a n : Nat) : List Byte :=
  (List.range n).map fun i => AMap.get (fun _ => d) m (a + i)

/-- The bytes written at `a` and upwards. -/
def Mem.put (d : Byte) (m : Mem) (a : Nat) : List Byte → Mem
  | [] => m
  | b :: bs => Mem.put d (AMap.set (fun _ => d) m a b) (a + 1) bs

/-- Bits `[hi:lo]` of a number. -/
def bits (v hi lo : Nat) : Nat := (v >>> lo) % 2 ^ (hi + 1 - lo)

/-- The number `v` with bits `[hi:lo]` replaced. -/
def setBits (v hi lo x : Nat) : Nat :=
  (v >>> (hi + 1)) <<< (hi + 1) + (x % 2 ^ (hi + 1 - lo)) <<< lo + v % 2 ^ lo

/-- The value of a field in a register word. -/
def BitField.get (f : BitField) (w : Word) : Nat := bits w.toNat f.hi f.lo

/-- A register word with one field replaced. -/
def BitField.put (f : BitField) (w : Word) (x : Nat) : Word := BitVec.ofNat 32 (setBits w.toNat f.hi f.lo x)

/-- The largest value of a field. -/
def BitField.top (f : BitField) : Nat := 2 ^ (f.hi + 1 - f.lo) - 1

/-- A number of `n` bits read as a two's-complement value. -/
def toSigned (n v : Nat) : Int := if v % 2 ^ n < 2 ^ (n - 1) then (v % 2 ^ n : Nat) else (v % 2 ^ n : Nat) - (2 ^ n : Nat)

/-- The two's-complement bits of a value, `n` of them. -/
def ofSigned (n : Nat) (v : Int) : Nat := (v % (2 ^ n : Nat)).toNat

/-- Saturation to the range `lo` to `hi`. -/
def clamp (lo hi v : Int) : Int := if v < lo then lo else if hi < v then hi else v

/-- Little-endian value of a byte string (R4). -/
def leNat : List Byte → Nat
  | [] => 0
  | b :: bs => b.toNat + 256 * leNat bs

/-- `n` bytes of a value, least significant first (R4). -/
def leBytes : Nat → Nat → List Byte
  | 0, _ => []
  | n + 1, v => BitVec.ofNat 8 v :: leBytes n (v / 256)

/-- Big-endian value of a byte string, the order of the published standards. -/
def beNat (bs : List Byte) : Nat := bs.foldl (fun a b => a * 256 + b.toNat) 0

/-- `n` bytes of a value, most significant first. -/
def beBytes (n v : Nat) : List Byte := (leBytes n v).reverse

/-- `n` bytes from offset `i` of a byte string, 0 past its end. -/
def slice (bs : List Byte) (i n : Nat) : List Byte :=
  let t := (bs.drop i).take n
  t ++ List.replicate (n - t.length) 0

/-- The little-endian value of `n` bytes at offset `i`. -/
def leAt (bs : List Byte) (i n : Nat) : Nat := leNat (slice bs i n)

/-- A Boolean as a field value. -/
def b2n (b : Bool) : Nat := if b then 1 else 0

/-- Bits packed eight to a byte, the first in the lowest bit. -/
def packBits (bs : List Bool) : List Byte :=
  (List.range ((bs.length + 7) / 8)).map fun b => BitVec.ofNat 8 ((List.range 8).foldl (fun a i => a + b2n (bs.getD (8 * b + i) false) * 2 ^ i) 0)

/-- Bit `i` of a number. -/
def bit (v i : Nat) : Bool := v.testBit i

/-- The element of a list replaced at position `i`. -/
def setAt {α : Type} (l : List α) (i : Nat) (x : α) : List α := l.set i x

end Sys2Proof.Machine
end

