-- ==== Sys2Proof/Machine/Cipher.lean ====
section
/-! DEFINITION. AES-256 (FIPS 197), counter mode and GCM (SP 800-38A, SP 800-38D), as R144, R149 and R390 to R394 use
them. Blocks are byte strings in the order of the standard. -/

namespace Sys2Proof.Machine

/-- Multiplication by x in GF(2^8) with the AES polynomial. -/
def xtime (a : Nat) : Nat := if a < 128 then a * 2 else (a * 2) ^^^ 0x11B

/-- Product in GF(2^8). -/
def gmul (a b : Nat) : Nat :=
  ((List.range 8).foldl (fun (s : Nat × Nat) i => (if b.testBit i then s.1 ^^^ s.2 else s.1, xtime s.2)) (0, a)).1

/-- Inverse in GF(2^8): the 254th power, 0 for 0. -/
def ginv (a : Nat) : Nat :=
  let a2 := gmul a a
  let a3 := gmul a2 a
  let a6 := gmul a3 a3
  let a12 := gmul a6 a6
  let a15 := gmul a12 a3
  let a30 := gmul a15 a15
  let a60 := gmul a30 a30
  let a120 := gmul a60 a60
  let a126 := gmul a120 a6
  let a127 := gmul a126 a
  gmul a127 a127

/-- The AES S-box. -/
def sbox (b : Byte) : Byte :=
  let x := ginv b.toNat
  let r (k : Nat) := ((x <<< k) ||| (x >>> (8 - k))) % 256
  BitVec.ofNat 8 (x ^^^ r 1 ^^^ r 2 ^^^ r 3 ^^^ r 4 ^^^ 0x63)

/-- Byte-wise exclusive or. -/
def xorBytes (a b : List Byte) : List Byte := (a.zip b).map fun p => p.1 ^^^ p.2

/-- The key schedule of AES-256: `n` further words, newest first. -/
def aesExpand : Nat → Nat → Byte → List (List Byte) → List (List Byte)
  | 0, _, _, w => w
  | n + 1, i, rc, w =>
    let prev := w.getD 0 []
    let t :=
      if i % 8 = 0 then
        match prev with
        | [a, b, c, d] => [sbox b ^^^ rc, sbox c, sbox d, sbox a]
        | l => l
      else if i % 8 = 4 then prev.map sbox
      else prev
    let rc' := if i % 8 = 0 then BitVec.ofNat 8 (xtime rc.toNat) else rc
    aesExpand n (i + 1) rc' (xorBytes (w.getD 7 []) t :: w)

/-- The four-byte words of a key. -/
def words4 : Nat → List Byte → List (List Byte)
  | 0, _ => []
  | n + 1, bs => bs.take 4 :: words4 n (bs.drop 4)

/-- The fifteen round keys of a 32-byte key. -/
def aesKeys (key : List Byte) : List (List Byte) :=
  let w := (aesExpand 52 8 1#8 (words4 8 key).reverse).reverse
  (List.range 15).map fun r => ((w.drop (4 * r)).take 4).flatten

/-- The rows of the state shifted: byte 4c + r comes from column c + r. -/
def shiftRows (s : List Byte) : List Byte :=
  (List.range 16).map fun i => s.getD ((4 * (i / 4) + 5 * (i % 4)) % 16) 0#8

/-- One column of MixColumns. -/
def mixColumn (s : List Byte) : List Byte :=
  match s with
  | [a, b, c, d] =>
    let m (x : Byte) (k : Nat) := BitVec.ofNat 8 (gmul x.toNat k)
    [m a 2 ^^^ m b 3 ^^^ c ^^^ d, a ^^^ m b 2 ^^^ m c 3 ^^^ d, a ^^^ b ^^^ m c 2 ^^^ m d 3, m a 3 ^^^ b ^^^ c ^^^ m d 2]
  | l => l

/-- MixColumns over the whole state. -/
def mixColumns (s : List Byte) : List Byte := (words4 4 s).flatMap mixColumn

/-- AES-256 encryption of one block. -/
def aesEncrypt (key blk : List Byte) : List Byte :=
  let ks := aesKeys key
  let s0 := xorBytes blk (ks.getD 0 [])
  let s13 := (List.range 13).foldl (fun s i => xorBytes (mixColumns (shiftRows (s.map sbox))) (ks.getD (i + 1) [])) s0
  xorBytes (shiftRows (s13.map sbox)) (ks.getD 14 [])

/-- Product in GF(2^128) of GCM, first bit most significant. -/
def ghashMul (x y : Nat) : Nat :=
  ((List.range 128).foldl
    (fun (s : Nat × Nat) i =>
      (if x.testBit (127 - i) then s.1 ^^^ s.2 else s.1,
       if s.2 % 2 = 1 then (s.2 / 2) ^^^ (0xE1 <<< 120) else s.2 / 2)) (0, y)).1

/-- A byte string padded with zeros to whole blocks. -/
def padBlocks (bs : List Byte) : List Byte := bs ++ List.replicate ((16 - bs.length % 16) % 16) 0#8

/-- GHASH over whole blocks. -/
def ghash (h : Nat) : Nat → Nat → List Byte → Nat
  | 0, y, _ => y
  | n + 1, y, bs => ghash h n (ghashMul (y ^^^ beNat (bs.take 16)) h) (bs.drop 16)

/-- The keystream of counter mode from a 12-byte nonce, starting at counter `c`. -/
def ctrStream (key nonce : List Byte) : Nat → Nat → List Byte
  | 0, _ => []
  | n + 1, c => aesEncrypt key (nonce ++ beBytes 4 c) ++ ctrStream key nonce n (c + 1)

/-- The tag of GCM over additional data and ciphertext. -/
def gcmTag (key nonce aad ct : List Byte) : List Byte :=
  let h := beNat (aesEncrypt key (List.replicate 16 0#8))
  let m := padBlocks aad ++ padBlocks ct ++ beBytes 8 (8 * aad.length) ++ beBytes 8 (8 * ct.length)
  xorBytes (beBytes 16 (ghash h (m.length / 16) 0 m)) (aesEncrypt key (nonce ++ beBytes 4 1))

/-- The plaintext (or ciphertext) of GCM: counter mode from counter 2. -/
def gcmCrypt (key nonce bs : List Byte) : List Byte :=
  xorBytes bs (ctrStream key nonce ((bs.length + 15) / 16) 2)

/-- AES-256-GCM decryption: nothing unless the full tag passes (R144). -/
def gcmOpen (key nonce aad ct tag : List Byte) : Option (List Byte) :=
  if gcmTag key nonce aad ct = tag then some (gcmCrypt key nonce ct) else none

/-- AES-256-GCM encryption: ciphertext and tag. -/
def gcmSeal (key nonce aad pt : List Byte) : List Byte × List Byte :=
  let ct := gcmCrypt key nonce pt
  (ct, gcmTag key nonce aad ct)

end Sys2Proof.Machine
end

