-- ==== Sys2Proof/Machine/Digest.lean ====
section
/-! DEFINITION. The check and hash functions the spec names by their published standards: CRC-32 of IEEE 802.3, the
CRC-8 and CRC-16 of the head and link protocols, SHA-256 and SHA-384 (FIPS 180-4) and HMAC (FIPS 198-1). Each takes and
gives byte strings in the order of its standard (R4). -/

namespace Sys2Proof.Machine

/-- One bit of a reflected CRC register. -/
def crcStepR (poly : Nat) (c : Nat) : Nat := if c % 2 = 1 then (c / 2) ^^^ poly else c / 2

/-- One byte of a reflected CRC register. -/
def crcByteR (poly : Nat) (c : Nat) (b : Byte) : Nat :=
  (List.range 8).foldl (fun c _ => crcStepR poly c) (c ^^^ b.toNat)

/-- CRC-32 as in IEEE 802.3: reflected, initial and final value all ones. -/
def crc32 (bs : List Byte) : Nat := (bs.foldl (crcByteR 0xEDB88320) 0xFFFFFFFF) ^^^ 0xFFFFFFFF

/-- One byte of a CRC register of `n` bits, most significant bit first. -/
def crcByte (n poly : Nat) (c : Nat) (b : Byte) : Nat :=
  (List.range 8).foldl
    (fun c _ => if c.testBit (n - 1) then ((c * 2) % 2 ^ n) ^^^ poly else (c * 2) % 2 ^ n)
    (c ^^^ (b.toNat <<< (n - 8)))

/-- A CRC of `n` bits over a byte string, most significant bit first. -/
def crcN (n poly init : Nat) (bs : List Byte) : Nat := bs.foldl (crcByte n poly) init

/-- A byte with its bits in the opposite order. -/
def revByte (b : Byte) : Byte := BitVec.ofNat 8 ((List.range 8).foldl (fun a i => 2 * a + b.toNat / 2 ^ i % 2) 0)

/-- Rotation of a word of `n` bits to the right. -/
def rotr (n x k : Nat) : Nat := (x >>> k) ||| ((x <<< (n - k)) % 2 ^ n)

/-- Words of `n` bits from numbers that hold `k` of them each, the first most significant. -/
def wordsOf (n k : Nat) (l : List Nat) : List Nat :=
  l.flatMap fun v => (List.range k).map fun i => (v >>> (n * (k - 1 - i))) % 2 ^ n

/-- Round constants of SHA-256. -/
def sha256K : List Nat :=
  wordsOf 32 8 [0x428A2F9871374491B5C0FBCFE9B5DBA53956C25B59F111F1923F82A4AB1C5ED5,
    0xD807AA9812835B01243185BE550C7DC372BE5D7480DEB1FE9BDC06A7C19BF174,
    0xE49B69C1EFBE47860FC19DC6240CA1CC2DE92C6F4A7484AA5CB0A9DC76F988DA,
    0x983E5152A831C66DB00327C8BF597FC7C6E00BF3D5A7914706CA635114292967,
    0x27B70A852E1B21384D2C6DFC53380D13650A7354766A0ABB81C2C92E92722C85,
    0xA2BFE8A1A81A664BC24B8B70C76C51A3D192E819D6990624F40E3585106AA070,
    0x19A4C1161E376C082748774C34B0BCB5391C0CB34ED8AA4A5B9CCA4F682E6FF3,
    0x748F82EE78A5636F84C878148CC7020890BEFFFAA4506CEBBEF9A3F7C67178F2]

/-- Round constants of SHA-384 and SHA-512. -/
def sha512K : List Nat :=
  wordsOf 64 4 [0x428A2F98D728AE227137449123EF65CDB5C0FBCFEC4D3B2FE9B5DBA58189DBBC,
    0x3956C25BF348B53859F111F1B605D019923F82A4AF194F9BAB1C5ED5DA6D8118,
    0xD807AA98A303024212835B0145706FBE243185BE4EE4B28C550C7DC3D5FFB4E2,
    0x72BE5D74F27B896F80DEB1FE3B1696B19BDC06A725C71235C19BF174CF692694,
    0xE49B69C19EF14AD2EFBE4786384F25E30FC19DC68B8CD5B5240CA1CC77AC9C65,
    0x2DE92C6F592B02754A7484AA6EA6E4835CB0A9DCBD41FBD476F988DA831153B5,
    0x983E5152EE66DFABA831C66D2DB43210B00327C898FB213FBF597FC7BEEF0EE4,
    0xC6E00BF33DA88FC2D5A79147930AA72506CA6351E003826F142929670A0E6E70,
    0x27B70A8546D22FFC2E1B21385C26C9264D2C6DFC5AC42AED53380D139D95B3DF,
    0x650A73548BAF63DE766A0ABB3C77B2A881C2C92E47EDAEE692722C851482353B] ++
  wordsOf 64 4 [0xA2BFE8A14CF10364A81A664BBC423001C24B8B70D0F89791C76C51A30654BE30,
    0xD192E819D6EF5218D69906245565A910F40E35855771202A106AA07032BBD1B8,
    0x19A4C116B8D2D0C81E376C085141AB532748774CDF8EEB9934B0BCB5E19B48A8,
    0x391C0CB3C5C95A634ED8AA4AE3418ACB5B9CCA4F7763E373682E6FF3D6B2B8A3,
    0x748F82EE5DEFB2FC78A5636F43172F6084C87814A1F0AB728CC702081A6439EC,
    0x90BEFFFA23631E28A4506CEBDE82BDE9BEF9A3F7B2C67915C67178F2E372532B,
    0xCA273ECEEA26619CD186B8C721C0C207EADA7DD6CDE0EB1EF57D4F7FEE6ED178,
    0x06F067AA72176FBA0A637DC5A2C898A6113F9804BEF90DAE1B710B35131C471B,
    0x28DB77F523047D8432CAAB7B40C724933C9EBE0A15C9BEBC431D67C49C100D4C,
    0x4CC5D4BECB3E42B6597F299CFC657E2A5FCB6FAB3AD6FAEC6C44198C4A475817]

/-- What differs between the SHA-2 functions of 32-bit and 64-bit words. -/
structure Sha2 where
  bits : Nat
  k : List Nat
  s0 : Nat × Nat × Nat
  s1 : Nat × Nat × Nat
  e0 : Nat × Nat × Nat
  e1 : Nat × Nat × Nat
  deriving DecidableEq, Repr

/-- The functions of SHA-256. -/
def sha2w32 : Sha2 := ⟨32, sha256K, (7, 18, 3), (17, 19, 10), (2, 13, 22), (6, 11, 25)⟩

/-- The functions of SHA-384. -/
def sha2w64 : Sha2 := ⟨64, sha512K, (1, 8, 7), (19, 61, 6), (28, 34, 39), (14, 18, 41)⟩

/-- A small sigma: two rotations and a shift. -/
def Sha2.sig (p : Sha2) (t : Nat × Nat × Nat) (x : Nat) : Nat :=
  rotr p.bits x t.1 ^^^ rotr p.bits x t.2.1 ^^^ (x >>> t.2.2)

/-- A big sigma: three rotations. -/
def Sha2.sum (p : Sha2) (t : Nat × Nat × Nat) (x : Nat) : Nat :=
  rotr p.bits x t.1 ^^^ rotr p.bits x t.2.1 ^^^ rotr p.bits x t.2.2

/-- The message schedule, built newest word first. -/
def Sha2.schedule (p : Sha2) : Nat → List Nat → List Nat
  | 0, w => w
  | n + 1, w =>
    let x := (p.sig p.s1 (w.getD 1 0) + w.getD 6 0 + p.sig p.s0 (w.getD 14 0) + w.getD 15 0) % 2 ^ p.bits
    Sha2.schedule p n (x :: w)

/-- One round over the eight working words. -/
def Sha2.round (p : Sha2) (v : List Nat) (kw : Nat × Nat) : List Nat :=
  match v with
  | [a, b, c, d, e, f, g, h] =>
    let m := 2 ^ p.bits
    let ch := (e &&& f) ^^^ ((m - 1 - e) &&& g)
    let mj := (a &&& b) ^^^ (a &&& c) ^^^ (b &&& c)
    let t1 := (h + p.sum p.e1 e + ch + kw.1 + kw.2) % m
    let t2 := (p.sum p.e0 a + mj) % m
    [(t1 + t2) % m, a, b, c, (d + t1) % m, e, f, g]
  | _ => v

/-- One block folded into the chaining value. -/
def Sha2.block (p : Sha2) (hv : List Nat) (words : List Nat) : List Nat :=
  let w := (Sha2.schedule p (p.k.length - 16) words.reverse).reverse
  let r := (p.k.zip w).foldl (p.round) hv
  (hv.zip r).map fun x => (x.1 + x.2) % 2 ^ p.bits

/-- Big-endian words of `n` bytes. -/
def beWords (n : Nat) : Nat → List Byte → List Nat
  | 0, _ => []
  | k + 1, bs => beNat (bs.take n) :: beWords n k (bs.drop n)

/-- All blocks of a padded message, `fuel` of them. -/
def Sha2.run (p : Sha2) : Nat → List Nat → List Byte → List Nat
  | 0, hv, _ => hv
  | n + 1, hv, bs =>
    let wb := p.bits / 8
    Sha2.run p n (p.block hv (beWords wb 16 (bs.take (16 * wb)))) (bs.drop (16 * wb))

/-- The padded message of the standard. -/
def Sha2.pad (p : Sha2) (bs : List Byte) : List Byte :=
  let blk := p.bits * 2
  let len := p.bits / 4
  let z := (blk * 2 - (bs.length + 1 + len) % blk) % blk
  bs ++ [0x80#8] ++ List.replicate z 0#8 ++ beBytes len (8 * bs.length)

/-- The hash of a byte string: `out` bytes of the final chaining value. -/
def Sha2.hash (p : Sha2) (iv : List Nat) (out : Nat) (bs : List Byte) : List Byte :=
  let m := p.pad bs
  ((p.run (m.length / (p.bits * 2)) iv m).flatMap (beBytes (p.bits / 8))).take out

/-- SHA-256. -/
def sha256 (bs : List Byte) : List Byte :=
  sha2w32.hash (wordsOf 32 8 [0x6A09E667BB67AE853C6EF372A54FF53A510E527F9B05688C1F83D9AB5BE0CD19]) 32 bs

/-- SHA-384. -/
def sha384 (bs : List Byte) : List Byte :=
  sha2w64.hash (wordsOf 64 4 [0xCBBB9D5DC1059ED8629A292A367CD5079159015A3070DD17152FECD8F70E5939,
    0x67332667FFC00B318EB44A8768581511DB0C2E0D64F98FA747B5481DBEFA4FA4]) 48 bs

/-- HMAC of FIPS 198-1 over a hash of block size `blk`; keys here are never longer than a block. -/
def hmac (h : List Byte → List Byte) (blk : Nat) (key msg : List Byte) : List Byte :=
  let k := key ++ List.replicate (blk - key.length) 0#8
  let x (c : Byte) := k.map fun b => b ^^^ c
  h (x 0x5C#8 ++ h (x 0x36#8 ++ msg))

/-- HMAC-SHA-256. -/
def hmac256 (key msg : List Byte) : List Byte := hmac sha256 64 key msg

/-- HMAC-SHA-384. -/
def hmac384 (key msg : List Byte) : List Byte := hmac sha384 128 key msg

end Sys2Proof.Machine
end

