-- ==== Sys2Proof/Config.lean ====
section
/-! DEFINITION. What a particular controller fixes and what the spec leaves open: fuses and per-device values, the draws of
the random source, and values and orders the spec does not state. Every constant here has no body, so nothing can be
proved of its value; log entries 3 to 9 say where each is used. -/

namespace Sys2Proof.Config

/-- CHIP_ID, fused per device (16, AU_CHIP_ID). -/
opaque chipId : BitVec 64

/-- The fused root key under which the key store is encrypted (R392). -/
opaque rootKey : BitVec 256

/-- VREF_UV of AN_VREF, measured per device (20). -/
opaque vrefUv : BitVec 32

/-- The core voltage selection code fused per device (22). -/
opaque coreVsel : Fin 17

/-- The `k`-th draw of the random source (R149, R250, R389, R390). -/
opaque draw : Nat → BitVec 384

/-- The bytes of the AES counter block of tile data: job slot and byte offset divided by 16 (R149 names the inputs, not
their places). -/
opaque tileCounter : Nat → Nat → BitVec 128

/-- The bytes of the AES counter block of camera ring data (R250 names the inputs, not their places). -/
opaque ringCounter : Nat → Nat → BitVec 128

/-- Where the symbol descriptors and the payload masks stand in DRAM (R250): first byte and length. The spec gives them no address. -/
opaque symRegion : Nat × Nat

/-- The ECDH secret of an ephemeral private key and its EPH_ID (R390): the spec does not say how the controller learns the
provisioner's public key. -/
opaque ecdhZ : BitVec 384 → Nat → BitVec 384

/-- The DEVICE SIGN public key of the controller a CHIP_ID names (R398 verifies with it; the spec does not say how the primary
holds it). -/
opaque witnessKey : BitVec 64 → BitVec 768

/-- The encrypted key store of a generation as a settings record holds it: R392 gives neither its layout nor its cipher. -/
opaque keyStore : Nat → Nat → List Byte

/-- A value the spec leaves open, drawn afresh by its index. -/
opaque freeValue : Nat → BitVec 64

/-- What the compressor's search finds at a place of a block under a LEVEL: the length and the distance of a match (R406 does not fix
the matches). -/
opaque matchAt : Nat → List Byte → Nat → Nat × Nat

/-- A block's data in dynamic form for its matches (R406 does not fix the Huffman codes). -/
opaque dynamicForm : Nat → List Byte → List Byte

/-- The level of ENCk_SCK between SSI frames, which R83 does not give. -/
opaque sckIdle : Bool

/-- Whether a LOAD address of application core code lies in DRAM: R414 allows DRAM and application core memory, and no rule says which
addresses are which. -/
opaque loadInDram : Nat → Bool

/-- The present level of a photodiode input in a cycle (AN_PDi_LVL.LEVEL): the light is outside, and no command carries it. -/
opaque pdLevel : Nat → Nat → BitVec 10

/-- ROPE_DIV of R368: the spec names it and gives neither a value nor a register. -/
opaque ropeDiv : Nat

/-- Which tamper inputs stand at their asserted level in a cycle (AU_TAMPER_STAT.LEVEL): the pins are outside, and no command carries them. -/
opaque tampPins : Nat → BitVec 4

end Sys2Proof.Config
end

