-- ==== Sys2Proof/Machine/State.lean ====
section
/-! DEFINITION. The state of the controller as plain data. Configuration registers, latched flags and counters of the
register map live in `regs` (one home for each, see `Reg` and `F`); what the spec gives the machine beyond its registers,
and what several registers show in different ways, has typed fields below, block by block. Nothing here is a function. -/

namespace Sys2Proof.Machine

/-- The seven operating modes (00_scope; encoded as R433). -/
inductive Mode where
  | boot | idle | warm | print | service | hold | test
  deriving DecidableEq, Repr

/-- A timestamp of R360: PTP seconds, nanoseconds and the fraction of a nanosecond, and the sync flags it carries. -/
structure Stamp where
  sec : Nat
  ns : Nat
  frac : Nat
  deriving DecidableEq, Repr

/-! ## The unit tree and the structure in force (02, 03) -/

/-- One TREE entry of R60: a unit with its parent (R34). -/
structure TreeNode where
  handle : Nat
  kind : Nat
  parent : Nat
  deriving DecidableEq, Repr

/-- The four own settings of a unit (R35). -/
structure UnitCfg where
  en : Bool
  trim : Nat
  ldelay : Nat
  sldelay : Nat
  deriving DecidableEq, Repr

/-- Latched status and counters of a unit (R41, R43). -/
structure UnitDyn where
  warn : Bool
  void : Bool
  cntEvent : Nat
  cntVoid : Nat
  cntCmd : Nat
  deriving DecidableEq, Repr

/-- What a parent controller adds for this controller as its CHIP unit (R52): enable, line delay, subline delay. -/
structure ParentVals where
  en : Bool
  ld : Nat
  sd : Nat
  deriving DecidableEq, Repr

/-- A CHIP unit as its child last reported it (R52, R340): own and dome status of the child's ROOT, its counters, and the
cycle of its last EVT. -/
structure ChipInfo where
  online : Bool
  own : Nat
  dome : Nat
  cntEvent : Nat
  cntVoid : Nat
  cntCmd : Nat
  lastEvt : Nat
  deriving DecidableEq, Repr

/-- A command of the unit tree in progress (R50): the window that wrote it, its code, unit and argument, when it was
accepted, whether a part of it was forwarded, whether its local effect has been applied, its commit position, and the
failure to report at its end. -/
structure UtCmd where
  win : Nat
  code : Nat
  chip : Nat
  handle : Nat
  arg : Nat
  start : Nat
  forwarded : Bool
  applied : Bool
  commit : Option Nat
  err : Nat
  deriving DecidableEq, Repr

/-- The unit tree block: own settings in force, own settings as last set where a change waits for its commit or tick,
latched status, CHIP units, the command in progress, and the snapshots that wait for another controller. -/
structure UtState where
  own : AMap UnitCfg
  dyn : AMap UnitDyn
  chips : AMap ChipInfo
  cmd : Option UtCmd
  snapWait : List (Nat × Nat)
  parent : ParentVals
  deriving DecidableEq, Repr

/-- A bank entry of PORTMAP (R60). -/
structure BankCfg where
  hpclkKhz : Nat
  bankMax : Nat
  phases : Nat
  overflow : Nat
  vhNom : Nat
  deriving DecidableEq, Repr

/-- A port entry of PORTMAP (R60). -/
structure PortCfg where
  geom : Nat
  headType : Nat
  deriving DecidableEq, Repr

/-- A line program (R62, R63): the engines it serves and its words. -/
structure LineProg where
  mask : Nat
  words : List Nat
  deriving DecidableEq, Repr

/-- A context of the loop engine as loaded (LOOPPROG, R64). -/
structure CtxCfg where
  en : Bool
  cls : Nat
  period : Nat
  entry : Nat
  codeLen : Nat
  owner : Nat
  wcet : Nat
  deriving DecidableEq, Repr

/-- One SLOTTAB entry (R60). -/
structure SlotTab where
  arb : Nat
  set : Nat
  bgFloor : Nat
  rank : Nat
  panicHstr : Nat
  panicCamw : Nat
  slots : List Nat
  deriving DecidableEq, Repr

/-- One GATING entry (R65). -/
structure GateCfg where
  mask : Nat
  cls : Nat
  filter : Nat
  unit : Nat
  deriving DecidableEq, Repr

/-- One EVENTMAP entry (R66). -/
structure EventCfg where
  id : Nat
  cls : Nat
  irq : Nat
  unit : Nat
  flags : Nat
  deriving DecidableEq, Repr

/-- The LIMITS section; temperatures in 1/16 degree. -/
structure Limits where
  lineRateMax : Nat
  mergeLayers : Nat
  lead : Nat
  renderAhead : Nat
  commitLag : Nat
  camOffset : Nat
  placeTol : Nat
  runup : Nat
  backup : Bool
  softT : Int
  hardT : Int
  revertHold : Nat
  fabricWdog : Nat
  deriving DecidableEq, Repr

/-- A WAVETAB entry: the unit it serves and the table body. -/
structure WaveTab where
  unit : Nat
  body : List Byte
  deriving DecidableEq, Repr

/-- The structure a controller runs on (03): everything a structure image loads, each table in image order. -/
structure Structure where
  loaded : Bool
  testEn : Bool
  treeDepth : Nat
  nodes : List TreeNode
  ports : List PortCfg
  banks : List BankCfg
  progs : List LineProg
  code : List Nat
  ctxs : List CtxCfg
  params : List Nat
  slots : List SlotTab
  gating : List GateCfg
  events : List EventCfg
  limits : Limits
  waves : List WaveTab
  deriving DecidableEq, Repr

/-- Reload states of BU_SI_STATUS (R73 to R76). -/
inductive ReloadState where
  | idle | verify | pending | applying | done | refused | aborted
  deriving DecidableEq, Repr

/-- A partial reload in progress: its state, the staged image taken at START, the shadow structure and own settings once
verified, the digest to fold into M, the activation line, whether the command in hand has reached the activation of a PRINT
reload (false between commands, R76), and the loop parameters in force before the tick of line A put the new ones in force
(R75). -/
structure Reload where
  state : ReloadState
  err : Nat
  failSection : Nat
  root : Nat
  addr : Nat
  size : Nat
  shadow : Option Structure
  shadowOwn : AMap UnitCfg
  digest : List Byte
  actLine : Nat
  inPrint : Bool
  reached : Bool
  paramsWere : Option (List Nat)
  deriving DecidableEq, Repr

/-! ## Web position (04) -/

/-- A feedback channel: accepted levels, the times of the last accepted edges, the count, direction and index
supervision of R80 to R88, and the SSI receiver of R83 to R85, `ssiFrom` being the cycle its frame began. -/
structure EncCh where
  a : Bool
  b : Bool
  z : Bool
  edgeA : Option Nat
  edgeB : Option Nat
  edgeZ : Option Nat
  cnt : Nat
  rev : Int
  dirRev : Bool
  runNeg : Bool
  runLen : Nat
  sinceIdx : Int
  idxSeen : Bool
  idxMissed : Bool
  zlatch : Bool
  ssiActive : Bool
  ssiFrom : Nat
  ssiV : Option Nat
  ssiMiss : Nat
  ssiEnd : Nat
  owed : Int
  owedNext : Int
  deriving DecidableEq, Repr

/-- A crossing compare (R100): armed with a target, a watched position and a direction. -/
structure Cmp where
  armed : Bool
  target : Int
  src : Nat
  dir : Nat
  deriving DecidableEq, Repr

/-- A resynthesised pass-through output (R104): the count the outputs show and when they last changed. -/
structure PtOut where
  q : Int
  last : Option Nat
  lagging : Bool
  deriving DecidableEq, Repr

/-- The web position block. `arm` holds the source, u0, b and lr latched at ARM (R90); `tickAt` is the cycle and `lastTick` the line of
the last tick, `lastFire` the line and cycle of the last tick that fired a line, `pNext` the
period P_prev of R38 for the next line to fire where no tick gap comes before it. -/
structure WpState where
  ch0 : EncCh
  ch1 : EncCh
  src : Nat
  arm : Option (Nat × Int × Nat × Nat)
  pos : Nat
  hwm : Nat
  tickAt : Option Nat
  lastTick : Option Nat
  lastFire : Option (Nat × Nat)
  period : Nat
  pNext : Nat
  ticking : Option Nat
  holdLine : Nat
  backup : Bool
  pinLow : Bool
  pinSince : Option Nat
  backupCnt : Nat
  ticksIdle : Nat
  cmps : List Cmp
  pt0 : PtOut
  pt1 : PtOut
  deriving DecidableEq, Repr

/-! ## Jobs, plates and the line ring (05) -/

/-- Job slot states of R106. -/
inductive JobPhase where
  | empty | loaded | armed | running | draining | closing | done | failed
  deriving DecidableEq, Repr

/-- A row entry of an imposition table (R112). -/
structure ImpRow where
  offset : Nat
  firstCell : Nat
  cellCount : Nat
  deriving DecidableEq, Repr

/-- A cell entry of an imposition table (R112). -/
structure ImpCell where
  x : Nat
  w : Nat
  yOff : Nat
  h : Nat
  slotFirst : Nat
  slotCount : Nat
  plain : Bool
  deriving DecidableEq, Repr

/-- A slot entry of an imposition table (R112). -/
structure ImpSlot where
  xOff : Nat
  w : Nat
  yOff : Nat
  h : Nat
  layer : Nat
  primMask : Nat
  deriving DecidableEq, Repr

/-- An imposition table (R112). -/
structure Imposition where
  rows : List ImpRow
  cells : List ImpCell
  slots : List ImpSlot
  rep : Nat
  deriving DecidableEq, Repr

/-- An entry of the open-ticket table (R376), the image lines `lo` to `hi` of its instance, with what inspection has found for it (R241, R246): its place (bar positions
x to x + w - 1, image lines first to last), start time and epoch once known, flags of R378 so far, defect pixels, whether
a pixel had no data or no cover, whether EN was 0 for a line of it, whether an enabled port left a line of it unfired for a cause that has no flag (R22), HWM at the HOLD that halted it (R381), its TAG where a zeroize found it computed (R394), and the
verdict (before UNVER_POLICY) once decided. -/
structure Ticket where
  job : Nat
  jobId : Nat
  inst : Nat
  cell : Nat
  serial : List Byte
  x : Nat
  w : Nat
  lo : Nat
  hi : Nat
  first : Nat
  last : Nat
  ts : Option (List Byte)
  epoch : Option Nat
  flags : Nat
  defects : Nat
  bad : Bool
  enOff : Bool
  unfired : Bool
  halted : Option Nat
  tag : Option (List Byte)
  verdict : Option Nat
  deriving DecidableEq, Repr

/-- An instance the renderer has in hand (R117, R119): its number, RP after its records, and its tickets. -/
structure Rendering where
  inst : Nat
  rp : Nat
  tickets : List Ticket
  deriving DecidableEq, Repr

/-- A job slot: the descriptor and imposition copied at LOAD (R105), the ring offsets (R117), the renderer's progress (next
instance to begin, the one in hand, how many tile buffers have been released), and the end fixed under R124 (the first
instance not printed and the line E + 1 it begins at). -/
structure JobSlot where
  phase : JobPhase
  err : Nat
  raster : Bool
  tileBufs : Nat
  jobId : Nat
  jobStart : Nat
  planeMap : Nat
  ringAddr : Nat
  ringSize : Nat
  tileAddr : Nat
  tileSize : Nat
  rasterAddr : Nat
  rasterLines : Nat
  imp : Imposition
  rp : Nat
  wp : Nat
  nextInst : Nat
  rendering : Option Rendering
  released : Nat
  stopped : Bool
  endInst : Option Nat
  tileKey : Option (List Byte)
  rasterWp : Nat
  rasterFill : Nat
  discard : Nat
  deriving DecidableEq, Repr

/-- Plate slot states of R110; IN_USE is READY and mapped by a job. -/
inductive PlatePhase where
  | empty | loading | ready
  deriving DecidableEq, Repr

/-- A plate slot (R110, R111). -/
structure PlateSlot where
  phase : PlatePhase
  fill : Nat
  deriving DecidableEq, Repr

/-- A covered word of a line ring entry (R120): its row slice (2p + r), field layer and place in the slice, 32 bytes of values and 16
of coverage. -/
structure RingWord where
  slice : Nat
  layer : Nat
  word : Nat
  vals : List Byte
  cov : List Byte
  deriving DecidableEq, Repr

/-- A line ring entry (R121): its bar line, whether the copy is done, and the words copied. -/
structure LineEntry where
  line : Nat
  complete : Bool
  words : List RingWord
  deriving DecidableEq, Repr

/-- What the slice buffers of HSTR hold of a bar line (R122, R290): 256 bytes of each row slice (2p + r), 1,024 values in column order. -/
structure SliceLine where
  line : Nat
  rows : List (Nat × List Byte)
  deriving DecidableEq, Repr

/-- The job stream block: two job slots, sixteen plate slots, the current and the next job, the line ring (R121), the slice buffers of
HSTR (R290), and the results of LEAD checks since the last ARM or reversal (R122). -/
structure JsState where
  job0 : JobSlot
  job1 : JobSlot
  plates : List PlateSlot
  cur : Option Nat
  next : Option Nat
  lring : List LineEntry
  slices : List SliceLine
  lead : List (Nat × Bool)
  deriving DecidableEq, Repr

/-! ## Head ports (07) and firing (08) -/

/-- Port states of R171. -/
inductive PortState where
  | absent | present | mismatch | ready
  deriving DecidableEq, Repr

/-- What a LAT moved into the head: a line frame with its bar line, PAR and number of phases, or a CONFIG frame; when the
LAT fell (R164, R169). -/
structure LatRec where
  config : Bool
  line : Option Nat
  par : Bool
  time : Nat
  deriving DecidableEq, Repr

/-- The kinds of frame a bank shifts (R163, R166); `void` is one whose shift goes on to its end and that no LAT follows (R165, R177). -/
inductive FrameKind where
  | line (l : Nat) | config | warming | spit | void
  deriving DecidableEq, Repr

/-- A head FIFO entry (R162): bar line, header, the 2,048 nozzle values, the load of each slot of the bank, the slot each
phase's burst sits in (R183), whether complete, and whether the bank limit blanked its part (R188). -/
structure FifoEntry where
  line : Nat
  header : Nat
  values : List Nat
  loads : List Nat
  burstSlots : List Nat
  complete : Bool
  blanked : Bool
  deriving DecidableEq, Repr

/-- Readings frozen for a line (R12, R189, R190): the line, the cycle of its tick, head temperature, supply, the factors
they give, P_prev of R38, the warm width (R195), and whether FIRE of the port was inhibited when the line started (R28). -/
structure Freeze where
  line : Nat
  tick : Nat
  temp : Int
  vh : Nat
  fT : Nat
  fV : Nat
  fD : Nat
  dIdx : Nat
  fR : Nat
  pPrev : Nat
  warm : Nat
  hot : Bool
  deriving DecidableEq, Repr

/-- A head port. `temp` is the head temperature with the cycle of its stop bit, `prevTemp` the one before (R194), `lats` the LATs no STATUS frame has yet
covered, `lastPar` the PAR of the last line frame latched by a covered LAT, `fifo` its head FIFO, `shifted` the header and
values in the head's shift register and `latched` those in its fire latch, `pulses` the pulses (start cycle, width) emitted last (the model's own output field), `freeze` the readings of the lines last started, `warmWas` the warm width before the loop engine last wrote it and the cycle of that write (R194), `waveEnd` the end of its last waveform,
`staleAt` the cycle of its last good STATUS frame, `cfgDue` CONFIG frames wanted and `cfgFails` those the head has reported
errored, `hot` the HARD_T inhibit, `spit` a running spit profile with its lines left, `spitM` the
number of its next line, `spitAt` when its last line was sent and `spitBlank` whether one of them was blanked, `decapAt` when its decap timer
started. -/
structure HeadPort where
  st : PortState
  identValid : Bool
  headType : Nat
  rev : Nat
  serial : Nat
  parEcho : Bool
  cfgOk : Bool
  temp : Option (Int × Nat)
  prevTemp : Option (Int × Nat)
  staleAt : Nat
  lats : List LatRec
  lastPar : Option Bool
  fifo : List FifoEntry
  shifted : Option FifoEntry
  latched : Option FifoEntry
  pulses : List (Nat × Nat)
  freeze : List Freeze
  warmWas : Option (Nat × Nat)
  waveEnd : Nat
  cfgDue : Bool
  identReq : Bool
  cfgFails : Nat
  hot : Bool
  derating : Bool
  bankFault : Bool
  spit : Option (Nat × Nat)
  spitM : Nat
  spitAt : Nat
  spitBlank : Bool
  decapAt : Nat
  deriving DecidableEq, Repr

/-- A bank: the frame being shifted with the cycle it ends on, the frame that waits in the heads with the cycle its shift ended on, the last LAT with its line and
the cycle of that line's tick, and the warming generator (R163, R165, R196). -/
structure BankState where
  shifting : Option (FrameKind × Nat)
  waiting : Option (FrameKind × Nat)
  latAt : Option Nat
  latLine : Option Nat
  latTick : Option Nat
  warmAt : Nat
  par : Bool
  deriving DecidableEq, Repr

/-- The head port block: ports, banks, gate inputs at their filtered level and their cut latches, the line being composed
with the engines still at work. -/
structure HpState where
  ports : List HeadPort
  banks : List BankState
  gateLevel : Nat
  cut : Nat
  composing : Option (Nat × Nat)
  deriving DecidableEq, Repr

/-! ## Nozzle health (09) -/

/-- A nozzle record of R198 without the fields that follow from the structure (PARTNER) and from the commit queue
(PENDING). -/
structure NozRec where
  state : Nat
  policy : Nat
  serving : Bool
  servingPrev : Bool
  decap : Bool
  gateValid : Bool
  epoch : Nat
  roleEpoch : Nat
  missRun : Nat
  weakRun : Nat
  fire : Nat
  gateRes : Nat
  gateGood : Nat
  gateTa : Nat
  gateDt : Nat
  gateScan : Nat
  stateLine : Nat
  changes : Nat
  deriving DecidableEq, Repr

/-- A map entry of R203: CUR, PREV and the index H into the epoch history. -/
structure MapEnt where
  cur : Nat
  prev : Nat
  hist : Nat
  deriving DecidableEq, Repr

/-- What a commit changes (R206): a nozzle record, the enable of a unit, the release of inhibited ports below a unit, or the enable
of the CHIP unit above the controller (R52). -/
inductive NhReq where
  | noz (i : Nat) (st : Option Nat) (pol : Option Nat)
  | enable (h : Nat) (en : Bool)
  | release (h : Nat)
  | parent (en : Bool)
  deriving DecidableEq, Repr

/-- An entry of the commit queue with its commit position (R206). -/
structure NhEntry where
  c : Nat
  req : NhReq
  deriving DecidableEq, Repr

/-- An entry of the epoch history (R209): its slot of the 256, its commit position and its epoch. -/
structure HistEnt where
  slot : Nat
  pos : Nat
  epoch : Nat
  deriving DecidableEq, Repr

/-- The drop gate scan (R212 to R214): state and cause as NH_GATE_STAT codes them, scan number, nozzles still to fire in
the order of R212, shots fired at the first of them with the good ones and their summed times, results not yet committed,
the ports of the scan, and when the carriage move to the present position ended. -/
structure GateScan where
  st : Nat
  cause : Nat
  scan : Nat
  todo : List Nat
  shots : Nat
  good : Nat
  sumA : Nat
  sumD : Nat
  results : List (Nat × Nat)
  ports : List Nat
  deriving DecidableEq, Repr

/-- The nozzle health block. `acc` holds the fire-count accumulators (R200); `idle` the number of lines fired in PRINT
of its port when a nozzle last received a drop, out of `lines` of the port so far (R216); `mapNew` the map copy in force from bar line `mapAt`,
`mapOld` the copy for the lines below it while it is kept (R207); `staging` the commit being staged and whether staging is
complete; `wearM` the samples (time in ns, M) of a port over the last WIN_S seconds, the newest first, and `proj` its projection (R217); `wornOut`
nozzles whose retirement at the wear limit has been queued; `unitsDue` unit changes of an activated commit that wait for
the tick of their line (R47); `seen` SERIAL and HEAD_TYPE last seen (R219). -/
structure NhState where
  recs : AMap NozRec
  acc : AMap Nat
  idle : AMap Nat
  lines : AMap Nat
  mapNew : AMap MapEnt
  mapAt : Nat
  mapOld : Option (AMap MapEnt)
  queue : List NhEntry
  staging : Option (Nat × Bool)
  hist : List HistEnt
  epoch : Nat
  gate : GateScan
  wearM : AMap (List (Nat × Nat))
  proj : AMap Nat
  wornOut : List Nat
  unitsDue : List (Nat × NhReq)
  seen : AMap (Nat × Nat)
  deriving DecidableEq, Repr

/-! ## Inspection (10) -/

/-- A virtual channel of a CSI port: frame open, and the embedded line of the frame once received (R224, R228). -/
structure VcState where
  isOpen : Bool
  emb : Option (List Byte)
  deriving DecidableEq, Repr

/-- A segment: the frame in hand (Q_x and bank, R230 and R231; `none` where the frame is discarded), pixel lines of it so
far, whether a line of it did not fit the receive buffer (R226), the short exposure of a pair that waits for the long one, the highest merged line delivered, the bank in use, and the
reflectance lines delivered for merged lines not yet closed (NO_DATA as 0x8000). -/
structure SegState where
  frame : Option (Int × Nat)
  lines : Nat
  lost : Bool
  half : Option (List Nat)
  delivered : Option Nat
  bankUse : Option Nat
  pairs : AMap (List Nat)
  deriving DecidableEq, Repr

/-- A symbol descriptor (R242): the ticket it belongs to (job slot, instance, cell), the box corner (bar position, image
line), the module size in positions and lines, the module grid with its quiet zone, once judged: fails, small,
unread, and the key it is encrypted under (R250; `none` in the clear, with EN = 0). -/
structure SymDesc where
  job : Nat
  inst : Nat
  cell : Nat
  x : Nat
  y : Nat
  mw : Nat
  mh : Nat
  grid : List (List Bool)
  judged : Option (Bool × Bool × Bool)
  key : Option (List Byte)
  deriving DecidableEq, Repr

/-- A payload mask (R151, R249): the bar positions and image lines of a slot box that received a PAYLOAD field, and the key it is encrypted under. -/
structure PayMask where
  x : Nat
  w : Nat
  y : Nat
  h : Nat
  key : Option (List Byte)
  deriving DecidableEq, Repr

/-- A column evidence record (R245); `epoch` is `none` with NOEPOCH. -/
structure EvidRec where
  port : Nat
  pos : Nat
  first : Nat
  last : Nat
  cls : Nat
  epoch : Option Nat
  n : Nat
  m : Nat
  deriving DecidableEq, Repr

/-- The inspection block: virtual channels (8 per port), segments, the DARK, GAIN, CURVE and TONE tables (one map, see
`tabKey`), the accumulator S keyed by 16,384 v + u (R239), the next merged line of the expected image, the inspection key,
symbol descriptors, payload masks, evidence sums (N, D) keyed by window and
position, drops fired as (image line, bar position, 2048 * port + position) for R244, evidence records on their way to NH, the export in progress (next line, end), and when PRINT was left (R248). -/
structure InState where
  vcs : List VcState
  segs : List SegState
  tab : AMap Nat
  s : AMap Nat
  expNext : Nat
  key : Option (List Byte)
  syms : List SymDesc
  masks : List PayMask
  evid : AMap (Nat × Nat)
  shots : List (Nat × Int × Nat)
  evq : List EvidRec
  exporting : Option (Nat × Nat)
  exitAt : Option Nat
  deriving DecidableEq, Repr

/-! ## Loop engine (11) -/

/-- Context states of R263, coded as LE_Cc_STAT.STATE. -/
inductive LoopState where
  | disabled | man | auto | holdout | ramp
  deriving DecidableEq, Repr

/-- A loop context: S0 to S15, Y, the last E, INTEG, OUTV, MODEL (with whether SUP has run since load), Y and OUTV of the
previous committed runs (R267, R268), the counts of R267, R268, R271 and R263, the request not yet in effect, and whether
the next AUTO run presets (R266), and whether a supervision trip took it out of AUTO since AUTO was last entered (R269). -/
structure LoopCtx where
  st : LoopState
  s : List Int
  y : Int
  e : Int
  integ : Int
  outv : Int
  model : Int
  modelSet : Bool
  prevY : Int
  prevOut : Int
  prevOut2 : Int
  outband : Nat
  frozen : Nat
  inband : Nat
  holdRuns : Nat
  req : Option LoopState
  preset : Bool
  tripped : Bool
  deriving DecidableEq, Repr

/-- The loop engine: ticks since BOOT, the 64 contexts, and nozzles driven per bank since the previous loop tick (R260). -/
structure LeState where
  tick : Nat
  ctxs : List LoopCtx
  drops : List Nat
  deriving DecidableEq, Repr

/-! ## Motion (12) -/

/-- Axis states of MO_Aa_STAT.STATE. -/
inductive AxisPhase where
  | disabled | stopped | moving | homing
  deriving DecidableEq, Repr

/-- An axis. Position, velocity and acceleration count 2^-48 microstep (R277). `jm` to `vm` and the currents are those
latched at the start of the move (R276), `target` is `none` for the drive of homing, `tick` counts profile ticks of the
move from `start`; `queued` holds the target and TRIG of a queued move; `backoff` is step 5 of R283; `scanMove` a move of
the NH scan; `endAt` when the last move ended; `va`, `vb` the phase voltages in mV and `da`, `db` the drive times in ns of
the present PWM period (R278); `edges` the times of recent raw transitions of the low and high switch (R282). -/
structure Axis where
  st : AxisPhase
  homed : Bool
  lost : Bool
  p : Int
  v : Int
  a : Int
  jm : Int
  am : Int
  vm : Int
  iRun : Nat
  iHold : Nat
  holdMs : Nat
  start : Int
  target : Option Int
  tick : Nat
  queued : Option (Int × Bool)
  backoff : Bool
  scanMove : Bool
  endAt : Option Nat
  stall : Nat
  va : Int
  vb : Int
  da : Nat
  db : Nat
  limLo : Bool
  limHi : Bool
  edgesLo : List Nat
  edgesHi : List Nat
  back : Bool
  deriving DecidableEq, Repr

/-- The motion block: axes, the axes of the cap sequence still to end (the first is the one in hand) with its
phase (0 to begin, 1 homing, 2 moving), axis compares (target, watched axis), and the last raw motor current readings. -/
structure MoState where
  axes : List Axis
  capSeq : Option (List Nat)
  capPhase : Nat
  cmps : List Cmp
  raw : List Nat
  deriving DecidableEq, Repr

/-! ## Memory fabric and DRAM (13) -/

/-- A transfer (R292): requester and engine lane, address, bursts, direction, data (of a read once it has completed), the cycle
it became pending, whether it has already been reported as starved, the bursts of a read that have arrived, the bursts of a write
admitted so far at least once (R299), and whether it was refused (R293). -/
structure Xfer where
  req : Nat
  lane : Nat
  addr : Nat
  n : Nat
  write : Bool
  data : List Byte
  since : Nat
  starved : Bool
  got : List (Nat × List Byte)
  counted : Nat
  failed : Bool
  deriving DecidableEq, Repr

/-- Counters of a requester at an arbiter (R306), with its last TURN_HINT. -/
structure ArbCnt where
  grant : Nat
  wait : Nat
  maxwait : Nat
  revoked : Nat
  imposed : Nat
  hint : Nat
  waitFrom : Nat
  deriving DecidableEq, Repr

/-- An arbiter: the slot it is in, the table set in force and the one awaited (R304), pending transfers, the panics it last
saw, the occupied run (the transfer, with those of other HSTR lanes that its slots serve; bursts admitted; begun in a floor
slot), the grant decided for the next slot (requester,
lane, floor slot), whether that grant is to a transfer that has completed meanwhile (R297), whether it revokes the run, the
parked queue, the requester last granted a floor slot, whether a floor slot has been passed on (R295), transfers whose bursts
have all been admitted or that were refused, and the last completed transfer. -/
structure ArbState where
  slot : Nat
  set : Nat
  setNext : Option Nat
  pend : List Xfer
  hstrPanic : Bool
  camwPanic : Bool
  run : Option (List Xfer × Nat × Bool)
  grant : Option (Nat × Nat × Bool)
  stale : Bool
  revoke : Bool
  parked : List Nat
  floorLast : Nat
  floorCarry : Bool
  done : List Xfer
  last : Option Xfer
  deriving DecidableEq, Repr

/-- A burst in a read queue (R311): its address, requester and lane, the index of the burst in its transfer, and whether the
transfer still wants it (R300). -/
structure ReadBurst where
  addr : Nat
  req : Nat
  lane : Nat
  idx : Nat
  live : Bool
  deriving DecidableEq, Repr

/-- A DRAM channel: burst addresses in the write queue with their requester, the read queue, whether a drain batch runs, the open row of each
bank (plus 1), refreshes postponed, and a tracking result that waits for the next REFab (R314). -/
structure DramCh where
  wq : List (Nat × Nat)
  rq : List ReadBurst
  drain : Bool
  rows : AMap Nat
  postponed : Nat
  track : Option (Nat × Int)
  deriving DecidableEq, Repr

/-- The fabric: ten arbiters, their counters keyed by 16 * arbiter + requester, the SRAM bytes moved by transfers (key
group * 2^24 + offset), the two DRAM channels, the bursts in the staging buffer of CAMW (R298), and the
private buffers that hold what a requester last read (R307), keyed by 16 * requester + lane. -/
structure MfState where
  arbs : List ArbState
  cnt : AMap ArbCnt
  sram : Mem
  chs : List DramCh
  staged : Nat
  stage : AMap (List Byte)
  deriving DecidableEq, Repr

/-! ## Lanes and links (14) -/

/-- A packet of R327. `auth` is the trailer (AUTH_SEQ, TAG16). `fwd` and `since` are the model's own: whether the packet is
passed on for another sender (R331), and the cycle from which AGE counts (R342). -/
structure Pkt where
  ty : Nat
  flags : Nat
  seq : Nat
  dest : Nat
  src : Nat
  tag : Nat
  status : Nat
  addr : Nat
  len : Nat
  payload : List Byte
  auth : Option (Nat × List Byte)
  fwd : Bool
  since : Nat
  deriving DecidableEq, Repr

/-- A lane: CDR, block and AM lock, AMs good and bad in a row, skew (R322, R323); valid sync headers in a row up to 64, and in block
lock the validity of the last 64 (R322); the receive and transmit scramblers (R320); and the blocks the lane last sent (the model's
own output field). -/
structure LaneState where
  cdr : Bool
  blockLock : Bool
  amLock : Bool
  amGood : Nat
  amBad : Nat
  skew : Nat
  run : Nat
  hist : List Bool
  rxScr : Nat
  txScr : Nat
  wire : List Block
  deriving DecidableEq, Repr

/-- Group states of HL_Gg_STAT.STATE. -/
inductive GroupPhase where
  | disabled | detect | train | negotiate | stepUp | deskew | active
  deriving DecidableEq, Repr

/-- A lane group: bring-up state with the blocks of the present step counted (R325), lanes in force and speed code, the
partner (0 none, 1 HOST, 2 controller), its SPEED_CAP and LOCKED, whether a retrain is in progress, whether the partner has
sent DONE, both SEQ series, the replay buffer oldest first with how often its oldest packet has been resent, credits, packets
waiting to be sent, whether a NAK has been sent for the expected SEQ (R330), latency measurement (tokens sent with their
times, samples, whether it is complete), the packets and block last sent (the model's own output fields), and the number of blocks
sent, which gives the lane of the next one (R321), and the first lane and the configured width it took when it last passed through
DETECT (R318). -/
structure LinkGroup where
  st : GroupPhase
  steps : Nat
  lanes : Nat
  speed : Nat
  partner : Nat
  cap : Nat
  theirs : Nat
  retrain : Bool
  done : Bool
  txSeq : Nat
  rxSeq : Nat
  replay : List Pkt
  resends : Nat
  creditReq : Nat
  creditPri : Nat
  waitq : List Pkt
  nakSent : Bool
  echoSent : List (Nat × Nat)
  echoRt : List Nat
  measured : Bool
  sent : List Pkt
  block : List Byte
  stream : Nat
  base : Nat
  width : Nat
  deriving DecidableEq, Repr

/-- Enumeration in progress (R337): the SIZE and depth answers of DOWN0 and DOWN1 (`none` while awaited). -/
structure EnumState where
  size0 : Option (Nat × Nat)
  size1 : Option (Nat × Nat)
  deriving DecidableEq, Repr

/-- The position source of R346: the last POS (receipt cycle, target, correction, velocity, period). -/
structure RopePos where
  t0 : Nat
  target : Int
  c : Int
  vel : Int
  period : Nat
  deriving DecidableEq, Repr

/-- A request sent to another controller that waits for its RD_CPL (R46, R50, R55): its tag, the UT window it serves, and
whether it belongs to a command (else to a snapshot) with the step it stands for. -/
structure Fwd where
  tag : Nat
  win : Nat
  cmd : Bool
  step : Nat
  chip : Nat
  deriving DecidableEq, Repr

/-- The link block. `fault` lists the sources with a refused DMA_WR not yet reported (R333; 256 is the host), `authSeq` the
last accepted AUTH_SEQ, `rope` the position source of R346, `posAt` the receipt of the last good POS, `posCount` good POS
packets (R368), `lastPos` the WPOS of the last sample (R343), `next` the parent-side values that wait for APPLY_LINE (line,
line delay, subline delay, enable), `fwd` requests that wait for RD_CPL, `nextTag` the next TAG, `token` the next echo token,
`evtAt` when an EVT was last sent, `evtRoot` the ROOT status it carried, `seqHi` HL_AUTH_SEQ_HI as captured, `mspi` the bytes
the last MSPI frame answered with. -/
structure HlState where
  groups : List LinkGroup
  lanes : List LaneState
  enum : Option EnumState
  authSeq : Nat
  seqHi : Nat
  rope : Option RopePos
  posAt : Nat
  posCount : Nat
  lastPos : Nat
  fault : List Nat
  next : Option (Nat × Nat × Nat × Bool)
  fwd : List Fwd
  nextTag : Nat
  token : Nat
  evtAt : Nat
  evtRoot : Nat
  mspi : List Byte
  deriving DecidableEq, Repr


/-! ## Time and network (15) -/

/-- A time domain: its last offset in 1/128 ns with QUAL and the timebase tick it came at, whether it is healthy, and
since when (R366). -/
structure TimeDom where
  ofs : Int
  healthy : Bool
  last : Nat
  since : Nat
  deriving DecidableEq, Repr

/-- An entry of the duplicate table (R358). -/
structure DupEnt where
  mac : Nat
  high : Nat
  window : Nat
  last : Nat
  deriving DecidableEq, Repr

/-- The time block: the timebase of R359 with the seconds and nanoseconds that SET loads on the next TBCLK cycle (R362), whether the servo has run since reset, the servo (BIAS and the last input in
1/16,000 ns, integ in 1/4,096,000 ppb, so that R365 and R367 are exact), domains and DOM, the capture FIFO, ticks that fired a
line, egress timestamps per port as (TAG, timestamp), ring positions with entries sent ahead of their turn, the PRP and
supervision counters, the duplicate table, AUD frames that wait, and the frames last sent per port without FCS (the model's
own output field). `ringDone` is the NET interrupt source of R484: a ring entry has completed. -/
structure TnState where
  sec : Nat
  ns : Nat
  frac : Nat
  load : Option (Nat × Nat)
  ran : Bool
  integ : Int
  bias : Int
  xPrev : Int
  domA : TimeDom
  domB : TimeDom
  dom : Nat
  cap : List (Nat × List Byte)
  tickTs : List Byte
  ticks : Nat
  txts : List (List (Nat × List Byte))
  txPos : Nat
  txAhead : List Nat
  rxPos : Nat
  txRun : Bool
  rxRun : Bool
  prpSeq : Nat
  supSeq : Nat
  dup : List DupEnt
  audq : List (List Byte)
  sent : List (Nat × List Byte)
  ringDone : Bool
  deriving DecidableEq, Repr

/-! ## Audit and security (16) -/

/-- What AU holds of a bar line: CT once composed, CT of zero payloads once left blank (R374), outcome codes of the 64 ports as OUT(L), which of them are decided and
which of them are final (R373, R374; final and not decided where a STATUS frame covered the LAT before the port began the line), and
the banks the bank limit blanked at its last composition (R188). -/
structure BarLine where
  ct : Option Nat
  blank : Option Nat
  out : Nat
  known : Nat
  final : Nat
  limit : Nat
  deriving DecidableEq, Repr

/-- A summit that has closed and is not yet issued (R384, R385): its bytes up to SIG, the cairns of its batch, the SEQ of its
last cairn plus 1, whether a co-sign answer is awaited, and the answer (WIT_ID, signature). -/
structure Summit where
  bytes : List Byte
  cairns : List (List Byte)
  seqEnd : Nat
  waiting : Bool
  answer : Option (List Byte × List Byte)
  deriving DecidableEq, Repr

/-- A LINE record a witness has received (R397, R398): its line and CT, and the cycle it came in. -/
structure WitLine where
  line : Nat
  ct : Nat
  time : Nat
  deriving DecidableEq, Repr

/-- Witness state (R397, R398): LINE records received and not yet compared, lines marked BLANK, the lines compared, each with
whether the tags were equal, the highest line compared, the line of the last mismatch, when the last STATUS came, and the first bar line no summit has reported yet
(R383). -/
structure WitState where
  recv : List WitLine
  blanks : List Nat
  done : List (Nat × Bool)
  compared : Nat
  mismatch : Option Nat
  statusAt : Option Nat
  nextLo : Option Nat
  deriving DecidableEq, Repr

/-- The audit block. `slots` holds key contents by slot, `store` those in the key store in flash with its ZGEN, `eph` the
ephemeral private key with its number and the cycle it was drawn; `tickets` the open-ticket table in issue order; `lines` the
bar lines AU still holds; `tampLevel` the levels of the tamper inputs in the cycle `tampAt` of the last TAMPER; `batch` cairns of the open batch,
`closedAt` the cycle the last one closed; `ringPos` the next unit of the flash ring, `ringSeq` the SEQ of the
record in each unit plus 1, `ringq` records waiting for flash (SEQ and bytes), `ack` the acknowledged SEQ with the upper half
last written, `netq` cairns waiting for a frame, `playRun` PLAY_AUTH failures in a row (R146), `sealed` the
payload slots of the sealed region (R148). -/
structure AuState where
  slots : AMap (List Byte)
  store : AMap (List Byte) × Nat
  eph : Option (List Byte × Nat × Nat)
  ephId : Nat
  pubCtr : Nat
  zgen : Nat
  tampLevel : Nat
  tampAt : Option Nat
  tickets : List Ticket
  lines : AMap BarLine
  seq : Nat
  chain : List Byte
  batch : List (List Byte)
  batchFirst : Nat
  sumSeq : Nat
  sumPrev : List Byte
  sumFirst : Bool
  closedAt : Option Nat
  closing : Option Summit
  ringPos : Nat
  ringSeq : AMap Nat
  ringq : List (Nat × List Byte)
  ringHeld : Bool
  ack : Nat
  ackHi : Nat
  netq : List (List Byte)
  wit : WitState
  playRun : Nat
  sealed : AMap (List Byte)
  deriving DecidableEq, Repr

/-! ## Compression (17) -/

/-- A decompressor job (R403): container and destination addresses, the block in hand, blocks left, the output limit, and
BLOCK_OUT, BLOCK_COUNT and INDEX_OFF of the container. -/
structure DecJob where
  src : Nat
  dst : Nat
  block : Nat
  left : Nat
  limit : Nat
  blockOut : Nat
  blockCount : Nat
  indexOff : Nat
  deriving DecidableEq, Repr

/-- A compressor job: an export (first line, count) or a DRAM range (address, bytes), and its descriptor chain. -/
structure CompJob where
  isExport : Bool
  src : Nat
  len : Nat
  desc : Nat
  deriving DecidableEq, Repr

/-- The compression block: four decompressors, the compressor, and an export that waits for it (R410). -/
structure CzState where
  dec : List (Option DecJob)
  comp : Option CompJob
  waitExport : Option CompJob
  deriving DecidableEq, Repr

/-! ## Boot and field update (18) -/

/-- Base camp states of R423. -/
inductive CampState where
  | empty | manifest | data | ready | armed | rejected
  deriving DecidableEq, Repr

/-- A boot log record (R417). FLAGS: bit 0 ARMED, bit 1 REJECTED, bit 2 PREV_VALID. -/
structure BootLog where
  gen : Nat
  phase : Nat
  tries : Nat
  flags : Nat
  floor : Nat
  id : Nat
  deriving DecidableEq, Repr

/-- The boot block: the directory regions read at BOOT (offset and size of ACTIVE, PREVIOUS, BASE_CAMP, SETTINGS_A,
SETTINGS_B, NOZZLE_HIST, AUDIT_RING), STATE of BU_BOOT_STAT, the boot log in force with its offset in the log, base camp,
the cycle of entry to IDLE, the piece buffer, FW_MEAS and M, the copy of the settings set selected at BOOT, whether the
application cores run, and the core code copied in step 6 (LOAD, ENTRY, bytes). -/
structure BuState where
  regions : List (Nat × Nat)
  bootState : Nat
  xspiMhz : Nat
  log : BootLog
  logAt : Option Nat
  camp : CampState
  campId : Nat
  idleAt : Nat
  buf : AMap Word
  fwMeas : List Byte
  m : List Byte
  setCopy : Option Nat
  coresReleased : Bool
  code : List (Nat × Nat × List Byte)
  reload : Reload
  deriving DecidableEq, Repr

/-! ## Faults and events (19), modes and clocks -/

/-- One occurrence of an event (R443): its code, class, unit, DETAIL and timestamp, whether its class was given with a
higher class than its minimum (GATE_CUT, TICKET_UNVER), and the event map's interrupt line and flags. -/
structure Occ where
  id : Nat
  cls : Nat
  unit : Nat
  detail : Nat
  ts : Stamp
  irq : Option Nat
  csr : Bool
  deriving DecidableEq, Repr

/-- An entry of the error queue (R444). -/
structure QEntry where
  seq : Nat
  id : Nat
  cls : Nat
  irq : Option Nat
  unit : Nat
  chip : Bool
  detail : Nat
  ts : Stamp
  rep : Nat
  deriving DecidableEq, Repr

/-- An event that arose in BOOT, held until IDLE (R437): code, minimum class, default unit and DETAIL. -/
structure HeldEvent where
  id : Nat
  cls : Nat
  unit : Nat
  detail : Nat
  deriving DecidableEq, Repr

/-- What an access can wait for: a domain whose clock can stop (19, Stopped clocks), the snapshot of a UT window (R55), or,
for a packet, the earlier packets of its source (R332). -/
inductive Domain where
  | lane (k : Nat) | csi (n : Nat) | eth | dram | snap (w : Nat) | turn
  deriving DecidableEq, Repr

/-- A series of accesses of a link packet, or of an MSPI frame where there is none (R333, R349): words still to write, the
number of words, the next one and the bytes read. -/
structure Series where
  pkt : Option Pkt
  write : Bool
  master : Nat
  addr : Nat
  data : List Word
  count : Nat
  i : Nat
  got : List Byte
  deriving DecidableEq, Repr

/-- An access that waits on a stopped clock (R458), with the series it belongs to where it came over a link or MSPI. -/
structure WaitAccess where
  dom : Domain
  master : Nat
  addr : Nat
  data : Option Word
  start : Nat
  series : Option Series
  deriving DecidableEq, Repr

/-- The fault block: source buffers (R443), events held in BOOT (R437), the queue, its head first (R444), event counters, the SAFE
latch of ROOT (R41), the ports whose head is to be replaced (R218), the times of gate changes (R460), the accesses that wait and the
domains whose crossing is in reset (R457, R458), and until when each relay is busy (R454). -/
structure FlState where
  bufs : List Occ
  held : List HeldEvent
  queue : List QEntry
  nextSeq : Nat
  overflow : Bool
  evcnt : AMap Nat
  safe : Bool
  hrr : Nat
  gateTimes : AMap (List Nat)
  waits : List WaitAccess
  resetDomains : List Domain
  relays : AMap Nat
  deriving DecidableEq, Repr

/-- A mode transition in progress (R30): its target and the cycle it was accepted on. -/
structure Transition where
  target : Mode
  since : Nat
  deriving DecidableEq, Repr

/-- Mode logic, resets and clocks: the mode, the transition in progress, whether a reset is being held, a requested reset
that waits (its cause), supervised clocks (R460, R461) and VDDIO5 (R492), whether VDDIO0 is above 1.95 V (R498), the SWI flags of R484, and the HOLD and the
zeroize that an event raised in the command in hand calls for (both false between commands). -/
structure SysState where
  mode : Mode
  trans : Option Transition
  inReset : Bool
  pendingReset : Option Nat
  refOk : Bool
  hlrefOk : Bool
  onOsc : Bool
  pllLock : Nat
  coreVsel : Nat
  stopped : List Domain
  vddio5Low : Bool
  io0High : Bool
  swi : Nat
  holdDue : Bool
  zeroDue : Bool
  safeDue : Bool
  deriving DecidableEq, Repr

/-! ## Analog sense (20) -/

/-- A supply channel: corrections, last code, consecutive delivered values outside and inside the range with whether the
check is armed (R469). -/
structure SupplyCh where
  off : Int
  gcal : Nat
  calok : Bool
  code : Nat
  outside : Nat
  inside : Nat
  armed : Bool
  deriving DecidableEq, Repr

/-- A calibration in progress (R471): channel, step, rounds still to elapse, results collected from the channel
and from the spare (in mV; zero and reference codes in steps 4 and 5), OFF' and GCAL', and whether step 9 follows a failure. -/
structure Cal where
  ch : Nat
  step : Nat
  wait : Nat
  own : List Int
  spare : List Int
  off : Int
  gcal : Nat
  failed : Bool
  deriving DecidableEq, Repr

/-- The analog sense block: slot of the round, its channels, the calibration in progress and the channels of the pass
still to come, when the last pass began, whether a source change waits for a tick (step 3, 8 or 9), and the last beam crossings. -/
structure AnState where
  slot : Nat
  chs : List SupplyCh
  cal : Option Cal
  pass : List Nat
  passAt : Nat
  applyAt : Bool
  cross : List (Option Nat)
  deriving DecidableEq, Repr

/-! ## Test (23) -/

/-- A loop-back in progress: interface, depth, instance, whether it belongs to the self-test (its item), and when it began. -/
structure TestRun where
  ifc : Nat
  depth : Nat
  inst : Nat
  item : Option Nat
  since : Nat
  deriving DecidableEq, Repr

/-- The test block: the loop-back in progress, items of the self-test still to run as (item, instance), whether the self-test
runs, whether the encoder of an ENC loop faulted, the bits compared, the instruction the TAP holds and whether TRST_N holds it in
reset. -/
structure TsState where
  run : Option TestRun
  todo : List (Nat × Nat)
  selfRun : Bool
  encErr : Bool
  bits : Nat
  tap : Nat
  tapReset : Bool
  deriving DecidableEq, Repr

/-- The completion a bus access ends with: its master, the data read, and whether it ended with an error or by the
watchdog (R458, R480). The model's own output field. -/
structure Completion where
  master : Nat
  data : Word
  error : Bool
  timeout : Bool
  deriving DecidableEq, Repr

/-- The machine. `pending` is the queue of commands that wait, `now` the SYSCLK cycle (1 ns, R9), `free` the index of the
next value the spec leaves open (the model's own counter, log entry 4). -/
structure State where
  pending : List Instr
  now : Nat
  free : Nat
  bus : Completion
  regs : AMap Word
  dram : Mem
  flash : Mem
  sys : SysState
  ut : UtState
  si : Structure
  wp : WpState
  js : JsState
  bu : BuState
  fl : FlState
  hp : HpState
  nh : NhState
  inn : InState
  le : LeState
  mo : MoState
  mf : MfState
  hl : HlState
  tn : TnState
  au : AuState
  cz : CzState
  an : AnState
  ts : TsState
  deriving DecidableEq, Repr

/-- Faults: none. The spec gives every command an effect, an error completion or a refusal of its own that the machine goes on
from, so no command stops it. -/
inductive Fault where
  deriving DecidableEq, Repr

/-- Refusals. -/
inductive Refusal where
  /-- Raised by an arm of `exec` for a command the model does not cover; safe: the machine stops where the controller goes
  on. No command is in this case. -/
  | notModelled (mnemonic : String)
  deriving DecidableEq, Repr

/-! ## Power-on reset (21, R482) -/

/-- Before a structure image is loaded the tree is ROOT alone. -/
def Structure.reset : Structure :=
  { loaded := false, testEn := false, treeDepth := 0, nodes := [⟨0, 0, 0xFFFFFF⟩], ports := List.replicate 64 ⟨0, 0⟩,
    banks := List.replicate 16 ⟨0, 0, 0, 0, 0⟩, progs := [], code := [], ctxs := List.replicate 64 ⟨false, 0, 0, 0, 0, 0, 0⟩,
    params := [], slots := [], gating := [], events := [],
    limits := ⟨1, 0, 0, 0, 0, 0, 0, 0, false, 0, 0, 0, 65536⟩, waves := [] }

/-- No reload. -/
def Reload.reset : Reload :=
  { state := .idle, err := 0, failSection := 0, root := 0, addr := 0, size := 0, shadow := none, shadowOwn := [],
    digest := [], actLine := 0, inPrint := false, reached := false, paramsWere := none }

/-- A feedback channel before any edge. -/
def EncCh.reset : EncCh :=
  { a := false, b := false, z := false, edgeA := none, edgeB := none, edgeZ := none, cnt := 0, rev := 0, dirRev := false,
    runNeg := false, runLen := 0, sinceIdx := 0, idxSeen := false, idxMissed := false, zlatch := false, ssiActive := false, ssiFrom := 0,
    ssiV := none, ssiMiss := 0, ssiEnd := 0, owed := 0, owedNext := 0 }

/-- The web position block at reset. -/
def WpState.reset : WpState :=
  { ch0 := EncCh.reset, ch1 := EncCh.reset, src := 0, arm := none, pos := 0, hwm := 0, tickAt := none, lastTick := none, lastFire := none,
    period := 0, pNext := 0, ticking := none, holdLine := 0, backup := false, pinLow := false, pinSince := none,
    backupCnt := 0, ticksIdle := 0, cmps := List.replicate 8 ⟨false, 0, 0, 0⟩, pt0 := ⟨0, none, false⟩,
    pt1 := ⟨0, none, false⟩ }

/-- An empty job slot. -/
def JobSlot.reset : JobSlot :=
  { phase := .empty, err := 0, raster := false, tileBufs := 0, jobId := 0, jobStart := 0, planeMap := 0, ringAddr := 0,
    ringSize := 0, tileAddr := 0, tileSize := 0, rasterAddr := 0, rasterLines := 0, imp := ⟨[], [], [], 0⟩, rp := 0, wp := 0,
    nextInst := 0, rendering := none, released := 0, stopped := false, endInst := none, tileKey := none, rasterWp := 0,
    rasterFill := 0, discard := 0 }

/-- The job stream block at reset: every job and plate slot is EMPTY (R482). -/
def JsState.reset : JsState :=
  { job0 := JobSlot.reset, job1 := JobSlot.reset, plates := List.replicate 16 ⟨.empty, 0⟩, cur := none, next := none,
    lring := [], slices := [], lead := [] }

/-- A bank at reset: nothing shifted, latched or warmed yet. -/
def BankState.reset : BankState :=
  { shifting := none, waiting := none, latAt := none, latLine := none, latTick := none, warmAt := 0, par := false }

/-- A head port at reset: ABSENT. -/
def HeadPort.reset : HeadPort :=
  { st := .absent, identValid := false, headType := 0, rev := 0, serial := 0, parEcho := false, cfgOk := false, temp := none, prevTemp := none,
    staleAt := 0, lats := [], lastPar := none, fifo := [], shifted := none, latched := none, pulses := [], freeze := [], warmWas := none, waveEnd := 0, cfgDue := false,
    identReq := false, cfgFails := 0, hot := false, derating := false, bankFault := false, spit := none, spitM := 0, spitAt := 0, spitBlank := false,
    decapAt := 0 }

/-- The head port block at reset. -/
def HpState.reset : HpState :=
  { ports := List.replicate 64 HeadPort.reset, banks := List.replicate 16 BankState.reset, gateLevel := 0,
    cut := 0, composing := none }

/-- The unit tree block at reset. -/
def UtState.reset : UtState := { own := [], dyn := [], chips := [], cmd := none, snapWait := [], parent := ⟨true, 0, 0⟩ }

/-- The boot block at reset. -/
def BuState.reset : BuState :=
  { regions := [], bootState := 0, xspiMhz := 0, log := ⟨0, 0, 0, 0, 0, 0⟩, logAt := none, camp := .empty, campId := 0, idleAt := 0, buf := [],
    fwMeas := List.replicate 48 0, m := List.replicate 48 0, setCopy := none, coresReleased := false, code := [],
    reload := Reload.reset }

/-- The fault block at reset: the queue is empty and the first entry gets SEQ 1 (R444). -/
def FlState.reset : FlState :=
  { bufs := [], held := [], queue := [], nextSeq := 1, overflow := false, evcnt := [], safe := false, hrr := 0,
    gateTimes := [], waits := [], resetDomains := [], relays := [] }

/-- Mode logic at reset: BOOT, clocks running, the DRAM clock not yet trained and no sensor clock seen (R458). -/
def SysState.reset : SysState :=
  { mode := .boot, trans := none, inReset := false, pendingReset := none, refOk := true, hlrefOk := true, onOsc := false,
    pllLock := 15, coreVsel := 16, stopped := [.csi 0, .csi 1, .dram], vddio5Low := false, io0High := false, swi := 0, holdDue := false,
    zeroDue := false, safeDue := false }

/-- Nozzle health at reset: power-on records, epoch 0 with the one history entry of position 0 (R198, R209). -/
def NhState.reset : NhState :=
  { recs := [], acc := [], idle := [], lines := [], mapNew := [], mapAt := 0, mapOld := none, queue := [], staging := none,
    hist := [⟨0, 0, 0⟩], epoch := 0, gate := ⟨0, 0, 0, [], 0, 0, 0, 0, [], []⟩, wearM := [],
    proj := [], wornOut := [], unitsDue := [], seen := [] }

/-- Inspection at reset. -/
def InState.reset : InState :=
  { vcs := List.replicate 16 ⟨false, none⟩, segs := List.replicate 16 ⟨none, 0, false, none, none, none, []⟩, tab := [], s := [],
    expNext := 0, key := none, syms := [], masks := [], evid := [], shots := [], evq := [], exporting := none, exitAt := none }

/-- A loop context at reset: DISABLED, all state words 0 (R263). -/
def LoopCtx.reset : LoopCtx :=
  { st := .disabled, s := List.replicate 16 0, y := 0, e := 0, integ := 0, outv := 0, model := 0, modelSet := false,
    prevY := 0, prevOut := 0, prevOut2 := 0, outband := 0, frozen := 0, inband := 0, holdRuns := 0, req := none,
    preset := false, tripped := false }

/-- An axis at reset: DISABLED and LOST (R274). -/
def Axis.reset : Axis :=
  { st := .disabled, homed := false, lost := true, p := 0, v := 0, a := 0, jm := 0, am := 0, vm := 0, iRun := 0, iHold := 0,
    holdMs := 0, start := 0, target := none, tick := 0, queued := none, backoff := false, scanMove := false, endAt := none,
    stall := 0, va := 0, vb := 0, da := 0, db := 0, limLo := false, limHi := false, edgesLo := [], edgesHi := [],
    back := false }

/-- Motion at reset. -/
def MoState.reset : MoState :=
  { axes := List.replicate 4 Axis.reset, capSeq := none, capPhase := 0, cmps := List.replicate 8 ⟨false, 0, 0, 0⟩,
    raw := List.replicate 8 0 }

/-- An arbiter at reset: table set 1 in force (MF_SET). -/
def ArbState.reset : ArbState :=
  { slot := 0, set := 1, setNext := none, pend := [], hstrPanic := false, camwPanic := false, run := none, grant := none,
    stale := false, revoke := false, parked := [], floorLast := 0, floorCarry := false, done := [], last := none }

/-- The fabric at reset. -/
def MfState.reset : MfState :=
  { arbs := List.replicate 10 ArbState.reset, cnt := [], sram := [], chs := List.replicate 2 ⟨[], [], false, [], 0, none⟩,
    staged := 0, stage := [] }

/-- A lane that has received nothing. -/
def LaneState.reset : LaneState :=
  { cdr := false, blockLock := false, amLock := false, amGood := 0, amBad := 0, skew := 0, run := 0, hist := [], rxScr := 0, txScr := 0,
    wire := [] }

/-- A lane group at reset. -/
def LinkGroup.reset : LinkGroup :=
  { st := .disabled, steps := 0, lanes := 0, speed := 0, partner := 0, cap := 0, theirs := 0, retrain := false, done := false,
    txSeq := 0, rxSeq := 0, replay := [], resends := 0, creditReq := 0, creditPri := 0, waitq := [], nakSent := false,
    echoSent := [], echoRt := [], measured := false, sent := [], block := [], stream := 0, base := 0, width := 0 }

/-- The links at reset: UP has its reset width of four lanes and starts at DETECT (HL_CFG, R325). -/
def HlState.reset : HlState :=
  { groups := [{ LinkGroup.reset with st := .detect, width := 4 }, { LinkGroup.reset with base := 4 }, { LinkGroup.reset with base := 4 }],
    lanes := List.replicate 8 LaneState.reset, enum := none, authSeq := 0, seqHi := 0, rope := none, posAt := 0,
    posCount := 0, lastPos := 0, fault := [], next := none, fwd := [], nextTag := 0, token := 0, evtAt := 0, evtRoot := 0,
    mspi := [] }

/-- Time and network at reset: DOM free-running (TN_STAT). -/
def TnState.reset : TnState :=
  { sec := 0, ns := 0, frac := 0, load := none, ran := false, integ := 0, bias := 0, xPrev := 0, domA := ⟨0, false, 0, 0⟩, domB := ⟨0, false, 0, 0⟩,
    dom := 2, cap := [], tickTs := List.replicate 12 0, ticks := 0, txts := [[], []], txPos := 0, txAhead := [], rxPos := 0, txRun := false,
    rxRun := true, prpSeq := 0, supSeq := 0, dup := [], audq := [], sent := [], ringDone := false }

/-- Audit and security at reset: no key before BOOT loads the key store. -/
def AuState.reset : AuState :=
  { slots := [], store := ([], 0), eph := none, ephId := 0, pubCtr := 0, zgen := 0, tampLevel := 0, tampAt := none, tickets := [], lines := [], seq := 0,
    chain := List.replicate 16 0, batch := [], batchFirst := 0, sumSeq := 0, sumPrev := List.replicate 48 0, sumFirst := true,
    closedAt := none, closing := none, ringPos := 0, ringSeq := [], ringq := [], ringHeld := false, ack := 0, ackHi := 0, netq := [],
    wit := ⟨[], [], [], 0, none, none, none⟩, playRun := 0, sealed := [] }

/-- A supply channel at reset: OFF 0 and GCAL 1,250,000, not calibrated (R470). -/
def SupplyCh.reset : SupplyCh := ⟨0, 1250000, false, 0, 0, 0, true⟩

/-- Right after power-on reset: BOOT, every register at the value of its heading, no command waiting (R482). -/
def State.reset : State :=
  { pending := [], now := 0, free := 0, bus := ⟨0, 0, false, false⟩, regs := [], dram := [], flash := [],
    sys := SysState.reset, ut := UtState.reset, si := Structure.reset, wp := WpState.reset, js := JsState.reset,
    bu := BuState.reset, fl := FlState.reset, hp := HpState.reset, nh := NhState.reset, inn := InState.reset,
    le := ⟨0, List.replicate 64 LoopCtx.reset, List.replicate 16 0⟩, mo := MoState.reset, mf := MfState.reset,
    hl := HlState.reset, tn := TnState.reset, au := AuState.reset, cz := ⟨[none, none, none, none], none, none⟩,
    an := ⟨0, List.replicate 17 SupplyCh.reset, none, [], 0, false, [none, none]⟩, ts := ⟨none, [], false, false, 0, 1, true⟩ }

end Sys2Proof.Machine
end

