-- ==== Sys2Proof/Machine/Ops.lean ====
section
/-! DEFINITION. The named operations over registers and memories. A register lives in `regs` at its address; an unlisted
address reads as the reset value of its heading. Fields are read and written through `fld` and `setFld`, flags and
saturating counters through `flag` and `bump`; DRAM and flash through byte operations. -/

namespace Sys2Proof.Machine

/-- The rows of a block, by bits [31:16] of the address (R478). -/
def blockRows : Nat → List RegRow
  | 0x00 => regsSYS
  | 0x01 => regsUT
  | 0x02 => regsWP
  | 0x03 => regsJS
  | 0x04 => regsHP
  | 0x05 => regsFE
  | 0x06 => regsNH
  | 0x07 => regsIN
  | 0x08 => regsLE
  | 0x09 => regsMO
  | 0x0A => regsMF
  | 0x0B => regsDC
  | 0x0C => regsHL
  | 0x0D => regsTN
  | 0x0E => regsAU
  | 0x0F => regsCZ
  | 0x10 => regsBU
  | 0x11 => regsFL
  | 0x12 => regsAN
  | 0x13 => regsTS
  | _ => []

/-- The index of an address among the registers of a heading, indices flattened in their order. -/
def RegRow.index? (r : RegRow) (a : Nat) : Option Nat :=
  match r.dims with
  | [] => if a = r.base then some 0 else none
  | [(n, s)] =>
    if r.base ≤ a && (a - r.base) % s = 0 && (a - r.base) / s < n then some ((a - r.base) / s) else none
  | (n, s) :: (m, t) :: _ =>
    let i := (a - r.base) / s
    let k := (a - r.base) % s
    if r.base ≤ a && i < n && k % t = 0 && k / t < m then some (i * m + k / t) else none

/-- The heading an address belongs to, with its index. -/
def findRow : List RegRow → Nat → Option (RegRow × Nat)
  | [], _ => none
  | r :: rs, a =>
    match r.index? a with
    | some i => some (r, i)
    | none => findRow rs a

/-- The register at an address, if a chapter defines one. -/
def findReg (a : Nat) : Option (RegRow × Nat) := findRow (blockRows (a / 0x10000)) a

/-- What a register reads as after power-on reset: the reset value of its heading; 0 at an undefined offset (R480). -/
def regReset (a : Nat) : Word :=
  match findReg a with
  | some (r, i) => BitVec.ofNat 32 (r.resets.getD (i % r.resets.length) 0)
  | none => 0#32

/-- The word a register holds. -/
def State.rd (s : State) (a : Nat) : Word := AMap.get regReset s.regs a

/-- A register set to a word. -/
def State.wr (s : State) (a : Nat) (w : Word) : State := { s with regs := AMap.set regReset s.regs a w }

/-- The value of a field. -/
def State.fld (s : State) (a : Nat) (f : BitField) : Nat := f.get (s.rd a)

/-- A field set to a value. -/
def State.setFld (s : State) (a : Nat) (f : BitField) (v : Nat) : State := s.wr a (f.put (s.rd a) v)

/-- Whether a one-bit field is set. -/
def State.isSet (s : State) (a : Nat) (f : BitField) : Bool := s.fld a f ≠ 0

/-- A flag latched. -/
def State.flag (s : State) (a : Nat) (f : BitField) : State := s.setFld a f 1

/-- A flag latched where a condition holds. -/
def State.flagIf (s : State) (c : Bool) (a : Nat) (f : BitField) : State := if c then s.flag a f else s

/-- A counter advanced by `n`, saturating at the field's largest value. -/
def State.bump (s : State) (a : Nat) (f : BitField) (n : Nat := 1) : State :=
  s.setFld a f (min f.top (s.fld a f + n))

/-- A field raised to a larger value, as the largest-since-last-read fields keep it. -/
def State.raiseTo (s : State) (a : Nat) (f : BitField) (v : Nat) : State :=
  s.setFld a f (max (s.fld a f) (min f.top v))

/-- The word of a register as a whole number, and as a signed value. -/
def State.rdN (s : State) (a : Nat) : Nat := (s.rd a).toNat

/-- A whole register set to a number, modulo 2^32. -/
def State.wrN (s : State) (a v : Nat) : State := s.wr a (BitVec.ofNat 32 v)

/-- A field read as a two's-complement value. -/
def State.fldI (s : State) (a : Nat) (f : BitField) : Int := toSigned (f.hi + 1 - f.lo) (s.fld a f)

/-- Bit `i` of a field set, as a mask of flags keeps them. -/
def State.setBit (s : State) (a : Nat) (f : BitField) (i : Nat) : State := s.setFld a f (s.fld a f ||| 2 ^ i)

/-- What DRAM reads as where nothing has been written (log entry 2). -/
def dramDefault : Byte := 0#8

/-- What flash reads as where nothing has been programmed: erased (log entry 2). -/
def flashDefault : Byte := 0xFF#8

/-- `n` bytes of DRAM. -/
def State.dramRead (s : State) (a n : Nat) : List Byte := Mem.bytes dramDefault s.dram a n

/-- Bytes written to DRAM. -/
def State.dramWrite (s : State) (a : Nat) (bs : List Byte) : State := { s with dram := Mem.put dramDefault s.dram a bs }

/-- `n` bytes of flash. -/
def State.flashRead (s : State) (a n : Nat) : List Byte := Mem.bytes flashDefault s.flash a n

/-- Flash bytes programmed: bits are only cleared (R424). -/
def State.flashProgram (s : State) (a : Nat) (bs : List Byte) : State :=
  { s with flash := Mem.put flashDefault s.flash a (((s.flashRead a bs.length).zip bs).map fun p => p.1 &&& p.2) }

/-- Flash bytes from `a` to `a + n - 1` erased. -/
def State.flashErase (s : State) (a n : Nat) : State :=
  { s with flash := s.flash.filter fun c => !(a ≤ c.1 && c.1 < a + n) }

/-- The next value the spec leaves open, and the state that has drawn it (log entry 4). -/
def State.drawFree (s : State) : Nat × State := ((Config.freeValue s.free).toNat, { s with free := s.free + 1 })

/-- The next draw of the random source, `n` bytes of it (log entry 5). -/
def State.drawRandom (s : State) (n : Nat) : List Byte × State :=
  (leBytes n (Config.draw s.free).toNat, { s with free := s.free + 1 })

/-- The pins and registers of an index range folded over a state. -/
def forEach {α : Type} (l : List α) (f : State → α → State) (s : State) : State := l.foldl f s

/-- Modes by their code (R433). -/
def Mode.code : Mode → Nat
  | .boot => 0 | .idle => 1 | .warm => 2 | .print => 3 | .service => 4 | .hold => 5 | .test => 6

/-- The mode of a code. -/
def Mode.ofCode : Nat → Option Mode
  | 0 => some .boot | 1 => some .idle | 2 => some .warm | 3 => some .print | 4 => some .service | 5 => some .hold
  | 6 => some .test | _ => none

/-- The mode in force. -/
def State.mode (s : State) : Mode := s.sys.mode

end Sys2Proof.Machine
end

