-- ==== Sys2Proof/Machine/EventTable.lean ====
section
/-! DEFINITION. Event codes (R438): one table per raising block, codes counted from 0 in the order the events are named, each
with its minimum class (0 INFO, 1 WARN, 2 VOID, 3 HOLD, 4 SAFE). -/

namespace Sys2Proof.Machine

namespace Ev

/-- Event 0 of R95. -/
def ENC_WIRE : Nat := 0x0200
/-- Event 1 of R95. -/
def ENC_ILLEGAL : Nat := 0x0201
/-- Event 2 of R95. -/
def ENC_OVERRATE : Nat := 0x0202
/-- Event 3 of R95. -/
def SSI_PARITY : Nat := 0x0203
/-- Event 4 of R95. -/
def SSI_LOST : Nat := 0x0204
/-- Event 5 of R95. -/
def SSI_JUMP : Nat := 0x0205
/-- Event 6 of R95. -/
def INDEX_ERR : Nat := 0x0206
/-- Event 7 of R95. -/
def INDEX_MISSING : Nat := 0x0207
/-- Event 8 of R95. -/
def WP_RANGE : Nat := 0x0208
/-- Event 9 of R95. -/
def DIR_CHG : Nat := 0x0209
/-- Event 10 of R95. -/
def LINE_RATE_HIGH : Nat := 0x020A
/-- Event 11 of R95. -/
def LINE_MISSED : Nat := 0x020B
/-- Event 12 of R95. -/
def OVERSPEED : Nat := 0x020C
/-- Event 13 of R95. -/
def BACKUP_TIMEOUT : Nat := 0x020D
/-- Event 14 of R95. -/
def COMPARE_BEHIND : Nat := 0x020E
/-- Event 15 of R95. -/
def PT_LAG : Nat := 0x020F
/-- Event 0 of R127. -/
def LINE_LATE : Nat := 0x0300
/-- Event 1 of R127. -/
def RECORD_BAD : Nat := 0x0301
/-- Event 2 of R127. -/
def RECORD_ORDER : Nat := 0x0302
/-- Event 3 of R127. -/
def RASTER_ORDER : Nat := 0x0303
/-- Event 4 of R127. -/
def ARM_REFUSED : Nat := 0x0304
/-- Event 5 of R127. -/
def LOAD_REFUSED : Nat := 0x0305
/-- Event 0 of R178. -/
def GATE_CUT : Nat := 0x0400
/-- Event 1 of R178. -/
def HEAD_CRC : Nat := 0x0401
/-- Event 2 of R178. -/
def HEAD_SEQ : Nat := 0x0402
/-- Event 3 of R178. -/
def HEAD_LOST : Nat := 0x0403
/-- Event 4 of R178. -/
def HEAD_CFG : Nat := 0x0404
/-- Event 5 of R178. -/
def HEAD_MISMATCH : Nat := 0x0405
/-- Event 6 of R178. -/
def HEAD_INSERT : Nat := 0x0406
/-- Event 7 of R178. -/
def RET_FRAME : Nat := 0x0407
/-- Event 0 of R197. -/
def BANK_LIMIT : Nat := 0x0500
/-- Event 1 of R197. -/
def HEAD_HOT : Nat := 0x0501
/-- Event 2 of R197. -/
def HEAD_DERATE : Nat := 0x0502
/-- Event 3 of R197. -/
def WIDTH_CLAMP : Nat := 0x0503
/-- Event 4 of R197. -/
def VH_RANGE : Nat := 0x0504
/-- Event 0 of R221. -/
def NOZZLE_STATE : Nat := 0x0600
/-- Event 1 of R221. -/
def HEAD_REPLACE : Nat := 0x0601
/-- Event 2 of R221. -/
def NQ_FULL : Nat := 0x0602
/-- Event 3 of R221. -/
def EVID_STALE : Nat := 0x0603
/-- Event 4 of R221. -/
def GATE_ABORT : Nat := 0x0604
/-- Event 5 of R221. -/
def DECAP_DUE : Nat := 0x0605
/-- Event 6 of R221. -/
def DECAP_RISK : Nat := 0x0606
/-- Event 7 of R221. -/
def HEAD_NEW : Nat := 0x0607
/-- Event 0 of R253. -/
def FRAME_LEN : Nat := 0x0700
/-- Event 1 of R253. -/
def LINE_LEN : Nat := 0x0701
/-- Event 2 of R253. -/
def CSI_ECC : Nat := 0x0702
/-- Event 3 of R253. -/
def CSI_CRC : Nat := 0x0703
/-- Event 4 of R253. -/
def PARAM_MISS : Nat := 0x0704
/-- Event 5 of R253. -/
def META_MISS : Nat := 0x0705
/-- Event 6 of R253. -/
def RX_OVERFLOW : Nat := 0x0706
/-- Event 7 of R253. -/
def SEG_LATE : Nat := 0x0707
/-- Event 8 of R253. -/
def INSPECT_VOID : Nat := 0x0708
/-- Event 9 of R253. -/
def TICKET_UNVER : Nat := 0x0709
/-- Event 10 of R253. -/
def EN_REFUSED : Nat := 0x070A
/-- Event 0 of R273. -/
def LOOP_LATE : Nat := 0x0800
/-- Event 1 of R273. -/
def LOOP_FAULT : Nat := 0x0801
/-- Event 2 of R273. -/
def LOOP_IMPLAUSIBLE : Nat := 0x0802
/-- Event 3 of R273. -/
def LOOP_FROZEN : Nat := 0x0803
/-- Event 4 of R273. -/
def LOOP_AT_SAFE : Nat := 0x0804
/-- Event 0 of R289. -/
def MO_STALL : Nat := 0x0900
/-- Event 1 of R289. -/
def MO_LIMIT : Nat := 0x0901
/-- Event 2 of R289. -/
def MO_HOMING_FAULT : Nat := 0x0902
/-- Event 3 of R289. -/
def MO_CHATTER : Nat := 0x0903
/-- Event 4 of R289. -/
def MO_CAP_FAIL : Nat := 0x0904
/-- Event 5 of R289. -/
def MO_CMP_HIT : Nat := 0x0905
/-- Event 0 of R317. -/
def FABRIC_CYCLE : Nat := 0x0A00
/-- Event 1 of R317. -/
def FABRIC_STARVE : Nat := 0x0A01
/-- Event 2 of R317. -/
def FABRIC_REFUSED : Nat := 0x0A02
/-- Event 3 of R317. -/
def PARK_FULL : Nat := 0x0A03
/-- Event 4 of R317. -/
def REFRESH_FORCED : Nat := 0x0A04
/-- Event 5 of R317. -/
def DRAM_HOT : Nat := 0x0A05
/-- Event 6 of R317. -/
def DRAM_DRIFT : Nat := 0x0A06
/-- Event 0 of R351. -/
def LINK_DOWN : Nat := 0x0C00
/-- Event 1 of R351. -/
def LINK_RETRAIN : Nat := 0x0C01
/-- Event 2 of R351. -/
def LINK_NARROW : Nat := 0x0C02
/-- Event 3 of R351. -/
def LINK_SLOW : Nat := 0x0C03
/-- Event 4 of R351. -/
def POS_LOST : Nat := 0x0C04
/-- Event 5 of R351. -/
def POS_JUMP : Nat := 0x0C05
/-- Event 6 of R351. -/
def ENUM_FAIL : Nat := 0x0C06
/-- Event 7 of R351. -/
def LINK_AUTH : Nat := 0x0C07
/-- Event 8 of R351. -/
def DMA_REFUSED : Nat := 0x0C08
/-- Event 9 of R351. -/
def NOROUTE : Nat := 0x0C09
/-- Event 10 of R351. -/
def MSPI_ERR : Nat := 0x0C0A
/-- Event 0 of R372. -/
def DOMAIN_SWITCH : Nat := 0x0D00
/-- Event 1 of R372. -/
def DOMAIN_REVERT : Nat := 0x0D01
/-- Event 2 of R372. -/
def TIME_HOLDOVER : Nat := 0x0D02
/-- Event 3 of R372. -/
def TIME_STEP : Nat := 0x0D03
/-- Event 4 of R372. -/
def SERVO_LIMIT : Nat := 0x0D04
/-- Event 5 of R372. -/
def ETH_LINK : Nat := 0x0D05
/-- Event 6 of R372. -/
def PRP_WRONG_LAN : Nat := 0x0D06
/-- Event 7 of R372. -/
def TS_LOST : Nat := 0x0D07
/-- Event 0 of R400. -/
def WITNESS_MISMATCH : Nat := 0x0E00
/-- Event 1 of R400. -/
def WITNESS_LOST : Nat := 0x0E01
/-- Event 2 of R400. -/
def TAMPER : Nat := 0x0E02
/-- Event 3 of R400. -/
def KEY_ZEROIZED : Nat := 0x0E03
/-- Event 4 of R400. -/
def AUDIT_RING_WARN : Nat := 0x0E04
/-- Event 5 of R400. -/
def AUDIT_RING_FULL : Nat := 0x0E05
/-- Event 6 of R400. -/
def AUDIT_FLASH_ERR : Nat := 0x0E06
/-- Event 7 of R400. -/
def KEYSTORE_EXHAUSTED : Nat := 0x0E07
/-- Event 0 of R411. -/
def DCMP_ERR : Nat := 0x0F00
/-- Event 1 of R411. -/
def CZ_ERR : Nat := 0x0F01
/-- Event 0 of R437. -/
def SLOT_FALLBACK : Nat := 0x1000
/-- Event 1 of R437. -/
def UPDATE_ROLLBACK : Nat := 0x1001
/-- Event 2 of R437. -/
def UPDATE_REJECTED : Nat := 0x1002
/-- Event 3 of R437. -/
def MODE_TIMEOUT : Nat := 0x1003
/-- Event 0 of R463. -/
def ERRQ_OVERFLOW : Nat := 0x1100
/-- Event 1 of R463. -/
def FABRIC_TIMEOUT : Nat := 0x1101
/-- Event 2 of R463. -/
def RELAY_OVERRUN : Nat := 0x1102
/-- Event 3 of R463. -/
def XING_RESET : Nat := 0x1103
/-- Event 4 of R463. -/
def CLOCK_LOSS : Nat := 0x1104
/-- Event 5 of R463. -/
def HLREF_LOSS : Nat := 0x1105
/-- Event 6 of R463. -/
def GATE_CHATTER : Nat := 0x1106
/-- Event 7 of R463. -/
def CHIP_SERVICE : Nat := 0x1107
/-- Event 0 of R477. -/
def CAL_REJECT : Nat := 0x1200
/-- Event 1 of R477. -/
def VH_FAULT : Nat := 0x1201
/-- Event 2 of R477. -/
def PD_DARK : Nat := 0x1202
/-- Event 3 of R477. -/
def PD_BRIGHT : Nat := 0x1203
/-- Event 0 of R153. -/
def PLAY_AUTH : Nat := 0x1400
/-- Event 1 of R153. -/
def PLAY_AUTH_BURST : Nat := 0x1401
/-- Event 2 of R153. -/
def SEAL_ACCESS : Nat := 0x1402

/-- CMP_HIT_k of R100: position 0x80 + k of table 0x02. -/
def CMP_HIT (k : Nat) : Nat := 0x0280 + k

end Ev

/-- The event tables: block code and minimum classes in code order (R438). -/
def eventTables : List (Nat × List Nat) := [
  (0x02, [3, 3, 3, 0, 3, 3, 1, 1, 3, 0, 1, 1, 2, 1, 0, 1]),
  (0x03, [0, 2, 3, 3, 0, 0]),
  (0x04, [3, 3, 3, 3, 1, 1, 0, 0]),
  (0x05, [2, 2, 0, 0, 1]),
  (0x06, [0, 1, 1, 0, 1, 1, 0, 0]),
  (0x07, [0, 0, 0, 0, 1, 1, 1, 0, 2, 0, 0]),
  (0x08, [1, 3, 1, 1, 0]),
  (0x09, [1, 1, 1, 0, 1, 0]),
  (0x0A, [3, 1, 0, 0, 0, 1, 1]),
  (0x0C, [1, 0, 1, 1, 3, 1, 1, 1, 0, 0, 0]),
  (0x0D, [1, 0, 1, 0, 1, 1, 0, 0]),
  (0x0E, [3, 3, 4, 4, 1, 3, 3, 1]),
  (0x0F, [0, 0]),
  (0x10, [1, 1, 0, 1]),
  (0x11, [3, 1, 0, 0, 3, 1, 1, 0]),
  (0x12, [1, 1, 3, 1]),
  (0x14, [2, 3, 1])]

/-- The minimum class of a code; `none` for a code no table yields (R438). GATE_CUT stands at HOLD, the lower of the two
classes its GATING entry may carry. -/
def eventClass (id : Nat) : Option Nat :=
  if 0x0280 ≤ id && id < 0x0288 then some 0
  else ((eventTables.find? fun t => t.1 = id / 256).map (·.2)).bind fun l => l[id % 256]?

end Sys2Proof.Machine
end

