-- ==== Sys2Proof/Machine/Tree.lean ====
section
/-! DEFINITION. The unit tree (02): handles and kinds (R32), paths, effective values (R35), status and dome status (R41),
counters (R43), spans and ownership (R49). -/

namespace Sys2Proof.Machine

/-- Unit kinds of R32. -/
inductive Kind where
  | root | group | port | row | nozzle | chip
  deriving DecidableEq, Repr

/-- The kind code of R32. -/
def Kind.code : Kind → Nat
  | .root => 0 | .group => 1 | .port => 2 | .row => 3 | .nozzle => 4 | .chip => 5

/-- The kind of a handle range (R32). -/
def kindOf (h : Nat) : Option Kind :=
  if h = 0 then some .root
  else if h ≤ 0xFFFF then some .group
  else if h ≤ 0x1003F then some .port
  else if 0x10100 ≤ h && h ≤ 0x1017F then some .row
  else if 0x11000 ≤ h && h ≤ 0x110FF then some .chip
  else if 0x20000 ≤ h && h ≤ 0x3FFFF then some .nozzle
  else none

/-- The handle of a port, a row, a nozzle and a CHIP unit (R32). -/
def portH (p : Nat) : Nat := 0x10000 + p
def rowH (p r : Nat) : Nat := 0x10100 + 2 * p + r
def nozH (i : Nat) : Nat := 0x20000 + i
def chipH (c : Nat) : Nat := 0x11000 + c

/-- The entry of a unit in the loaded tree. -/
def Structure.node? (si : Structure) (h : Nat) : Option TreeNode := si.nodes.find? fun n => n.handle = h

/-- A port that the image leaves in the tree (R34, R61). -/
def Structure.portValid (si : Structure) (p : Nat) : Bool := p < 64 && (si.node? (portH p)).isSome

/-- A handle the loaded image defines (R32, R61). -/
def Structure.valid (si : Structure) (h : Nat) : Bool :=
  match kindOf h with
  | some .row => si.portValid ((h - 0x10100) / 2)
  | some .nozzle => si.portValid ((h - 0x20000) / 2048)
  | some _ => (si.node? h).isSome
  | none => false

/-- The parent of a unit: fixed for rows and nozzles (R32), from the image otherwise; `none` for ROOT. -/
def Structure.parent (si : Structure) (h : Nat) : Option Nat :=
  match kindOf h with
  | some .root => none
  | some .row => some (portH ((h - 0x10100) / 2))
  | some .nozzle => some (rowH ((h - 0x20000) / 2048) (h % 2))
  | _ => (si.node? h).map (·.parent)

/-- The path from a unit up to ROOT, the unit first, at most `fuel` units. -/
def Structure.pathUp (si : Structure) : Nat → Nat → List Nat
  | 0, _ => []
  | f + 1, h => h :: match si.parent h with
    | some q => si.pathUp f q
    | none => []

/-- The path of a unit (R35): TREE_DEPTH is at most 255 (R34). -/
def Structure.path (si : Structure) (h : Nat) : List Nat := si.pathUp 260 h

/-- A unit at or below another. -/
def Structure.below (si : Structure) (top h : Nat) : Bool := (si.path h).contains top

/-- Levels below ROOT. -/
def Structure.depth (si : Structure) (h : Nat) : Nat := (si.path h).length - 1

/-- Own settings where neither the image nor a command has set any (R61). -/
def unitCfgDefault : Nat → UnitCfg := fun _ => ⟨true, 0, 0, 0⟩

/-- Latched status and counters where nothing has happened. -/
def unitDynDefault : Nat → UnitDyn := fun _ => ⟨false, false, 0, 0, 0⟩

/-- A CHIP unit of which nothing has been heard. -/
def chipDefault : Nat → ChipInfo := fun _ => ⟨false, 0, 0, 0, 0, 0, 0⟩

/-- Own settings of a unit. -/
def ownOf (own : AMap UnitCfg) (h : Nat) : UnitCfg := AMap.get unitCfgDefault own h

/-- Effective enable over a path (R35). -/
def effEn (si : Structure) (own : AMap UnitCfg) (h : Nat) : Bool := (si.path h).all fun u => (ownOf own u).en

/-- Effective line delay over a path (R35). -/
def effLd (si : Structure) (own : AMap UnitCfg) (h : Nat) : Nat :=
  (si.path h).foldl (fun a u => a + (ownOf own u).ldelay) 0

/-- Effective subline delay over a path (R35). -/
def effSd (si : Structure) (own : AMap UnitCfg) (h : Nat) : Nat :=
  (si.path h).foldl (fun a u => a + (ownOf own u).sldelay) 0

/-- Effective trim class: the nearest non-zero one (R35). -/
def effTrim (si : Structure) (own : AMap UnitCfg) (h : Nat) : Nat :=
  (((si.path h).map fun u => (ownOf own u).trim).find? (· ≠ 0)).getD 0

/-- Valid ports in ascending order. -/
def State.validPorts (s : State) : List Nat := (List.range 64).filter fun p => s.si.portValid p

/-- Effective enable of a unit in force, the parent's side included (R35, R52). -/
def State.enabled (s : State) (h : Nat) : Bool := s.si.valid h && s.ut.parent.en && effEn s.si s.ut.own h

/-- Effective line delay of a unit in force (R35, R52). -/
def State.lineDelay (s : State) (h : Nat) : Nat := s.ut.parent.ld + effLd s.si s.ut.own h

/-- Effective subline delay of a unit in force (R35, R52). -/
def State.subDelay (s : State) (h : Nat) : Nat := s.ut.parent.sd + effSd s.si s.ut.own h

/-- Valid ROW units. -/
def State.validRows (s : State) : List Nat := s.validPorts.flatMap fun p => [rowH p 0, rowH p 1]

/-- D_max and D_min of R106: the largest and smallest line delays of the valid rows. -/
def State.dMax (s : State) : Nat := (s.validRows.map s.lineDelay).foldl max 0
def State.dMin (s : State) : Nat :=
  match s.validRows.map s.lineDelay with
  | [] => 0
  | d :: ds => ds.foldl min d

/-- Latched status and counters of a unit. -/
def State.dyn (s : State) (h : Nat) : UnitDyn := AMap.get unitDynDefault s.ut.dyn h

/-- A unit's latched status and counters replaced. -/
def State.setDyn (s : State) (h : Nat) (d : UnitDyn) : State :=
  { s with ut := { s.ut with dyn := AMap.set unitDynDefault s.ut.dyn h d } }

/-- A 32-bit counter advanced, saturating. -/
def satInc (n : Nat) : Nat := min 0xFFFFFFFF (n + 1)

/-- One count of CNT_EVENT, CNT_VOID or CNT_CMD at a unit and every ancestor (R43); CNT_VOID is not kept by rows and
nozzles. -/
def State.countUp (s : State) (h : Nat) (which : Nat) : State :=
  (s.si.path h).foldl (fun s u =>
    let d := s.dyn u
    s.setDyn u (match which with
      | 0 => { d with cntEvent := satInc d.cntEvent }
      | 1 => { d with cntVoid := satInc d.cntVoid }
      | _ => { d with cntCmd := satInc d.cntCmd })) s

/-- The children of a unit in ascending handle order. -/
def Structure.children (si : Structure) (h : Nat) : List Nat :=
  match kindOf h with
  | some .port => [rowH (h - 0x10000) 0, rowH (h - 0x10000) 1]
  | some .row => (List.range 1024).map fun c => nozH (2048 * ((h - 0x10100) / 2) + 2 * c + h % 2)
  | some .nozzle => []
  | _ => (si.nodes.filter fun n => n.parent = h && n.handle ≠ 0 && kindOf n.handle ≠ some .row).map (·.handle)

/-- Every unit at or below a unit, `fuel` levels of them. -/
def Structure.subtree (si : Structure) : Nat → Nat → List Nat
  | 0, h => [h]
  | f + 1, h => h :: (si.children h).flatMap (si.subtree f)

/-- The bar positions of a valid port's span (R49): first and last. -/
def Structure.span (si : Structure) (p : Nat) : Int × Int :=
  let g := (si.ports.getD p ⟨0, 0⟩).geom
  let o : Int := (g % 0x20000 : Nat)
  if g.testBit 17 then (o - 2047, o) else (o, o + 2047)

/-- A ticket of positions x to x + w - 1 meets a port (R49). -/
def Structure.meets (si : Structure) (p x w : Nat) : Bool :=
  let sp := si.span p
  si.portValid p && sp.1 ≤ (x + w : Nat) - 1 && (x : Int) ≤ sp.2

end Sys2Proof.Machine
end

