-- ==== Sys2Proof/Machine/Events.lean ====
section
/-! DEFINITION. Raising and collecting events (19): the class an event takes (R66, R439, R516), its effect on unit status and
counters (R41, R440), source buffers (R443), events of BOOT (R437), CHIP_SERVICE_REQ (R452), the collector and the error
queue (R444 to R449). The HOLD and the zeroize that a class calls for are marked as due and entered at the end of the
command that raised the event (`settle`). -/

namespace Sys2Proof.Machine

/-- The line index I (R24). -/
def State.line (s : State) : Nat := s.wp.pos >>> 16

/-- TB_NS with the cycles since the last TBCLK cycle added (R361): seconds and nanoseconds. -/
def State.timeNow (s : State) : Nat × Nat :=
  let n := s.tn.ns + s.now % 4
  if 1000000000 ≤ n then (s.tn.sec + 1, n - 1000000000) else (s.tn.sec, n)

/-- A timestamp taken now: seconds, the word of TB_NS and DOM, the fraction (R360). -/
def State.stamp (s : State) : Stamp :=
  let t := s.timeNow
  ⟨t.1 % 2 ^ 48, t.2 + s.tn.dom * 2 ^ 30, s.tn.frac / 65536⟩

/-- The 12 bytes of a timestamp (R360). -/
def Stamp.bytes (t : Stamp) : List Byte := leBytes 6 t.sec ++ leBytes 4 t.ns ++ leBytes 2 t.frac

/-- The cascade handle of a unit of this controller (R33). -/
def State.cascade (s : State) (h : Nat) : Nat := s.fld Reg.HL_INDEX F.HL_INDEX_INDEX * 2 ^ 24 + h

/-- The entry of the event map for an event (R66). -/
def State.eventCfg (s : State) (id : Nat) : Option EventCfg := s.si.events.find? fun e => e.id = id

/-- FLAGS of an event's entry, 0 without one (R66): bit 0 ZEROIZE, bit 1 CSR. -/
def State.eventFlags (s : State) (id : Nat) : Nat := match s.eventCfg id with
  | some c => c.flags
  | none => 0

/-- The most occurrences one source buffer holds (R443). -/
def bufDepth : Nat := 4

/-- CHIP_SERVICE_REQ (R452). -/
def State.csr (s : State) : Bool := s.rdN Reg.FL_CSR ≠ 0

/-- An occurrence with the minimum class, default unit and DETAIL that its raising rule gives: class and unit by the event
map (R66, R439), unit status and counters (R440), HOLD and zeroize marked as due (R442), the occurrence buffered (R443).
CHIP_SERVICE_REQ is not touched here. -/
def State.raiseCore (s : State) (id minc unit detail : Nat) : State :=
  if s.mode = .boot then
    { s with fl := { s.fl with held := s.fl.held ++ [⟨id, minc, unit, detail⟩] } }
  else
    let e := s.eventCfg id
    let cls := max minc ((e.map (·.cls)).getD 0)
    let u := match e with
      | some c => if c.unit = 0xFFFFFF then unit else c.unit
      | none => unit
    let s := s.countUp u 0
    let d := s.dyn u
    let s := if cls = 1 then s.setDyn u { d with warn := true } else if cls = 2 then s.setDyn u { d with void := true } else s
    let zero := cls = 4 && (s.eventFlags id).testBit 0
    let s := { s with
      sys := { s.sys with holdDue := s.sys.holdDue || decide (3 ≤ cls), zeroDue := s.sys.zeroDue || zero,
                          safeDue := s.sys.safeDue || decide (cls = 4) },
      fl := { s.fl with safe := s.fl.safe || decide (cls = 4) } }
    let irq := match e with
      | some c => if c.irq ≤ 2 then some c.irq else none
      | none => none
    if (s.fl.bufs.filter fun o => o.id = id).length < bufDepth then
      let o : Occ := ⟨id, cls, u, detail, s.stamp, irq, (s.eventFlags id).testBit 1⟩
      { s with fl := { s.fl with bufs := s.fl.bufs ++ [o] } }
    else s.bump Reg.FL_LOST F.FL_LOST_SOURCE

/-- A cause of CHIP_SERVICE_REQ set (R452); its rise raises CHIP_SERVICE. -/
def State.csrSet (s : State) (f : BitField) : State :=
  let rise := !s.csr
  let s := s.flag Reg.FL_CSR f
  if rise then (s.flag Reg.FL_STAT F.FL_STAT_CHIP_SERVICE).raiseCore Ev.CHIP_SERVICE 0 0 (s.line % 2 ^ 32) else s

/-- An event raised with a minimum class, default unit and DETAIL; its CSR flag sets CHIP_SERVICE_REQ (R66, R452). -/
def State.raiseWith (s : State) (id minc unit detail : Nat) : State :=
  let s' := s.raiseCore id minc unit detail
  if s.mode ≠ .boot && (s.eventFlags id).testBit 1 then s'.csrSet F.FL_CSR_EVENT else s'

/-- An event raised by its table's class, with the line index as DETAIL (R443). -/
def State.raise (s : State) (id : Nat) (unit : Nat := 0) : State :=
  s.raiseWith id ((eventClass id).getD 0) unit (s.line % 2 ^ 32)

/-! ## Toggle relays -/

/-- The relay of an event in the clock domain numbered `k` among those that raise it (R454, R455). -/
def relayKey (id k : Nat) : Nat := id * 16 + k

/-- How long a relay to SYSCLK is taken by a pulse from a clock of `t` ps: 4 T_src + 3 T_dst in whole ns (R454). -/
def relayBusy (t : Nat) : Nat := (4 * t + 999) / 1000 + 3

/-- The period in ps of PIXCLK, ETHCLK, TBCLK and the DRAM clock (R9). -/
def pixPeriod : Nat := 1600
def ethPeriod : Nat := 8000
def tbPeriod : Nat := 4000
def dramPeriod : Nat := 469

/-- The period in ps of the byte clock of a CSI port: 8 bits of a lane (R9, R223). -/
def State.bytePeriod (s : State) (n : Nat) : Nat := 8000000 / max 80 (s.fld (Reg.IN_PORTn_CFG n) F.IN_PORTn_CFG_RATE_MBPS)

/-- A pulse merged with the one in flight (R454): counted, its block recorded, and RELAY_OVERRUN raised with the block code. -/
def State.relayOverrun (s : State) (blk : Nat) : State :=
  let s := (s.bump Reg.FL_XING_CNT F.FL_XING_CNT_OVERRUN).setFld Reg.FL_XING_SRC F.FL_XING_SRC_OVERRUN_BLK blk
  (s.flag Reg.FL_STAT F.FL_STAT_RELAY_OVERRUN).raiseWith Ev.RELAY_OVERRUN ((eventClass Ev.RELAY_OVERRUN).getD 0) 0 blk

/-- An INFO event raised outside SYSCLK, in the clock domain `k` of period `t` (R455): its pulse crosses by toggle relay, and is merged
with the one before where the relay is not yet free (R454). -/
def State.relayRaise (s : State) (id k t : Nat) : State :=
  let key := relayKey id k
  if s.now < AMap.get (fun _ => 0) s.fl.relays key then s.relayOverrun (id / 256)
  else { s with fl := { s.fl with relays := AMap.set (fun _ => 0) s.fl.relays key (s.now + relayBusy t) } }.raise id

/-- The relays of a clock domain that is reset: both flags are 0, so they are free (R457). -/
def State.relaysFree (s : State) (keys : List Nat) : State :=
  { s with fl := { s.fl with relays := s.fl.relays.filter fun r => !keys.contains r.1 } }

/-- The relays out of a CSI byte clock, an Ethernet port and the DRAM clock. -/
def csiRelays (n : Nat) : List Nat := [relayKey Ev.CSI_ECC n, relayKey Ev.CSI_CRC n]
def ethRelays (k : Nat) : List Nat := [relayKey Ev.PRP_WRONG_LAN k, relayKey Ev.TS_LOST k]
def dramRelays : List Nat := [relayKey Ev.REFRESH_FORCED 0, relayKey Ev.REFRESH_FORCED 1]

/-- The relays out of a domain whose clock can stop. -/
def Domain.relays : Domain → List Nat
  | .csi n => csiRelays n
  | .eth => ethRelays 0 ++ ethRelays 1
  | .dram => dramRelays
  | .lane _ => []
  | .snap _ => []
  | .turn => []

/-- XING_RESET (R457): the live side of a crossing sees its partner in reset, with the relays `keys` out of it; DETAIL is the block
code. -/
def State.xingReset (s : State) (blk : Nat) (keys : List Nat := []) : State :=
  let s := ((s.relaysFree keys).bump Reg.FL_XING_CNT F.FL_XING_CNT_RESET).setFld Reg.FL_XING_SRC F.FL_XING_SRC_RESET_BLK blk
  (s.flag Reg.FL_STAT F.FL_STAT_XING_RESET).raiseWith Ev.XING_RESET 0 0 blk

/-- Events held in BOOT raised on entry to IDLE (R437). -/
def State.raiseHeld (s : State) : State :=
  let hs := s.fl.held
  hs.foldl (fun s h => s.raiseWith h.id h.cls h.unit h.detail) { s with fl := { s.fl with held := [] } }

/-! ## The error queue -/

/-- An entry placed in descending class, behind the entries of its own class (R444). -/
def queueInsert (e : QEntry) : List QEntry → List QEntry
  | [] => [e]
  | x :: xs => if x.cls < e.cls then e :: x :: xs else x :: queueInsert e xs

/-- The SEQ after another (R444). -/
def nextSeqOf (n : Nat) : Nat := if n = 0xFFFF then 1 else n + 1

/-- PREEMPT set, with the interrupt bit of its line (R444, R449). -/
def State.preempt (s : State) : State :=
  let s := s.flag Reg.FL_EQ_STAT F.FL_EQ_STAT_PREEMPT
  let l := s.fld Reg.FL_IRQ_CFG F.FL_IRQ_CFG_PREEMPT_LINE
  if l < 3 then s.flag (Reg.FL_IRQm_STAT l) F.FL_IRQm_STAT_PREEMPT else s

/-- The loss of an entry (R447): counted, OVERFLOW set, ERRQ_OVERFLOW raised without an entry, its HOLD acting at once. -/
def State.queueLoss (s : State) : State :=
  let s := s.bump Reg.FL_LOST F.FL_LOST_ERRQ_LOST
  let s := forEach [0, 1, 2] (fun s m => s.flag (Reg.FL_IRQm_STAT m) F.FL_IRQm_STAT_OVF) s
  let s := s.flag Reg.FL_STAT F.FL_STAT_ERRQ_OVERFLOW
  { s with fl := { s.fl with overflow := true } }.raise Ev.ERRQ_OVERFLOW

/-- The queue without its newest entry of the lowest class. -/
def dropLowest (q : List QEntry) : List QEntry := q.dropLast

/-- An entry entered in the queue (R444, R445, R447): merged with an entry of its event and unit, or placed by class. -/
def State.enqueue (s : State) (id cls unit detail : Nat) (chip : Bool) (irq : Option Nat) (ts : Stamp) : State :=
  if s.fl.queue.any fun e => e.id = id && e.unit = unit then
    { s with fl := { s.fl with queue := s.fl.queue.map fun e =>
        if e.id = id && e.unit = unit then { e with rep := min 255 (e.rep + 1) } else e } }
  else
    let e : QEntry := ⟨s.fl.nextSeq, id, cls, irq, unit, chip, detail, ts, 0⟩
    let put (s : State) (q : List QEntry) : State :=
      let pre := match q with
        | [] => false
        | h :: _ => decide (h.cls < cls)
      let s := { s with fl := { s.fl with queue := queueInsert e q, nextSeq := nextSeqOf s.fl.nextSeq } }
      if pre then s.preempt else s
    if s.fl.queue.length < 32 then put s s.fl.queue
    else
      match s.fl.queue.getLast? with
      | some low => if low.cls < cls then (put s (dropLowest s.fl.queue)).queueLoss else s.queueLoss
      | none => s

/-- An EVT packet's worth of an occurrence asked for on the way up (R340, R450). -/
def Occ.reported (o : Occ) : Bool := decide (1 ≤ o.cls)

/-- The counter of an event advanced (FL_EVCNT). -/
def State.evCount (s : State) (id : Nat) : State :=
  let n := AMap.get (fun _ => 0) s.fl.evcnt id
  { s with fl := { s.fl with evcnt := AMap.set (fun _ => 0) s.fl.evcnt id (min 0xFFFFFFFF (n + 1)) } }

/-- The occurrence the collector takes next: the oldest of the lowest EVENT_ID (R443). -/
def nextOcc (l : List Occ) : Option Occ :=
  l.foldl (fun b o => match b with
    | none => some o
    | some x => if o.id < x.id then some o else b) none

/-- One collection (R443): the occurrence is counted, its interrupt bit set, and from WARN upwards it enters the queue. -/
def State.collect (s : State) : Option (Occ × State) :=
  (nextOcc s.fl.bufs).map fun o =>
    let s := { s with fl := { s.fl with bufs := s.fl.bufs.erase o } }
    let s := s.evCount o.id
    let s := match o.irq with
      | some m => s.flag (Reg.FL_IRQm_STAT m) F.FL_IRQm_STAT_EVENT
      | none => s
    (o, if 1 ≤ o.cls && o.id ≠ Ev.ERRQ_OVERFLOW then s.enqueue o.id o.cls (s.cascade o.unit) o.detail false o.irq o.ts else s)

/-- An acknowledgement of an entry by its SEQ (R446). -/
def State.eqAck (s : State) (seq : Nat) : State :=
  if s.fl.queue.any fun e => e.seq = seq then
    { s with fl := { s.fl with queue := s.fl.queue.filter fun e => e.seq ≠ seq } }
  else s.flag Reg.FL_EQ_STAT F.FL_EQ_STAT_ACK_STALE

/-- OVF_CLEAR (R447): ignored while the queue is full. -/
def State.ovfClear (s : State) : State :=
  if s.fl.queue.length < 32 then { s with fl := { s.fl with overflow := false } } else s

/-- CSR_CLEAR (R452): the causes EVENT and CLOCK. -/
def State.csrClear (s : State) : State := (s.setFld Reg.FL_CSR F.FL_CSR_EVENT 0).setFld Reg.FL_CSR F.FL_CSR_CLOCK 0

/-- The HOLD cause EVENT (R448): any entry of class HOLD or SAFE, a child's included, or OVERFLOW. -/
def State.holdEvent (s : State) : Bool := s.fl.overflow || s.fl.queue.any fun e => decide (3 ≤ e.cls)

/-- IRQ_N[m] driven low (R449). -/
def State.irqLow (s : State) (m : Nat) : Bool :=
  let qne := if !s.fl.queue.isEmpty && s.fld Reg.FL_IRQ_CFG F.FL_IRQ_CFG_QNE_LINE = m then 1 else 0
  (s.fld (Reg.FL_IRQm_MASK m) F.FL_IRQm_MASK_MASK &&& (s.rdN (Reg.FL_IRQm_STAT m) ||| qne)) ≠ 0

/-! ## Captures and compares -/

/-- A timestamp captured into the 64-entry FIFO of TN under a source code (R370). -/
def State.capture (s : State) (src : Nat) : State :=
  if s.tn.cap.length < 64 then { s with tn := { s.tn with cap := s.tn.cap ++ [(src, s.stamp.bytes)] } }
  else ((s.bump Reg.TN_CAP F.TN_CAP_LOST).flag Reg.TN_STAT F.TN_STAT_TS_LOST).raise Ev.TS_LOST

/-- A watched position crosses a target in a compare's direction: 0 FWD, 1 REV, 2 EITHER (R100). -/
def crosses (dir : Nat) (target old new : Int) : Bool :=
  let fwd := decide (old < target ∧ target ≤ new)
  let rev := decide (target < old ∧ new ≤ target)
  match dir with
  | 0 => fwd
  | 1 => rev
  | _ => fwd || rev

/-- A compare is behind when it is armed (R101): position and direction of motion at the end of the arming cycle. -/
def behind (dir : Nat) (target pos : Int) (reverse : Bool) : Bool :=
  (dir = 0 && decide (target ≤ pos) && !reverse) || (dir = 1 && decide (pos ≤ target) && reverse)

end Sys2Proof.Machine
end

