-- ==== Sys2Proof/Machine/JobGeom.lean ====
section
/-! DEFINITION. Where jobs and tickets lie: job slots, cell row boundaries (R113), the job that owns a bar line (R113, R125),
and bar positions of nozzles (R109). -/

namespace Sys2Proof.Machine

/-- Two byte ranges (start, length) meet. -/
def rangesMeet (a b : Nat × Nat) : Bool := decide (a.1 < b.1 + b.2) && decide (b.1 < a.1 + a.2)

/-- Job slot `k`. -/
def State.job (s : State) (k : Nat) : JobSlot := if k = 0 then s.js.job0 else s.js.job1

/-- Job slot `k` replaced. -/
def State.setJob (s : State) (k : Nat) (j : JobSlot) : State :=
  { s with js := if k = 0 then { s.js with job0 := j } else { s.js with job1 := j } }

/-- Rows of a cell row period. -/
def JobSlot.nRows (j : JobSlot) : Nat := j.imp.rows.length

/-- B(j) of R113. -/
def JobSlot.bound (j : JobSlot) (i : Nat) : Nat :=
  let n := j.nRows
  j.jobStart + i / n * j.imp.rep + (j.imp.rows.getD (i % n) ⟨0, 0, 0⟩).offset

/-- The instance whose rows hold image line `i` at or above JOB_START: the last with B(j) at or below it. -/
def JobSlot.instAt (j : JobSlot) (i : Nat) : Option Nat :=
  if i < j.jobStart || j.imp.rep = 0 || j.nRows = 0 then none
  else
    let k := (i - j.jobStart) / j.imp.rep
    let lo := if k = 0 then [] else (List.range j.nRows).map fun r => (k - 1) * j.nRows + r
    ((lo ++ (List.range j.nRows).map fun r => k * j.nRows + r).filter fun n => decide (j.bound n ≤ i)).getLast?

/-- The first instance whose boundary is at or above a line. -/
def JobSlot.firstAbove (j : JobSlot) (x : Nat) : Option Nat :=
  if j.imp.rep = 0 || j.nRows = 0 then none
  else
    let k := (x - j.jobStart) / j.imp.rep
    ((List.range (2 * j.nRows)).map fun r => k * j.nRows + r).find? fun n => decide (x ≤ j.bound n)

/-- The line E + 1 a job ends at, where it is fixed (R124). -/
def JobSlot.endLine (j : JobSlot) : Option Nat := j.endInst.map j.bound

/-- The job slot that owns a bar line (R113, R125): the next job from its JOB_START, else the current one from its own
JOB_START up to its end. -/
def State.ownerAt (s : State) (l : Nat) : Option Nat :=
  match s.js.next.filter fun k => decide ((s.job k).jobStart ≤ l) with
  | some k => some k
  | none =>
    s.js.cur.filter fun k =>
      decide ((s.job k).jobStart ≤ l) && (match (s.job k).endLine with
        | some e => decide (l < e)
        | none => true)

/-- The first cell row boundary at or above a line, of the job that owns the line of that boundary; the line itself where no
job does (R206). -/
def State.boundaryAt (s : State) (x : Nat) : Nat :=
  let cand (k : Nat) (x : Nat) : Option Nat := ((s.job k).firstAbove (max x (s.job k).jobStart)).map (s.job k).bound
  match s.ownerAt x with
  | none => x
  | some k =>
    match cand k x with
    | none => x
    | some c =>
      match s.js.next.filter fun n => decide (n ≠ k ∧ (s.job n).jobStart ≤ c) with
      | some n => (cand n (s.job n).jobStart).getD c
      | none => c

/-- A port with RES2400 = 1 that the tree holds (R198). -/
def Structure.res24 (si : Structure) (p : Nat) : Bool := si.portValid p && (si.ports.getD p ⟨0, 0⟩).geom.testBit 18

/-- The position of a nozzle on its port: the nozzle itself with RES2400 = 1, its column otherwise (R203). -/
def Structure.posOf (si : Structure) (i : Nat) : Nat := if si.res24 (i / 2048) then i % 2048 else i % 2048 / 2

/-- The bar position of offset `o` from column 0 (R109): downwards with MIRROR = 1. -/
def Structure.barX (si : Structure) (p o : Nat) : Int :=
  let g := (si.ports.getD p ⟨0, 0⟩).geom
  let c : Int := (g % 0x20000 : Nat)
  if g.testBit 17 then c - o else c + o

/-- The bar position of nozzle `n` of a port (R109): 2c + r is the nozzle's number; with RES2400 = 0 both rows read 2c. -/
def Structure.nozX (si : Structure) (p n : Nat) : Int := si.barX p (if si.res24 p then n else n / 2 * 2)

/-- LOADED through CLOSING (R150). -/
def JobPhase.held : JobPhase → Bool
  | .loaded | .armed | .running | .draining | .closing => true
  | _ => false

/-! ## Jobs that stop -/

/-- `n` bytes of a record ring from a byte offset, wrapping at its end (R117). -/
def State.ringBytes (s : State) (j : JobSlot) (off n : Nat) : List Byte :=
  let o := off % j.ringSize
  let n1 := min n (j.ringSize - o)
  s.dramRead (j.ringAddr + o) n1 ++ s.dramRead j.ringAddr (n - n1)

/-- Bytes of the ring between an offset and WP (R117). -/
def JobSlot.avail (j : JobSlot) (off : Nat) : Nat := if j.ringSize = 0 then 0 else (j.wp + j.ringSize - off % j.ringSize) % j.ringSize

/-- Records between an offset and WP, counted by their LENGTH; a LENGTH that is none ends the count. -/
def State.countRecords (s : State) (j : JobSlot) : Nat → Nat → Nat
  | 0, _ => 0
  | f + 1, off =>
    let n := leAt (s.ringBytes j off 64) 4 2
    if j.avail off < 64 || n < 64 || 4096 < n || n % 64 ≠ 0 || j.avail off < n then 0
    else 1 + s.countRecords j f (off + n)

/-- The instance in hand given up; its tile buffer counts as taken until it is released (R119). -/
def JobSlot.giveUp (j : JobSlot) : JobSlot := { j with rendering := none, nextInst := (j.rendering.map (·.inst + 1)).getD j.nextInst }

/-- Records not yet rendered discarded and counted, RP set equal to WP (R124, R515); no instance is begun any more. -/
def State.jobDiscard (s : State) (k : Nat) : State :=
  let j := s.job k
  let n := s.countRecords j (j.ringSize / 64) j.rp
  s.setJob k { j.giveUp with rp := j.wp, discard := min 0xFFFFFFFF (j.discard + n), stopped := true }

/-- A slot no longer the current or the next job. -/
def State.jobLeave (s : State) (k : Nat) : State :=
  let cur := s.js.cur.filter (· ≠ k)
  let next := s.js.next.filter (· ≠ k)
  let js := if cur.isNone then { s.js with cur := next, next := none } else { s.js with cur := cur, next := next }
  { s with js := js }

/-- Tickets of a job that will not be printed leave the table (R124, R381). -/
def State.dropTickets (s : State) (pick : Ticket → Bool) : State :=
  { s with au := { s.au with tickets := s.au.tickets.filter fun t => t.verdict.isSome || !pick t } }

/-- A job that fails: its records go, its tickets above HWM are not printed, its tile key is erased (R118, R123, R152, R381, R515). -/
def State.jobToFailed (s : State) (k err : Nat) : State :=
  let s := (s.jobDiscard k).dropTickets fun t => t.job = k && decide (s.wp.hwm < t.first)
  (s.setJob k { s.job k with phase := .failed, err := err, tileKey := none }).jobLeave k

/-- RECORD_ORDER and RASTER_ORDER (R118, R123): the slot goes to FAILED with ERR ORDER and the event raised. -/
def State.jobOrder (s : State) (k : Nat) (flag : BitField) (ev : Nat) : State :=
  ((s.jobToFailed k 0xD).flag Reg.JS_STAT flag).raise ev

/-- A write by a decompressor of bytes of a raster ring (R123): lines come in ascending order, each from its first byte, into
entries that have been released. -/
def State.rasterFill (s : State) (addr n : Nat) : State :=
  match [0, 1].find? fun k => (s.job k).raster && (s.job k).phase.held &&
      rangesMeet (addr, n) ((s.job k).rasterAddr, 32768 * (s.job k).rasterLines) with
  | none => s
  | some k =>
    let j := s.job k
    let free := decide (j.rasterWp < j.rasterLines) || decide (j.jobStart + (j.rasterWp - j.rasterLines) + s.dMax ≤ s.wp.hwm)
    if free && decide (addr = j.rasterAddr + 32768 * (j.rasterWp % j.rasterLines) + j.rasterFill) && j.rasterFill + n ≤ 32768 then
      let f := j.rasterFill + n
      s.setJob k (if f = 32768 then { j with rasterWp := min 0xFFFFFFFF (j.rasterWp + 1), rasterFill := 0 } else { j with rasterFill := f })
    else s.jobOrder k F.JS_STAT_RASTER_ORDER Ev.RASTER_ORDER

/-- Line ring entries, slices and LEAD checks of bar lines. -/
def JsState.keepLines (j : JsState) (keep : Nat → Bool) : JsState :=
  { j with lring := j.lring.filter fun e => keep e.line, slices := j.slices.filter fun e => keep e.line, lead := j.lead.filter fun e => keep e.1 }

/-! ## DRAM regions -/

/-- Bytes of DRAM fitted: SIZE times 64 MiB on each of the two channels (DC_CFG). -/
def State.dramSize (s : State) : Nat := 2 * s.fld Reg.DC_CFG F.DC_CFG_SIZE * 0x4000000

/-- First byte and length of the region a plate slot would hold (R110, R111). -/
def State.plateRegion (s : State) (k : Nat) : Nat × Nat :=
  (s.rdN (Reg.JS_PLATEk_BASE k) * 65536, 32768 * s.fld (Reg.JS_PLATEk_CFG k) F.JS_PLATEk_CFG_LINES)

/-- A plate slot. -/
def State.plate (s : State) (k : Nat) : PlateSlot := s.js.plates.getD k ⟨.empty, 0⟩

/-- A byte range meets the region of a plate slot that is not EMPTY (R111). -/
def State.meetsPlate (s : State) (r : Nat × Nat) (except : Option Nat := none) : Bool :=
  (List.range 16).any fun k => except ≠ some k && (s.plate k).phase ≠ .empty && rangesMeet r (s.plateRegion k)

/-- A byte range lies within the DRAM fitted. -/
def State.inDram (s : State) (r : Nat × Nat) : Bool := decide (r.1 + r.2 ≤ s.dramSize)

end Sys2Proof.Machine
end

