-- ==== Sys2Proof/Machine/Motion.lean ====
section
/-! DEFINITION. Service axes (12): commands and moves (R275, R276), the profile tick (R277), drive and stall detection (R278 to
R280), limit switches (R281, R282), homing (R283), stops and the cap sequence (R284, R285), ESTOP_HALT (R286) and axis
compares (R287). -/

namespace Sys2Proof.Machine

/-- One microstep in the units of R277. -/
def ustep : Int := 2 ^ 48

/-- Axis `a`. -/
def State.axis (s : State) (a : Nat) : Axis := s.mo.axes.getD a Axis.reset

/-- Axis `a` replaced. -/
def State.setAxis (s : State) (a : Nat) (x : Axis) : State := { s with mo := { s.mo with axes := s.mo.axes.set a x } }

/-- The integer part of p (R277). -/
def Axis.pos (x : Axis) : Int := x.p / ustep

/-- A register read as a signed position. -/
def State.rdI (s : State) (a : Nat) : Int := toSigned 32 (s.rdN a)

/-- Axis fitted (R274). -/
def State.fitted (s : State) (a : Nat) : Bool := (s.fld Reg.MO_CFG F.MO_CFG_FITTED).testBit a

/-- Division rounded to the nearest, halves up. -/
def roundDiv (n d : Nat) : Nat := (2 * n + d) / (2 * d)

/-- The latched limits of R277. -/
def jmOf (jmax : Nat) : Int := roundDiv (jmax * 1000 * 2 ^ 48) (10 ^ 18)
def amOf (amax : Nat) : Int := roundDiv (amax * 2 ^ 48) (10 ^ 12)
def vmOf (vmax : Nat) : Int := roundDiv (vmax * 2 ^ 48) (10 ^ 6)

/-- A move or homing step begins: limits and currents are latched (R276). -/
def State.latchMove (s : State) (a : Nat) (x : Axis) (vmax : Nat) (st : AxisPhase) (target : Option Int) : Axis :=
  { x with
    st := st, jm := jmOf (s.rdN (Reg.MO_Aa_JMAX a)), am := amOf (s.rdN (Reg.MO_Aa_AMAX a)), vm := vmOf vmax,
    iRun := s.fld (Reg.MO_Aa_CUR a) F.MO_Aa_CUR_I_RUN, iHold := s.fld (Reg.MO_Aa_CUR a) F.MO_Aa_CUR_I_HOLD,
    holdMs := s.fld (Reg.MO_Aa_CUR a) F.MO_Aa_CUR_HOLD_MS, start := x.p, target := target, tick := 0, stall := 0 }

/-- A move to a microstep position begins. -/
def State.startMove (s : State) (a : Nat) (target : Int) : State :=
  let x := s.axis a
  s.setAxis a (s.latchMove a { x with backoff := false } (s.rdN (Reg.MO_Aa_VMAX a)) .moving (some (target * ustep)))

/-- HOME begins (step 1 of R283). -/
def State.startHome (s : State) (a : Nat) : State :=
  let x := { s.axis a with homed := false, lost := false, backoff := false, queued := none }
  s.setAxis a (s.latchMove a x (s.fld (Reg.MO_Aa_HOME a) F.MO_Aa_HOME_HOME_V) .homing none)

/-- Homing runs toward the high end. -/
def State.homeHigh (s : State) (a : Nat) : Bool := s.isSet (Reg.MO_Aa_HOME a) F.MO_Aa_HOME_HOME_DIR

/-- Axis compare `k` replaced. -/
def State.setMoCmp (s : State) (k : Nat) (c : Cmp) : State := { s with mo := { s.mo with cmps := s.mo.cmps.set k c } }

/-- The compares of an axis that becomes LOST are disarmed without firing (R287). -/
def State.moDisarm (s : State) (a : Nat) : State :=
  forEach [2 * a, 2 * a + 1] (fun s k => s.setMoCmp k { s.mo.cmps.getD k ⟨false, 0, 0, 0⟩ with armed := false }) s

/-- A stop (R284): the queued move is discarded; an axis in motion comes to rest, LOST. -/
def State.stopAxis (s : State) (a : Nat) : State :=
  let x := { s.axis a with queued := none }
  match x.st with
  | .moving | .homing =>
    (s.setAxis a { x with st := .stopped, v := 0, a := 0, lost := true, homed := false, backoff := false, scanMove := false,
                          endAt := some s.now }).moDisarm a
  | _ => s.setAxis a x

/-- A stop that leaves the axis LOST even at rest (R288). -/
def State.loseAxis (s : State) (a : Nat) : State :=
  let s := s.stopAxis a
  (s.setAxis a { s.axis a with lost := true, homed := false }).moDisarm a

/-- DISABLE: outputs low, the axis coasts and becomes LOST (R275). -/
def State.disableAxis (s : State) (a : Nat) : State :=
  (s.setAxis a { s.axis a with st := .disabled, v := 0, a := 0, lost := true, homed := false, queued := none, backoff := false,
                               scanMove := false, va := 0, vb := 0, da := 0, db := 0 }).moDisarm a

/-- A homing fault with its cause: 0 LIMIT, 1 NOSTALL, 2 STALL, 3 CHATTER (R283). -/
def State.homingFault (s : State) (a cause : Nat) : State :=
  let s := s.stopAxis a
  let s := s.setFld (Reg.MO_Aa_STAT a) F.MO_Aa_STAT_CAUSE cause
  (s.flag Reg.MO_STAT F.MO_STAT_HOMING_FAULT).raise Ev.MO_HOMING_FAULT

/-- The ESTOP_HALT block of R286: ENABLE, MOVE and HOME are refused while the cut latch of ESTOP_N stands. -/
def State.estopped (s : State) : Bool := s.isSet Reg.MO_CFG F.MO_CFG_ESTOP_HALT && s.hp.cut.testBit 8

/-- The modes in which MOVE and HOME are accepted (R275). -/
def State.moveMode (s : State) : Bool :=
  match s.mode with
  | .idle | .warm | .service => true
  | .hold => s.mo.capSeq.isNone
  | _ => false

/-- A zero VMAX, AMAX or JMAX refuses a move. -/
def State.limitsZero (s : State) (a : Nat) : Bool :=
  s.rdN (Reg.MO_Aa_VMAX a) = 0 || s.rdN (Reg.MO_Aa_AMAX a) = 0 || s.rdN (Reg.MO_Aa_JMAX a) = 0

/-- The debounced switch at the end toward a target is asserted (R275). -/
def State.limitToward (s : State) (a : Nat) (target : Int) : Bool :=
  let x := s.axis a
  (decide (x.pos < target) && x.limHi) || (decide (target < x.pos) && x.limLo)

/-- ERR of MO_Aa_STAT. -/
def State.axisErr (s : State) (a e : Nat) : State := s.setFld (Reg.MO_Aa_STAT a) F.MO_Aa_STAT_ERR e

/-- Why MOVE or HOME is refused, in the order of R275 (0: accepted; log entry 21). -/
def State.moveErr (s : State) (a : Nat) (homing : Bool) (target : Int) : Nat :=
  let x := s.axis a
  let runs := x.st = .moving || x.st = .homing
  if !s.moveMode || (x.scanMove && runs) then 2
  else if s.estopped then 9
  else if x.queued.isSome then 3
  else if !homing && x.lost then 4
  else if !homing && x.st = .disabled then 5
  else if !homing && s.limitToward a target then 6
  else if s.limitsZero a then 7
  else if homing && s.fld (Reg.MO_Aa_HOME a) F.MO_Aa_HOME_HOME_V < s.fld (Reg.MO_Aa_STALL a) F.MO_Aa_STALL_STALL_VMIN * 64 then 7
  else 0

/-- A write of MO_Aa_CMD (R275): the operation, or ERR with nothing changed. -/
def State.axisCommand (s : State) (a : Nat) (w : Word) : State :=
  let target := s.rdI (Reg.MO_Aa_TARGET a)
  let op := F.MO_Aa_CMD_OP.get w
  let trig := F.MO_Aa_CMD_TRIG.get w = 1
  if !s.fitted a then s.axisErr a 8
  else
    match op with
    | 1 =>
      match s.moveErr a false target with
      | 0 =>
        let s := s.axisErr a 0
        if !trig && (s.axis a).st = .stopped then s.startMove a target
        else s.setAxis a { s.axis a with queued := some (target, trig) }
      | e => s.axisErr a e
    | 2 =>
      match s.moveErr a true target with
      | 0 => (s.axisErr a 0).startHome a
      | e => s.axisErr a e
    | 3 => (s.axisErr a 0).stopAxis a
    | 4 =>
      if s.mode = .boot || s.mode = .test then s.axisErr a 2
      else if s.estopped then s.axisErr a 9
      else
        let s := s.axisErr a 0
        if (s.axis a).st = .disabled then s.setAxis a { s.axis a with st := .stopped } else s
    | 5 => (s.axisErr a 0).disableAxis a
    | _ => s.axisErr a 1

/-! ## Axis compares -/

/-- A trigger from a compare (R275): it starts the queued TRIG 1 move, or sets TRIG_NONE. -/
def State.triggerAxis (s : State) (a : Nat) : State :=
  let x := s.axis a
  match x.queued with
  | some (t, true) =>
    if x.st = .stopped then (s.setAxis a { x with queued := none }).startMove a t
    else s.setAxis a { x with queued := some (t, false) }
  | _ => s.flag (Reg.MO_Aa_STAT a) F.MO_Aa_STAT_TRIG_NONE

/-- What a firing axis compare does (R287). -/
def State.moCmpFire (s : State) (k : Nat) : State :=
  let c := s.mo.cmps.getD k ⟨false, 0, 0, 0⟩
  let s := (s.setMoCmp k { c with armed := false }).flag (Reg.MO_CMPm_CTRL k) F.MO_CMPm_CTRL_FIRED
  let act := s.fld (Reg.MO_CMPm_CTRL k) F.MO_CMPm_CTRL_ACTION
  let s := if act.testBit 0 then (s.flag Reg.MO_STAT F.MO_STAT_CMP_HIT).raise Ev.MO_CMP_HIT else s
  let s := if act.testBit 1 then s.triggerAxis (s.fld (Reg.MO_CMPm_CTRL k) F.MO_CMPm_CTRL_TAXIS) else s
  if act.testBit 2 then s.capture (8 + k) else s

/-- The compares of an axis judged on a change of its integer position (R100, R287). -/
def State.moCompare (s : State) (a : Nat) (old new : Int) : State :=
  forEach [2 * a, 2 * a + 1] (fun s k =>
    let c := s.mo.cmps.getD k ⟨false, 0, 0, 0⟩
    if !c.armed then s
    else if (s.axis a).lost then s.setMoCmp k { c with armed := false }
    else if crosses c.dir c.target old new then s.moCmpFire k else s) s

/-- A write of MO_CMPm_CTRL (R100 to R102, R287): the fields are stored; ARM arms, unless DIR is reserved or the axis is LOST,
and a compare that is behind is reported. -/
def State.moCmpCtrl (s : State) (k : Nat) (w : Word) : State :=
  let a := Reg.MO_CMPm_CTRL k
  let s := forEach [F.MO_CMPm_CTRL_TAXIS, F.MO_CMPm_CTRL_ACTION, F.MO_CMPm_CTRL_DIR] (fun s f => s.setFld a f (f.get w)) s
  let s := forEach [F.MO_CMPm_CTRL_BEHIND, F.MO_CMPm_CTRL_FIRED] (fun s f => if f.get w = 1 then s.setFld a f 0 else s) s
  let dir := F.MO_CMPm_CTRL_DIR.get w
  if F.MO_CMPm_CTRL_ARM.get w = 0 || dir = 3 || (s.axis (k / 2)).lost then s
  else
    let target := s.rdI (Reg.MO_CMPm_TARGET k)
    if behind dir target (s.axis (k / 2)).pos (s.axis (k / 2)).back then
      (((s.setMoCmp k ⟨false, target, k / 2, dir⟩).flag a F.MO_CMPm_CTRL_BEHIND).flag Reg.WP_STAT F.WP_STAT_COMPARE_BEHIND).raise Ev.COMPARE_BEHIND
    else s.setMoCmp k ⟨true, target, k / 2, dir⟩

/-! ## The profile tick -/

/-- The position the generator works toward: the target, or far beyond the end in the drive of homing. -/
def State.goal (s : State) (a : Nat) : Int :=
  match (s.axis a).target with
  | some t => t
  | none => (s.axis a).start + (if s.homeHigh a then 1 else -1) * 2 ^ 100

/-- Whole square root of a number below 2^128, bit by bit. -/
def isqrt (n : Nat) : Nat := (List.range 64).reverse.foldl (fun r k => if (r + 2 ^ k) ^ 2 ≤ n then r + 2 ^ k else r) 0

/-- The stopping distance at jerk jm and acceleration am from velocity v and acceleration a, both counted toward the target
(R277): a first reaches 0 (or began there, where the axis decelerates), at the velocity v0; from v0 the axis stops along an S. -/
def stopDistance (jm am v a : Int) : Int :=
  let v0 := v + a * a / (2 * jm)
  let lead := if 0 ≤ a then v * a / jm + a * a * a / (3 * jm * jm)
    else v0 * a / jm - a * a * a / (6 * jm * jm)
  let rest := if am * am ≤ v0 * jm then v0 * (v0 * jm + am * am) / (2 * am * jm) else v0 * isqrt (v0 * jm).toNat / jm
  lead + rest

/-- The generator's choice of j (R277), with velocity, acceleration and the remaining distance counted toward the target: the
greatest of +jm, 0 and −jm after which vm is not passed and the axis can still stop by the target. Where none is left, it brakes
as hard as lets v and a reach 0 together. -/
def jerkChoice (jm am vm v a left : Int) : Int :=
  let a' (j : Int) := clamp (-am) am (a + j)
  let v' (j : Int) := clamp (-vm) vm (v + a' j)
  let meets (j : Int) : Bool := decide (a' j * a' j ≤ 2 * jm * max 0 (v' j))
  let good (j : Int) : Bool :=
    (decide (a' j ≤ 0) || decide (v' j + a' j * a' j / (2 * jm) ≤ vm)) && decide (0 ≤ v' j) && (decide (0 ≤ a' j) || meets j) &&
      decide (stopDistance jm am (v' j) (a' j) ≤ left - v' j)
  match [jm, 0, -jm].find? good with
  | some j => j
  | none => if meets (-jm) then -jm else if meets 0 then 0 else jm

/-- A move ends (R277): at rest on the target, which the compares judge (R287); a back-off completes homing; a move queued
behind it starts. -/
def State.moveEnd (s : State) (a : Nat) (t : Int) : State :=
  let x := s.axis a
  let old := x.pos
  let x := { x with p := t, v := 0, a := 0, st := .stopped, homed := x.homed || x.backoff, backoff := false, scanMove := false,
                    endAt := some s.now }
  let s := (s.setAxis a x).moCompare a old x.pos
  match (s.axis a).queued, (s.axis a).st with
  | some (q, false), .stopped => (s.setAxis a { s.axis a with queued := none }).startMove a q
  | _, _ => s

/-- One profile tick of an axis in motion (R277). -/
def State.profileAxis (s : State) (a : Nat) : State :=
  let x := s.axis a
  match x.st with
  | .moving | .homing =>
    if x.target = some x.p && x.v = 0 && x.a = 0 then s.moveEnd a x.p
    else
      let goal := s.goal a
      let dir : Int := if x.start ≤ goal then 1 else -1
      let j := dir * jerkChoice x.jm x.am x.vm (dir * x.v) (dir * x.a) (dir * (goal - x.p))
      let acc := clamp (-x.am) x.am (x.a + j)
      let v := clamp (-x.vm) x.vm (x.v + acc)
      let left := dir * (goal - (x.p + v))
      let x' := { x with a := acc, v := v, tick := x.tick + 1, back := if v = 0 then x.back else decide (v < 0) }
      if x.target.isSome && left.natAbs < ustep.toNat && (left ≤ 0 || dir * v ≤ 0) then (s.setAxis a x').moveEnd a goal
      else
        let x' := { x' with p := x.p + v }
        let s := (s.setAxis a x').moCompare a x.pos x'.pos
        let lim := s.fld (Reg.MO_Aa_HOME_LIM a) F.MO_Aa_HOME_LIM_HOME_MAX * 256
        if x.target.isNone && (lim : Int) * ustep < ((x'.p - x.start).natAbs : Int) then s.homingFault a 1 else s
  | _ => s

/-- PROFILE_TICK: every axis, in ascending order. -/
def State.profileTick (s : State) : State := forEach [0, 1, 2, 3] (fun s a => s.profileAxis a) s

/-! ## Drive and stall -/

/-- floor(ke × |v_s| / 1,000,000) of R278 and R279, in mV: v_s is v in microsteps per second. -/
def Axis.emf (x : Axis) (ke : Nat) : Nat := ke * x.v.natAbs / 2 ^ 48

/-- The stall of R279 acts (R280, R283). -/
def State.stalled (s : State) (a : Nat) : State :=
  let x := s.axis a
  match x.st with
  | .moving => ((s.stopAxis a).flag Reg.MO_STAT F.MO_STAT_STALL).raise Ev.MO_STALL
  | .homing =>
    if x.backoff then s.homingFault a 2
    else
      let home := s.rdI (Reg.MO_Aa_HOME_POS a) * ustep
      let off : Int := (s.fld (Reg.MO_Aa_HOME_LIM a) F.MO_Aa_HOME_LIM_BACKOFF : Nat)
      let t := home + (if s.homeHigh a then -off else off) * ustep
      let x := { x with p := home, v := 0, a := 0, backoff := true }
      (s.setAxis a (s.latchMove a x (s.rdN (Reg.MO_Aa_VMAX a)) .homing (some t))).moCompare a (s.axis a).pos x.pos
  | _ => s

/-- The drive time of a phase (R278): SAT where it exceeds the period. With VM_MV 0 the spec states no time: a free value. -/
def State.phaseTime (s : State) (a : Nat) (v : Int) : Nat × State :=
  let vm := s.rdN Reg.MO_VM
  if vm = 0 && v ≠ 0 then
    let d := s.drawFree
    (d.1 % 25001, d.2)
  else
    let n := roundDiv (v.natAbs * 25000) vm
    if 25000 < n then (25000, s.flag (Reg.MO_Aa_STAT a) F.MO_Aa_STAT_SAT) else (n, s)

/-- A raw motor current corrected by its offset (R473). -/
def State.motorRaw (s : State) (i code : Nat) : Nat :=
  (clamp 0 4095 ((code : Int) - (s.fld (Reg.AN_MOFFi i) F.AN_MOFFi_MOFF : Nat) + 2048)).toNat

/-- PWM_PERIOD of an axis (R278, R279): phase voltages and drive times, the sampled currents, the stall count. -/
def State.pwmPeriod (s : State) (a rawA rawB : Nat) : State :=
  let x := s.axis a
  let ra := s.motorRaw (2 * a) rawA
  let rb := s.motorRaw (2 * a + 1) rawB
  let s := { s with mo := { s.mo with raw := (s.mo.raw.set (2 * a) ra).set (2 * a + 1) rb } }
  if !s.fitted a || x.st = .disabled then s.setAxis a { x with va := 0, vb := 0, da := 0, db := 0, stall := 0 }
  else
    let moving := x.st = .moving || x.st = .homing
    let held := match x.endAt with
      | some t => decide (s.now - t ≤ x.holdMs * 1000000)
      | none => false
    let iSet := if moving || held then x.iRun else x.iHold
    let r : Int := (s.fld (Reg.MO_Aa_ELEC a) F.MO_Aa_ELEC_R_COIL : Nat)
    let ke := s.fld (Reg.MO_Aa_ELEC a) F.MO_Aa_ELEC_KE
    let amp : Int := (iSet * r.toNat / 1000 + x.emf ke : Nat)
    let k := (x.pos % 1024).toNat
    let va := (amp * cosTab k) / 2 ^ 15
    let vb := (amp * sinTab k) / 2 ^ 15
    let da := s.phaseTime a va
    let db := da.2.phaseTime a vb
    let s := db.2
    let lsb : Int := (s.fld Reg.MO_CFG F.MO_CFG_I_LSB : Nat)
    let bemf (v : Int) (raw : Nat) : Int := v - r * (((raw : Int) - 2048) * lsb) / 1000000
    let e := (bemf va ra * cosTab k + bemf vb rb * sinTab k) / 2 ^ 15
    let eExp : Int := x.emf ke
    let counts := s.fld (Reg.MO_Aa_STALL a) F.MO_Aa_STALL_STALL_VMIN * 64 * 2 ^ 48 ≤ x.v.natAbs * 1000000 ∧
      e * 100 < eExp * (s.fld (Reg.MO_Aa_STALL a) F.MO_Aa_STALL_STALL_PCT : Nat)
    let n := if counts then x.stall + 1 else 0
    let full := decide (max 1 (s.fld (Reg.MO_Aa_STALL a) F.MO_Aa_STALL_STALL_N) ≤ n)
    let s := s.setAxis a { x with va := va, vb := vb, da := da.1, db := db.1, stall := if full then 0 else n }
    if full then s.stalled a else s

/-! ## Limit switches -/

/-- A level accepted after LIM_DB (R281, step 2 of R283). -/
def State.limitAccept (s : State) (a : Nat) (hi level : Bool) : State :=
  let x := s.axis a
  let s := s.setAxis a (if hi then { x with limHi := level } else { x with limLo := level })
  if !level then s
  else
    match x.st with
    | .homing => if !x.backoff && s.homeHigh a = hi then s.homingFault a 0 else s
    | .moving =>
      if decide (0 < x.v) && hi || decide (x.v < 0) && !hi then
        ((s.stopAxis a).flag Reg.MO_STAT F.MO_STAT_LIMIT).raise Ev.MO_LIMIT
      else s
    | _ => s

/-- A raw transition of a switch (R282): three within LIM_DB µs are chatter. -/
def State.limitEdge (s : State) (a : Nat) (hi : Bool) : State :=
  let x := s.axis a
  let db := max 1 (s.fld (Reg.MO_Aa_LIM a) F.MO_Aa_LIM_LIM_DB) * 1000
  let es := ((if hi then x.edgesHi else x.edgesLo) ++ [s.now]).filter fun t => decide (s.now - t ≤ db)
  let chatter := decide (3 ≤ es.length)
  let es' := if chatter then [] else es
  let s := s.setAxis a (if hi then { x with edgesHi := es' } else { x with edgesLo := es' })
  if !chatter then s
  else
    let s := (s.flag Reg.MO_STAT F.MO_STAT_CHATTER).raise Ev.MO_CHATTER
    if x.st = .homing && s.homeHigh a = hi then s.homingFault a 3 else s

/-! ## The cap sequence -/

/-- An axis passed over by the cap sequence (R285). -/
def State.capFail (s : State) : State := (s.flag Reg.MO_STAT F.MO_STAT_CAP_FAIL).raise Ev.MO_CAP_FAIL

/-- An axis at rest at CAP_POS (R285). -/
def State.capped (s : State) (a : Nat) : Bool :=
  let x := s.axis a
  x.st = .stopped && !x.lost && x.pos = s.rdI (Reg.MO_Aa_CAP_POS a)

/-- AT_CAP (R285). -/
def State.atCap (s : State) : Bool := [0, 1, 2, 3].all fun a => !s.fitted a || s.capped a

/-- The cap slide reports open (R285). -/
def State.capOpen (s : State) : Bool :=
  let x := s.axis 1
  x.st = .stopped && !x.lost && decide (s.rdN Reg.MO_OPEN_DIST ≤ (x.pos - s.rdI (Reg.MO_Aa_CAP_POS 1)).natAbs)

/-- The cap sequence carried on from the axis in hand, `fuel` steps (R285): an axis that is LOST is homed with CAP_HOME, then
moved to CAP_POS; one that cannot be or that faults is passed over; the next starts when it has ended. -/
def State.capStep : Nat → State → State
  | 0, s => s
  | n + 1, s =>
    match s.mo.capSeq with
    | none => s
    | some [] => { s with mo := { s.mo with capSeq := none, capPhase := 0 } }
    | some (a :: rest) =>
      let x := s.axis a
      let skip (s : State) : State := State.capStep n { s with mo := { s.mo with capSeq := some rest, capPhase := 0 } }
      if s.estopped || x.st = .moving || x.st = .homing then s
      else if s.mo.capPhase = 2 then (if x.lost then skip s.capFail else skip s)
      else if s.limitsZero a then skip s.capFail
      else if x.lost then
        if s.mo.capPhase = 0 && s.isSet Reg.MO_CFG F.MO_CFG_CAP_HOME &&
            s.fld (Reg.MO_Aa_STALL a) F.MO_Aa_STALL_STALL_VMIN * 64 ≤ s.fld (Reg.MO_Aa_HOME a) F.MO_Aa_HOME_HOME_V then
          { s with mo := { s.mo with capPhase := 1 } }.startHome a
        else skip s.capFail
      else if s.limitToward a (s.rdI (Reg.MO_Aa_CAP_POS a)) then skip s.capFail
      else { s with mo := { s.mo with capPhase := 2 } }.startMove a (s.rdI (Reg.MO_Aa_CAP_POS a))

/-- CAP_SEQUENCE_NEXT_AXIS. -/
def State.capNext (s : State) : State := s.capStep 9

/-- Entry to HOLD (R285): every moving axis stops and the cap sequence starts; a sequence that runs is left alone. -/
def State.capStart (s : State) : State :=
  if s.mo.capSeq.isSome then s
  else
    let s := forEach [0, 1, 2, 3] (fun s a => s.stopAxis a) s
    { s with mo := { s.mo with capSeq := some ([3, 2, 0, 1].filter s.fitted), capPhase := 0 } }.capNext

/-- The cut latch of ESTOP_N with ESTOP_HALT = 1 (R286). -/
def State.estopHalt (s : State) : State :=
  if s.isSet Reg.MO_CFG F.MO_CFG_ESTOP_HALT then
    let s := forEach [0, 1, 2, 3] (fun s a => s.disableAxis a) s
    { s with mo := { s.mo with capPhase := 0 } }
  else s

/-! ## What the registers show -/

/-- MO_STAT, MO_Aa_POS, MO_Aa_STAT and ARMED as read. -/
def State.moView (s : State) (addr : Nat) : Option Word :=
  if addr = Reg.MO_STAT then
    some (F.MO_STAT_AT_CAP.put (F.MO_STAT_CAP_SEQ.put (s.rd addr) (b2n s.mo.capSeq.isSome)) (b2n s.atCap))
  else
    ([0, 1, 2, 3].findSome? fun a =>
      let x := s.axis a
      if addr = Reg.MO_Aa_POS a then some (BitVec.ofNat 32 (ofSigned 32 x.pos))
      else if addr = Reg.MO_Aa_STAT a then
        some ([(F.MO_Aa_STAT_LIM_HI, b2n x.limHi), (F.MO_Aa_STAT_LIM_LO, b2n x.limLo), (F.MO_Aa_STAT_QUEUED, b2n x.queued.isSome),
          (F.MO_Aa_STAT_LOST, b2n x.lost), (F.MO_Aa_STAT_HOMED, b2n x.homed),
          (F.MO_Aa_STAT_STATE, match x.st with
            | .disabled => 0 | .stopped => 1 | .moving => 2 | .homing => 3)].foldl
          (fun w fv => BitField.put fv.1 w fv.2) (s.rd addr))
      else none).orElse fun _ =>
    (List.range 8).findSome? fun k =>
      if addr = Reg.MO_CMPm_CTRL k then
        some (F.MO_CMPm_CTRL_ARMED.put (s.rd addr) (b2n (s.mo.cmps.getD k ⟨false, 0, 0, 0⟩).armed))
      else none

end Sys2Proof.Machine
end

