-- ==== Sys2Proof/Machine/Nozzle.lean ====
section
/-! DEFINITION. Nozzle health (09): records (R198, R199), fire counts and the sweep (R200, R216 to R218), shadow and restore
(R201, R202), the map and its codes (R203, R204), the commit queue, staging, commits and epochs (R206 to R209), evidence
(R210, R211), the drop gate (R212 to R214), spit profiles and decap timers (R215), and head replacement (R219). -/

namespace Sys2Proof.Machine

/-- The power-on record of a nozzle (R198): SERVING for row 0, or for every nozzle of a RES2400 port. -/
def Structure.recDefault (si : Structure) (i : Nat) : NozRec :=
  { state := 0, policy := 0, serving := i % 2 = 0 || si.res24 (i / 2048), servingPrev := false, decap := false,
    gateValid := false, epoch := 0, roleEpoch := 0, missRun := 0, weakRun := 0, fire := 0, gateRes := 0, gateGood := 0,
    gateTa := 0, gateDt := 0, gateScan := 0, stateLine := 0, changes := 0 }

/-- The record of nozzle `i`. -/
def State.noz (s : State) (i : Nat) : NozRec := AMap.get s.si.recDefault s.nh.recs i

/-- The record of nozzle `i` replaced. -/
def State.setNoz (s : State) (i : Nat) (r : NozRec) : State :=
  { s with nh := { s.nh with recs := AMap.set s.si.recDefault s.nh.recs i r } }

/-- A request for a nozzle waits in the commit queue: PENDING (R198). -/
def State.nozPending (s : State) (i : Nat) : Bool := s.nh.queue.any fun e => match e.req with
  | .noz j _ _ => j = i
  | _ => false

/-- The 32 bytes of a record as committed (R198, R199). -/
def State.nozBytes (s : State) (i : Nat) : List Byte :=
  let r := s.noz i
  let flags := b2n (s.nozPending i) + 2 * b2n r.serving + 4 * b2n r.servingPrev + 8 * b2n r.decap + 16 * b2n r.gateValid
  let partner := if s.si.res24 (i / 2048) then 0xFFFF else (i % 2048) ^^^ 1
  leBytes 1 r.state ++ leBytes 1 r.policy ++ leBytes 1 flags ++ [0] ++ leBytes 2 partner ++ leBytes 2 r.epoch ++
  leBytes 2 r.roleEpoch ++ leBytes 2 (r.missRun + 16 * r.weakRun) ++ leBytes 5 r.fire ++
  leBytes 1 (r.gateRes + 16 * r.gateGood) ++ leBytes 2 r.gateTa ++ leBytes 2 r.gateDt ++ leBytes 2 r.gateScan ++
  leBytes 4 r.stateLine ++ leBytes 2 r.changes ++ [0, 0]

/-! ## Epoch history -/

/-- The commit position a history slot holds (R204, R209). -/
def State.histPos (s : State) (slot : Nat) : Nat := match s.nh.hist.find? fun h => h.slot = slot with
  | some h => h.pos
  | none => 0

/-- The epoch in force for an image line: that of the newest entry at or below it (R209). -/
def State.epochAt (s : State) (i : Nat) : Option Nat := (s.nh.hist.find? fun h => decide (h.pos ≤ i)).map (·.epoch)

/-! ## Lines composed ahead -/

/-- Frames a condition picks are not latched (R165, R166, R174): one that waits in the heads is left to be replaced, one being
shifted goes on to its end (R177). -/
def BankState.void (b : BankState) (gone : FrameKind → Bool) : BankState :=
  { b with shifting := b.shifting.map fun x => if gone x.1 then (.void, x.2) else x, waiting := b.waiting.filter fun x => !gone x.1 }

/-- What has been composed or shifted above bar line `l` discarded; it is composed anew (R37). -/
def State.dropAbove (s : State) (l : Nat) : State :=
  let gone (k : FrameKind) : Bool := match k with
    | .line n => decide (l < n)
    | _ => false
  let ps := s.hp.ports.map fun q => { q with fifo := q.fifo.filter fun e => decide (e.line ≤ l) }
  { s with hp := { s.hp with composing := s.hp.composing.filter (fun c => decide (c.1 ≤ l)), ports := ps, banks := s.hp.banks.map (·.void gone) },
           au := { s.au with lines := s.au.lines.filter fun b => decide (b.1 ≤ l) } }

/-- Everything composed above HWM discarded, so that delays and commits take effect with the next line composed (R11,
R37). -/
def State.recompose (s : State) : State := s.dropAbove s.wp.hwm

/-- The same for a change of delays, which the line ring and the slices depend on too (R37, R121; log entry 40). -/
def State.relay (s : State) : State :=
  let s := s.recompose
  { s with js := s.js.keepLines fun x => decide (x ≤ s.wp.hwm) }

/-! ## Codes -/

/-- Own settings with the unit changes of activated commits up to a bar line applied (R47). -/
def State.ownAt (s : State) (l : Nat) : AMap UnitCfg :=
  s.nh.unitsDue.foldl (fun own u => match u with
    | (c, .enable h en) => if c ≤ l then AMap.set unitCfgDefault own h { ownOf own h with en := en } else own
    | _ => own) s.ut.own

/-- The parent's enable for a bar line: the value a POS announced from its APPLY_LINE on (R52, R344). -/
def State.parentEnAt (s : State) (l : Nat) : Bool := match s.hl.next with
  | some (n, _, _, en) => if n ≤ l then en else s.ut.parent.en
  | none => s.ut.parent.en

/-- A unit effectively enabled for a bar line (R35, R47, R52). -/
def State.enabledAt (s : State) (l h : Nat) : Bool := s.si.valid h && s.parentEnAt l && effEn s.si (s.ownAt l) h

/-- What decides codes: states, policies, own settings of units and the parent's enable. -/
structure CodeView where
  si : Structure
  own : AMap UnitCfg
  recs : AMap NozRec
  parentEn : Bool

/-- A nozzle of the view. -/
def CodeView.noz (v : CodeView) (i : Nat) : NozRec := AMap.get v.si.recDefault v.recs i

/-- Usable: GOOD or WEAK, with NOZZLE and ROW units effectively enabled (R203). -/
def CodeView.usable (v : CodeView) (i : Nat) : Bool := (v.noz i).state ≤ 1 && v.parentEn && effEn v.si v.own (nozH i)

/-- The code of position `x` of a port (R203). -/
def CodeView.code (v : CodeView) (p x : Nat) : Nat :=
  if v.si.res24 p then
    let i := 2048 * p + x
    if v.usable i then x % 2 else if (v.noz i).policy = 2 then 3 else 2
  else
    let a := 2048 * p + 2 * x
    let ua := v.usable a
    let ub := v.usable (a + 1)
    let gap := if (v.noz a).policy = 2 then 3 else 2
    match (v.noz a).policy with
    | 1 => if ua then 0 else 2
    | 3 => if ub then 1 else if ua then 0 else 2
    | _ =>
      if ua && ub then (if (v.noz (a + 1)).state < (v.noz a).state then 1 else 0)
      else if ua then 0 else if ub then 1 else gap

/-- Positions of a port (R203). -/
def Structure.positions (si : Structure) (p : Nat) : Nat := if si.res24 p then 2048 else 1024

/-- A map entry where no commit has changed the position. -/
def Structure.mapDefault (si : Structure) (k : Nat) : MapEnt :=
  let c := if si.res24 (k / 2048) then k % 2 else 0
  ⟨c, c, 0⟩

/-- Entry `x` of port `p` in a map copy. -/
def State.mapEnt (s : State) (m : AMap MapEnt) (p x : Nat) : MapEnt := AMap.get s.si.mapDefault m (2048 * p + x)

/-- The map copy for a bar line (R204, R207). -/
def State.mapFor (s : State) (l : Nat) : AMap MapEnt := if s.nh.mapAt ≤ l then s.nh.mapNew else s.nh.mapOld.getD s.nh.mapNew

/-- The code of a position at an image line, in the copy for a bar line (R204). -/
def State.codeAt (s : State) (l p x : Nat) (i : Int) : Nat :=
  let e := s.mapEnt (s.mapFor l) p x
  if (s.histPos e.hist : Int) ≤ i then e.cur else e.prev

/-- The parent's enable with the commits activated applied (R52). -/
def State.parentDue (s : State) : Bool := s.nh.unitsDue.foldl (fun e u => match u.2 with
  | .parent en => en
  | _ => e) s.ut.parent.en

/-- The view of the state as committed. -/
def State.view (s : State) : CodeView := ⟨s.si, s.ownAt (2 ^ 60), s.nh.recs, s.parentDue⟩

/-- A request applied to a view. -/
def CodeView.apply (v : CodeView) : NhReq → CodeView
  | .noz i st pol =>
    let r := v.noz i
    { v with recs := AMap.set v.si.recDefault v.recs i { r with state := st.getD r.state, policy := pol.getD r.policy } }
  | .enable h en => { v with own := AMap.set unitCfgDefault v.own h { ownOf v.own h with en := en } }
  | .release _ => v
  | .parent en => { v with parentEn := en }

/-- Positions (port, position) a request can bear on. -/
def State.reqPositions (s : State) : NhReq → List (Nat × Nat)
  | .noz i _ _ => [(i / 2048, s.si.posOf i)]
  | .release _ => []
  | .parent _ => s.validPorts.flatMap fun p => (List.range (s.si.positions p)).map fun x => (p, x)
  | .enable h _ =>
    match kindOf h with
    | some .nozzle => [((h - 0x20000) / 2048, s.si.posOf (h - 0x20000))]
    | some .row => (List.range (s.si.positions ((h - 0x10100) / 2))).map fun x => ((h - 0x10100) / 2, x)
    | _ =>
      (s.validPorts.filter fun p => s.si.below h (portH p)).flatMap fun p =>
        (List.range (s.si.positions p)).map fun x => (p, x)

/-- The positions whose code a request changes in a view (R206). -/
def State.changed (s : State) (v : CodeView) (r : NhReq) : List (Nat × Nat) :=
  (s.reqPositions r).filter fun px => (v.apply r).code px.1 px.2 ≠ v.code px.1 px.2

/-- The map as it will stand after every queued request (R206). -/
def State.viewQueued (s : State) : CodeView := s.nh.queue.foldl (fun v e => v.apply e.req) s.view

/-! ## The commit queue -/

/-- EVID_WINDOW, at least 64 (NH_CFG). -/
def State.evidWindow (s : State) : Nat := max 64 (s.fld Reg.NH_CFG F.NH_CFG_EVID_WINDOW)

/-- C_r of a position (R206): where its code last changed, committed or queued. -/
def State.lastChange (s : State) (px : Nat × Nat) : Option Nat :=
  let com := (AMap.find? s.nh.mapNew (2048 * px.1 + px.2)).map fun e => s.histPos e.hist
  let scan := s.nh.queue.foldl (fun (a : CodeView × Option Nat) e =>
    let v' := a.1.apply e.req
    (v', if v'.code px.1 px.2 ≠ a.1.code px.1 px.2 then some e.c else a.2)) (s.view, none)
  match scan.2 with
  | some c => some c
  | none => com

/-- The commit position of a request queued now in PRINT (R206). -/
def State.commitPos (s : State) (r : NhReq) : Nat :=
  let t1 := s.line + s.si.limits.commitLag
  let t2 := match s.nh.queue.getLast? with
    | some e => (match s.nh.staging with
      | some (c, _) => if c = e.c then e.c + 4 else e.c
      | none => e.c)
    | none => 0
  let gap := max s.dMax s.si.limits.camOffset + s.evidWindow
  let t3 := (s.changed s.viewQueued r).foldl (fun a px => match s.lastChange px with
    | some c => max a (c + gap)
    | none => a) 0
  s.boundaryAt (max t1 (max t2 t3))

/-- Severity of the STATE of a request in a shared entry (R206): one equal to the committed STATE, or none, ranks below all. -/
def severity (committed : Nat) (st : Option Nat) : Nat := match st with
  | some x => if x = committed then 0 else x + 1
  | none => 0

/-- Two requests for one nozzle at one commit position as one (R206): the more severe STATE, and the POLICY of the later that
carries one. -/
def NhReq.merge (committed : Nat) (a b : NhReq) : NhReq := match a, b with
  | .noz i st0 pol0, .noz _ st pol => .noz i (if severity committed st0 < severity committed st then st else st0) (pol.orElse fun _ => pol0)
  | _, _ => a

/-- A request for nozzle `i`. -/
def NhReq.isFor (i : Nat) : NhReq → Bool
  | .noz j _ _ => j = i
  | _ => false

/-- A request queued in PRINT; `none` where it needs an entry and the queue is full (R206). -/
def State.queueReq (s : State) (r : NhReq) : Option State :=
  let c := s.commitPos r
  let add : Option State :=
    if s.nh.queue.length < 256 then some { s with nh := { s.nh with queue := s.nh.queue ++ [⟨c, r⟩] } } else none
  match r with
  | .noz i _ _ =>
    let same (e : NhEntry) : Bool := decide (e.c = c) && e.req.isFor i
    let merge (e : NhEntry) : NhEntry := if same e then ⟨e.c, e.req.merge (s.noz i).state r⟩ else e
    if s.nh.queue.any same then some { s with nh := { s.nh with queue := s.nh.queue.map merge } } else add
  | _ => add

/-- A refusal by a full queue (R206). -/
def State.queueFull (s : State) : State :=
  ((s.bump Reg.NH_QUEUE F.NH_QUEUE_DROPPED).flag Reg.NH_STAT F.NH_STAT_NQ_FULL).raise Ev.NQ_FULL

/-! ## Replacement requests -/

/-- COVER of R218: columns whose non-serving nozzle is GOOD and usable. -/
def State.cover (s : State) (p : Nat) : Nat :=
  let v := s.view
  ((List.range 1024).filter fun c =>
    [2048 * p + 2 * c, 2048 * p + 2 * c + 1].any fun i => !(s.noz i).serving && (s.noz i).state = 0 && v.usable i).length

/-- GAPS of R218: positions with code 2 or 3. -/
def State.gaps (s : State) (p : Nat) : Nat :=
  ((List.range (s.si.positions p)).filter fun x => decide (2 ≤ (s.mapEnt s.nh.mapNew p x).cur)).length

/-- WEAR_LIMIT of a port in drops; 0 disables (R217). -/
def State.wearLimit (s : State) (p : Nat) : Nat := s.fld (Reg.NH_Pp_CFG p) F.NH_Pp_CFG_WEAR_LIMIT * 2 ^ 24

/-- PROJ_H of a port (R217). -/
def State.projH (s : State) (p : Nat) : Nat := if s.wearLimit p = 0 then 0xFFFF else AMap.get (fun _ => 0xFFFF) s.nh.proj p

/-- The causes of HEAD_REPLACE_REQ (R218): cover low, gaps high, wear. -/
def State.replaceCauses (s : State) (p : Nat) : Bool × Bool × Bool :=
  (!s.si.res24 p && decide (s.cover p < s.fld (Reg.NH_Pp_LIM p) F.NH_Pp_LIM_COVER_MIN),
   decide (s.fld (Reg.NH_Pp_LIM p) F.NH_Pp_LIM_GAP_MAX < s.gaps p),
   decide (s.projH p < s.fld Reg.NH_WEAR_CFG F.NH_WEAR_CFG_HORIZON_H))

/-- HEAD_REPLACE_REQ of a port judged anew (R218); its rise raises HEAD_REPLACE. -/
def State.replaceUpdate (s : State) (p : Nat) : State :=
  if !s.si.portValid p then s
  else
    let c := s.replaceCauses p
    let on := c.1 || c.2.1 || c.2.2
    let was := s.fl.hrr.testBit p
    let s := { s with fl := { s.fl with hrr := setBits s.fl.hrr p p (b2n on) } }
    if on && !was then (s.flag Reg.NH_STAT F.NH_STAT_HEAD_REPLACE).raise Ev.HEAD_REPLACE (portH p) else s

/-! ## Commits -/

/-- RELEASE of the ports at or below a unit (R51): each inhibit whose cause is gone ends. Also whether any inhibit ended. -/
def State.releasePorts (s : State) (h : Nat) : State × Bool :=
  (s.validPorts.filter fun p => s.si.below h (portH p)).foldl (fun (a : State × Bool) p =>
    let q := a.1.hp.ports.getD p HeadPort.reset
    let stays := match q.temp with
      | some t => decide (a.1.si.limits.hardT < t.1)
      | none => false
    let q' := { q with hot := q.hot && stays, bankFault := q.bankFault && !(a.1.an.chs.getD (p / 4) SupplyCh.reset).armed }
    if q'.hot ≠ q.hot || q'.bankFault ≠ q.bankFault then ({ a.1 with hp := { a.1.hp with ports := a.1.hp.ports.set p q' } }, true)
    else a) (s, false)

/-- A nozzle takes what a commit at `c` gives it (R207): a STATE change brings EPOCH, STATE_LINE and CHANGES. -/
def State.commitNoz (s : State) (c epoch i st : Nat) (pol : Option Nat) : State :=
  let r := s.noz i
  let r' := { r with policy := pol.getD r.policy }
  if st = r.state then s.setNoz i r'
  else
    let s := s.setNoz i { r' with state := st, epoch := epoch, stateLine := c % 2 ^ 32, changes := min 0xFFFF (r.changes + 1) }
    (s.flag Reg.NH_STAT F.NH_STAT_NOZZLE_STATE).raise Ev.NOZZLE_STATE (portH (i / 2048))

/-- The roles of a nozzle set by a change of code (R203, R207). -/
def State.setRole (s : State) (epoch i : Nat) (serving : Bool) : State :=
  let r := s.noz i
  if r.serving = serving then s
  else s.setNoz i { r with servingPrev := r.serving, serving := serving, roleEpoch := epoch }

/-- The code of a position brought up to date in the newest map copy by a commit (R203, R207): CUR moves to PREV and H names
the commit. -/
def State.recode (s : State) (v : CodeView) (epoch slot : Nat) (px : Nat × Nat) : State :=
  let e := s.mapEnt s.nh.mapNew px.1 px.2
  let c := v.code px.1 px.2
  if c = e.cur then s
  else
    let m := AMap.set s.si.mapDefault s.nh.mapNew (2048 * px.1 + px.2) ⟨c, e.cur, slot⟩
    let s := { s with nh := { s.nh with mapNew := m } }
    if s.si.res24 px.1 then s.setRole epoch (2048 * px.1 + px.2) (decide (c < 2))
    else
      let a := 2048 * px.1 + 2 * px.2
      (s.setRole epoch a (decide (c = 0))).setRole epoch (a + 1) (decide (c = 1))

/-- A commit recorded in the history (R209): the slot of an entry of equal position, which it replaces, else a free slot of the
256, else that of the oldest entry. Answers the slot. -/
def State.record (s : State) (c epoch : Nat) : Nat × State :=
  let hs := s.nh.hist
  let slot := match hs.find? fun h => h.pos = c, hs.getLast? with
    | some h, _ => h.slot
    | none, some o => if hs.length < 256 then hs.length else o.slot
    | none, none => 0
  (slot, { s with nh := { s.nh with hist := ⟨slot, c, epoch⟩ :: hs.filter fun h => h.slot ≠ slot } })

/-- Whether a request changes a record, a map entry, an effective enable or an inhibit (R208). -/
def State.reqChanges (s : State) (r : NhReq) : Bool :=
  match r with
  | .noz i st pol => decide (st.getD (s.noz i).state ≠ (s.noz i).state) || (match pol with
      | some p => decide (p ≠ (s.noz i).policy)
      | none => false)
  | .enable h en =>
    let own' := AMap.set unitCfgDefault (s.ownAt (2 ^ 60)) h { ownOf (s.ownAt (2 ^ 60)) h with en := en }
    s.parentDue && decide (effEn s.si own' h ≠ effEn s.si (s.ownAt (2 ^ 60)) h)
  | .release h => (s.releasePorts h).2
  | .parent en => decide (en ≠ s.parentDue) && (ownOf (s.ownAt (2 ^ 60)) 0).en

/-- One commit of requests at position `c` (R207, R208): records, map and roles change, the epoch advances if anything did,
and the history gains its entry. In PRINT unit changes wait for the tick of line `c` and the old copy is kept for the lines
below it; outside PRINT the lines composed ahead are composed anew (R11). -/
def State.commit (s : State) (c : Nat) (rs : List NhReq) : State :=
  let inPrint := decide (s.mode = .print)
  let changes := rs.any s.reqChanges
  let epoch := if changes then (s.nh.epoch + 1) % 65536 else s.nh.epoch
  let s := { s with nh := { s.nh with
    epoch := epoch, mapOld := if inPrint then some s.nh.mapNew else none, mapAt := if inPrint then c else 0 } }
  let rec' := s.record c epoch
  let s := rec'.2
  let s := rs.foldl (fun s r => match r with
    | .noz i st pol => s.commitNoz c epoch i (st.getD (s.noz i).state) pol
    | .enable h en =>
      if inPrint then { s with nh := { s.nh with unitsDue := s.nh.unitsDue ++ [(c, r)] } }
      else { s with ut := { s.ut with own := AMap.set unitCfgDefault s.ut.own h { ownOf s.ut.own h with en := en } } }
    | .release h =>
      if inPrint then { s with nh := { s.nh with unitsDue := s.nh.unitsDue ++ [(c, r)] } } else (s.releasePorts h).1
    | .parent en =>
      if inPrint then { s with nh := { s.nh with unitsDue := s.nh.unitsDue ++ [(c, r)] } }
      else { s with ut := { s.ut with parent := { s.ut.parent with en := en } } }) s
  let s := if inPrint then s else s.recompose
  let v := s.view
  let px := rs.flatMap s.reqPositions
  let s := px.foldl (fun s q => s.recode v epoch rec'.1 q) s
  (px.map (·.1)).eraseDups.foldl (fun s p => s.replaceUpdate p) s

/-- The parent's enable changed (R52): the codes of every position follow it as one commit, unless one has been activated. -/
def State.parentEnable (s : State) (en : Bool) : State :=
  let s := if s.parentDue = en then s else s.commit (s.wp.hwm + 1) [.parent en]
  let due := s.nh.unitsDue.filter fun u => match u.2 with
    | .parent _ => false
    | _ => true
  { s with nh := { s.nh with unitsDue := due }, ut := { s.ut with parent := { s.ut.parent with en := en } } }

/-- At the composition of the line from which a parent's enable announced by a POS holds (R52, R344), the codes follow it. -/
def State.parentActivate (s : State) (l : Nat) : State := match s.hl.next with
  | some (n, _, _, en) => if s.mode = .print && decide (n ≤ l) && decide (s.parentDue ≠ en) then s.commit n [.parent en] else s
  | none => s

/-- Unit changes of commits whose line the tick has reached (R47). -/
def State.unitsReach (s : State) (l : Nat) : State :=
  let due := s.nh.unitsDue.filter fun u => decide (u.1 ≤ l)
  let s := { s with nh := { s.nh with unitsDue := s.nh.unitsDue.filter fun u => decide (l < u.1) } }
  due.foldl (fun s u => match u.2 with
    | .enable h en => { s with ut := { s.ut with own := AMap.set unitCfgDefault s.ut.own h { ownOf s.ut.own h with en := en } } }
    | .release h => (s.releasePorts h).1
    | .parent en => { s with ut := { s.ut with parent := { s.ut.parent with en := en } } }
    | .noz _ _ _ => s) s

/-- A request of any source: queued in PRINT, committed at once at HWM + 1 otherwise (R206, R208). `none` where the queue
refuses it. -/
def State.request (s : State) (r : NhReq) : Option State :=
  if s.mode = .print then s.queueReq r else some (s.commit (s.wp.hwm + 1) [r])

/-- A request whose refusal is reported and otherwise dropped (R206). -/
def State.requestOrDrop (s : State) (r : NhReq) : State := (s.request r).getD s.queueFull

/-- A queued request as it stands at its commit: a STATE that the table of R199 no longer lets the nozzle take from where earlier
commits have left it is not taken. -/
def State.stillDue (s : State) (r : NhReq) : NhReq := match r with
  | .noz i (some st) pol =>
    let cur := (s.noz i).state
    .noz i (if (st = 0 && cur ≠ 3) || (st = 1 && cur ≠ 0) || (st = 2 && 1 < cur) then none else some st) pol
  | _ => r

/-- Requests that share a commit position, one for each nozzle (R206). -/
def State.mergeReqs (s : State) (rs : List NhReq) : List NhReq :=
  rs.foldl (fun out r => match r with
    | .noz i _ _ => if out.any (NhReq.isFor i) then out.map fun x => if x.isFor i then x.merge (s.noz i).state r else x else out ++ [r]
    | _ => out ++ [r]) []

/-- On exit from PRINT every queued request commits at once, in one commit at HWM + 1 (R208). -/
def State.commitExit (s : State) : State :=
  let s := s.unitsReach (2 ^ 60)
  let rs := s.nh.queue.map (·.req)
  let s := { s with nh := { s.nh with queue := [], staging := none } }
  if rs.isEmpty then s else s.commit (s.wp.hwm + 1) ((s.mergeReqs rs).map s.stillDue)

/-- The oldest queued commit position. -/
def State.nextCommit (s : State) : Option Nat := s.nh.queue.head?.map (·.c)

/-- MAP_STAGING_START (R207): when the commit before it has had its line first fired. -/
def State.stageStart (s : State) : State :=
  match s.nextCommit, s.nh.staging, s.nh.mapOld with
  | some c, none, none => if s.mode = .print then { s with nh := { s.nh with staging := some (c, false) } } else s
  | _, _, _ => s

/-- MAP_STAGING_COMPLETE. -/
def State.stageDone (s : State) : State :=
  match s.nh.staging with
  | some (c, _) => { s with nh := { s.nh with staging := some (c, true) } }
  | none => s

/-- The staging a bar line needs before it can be composed is complete (R207). -/
def State.stagedFor (s : State) (l : Nat) : Bool :=
  match s.nextCommit with
  | none => true
  | some c => decide (l < c) || s.nh.staging = some (c, true)

/-- Activation at the composition of bar line C (R207). -/
def State.activate (s : State) (l : Nat) : State :=
  match s.nextCommit with
  | none => s
  | some c =>
    if l < c then s
    else
      let rs := (s.nh.queue.filter fun e => e.c = c).map (·.req)
      { s with nh := { s.nh with queue := s.nh.queue.filter fun e => e.c ≠ c, staging := none } }.commit c (rs.map s.stillDue)

/-- The previous copy is released when bar line C is first fired (R207). -/
def State.firedFirst (s : State) (l : Nat) : State :=
  if s.nh.mapAt ≤ l then { s with nh := { s.nh with mapOld := none } } else s

/-- The records of the ports of a list whose resolution mode a loaded image changes (R198): roles as after power-on in the new mode,
and no map entry of the old positions. -/
def State.resLoad (s : State) (old : Structure) (ps : List Nat) : State :=
  let on (p : Nat) : Bool := ps.contains p && old.res24 p != s.si.res24 p
  let role (i : Nat) (r : NozRec) : NozRec := { r with serving := (s.si.recDefault i).serving, servingPrev := false }
  let recs := (s.nh.recs.map fun r => if on (r.1 / 2048) then (r.1, role r.1 r.2) else r).filter fun r => decide (r.2 ≠ s.si.recDefault r.1)
  { s with nh := { s.nh with recs := recs, mapNew := s.nh.mapNew.filter fun e => !on (e.1 / 2048) } }

/-- Loading an image (R61, R198, R203): codes of positions where a unit is not enabled, and the roles that follow from them on ports
with RES2400 = 0; on the others every nozzle serves at first. -/
def State.mapLoad (s : State) : State :=
  let v := s.view
  let ps := s.validPorts.filter fun p =>
    !effEn s.si s.ut.own (portH p) || s.ut.own.any fun c => !c.2.en && s.si.below (portH p) c.1
  ps.foldl (fun s p => (List.range (s.si.positions p)).foldl (fun s x =>
    let t := s.recode v 0 0 (p, x)
    if s.si.res24 p then { t with nh := { t.nh with recs := s.nh.recs } } else t) s) s

/-! ## Firmware requests (R199) -/

/-- The controller is the witness of a pair (R397). -/
def State.isWitness (s : State) : Bool := s.fld Reg.AU_WIT_CFG F.AU_WIT_CFG_ROLE = 2

/-- Why a write of the word at offset 0 is refused, as R199 lists it. -/
def State.nozWriteOk (s : State) (i : Nat) (w : Word) : Bool :=
  let st := bits w.toNat 1 0
  let cur := (s.noz i).state
  let n := w.toNat
  n / 65536 = 0 && s.mode ≠ .boot && s.mode ≠ .test &&
  (st = cur || !(st = 1 || st = 2 || (st = 0 && (cur = 1 || cur = 2)))) &&
  !(s.isWitness && s.mode = .print)

/-- What a write of the word at offset 0 asks for (R199): POLICY only where its STATE is the committed one. -/
def State.nozAsk (s : State) (i : Nat) (w : Word) : NhReq :=
  let st := bits w.toNat 1 0
  .noz i (if st = (s.noz i).state then none else some st) (some (bits w.toNat 9 8))

/-- NOZZLE_RECORD_WRITE (R199): the state after it and whether it was accepted. -/
def State.nozWrite (s : State) (i : Nat) (w : Word) : State × Bool :=
  if s.nozWriteOk i w then
    match s.request (s.nozAsk i w) with
    | some s' => (s', true)
    | none => (s.queueFull, false)
  else (s, false)

/-! ## Fire counts and wear -/

/-- The accumulator of a nozzle added to FIRE_COUNT and cleared (R200), with the wear limit of R217: RETIRED is queued once,
and a refused request is tried again at the next flush. -/
def State.flush (s : State) (i : Nat) : State :=
  let n := AMap.get (fun _ => 0) s.nh.acc i
  let s := { s with nh := { s.nh with acc := AMap.erase s.nh.acc i } }
  let r := s.noz i
  let s := s.setNoz i { r with fire := min (2 ^ 40 - 1) (r.fire + n) }
  let lim := s.wearLimit (i / 2048)
  if lim = 0 || (s.noz i).fire < lim || s.nh.wornOut.contains i then s
  else
    match s.request (.noz i (some 3) none) with
    | some s => { s with nh := { s.nh with wornOut := s.nh.wornOut ++ [i] } }
    | none => s.queueFull

/-- Lines of a port counted in PRINT so far (R216). -/
def State.portLines (s : State) (p : Nat) : Nat := AMap.get (fun _ => 0) s.nh.lines p

/-- A bar line counted for a port, fired or left blank (R216). -/
def State.lineCount (s : State) (p : Nat) : State :=
  { s with nh := { s.nh with lines := AMap.set (fun _ => 0) s.nh.lines p (s.portLines p + 1) } }

/-- A value of 1 to 3 counted for a nozzle (R200). -/
def State.fireCount (s : State) (i : Nat) : State :=
  let n := min 255 (AMap.get (fun _ => 0) s.nh.acc i + 1)
  let s := { s with nh := { s.nh with acc := AMap.set (fun _ => 0) s.nh.acc i n } }
  if n = 255 then s.flush i else s

/-- A nozzle has received a drop: its idle count starts again, and DECAP clears (R216). -/
def State.drop (s : State) (i : Nat) : State :=
  let s := { s with nh := { s.nh with idle := AMap.set (fun _ => 0) s.nh.idle i (s.portLines (i / 2048)) } }
  if (s.noz i).decap then s.setNoz i { s.noz i with decap := false } else s

/-- Lines counted in PRINT (R216): a serving nozzle whose idle count reaches DECAP_K sets DECAP and raises DECAP_RISK. -/
def State.idleCheck (s : State) (p : Nat) : State :=
  let k := s.fld Reg.NH_CFG F.NH_CFG_DECAP_K
  if k = 0 then s
  else
    (List.range 2048).foldl (fun s n =>
      let i := 2048 * p + n
      let r := s.noz i
      if r.serving && !r.decap && k * 1024 ≤ s.portLines p - AMap.get (fun _ => 0) s.nh.idle i then
        ((s.setNoz i { r with decap := true }).flag Reg.NH_STAT F.NH_STAT_DECAP_RISK).raise Ev.DECAP_RISK (portH p)
      else s) s

/-- M of a port (R217). -/
def State.maxFire (s : State) (p : Nat) : Nat :=
  (List.range 2048).foldl (fun m n => let r := s.noz (2048 * p + n); if r.serving then max m r.fire else m) 0

/-- M of a port sampled and PROJ_H taken from its growth over the last WIN_S seconds, or since the first sample while that is not
so long ago (R217). -/
def State.project (s : State) (p : Nat) : State :=
  let win := max 1 (s.fld Reg.NH_WEAR_CFG F.NH_WEAR_CFG_WIN_S)
  let m := s.maxFire p
  let old := AMap.get (fun _ => []) s.nh.wearM p
  let inWin := old.filter fun x => decide (s.now < x.1 + win * 1000000000)
  let base := ((old.find? fun x => decide (x.1 + win * 1000000000 ≤ s.now)).orElse fun _ => old.getLast?).map (·.2)
  let g := m - base.getD 0
  let h := if g = 0 then 0xFFFF else min 0xFFFF ((s.wearLimit p - m) * win / (g * 3600))
  let kept := (s.now, m) :: (inWin ++ (old.find? fun x => decide (x.1 + win * 1000000000 ≤ s.now)).toList)
  { s with nh := { s.nh with wearM := AMap.set (fun _ => []) s.nh.wearM p kept, proj := AMap.set (fun _ => 0xFFFF) s.nh.proj p h } }

/-- The records a sweep has something to do for: those with an accumulator, and those stored, whose count may have reached the
limit (R200, R217). -/
def State.sweepList (s : State) : List Nat := (s.nh.acc.map (·.1)) ++ (s.nh.recs.map (·.1)).filter fun i => (AMap.find? s.nh.acc i).isNone

/-! ## Shadow and restore -/

/-- The shadow area of a port (R201); `none` while the shadow is disabled. -/
def State.shadowAt (s : State) (p : Nat) : Option Nat :=
  let a := s.rdN Reg.NH_SHADOW
  if a = 0 then none else some (a * 131072 + 131072 * p)

/-- The header of a port in the shadow (R201). -/
def State.shadowHeader (s : State) (p : Nat) (valid : Bool) : List Byte :=
  let q := s.hp.ports.getD p HeadPort.reset
  leBytes 4 q.serial ++ leBytes 2 q.headType ++ [BitVec.ofNat 8 (b2n valid)] ++ List.replicate 57 0

/-- NH_SHADOW_WRITE (R201): the record of a nozzle, and the header of its port. VALID stays where the header was that of the head
before, and is otherwise left to the sweep, which writes every record (log entry 45). -/
def State.shadowWrite (s : State) (i : Nat) : State :=
  match s.shadowAt (i / 2048) with
  | none => s
  | some a =>
    let valid := decide (s.dramRead (a + 65536) 7 = (s.shadowHeader (i / 2048) true).take 7)
    (s.dramWrite (a + 32 * (i % 2048)) (s.nozBytes i)).dramWrite (a + 65536) (s.shadowHeader (i / 2048) valid)

/-- The whole area of a port written by the sweep (R201): every record, the header with VALID, and 0 in the rest. -/
def State.shadowSweep (s : State) (p : Nat) : State :=
  match s.shadowAt p with
  | none => s
  | some a =>
    s.dramWrite a (((List.range 2048).flatMap fun n => s.nozBytes (2048 * p + n)) ++ s.shadowHeader p true ++ List.replicate 65472 0)

/-- NH_SWEEP (R200, R201): every record visited, projections and replacement requests judged (R217, R218), and the shadow written. -/
def State.sweep (s : State) : State :=
  let s := s.sweepList.foldl (fun s i => s.flush i) s
  let s := s.validPorts.foldl (fun s p => (s.project p).replaceUpdate p) s
  (List.range 64).foldl (fun s p => s.shadowSweep p) s

/-- A record read back from its 32 bytes. -/
def NozRec.ofBytes (b : List Byte) : NozRec :=
  let f := leAt b 2 1
  { state := leAt b 0 1 % 4, policy := leAt b 1 1 % 4, serving := bit f 1, servingPrev := bit f 2, decap := bit f 3,
    gateValid := bit f 4, epoch := leAt b 6 2, roleEpoch := leAt b 8 2, missRun := leAt b 10 1 % 16,
    weakRun := leAt b 10 1 / 16, fire := leAt b 12 5, gateRes := leAt b 17 1 % 4, gateGood := leAt b 17 1 / 16,
    gateTa := leAt b 18 2, gateDt := leAt b 20 2, gateScan := leAt b 22 2, stateLine := leAt b 24 4, changes := leAt b 28 2 }

/-- The codes of a port brought up to date by a commit at HWM + 1 that replaces its records (R202, R208, R219); `changed`: a
record has changed. -/
def State.portCommit (s : State) (p : Nat) (changed : Bool) : State :=
  let v := s.view
  let px := (List.range (s.si.positions p)).map fun x => (p, x)
  let changed := changed || px.any fun q => decide (v.code q.1 q.2 ≠ (s.mapEnt s.nh.mapNew q.1 q.2).cur)
  let epoch := if changed then (s.nh.epoch + 1) % 65536 else s.nh.epoch
  let s := { s with nh := { s.nh with epoch := epoch, mapOld := none, mapAt := 0 } }
  let rec' := s.record (s.wp.hwm + 1) epoch
  let s := (px.foldl (fun s q => s.recode v epoch rec'.1 q) rec'.2).recompose
  s.replaceUpdate p

/-- NOZZLE_STATE for every nozzle of a port whose STATE a commit of the whole port has changed (R221). -/
def State.stateEvents (s was : State) (p : Nat) : State :=
  forEach ((List.range 2048).filter fun n => (was.noz (2048 * p + n)).state ≠ (s.noz (2048 * p + n)).state)
    (fun s _ => (s.flag Reg.NH_STAT F.NH_STAT_NOZZLE_STATE).raise Ev.NOZZLE_STATE (portH p)) s

/-- RESTORE (R202): in IDLE, the shadow records of a port whose header matches its head; committed at once. -/
def State.restorePort (s : State) (p : Nat) : State :=
  let q := s.hp.ports.getD p HeadPort.reset
  let refuse := s.flag Reg.NH_STAT F.NH_STAT_RESTORE_REFUSED
  match s.shadowAt p with
  | none => refuse
  | some a =>
    let h := s.dramRead (a + 65536) 64
    if s.mode ≠ .idle || !q.identValid || leAt h 6 1 ≠ 1 || leAt h 0 4 ≠ q.serial || leAt h 4 2 ≠ q.headType then refuse
    else
      let was := s
      let s := (List.range 2048).foldl (fun s n =>
        let i := 2048 * p + n
        s.setNoz i (NozRec.ofBytes (s.dramRead (a + 32 * n) 32))) s
      (s.portCommit p (was.nh.recs ≠ s.nh.recs)).stateEvents was p

/-- A write of NH_CTRL (R202). -/
def State.nhCtrl (s : State) (w : Word) : State :=
  if F.NH_CTRL_RESTORE.get w = 1 then s.restorePort (F.NH_CTRL_PORT.get w) else s

/-- What no head has been seen on a port stands as: no IDENT carries this SERIAL. -/
def headNone : Nat → Nat × Nat := fun _ => (2 ^ 32, 0)

/-- SERIAL and HEAD_TYPE of the last IDENT of a port. -/
def State.headId (s : State) (p : Nat) : Nat × Nat :=
  let q := s.hp.ports.getD p HeadPort.reset
  (q.serial, q.headType)

/-- A head with another SERIAL or HEAD_TYPE (R219): queued requests of the port are discarded, its records return to their
power-on values in one commit, HEAD_NEW is raised. -/
def State.headNew (s : State) (p : Nat) : State :=
  let was := s
  let s := { s with nh := { s.nh with
    queue := s.nh.queue.filter (fun e => match e.req with
      | .noz i _ _ => decide (i / 2048 ≠ p)
      | _ => true),
    recs := s.nh.recs.filter (fun r => decide (r.1 / 2048 ≠ p)),
    acc := s.nh.acc.filter (fun r => decide (r.1 / 2048 ≠ p)),
    wornOut := s.nh.wornOut.filter (fun i => decide (i / 2048 ≠ p)),
    seen := AMap.set headNone s.nh.seen p (s.headId p) } }
  (((s.portCommit p (was.nh.recs ≠ s.nh.recs)).stateEvents was p).flag Reg.NH_STAT F.NH_STAT_HEAD_NEW).raise Ev.HEAD_NEW (portH p)

/-- A port that has become READY, judged by the head last seen on it (R219). In PRINT the judgement waits for the end of PRINT (log
entry 45). -/
def State.headSeen (s : State) (p : Nat) : State :=
  if s.mode = .print then s
  else
    match AMap.find? s.nh.seen p with
    | some h => if h = s.headId p then s else s.headNew p
    | none => { s with nh := { s.nh with seen := AMap.set headNone s.nh.seen p (s.headId p) } }

/-- The heads that became READY in PRINT judged once it has ended (R219). -/
def State.headsSeen (s : State) : State :=
  ((List.range 64).filter fun p => (s.hp.ports.getD p HeadPort.reset).st = .ready).foldl (fun s p => s.headSeen p) s

/-- HEAD_REPLACE_REQ of every port judged anew after a write of what its causes depend on (R218). -/
def State.replaceAll (s : State) : State := s.validPorts.foldl (fun s p => s.replaceUpdate p) s

/-! ## Evidence -/

/-- The nozzle that served a position at epoch `e` (R210): by SERVING or SERVING_PREV on either side of ROLE_EPOCH. -/
def State.servedAt (s : State) (p x e : Nat) : Option Nat :=
  let is := if s.si.res24 p then [2048 * p + x] else [2048 * p + 2 * x, 2048 * p + 2 * x + 1]
  is.find? fun i =>
    let r := s.noz i
    if (e + 65536 - r.roleEpoch) % 65536 < 32768 then r.serving else r.servingPrev

/-- A record applied to its nozzle (R211). -/
def State.evidApply (s : State) (i cls : Nat) : State :=
  let r := s.noz i
  let r' := match cls with
    | 0 => { r with missRun := 0, weakRun := 0 }
    | 1 => { r with missRun := 0, weakRun := min 15 (r.weakRun + 1) }
    | _ => { r with missRun := min 15 (r.missRun + 1), weakRun := min 15 (r.weakRun + 1) }
  let s := s.setNoz i r'
  let missN := max 1 (s.fld Reg.NH_CFG F.NH_CFG_MISS_N)
  let weakN := max 1 (s.fld Reg.NH_CFG F.NH_CFG_WEAK_N)
  if r'.missRun = missN && r.missRun ≠ missN && r'.state ≤ 1 then s.requestOrDrop (.noz i (some 2) none)
  else if r'.weakRun = weakN && r.weakRun ≠ weakN && r'.state = 0 then s.requestOrDrop (.noz i (some 1) none)
  else s

/-- A record dropped, counted as STALE or as SPLIT or GAP, with EVID_STALE (R210, R221). -/
def State.evidDrop (s : State) (f : BitField) : State :=
  ((s.bump Reg.NH_EVID_DROP f).flag Reg.NH_STAT F.NH_STAT_EVID_STALE).raise Ev.EVID_STALE

/-- EVIDENCE_RECORD_APPLY (R210): the oldest record from inspection, dropped as STALE, SPLIT or GAP or applied. A witness takes
no evidence (R397). -/
def State.evidence (s : State) : State :=
  match s.inn.evq with
  | [] => s
  | e :: rest =>
    let s := { s with inn := { s.inn with evq := rest } }
    if s.isWitness then s
    else if e.last < s.line - s.si.limits.camOffset - s.evidWindow || (s.epochAt e.last).isNone then
      s.evidDrop F.NH_EVID_DROP_STALE
    else if s.epochAt e.first ≠ s.epochAt e.last then s.evidDrop F.NH_EVID_DROP_SPLIT_GAP
    else
      match s.servedAt e.port e.pos ((s.epochAt e.last).getD 0) with
      | none => s.evidDrop F.NH_EVID_DROP_SPLIT_GAP
      | some i => s.evidApply i e.cls

/-! ## The drop gate -/

/-- The scan replaced. -/
def State.setGate (s : State) (g : GateScan) : State := { s with nh := { s.nh with gate := g } }

/-- A scan in progress. -/
def GateScan.running (g : GateScan) : Bool := g.st = 1 || g.st = 2

/-- The order of firing (R212): bar position, then port, then row. -/
def State.gateKey (s : State) (i : Nat) : Int × Nat :=
  (s.si.nozX (i / 2048) (i % 2048), i / 2048 * 2 + i % 2)

/-- A nozzle placed in firing order. -/
def gateInsert (key : Nat → Int × Nat) (i : Nat) : List Nat → List Nat
  | [] => [i]
  | j :: js =>
    if (key i).1 < (key j).1 || ((key i).1 = (key j).1 && (key i).2 < (key j).2) then i :: j :: js else j :: gateInsert key i js

/-- The valid nozzles below a unit, in firing order. -/
def State.gateList (s : State) (h : Nat) : List Nat :=
  let ns := match kindOf h with
    | some .nozzle => if s.si.valid h then [h - 0x20000] else []
    | some .row => if s.si.valid h then (List.range 1024).map fun c => 2048 * ((h - 0x10100) / 2) + 2 * c + h % 2 else []
    | _ => (s.validPorts.filter fun p => s.si.below h (portH p)).flatMap fun p => (List.range 2048).map fun n => 2048 * p + n
  ns.foldl (fun l i => gateInsert s.gateKey i l) []

/-- The carriage moved to the position of the next nozzle (step 2 of R212). -/
def State.gateMove (s : State) : State :=
  match s.nh.gate.todo with
  | [] => s
  | i :: _ =>
    let x := s.si.nozX (i / 2048) (i % 2048)
    let t := s.rdI Reg.NH_GATE_ORG + x * (s.rdN Reg.NH_GATE_MPP : Nat) / 65536
    let s := s.setGate { s.nh.gate with st := 1, shots := 0, good := 0, sumA := 0, sumD := 0 }
    let s := s.startMove 3 t
    s.setAxis 3 { s.axis 3 with scanMove := true }

/-- The results of a scan committed as one commit (R212 step 5, R214): a RETIRED nozzle keeps its state. -/
def State.gateCommit (s : State) : State :=
  let rs := (s.nh.gate.results.filter fun r => (s.noz r.1).state ≠ 3 && (s.noz r.1).state ≠ r.2).map fun r => NhReq.noz r.1 (some r.2) none
  let s := s.setGate { s.nh.gate with results := [] }
  if rs.isEmpty then s else s.commit (s.wp.hwm + 1) rs

/-- START (step 1 of R212): in SERVICE with axis 3 homed and at rest, no scan running, no spit profile on a port of it. -/
def State.gateStart (s : State) : State :=
  let h := s.fld Reg.NH_GATE_CFG F.NH_GATE_CFG_UNIT
  let todo := s.gateList h
  let ports := (todo.map (· / 2048)).eraseDups
  let x := s.axis 3
  if s.mode ≠ .service || !x.homed || x.st ≠ .stopped || s.nh.gate.running || !s.si.valid h ||
      ports.any (fun p => (s.hp.ports.getD p HeadPort.reset).spit.isSome) then s
  else
    let s := s.setGate { st := 1, cause := 0, scan := (s.nh.gate.scan + 1) % 65536, todo := todo, shots := 0, good := 0,
                         sumA := 0, sumD := 0, results := [], ports := ports }
    if todo.isEmpty then s.setGate { s.nh.gate with st := 3 } else s.gateMove

/-- A scan aborted with its cause (R214). -/
def State.gateAbort (s : State) (cause : Nat) : State :=
  if !s.nh.gate.running then s
  else
    let p := (s.nh.gate.todo.head?.getD 0) / 2048
    let s := s.gateCommit
    let s := s.setGate { s.nh.gate with st := 4, cause := cause, todo := [] }
    (s.flag Reg.NH_STAT F.NH_STAT_GATE_ABORT).raise Ev.GATE_ABORT (portH p)

/-- A write of NH_GATE_CTRL. -/
def State.gateCtrl (s : State) (w : Word) : State :=
  let s := if F.NH_GATE_CTRL_START.get w = 1 then s.gateStart else s
  if F.NH_GATE_CTRL_ABORT.get w = 1 then s.gateAbort 1 else s

/-- The clear-beam level of a photodiode measured over the settling time (R475): thresholds follow it under AUTO_THR. -/
def State.clearBeam (s : State) (thr lvl level : Nat) : State :=
  let s := s.setFld lvl F.AN_PD0_LVL_CLEAR level
  if !s.isSet Reg.AN_PD_CFG F.AN_PD_CFG_AUTO_THR then s
  else
    let s := s.setFld thr F.AN_PD0_THR_LO (level * s.fld Reg.AN_PD_CFG F.AN_PD_CFG_LO_PCT / 100)
    let s := s.setFld thr F.AN_PD0_THR_HI (min 1023 (level * s.fld Reg.AN_PD_CFG F.AN_PD_CFG_HI_PCT / 100))
    if level < s.fld Reg.AN_PD_CFG F.AN_PD_CFG_PD_MIN then (s.flag Reg.AN_STAT F.AN_STAT_PD_DARK).raise Ev.PD_DARK else s

/-- GATE_SCAN_SETTLE_DONE (step 3 of R212): the carriage is at rest at the position. -/
def State.gateSettled (s : State) (la lb : Nat) : State :=
  if s.nh.gate.st = 1 && (s.axis 3).st = .stopped then
    ((s.setGate { s.nh.gate with st := 2 }).clearBeam Reg.AN_PD0_THR Reg.AN_PD0_LVL la).clearBeam Reg.AN_PD1_THR Reg.AN_PD1_LVL lb
  else s

/-- REPEATS of NH_GATE_CFG. -/
def State.gateRepeats (s : State) : Nat := max 1 (s.fld Reg.NH_GATE_CFG F.NH_GATE_CFG_REPEATS)

/-- A shot is good (R213): both crossings within their windows, the transit within DT_MIN to DT_MAX. Times in ns. -/
def State.shotGood (s : State) (ta tb : Option Nat) : Option (Nat × Nat) :=
  let o := s.fld Reg.NH_GATE_WIN F.NH_GATE_WIN_WIN_OPEN * 10
  let l := s.fld Reg.NH_GATE_WIN F.NH_GATE_WIN_WIN_LEN * 10
  let dmax := s.fld Reg.NH_GATE_DT F.NH_GATE_DT_DT_MAX * 10
  let dmin := s.fld Reg.NH_GATE_DT F.NH_GATE_DT_DT_MIN * 10
  match ta, tb with
  | some a, some b =>
    if o ≤ a && a ≤ o + l && o ≤ b && b ≤ o + l + dmax && a + dmin ≤ b && b ≤ a + dmax then some (a, b - a) else none
  | _, _ => none

/-- The classification of a nozzle after its shots (R213): 1 OK, 2 WEAK, 3 MISSING. -/
def gateResult (g n : Nat) : Nat := if g = n then 1 else if n ≤ 2 * g then 2 else 3

/-- The nozzle in hand classified and its record written (step 4 of R212); then the next position, or the end (step 5). -/
def State.gateClassify (s : State) (i : Nat) : State :=
  let g := s.nh.gate
  let res := gateResult g.good s.gateRepeats
  let mean (t : Nat) : Nat := if g.good = 0 then 0 else min 0xFFFF (t / (10 * g.good))
  let s := s.setNoz i { s.noz i with gateValid := true, gateRes := res, gateGood := g.good, gateTa := mean g.sumA,
                                     gateDt := mean g.sumD, gateScan := g.scan }
  let rest := g.todo.drop 1
  let s := s.setGate { g with todo := rest, shots := 0, good := 0, sumA := 0, sumD := 0, results := g.results ++ [(i, res - 1)] }
  match rest with
  | [] =>
    let s := s.gateCommit
    s.setGate { s.nh.gate with st := 3 }
  | j :: _ => if (s.gateKey j).1 = (s.gateKey i).1 then s else s.gateMove

/-- A shot at nozzle `i` judged by its two crossings (R213); the last one classifies the nozzle. -/
def State.gateJudge (s : State) (i : Nat) (ta tb : Option Nat) : State :=
  let g := s.nh.gate
  let s := match s.shotGood ta tb with
    | some (a, d) => s.setGate { g with shots := g.shots + 1, good := g.good + 1, sumA := g.sumA + a, sumD := g.sumD + d }
    | none => s.setGate { g with shots := g.shots + 1 }
  if s.gateRepeats ≤ s.nh.gate.shots then s.gateClassify i else s

/-! ## Decap -/

/-- A port. -/
def State.port (s : State) (p : Nat) : HeadPort := s.hp.ports.getD p HeadPort.reset

/-- A port replaced. -/
def State.setPort (s : State) (p : Nat) (q : HeadPort) : State := { s with hp := { s.hp with ports := s.hp.ports.set p q } }

/-- A spit profile started on a port (R215): in SERVICE and WARM, and not on a port of a running scan. -/
def State.startSpit (s : State) (p k : Nat) : State :=
  if s.nh.gate.running && s.nh.gate.ports.contains p then s
  else s.setPort p { s.port p with spit := some (k, s.fld (Reg.NH_SPITk k) F.NH_SPITk_LINES), spitM := 0, spitBlank := false }

/-- DECAP_TIMER_EXPIRE (R215). -/
def State.decapExpire (s : State) (p : Nat) : State :=
  let ms := s.fld (Reg.NH_Pp_CFG p) F.NH_Pp_CFG_DECAP_MS
  let auto := s.isSet Reg.NH_CFG F.NH_CFG_AUTO_SPIT &&
    (s.mode = .service || (s.mode = .warm && s.isSet Reg.NH_CFG F.NH_CFG_WARM_SPIT))
  if ms = 0 || s.now - (s.port p).decapAt < ms * 1000000 then s
  else if auto then s.startSpit p 0
  else
    ((s.flag (Reg.NH_Pp_STAT p) F.NH_Pp_STAT_DECAP_DUE).flag Reg.NH_STAT F.NH_STAT_DECAP_DUE).raise Ev.DECAP_DUE (portH p)

/-! ## What the registers show -/

/-- Registers of NH that follow from the tables. -/
def State.nhView (s : State) (addr : Nat) : Option Word :=
  let h := s.nh.hist[s.fld Reg.NH_HIST_SEL F.NH_HIST_SEL_INDEX]?
  if addr = Reg.NH_EPOCH then
    some (BitVec.ofNat 32 (s.nh.epoch + 65536 * b2n s.nh.staging.isSome + 131072 * b2n (!s.nh.queue.isEmpty)))
  else if addr = Reg.NH_COMMIT_LINE then some (BitVec.ofNat 32 (s.nextCommit.getD 0))
  else if addr = Reg.NH_QUEUE then some (F.NH_QUEUE_USED.put (s.rd addr) s.nh.queue.length)
  else if addr = Reg.NH_HIST_LINE then some (BitVec.ofNat 32 (match h with
    | some h => h.pos
    | none => 0))
  else if addr = Reg.NH_HIST_EPOCH then some (BitVec.ofNat 32 (match h with
    | some h => 65536 + h.epoch
    | none => 0))
  else if addr = Reg.NH_GATE_STAT then
    some (BitVec.ofNat 32 (s.nh.gate.scan * 65536 + s.nh.gate.cause * 16 + s.nh.gate.st))
  else
    s.validPorts.findSome? fun p =>
      if addr = Reg.NH_Pp_STAT p then
        let c := s.replaceCauses p
        some ([(F.NH_Pp_STAT_HEAD_REPLACE_REQ, b2n (s.fl.hrr.testBit p)), (F.NH_Pp_STAT_WEAR, b2n c.2.2),
          (F.NH_Pp_STAT_GAP_HIGH, b2n c.2.1), (F.NH_Pp_STAT_COVER_LOW, b2n c.1), (F.NH_Pp_STAT_COVER, s.cover p),
          (F.NH_Pp_STAT_GAPS, s.gaps p)].foldl (fun w fv => BitField.put fv.1 w fv.2) (s.rd addr))
      else if addr = Reg.NH_Pp_WEAR p then
        some (BitVec.ofNat 32 (s.projH p * 65536 + min 0xFFFF (s.maxFire p / 2 ^ 24)))
      else none

end Sys2Proof.Machine
end

