-- ==== Sys2Proof/Machine/Inspect.lean ====
section
/-! DEFINITION. In-line inspection (10): CSI-2 packets, frames and setting banks (R224 to R232), linearisation and merge (R233,
R234), mapping and assembly (R235 to R238), the expected image (R239, R240), comparison (R241), symbols (R242, R243), column
evidence (R244, R245), verdicts (R246 to R248, R516), the sealed rings and what an export may show (R250, R251). -/

namespace Sys2Proof.Machine

/-! ## Settings -/

/-- EN of IN_CTRL. -/
def State.inEn (s : State) : Bool := s.isSet Reg.IN_CTRL F.IN_CTRL_EN

/-- A segment enabled on its port and channel (R226). -/
def State.segOn (s : State) (k : Nat) : Bool := s.isSet (Reg.IN_SEGk_SRC k) F.IN_SEGk_SRC_EN
def State.segPort (s : State) (k : Nat) : Nat := s.fld (Reg.IN_SEGk_SRC k) F.IN_SEGk_SRC_PORT
def State.segVc (s : State) (k : Nat) : Nat := s.fld (Reg.IN_SEGk_SRC k) F.IN_SEGk_SRC_VC
def State.segRaw12 (s : State) (k : Nat) : Bool := s.isSet (Reg.IN_SEGk_SRC k) F.IN_SEGk_SRC_RAW12
def State.segBits (s : State) (k : Nat) : Nat := if s.segRaw12 k then 12 else 10
def State.linePix (s : State) (k : Nat) : Nat := s.fld (Reg.IN_SEGk_GEOM k) F.IN_SEGk_GEOM_LINE_PIX
def State.frameLines (s : State) (k : Nat) : Nat := s.fld (Reg.IN_SEGk_GEOM k) F.IN_SEGk_GEOM_FRAME_LINES

/-- Two exposures. -/
def State.twoExp (s : State) : Bool := s.isSet Reg.IN_CFG F.IN_CFG_EXPOSURES

/-- The encoder channel that feeds the sensors, and its counts per line (R104). -/
def State.ptCh (s : State) : Nat := s.fld Reg.IN_CFG F.IN_CFG_PT_CH
def State.cpl (s : State) (c : Nat) : Nat :=
  let n := s.fld (Reg.WP_CHk_PT c) F.WP_CHk_PT_CPL
  if n = 0 then 256 else n

/-- A segment. -/
def State.seg (s : State) (k : Nat) : SegState := s.inn.segs.getD k ⟨none, 0, false, none, none, none, []⟩

/-- A segment replaced. -/
def State.setSeg (s : State) (k : Nat) (g : SegState) : State := { s with inn := { s.inn with segs := s.inn.segs.set k g } }

/-- The address of the header of a bank. -/
def bankReg (k b : Nat) : Nat := if b = 0 then Reg.IN_SEGk_BANK0 k else Reg.IN_SEGk_BANK1 k

/-- Where a table entry is kept: table, segment, bank, exposure, index (IN_TAB_SEL). -/
def tabKey (table sg bank exp index : Nat) : Nat := (((table * 16 + sg) * 2 + bank) * 2 + exp) * 2048 + index

/-- An entry of DARK, GAIN, CURVE or TONE (0 to 3); what has never been written reads 0 (log entry 30). -/
def State.tab (s : State) (table sg bank exp index : Nat) : Nat :=
  AMap.get (fun _ => 0) s.inn.tab (tabKey table sg bank exp index)

/-- TONE of R240. -/
def State.tone (s : State) (e : Nat) : Nat := s.tab 3 0 0 0 e

/-- The key of the entry IN_TAB_SEL selects: SEG, BANK and EXP are ignored for TONE; CURVE and TONE have 256 entries, DARK and
GAIN 2,048, and a reserved TABLE none. -/
def State.tabSelected (s : State) : Option Nat :=
  let f (b : BitField) := s.fld Reg.IN_TAB_SEL b
  let t := f F.IN_TAB_SEL_TABLE
  let i := f F.IN_TAB_SEL_INDEX
  if t = 3 then (if i < 256 then some (tabKey 3 0 0 0 i) else none)
  else if t = 2 && 256 ≤ i || 3 < t then none
  else some (tabKey t (f F.IN_TAB_SEL_SEG) (f F.IN_TAB_SEL_BANK) (f F.IN_TAB_SEL_EXP) i)

/-- A bank is in use (R231). -/
def State.bankInUse (s : State) (k b : Nat) : Bool := (s.seg k).bankUse = some b

/-- INDEX after an access of IN_TAB_DATA. -/
def State.tabNext (s : State) : State :=
  s.setFld Reg.IN_TAB_SEL F.IN_TAB_SEL_INDEX ((s.fld Reg.IN_TAB_SEL F.IN_TAB_SEL_INDEX + 1) % 2048)

/-- IN_TAB_DATA_WRITE (R232, R252). -/
def State.inTabWrite (s : State) (w : Word) : State :=
  let t := s.fld Reg.IN_TAB_SEL F.IN_TAB_SEL_TABLE
  let k := s.fld Reg.IN_TAB_SEL F.IN_TAB_SEL_SEG
  let b := s.fld Reg.IN_TAB_SEL F.IN_TAB_SEL_BANK
  let v := F.IN_TAB_DATA_VALUE.get w
  let s' :=
    if t = 3 && s.inEn then s.flag Reg.IN_STAT F.IN_STAT_CFG_REFUSED
    else if t < 3 && s.bankInUse k b then s.flag Reg.IN_STAT F.IN_STAT_BANK_BUSY
    else
      match s.tabSelected with
      | none => s
      | some key =>
        let s := { s with inn := { s.inn with tab := AMap.set (fun _ => 0) s.inn.tab key (if t = 1 then v else v % 4096) } }
        if t = 3 then s else s.setFld (bankReg k b) F.IN_SEGk_BANK0_VALID 0
  s'.tabNext

/-- IN_BANK_WRITE (R232): a change of SET_ID, KNEE or BLEND_SH is refused for a bank in use and clears VALID elsewhere; a write
that leaves them as they are sets VALID as written. -/
def State.inBankWrite (s : State) (k b : Nat) (w : Word) : State :=
  let a := bankReg k b
  let get (f : BitField) : Bool := decide (f.get w = s.fld a f)
  if get F.IN_SEGk_BANK0_SET_ID && get F.IN_SEGk_BANK0_KNEE && get F.IN_SEGk_BANK0_BLEND_SH then
    s.setFld a F.IN_SEGk_BANK0_VALID (F.IN_SEGk_BANK0_VALID.get w)
  else if s.bankInUse k b then s.flag Reg.IN_STAT F.IN_STAT_BANK_BUSY
  else
    let s := s.setFld a F.IN_SEGk_BANK0_SET_ID (F.IN_SEGk_BANK0_SET_ID.get w)
    let s := s.setFld a F.IN_SEGk_BANK0_KNEE (F.IN_SEGk_BANK0_KNEE.get w)
    let s := s.setFld a F.IN_SEGk_BANK0_BLEND_SH (F.IN_SEGk_BANK0_BLEND_SH.get w)
    s.setFld a F.IN_SEGk_BANK0_VALID 0

/-! ## The sealed rings -/

/-- Ring bytes encrypted or decrypted under the inspection key (R250): ring 0 camera, 1 expected, at a byte offset in it. -/
def ringCrypt (key : List Byte) (ring off : Nat) (bs : List Byte) : List Byte :=
  xorBytes bs (((List.range ((bs.length + 15) / 16)).flatMap fun i =>
    aesEncrypt key (beBytes 16 (Config.ringCounter ring (off / 16 + i)).toNat)))

/-- Offset and address of a row in the expected ring (R240) and in the camera ring (R241). -/
def State.expRow (s : State) (v : Nat) : Nat × Nat :=
  let o := 16384 * (v % max 1 (s.rdN Reg.IN_EXP_LINES))
  (o, s.rdN Reg.IN_EXP_ADDR * 65536 + o)
def State.imgRow (s : State) (v : Nat) : Nat × Nat :=
  let o := 32768 * (v % max 1 (s.rdN Reg.IN_IMG_LINES))
  (o, s.rdN Reg.IN_IMG_ADDR * 65536 + o)

/-- A row of the expected ring as INSP reads it. -/
def State.expRead (s : State) (v : Nat) : List Nat :=
  let r := s.expRow v
  (ringCrypt (s.inn.key.getD []) 1 r.1 (s.dramRead r.2 16384)).map (·.toNat)

/-- A row of the camera ring as INSP reads it. -/
def State.imgRead (s : State) (v : Nat) : List Byte :=
  let r := s.imgRow v
  ringCrypt (s.inn.key.getD []) 0 r.1 (s.dramRead r.2 32768)

/-- A grid value of a row of the camera ring. -/
def rowPixel (row : List Byte) (u : Nat) : Nat := leAt row (2 * u) 2

/-! ## Lines and the expected image -/

/-- Merged line v is ready (R236). -/
def State.mergedReady (s : State) (v : Nat) : Bool := decide (2 * v + 3 + s.dMax ≤ s.wp.hwm)

/-- DROPW (R239). -/
def State.dropW (s : State) : Nat → Nat
  | 1 => s.fld Reg.IN_DROPW F.IN_DROPW_W1
  | 2 => s.fld Reg.IN_DROPW F.IN_DROPW_W2
  | 3 => s.fld Reg.IN_DROPW F.IN_DROPW_W3
  | _ => 0

/-- The tap after EMIT (R239): the values of a port's nozzles on a bar line that fires. -/
def State.inTap (s : State) (p l : Nat) (vals : List Nat) : State :=
  if !s.inEn then s
  else
    vals.zipIdx.foldl (fun s vn =>
      let x := s.si.nozX p vn.2
      let i : Int := (l : Int) - s.lineDelay (rowH p (vn.2 % 2))
      if vn.1 = 0 || x < 0 || 131072 ≤ x || i < 0 then s
      else
        let k := 16384 * (i.toNat / 2) + x.toNat / 8
        let c := min 255 (AMap.get (fun _ => 0) s.inn.s k + s.dropW vn.1)
        let sh := (i.toNat, x, 2048 * p + s.si.posOf (2048 * p + vn.2))
        { s with inn := { s.inn with s := AMap.set (fun _ => 0) s.inn.s k c, shots := s.inn.shots ++ [sh] } }) s

/-- S(u, v), 0 outside the grid (R240). -/
def State.sCell (s : State) (u v : Int) : Nat :=
  if u < 0 || 16384 ≤ u || v < 0 then 0 else AMap.get (fun _ => 0) s.inn.s (16384 * v.toNat + u.toNat)

/-- K[r][c] of R240. -/
def State.kern (s : State) (r c : Nat) : Nat :=
  s.fld (Reg.IN_KERNr r) (if c = 0 then F.IN_KERNr_K0 else if c = 1 then F.IN_KERNr_K1 else F.IN_KERNr_K2)

/-- E(u, v) of R240. -/
def State.expected (s : State) (u v : Nat) : Nat :=
  let sum := ([0, 1, 2].flatMap fun b => [0, 1, 2].map fun a =>
    s.kern b a * s.sCell ((u : Int) + a - 1) ((v : Int) + b - 1)).foldl (· + ·) 0
  min 255 ((sum + 128) / 256)

/-- EXPECTED_LINE_COMPUTE (R240): the next row of the expected image, once merged line v + 1 is ready. The accumulator gives up
the rows no later row needs. -/
def State.expectedLine (s : State) : State :=
  match s.inn.key with
  | none => s
  | some key =>
    let v := s.inn.expNext
    if !s.inEn || !s.mergedReady (v + 1) then s
    else
      let r := s.expRow v
      let row := (List.range 16384).map fun u => BitVec.ofNat 8 (s.expected u v)
      let s := s.dramWrite r.2 (ringCrypt key 1 r.1 row)
      { s with inn := { s.inn with expNext := v + 1, s := s.inn.s.filter fun c => decide (16384 * v ≤ c.1) } }

/-! ## Pixels -/

/-- What stands for a camera pixel without data. -/
def noData : Nat := 0x8000

/-- Raw pixels of a RAW10 or RAW12 payload (R224). -/
def unpackRaw (raw12 : Bool) (bs : List Byte) : List Nat :=
  if raw12 then
    (List.range (bs.length / 3)).flatMap fun i =>
      let b (j : Nat) := leAt bs (3 * i + j) 1
      [b 0 * 16 + b 2 % 16, b 1 * 16 + b 2 / 16]
  else
    (List.range (bs.length / 5)).flatMap fun i =>
      let b (j : Nat) := leAt bs (5 * i + j) 1
      [0, 1, 2, 3].map fun j => b j * 4 + b 4 / 4 ^ j % 4

/-- A line in camera pixel order, aligned to 12 bits (R229, R233): padded or cut to LINE_PIX, mirrored, NO_DATA throughout
where the packet failed its CRC. -/
def State.cameraLine (s : State) (k : Nat) (crcOk : Bool) (bs : List Byte) : List Nat :=
  let n := s.linePix k
  let px := (unpackRaw (s.segRaw12 k) bs).map fun r => r * 2 ^ (12 - s.segBits k)
  let px := if crcOk then (px.take n) ++ List.replicate (n - px.length) noData else List.replicate n noData
  if s.isSet (Reg.IN_SEGk_SRC k) F.IN_SEGk_SRC_MIRROR then px.reverse else px

/-- The corrected value of a pixel of an exposure (R233). -/
def State.linearise (s : State) (k b e j r12 : Nat) : Nat :=
  let x := (clamp 0 4095 ((((r12 : Int) - s.tab 0 k b e j) * s.tab 1 k b e j + 8192) / 16384)).toNat
  let i := x / 16
  let c (i : Nat) : Int := s.tab 2 k b e i
  if i < 255 then (c i + ((c (i + 1) - c i) * (x % 16 : Nat) + 8) / 16).toNat else (c 255).toNat

/-- The reflectance of a pair with two exposures (R234). -/
def State.blend (s : State) (k b r12L yL yS : Nat) : Nat :=
  let sh := s.fld (bankReg k b) F.IN_SEGk_BANK0_BLEND_SH
  let w := (clamp 0 16 ((((r12L : Int) - s.fld (bankReg k b) F.IN_SEGk_BANK0_KNEE) * 16) / 2 ^ sh)).toNat
  (yL * (16 - w) + yS * w + 8) / 16

/-! ## Frames -/

/-- FRAME_LEN of a segment (R230). -/
def State.frameLen (s : State) (k : Nat) : State :=
  ((s.bump (Reg.IN_SEGk_STAT k) F.IN_SEGk_STAT_FRAME_LEN).flag Reg.IN_STAT F.IN_STAT_FRAME_LEN).relayRaise Ev.FRAME_LEN 0 pixPeriod

/-- A pair delivered to merged line v, or discarded (R235 to R237). -/
def State.deliver (s : State) (k n : Nat) (px : List Nat) : State :=
  let g := s.seg k
  match g.frame with
  | none => s
  | some (qx, _) =>
    let cpl : Int := s.cpl s.ptCh
    let pos := (qx + 2 * n * cpl) * 65536 / cpl - (s.si.limits.camOffset : Int) * 65536 + s.rdI (Reg.IN_SEGk_SUB k)
    if pos < 0 then s
    else
      let v := pos.toNat / 131072
      if !s.mergedReady v then s.bump Reg.IN_DISCARD F.IN_DISCARD_EARLY
      else if v ≤ s.rdN Reg.IN_IHWM then
        let s := s.bump Reg.IN_DISCARD F.IN_DISCARD_REPEAT
        if (match g.delivered with
          | some d => decide (v ≤ d)
          | none => false) then s
        else (s.flag Reg.IN_STAT F.IN_STAT_SEG_LATE).relayRaise Ev.SEG_LATE 0 pixPeriod
      else
        s.setSeg k { g with delivered := some (max v (g.delivered.getD 0)), pairs := AMap.set (fun _ => []) g.pairs v px }

/-- A pixel line of a segment (R229, R230, R233, R234), before which `lines` of its frame have come. Behind a line lost to an overflow
the places of lines are not known, and every pixel is NO_DATA (R249). -/
def State.pixelLine (s : State) (k : Nat) (crcOk : Bool) (bs : List Byte) : State :=
  let g := s.seg k
  match g.frame with
  | none => s
  | some (_, b) =>
    let n := g.lines
    let s := s.setSeg k { g with lines := n + 1 }
    let crcOk := crcOk && !g.lost
    if s.frameLines k ≤ n then (if n = s.frameLines k then s.frameLen k else s)
    else
      let count := bs.length * 8 / s.segBits k
      let s := if count = s.linePix k then s
        else ((s.bump (Reg.IN_SEGk_ERR k) F.IN_SEGk_ERR_LINE_LEN).flag Reg.IN_STAT F.IN_STAT_LINE_LEN).relayRaise Ev.LINE_LEN 0 pixPeriod
      let raw := s.cameraLine k crcOk bs
      let lin (e : Nat) : List Nat := raw.zipIdx.map fun r => if r.1 = noData then noData else s.linearise k b e r.2 r.1
      if !s.twoExp then s.deliver k n (lin 0)
      else if n % 2 = 0 then s.setSeg k { s.seg k with half := some (lin 0) }
      else
        let short := (s.seg k).half.getD []
        let px := ((lin 1).zip raw).zipIdx.map fun r =>
          let yS := short.getD r.2 noData
          if r.1.1 = noData || yS = noData then noData else s.blend k b r.1.2 r.1.1 yS
        (s.setSeg k { s.seg k with half := none }).deliver k (n / 2) px

/-- The missing lines of a short frame, delivered as NO_DATA (R230). -/
def State.padFrame (s : State) (k : Nat) : State :=
  let g := s.seg k
  let e := if s.twoExp then 2 else 1
  let none' := List.replicate (s.linePix k) noData
  ((List.range (s.frameLines k / e)).filter fun n => decide (g.lines / e ≤ n)).foldl (fun s n => s.deliver k n none') s

/-- Segments fed by a virtual channel of a port. -/
def State.segsOf (s : State) (n vc : Nat) : List Nat :=
  (List.range 16).filter fun k => s.segOn k && s.segPort k = n && s.segVc k = vc

/-- A frame without its embedded line (R228): discarded for every segment of the channel. -/
def State.metaMiss (s : State) (n vc : Nat) : State :=
  let s := forEach (s.segsOf n vc) (fun s k => s.bump (Reg.IN_SEGk_ERR k) F.IN_SEGk_ERR_DROPPED) s
  (s.flag Reg.IN_STAT F.IN_STAT_META_MISS).raise Ev.META_MISS

/-- A virtual channel replaced. -/
def State.setVc (s : State) (n vc : Nat) (c : VcState) : State :=
  { s with inn := { s.inn with vcs := s.inn.vcs.set (8 * n + vc) c } }

/-- A virtual channel. -/
def State.vcOf (s : State) (n vc : Nat) : VcState := s.inn.vcs.getD (8 * n + vc) ⟨false, none⟩

/-- The open frame of a channel ends (R230), by Frame End or by the Frame Start of the next (`cut`), which makes it short whatever has
come: a frame short of lines is padded. -/
def State.frameEnd (s : State) (n vc : Nat) (cut : Bool) : State :=
  if !(s.vcOf n vc).isOpen then s
  else
    let s := if (s.vcOf n vc).emb.isNone then s.metaMiss n vc else s
    let s := forEach (s.segsOf n vc) (fun s k =>
      let g := s.seg k
      let s := if g.frame.isSome && (cut || g.lines < s.frameLines k) then (s.frameLen k).padFrame k else s
      s.setSeg k { s.seg k with frame := none, lines := 0, lost := false, half := none }) s
    s.setVc n vc ⟨false, none⟩

/-- The value congruent to a 32-bit count that lies nearest a full count (R230). -/
def nearest32 (q : Int) (low : Nat) : Int :=
  let base := q - toSigned 32 (ofSigned 32 q)
  let c := base + toSigned 32 low
  if q + 2 ^ 31 < c then c - 2 ^ 32 else if c ≤ q - 2 ^ 31 then c + 2 ^ 32 else c

/-- The present output count Q of a channel (R104). -/
def State.ptQ (s : State) (c : Nat) : Int := (s.wp.pos * s.cpl c / 65536 : Nat)

/-- The embedded line of a frame (R228, R230, R231): each segment takes its count and selects its bank. -/
def State.embedded (s : State) (n vc : Nat) (bs : List Byte) : State :=
  let s := s.setVc n vc ⟨true, some bs⟩
  forEach (s.segsOf n vc) (fun s k =>
    let qo := s.fld (Reg.IN_SEGk_EMB k) F.IN_SEGk_EMB_Q_OFF
    let so := s.fld (Reg.IN_SEGk_EMB k) F.IN_SEGk_EMB_SET_OFF
    let setId := leAt bs so 1
    let s := s.setFld (Reg.IN_SEGk_STAT k) F.IN_SEGk_STAT_LAST_SET setId
    let fits (b : Nat) : Bool := s.isSet (bankReg k b) F.IN_SEGk_BANK0_VALID && s.fld (bankReg k b) F.IN_SEGk_BANK0_SET_ID = setId
    match [0, 1].find? fits with
    | none =>
      let s := s.setSeg k { s.seg k with frame := none, lines := 0, lost := false, half := none }
      ((s.bump (Reg.IN_SEGk_ERR k) F.IN_SEGk_ERR_DROPPED).flag Reg.IN_STAT F.IN_STAT_PARAM_MISS).raise Ev.PARAM_MISS
    | some b =>
      let s := s.setFld (Reg.IN_SEGk_STAT k) F.IN_SEGk_STAT_BANK_SEL b
      s.setSeg k { s.seg k with frame := some (nearest32 (s.ptQ s.ptCh) (leAt bs qo 4), b), lines := 0, lost := false, half := none,
                                bankUse := some b }) s

/-- A long packet (R225, R228): the first of a frame is its embedded line. -/
def State.longPacket (s : State) (n vc dt : Nat) (crcOk : Bool) (bs : List Byte) : State :=
  let s := if crcOk then s else (s.flag Reg.IN_STAT F.IN_STAT_CSI_CRC).relayRaise Ev.CSI_CRC n (s.bytePeriod n)
  let c := s.vcOf n vc
  if !s.inEn || !c.isOpen then s
  else if dt = 0x12 then (if c.emb.isNone && crcOk then s.embedded n vc bs else s)
  else
    let s := if c.emb.isNone then (s.metaMiss n vc).setVc n vc ⟨true, some []⟩ else s
    forEach ((s.segsOf n vc).filter fun k => decide (dt = if s.segRaw12 k then 0x2C else 0x2B))
      (fun s k => s.pixelLine k crcOk bs) s

/-- The ECC word of each bit of a packet header: 24 bits of DI and word count, then the two bits of the virtual channel extension that
stand above the ECC (R225; PRESUMED, log entry 47). -/
def csiEccColumns : List Nat :=
  [0x07, 0x0B, 0x0D, 0x0E, 0x13, 0x15, 0x16, 0x19, 0x1A, 0x1C, 0x23, 0x25, 0x26, 0x29, 0x2A, 0x2C, 0x31, 0x32, 0x34, 0x38, 0x1F, 0x2F,
   0x37, 0x3B, 0x3D, 0x3E]

/-- A header of four bytes checked by its ECC (R225): the 26 bits after correction and whether one bit was wrong, in them or in the ECC;
nothing where two were. -/
def csiHeader (h : Nat) : Option (Nat × Bool) :=
  let d := h % 2 ^ 24 + h / 2 ^ 30 * 2 ^ 24
  let syn := (csiEccColumns.zipIdx.foldl (fun a c => if d.testBit c.2 then a ^^^ c.1 else a) 0) ^^^ (h / 2 ^ 24 % 64)
  if syn = 0 then some (d, false)
  else if [1, 2, 4, 8, 16, 32].contains syn then some (d, true)
  else (csiEccColumns.findIdx? (· = syn)).map fun i => (d ^^^ 2 ^ i, true)

/-- The bits of a number of `n` bits in reverse. -/
def revBits (n v : Nat) : Nat := (List.range n).foldl (fun a i => a + b2n (v.testBit i) * 2 ^ (n - 1 - i)) 0

/-- CRC-16 of a long packet (R225; PRESUMED, log entry 47): x^16 + x^12 + x^5 + 1, low bit first, from 0xFFFF. -/
def csiCrc (bs : List Byte) : Nat := revBits 16 (crcN 16 0x1021 0xFFFF (bs.map revByte))

/-- The bytes of a packet as the lanes deliver them (R223): byte i comes on lane i modulo LANES, upside down where POL swaps that lane. -/
def State.csiLanes (s : State) (n : Nat) (wire : List Byte) : List Byte :=
  let lanes := 2 ^ s.fld (Reg.IN_PORTn_CFG n) F.IN_PORTn_CFG_LANES
  let pol := s.fld (Reg.IN_PORTn_CFG n) F.IN_PORTn_CFG_POL
  wire.zipIdx.map fun b => if pol.testBit (b.2 % lanes) then ~~~b.1 else b.1

/-- A pixel line or an embedded line that the receive buffer has no room for (R226): discarded, and the rest of its frame has no
places any more (R249). -/
def State.rxOverflow (s : State) (n vc dt : Nat) : State :=
  let s := forEach ((s.segsOf n vc).filter fun k => decide (dt = if s.segRaw12 k then 0x2C else 0x2B) && (s.seg k).frame.isSome)
    (fun s k => s.setSeg k { s.seg k with lost := true }) s
  (s.flag Reg.IN_STAT F.IN_STAT_RX_OVERFLOW).raise Ev.RX_OVERFLOW

/-- A packet whose header has passed (R224 to R226): its channel and data type, its payload, whether its CRC holds and whether the
receive buffer takes it. -/
def State.csiAccept (s : State) (n vc dt : Nat) (crcOk fits : Bool) (bs : List Byte) : State :=
  let discard (s : State) : State := s.bump (Reg.IN_PORTn_ERR n) F.IN_PORTn_ERR_DISCARD
  if 7 < vc then discard s
  else if dt = 0x00 then
    if s.inEn then (s.frameEnd n vc true).setVc n vc ⟨true, none⟩ else s
  else if dt = 0x01 then s.frameEnd n vc false
  else if dt = 0x02 || dt = 0x03 || (0x08 ≤ dt && dt ≤ 0x0F) then s
  else if dt = 0x12 || dt = 0x2B || dt = 0x2C then (if fits then s.longPacket n vc dt crcOk bs else s.rxOverflow n vc dt)
  else discard s

/-- The bytes of a packet in the order the wires carry them (R224, R225): data identifier, word count, ECC; the payload and its
CRC-16 of a long packet, which a short one ends before. -/
def csiWire (di : Byte) (wc : BitVec 16) (ecc : Byte) (payload : List Byte) (crc : BitVec 16) : List Byte :=
  [di, BitVec.ofNat 8 wc.toNat, BitVec.ofNat 8 (wc.toNat / 256), ecc] ++ payload ++
    [BitVec.ofNat 8 crc.toNat, BitVec.ofNat 8 (crc.toNat / 256)]

/-- CSI_PACKET (R223 to R226): the bytes of a packet as the lanes carry them, its header checked and corrected by its ECC, the
payload of a long packet by its CRC. `fits` says that the receive buffer has room. -/
def State.csiPacket (s : State) (n : Nat) (fits : Bool) (wire : List Byte) : State :=
  let b := s.csiLanes n wire
  match csiHeader (leAt b 0 4) with
  | none => ((s.bump (Reg.IN_PORTn_ERR n) F.IN_PORTn_ERR_DISCARD).flag Reg.IN_STAT F.IN_STAT_CSI_ECC).relayRaise Ev.CSI_ECC n (s.bytePeriod n)
  | some (h, fixed) =>
    let s := if fixed then s.bump (Reg.IN_PORTn_ERR n) F.IN_PORTn_ERR_ECC_FIX else s
    let wc := h / 256 % 65536
    let bs := (b.drop 4).take wc
    s.csiAccept n (h / 64 % 4 + h / 2 ^ 24 * 4) (h % 64) (decide (bs.length = wc ∧ b.length = wc + 6 ∧ csiCrc bs = leAt b (4 + wc) 2)) fits bs

/-! ## Closing a merged line -/

/-- The lowest-numbered enabled segment whose window holds grid pixel u (R238). -/
def State.serves (s : State) (u : Nat) : Option Nat :=
  (List.range 16).find? fun k =>
    s.segOn k && s.fld (Reg.IN_SEGk_UWIN k) F.IN_SEGk_UWIN_U_LO ≤ u && u ≤ s.fld (Reg.IN_SEGk_UWIN k) F.IN_SEGk_UWIN_U_HI

/-- jq of R238; with PITCH 0 the quotient is a value the spec leaves open. -/
def State.jq (s : State) (k u : Nat) : Int :=
  let num : Int := 2048 * u + 896 - s.rdI (Reg.IN_SEGk_X0 k)
  let pitch := s.rdN (Reg.IN_SEGk_PITCH k)
  if pitch = 0 then toSigned 64 (Config.freeValue (s.free + u)).toNat else num * 2 ^ 24 / pitch

/-- The grid value of pixel u of merged line v (R238); `fill` stands in bits [11:0] where there is no reflectance. -/
def State.gridPixel (s : State) (v fill u : Nat) : Nat :=
  match s.serves u with
  | none => 0x4000 + fill
  | some k =>
    let jq := s.jq k u
    let j0 := jq / 65536
    let f := (jq / 256 % 256).toNat
    let last : Int := (s.linePix k : Int) - 1
    if j0 < 0 || last < j0 || (0 < f && j0 = last) then 0x4000 + fill
    else
      match AMap.find? (s.seg k).pairs v with
      | none => 0x8000 + fill
      | some px =>
        let a := px.getD j0.toNat noData
        let b := px.getD (j0.toNat + 1) noData
        if a = noData || (0 < f && b = noData) then 0x8000 + fill
        else if f = 0 then a else (a * (256 - f) + b * f + 128) / 256

/-- A grid value with neither NO_DATA nor NO_COVER. -/
def gridOk (g : Nat) : Bool := decide (g < 0x4000)

/-- A defect pixel (R241). -/
def State.defect (s : State) (g e : Nat) : Bool :=
  let x := s.tone e
  gridOk g && (decide (x + s.fld Reg.IN_THR F.IN_THR_LIGHT_T < g) || decide (g + s.fld Reg.IN_THR F.IN_THR_DARK_T < x))

/-- The grid pixels of a closed line counted for the tickets they belong to (R241). -/
def State.compare (s : State) (v : Nat) (grid exp : List Nat) : State :=
  let judge (t : Ticket) : Ticket :=
    if t.verdict.isSome || v < t.first / 2 || t.last / 2 < v then t
    else
      let us := ((List.range 16384).filter fun u => decide (t.x / 8 ≤ u ∧ u ≤ (t.x + t.w - 1) / 8))
      { t with defects := t.defects + (us.filter fun u => s.defect (grid.getD u 0) (exp.getD u 0)).length,
               bad := t.bad || us.any fun u => !gridOk (grid.getD u 0) }
  { s with au := { s.au with tickets := s.au.tickets.map judge } }

/-- EVID_LINES. -/
def State.evidLines (s : State) : Nat := max 2 (s.fld Reg.IN_EVID_CFG F.IN_EVID_CFG_EVID_LINES)

/-- The position a grid pixel's sample goes to (R244): the only one fired around the pixel, fired within it. -/
def State.samplePos (s : State) (u v : Nat) : Option Nat :=
  let near := s.inn.shots.filter fun h =>
    decide (8 * (u : Int) - 8 ≤ h.2.1 ∧ h.2.1 ≤ 8 * (u : Int) + 15 ∧ 2 * v ≤ h.1 + 2 ∧ h.1 ≤ 2 * v + 3)
  match (near.map fun h => h.2.2).eraseDups with
  | [q] =>
    if near.any (fun h => decide (8 * (u : Int) ≤ h.2.1 ∧ h.2.1 ≤ 8 * (u : Int) + 7 ∧ 2 * v ≤ h.1 ∧ h.1 ≤ 2 * v + 1)) then some q
    else none
  | _ => none

/-- The samples of a closed line (R244). With CONTRAST_MIN 0 and no contrast at all the quotient is a value the spec leaves open. -/
def State.sample (s : State) (v : Nat) (grid exp : List Nat) : State :=
  let t0 := s.tone 0
  (List.range 16384).foldl (fun s u =>
    let g := grid.getD u 0
    let r := s.tone (exp.getD u 0)
    if !gridOk g || t0 < r + s.fld Reg.IN_EVID_CFG F.IN_EVID_CFG_CONTRAST_MIN then s
    else
      match s.samplePos u v with
      | none => s
      | some q =>
        let f := s.drawFree
        let s := if t0 = r then f.2 else s
        let d := if t0 = r then f.1 % 4097 else (clamp 0 4096 (((g : Int) - r) * 4096 / ((t0 : Int) - r))).toNat
        let k := 2 * v / s.evidLines * 131072 + q
        let nd := AMap.get (fun _ => (0, 0)) s.inn.evid k
        { s with inn := { s.inn with evid := AMap.set (fun _ => (0, 0)) s.inn.evid k (nd.1 + 1, nd.2 + d) } }) s

/-- The records of a window whose last image line has closed (R245). -/
def State.evidRecords (s : State) (v : Nat) : State :=
  let n := s.evidLines
  if (2 * v + 2) % n ≠ 0 then s
  else
    let w := 2 * v / n
    let mine := s.inn.evid.filter fun e => e.1 / 131072 = w
    let recs := (mine.filter fun e => decide (s.fld Reg.IN_CNT_CFG F.IN_CNT_CFG_N_MIN ≤ e.2.1 ∧ 0 < e.2.1)).map fun e =>
      let m := e.2.2 / e.2.1
      let cls := if s.fld Reg.IN_EVID_THR F.IN_EVID_THR_MISS_T ≤ m then 2
        else if s.fld Reg.IN_EVID_THR F.IN_EVID_THR_WEAK_T ≤ m then 1 else 0
      let q := e.1 % 131072
      ({ port := q / 2048, pos := q % 2048, first := w * n, last := w * n + n - 1, cls := cls, epoch := s.epochAt (w * n),
         n := min 65535 e.2.1, m := m } : EvidRec)
    { s with inn := { s.inn with evid := s.inn.evid.filter (fun e => e.1 / 131072 ≠ w), evq := s.inn.evq ++ recs } }

/-- Merged line v may close (R237). -/
def State.mayClose (s : State) (v : Nat) : Bool :=
  let all := (List.range 16).all fun k => !s.segOn k || (match (s.seg k).delivered with
    | some d => decide (v ≤ d)
    | none => false)
  s.inEn && s.mergedReady v &&
    (all || decide (2 * v + 2 + s.si.limits.camOffset + s.fld Reg.IN_CFG F.IN_CFG_ASM_LAG ≤ s.line))

/-- MERGED_LINE_CLOSE (R237, R238, R241, R244, R245): the line above IN_IHWM, if it may close. -/
def State.mergedClose (s : State) : State :=
  match s.inn.key with
  | none => s
  | some key =>
    let v := s.rdN Reg.IN_IHWM + 1
    if !s.mayClose v then s
    else
      let fill (u : Nat) : Nat := (Config.freeValue (s.free + 16384 + u)).toNat % 4096
      let grid := (List.range 16384).map fun u => s.gridPixel v (fill u) u
      let s := { s with free := s.free + 32768 }
      let exp := s.expRead v
      let r := s.imgRow v
      let s := s.dramWrite r.2 (ringCrypt key 0 r.1 (grid.flatMap (leBytes 2)))
      let s := ((s.compare v grid exp).sample v grid exp).evidRecords v
      let segs := s.inn.segs.map fun g => { g with pairs := g.pairs.filter fun e => decide (v < e.1) }
      { s with inn := { s.inn with segs := segs, shots := s.inn.shots.filter fun h => decide (2 * v ≤ h.1) } }.wrN Reg.IN_IHWM v

/-! ## Symbols -/

/-- The first and one-past-last grid pixel inside a box of bounds in 1/16 pixel, shrunk by the inset (R242). -/
def interior (lo hi inset : Nat) : Nat × Nat := ((lo + inset + 15) / 16, (hi - inset) / 16)

/-- The last merged line of a symbol (R243). -/
def SymDesc.lastMerged (d : SymDesc) : Nat := (d.y + d.mh * d.grid.length - 1) / 2

/-- The interior pixels of module (column c, row r) as grid values. -/
def State.moduleVals (s : State) (d : SymDesc) (rows : AMap (List Byte)) (c r : Nat) : List Nat :=
  let inset := s.fld Reg.IN_SYM_CFG F.IN_SYM_CFG_INSET
  let us := interior (2 * (d.x + c * d.mw)) (2 * (d.x + (c + 1) * d.mw)) inset
  let vs := interior (8 * (d.y + r * d.mh)) (8 * (d.y + (r + 1) * d.mh)) inset
  ((List.range (vs.2 - vs.1)).flatMap fun j =>
    let row := AMap.get (fun _ => []) rows (vs.1 + j)
    (List.range (us.2 - us.1)).map fun i => rowPixel row (us.1 + i))

/-- The floor mean of a list; `open'` where it is empty. -/
def meanOf (open' : Nat) (l : List Nat) : Nat := if l.isEmpty then open' else l.foldl (· + ·) 0 / l.length

/-- INSP can read what is stored under a key: in the clear, or under the inspection key in force (R250). -/
def State.readable (s : State) (key : Option (List Byte)) : Bool := key.isNone || key = s.inn.key

/-- SYMBOL_VERIFY (R243): the first symbol not yet judged whose last merged line has closed. A descriptor whose key is gone cannot be
read, and its symbol is UNREAD (R250, log entry 49). -/
def State.symbolVerify (s : State) : State :=
  match s.inn.syms.findIdx? fun d => d.judged.isNone && decide (d.lastMerged ≤ s.rdN Reg.IN_IHWM) with
  | none => s
  | some i =>
    match s.inn.syms[i]? with
    | none => s
    | some d =>
      if !s.readable d.key then { s with inn := { s.inn with syms := s.inn.syms.set i { d with judged := some (false, false, true) } } }
      else
      let f := s.drawFree
      let s := f.2
      let lo := d.y / 2
      let rows := (List.range (d.lastMerged + 1 - lo)).map fun j => (lo + j, s.imgRead (lo + j))
      let mods := d.grid.zipIdx.flatMap fun row => row.1.zipIdx.map fun m => (m.1, s.moduleVals d rows m.2 row.2)
      let small := mods.any fun m => m.2.isEmpty
      let unread := mods.any fun m => m.2.any fun g => !gridOk g
      let vals := (mods.filter fun m => !m.2.isEmpty).map fun m => (m.1, meanOf 0 (m.2.map (· % 4096)))
      let md := meanOf (f.1 % 4096) ((vals.filter (·.1)).map (·.2))
      let ml := meanOf (f.1 % 4096) ((vals.filter fun m => !m.1).map (·.2))
      let gt := (ml + md) / 2
      let mg := s.fld Reg.IN_SYM_CFG F.IN_SYM_CFG_MOD_MARGIN
      let wrong := (vals.filter fun m => if m.1 then decide (gt < m.2 + mg) else decide (m.2 < gt + mg)).length
      let fails := decide (ml < md + s.fld Reg.IN_SYM_CFG F.IN_SYM_CFG_SC_MIN) ||
        decide (s.fld Reg.IN_SYM_ERR F.IN_SYM_ERR_MODERR_MAX < wrong)
      { s with inn := { s.inn with syms := s.inn.syms.set i { d with judged := some (fails, small, unread) } } }

/-! ## Verdicts -/

/-- Causes from outside inspection among the flags of R378 (row 1 of R246): bits 0 to 11. -/
def outsideCauses (flags : Nat) : Bool := flags % 4096 ≠ 0

/-- Symbols of a ticket. -/
def State.symsOf (s : State) (t : Ticket) : List SymDesc :=
  s.inn.syms.filter fun d => d.job = t.job && d.inst = t.inst && d.cell = t.cell

/-- The verdict of a ticket and its flags (R246, R248): 0 PASS, 1 VOID, 2 UNVERIFIED, with the row that decided it. -/
def State.judge (s : State) (t : Ticket) (timeout : Bool) : Nat × Nat × Nat :=
  let req := s.isSet Reg.IN_CFG F.IN_CFG_SYM_REQUIRE
  let js := (s.symsOf t).filterMap (·.judged)
  let skipped := js.any fun j => j.2.1 && !req
  let kept := js.filter fun j => !(j.2.1 && !req)
  let r1 := outsideCauses t.flags || t.unfired
  let r2 := t.enOff
  let r3 := decide (s.fld Reg.IN_CNT_CFG F.IN_CNT_CFG_DEFECT_MAX < t.defects)
  let r4 := kept.any (·.1)
  let r5 := timeout || t.bad || kept.any fun j => j.2.2 || j.2.1
  let flags := t.flags ||| (b2n r3 * 2 ^ 12 + b2n r4 * 2 ^ 13 + b2n r5 * 2 ^ 14 + b2n r2 * 2 ^ 15 + b2n skipped * 2 ^ 16 +
    b2n timeout * 2 ^ 17)
  if r1 then (1, 1, flags) else if r2 then (2, 2, flags) else if r3 then (1, 3, flags) else if r4 then (1, 4, flags)
  else if r5 then (2, 5, flags) else (0, 6, flags)

/-- A ticket closed by inspection (R246, R516): counted as decided, then recorded under UNVER_POLICY. -/
def State.closeTicket (s : State) (i : Nat) (timeout : Bool) : State :=
  match s.au.tickets[i]? with
  | none => s
  | some t =>
    if t.verdict.isSome then s
    else
      let d := s.judge t timeout
      let keep := s.isSet Reg.IN_CFG F.IN_CFG_UNVER_POLICY
      let s := match d.1 with
        | 0 => s.bump Reg.IN_VPASS F.IN_VPASS_COUNT
        | 1 => s.bump Reg.IN_VVOID F.IN_VVOID_COUNT
        | _ => s.bump Reg.IN_VUNVER F.IN_VUNVER_COUNT
      let verdict := if d.1 = 2 && !keep then 1 else d.1
      let flags := if d.1 = 2 && !keep then d.2.2 ||| 2 ^ 14 else d.2.2
      let s := { s with
        au := { s.au with tickets := s.au.tickets.set i { t with verdict := some verdict, flags := flags } },
        inn := { s.inn with syms := s.inn.syms.filter fun y => !(y.job = t.job && y.inst = t.inst && y.cell = t.cell) } }
      if d.2.1 = 3 || d.2.1 = 4 then (s.flag Reg.IN_STAT F.IN_STAT_INSPECT_VOID).raise Ev.INSPECT_VOID
      else if d.1 = 2 then
        (s.flag Reg.IN_STAT F.IN_STAT_TICKET_UNVER).raiseWith Ev.TICKET_UNVER (if keep then 0 else 2) 0 (s.line % 2 ^ 32)
      else s

/-- A ticket whose verdict is due (R247): its last merged line has closed and its symbols are judged; while EN = 0 no line
closes, and it is due CAM_OFFSET lines after the line at which its last bar line is done. A HALTED ticket closes under R248 alone
(R381). -/
def State.verdictDue (s : State) (t : Ticket) : Bool :=
  t.verdict.isNone && t.halted.isNone &&
    (if s.inEn then decide (t.last / 2 ≤ s.rdN Reg.IN_IHWM) && (s.symsOf t).all fun d => d.judged.isSome
     else decide (t.last + s.dMax + s.si.limits.camOffset ≤ s.line))

/-- TICKET_VERDICT (R247). -/
def State.ticketVerdict (s : State) : State :=
  match s.au.tickets.findIdx? s.verdictDue with
  | some i => s.closeTicket i false
  | none => s

/-- Every open ticket that has begun to print closed under row 5 with TIMEOUT (R248); the tickets of lines still to come wait. -/
def State.closeAll (s : State) : State :=
  (List.range s.au.tickets.length).foldl (fun s i => match s.au.tickets[i]? with
    | some t => if t.first ≤ s.wp.hwm then s.closeTicket i true else s
    | none => s) s

/-- CLOSE_TIMEOUT (R248). -/
def State.closeTimeout (s : State) : State :=
  match s.inn.exitAt with
  | some t =>
    if s.mode ≠ .print && s.fld Reg.IN_CFG F.IN_CFG_CLOSE_TMO * 1000000 ≤ s.now - t then
      { s with inn := { s.inn with exitAt := none } }.closeAll
    else s
  | none => s

/-! ## Enabling -/

/-- The inspection key erased (R250): what the rings, the descriptors and the masks hold under it can no longer be read. -/
def State.inKeyErase (s : State) : State := { s with inn := { s.inn with key := none } }

/-- An inspection key in force (R250): descriptors and masks that stand in the clear are encrypted under it. -/
def State.inKeySet (s : State) (key : List Byte) : State :=
  let k (o : Option (List Byte)) : Option (List Byte) := o.orElse fun _ => some key
  { s with inn := { s.inn with key := some key, syms := s.inn.syms.map fun d => { d with key := k d.key },
                               masks := s.inn.masks.map fun m => { m with key := k m.key } } }

/-- IN_CTRL.EN cleared (R248, R250). -/
def State.inDisable (s : State) : State :=
  let s := s.closeAll.inKeyErase
  let idle := s.inn.segs.map fun g => { g with frame := none, lines := 0, lost := false, half := none, pairs := [] }
  { s with inn := { s.inn with segs := idle, vcs := s.inn.vcs.map fun _ => ⟨false, none⟩, s := [], shots := [] } }.setFld
    Reg.IN_CTRL F.IN_CTRL_EN 0

/-- The sum of a list of numbers. -/
def sumOf (l : List Nat) : Nat := l.foldl (· + ·) 0

/-- The rules of R227 in the order of its table: the code of the first that fails. -/
def State.enCheck (s : State) : Option Nat :=
  let cam := s.si.limits.camOffset
  let n := s.rdN Reg.IN_EXP_LINES
  let m := s.rdN Reg.IN_IMG_LINES
  let re := (s.rdN Reg.IN_EXP_ADDR * 65536, 16384 * n)
  let ri := (s.rdN Reg.IN_IMG_ADDR * 65536, 32768 * m)
  let on := (List.range 16).filter s.segOn
  let two := if s.twoExp then 2 else 1
  let rate := s.si.limits.lineRateMax
  let lanes (p : Nat) : Nat := s.fld (Reg.IN_PORTn_CFG p) F.IN_PORTn_CFG_LANES
  let budget (p : Nat) : Bool := lanes p = 3 ||
    decide (sumOf ((on.filter fun k => s.segPort k = p).map fun k => s.segBits k * s.linePix k + 48) * rate * two * 100
      ≤ 2 * 97 * 2 ^ lanes p * s.fld (Reg.IN_PORTn_CFG p) F.IN_PORTn_CFG_RATE_MBPS * 1000000)
  let evid := s.fld Reg.IN_EVID_CFG F.IN_EVID_CFG_EVID_LINES
  let kernel := sumOf ([0, 1, 2].flatMap fun r => [0, 1, 2].map fun c => s.kern r c)
  if s.fld (Reg.WP_CHk_PT s.ptCh) F.WP_CHk_PT_PT_MODE ≠ 2 then some 2
  else if cam < s.dMax + 8 || 500 < s.dMax then some 3
  else if kernel ≠ 256 then some 4
  else if 2 * n < cam + 1024 || m < 512 || !s.inDram re || !s.inDram ri || rangesMeet re ri || s.meetsPlate re || s.meetsPlate ri then
    some 5
  else if !budget 0 || !budget 1 || 5000000000 < sumOf (on.map s.linePix) * rate * two then some 6
  else if lanes 0 = 3 || lanes 1 = 3 || !(on.all fun k =>
      s.linePix k % (if s.segRaw12 k then 2 else 4) = 0 && 4 ≤ s.linePix k && s.linePix k ≤ 2048 && s.frameLines k % two = 0 &&
      s.fld (Reg.IN_SEGk_UWIN k) F.IN_SEGk_UWIN_U_LO ≤ s.fld (Reg.IN_SEGk_UWIN k) F.IN_SEGk_UWIN_U_HI) then some 7
  else if evid % 2 ≠ 0 || evid < 64 || 4096 < evid then some 8
  else none

/-- The first row of the expected image whose moment is still to come (R240). -/
def State.expFirst (s : State) : Nat := (s.wp.hwm - 3 - s.dMax) / 2

/-- IN_ENABLE (R227, R250): a write of IN_CTRL; the inspection of a witness stays disabled (R397). -/
def State.inEnable (s : State) (w : Word) : State :=
  let en := F.IN_CTRL_EN.get w = 1
  if s.mode = .print then s.setFld Reg.IN_STAT F.IN_STAT_EN_ERR 1
  else if !en then (if s.inEn then s.inDisable else s)
  else if s.inEn || s.isWitness then s
  else
    match s.enCheck with
    | some e => ((s.setFld Reg.IN_STAT F.IN_STAT_EN_ERR e).flag Reg.IN_STAT F.IN_STAT_EN_REFUSED).raise Ev.EN_REFUSED
    | none =>
      let k := s.drawRandom 32
      let s := k.2.inKeySet k.1
      ({ s with inn := { s.inn with expNext := max s.inn.expNext s.expFirst } }.setFld Reg.IN_STAT F.IN_STAT_EN_ERR 0).flag Reg.IN_CTRL F.IN_CTRL_EN

/-- An access to the rings or descriptors refused by the fabric (R250): REGION as IN_SEAL_ACC codes it. -/
def State.inSealAccess (s : State) (region req : Nat) : State :=
  let s := (s.setFld Reg.IN_SEAL_ACC F.IN_SEAL_ACC_REGION region).setFld Reg.IN_SEAL_ACC F.IN_SEAL_ACC_REQ req
  (s.flag Reg.IN_STAT F.IN_STAT_SEAL_ACCESS).raise Ev.SEAL_ACCESS

/-! ## Export -/

/-- A merged line is in the camera ring. -/
def State.inRing (s : State) (v : Nat) : Bool :=
  let top := s.rdN Reg.IN_IHWM
  s.inn.key.isSome && 1 ≤ v && v ≤ top && decide (top < v + s.rdN Reg.IN_IMG_LINES)

/-- A line as it leaves INSP (R151, R251): grid pixels that touch a payload box are 0. A mask whose
key is gone hides the whole bar (log entry 49). -/
def State.exportLine (s : State) (v : Nat) : List Byte :=
  let row := s.imgRead v
  (List.range 16384).flatMap fun u =>
    let hit := s.inn.masks.any fun m =>
      decide (m.y / 2 ≤ v ∧ v ≤ (m.y + m.h - 1) / 2) && (!s.readable m.key || decide (m.x / 8 ≤ u ∧ u ≤ (m.x + m.w - 1) / 8))
    if hit then [0, 0] else slice row (2 * u) 2

/-! ## What the registers show -/

/-- IN registers that follow from typed state. -/
def State.inView (s : State) (addr : Nat) : Option Word :=
  if addr = Reg.IN_TAB_DATA then
    some (BitVec.ofNat 32 (match s.tabSelected with
      | some k => AMap.get (fun _ => 0) s.inn.tab k
      | none => 0))
  else if addr = Reg.IN_XP_STAT then some (F.IN_XP_STAT_BUSY.put (s.rd addr) (b2n s.inn.exporting.isSome))
  else
    (List.range 16).findSome? fun k => [0, 1].findSome? fun b =>
      if addr = bankReg k b then some (F.IN_SEGk_BANK0_IN_USE.put (s.rd addr) (b2n (s.bankInUse k b))) else none

end Sys2Proof.Machine
end

