-- ==== Sys2Proof/Machine/Fabric.lean ====
section
/-! DEFINITION. The memory fabric and DRAM (13): access rights (R290 to R293), slots, floor slots and decisions (R294 to R297),
panic and revocation (R298 to R300), turn hints and parking (R302, R303), the set switch (R304), counters (R306), the
watchdog (R308), the DRAM queues (R310, R311), refresh and tracking (R312, R314), and the tile cipher (R149). What readers of
DRAM see (`dram`) changes when a burst is admitted; the write queue holds what has not yet been issued to the device. -/

namespace Sys2Proof.Machine

/-! ## Ciphers of sealed regions -/

/-- Tile bytes encrypted or decrypted (R149) for a job slot at a byte offset in its tile buffers. -/
def tileCrypt (key : List Byte) (k off : Nat) (bs : List Byte) : List Byte :=
  xorBytes bs (((List.range ((bs.length + 15) / 16)).flatMap fun i =>
    aesEncrypt key (beBytes 16 (Config.tileCounter k (off / 16 + i)).toNat)))

/-- The job slot whose tile buffers a range meets while they are held (R150). -/
def State.tileOwner (s : State) (r : Nat × Nat) : Option Nat :=
  [0, 1].find? fun k => (s.job k).phase.held && rangesMeet r ((s.job k).tileAddr, (s.job k).tileBufs * (s.job k).tileSize)

/-- The rings of inspection as byte ranges: camera (0) and expected (1). -/
def State.inRings (s : State) : List (Nat × Nat) :=
  [(s.rdN Reg.IN_IMG_ADDR * 65536, 32768 * s.rdN Reg.IN_IMG_LINES),
   (s.rdN Reg.IN_EXP_ADDR * 65536, 16384 * s.rdN Reg.IN_EXP_LINES)]

/-- The rings a range meets while EN = 1, each with whether it is the camera ring (R250). -/
def State.ringsHit (s : State) (r : Nat × Nat) : List Nat :=
  if s.inEn then ([0, 1]).filter fun i => rangesMeet r (s.inRings.getD i (0, 0)) else []

/-- The first ring a range meets while EN = 1 (R250). -/
def State.ringHit (s : State) (r : Nat × Nat) : Option Nat :=
  if s.inEn then s.inRings.findIdx? (rangesMeet r) else none

/-- What stands in DRAM for bytes a requester writes or reads: RNDR and CMPS go through the tile cipher, CAMW and INSP through
that of the inspection rings. Encryption and decryption are the same operation. -/
def State.fabricCipher (s : State) (r a : Nat) (bs : List Byte) : List Byte :=
  let rng := (a, bs.length)
  match s.tileOwner rng, s.ringHit rng with
  | some k, _ => if r = 1 || r = 2 then tileCrypt ((s.job k).tileKey.getD []) k (a - (s.job k).tileAddr) bs else bs
  | none, some i => if r = 4 || r = 5 then ringCrypt (s.inn.key.getD []) i (a - ((s.inRings.getD i (0, 0)).1)) bs else bs
  | none, none => bs

/-! ## Access rights -/

/-- Why a transfer is refused (R293): RIGHTS, RANGE, PLATE (MF_REFUSE), a sealed region of R150 (AU_SEAL_ACC) or of R250
(IN_SEAL_ACC). -/
inductive Refused where
  | rights | range | plate | tile (region : Nat) | ring (region : Nat)
  deriving DecidableEq, Repr

/-- The SRAM regions of R290 by group, offset and direction; group 3 holds its regions in the order of the table
(log entry 31). -/
def sramGranted (g r off : Nat) (write : Bool) : Option Refused :=
  let ok (b : Bool) (e : Refused) : Option Refused := if b then none else some e
  match g with
  | 0 | 1 => if r = 0 || r = 1 then ok (r = 1 && write || r = 0 && !write) .rights else some (.tile 1)
  | 2 => if r = 0 then none else if r = 1 then some .rights else some (.tile 2)
  | 3 =>
    if off < 0x20000 then (if r = 0 then ok write .rights else if r = 1 then some .rights else some (.tile 2))
    else if off < 0xA0000 then ok (r = 10 && write || r = 0 && !write) .rights
    else ok (r = 10 || r = 8 && !write) .rights
  | 4 => ok (r = 10 || r = 8 && !write) .rights
  | 5 => ok (r = 5) .rights
  | 6 => ok (r = 3 || r = 9) .rights
  | _ => ok (r = 6 || r = 7 || r = 8 || r = 11) .rights

/-- Bytes of each SRAM group (R290). -/
def sramSize (g : Nat) : Nat := ([4, 4, 3, 1, 4, 4].getD g 0) * 0x100000 + (if g = 6 then 0x80000 else if g = 7 then 0x200000 else 0)

/-- The check at address decode (R293) of a transfer of `len` bytes. Arbiters 0 and 1 are the DRAM channels, 2 to 9 the SRAM
groups. -/
def State.fabricCheck (s : State) (a r addr len : Nat) (write : Bool) : Option Refused :=
  if 2 ≤ a then
    if addr + len ≤ sramSize (a - 2) then (List.range ((len + 63) / 64)).findSome? fun i => sramGranted (a - 2) r (addr + 64 * i) write
    else some .rights
  else
    let rng := (addr, len)
    if !s.inDram rng then some .range
    else if (s.tileOwner rng).isSome && !(r = 2 && write || r = 1 && !write) then some (.tile 0)
    else
      match (s.ringsHit rng).find? fun i => !(r = 5 || (r = 4 && i = 0 && write)) with
      | some i => some (.ring i)
      | none =>
        if s.inEn && (s.ringsHit rng).isEmpty && r ≠ 5 && rangesMeet rng Config.symRegion then some (.ring 2)
        else if write && (List.range 16).any fun k =>
            (s.plate k).phase ≠ .empty && rangesMeet rng (s.plateRegion k) && !(r = 3 && (s.plate k).phase = .loading) then some .plate
        else none

/-- A refusal recorded and raised (R293). -/
def State.fabricRefuse (s : State) (r : Nat) : Refused → State
  | .tile g =>
    let s := (s.setFld Reg.AU_SEAL_ACC F.AU_SEAL_ACC_REGION g).setFld Reg.AU_SEAL_ACC F.AU_SEAL_ACC_REQ r
    (s.flag Reg.AU_PLAY_STAT F.AU_PLAY_STAT_SEAL_ACCESS).raise Ev.SEAL_ACCESS
  | .ring g => s.inSealAccess g r
  | e =>
    let why := match e with
      | .rights => 1
      | .range => 2
      | _ => 3
    let s := (s.setFld Reg.MF_REFUSE F.MF_REFUSE_WHY why).setFld Reg.MF_REFUSE F.MF_REFUSE_REQ r
    (s.flag Reg.MF_STAT F.MF_STAT_REFUSED).raise Ev.FABRIC_REFUSED

/-! ## Arbiters -/

/-- Arbiter `a`, and it replaced. -/
def State.arb (s : State) (a : Nat) : ArbState := s.mf.arbs.getD a ArbState.reset
def State.setArb (s : State) (a : Nat) (x : ArbState) : State := { s with mf := { s.mf with arbs := s.mf.arbs.set a x } }

/-- The counters of a requester at an arbiter, and a change of them. -/
def cntDefault : Nat → ArbCnt := fun _ => ⟨0, 0, 0, 0, 0, 0xFFFF, 0⟩
def State.arbCnt (s : State) (a r : Nat) : ArbCnt := AMap.get cntDefault s.mf.cnt (16 * a + r)
def State.setCnt (s : State) (a r : Nat) (c : ArbCnt) : State :=
  { s with mf := { s.mf with cnt := AMap.set cntDefault s.mf.cnt (16 * a + r) c } }

/-- The table in force at an arbiter; before an image is loaded every slot is FREE. -/
def State.slotTab (s : State) (a : Nat) : SlotTab :=
  (s.si.slots.find? fun t => t.arb = a && t.set = (s.arb a).set).getD ⟨a, 0, 0, 0, 0, 0, List.replicate 256 0xFF⟩

/-- The owner of a slot; FREE is 0xFF. -/
def SlotTab.owner (t : SlotTab) (i : Nat) : Nat := t.slots.getD (i % 256) 0xFF

/-- The floor slots of a table (R295). -/
def SlotTab.floors (t : SlotTab) : List Nat :=
  let free := ((List.range 256).filter fun i => t.owner i = 0xFF).take t.bgFloor
  let more := ((List.range 256).filter fun i => t.owner i ≠ 0xFF && t.owner i ≠ 0 && t.owner i ≠ 4).take (t.bgFloor - free.length)
  free ++ more

/-- RANK nibble of a requester. -/
def SlotTab.rankOf (t : SlotTab) (r : Nat) : Nat := t.rank / 16 ^ r % 16

/-- SLOT_CYC of an arbiter (R294). -/
def State.slotCyc (s : State) (a : Nat) : Nat :=
  if 2 ≤ a then 1
  else
    match s.fld Reg.DC_CFG F.DC_CFG_RATE with
    | 0 => 10 | 1 => 8 | 2 => 5 | 3 => 5 | _ => 4

/-- A requester position: the lane counts for HSTR alone (R292). -/
def position (r lane : Nat) : Nat := if r = 0 then lane else 0

/-- The transfer is one of a requester position. -/
def Xfer.isOf (t : Xfer) (r lane : Nat) : Bool := t.req = r && t.lane = lane

/-- A requester position has a transfer in hand at an arbiter (R292): pending, running, or admitted and not yet complete. -/
def ArbState.presents (x : ArbState) (r lane : Nat) : Bool :=
  x.pend.any (·.isOf r lane) || x.done.any (·.isOf r lane) || (match x.run with
    | some u => u.1.any (·.isOf r lane)
    | none => false)

/-- The bytes a write carries: those given, or what the private buffer of its requester holds of its last read (R307). -/
def State.writeData (s : State) (r lane : Nat) (data : List Byte) : List Byte :=
  if data.isEmpty then AMap.get (fun _ => []) s.mf.stage (16 * r + lane) else data

/-- FABRIC_TRANSFER_REQUEST (R292, R293, R307): a well-formed transfer becomes pending, or is refused and completes with an
error; a requester position with one in hand presents none, nor does one that has not yet read what it is to write. -/
def State.fabricRequest (s : State) (a r lane addr n : Nat) (write : Bool) (data : List Byte) : State :=
  let lane := position r lane
  let bytes := s.writeData r lane data
  let one := addr % 64 = 0 && 1 ≤ n && n ≤ 4 && (!write || decide (64 * n ≤ bytes.length)) &&
    (2 ≤ a || (addr / 4096 % 2 = a && (addr + 64 * n - 1) / 4096 = addr / 4096))
  let x := s.arb a
  let t : Xfer := { req := r, lane := lane, addr := addr, n := n, write := write, data := if write then slice bytes 0 (64 * n) else [],
                    since := s.now, starved := false, got := [], counted := 0, failed := false }
  if !one || x.presents r lane then s
  else
    match s.fabricCheck a r addr (64 * n) write with
    | some e => (s.fabricRefuse r e).setArb a { x with done := x.done ++ [{ t with failed := true }] }
    | none => s.setArb a { x with pend := x.pend ++ [t] }

/-! ## DRAM -/

/-- Channel `c`, and it replaced. -/
def State.dch (s : State) (c : Nat) : DramCh := s.mf.chs.getD c ⟨[], [], false, [], 0, none⟩
def State.setDch (s : State) (c : Nat) (x : DramCh) : State := { s with mf := { s.mf with chs := s.mf.chs.set c x } }

/-- Requesters whose page hint is CLOSE (R292). -/
def hintClose (r : Nat) : Bool := r = 6 || r = 7 || r = 8 || r = 10 || r = 11

/-- A burst issued to the device (R310, R311): counted as a page hit or miss; its row is left open or closed by its hint. -/
def State.dramIssue (s : State) (c addr r : Nat) : State :=
  let rank := b2n (s.isSet Reg.DC_CFG F.DC_CFG_RANK1 && decide (s.dramSize / 2 ≤ addr))
  let k := rank * 8 + addr / 8192 % 8
  let row := addr / 65536 + 1
  let x := s.dch c
  let hit := decide (AMap.get (fun _ => 0) x.rows k = row)
  let s := s.setDch c { x with rows := AMap.set (fun _ => 0) x.rows k (if hintClose r then 0 else row) }
  if hit then s.bump (Reg.DC_CHc_PAGE c) F.DC_CHc_PAGE_HIT else s.bump (Reg.DC_CHc_PAGE c) F.DC_CHc_PAGE_MISS

/-- Bytes a DCMP write puts into the region of a plate slot that is LOADING (R111). -/
def State.plateFill (s : State) (addr n : Nat) : State :=
  match (List.range 16).find? fun k => (s.plate k).phase = .loading && rangesMeet (addr, n) (s.plateRegion k) with
  | some k => { s with js := { s.js with plates := s.js.plates.set k { s.plate k with fill := (s.plate k).fill + n } } }
  | none => s

/-- A burst of an SRAM group read and written (R290): group 4 holds the nozzle table, two records to a burst. -/
def State.sramBurst (s : State) (g off : Nat) : List Byte :=
  if g = 4 then s.nozBytes (off / 32) ++ s.nozBytes (off / 32 + 1) else Mem.bytes 0 s.mf.sram (g * 2 ^ 24 + off) 64
def State.sramPut (s : State) (g off : Nat) (b : List Byte) : State :=
  if g = 4 then (s.setNoz (off / 32) (NozRec.ofBytes (slice b 0 32))).setNoz (off / 32 + 1) (NozRec.ofBytes (slice b 32 32))
  else { s with mf := { s.mf with sram := Mem.put 0 s.mf.sram (g * 2 ^ 24 + off) b } }

/-- What a DRAM write burst does where it is admitted for the first time (R111, R298): DCMP fills a plate or the raster ring, CAMW
frees a burst of its staging buffer. -/
def State.firstAdmitted (s : State) (r addr : Nat) : State :=
  if r = 3 then (s.plateFill addr 64).rasterFill addr 64
  else if r = 4 then { s with mf := { s.mf with staged := s.mf.staged - 1 } }
  else s

/-- Burst `i` of a transfer admitted (R294, R299, R311); `none` where the queue of the channel it needs is full. -/
def State.admitBurst (s : State) (a : Nat) (t : Xfer) (i : Nat) : Option (State × Xfer) :=
  let addr := t.addr + 64 * i
  let t' := { t with counted := max t.counted (i + 1) }
  if 2 ≤ a then
    if t.write then some (s.sramPut (a - 2) addr (slice t.data (64 * i) 64), t')
    else some (s, { t with got := t.got ++ [(i, s.sramBurst (a - 2) addr)] })
  else
    let x := s.dch a
    if t.write then
      if 64 ≤ x.wq.length then none
      else
        let s := s.dramWrite addr (s.fabricCipher t.req addr (slice t.data (64 * i) 64))
        let s := if t.counted ≤ i then s.firstAdmitted t.req addr else s
        let wq := x.wq ++ [(addr, t.req)]
        some (s.setDch a { x with wq := wq, drain := x.drain || decide (48 ≤ wq.length) }, t')
    else if x.wq.any fun w => w.1 = addr then
      some (s.bump (Reg.DC_CHc_FWD a) F.DC_CHc_FWD_COUNT,
        { t with got := t.got ++ [(i, s.fabricCipher t.req addr (s.dramRead addr 64))] })
    else if 64 ≤ x.rq.length then none
    else some (s.setDch a { x with rq := x.rq ++ [⟨addr, t.req, t.lane, i, true⟩] }, t)

/-- A burst of a read arrives at the transfer it belongs to. -/
def ArbState.arrive (x : ArbState) (b : ReadBurst) (bs : List Byte) : ArbState :=
  let put (t : Xfer) : Xfer :=
    if b.live && t.isOf b.req b.lane && !t.write && !t.failed then { t with got := t.got ++ [(b.idx, bs)] } else t
  { x with run := x.run.map (fun u => (u.1.map put, u.2)), done := x.done.map put }

/-- The device serves the read queue of a channel (R311), up to `n` bursts in order, none while a drain batch runs; a burst whose
write has been queued meanwhile comes from the write queue. -/
def State.dramServe (c : Nat) : Nat → State → State
  | 0, s => s
  | n + 1, s =>
    let x := s.dch c
    match x.rq with
    | [] => s
    | b :: rest =>
      if x.drain then s
      else
        let bs := s.fabricCipher b.req b.addr (s.dramRead b.addr 64)
        let s := if x.wq.any fun w => w.1 = b.addr then s.bump (Reg.DC_CHc_FWD c) F.DC_CHc_FWD_COUNT else s.dramIssue c b.addr b.req
        let s := s.setDch c { s.dch c with rq := rest }
        State.dramServe c n (s.setArb c ((s.arb c).arrive b bs))

/-- WRITE_DRAIN_BATCH (R311): once 48 bursts wait, writes are issued until 16 remain. -/
def State.drainBatch (s : State) (c : Nat) : State :=
  let x := s.dch c
  if !x.drain then s
  else
    let n := x.wq.length - 16
    let s := (x.wq.take n).foldl (fun s w => s.dramIssue c w.1 w.2) s
    s.setDch c { s.dch c with wq := x.wq.drop n, drain := false }

/-- REFab issued (R312, R314): rows close, and a tracking result that waits takes effect. -/
def State.refresh (s : State) (c : Nat) : State :=
  let x := s.dch c
  let s := s.setDch c { x with rows := [], track := none }
  match x.track with
  | none => s
  | some (_, shift) =>
    let s := s.setFld (Reg.DC_CHc_TRACK c) F.DC_CHc_TRACK_SHIFT (ofSigned 16 shift)
    if s.fld Reg.DC_TRACK_CFG F.DC_TRACK_CFG_DRIFT_LIM < shift.natAbs then (s.flag Reg.DC_STAT F.DC_STAT_DRIFT).raise Ev.DRAM_DRIFT
    else s

/-- HSTR or CAMW in panic at a channel's arbiter. -/
def State.chPanic (s : State) (c : Nat) : Bool := (s.arb c).hstrPanic || (s.arb c).camwPanic

/-- DRAM_REFRESH_DUE (R312). -/
def State.refreshDue (s : State) (c : Nat) : State :=
  let x := s.dch c
  if !s.chPanic c then (s.setDch c { x with postponed := 0 }).refresh c
  else if x.postponed < 8 then
    (s.setDch c { x with postponed := x.postponed + 1 }).raiseTo (Reg.DC_CHc_REF c) F.DC_CHc_REF_MAXPOST (x.postponed + 1)
  else
    let s := (s.bump (Reg.DC_CHc_REF c) F.DC_CHc_REF_FORCED).flag Reg.DC_STAT F.DC_STAT_REFRESH_FORCED
    (s.relayRaise Ev.REFRESH_FORCED c dramPeriod).refresh c

/-- DRAM_MR4_READ (R312). -/
def State.mr4Read (s : State) (c rate : Nat) (hot : Bool) : State :=
  let s := s.setFld (Reg.DC_CHc_REF c) F.DC_CHc_REF_MR4_RATE rate
  if hot then (s.flag Reg.DC_STAT F.DC_STAT_HOT).raise Ev.DRAM_HOT else s

/-- DRAM_TRACK_INTERVAL (R314): the count read and the shift since BOOT it gives, applied with the next REFab. -/
def State.trackInterval (s : State) (c osc : Nat) (shift : Int) : State :=
  let s := s.setFld (Reg.DC_CHc_TRACK c) F.DC_CHc_TRACK_OSC osc
  s.setDch c { s.dch c with track := some (osc, shift) }

/-! ## A slot -/

/-- Requesters with a pending transfer, in ascending ID. -/
def pendingIds (pend : List Xfer) : List Nat := (List.range 12).filter fun r => pend.any fun t => t.req = r

/-- The next of some IDs after a given one, in turn. -/
def nextInTurn (ids : List Nat) (last : Nat) : Option Nat := (ids.find? fun r => decide (last < r)).orElse fun _ => ids.head?

/-- The claimant of an unoccupied slot that is not a floor slot (R296). -/
def claimant (t : SlotTab) (i : Nat) (ids parked : List Nat) (hp cp : Bool) : Option Nat :=
  let has (r : Nat) : Bool := ids.contains r
  if hp && has 0 then some 0
  else if cp && has 4 then some 4
  else if has (t.owner i) then some (t.owner i)
  else
    match parked.find? has with
    | some r => some r
    | none =>
      (ids.filter fun r => t.rankOf r ≠ 15).foldl (fun b r => match b with
        | some q => if t.rankOf r < t.rankOf q then some r else b
        | none => some r) none

/-- Slots from slot `i` to the next one a requester owns that is no floor slot (R302). -/
def turnSlots (t : SlotTab) (i r : Nat) : Option Nat :=
  ((List.range 256).map (· + 1)).find? fun d => t.owner (i + d) = r && !(t.floors.contains ((i + d) % 256))

/-- The table that applies to slot `i` of an arbiter: a set switch that waits takes effect with slot 0 (R294, R304). -/
def State.slotTabFor (s : State) (a i : Nat) : SlotTab :=
  match (s.arb a).setNext with
  | some k => if i = 0 then (s.setArb a { s.arb a with set := k }).slotTab a else s.slotTab a
  | none => s.slotTab a

/-- TURN_HINT to a requester passed over for slot `i`, with parking (R302, R303). -/
def State.passedOver (s : State) (a i r : Nat) : State :=
  let hint := match turnSlots (s.slotTabFor a i) i r with
    | some d => min 0xFFFF (s.slotCyc a * d)
    | none => 0xFFFF
  let s := s.setCnt a r { s.arbCnt a r with hint := hint }
  let x := s.arb a
  let thr := s.fld Reg.MF_PARK_T F.MF_PARK_T_CYCLES
  if thr = 0xFFFF || hint ≤ thr || x.parked.contains r then s
  else if x.parked.length < 8 then s.setArb a { x with parked := x.parked ++ [r] }
  else (s.flag Reg.MF_STAT F.MF_STAT_PARK_FULL).raise Ev.PARK_FULL

/-- The watchdog at a decision (R308); `holder` is the requester position that holds the slot. -/
def State.fabricWatch (s : State) (a : Nat) (holder : Option (Nat × Nat)) : State :=
  let viol (s : State) (kind r : Nat) : State :=
    ((s.setFld Reg.MF_WFW_STAT F.MF_WFW_STAT_KIND kind).setFld Reg.MF_WFW_STAT F.MF_WFW_STAT_ARB a).setFld
      Reg.MF_WFW_STAT F.MF_WFW_STAT_REQ r
  let s := match holder with
    | some (r, lane) =>
      if (List.range 10).any fun b => b ≠ a && (s.arb b).pend.any (·.isOf r lane) then
        ((viol s 1 r).flag Reg.MF_STAT F.MF_STAT_CYCLE).raise Ev.FABRIC_CYCLE
      else s
    | none => s
  let lim := s.rdN Reg.MF_WFW
  match (s.arb a).pend.find? fun t => !t.starved && lim ≠ 0 && decide (lim < s.now - t.since) with
  | some t =>
    let x := s.arb a
    let s := s.setArb a { x with pend := x.pend.map fun u => if u = t then { u with starved := true } else u }
    ((viol s 0 t.req).flag Reg.MF_STAT F.MF_STAT_STARVE).raise Ev.FABRIC_STARVE
  | none => s

/-- Cycles a pending transfer has waited since its requester's WAIT was last read (R306). -/
def State.waited (s : State) (c : ArbCnt) (t : Xfer) : Nat := s.now - max t.since c.waitFrom

/-- A transfer that is none. -/
def xferDefault : Xfer := ⟨0, 0, 0, 0, false, [], 0, false, [], 0, false⟩

/-- A grant taken up at the start of its slot: the transfer leaves the pending ones and begins its run (R303, R306); every
lane of HSTR with a transfer in an SRAM group is served by the one grant (R291). -/
def State.takeGrant (s : State) (a r lane : Nat) (floor : Bool) : State :=
  let x := s.arb a
  match x.pend.find? fun t => t.req = r && t.lane = lane with
  | none => s
  | some t =>
    let ts := t :: (if r = 0 && 2 ≤ a then x.pend.filter fun u => u.req = 0 && u.lane ≠ lane else [])
    let c := s.arbCnt a r
    let waited := ts.foldl (fun n u => n + s.waited c u) 0
    let longest := ts.foldl (fun n u => max n (s.now - u.since)) 0
    let s := s.setCnt a r { c with grant := min 0xFFFFFFFF (c.grant + 1), wait := min 0xFFFFFFFF (c.wait + waited),
                                   maxwait := max c.maxwait (min 0xFFFFFFFF longest) }
    s.setArb a { x with pend := x.pend.filter fun u => !ts.contains u, run := some (ts, 0, floor), parked := x.parked.filter (· ≠ r) }

/-- A set switch that waits takes effect with slot 0 (R304). -/
def State.slotSwitch (s : State) (a : Nat) : State :=
  let x := s.arb a
  match x.setNext with
  | some k => if x.slot = 0 then s.setArb a { x with set := k, setNext := none } else s
  | none => s

/-- A revocation decided before takes effect (R300): the bursts admitted complete, and the request is pending again. -/
def State.slotRevoke (s : State) (a : Nat) : State :=
  let x := s.arb a
  match x.run with
  | some (t :: _, _) =>
    if x.revoke then
      let c := s.arbCnt a t.req
      let s := s.setCnt a t.req { c with revoked := min 0xFFFF (c.revoked + 1) }
      let r := (x.grant.getD (0, 0, false)).1
      let d := s.arbCnt a r
      let s := s.setCnt a r { d with imposed := min 0xFFFF (d.imposed + 1) }
      let y := s.dch a
      let s := s.setDch a { y with rq := y.rq.map fun b => if b.req = t.req && b.lane = t.lane then { b with live := false } else b }
      s.setArb a { x with run := none, revoke := false,
                          pend := x.pend ++ [{ t with got := [], since := s.now, starved := false }] }
    else s
  | _ => s

/-- The grant decided before is taken up, or its slot stays idle where the transfer has completed meanwhile (R297); the floor
turn goes on either way (R296). -/
def State.slotGrant (s : State) (a : Nat) : State :=
  let x := s.arb a
  let s := s.setArb a { x with grant := none, stale := false, revoke := false }
  match x.grant with
  | none => s
  | some (r, lane, floor) =>
    let s := if floor then s.setArb a { s.arb a with floorLast := r } else s
    if x.stale then s.bump (Reg.MF_ARBa_STAT a) F.MF_ARBa_STAT_STALE else s.takeGrant a r lane floor

/-- A burst of each transfer of the run is admitted, unless a queue is full (R291, R294, R311). -/
def State.slotAdmit (s : State) (a : Nat) : State :=
  match (s.arb a).run with
  | none => s
  | some (ts, k, f) =>
    let q := ts.foldl (fun (q : Option (State × List Xfer)) t => q.bind fun q => (q.1.admitBurst a t k).map fun e => (e.1, q.2 ++ [e.2]))
      (some (s, []))
    match q with
    | none => s.bump (Reg.DC_CHc_QSTALL a) F.DC_CHc_QSTALL_COUNT
    | some (s, ts) =>
      let x := s.arb a
      let left := ts.filter fun t => decide (k + 1 < t.n)
      let finished := ts.filter fun t => decide (t.n ≤ k + 1)
      s.setArb a { x with run := if left.isEmpty then none else some (left, k + 1, f), done := x.done ++ finished }

/-- The decision for the next slot (R295 to R297, R300) from what was pending, parked and in panic at the start of this one. The
requesters passed over are those still pending (R302). -/
def State.slotDecide (s : State) (a : Nat) (pend0 : List Xfer) (parked0 : List Nat) : State :=
  let x := s.arb a
  let i := (x.slot + 1) % 256
  let t := s.slotTabFor a i
  let ids := pendingIds pend0
  let static := t.floors.contains i
  let choose (s : State) (r : Nat) (floor rev : Bool) : State :=
    let lane := ((pend0.find? fun u => u.req = r).map (·.lane)).getD 0
    let gone := !(s.arb a).pend.any (·.isOf r lane)
    s.setArb a { s.arb a with grant := some (r, lane, floor), stale := gone && !rev, revoke := rev }
  let waiting := pendingIds (pend0.filter fun u => x.pend.any (·.isOf u.req u.lane))
  let pass (s : State) (w : Option Nat) : State := (waiting.filter fun r => some r ≠ w).foldl (fun s r => s.passedOver a i r) s
  match x.run with
  | some (ts, k, began) =>
    let u := ts.headD xferDefault
    let s := s.setArb a { x with floorCarry := x.floorCarry || static }
    let w := if x.hstrPanic && ids.contains 0 then some 0 else if x.camwPanic && ids.contains 4 then some 4 else none
    match w with
    | some r =>
      if static || began || u.req = 0 || u.req = 4 || u.n ≤ k + 1 || r = u.req then pass s none
      else pass (choose s r false true) (some r)
    | none => pass s none
  | none =>
    let floor := static || x.floorCarry
    let s := s.setArb a { x with floorCarry := false }
    let w := if floor then nextInTurn ids x.floorLast else claimant t i ids parked0 x.hstrPanic x.camwPanic
    match w with
    | some r => pass (choose s r floor false) (some r)
    | none => pass s none

/-- The panics at an arbiter (R298) with HSTR at a level, under the table in force. -/
def State.slotPanic (s : State) (a level : Nat) : Bool × Bool :=
  let t := s.slotTab a
  (t.panicHstr ≠ 0 && decide (level < t.panicHstr), t.panicCamw ≠ 0 && decide (1024 - s.mf.staged < t.panicCamw))

/-- ARB_SLOT_DECISION: one slot of an arbiter, with HSTR at a level at its start (R298). During the slot the device serves `reads`
bursts of the channel's read queue, and `camera` bursts come into the staging buffer of CAMW. -/
def State.arbSlot (s : State) (a level reads camera : Nat) : State :=
  let s := (s.slotSwitch a).slotRevoke a
  let p := s.slotPanic a level
  let x := s.arb a
  let s := s.setArb a { x with hstrPanic := p.1, camwPanic := p.2 }
  let s := if a < 2 && !p.1 && !p.2 && (s.dch a).postponed ≠ 0 then (s.setDch a { s.dch a with postponed := 0 }).refresh a else s
  let s := s.slotGrant a
  let holder := (s.arb a).run.map fun u => ((u.1.headD xferDefault).req, (u.1.headD xferDefault).lane)
  let s := s.slotAdmit a
  let s := if a < 2 then State.dramServe a reads s else s
  let s := { s with mf := { s.mf with staged := min 1024 (s.mf.staged + camera) } }
  let s := (s.slotDecide a x.pend x.parked).fabricWatch a holder
  s.setArb a { s.arb a with slot := ((s.arb a).slot + 1) % 256 }

/-- The transfer is over (R293, R299): refused, a write admitted whole, or a read of which every burst has arrived. -/
def Xfer.ended (t : Xfer) : Bool := t.failed || t.write || decide (t.got.length = t.n)

/-- The bytes of a read, in the order of its bursts. -/
def Xfer.readData (t : Xfer) : List Byte :=
  (List.range t.n).flatMap fun i => ((t.got.find? fun g => g.1 = i).map (·.2)).getD []

/-- FABRIC_TRANSFER_COMPLETE (R293, R299, R307): the last burst has arrived, and a read's data are in the private buffer of its
requester; a refused transfer completes with an error. -/
def State.fabricDone (s : State) (a r lane : Nat) : State :=
  let lane := position r lane
  let x := s.arb a
  match x.done.find? fun t => t.isOf r lane && t.ended with
  | none => s
  | some t =>
    let read := !t.write && !t.failed
    let t' := if read then { t with data := t.readData } else t
    let s := s.setArb a { x with done := x.done.erase t, last := some t' }
    if read then { s with mf := { s.mf with stage := AMap.set (fun _ => []) s.mf.stage (16 * r + lane) t'.data } } else s

/-- The mode change of R304: every arbiter takes set `k` at its next slot 0. -/
def State.setSwitch (s : State) (k : Nat) : State :=
  let f (x : ArbState) : ArbState := { x with setNext := if x.set = k then none else some k }
  { s with mf := { s.mf with arbs := s.mf.arbs.map f } }

/-! ## What the registers show -/

/-- MF and DC registers that follow from typed state. -/
def State.mfView (s : State) (addr : Nat) : Option Word :=
  let c := s.arbCnt (s.fld Reg.MF_CNT_SEL F.MF_CNT_SEL_ARB) (s.fld Reg.MF_CNT_SEL F.MF_CNT_SEL_REQ)
  let w (n : Nat) : Option Word := some (BitVec.ofNat 32 n)
  if addr = Reg.MF_SET then w ((s.arb 0).set + 256 * b2n (s.mf.arbs.any fun x => x.setNext.isSome))
  else if addr = Reg.MF_CNT_GRANT then w c.grant
  else if addr = Reg.MF_CNT_WAIT then
    let k := s.fld Reg.MF_CNT_SEL F.MF_CNT_SEL_REQ
    let ps := (s.arb (s.fld Reg.MF_CNT_SEL F.MF_CNT_SEL_ARB)).pend.filter fun t => t.req = k
    w (min 0xFFFFFFFF (c.wait + ps.foldl (fun n t => n + s.waited c t) 0))
  else if addr = Reg.MF_CNT_MAXWAIT then w c.maxwait
  else if addr = Reg.MF_CNT_REVOKE then w (c.imposed * 65536 + c.revoked)
  else if addr = Reg.MF_CNT_HINT then w c.hint
  else
    ((List.range 10).findSome? fun a =>
      let x := s.arb a
      if addr = Reg.MF_ARBa_STAT a then
        some ([(F.MF_ARBa_STAT_FLOOR_NEXT, x.floorLast), (F.MF_ARBa_STAT_PARKED, x.parked.length),
          (F.MF_ARBa_STAT_CAMW_PANIC, b2n x.camwPanic), (F.MF_ARBa_STAT_HSTR_PANIC, b2n x.hstrPanic)].foldl
          (fun w fv => BitField.put fv.1 w fv.2) (s.rd addr))
      else none).orElse fun _ =>
    [0, 1].findSome? fun k =>
      if addr = Reg.DC_CHc_WQ k then some (F.DC_CHc_WQ_FILL.put (s.rd addr) (s.dch k).wq.length)
      else if addr = Reg.DC_CHc_REF k then some (F.DC_CHc_REF_POSTPONED.put (s.rd addr) (s.dch k).postponed)
      else none

/-- What reading a counter of the selection clears (R306). -/
def State.mfReadClear (s : State) (addr : Nat) : State :=
  let a := s.fld Reg.MF_CNT_SEL F.MF_CNT_SEL_ARB
  let r := s.fld Reg.MF_CNT_SEL F.MF_CNT_SEL_REQ
  let c := s.arbCnt a r
  if addr = Reg.MF_CNT_GRANT then s.setCnt a r { c with grant := 0 }
  else if addr = Reg.MF_CNT_WAIT then s.setCnt a r { c with wait := 0, waitFrom := s.now }
  else if addr = Reg.MF_CNT_MAXWAIT then s.setCnt a r { c with maxwait := 0 }
  else if addr = Reg.MF_CNT_REVOKE then s.setCnt a r { c with revoked := 0, imposed := 0 }
  else s

/-! ## Engines' own transfers -/

/-- `n` bytes of DRAM read by a requester (R293): `none` where the transfer is refused. -/
def State.readAs (s : State) (r addr n : Nat) : Option (List Byte) × State :=
  match s.fabricCheck 0 r addr n false with
  | some e => (none, s.fabricRefuse r e)
  | none => (some (s.fabricCipher r addr (s.dramRead addr n)), s)

/-- Bytes written to DRAM by a requester (R293): whether the transfer was made. -/
def State.writeAs (s : State) (r addr : Nat) (bs : List Byte) : Bool × State :=
  match s.fabricCheck 0 r addr bs.length true with
  | some e => (false, s.fabricRefuse r e)
  | none =>
    let s := s.dramWrite addr (s.fabricCipher r addr bs)
    (true, if r = 3 then (s.plateFill addr bs.length).rasterFill addr bs.length else s)

end Sys2Proof.Machine
end

