-- ==== Sys2Proof/Machine/Inflate.lean ====
section
/-! DEFINITION. RFC 1951 as R401 restricts it: decoding of the DEFLATE data of one container block, with the errors of R403 in
the order decoding meets them, and the stored form of a block (R406). -/

namespace Sys2Proof.Machine

/-- Why decoding stops (steps 3 to 5 of R403). -/
inductive InfErr where
  | expand | trunc | format
  deriving DecidableEq, Repr

/-- The bits of a byte string, least significant first. -/
def bitsOf (bs : List Byte) : List Bool := bs.flatMap fun b => (List.range 8).map fun i => b.toNat.testBit i

/-- `n` bits as a number, least significant first. -/
def takeBits : Nat → List Bool → Except InfErr (Nat × List Bool)
  | 0, l => .ok (0, l)
  | _ + 1, [] => .error .trunc
  | n + 1, b :: l => match takeBits n l with
    | .ok (v, r) => .ok (b2n b + 2 * v, r)
    | .error e => .error e

/-- A Huffman code: how many codes there are of each length from 1 to 15, and the symbols in the order of their codes. -/
structure Huff where
  counts : List Nat
  syms : List Nat

/-- The code given by the code lengths of its symbols. -/
def Huff.ofLens (ls : List Nat) : Huff :=
  ⟨(List.range 15).map fun i => (ls.filter fun l => l = i + 1).length,
   (List.range 15).flatMap fun i => (ls.zipIdx.filter fun l => l.1 = i + 1).map (·.2)⟩

/-- Code space left over: 0 for a complete code, negative for an over-subscribed one. -/
def Huff.left (h : Huff) : Int := h.counts.foldl (fun (l : Int) (c : Nat) => 2 * l - (c : Int)) 1

/-- The next symbol: code bits come most significant first. -/
def huffWalk (syms : List Nat) : List Nat → Nat → Nat → Nat → List Bool → Except InfErr (Nat × List Bool)
  | [], _, _, _, _ => .error .format
  | _ :: _, _, _, _, [] => .error .trunc
  | c :: cs, code, first, index, b :: l =>
    let code := 2 * code + b2n b
    if code < first + c then
      match syms[index + (code - first)]? with
      | some s => .ok (s, l)
      | none => .error .format
    else huffWalk syms cs code (2 * (first + c)) (index + c) l

/-- The next symbol of a code. -/
def Huff.next (h : Huff) (l : List Bool) : Except InfErr (Nat × List Bool) := huffWalk h.syms h.counts 0 0 0 l

/-- Base and extra bits of a length symbol, 257 to 285. -/
def lenBase (i : Nat) : Nat × Nat :=
  if i < 8 then (i + 3, 0) else if i = 28 then (258, 0) else (3 + (4 + i % 4) * 2 ^ (i / 4 - 1), i / 4 - 1)

/-- Base and extra bits of a distance symbol, 0 to 29. -/
def distBase (i : Nat) : Nat × Nat := if i < 2 then (i + 1, 0) else (1 + (2 + i % 2) * 2 ^ (i / 2 - 1), i / 2 - 1)

/-- Output so far, newest byte first, with its length. -/
structure InfOut where
  rev : List Byte
  len : Nat

/-- A byte put out, unless the limit is reached (step 3 of R403). -/
def InfOut.push (o : InfOut) (limit : Nat) (b : Byte) : Except InfErr InfOut :=
  if o.len < limit then .ok ⟨b :: o.rev, o.len + 1⟩ else .error .expand

/-- `n` bytes copied from a distance back. -/
def InfOut.copy (limit d : Nat) : Nat → InfOut → Except InfErr InfOut
  | 0, o => .ok o
  | n + 1, o => do InfOut.copy limit d n (← o.push limit (o.rev.getD (d - 1) 0))

/-- `n` bytes of a stored block. -/
def infStored (limit : Nat) : Nat → List Bool → InfOut → Except InfErr (List Bool × InfOut)
  | 0, l, o => .ok (l, o)
  | n + 1, l, o => do
    let b ← takeBits 8 l
    infStored limit n b.2 (← o.push limit (BitVec.ofNat 8 b.1))

/-- Literals and matches up to the end-of-block symbol; every symbol takes at least one bit, so `fuel` bits suffice. -/
def infCodes (limit : Nat) (lit dist : Huff) : Nat → List Bool → InfOut → Except InfErr (List Bool × InfOut)
  | 0, _, _ => .error .trunc
  | f + 1, l, o => do
    let s ← lit.next l
    if s.1 < 256 then infCodes limit lit dist f s.2 (← o.push limit (BitVec.ofNat 8 s.1))
    else if s.1 = 256 then .ok (s.2, o)
    else if 285 < s.1 then .error .format
    else
      let lb := lenBase (s.1 - 257)
      let x ← takeBits lb.2 s.2
      let d ← dist.next x.2
      if 29 < d.1 then .error .format
      else
        let db := distBase d.1
        let y ← takeBits db.2 d.2
        let back := db.1 + y.1
        if o.len < back then .error .format
        else infCodes limit lit dist f y.2 (← InfOut.copy limit back (lb.1 + x.1) o)

/-- The static codes of RFC 1951. -/
def staticLit : Huff :=
  Huff.ofLens (List.replicate 144 8 ++ List.replicate 112 9 ++ List.replicate 24 7 ++ List.replicate 8 8)
def staticDist : Huff := Huff.ofLens (List.replicate 32 5)

/-- The order in which code lengths of the code-length code come. -/
def clOrder : List Nat := [16, 17, 18, 0, 8, 7, 9, 6, 10, 5, 11, 4, 12, 3, 13, 2, 14, 1, 15]

/-- The lengths of the code-length code. -/
def readCl : List Nat → List Bool → List Nat → Except InfErr (List Nat × List Bool)
  | [], l, ls => .ok (ls, l)
  | i :: is, l, ls => do
    let v ← takeBits 3 l
    readCl is v.2 (ls.set i v.1)

/-- `n` code lengths of the literal and distance codes, run lengths undone. -/
def readLens (cl : Huff) (n : Nat) : Nat → List Bool → List Nat → Except InfErr (List Nat × List Bool)
  | 0, _, _ => .error .trunc
  | f + 1, l, ls => do
    if ls.length = n then .ok (ls, l)
    else
      let s ← cl.next l
      if s.1 < 16 then readLens cl n f s.2 (ls ++ [s.1])
      else
        let rep := if s.1 = 16 then (2, 3) else if s.1 = 17 then (3, 3) else (7, 11)
        let x ← takeBits rep.1 s.2
        let k := rep.2 + x.1
        match s.1, ls.getLast? with
        | 16, none => .error .format
        | 16, some v => if n < ls.length + k then .error .format else readLens cl n f x.2 (ls ++ List.replicate k v)
        | _, _ => if n < ls.length + k then .error .format else readLens cl n f x.2 (ls ++ List.replicate k 0)

/-- A code of a dynamic block is complete, or has at most one code, of one bit (RFC 1951). -/
def Huff.allowed (h : Huff) : Bool := h.left = 0 || h.syms.isEmpty || (h.syms.length = 1 && h.counts.head? = some 1)

/-- The codes of a dynamic block. -/
def readDynamic (l : List Bool) : Except InfErr (Huff × Huff × List Bool) := do
  let a ← takeBits 5 l
  let b ← takeBits 5 a.2
  let c ← takeBits 4 b.2
  let hlit := a.1 + 257
  let hdist := b.1 + 1
  if 286 < hlit then .error .format
  else
    let r ← readCl (clOrder.take (c.1 + 4)) c.2 (List.replicate 19 0)
    let cl := Huff.ofLens r.1
    if cl.left ≠ 0 then .error .format
    else
      let x ← readLens cl (hlit + hdist) (hlit + hdist + 1) r.2 []
      let lit := Huff.ofLens (x.1.take hlit)
      let dist := Huff.ofLens (x.1.drop hlit)
      if x.1.getD 256 0 = 0 || !lit.allowed || !dist.allowed then .error .format else .ok (lit, dist, x.2)

/-- The DEFLATE blocks of a container block up to the one with BFINAL = 1. -/
def infBlocks (limit : Nat) : Nat → List Bool → InfOut → Except InfErr InfOut
  | 0, _, _ => .error .trunc
  | f + 1, l, o => do
    let fin ← takeBits 1 l
    let ty ← takeBits 2 fin.2
    let n := ty.2.length
    let r ← (match ty.1 with
      | 0 => do
        let a ← takeBits 16 (ty.2.drop (n % 8))
        let b ← takeBits 16 a.2
        if a.1 + b.1 = 65535 then infStored limit a.1 b.2 o else .error .format
      | 1 => infCodes limit staticLit staticDist (n + 1) ty.2 o
      | 2 => do
        let h ← readDynamic ty.2
        infCodes limit h.1 h.2.1 (n + 1) h.2.2 o
      | _ => .error .format : Except InfErr (List Bool × InfOut))
    if fin.1 = 1 then .ok r.2 else infBlocks limit f r.1 r.2

/-- Steps 3 to 5 of R403: the output of DEFLATE data, at most `limit` bytes of it. -/
def inflate (limit : Nat) (data : List Byte) : Except InfErr (List Byte) := do
  let l := bitsOf data
  let o ← infBlocks limit (l.length + 1) l ⟨[], 0⟩
  .ok o.rev.reverse

/-! ## Compression -/

/-- A literal byte, or a match of a length and a distance. -/
inductive LzToken where
  | lit (b : Byte)
  | ref (len dist : Nat)
  deriving DecidableEq, Repr

/-- A match at a place of a block copies what stands there (RFC 1951). -/
def matchOk (bs : List Byte) (pos len dist : Nat) : Bool :=
  decide (3 ≤ len ∧ len ≤ 258 ∧ 1 ≤ dist ∧ dist ≤ min pos 32768 ∧ pos + len ≤ bs.length) &&
    (List.range len).all fun i => bs.getD (pos + i) 0 = bs.getD (pos + i - dist) 0

/-- A block from a place on as literals and matches, the match found taken at once (the greedy search of R406). -/
def lzTokens (find : Nat → Nat × Nat) (bs : List Byte) : Nat → Nat → List LzToken
  | 0, _ => []
  | n + 1, pos =>
    if bs.length ≤ pos then []
    else
      let m := find pos
      if matchOk bs pos m.1 m.2 then .ref m.1 m.2 :: lzTokens find bs n (pos + m.1)
      else .lit (bs.getD pos 0) :: lzTokens find bs n (pos + 1)

/-- `n` bits of a number, least significant first. -/
def numBits (n v : Nat) : List Bool := (List.range n).map fun i => v.testBit i

/-- `n` bits of a code, most significant first. -/
def codeBits (n v : Nat) : List Bool := (numBits n v).reverse

/-- The static code of a literal or length symbol (RFC 1951). -/
def staticBits (x : Nat) : List Bool :=
  if x < 144 then codeBits 8 (0x30 + x)
  else if x < 256 then codeBits 9 (0x190 + (x - 144))
  else if x < 280 then codeBits 7 (x - 256)
  else codeBits 8 (0xC0 + (x - 280))

/-- The last of `n` symbols whose base is not above a value. -/
def symbolFor (base : Nat → Nat × Nat) (n v : Nat) : Nat := (List.range n).foldl (fun b i => if (base i).1 ≤ v then i else b) 0

/-- A literal or match in the static code. -/
def LzToken.bits : LzToken → List Bool
  | .lit b => staticBits b.toNat
  | .ref len dist =>
    let i := symbolFor lenBase 29 len
    let j := symbolFor distBase 30 dist
    staticBits (257 + i) ++ numBits (lenBase i).2 (len - (lenBase i).1) ++ codeBits 5 j ++ numBits (distBase j).2 (dist - (distBase j).1)

/-- A block in static form (R406). -/
def staticForm (ts : List LzToken) : List Byte := packBits (numBits 3 3 ++ ts.flatMap LzToken.bits ++ staticBits 256)

/-- DEFLATE data that are one block, the last, of type `ty`, and decode to the input. -/
def formOk (ty : Nat) (bs c : List Byte) : Bool := leAt c 0 1 % 8 = 2 * ty + 1 && (match inflate bs.length c with
  | .ok o => o = bs
  | .error _ => false)

/-- A block in stored form (R406): one DEFLATE block of at most 65,535 bytes. -/
def storedForm (bs : List Byte) : List Byte := [1] ++ leBytes 2 bs.length ++ leBytes 2 (65535 - bs.length) ++ bs

end Sys2Proof.Machine
end

