-- ==== Sys2Proof/Machine/Status.lean ====
section
/-! DEFINITION. Own status and dome status of units (R41). A change of own status is in every dome at once, which lies
within the bound of R42. -/

namespace Sys2Proof.Machine

/-- The latched part of a unit's status (R41). -/
def UnitDyn.code (d : UnitDyn) : Nat := if d.void then 3 else if d.warn then 2 else 0

/-- A nozzle's own status where it is enabled: DEGRADED for WEAK, DEAD and RETIRED (R41). -/
def State.nozStatus (s : State) (i : Nat) : Nat := max (s.dyn (nozH i)).code (if (s.noz i).state = 0 then 0 else 1)

/-- Own status of a unit (R41); a port not READY is OFFLINE (R171). -/
def State.ownStatus (s : State) (h : Nat) : Nat :=
  if !s.enabled h then 7
  else
    let l := (s.dyn h).code
    match kindOf h with
    | some .nozzle => s.nozStatus (h - 0x20000)
    | some .port =>
      let q := s.port (h - 0x10000)
      max l (if q.st ≠ .ready then 6 else if q.hot || q.bankFault then 4 else b2n (s.fl.hrr.testBit (h - 0x10000)))
    | some .root => max l (if s.fl.safe then 5 else if s.mode = .hold then 4 else b2n s.csr)
    | some .chip =>
      let c := AMap.get chipDefault s.ut.chips (h - 0x11000)
      if c.online then c.own else 6
    | _ => l

/-- The nozzles of a row whose own status may differ from OK, those the tables list. -/
def State.rowNozzles (s : State) (p r : Nat) : List Nat :=
  let ks : List Nat := s.nh.recs.map (·.1) ++ ((s.ut.dyn.map (·.1)).filter (0x20000 ≤ ·)).map (· - 0x20000)
  ks.filter fun i => i / 2048 = p && i % 2 = r

/-- Dome status of a row (R41). -/
def State.rowDome (s : State) (p r : Nat) : Nat :=
  let h := rowH p r
  if !s.enabled h then 7
  else
    (s.rowNozzles p r).foldl (fun m i => if s.enabled (nozH i) then max m (s.nozStatus i) else m) (s.ownStatus h)

/-- Dome status of a port (R41). -/
def State.portDome (s : State) (p : Nat) : Nat :=
  let h := portH p
  if !s.enabled h then 7
  else
    [s.rowDome p 0, s.rowDome p 1].foldl (fun m d => if d = 7 then m else max m d) (s.ownStatus h)

/-- Dome status of a unit, `fuel` levels of groups below it (R41). -/
def State.domeOf (s : State) : Nat → Nat → Nat
  | fuel, h =>
    match kindOf h with
    | some .nozzle => s.ownStatus h
    | some .row => s.rowDome ((h - 0x10100) / 2) (h % 2)
    | some .port => s.portDome (h - 0x10000)
    | some .chip =>
      let c := AMap.get chipDefault s.ut.chips (h - 0x11000)
      if !s.enabled h then 7 else if c.online then c.dome else 6
    | _ =>
      match fuel with
      | 0 => 7
      | f + 1 =>
        if !s.enabled h then 7
        else
          let ds := (s.si.children h).map (s.domeOf f)
          if !ds.isEmpty && ds.all (· = 7) then 7
          else ds.foldl (fun m d => if d = 7 then m else max m d) (s.ownStatus h)

/-- Dome status of a unit: TREE_DEPTH is at most 255 (R34). -/
def State.dome (s : State) (h : Nat) : Nat := s.domeOf 260 h

/-- A CHIP unit's counters are those of its child's ROOT (R45, R52). -/
def State.counters (s : State) (h : Nat) : Nat × Nat × Nat :=
  match kindOf h with
  | some .chip =>
    let c := AMap.get chipDefault s.ut.chips (h - 0x11000)
    (c.cntEvent, c.cntVoid, c.cntCmd)
  | some .row => ((s.dyn h).cntEvent, 0, (s.dyn h).cntCmd)
  | some .nozzle => ((s.dyn h).cntEvent, 0, (s.dyn h).cntCmd)
  | _ => ((s.dyn h).cntEvent, (s.dyn h).cntVoid, (s.dyn h).cntCmd)

end Sys2Proof.Machine
end

