-- ==== Sys2Proof/Machine/Blocks.lean ====
section
/-! DEFINITION. The block layer of the lanes (14): 66-bit blocks and their scrambler (R320), the blocks of a group striped over its
lanes and the block types (R321), and block lock (R322). -/

namespace Sys2Proof.Machine

/-! ## Lanes and groups -/

/-- A group. -/
def State.grp (s : State) (g : Nat) : LinkGroup := s.hl.groups.getD g LinkGroup.reset

/-- A group replaced. -/
def State.setGrp (s : State) (g : Nat) (x : LinkGroup) : State := { s with hl := { s.hl with groups := s.hl.groups.set g x } }

/-- A lane. -/
def State.lane (s : State) (k : Nat) : LaneState := s.hl.lanes.getD k LaneState.reset

/-- A lane replaced. -/
def State.setLane (s : State) (k : Nat) (x : LaneState) : State := { s with hl := { s.hl with lanes := s.hl.lanes.set k x } }

/-! ## The scrambler -/

/-- The next state of a scrambler of 58 bits, the bit sent last in bit 0. -/
def scrPush (st : Nat) (b : Bool) : Nat := (2 * st + b2n b) % 2 ^ 58

/-- What x^58 + x^39 + 1 adds to a bit (R320). -/
def scrTap (st : Nat) : Bool := xor (st.testBit 38) (st.testBit 57)

/-- `n` bits of a payload scrambled from bit `i` on: the bits sent and the state after them. -/
def scrambleBits : Nat → Nat → Nat → Nat → Nat × Nat
  | 0, _, st, _ => (0, st)
  | n + 1, i, st, d =>
    let b := xor (d.testBit i) (scrTap st)
    let r := scrambleBits n (i + 1) (scrPush st b) d
    (r.1 + b2n b * 2 ^ i, r.2)

/-- `n` received bits descrambled from bit `i` on. -/
def descrambleBits : Nat → Nat → Nat → Nat → Nat × Nat
  | 0, _, st, _ => (0, st)
  | n + 1, i, st, d =>
    let r := descrambleBits n (i + 1) (scrPush st (d.testBit i)) d
    (r.1 + b2n (xor (d.testBit i) (scrTap st)) * 2 ^ i, r.2)

/-- A payload scrambled and descrambled: byte 0 first, each byte least significant bit first (R320). -/
def scramble (st d : Nat) : Nat × Nat := scrambleBits 64 0 st d
def descramble (st d : Nat) : Nat × Nat := descrambleBits 64 0 st d

/-! ## Blocks -/

/-- Sync headers (R320): the first bit sent is the left one of the rule. -/
def dataHeader : Fin 4 := 1
def controlHeader : Fin 4 := 2

/-- The sync header is valid (R320). -/
def headerValid (b : Block) : Bool := b.hdr = dataHeader || b.hdr = controlHeader

/-- The types of control blocks (R321). -/
def knownType (t : Nat) : Bool := [0x1E, 0x2D, 0x4B, 0x66, 0x69, 0x78, 0x93, 0x9C, 0xA5].contains t || (decide (0xE0 ≤ t) && decide (t ≤ 0xE7))

/-- Data blocks of bytes, eight to a block. -/
def dataBlocks : Nat → List Byte → List (Fin 4 × List Byte)
  | 0, _ => []
  | n + 1, bs => (dataHeader, bs.take 8) :: dataBlocks n (bs.drop 8)

/-- The blocks of a packet (R321): START with 7 bytes, data blocks, END with the rest. -/
def packetBlocks (bs : List Byte) : List (Fin 4 × List Byte) :=
  let rest := bs.drop 7
  let n := rest.length / 8
  let last := rest.drop (8 * n)
  [(controlHeader, [0x78#8] ++ bs.take 7)] ++ dataBlocks n rest ++
    [(controlHeader, leBytes 1 (0xE0 + last.length) ++ last ++ List.replicate (7 - last.length) 0)]

/-- Control blocks of bytes, eight to a block. -/
def controlBlocks (bs : List Byte) : List (Fin 4 × List Byte) := (dataBlocks (bs.length / 8) bs).map fun b => (controlHeader, b.2)

/-- A block put on a lane (R320): scrambled, behind those the lane has sent in this command. -/
def LaneState.put (l : LaneState) (b : Fin 4 × List Byte) : LaneState :=
  let r := scramble l.txScr (leNat b.2)
  { l with txScr := r.2, wire := l.wire ++ [⟨b.1, BitVec.ofNat 64 r.1⟩] }

/-- Blocks put on lanes `base` to `base + n - 1` in turn (R321), the first on lane `i`. -/
def State.stripe (base n : Nat) : Nat → List (Fin 4 × List Byte) → State → State
  | _, [], s => s
  | i, b :: bs, s =>
    let k := base + i % n
    State.stripe base n (i + 1) bs (s.setLane k ((s.lane k).put b))

/-- The lanes begin what they send anew (their output of the command before is over). -/
def State.wiresClear (s : State) (base n : Nat) : State :=
  (List.range n).foldl (fun s i => s.setLane (base + i) { s.lane (base + i) with wire := [] }) s

/-! ## Block lock -/

/-- A sync header received on a lane (R320, R322): lock after 64 valid in a row, lost on 16 invalid within any 64. The second part
tells whether lock is lost. -/
def State.syncHeader (s : State) (k : Nat) (ok : Bool) : State × Bool :=
  let s := if ok then s else s.bump (Reg.HL_Lk_ERR k) F.HL_Lk_ERR_SYNC_ERR
  let l := s.lane k
  let run := if ok then min 64 (l.run + 1) else 0
  if !l.blockLock then (s.setLane k { l with cdr := true, run := run, hist := [], blockLock := decide (run = 64) }, false)
  else
    let h := l.hist ++ [ok]
    let h := h.drop (h.length - 64)
    let lost := decide (16 ≤ (h.filter fun b => !b).length)
    (s.setLane k { l with run := if lost then 0 else run, hist := if lost then [] else h, blockLock := !lost }, lost)

/-- The payload of a block received on a lane, descrambled (R320). -/
def State.blockPayload (s : State) (k : Nat) (b : Block) : Nat × State :=
  let r := descramble (s.lane k).rxScr b.pay.toNat
  (r.1, s.setLane k { s.lane k with rxScr := r.2 })

/-- A block received on a lane outside the places of markers (R320 to R322): its payload where it is a control block of a known type;
another type counts in SYNC_ERR. The last part tells whether block lock is lost. -/
def State.laneBlock (s : State) (k : Nat) (b : Block) : Option (List Byte) × State × Bool :=
  let h := s.syncHeader k (headerValid b)
  let p := h.1.blockPayload k b
  if b.hdr = controlHeader then
    if knownType (p.1 % 256) then (some (leBytes 8 p.1), p.2, h.2)
    else (none, p.2.bump (Reg.HL_Lk_ERR k) F.HL_Lk_ERR_SYNC_ERR, h.2)
  else (none, p.2, h.2)

/-- Blocks received on a lane that the link makes no other use of; whether block lock was lost. -/
def State.laneBlocks (s : State) (k : Nat) (bs : List Block) : State × Bool :=
  bs.foldl (fun (a : State × Bool) b => let r := a.1.laneBlock k b; (r.2.1, a.2 || r.2.2)) (s, false)

end Sys2Proof.Machine
end

