-- ==== Sys2Proof/Machine/Link.lean ====
section
/-! DEFINITION. The links (14) below the register transport: lanes and groups (R318, R322, R323), bring-up and retrain (R325,
R326), packets (R327, R328), replay and credits (R329 to R331), latency (R345), routing (R336), enumeration (R337, R338) and
the packets the controller sends of itself: EVT (R340), AUD (R341), DMA_WR and register requests. -/

namespace Sys2Proof.Machine

/-! ## Lanes and groups -/

/-- Lanes of a width code (HL_CFG). -/
def lanesOf (code : Nat) : Nat := [0, 1, 2, 4].getD code 0

/-- The code of a number of lanes. -/
def widthCode (n : Nat) : Nat := if n = 0 then 0 else if n = 1 then 1 else if n = 2 then 2 else 3

/-- The width HL_CFG gives a group (R318). -/
def State.setLanes (s : State) (g : Nat) : Nat :=
  lanesOf (s.fld Reg.HL_CFG (match g with
    | 0 => F.HL_CFG_UP_W
    | 1 => F.HL_CFG_DOWN0_W
    | _ => F.HL_CFG_DOWN1_W))

/-- The first lane HL_CFG gives a group (R318). -/
def State.setBase (s : State) (g : Nat) : Nat := match g with
  | 0 => 0
  | 1 => 4
  | _ => 4 + s.setLanes 1

/-- The configured width of a group and its first lane, as it took them when it last passed through DETECT (R318). -/
def State.cfgLanes (s : State) (g : Nat) : Nat := (s.grp g).width
def State.laneBase (s : State) (g : Nat) : Nat := (s.grp g).base

/-- The group a lane belongs to, 3 for none (R318). -/
def State.groupOf (s : State) (k : Nat) : Nat :=
  ([0, 1, 2].find? fun g => decide (s.laneBase g ≤ k) && decide (k < s.laneBase g + s.cfgLanes g)).getD 3

/-- LOCKED of a group (HL_Gg_STAT). -/
def State.lockedMask (s : State) (g : Nat) : Nat :=
  (List.range (s.cfgLanes g)).foldl (fun m i => if (s.lane (s.laneBase g + i)).blockLock then m + 2 ^ i else m) 0

/-- Blocks a group sends (R321): striped over the lanes in force. -/
def State.sendBlocks (s : State) (g : Nat) (bs : List (Fin 4 × List Byte)) : State :=
  let x := s.grp g
  if x.lanes = 0 then s
  else
    let base := s.laneBase g
    let s := s.setGrp g { x with stream := x.stream + bs.length }
    State.stripe base x.lanes x.stream bs (s.wiresClear base x.lanes)

/-- Control blocks sent on a group, kept as what it last sent. -/
def State.sendBlock (s : State) (g : Nat) (bs : List Byte) : State :=
  (s.setGrp g { s.grp g with block := bs }).sendBlocks g (controlBlocks bs)

/-- The speed codes a group may run at (R319), as SPEED_CAP of its TRAIN blocks. -/
def State.ownCap (s : State) (g : Nat) : Nat :=
  let cap := if g = 0 then s.fld Reg.HL_CFG F.HL_CFG_UP_MAX else max 2 (s.fld Reg.HL_CFG F.HL_CFG_DOWN_MAX)
  ([0, 1, 2, 3].filter fun c => decide (c ≤ cap) && (g = 0 || decide (2 ≤ c))).foldl (fun m c => m + 2 ^ c) 0

/-- The TRAIN block of lane `i` of a group with a STATE (R321). -/
def State.trainBytes (s : State) (g i st : Nat) : List Byte :=
  let b5 := i + 4 * (if st = 3 then (s.grp g).speed else 0)
  [0x2D#8] ++ leBytes 1 st ++ leBytes 1 (s.ownCap g) ++ leBytes 1 (if g = 0 then 1 else 2) ++ leBytes 1 (s.lockedMask g) ++
    leBytes 1 b5 ++ leBytes 1 (255 - b5) ++ [0]

/-- STATE of the TRAIN blocks a group sends in a step (R325). -/
def GroupPhase.trainState : GroupPhase → Option Nat
  | .disabled => none
  | .detect => some 0
  | .train => some 1
  | .negotiate => some 2
  | .stepUp => some 3
  | .deskew => none
  | .active => none

/-- TRAIN with a STATE sent on every lane of a group (R325). -/
def State.sendTrainAs (s : State) (g st : Nat) : State :=
  let base := s.laneBase g
  let n := s.cfgLanes g
  (List.range n).foldl (fun s i => s.setLane (base + i) ((s.lane (base + i)).put (controlHeader, s.trainBytes g i st)))
    (s.wiresClear base n)

/-- TRAIN of the step a group is in. -/
def State.sendTrain (s : State) (g : Nat) : State := match (s.grp g).st.trainState with
  | none => s
  | some st => s.sendTrainAs g st

/-- Summit and valid flags, index (HL_INDEX). -/
def State.isSummit (s : State) : Bool := s.isSet Reg.HL_INDEX F.HL_INDEX_SUMMIT
def State.indexValid (s : State) : Bool := s.isSet Reg.HL_INDEX F.HL_INDEX_VALID
def State.index (s : State) : Nat := s.fld Reg.HL_INDEX F.HL_INDEX_INDEX

/-- The controller made the summit (R336). -/
def State.becomeSummit (s : State) : State :=
  (((s.setFld Reg.HL_INDEX F.HL_INDEX_VALID 1).setFld Reg.HL_INDEX F.HL_INDEX_SUMMIT 1).setFld Reg.HL_INDEX F.HL_INDEX_INDEX 0).setFld
    Reg.HL_INDEX F.HL_INDEX_DEPTH 0

/-- The route register of a DOWN group. -/
def routeReg (g : Nat) : Nat := if g = 1 then Reg.HL_ROUTE0 else Reg.HL_ROUTE1

/-- LINK_DOWN of a group (R325, R326). -/
def State.linkDown (s : State) (g : Nat) : State :=
  ((s.flag Reg.HL_STAT F.HL_STAT_LINK_DOWN).bump (Reg.HL_Gg_LINK g) F.HL_Gg_LINK_DOWN).raise Ev.LINK_DOWN

/-- Step 1 (R318, R325, R338): the group starts afresh with the width and lanes that HL_CFG gives it; its range becomes invalid, or this controller loses its index. A group
that leaves a later step for it resets its domain (R457). -/
def State.toDetect (s : State) (g : Nat) : State :=
  let n := s.setLanes g
  let s := if (s.grp g).st = .disabled || (s.grp g).st = .detect then s else s.xingReset 0x0C
  let s := (List.range 4).foldl (fun s i =>
    let k := (if g = 0 then 0 else 4) + i
    if s.groupOf k = g then s.setLane k { LaneState.reset with rxScr := (s.lane k).rxScr, txScr := (s.lane k).txScr } else s) s
  let s := (s.setGrp g { LinkGroup.reset with st := if n = 0 then .disabled else .detect, base := s.setBase g, width := n }).sendTrain g
  if g = 0 then
    if n = 0 then s.becomeSummit
    else if s.isSummit then s else s.setFld Reg.HL_INDEX F.HL_INDEX_VALID 0
  else s.setFld (routeReg g) F.HL_ROUTE0_VALID 0

/-- A retrain (R326): step 2 at the agreed speed and width, the domain of the lanes reset (R457). -/
def State.startRetrain (s : State) (g : Nat) : State :=
  let x := s.grp g
  if x.st ≠ .active then s
  else
    let s := s.setGrp g { x with st := .train, steps := 0, retrain := true, done := false, resends := 0, echoSent := [],
                                 echoRt := [], measured := false }
    let s := (List.range x.lanes).foldl (fun s i =>
      let k := s.laneBase g + i
      s.setLane k { s.lane k with amLock := false, amGood := 0, amBad := 0 }) s
    let s := (s.xingReset 0x0C).bump (Reg.HL_Gg_LINK g) F.HL_Gg_LINK_RETRAIN
    (s.flag Reg.HL_STAT F.HL_STAT_LINK_RETRAIN).raise Ev.LINK_RETRAIN

/-- A write of HL_CTRL.RETRAIN (R326). -/
def State.retrainGroups (s : State) (w : Word) : State :=
  forEach [0, 1, 2] (fun s g => if (F.HL_CTRL_RETRAIN.get w).testBit g then s.startRetrain g else s) s

/-- LOS or LOL of a lane (R322, R326). -/
def State.laneLost (s : State) (k : Nat) (f : BitField) : State :=
  let s := (s.flag (Reg.HL_Lk_STAT k) f).setLane k { s.lane k with cdr := false, blockLock := false, amLock := false, amGood := 0, run := 0, hist := [] }
  let g := s.groupOf k
  if g < 3 && k < s.laneBase g + (s.grp g).lanes then s.startRetrain g else s

/-- Agreed speeds (R319, R325): codes both ends may run at. -/
def State.speedCodes (s : State) (g : Nat) : List Nat :=
  let x := s.grp g
  let cap := if g = 0 then s.fld Reg.HL_CFG F.HL_CFG_UP_MAX else max 2 (s.fld Reg.HL_CFG F.HL_CFG_DOWN_MAX)
  [3, 2, 1, 0].filter fun c => decide (c ≤ cap) && x.cap.testBit c && (decide (2 ≤ c) || (g = 0 && x.partner = 1))

/-- LINK_SLOW (R325). -/
def State.linkSlow (s : State) : State := (s.flag Reg.HL_STAT F.HL_STAT_LINK_NARROW).raise Ev.LINK_SLOW

/-- The end of step 3 (R325): speed and width agreed. -/
def State.agree (s : State) (g : Nat) : State :=
  let x := s.grp g
  let both := s.lockedMask g &&& x.theirs
  let w? := [4, 2, 1].find? fun n => decide (n ≤ s.cfgLanes g) && (List.range n).all fun i => both.testBit i
  match s.speedCodes g, w? with
  | c :: _, some w =>
    let s := s.setGrp g { x with lanes := w, speed := c, steps := 0, st := if c = 0 then .deskew else .stepUp }
    if w < s.cfgLanes g then (s.flag Reg.HL_STAT F.HL_STAT_LINK_NARROW).raise Ev.LINK_NARROW else s
  | _, _ => (if g = 0 then s else s.linkSlow).toDetect g

/-- The 24 bytes of the header (R327). -/
def Pkt.header (p : Pkt) : List Byte :=
  leBytes 1 p.ty ++ leBytes 1 p.flags ++ leBytes 2 p.len ++ leBytes 2 p.seq ++ leBytes 1 p.dest ++ leBytes 1 p.src ++
  leBytes 2 p.tag ++ leBytes 2 p.status ++ leBytes 4 0 ++ leBytes 8 p.addr

/-- A packet on the wire (R327). -/
def Pkt.bytes (p : Pkt) : List Byte :=
  let b := p.header ++ p.payload ++ (match p.auth with
    | some a => leBytes 8 a.1 ++ a.2
    | none => [])
  b ++ leBytes 4 (crc32 b)

/-- Packets resent from the oldest unacknowledged one (R330). -/
def State.resend (s : State) (g : Nat) : State :=
  let x := s.grp g
  ((s.setGrp g { x with sent := x.replay }).sendBlocks g (x.replay.flatMap fun p => packetBlocks p.bytes)).bump (Reg.HL_Gg_PKT g)
    F.HL_Gg_PKT_REPLAY x.replay.length

/-- Step 6 (R325, R326, R336): the group is ACTIVE; replay resumes. -/
def State.goActive (s : State) (g : Nat) : State :=
  let x := s.grp g
  let s := s.setGrp g { x with st := .active, retrain := false, steps := 0 }
  let s :=
    if x.retrain || g ≠ 0 then s
    else if x.partner = 1 then s.becomeSummit
    else (s.setFld Reg.HL_INDEX F.HL_INDEX_SUMMIT 0).setFld Reg.HL_INDEX F.HL_INDEX_VALID 0
  if x.replay.isEmpty then s else s.resend g

/-- Step 5 (R323, R325, R345): complete when every lane is in AM lock within 16 blocks of skew and the latency is measured, which the
group tells with DONE, and at both ends once the partner has sent DONE. -/
def State.deskewCheck (s : State) (g : Nat) : State :=
  let x := s.grp g
  if x.st = .deskew && x.measured &&
      (List.range x.lanes).all (fun i => (s.lane (s.laneBase g + i)).amLock && decide ((s.lane (s.laneBase g + i)).skew ≤ 16)) then
    let s := s.sendTrainAs g 4
    if x.done then s.goActive g else s
  else s

/-- A TRAIN block read on a lane of a group (R321): STATE, SPEED_CAP, NODE and LOCKED. -/
def readTrain (i : Nat) (b : List Byte) : Option (Nat × Nat × Nat × Nat) :=
  let v (j : Nat) : Nat := leAt b j 1
  if v 0 = 0x2D && v 1 ≤ 4 && v 3 ≤ 2 && v 5 % 4 = i && v 5 + v 6 = 255 then some (v 1, v 2 % 16, v 3, v 4 % 16) else none

/-- What a TRAIN block does to the bring-up of a group (R325): its lane, STATE, SPEED_CAP, NODE and LOCKED. A partner of no valid pairing
raises LINK_DOWN once in each attempt of DETECT. -/
def State.trainStep (s : State) (g i st cap node theirs : Nat) : State :=
  let x := s.grp g
  match x.st with
  | .disabled => s
  | .detect =>
    if i ≠ 0 then s
    else if (g = 0 && (node = 0 || node = 2)) || (g ≠ 0 && node = 1) then
      s.setGrp g { x with st := .train, partner := if node = 0 then 1 else 2, cap := cap, steps := 0 }
    else if x.steps = 0 then (s.setGrp g { x with steps := 1 }).linkDown g
    else s
  | .train =>
    let s := s.setGrp g { x with theirs := theirs, cap := cap }
    let both := s.lockedMask g &&& theirs
    if x.retrain then
      if (List.range x.lanes).all fun j => both.testBit j then s.setGrp g { s.grp g with st := .deskew } else s
    else if (List.range (s.cfgLanes g)).all (fun j => both.testBit j) || (st = 2 && both.testBit 0) then
      s.setGrp g { s.grp g with st := .negotiate, steps := 0 }
    else s
  | .negotiate =>
    if st ≠ 2 then s
    else
      let s := s.setGrp g { x with theirs := theirs, cap := cap, steps := x.steps + 1 }
      if 16 ≤ x.steps + 1 then s.agree g else s
  | .stepUp =>
    let s := if st = 3 then s.setGrp g { x with steps := x.steps + 1 } else s
    let x := s.grp g
    if 16 ≤ x.steps && (List.range x.lanes).all (fun j => (s.lane (s.laneBase g + j)).blockLock) then
      s.setGrp g { x with st := .deskew, steps := 0 }
    else s
  | .deskew => if st = 4 then (s.setGrp g { x with done := true }).deskewCheck g else s
  | .active => if st = 1 then s.startRetrain g else s

/-- TRAIN_BLOCK (R320 to R322, R325): the blocks received on a lane of a group, the last the TRAIN block; without clock recovery nothing
is received. The group answers with TRAIN blocks of its own step. -/
def State.trainBlock (s : State) (g i : Nat) (before : List Block) (b : Block) (cdr : Bool) : State :=
  let k := s.laneBase g + i
  if s.cfgLanes g ≤ i then s
  else if !cdr then s.setLane k { s.lane k with cdr := false, run := 0 }
  else
    let r := s.laneBlocks k before
    let q := r.1.laneBlock k b
    let s := q.2.1
    let s := if (r.2 || q.2.2) && (s.grp g).st = .active then s.laneLost k F.HL_Lk_STAT_LOL else s
    match q.1.bind (readTrain i) with
    | some (st, cap, node, theirs) =>
      let t := s.trainStep g i st cap node theirs
      if (t.grp g).st = .deskew || (t.grp g).st = .active then t else t.sendTrain g
    | none => s

/-- A bring-up step past its bound (R325). -/
def State.bringupTimeout (s : State) (g : Nat) : State :=
  let x := s.grp g
  if x.retrain then s
  else
    match x.st with
    | .detect => s.toDetect g
    | .train =>
      if (s.lockedMask g &&& x.theirs).testBit 0 then s.setGrp g { x with st := .negotiate, steps := 0 } else s.toDetect g
    | .negotiate => s.toDetect g
    | .stepUp =>
      match (s.speedCodes g).find? (decide <| · < x.speed) with
      | some c => s.setGrp g { x with speed := c, steps := 0, st := if c = 0 then .deskew else .stepUp }
      | none => (if g = 0 then s else s.linkSlow).toDetect g
    | .deskew =>
      if (List.range x.lanes).any fun i => decide (16 < (s.lane (s.laneBase g + i)).skew) then s else s.toDetect g
    | .disabled => s
    | .active => s

/-- A retrain not ACTIVE within 10 ms (R326). -/
def State.retrainTimeout (s : State) (g : Nat) : State :=
  if (s.grp g).retrain then (s.linkDown g).toDetect g else s

/-- The block is the alignment marker a lane expects (R321, R323). A DOWN group hears the UP group of its partner; an UP group hears a
DOWN group, or a host. -/
def State.isMarker (s : State) (k : Nat) (b : Block) : Bool :=
  let p := leBytes 8 b.pay.toNat
  let v (j : Nat) : Nat := leAt p j 1
  let g := s.groupOf k
  let i := k - s.laneBase g
  let from' := if g ≠ 0 then decide (v 3 = 0) else if (s.grp 0).partner = 2 then v 3 = 1 || v 3 = 2 else decide (v 3 ≤ 2)
  b.hdr = controlHeader && v 0 = 0x4B && v 1 = i && v 2 = 255 - i && from' && v 4 = (s.grp g).speed && v 5 = 0xB4 && v 6 = 0x4B && v 7 = 0xB4

/-- An alignment marker in its place, or a missing or wrong one (R323). -/
def State.marker (s : State) (k : Nat) (good : Bool) (skew : Nat) : State :=
  let l := s.lane k
  let g := s.groupOf k
  if good then
    let s := s.setLane k { l with amGood := min 2 (l.amGood + 1), amBad := 0, skew := min 31 skew,
                                  amLock := l.amLock || decide (2 ≤ l.amGood + 1) }
    if g < 3 then s.deskewCheck g else s
  else
    let s := s.bump (Reg.HL_Lk_ERR k) F.HL_Lk_ERR_AM_ERR
    let lost := l.amLock && decide (4 ≤ l.amBad + 1)
    let s := s.setLane k { l with amGood := 0, amBad := min 4 (l.amBad + 1), amLock := l.amLock && !lost }
    if lost && g < 3 && (s.grp g).st = .active then s.laneLost k F.HL_Lk_STAT_LOL else s

/-- AM_BLOCK (R320 to R323): the blocks received on a lane since the place of the last marker, the last of them in the place of this
one, which is not scrambled; none there is a marker missed. -/
def State.amBlock (s : State) (k : Nat) (blocks : List Block) (skew : Nat) : State :=
  let r := s.laneBlocks k blocks.dropLast
  let q := match blocks.getLast? with
    | some b => r.1.syncHeader k (headerValid b)
    | none => (r.1, false)
  let good := match blocks.getLast? with
    | some b => s.isMarker k b
    | none => false
  let s := q.1
  let g := s.groupOf k
  if (r.2 || q.2) && g < 3 && (s.grp g).st = .active then s.laneLost k F.HL_Lk_STAT_LOL else s.marker k good skew

/-! ## Packets -/

/-- Class of a packet type (R328). -/
def pktClass (ty : Nat) : Nat := match ty with
  | 5 => 0
  | 6 => 1
  | 3 => 2
  | 7 => 2
  | _ => 3

/-- A packet whose CRC-32 is good (R327). -/
def pktCrcOk (bs : List Byte) : Bool :=
  decide (28 ≤ bs.length) && crc32 (bs.take (bs.length - 4)) = leAt bs (bs.length - 4) 4

/-- The packet in a byte string, where its header keeps the table of R327. -/
def parsePkt (bs : List Byte) (since : Nat) : Option Pkt :=
  let ty := leAt bs 0 1
  let fl := leAt bs 1 1
  let len := leAt bs 2 2
  let pl := if ty = 2 then 0 else len
  let au := if fl.testBit 0 then 24 else 0
  let ok := 1 ≤ ty && ty ≤ 7 && fl < 8 && len ≤ 1024 && len % 4 = 0 && bs.length = 24 + pl + au + 4 && leAt bs 4 2 < 4096 &&
    (!fl.testBit 2 || leAt bs 4 2 = 0) && leAt bs 0x0C 4 = 0 && (ty = 3 || leAt bs 0x0A 2 = 0) &&
    (ty = 1 || ty = 2 || ty = 4 || leAt bs 0x10 8 = 0) && (ty ≠ 5 || (len = 48 && fl.testBit 2)) &&
    (ty ≠ 6 || (len = 40 && fl.testBit 1))
  if ok then
    some { ty := ty, flags := fl, seq := leAt bs 4 2, dest := leAt bs 6 1, src := leAt bs 7 1, tag := leAt bs 8 2,
           status := leAt bs 0x0A 2, addr := leAt bs 0x10 8, len := len, payload := slice bs 24 pl,
           auth := if au = 0 then none else some (leAt bs (24 + pl) 8, slice bs (24 + pl + 8) 16), fwd := true, since := since }
  else none

/-- HOST of FLAGS. -/
def Pkt.host (p : Pkt) : Bool := p.flags.testBit 1

/-- A packet of this controller's own. -/
def State.newPkt (s : State) (ty flags dest tag status addr len : Nat) (payload : List Byte) : Pkt :=
  { ty := ty, flags := flags, seq := 0, dest := dest, src := s.index, tag := tag, status := status, addr := addr, len := len,
    payload := payload, auth := none, fwd := false, since := s.now }

/-- A packet left waiting at a group; a group without a partner discards it (log entry 24). -/
def State.sendOn (s : State) (g : Nat) (p : Pkt) : State :=
  let x := s.grp g
  if x.st = .disabled || x.st = .detect then s else s.setGrp g { x with waitq := x.waitq ++ [p] }

/-- Where a packet goes (R336). -/
inductive Route where
  | here | group (g : Nat) | refused
  deriving DecidableEq, Repr

/-- A destination index in the route range of a DOWN group (HL_ROUTE0, HL_ROUTE1). -/
def State.inRoute (s : State) (g d : Nat) : Bool :=
  s.isSet (routeReg g) F.HL_ROUTE0_VALID && decide (s.fld (routeReg g) F.HL_ROUTE0_LO ≤ d) &&
  decide (d ≤ s.fld (routeReg g) F.HL_ROUTE0_HI)

/-- Routing (R336). -/
def State.routeOf (s : State) (p : Pkt) (fromUp : Bool) : Route :=
  if p.host && !fromUp then .group 0
  else if !s.indexValid then .refused
  else if p.dest = s.index then .here
  else if s.inRoute 1 p.dest then .group 1
  else if s.inRoute 2 p.dest then .group 2
  else if s.isSummit then .refused
  else .group 0

/-- A controller reachable over the rope, other than this one (R46, R55). -/
def State.reachable (s : State) (c : Nat) : Bool :=
  s.indexValid && (s.inRoute 1 c || s.inRoute 2 c || (!s.isSummit && c ≠ s.index))

/-- A packet refused on its way (R336): NOROUTE. -/
def State.noRoute (s : State) : State := (s.flag Reg.HL_STAT F.HL_STAT_NOROUTE).raise Ev.NOROUTE

/-- A packet of this controller's own put on its way. -/
def State.emit (s : State) (p : Pkt) : State := match s.routeOf p false with
  | .group g => s.sendOn g p
  | .here => s
  | .refused => s.noRoute

/-- The source of a packet: a sender's index, or 256 for the host. -/
def Pkt.source (p : Pkt) : Nat := if p.host then 256 else p.src

/-- The RD_CPL of a request, with DMA_FAULT where a DMA_WR of its source was refused since the one before (R333). -/
def State.completion (s : State) (p : Pkt) (status : Nat) (data : List Byte) : Pkt :=
  s.newPkt 3 (p.flags &&& 2) p.src p.tag (status + b2n (s.hl.fault.contains p.source) * 32768) 0 data.length data

/-- DMA_FAULT of a source told (R333). -/
def State.faultTold (s : State) (p : Pkt) : State := { s with hl := { s.hl with fault := s.hl.fault.filter (· ≠ p.source) } }

/-- The RD_CPL of a request put on its way (R333). -/
def State.reply (s : State) (p : Pkt) (status : Nat) (data : List Byte) : State :=
  (s.faultTold p).emit (s.completion p status data)

/-- A packet received on a group that cannot be routed (R336): a request is answered on that group. -/
def State.refusePkt (s : State) (g : Nat) (p : Pkt) : State :=
  if p.ty = 1 || p.ty = 2 then (s.faultTold p).sendOn g (s.completion p 3 []) else s.noRoute

/-- Bytes replaced in a byte string. -/
def putBytes (bs : List Byte) (i : Nat) (v : List Byte) : List Byte := bs.take i ++ v ++ bs.drop (i + v.length)

/-- ROOT's own and dome status and counters as an EVT carries them (R340). -/
def State.rootReport (s : State) : List Byte :=
  let c := s.counters 0
  leBytes 1 (s.ownStatus 0) ++ leBytes 1 (s.dome 0) ++ leBytes 2 0 ++ leBytes 4 c.1 ++ leBytes 4 c.2.1 ++ leBytes 4 c.2.2

/-- A packet as it starts transmission: status and counters of an EVT (R340), AGE of a POS (R342). -/
def State.fillPkt (s : State) (p : Pkt) : Pkt :=
  if p.ty = 6 && !p.fwd then { p with payload := putBytes p.payload 20 s.rootReport }
  else if p.ty = 5 then
    { p with payload := putBytes p.payload 12 (leBytes 4 (min 0xFFFFFFFF (leAt p.payload 12 4 + (s.now - p.since)))) }
  else p

/-- Credits a packet takes, in units of 64 bytes (R331). -/
def Pkt.credits (p : Pkt) : Nat := (p.bytes.length + 63) / 64

/-- The packet that starts next (R331): the oldest of the lowest class whose credit covers it; own EVT before others. -/
def LinkGroup.nextPkt (x : LinkGroup) : Option Pkt :=
  let fits (p : Pkt) : Bool := decide (p.credits ≤ (if pktClass p.ty = 3 then x.creditReq else x.creditPri))
  let first (c : Nat) : Option Pkt :=
    let l := x.waitq.filter fun p => pktClass p.ty = c
    (if c = 1 then (l.find? fun p => !p.fwd).orElse fun _ => l.head? else l.head?).filter fits
  [0, 1, 2, 3].findSome? first

/-- Bytes in the replay buffer (R329). -/
def LinkGroup.held (x : LinkGroup) : Nat := x.replay.foldl (fun n p => n + p.bytes.length) 0

/-- PACKET_TRANSMIT (R329, R331). -/
def State.transmit (s : State) (g : Nat) : State :=
  let x := s.grp g
  match x.nextPkt with
  | none => s
  | some p =>
    if x.st ≠ .active then s
    else
      let q := s.fillPkt p
      let noseq := q.flags.testBit 2
      let q := if noseq then q else { q with seq := x.txSeq }
      if !noseq && 65536 < x.held + q.bytes.length then s
      else
        let pri := decide (pktClass q.ty < 3)
        let n := q.credits
        let x' := { x with waitq := x.waitq.erase p, sent := [q],
                           txSeq := if noseq then x.txSeq else (x.txSeq + 1) % 4096,
                           replay := if noseq then x.replay else x.replay ++ [q],
                           creditPri := if pri then x.creditPri - n else x.creditPri,
                           creditReq := if pri then x.creditReq else x.creditReq - n }
        let s := (s.setGrp g x').sendBlocks g (packetBlocks q.bytes)
        if q.ty = 6 && !q.fwd then { s with hl := { s.hl with evtRoot := 8 * s.ownStatus 0 + s.dome 0 } } else s

/-- A received ACK block (R329, R331). -/
def State.ackBlock (s : State) (g seq creq cpri : Nat) : State :=
  let x := s.grp g
  let hit := x.replay.any fun p => p.seq = seq
  let rest := if hit then (x.replay.dropWhile fun p => p.seq ≠ seq).drop 1 else x.replay
  let s := s.setGrp g { x with replay := rest, resends := if hit then 0 else x.resends, creditReq := creq, creditPri := cpri }
  s.setFld (Reg.HL_Gg_FLOW g) F.HL_Gg_FLOW_TX_CREDIT creq

/-- A NAK or 20 µs without an ACK (R330): packets are resent; after four times a retrain. -/
def State.replayFrom (s : State) (g : Nat) : State :=
  let x := s.grp g
  if x.st ≠ .active || x.replay.isEmpty then s
  else if 4 ≤ x.resends then s.startRetrain g
  else (s.setGrp g { x with resends := x.resends + 1 }).resend g

/-- Receive buffer units for class 3 and for classes 0 to 2 (R331); a packet received is consumed at once. -/
def creditReqFree : Nat := 448
def creditPriFree : Nat := 512

/-- The ACK block for the packets accepted so far (R321, R329). -/
def LinkGroup.ackBytes (x : LinkGroup) : List Byte :=
  [0x66] ++ leBytes 2 ((x.rxSeq + 4095) % 4096) ++ leBytes 2 creditReqFree ++ leBytes 2 creditPriFree ++ [0]

/-- ACK_TIMER (R329). -/
def State.ackTimer (s : State) (g : Nat) : State :=
  let x := s.grp g
  if x.st = .active then s.sendBlock g x.ackBytes else s

/-- A NAK carrying the expected SEQ, once until that SEQ arrives (R330). -/
def State.sendNak (s : State) (g : Nat) : State :=
  let x := s.grp g
  if x.nakSent then s
  else (s.setGrp g { x with nakSent := true }).sendBlock g ([0x69] ++ leBytes 2 x.rxSeq ++ List.replicate 5 0)

/-- A received packet of a type (R327, R329, R330): the packet where it is accepted, and the state after the checks. -/
def State.receive (s : State) (g ty : Nat) (bs : List Byte) : Option Pkt × State :=
  let x := s.grp g
  let err (s : State) : State := s.bump (Reg.HL_Gg_PKT g) F.HL_Gg_PKT_CRC_ERR
  if x.st ≠ .active then (none, s)
  else if !pktCrcOk bs then
    (none, if ty = 5 then (err s).bump (Reg.HL_Gg_POSDROP g) F.HL_Gg_POSDROP_COUNT else (err s).sendNak g)
  else
    match (parsePkt bs s.now).filter fun p => p.ty = ty with
    | none => (none, err s)
    | some p =>
      if p.flags.testBit 2 then (some p, s)
      else if p.seq = x.rxSeq then
        let x' := { x with rxSeq := (x.rxSeq + 1) % 4096, nakSent := false }
        (some p, (s.setGrp g x').sendBlock g x'.ackBytes)
      else if (x.rxSeq + 4096 - p.seq) % 4096 < 2048 then (none, s)
      else (none, s.sendNak g)

/-- A received packet routed (R336): to this controller, passed on, or refused. -/
def State.routed (s : State) (g : Nat) (p : Pkt) : Option Pkt × State :=
  match s.routeOf p (g = 0) with
  | .here => (some p, s)
  | .group k => (none, s.sendOn k p)
  | .refused => (none, s.refusePkt g p)

/-! ## Packets of its own -/

/-- The summit and every group that can carry packets down. -/
def State.activeDown (s : State) : List Nat := [1, 2].filter fun g => (s.grp g).st = .active

/-- An EVT (R340); status and counters are filled in when it starts. -/
def State.sendEvt (s : State) (id cls unit : Nat) (ts : Stamp) : State :=
  let pl := leBytes 2 id ++ leBytes 1 cls ++ [0] ++ leBytes 4 unit ++ ts.bytes ++ List.replicate 20 0
  { s with hl := { s.hl with evtAt := s.now } }.emit (s.newPkt 6 2 0 0 0 0 40 pl)

/-- An EVT that reports no event: a change of ROOT status, or 1 ms without another (R340, log entry 25). -/
def State.statusEvt (s : State) : State := s.sendEvt 0 0 (s.cascade 0) s.stamp

/-- EVT_PERIODIC (R340): 1 ms after the last EVT of its own. -/
def State.evtPeriodic (s : State) : State := if 1000000 ≤ s.now - s.hl.evtAt then s.statusEvt else s

/-- ROOT's status as last reported and as it stands (R340). -/
def State.rootChanged (s : State) : Bool := decide (s.hl.evtRoot ≠ 8 * s.ownStatus 0 + s.dome 0)

/-- CHIP_EVT_TIMEOUT (R340): 5 ms after the last EVT of a CHIP unit. -/
def State.chipTimeout (s : State) (c : Nat) : State :=
  if s.now - (AMap.get chipDefault s.ut.chips c).lastEvt < 5000000 then s
  else { s with ut := { s.ut with chips := AMap.set chipDefault s.ut.chips c { AMap.get chipDefault s.ut.chips c with online := false } } }

/-- A record padded to whole words, as LEN asks (R327). -/
def padWords (bs : List Byte) : List Byte := bs ++ List.replicate ((4 - bs.length % 4) % 4) 0

/-- An AUD packet (R341): 0 CAIRN and 1 SUMMIT up to the host, 2 WITNESS_TAG to an index. -/
def State.sendAud (s : State) (sub dest : Nat) (rec : List Byte) : State :=
  let pl := padWords (leBytes 1 sub ++ List.replicate 7 0 ++ rec)
  s.emit (s.newPkt 7 (if sub = 2 then 0 else 2) dest 0 0 0 pl.length pl)

/-- DMA_WR packets to host memory (R334): data from an address, 1,024 bytes at a time. -/
def State.sendDma (s : State) : Nat → Nat → List Byte → State
  | 0, _, _ => s
  | f + 1, addr, bs =>
    if bs.isEmpty then s
    else
      let pl := bs.take 1024
      (s.emit (s.newPkt 4 2 0 0 0 addr pl.length pl)).sendDma f (addr + 1024) (bs.drop 1024)

/-- A register request to another controller (R45, R55), with what its RD_CPL will answer. -/
def State.sendReq (s : State) (dest ty addr len : Nat) (pl : List Byte) (win : Nat) (cmd : Bool) (step : Nat) : State :=
  let t := s.hl.nextTag
  let q : Fwd := ⟨t, win, cmd, step, dest⟩
  let s := { s with hl := { s.hl with nextTag := (t + 1) % 65536, fwd := s.hl.fwd ++ [q] } }
  s.emit (s.newPkt ty 0 dest t 0 addr len pl)

/-! ## Latency -/

/-- LATENCY_MEASURE_TIMER (R345): 8 ECHO_REQ blocks, in DESKEW and in ACTIVE. -/
def State.measure (s : State) (g : Nat) : State :=
  let x := s.grp g
  if x.st ≠ .deskew && x.st ≠ .active then s
  else
    let ts := (List.range 8).map fun i => (s.hl.token + i) % 2 ^ 32
    let s := { s with hl := { s.hl with token := (s.hl.token + 8) % 2 ^ 32 } }
    (s.setGrp g { x with echoSent := ts.map fun t => (t, s.now), echoRt := [] }).sendBlock g
      (ts.flatMap fun t => [0x93] ++ leBytes 4 t ++ [0, 0, 0])

/-- A received ECHO_REQ is answered with its turnaround (R345). -/
def State.echoReq (s : State) (g token turn : Nat) : State :=
  let x := s.grp g
  if x.st ≠ .deskew && x.st ≠ .active then s
  else s.sendBlock g ([0x9C] ++ leBytes 4 token ++ leBytes 2 turn ++ [0])

/-- A received ECHO_RSP (R345): with the eighth sample the latency is set. -/
def State.echoRsp (s : State) (g token turn : Nat) : State :=
  let x := s.grp g
  match x.echoSent.find? fun e => e.1 = token with
  | none => s
  | some e =>
    let rt := x.echoRt ++ [s.now - e.2 - turn]
    let x := { x with echoSent := x.echoSent.erase e, echoRt := rt }
    if rt.length < 8 then s.setGrp g x
    else
      let lat : Int := (rt.foldl (· + ·) 0 / 16 : Nat) + s.fldI (Reg.HL_Gg_LAT g) F.HL_Gg_LAT_ADJ
      let s := s.setFld (Reg.HL_Gg_LAT g) F.HL_Gg_LAT_LAT (clamp 0 65535 lat).toNat
      (s.setGrp g { x with echoRt := [], measured := true }).deskewCheck g

/-! ## Enumeration -/

/-- An ENUM block sent on a group (R321). -/
def State.sendEnum (s : State) (g kind value depth : Nat) : State :=
  s.sendBlock g ([0xA5] ++ leBytes 1 kind ++ leBytes 2 value ++ leBytes 1 depth ++ [0, 0, 0])

/-- ENUM_ERR and ENUM_FAIL (R337). -/
def State.enumErr (s : State) (e : Nat) : State := s.setFld Reg.HL_INDEX F.HL_INDEX_ENUM_ERR e
def State.enumFail (s : State) : State :=
  ({ s with hl := { s.hl with enum := none } }.flag Reg.HL_STAT F.HL_STAT_ENUM_FAIL).raise Ev.ENUM_FAIL

/-- Steps 3 and 4 of R337 below this controller: ranges set and BASE sent. -/
def State.enumBase (s : State) (n0 n1 : Nat) : State :=
  let i := s.index
  let d := s.fld Reg.HL_INDEX F.HL_INDEX_DEPTH
  let one (s : State) (g base n : Nat) : State :=
    if n = 0 then s.setFld (routeReg g) F.HL_ROUTE0_VALID 0
    else
      let s := ((s.setFld (routeReg g) F.HL_ROUTE0_VALID 1).setFld (routeReg g) F.HL_ROUTE0_LO base).setFld
        (routeReg g) F.HL_ROUTE0_HI (base + n - 1)
      s.sendEnum g 2 base d
  let s := s.setFld Reg.HL_INDEX F.HL_INDEX_SIZE (1 + n0 + n1)
  one (one s 1 (i + 1) n0) 2 (i + 1 + n0) n1

/-- Steps 2, 3 and 5 of R337: once every group has answered, the summit assigns or fails, another controller answers. -/
def State.enumAnswered (s : State) : State :=
  match s.hl.enum with
  | some ⟨some a, some b⟩ =>
    let total := 1 + a.1 + b.1
    let depth := max a.2 b.2
    if !s.isSummit then s.sendEnum 0 1 total (depth + 1)
    else if 256 < total then (s.enumErr 2).enumFail
    else if 16 < depth then (s.enumErr 3).enumFail
    else
      let s := { s with hl := { s.hl with enum := none } }
      (s.becomeSummit.enumBase a.1 b.1).flag Reg.HL_STAT F.HL_STAT_ENUM_DONE
  | _ => s

/-- REQ sent down and the answers awaited (steps 1 and 2 of R337). -/
def State.enumBegin (s : State) : State :=
  let wait (g : Nat) : Option (Nat × Nat) := if (s.grp g).st = .active then none else some (0, 0)
  let s' := { s with hl := { s.hl with enum := some ⟨wait 1, wait 2⟩ } }
  (s.activeDown.foldl (fun s g => s.sendEnum g 0 0 0) s').enumAnswered

/-- A write of HL_CTRL.ENUM (R337). -/
def State.enumStart (s : State) : State :=
  let training (g : Nat) : Bool := (s.grp g).st ≠ .disabled && (s.grp g).st ≠ .active
  if !s.isSummit then s.enumErr 5
  else if s.mode ≠ .idle && s.mode ≠ .service then s.enumErr 4
  else if training 1 || training 2 || s.hl.enum.isSome then s.enumErr 1
  else (s.enumErr 0).enumBegin

/-- A received ENUM block (R337). -/
def State.enumBlock (s : State) (g kind value depth : Nat) : State :=
  if (s.grp g).st ≠ .active then s
  else if kind = 0 then
    if g ≠ 0 || s.isSummit then s else (s.setFld Reg.HL_INDEX F.HL_INDEX_VALID 0).enumBegin
  else if kind = 1 then
    match s.hl.enum with
    | none => s
    | some e =>
      if g = 1 && e.size0.isNone then { s with hl := { s.hl with enum := some { e with size0 := some (value, depth) } } }.enumAnswered
      else if g = 2 && e.size1.isNone then { s with hl := { s.hl with enum := some { e with size1 := some (value, depth) } } }.enumAnswered
      else s
  else if kind = 2 && g = 0 && !s.isSummit then
    match s.hl.enum with
    | some ⟨some a, some b⟩ =>
      let s := { s with hl := { s.hl with enum := none } }
      let s := (s.setFld Reg.HL_INDEX F.HL_INDEX_INDEX value).setFld Reg.HL_INDEX F.HL_INDEX_DEPTH (depth + 1)
      (s.setFld Reg.HL_INDEX F.HL_INDEX_VALID 1).enumBase a.1 b.1
    | _ => s
  else s

/-- ENUM_TIMEOUT (R337): a group has not answered SIZE within 1 ms. -/
def State.enumTimeout (s : State) (g : Nat) : State :=
  match s.hl.enum with
  | none => s
  | some e =>
    if (g = 1 && e.size0.isNone) || (g = 2 && e.size1.isNone) then (s.enumErr 6).enumFail else s

/-! ## Registers -/

/-- A write of HL_CFG (R318): in BOOT and IDLE, DOWN widths of at most four lanes in all; a group without a partner takes its
width at once. -/
def State.hlCfgWrite (s : State) (w : Word) : State :=
  let sum := lanesOf (F.HL_CFG_DOWN0_W.get w) + lanesOf (F.HL_CFG_DOWN1_W.get w)
  if (s.mode ≠ .boot && s.mode ≠ .idle) || 4 < sum then s.flag Reg.HL_STAT F.HL_STAT_CFG_REFUSED
  else
    let s := s.wr Reg.HL_CFG w
    forEach [0, 1, 2] (fun s g => if (s.grp g).st = .disabled || (s.grp g).st = .detect then s.toDetect g else s) s

/-- A write of HL_Lk_FFEs (R324). -/
def State.ffeWrite (s : State) (addr : Nat) (w : Word) : State :=
  let pre := F.HL_Lk_FFEs_PRE.get w
  let main := F.HL_Lk_FFEs_MAIN.get w
  let post := F.HL_Lk_FFEs_POST.get w
  if pre + main + post ≤ 63 && pre + post + 16 ≤ main then s.wr addr w else s.flag Reg.HL_STAT F.HL_STAT_CFG_REFUSED

/-- HL_Gg_STAT.STATE. -/
def GroupPhase.code : GroupPhase → Nat
  | .disabled => 0 | .detect => 1 | .train => 2 | .negotiate => 3 | .stepUp => 4 | .deskew => 5 | .active => 6

/-- Registers of HL that follow from the groups and lanes. -/
def State.hlView (s : State) (addr : Nat) : Option Word :=
  if addr = Reg.HL_AUTH_SEQ_LO then some (BitVec.ofNat 32 s.hl.authSeq)
  else if addr = Reg.HL_AUTH_SEQ_HI then some (BitVec.ofNat 32 s.hl.seqHi)
  else
    ([0, 1, 2].findSome? fun g =>
      let x := s.grp g
      if addr = Reg.HL_Gg_STAT g then
        some (BitVec.ofNat 32 (s.lockedMask g * 65536 + x.partner * 4096 + widthCode x.lanes * 256 + x.speed * 16 + x.st.code))
      else none).orElse fun _ =>
    (List.range 8).findSome? fun k =>
      let l := s.lane k
      if addr = Reg.HL_Lk_STAT k then
        some (BitVec.ofNat 32 (l.skew * 65536 + s.groupOf k * 64 + b2n l.amLock * 16 + b2n l.blockLock * 8 + b2n l.cdr * 4 +
          (s.rdN addr) % 4))
      else none

end Sys2Proof.Machine
end

