-- ==== Sys2Proof/Machine/Compress.lean ====
section
/-! DEFINITION. Compression engines (17): the container (R402), the four decompressors (R403 to R405), the compressor with its
descriptor chain (R406 to R409), exports of the camera ring (R251) and what happens when events meet (R410, R411). -/

namespace Sys2Proof.Machine

/-! ## Decompressors -/

/-- ERR of CZ_Dd_STAT. -/
def State.decErr (s : State) (d e : Nat) : State := s.setFld (Reg.CZ_Dd_STAT d) F.CZ_Dd_STAT_ERR e

/-- The job of a decompressor. -/
def State.dec (s : State) (d : Nat) : Option DecJob := (s.cz.dec.getD d none)

/-- The job of a decompressor replaced. -/
def State.setDec (s : State) (d : Nat) (j : Option DecJob) : State := { s with cz := { s.cz with dec := s.cz.dec.set d j } }

/-- A job ends (R403, R411): DONE with its ERR; any but ABORT and MODE raises DCMP_ERR. -/
def State.decEnd (s : State) (d e : Nat) : State :=
  let s := ((s.setDec d none).decErr d e).flag (Reg.CZ_Dd_STAT d) F.CZ_Dd_STAT_DONE
  if e = 0 || e = 9 then s else (s.flag Reg.CZ_STAT F.CZ_STAT_DCMP_ERR).raise Ev.DCMP_ERR

/-- No engine starts in BOOT and TEST (R410). -/
def State.czMode (s : State) : Bool := !(s.mode = .boot || s.mode = .test)

/-- The header of a container is good for a range of blocks (step 1 of R403). -/
def headerOk (h : List Byte) (first count : Nat) : Bool :=
  leAt h 0 4 = 0x5A43594A && leAt h 4 2 = 1 && leAt h 6 2 = 0 && leAt h 0x1C 4 = 0 && 64 ≤ leAt h 8 4 && leAt h 8 4 ≤ 65536 &&
    leAt h 8 4 % 64 = 0 && first + count ≤ leAt h 0x0C 4

/-- DCMP_START (R403 step 1, R410). -/
def State.dcmpStart (s : State) (d : Nat) : State :=
  if (s.dec d).isSome then s.decErr d 0xA
  else if !s.czMode then (s.decErr d 0xB).flag (Reg.CZ_Dd_STAT d) F.CZ_Dd_STAT_DONE
  else
    let src := s.rdN (Reg.CZ_Dd_SRC d) * 64
    let first := s.fld (Reg.CZ_Dd_FIRST d) F.CZ_Dd_FIRST_VALUE
    let count := s.fld (Reg.CZ_Dd_COUNT d) F.CZ_Dd_COUNT_VALUE
    let s := (s.decErr d 0).wrN (Reg.CZ_Dd_BLOCK d) first
    match s.readAs 3 src 32 with
    | (none, s) => s.decEnd d 8
    | (some h, s) =>
      if !headerOk h first count then s.decEnd d 1
      else if count = 0 then s.decEnd d 0
      else s.setDec d (some ⟨src, s.rdN (Reg.CZ_Dd_DST d) * 64, first, count,
        max 64 (min 65536 (s.fld (Reg.CZ_Dd_LIMIT d) F.CZ_Dd_LIMIT_OUT_LIMIT)), leAt h 8 4, leAt h 0x0C 4, leAt h 0x18 4⟩)

/-- DCMP_ABORT (R404): the block in decoding writes nothing. -/
def State.dcmpAbort (s : State) (d : Nat) : State := if (s.dec d).isSome then s.decEnd d 9 else s

/-- A write of CZ_Dd_CTRL. -/
def State.decCtrl (s : State) (d : Nat) (w : Word) : State :=
  let s := if F.CZ_Dd_CTRL_ABORT.get w = 1 then s.dcmpAbort d else s
  if F.CZ_Dd_CTRL_START.get w = 1 then s.dcmpStart d else s

/-- ERR of a decoding error. -/
def InfErr.code : InfErr → Nat
  | .expand => 3 | .trunc => 4 | .format => 5

/-- Steps 2 to 6 of R403 for the block in hand: its output, or the ERR. -/
def State.decBlock (s : State) (j : DecJob) : Except Nat (List Byte) × State :=
  match s.readAs 3 (j.src + j.indexOff + 8 * j.block) 8 with
  | (none, s) => (.error 8, s)
  | (some e, s) =>
    match s.readAs 3 (j.src + leAt e 0 4) 16 with
    | (none, s) => (.error 8, s)
    | (some h, s) =>
      let inLen := leAt h 8 4
      let out := leAt h 4 4
      if leAt h 0 4 ≠ j.block || 16 + inLen ≠ leAt e 4 4 || inLen = 0 || 131072 < inLen || out = 0 || j.blockOut < out ||
          (out ≠ j.blockOut && j.block + 1 ≠ j.blockCount) then (.error 2, s)
      else
        match s.readAs 3 (j.src + leAt e 0 4 + 16) inLen with
        | (none, s) => (.error 8, s)
        | (some data, s) =>
          match inflate (min j.limit out) data with
          | .error x => (.error x.code, s)
          | .ok bs =>
            if bs.length ≠ out then (.error 6, s)
            else if crc32 bs ≠ leAt h 0x0C 4 then (.error 7, s)
            else (.ok bs, s)

/-- A block written in transfers of 64 bytes (step 7 of R403, R404): whether all of them were made. -/
def State.decWrite (s : State) : Nat → Nat → List Byte → Bool × State
  | 0, _, _ => (true, s)
  | n + 1, addr, bs =>
    if bs.isEmpty then (true, s)
    else
      match s.writeAs 3 addr (bs.take 64) with
      | (false, s) => (false, s)
      | (true, s) => s.decWrite n (addr + 64) (bs.drop 64)

/-- DCMP_BLOCK_DONE (R403 steps 2 to 7, R404, R405). -/
def State.dcmpBlockDone (s : State) (d : Nat) : State :=
  match s.dec d with
  | none => s
  | some j =>
    match s.decBlock j with
    | (.error e, s) => s.decEnd d e
    | (.ok bs, s) =>
      match s.decWrite (bs.length / 64 + 1) (j.dst + j.block * j.blockOut) bs with
      | (false, s) => s.decEnd d 8
      | (true, s) =>
        if j.left = 1 then s.decEnd d 0
        else (s.setDec d (some { j with block := j.block + 1, left := j.left - 1 })).wrN (Reg.CZ_Dd_BLOCK d) (j.block + 1)

/-! ## The compressor -/

/-- ERR of CZ_C_STAT. -/
def State.compErr (s : State) (e : Nat) : State := s.setFld Reg.CZ_C_STAT F.CZ_C_STAT_ERR e

/-- The compressor's job begins. -/
def State.compBegin (s : State) (j : CompJob) : State :=
  let s := (((s.compErr 0).setFld Reg.CZ_C_STAT F.CZ_C_STAT_SOURCE (b2n j.isExport)).wrN Reg.CZ_C_OUT 0)
  { s with cz := { s.cz with comp := some j } }

/-- The compressor's job ends (R409, R411); an export that waits begins (R410). -/
def State.compEnd (s : State) (e : Nat) : State :=
  match s.cz.comp with
  | none => s
  | some j =>
    let s := (s.compErr e).flag Reg.CZ_C_STAT F.CZ_C_STAT_DONE
    let s := { s with cz := { s.cz with comp := none } }
    let s := if j.isExport then
        let s := (s.setFld Reg.IN_XP_STAT F.IN_XP_STAT_ERR (if e = 2 then 2 else 0)).flag Reg.IN_XP_STAT F.IN_XP_STAT_DONE
        { s with inn := { s.inn with exporting := none } }
      else s
    let s := if e = 1 || e = 2 then (s.flag Reg.CZ_STAT F.CZ_STAT_CZ_ERR).raise Ev.CZ_ERR else s
    match s.cz.waitExport with
    | some x => { s with cz := { s.cz with waitExport := none } }.compBegin x
    | none => s

/-- CZ_START (R406, R410). -/
def State.czStart (s : State) : State :=
  if s.cz.comp.isSome then s.compErr 4
  else if !s.czMode then (s.compErr 6).flag Reg.CZ_C_STAT F.CZ_C_STAT_DONE
  else s.compBegin ⟨false, s.rdN Reg.CZ_C_SRC * 64, s.rdN Reg.CZ_C_LEN, s.rdN Reg.CZ_C_DESC * 64⟩

/-- CZ_ABORT: the header is not written. -/
def State.czAbort (s : State) : State := s.compEnd 3

/-- A write of CZ_C_CTRL. -/
def State.compCtrl (s : State) (w : Word) : State :=
  let s := if F.CZ_C_CTRL_ABORT.get w = 1 then s.czAbort else s
  if F.CZ_C_CTRL_START.get w = 1 then s.czStart else s

/-- IN_EXPORT_START (R251, R410): lines of the camera ring, once the compressor is free. -/
def State.exportStart (s : State) : State :=
  let first := s.rdN Reg.IN_XP_FIRST
  let n := s.rdN Reg.IN_XP_COUNT
  let err (s : State) (e : Nat) : State := s.setFld Reg.IN_XP_STAT F.IN_XP_STAT_ERR e
  if s.inn.exporting.isSome then err s 3
  else if !s.czMode then (s.compErr 6).flag Reg.CZ_C_STAT F.CZ_C_STAT_DONE
  else if !((List.range (min n (s.rdN Reg.IN_IMG_LINES + 1))).all fun i => s.inRing (first + i)) then err s 1
  else
    let j : CompJob := ⟨true, first, n, s.rdN Reg.IN_XP_DESC * 64⟩
    let s := err { s with inn := { s.inn with exporting := some (first, first + n) } } 0
    if s.cz.comp.isSome then { s with cz := { s.cz with waitExport := some j } } else s.compBegin j

/-- The input of a job (R251, R406, R409): `none` where the fabric refuses it; for an export, the lines still in the ring and
whether one was overwritten. -/
def State.compInput (s : State) (j : CompJob) : Option (List Byte × Bool) × State :=
  if j.isExport then
    let ls := ((List.range j.len).map (j.src + ·)).takeWhile s.inRing
    (some (ls.flatMap s.exportLine, decide (ls.length < j.len)), s)
  else
    match s.readAs 9 j.src j.len with
    | (some bs, s) => (some (bs, false), s)
    | (none, s) => (none, s)

/-- Bytes of input in a container block (R406). -/
def blockIn : Nat := 65472

/-- A block's DEFLATE data (R406): the shortest of its stored, static and dynamic forms, the first of equal ones. -/
def deflateBlock (level : Nat) (bs : List Byte) : List Byte :=
  let shorter (ty : Nat) (a c : List Byte) := if c.length < a.length && formOk ty bs c then c else a
  let st := shorter 1 (storedForm bs) (staticForm (lzTokens (Config.matchAt level bs) bs bs.length 0))
  shorter 2 st (Config.dynamicForm level bs)

/-- Blocks of a container (R402) from number `b` on: `n` of them at most. -/
def containerBlocks (level : Nat) : Nat → Nat → List Byte → List (List Byte)
  | 0, _, _ => []
  | n + 1, b, bs =>
    if bs.isEmpty then []
    else
      let x := bs.take blockIn
      let d := deflateBlock level x
      (leBytes 4 b ++ leBytes 4 x.length ++ leBytes 4 d.length ++ leBytes 4 (crc32 x) ++ d) ::
        containerBlocks level n (b + 1) (bs.drop blockIn)

/-- Offsets and lengths of blocks (R402). -/
def blockIndex : Nat → List (List Byte) → List Byte
  | _, [] => []
  | off, b :: bs => leBytes 4 off ++ leBytes 4 b.length ++ blockIndex (off + b.length) bs

/-- A container (R402, R408): its header, and the stream of blocks and index. -/
def container (level : Nat) (bs : List Byte) : List Byte × List Byte :=
  let blocks := containerBlocks level (bs.length / blockIn + 1) 0 bs
  let body := blocks.flatMap id
  (leBytes 4 0x5A43594A ++ leBytes 2 1 ++ leBytes 2 0 ++ leBytes 4 blockIn ++ leBytes 4 blocks.length ++ leBytes 8 bs.length ++
     leBytes 4 (32 + body.length) ++ leBytes 4 0,
   body ++ blockIndex 32 blocks)

/-- A buffer descriptor (R407). -/
structure CzDesc where
  addr : Nat
  next : Nat
  own : Bool
  host : Bool
  buf : Nat
  size : Nat

/-- The descriptor at an address as the compressor reads it. -/
def State.czDesc (s : State) (a : Nat) : Option CzDesc × State :=
  match s.readAs 9 a 32 with
  | (none, s) => (none, s)
  | (some b, s) => (some ⟨a, leAt b 0 4 * 64, (leAt b 4 1).testBit 0, (leAt b 4 1).testBit 1, leAt b 8 8, leAt b 0x10 4⟩, s)

/-- A descriptor finished (R408): USED written, OWN cleared, LAST where the container ends there. -/
def State.czFinish (s : State) (d : CzDesc) (used : Nat) (last : Bool) : Bool × State :=
  match s.writeAs 9 (d.addr + 4) [BitVec.ofNat 8 (2 * b2n d.host + 4 * b2n last)] with
  | (false, s) => (false, s)
  | (true, s) => s.writeAs 9 (d.addr + 0x14) (leBytes 4 used)

/-- Bytes of a buffer written from an offset (R408): to DRAM, or to host memory in packets padded to 64 bytes. -/
def State.czPut (s : State) (d : CzDesc) (off : Nat) (bs : List Byte) : Bool × State :=
  if d.host then
    let pl := List.replicate (off % 64) 0 ++ bs
    let pl := pl ++ List.replicate ((64 - pl.length % 64) % 64) 0
    (true, s.sendDma (pl.length / 1024 + 1) (d.buf + off - off % 64) pl)
  else s.writeAs 9 (d.buf + off) bs

/-- How the writing of a stream ends: complete, with no room left, or refused; with the bytes of it written. -/
inductive ChainEnd where
  | full | noSpace | refused
  deriving DecidableEq, Repr

/-- The stream written to the chain from a buffer on (R408, R409), at most `fuel` buffers; the first buffer is finished by the
caller. Answers how it ended, the bytes written, and those in the first buffer with whether the stream ended there. -/
def State.czChain (first : Bool) : Nat → State → CzDesc → List Byte → ChainEnd × Nat × State
  | 0, s, _, _ => (.noSpace, 0, s)
  | f + 1, s, d, bs =>
    let off := if first then 32 else 0
    let part := bs.take (d.size - off)
    let rest := bs.drop (d.size - off)
    match s.czPut d off part with
    | (false, s) => (.refused, 0, s)
    | (true, s) =>
      if rest.isEmpty then
        if first then (.full, part.length, s)
        else match s.czFinish d part.length true with
          | (true, s) => (.full, part.length, s)
          | (false, s) => (.refused, part.length, s)
      else if d.next = 0 then (.noSpace, part.length, s)
      else
        match s.czDesc d.next with
        | (none, s) => (.refused, part.length, s)
        | (some n, s) =>
          if !n.own then (.noSpace, part.length, s)
          else
            match (if first then (true, s) else s.czFinish d part.length false) with
            | (false, s) => (.refused, part.length, s)
            | (true, s) =>
              let r := State.czChain false f s n rest
              (r.1, part.length + r.2.1, r.2.2)

/-- CZ_JOB_DONE (R406 to R409): the container of the job written to its chain. -/
def State.czJobDone (s : State) : State :=
  match s.cz.comp with
  | none => s
  | some j =>
    match s.compInput j with
    | (none, s) => s.compEnd 5
    | (some (bs, past), s) =>
      let c := container (s.fld Reg.CZ_C_CFG F.CZ_C_CFG_LEVEL) bs
      match s.czDesc j.desc with
      | (none, s) => s.compEnd 5
      | (some d, s) =>
        if !d.own then s.compEnd 1
        else
          let r := State.czChain true (c.2.length / 64 + 2) s d c.2
          let s := r.2.2.wrN Reg.CZ_C_OUT (min 0xFFFFFFFF r.2.1)
          match r.1 with
          | .noSpace => s.compEnd 1
          | .refused => s.compEnd 5
          | .full =>
            let head := if d.host then s.czPut d 0 (c.1 ++ c.2.take 32) else s.czPut d 0 c.1
            match head with
            | (false, s) => s.compEnd 5
            | (true, s) =>
              let s := s.wrN Reg.CZ_C_OUT (min 0xFFFFFFFF (32 + c.2.length))
              match s.czFinish d (min d.size (32 + c.2.length)) (decide (32 + c.2.length ≤ d.size)) with
              | (false, s) => s.compEnd 5
              | (true, s) => s.compEnd (if past then 2 else 0)

/-- Entry to TEST ends every job with ERR ABORT (R410). -/
def State.czAbortAll (s : State) : State :=
  let s := [0, 1, 2, 3].foldl (fun s d => s.dcmpAbort d) s
  (s.czAbort).czAbort

/-- Registers of CZ that follow from the engines. -/
def State.czView (s : State) (addr : Nat) : Option Word :=
  if addr = Reg.CZ_C_STAT then some (F.CZ_C_STAT_BUSY.put (s.rd addr) (b2n s.cz.comp.isSome))
  else [0, 1, 2, 3].findSome? fun d =>
    if addr = Reg.CZ_Dd_STAT d then some (F.CZ_Dd_STAT_BUSY.put (s.rd addr) (b2n (s.dec d).isSome)) else none

end Sys2Proof.Machine
end

