-- ==== Sys2Proof/Machine/Curve.lean ====
section
/-! DEFINITION. ECDSA over P-384 (FIPS 186) with SHA-384, as R68, R385, R390, R391, R396 and R414 use it. A public key is
the 96-byte string X ‖ Y, a private key a 48-byte string, a signature r ‖ s of 96 bytes. Signing takes its per-message
number from RFC 6979 (log entry 12). -/

namespace Sys2Proof.Machine.P384

/-- The field prime. -/
def p : Nat := 2 ^ 384 - 2 ^ 128 - 2 ^ 96 + 2 ^ 32 - 1

/-- The group order. -/
def n : Nat := 0xffffffffffffffffffffffffffffffffffffffffffffffffc7634d81f4372ddf581a0db248b0a77aecec196accc52973

/-- The coefficient b of the curve. -/
def b : Nat := 0xb3312fa7e23ee7e4988e056be3f82d19181d9c6efe8141120314088f5013875ac656398d8a2ed19d2a85c8edd3ec2aef

/-- The base point. -/
def gx : Nat := 0xaa87ca22be8b05378eb1c71ef320ad746e1d3b628ba79b9859f741e082542a385502f25dbf55296c3a545e3872760ab7
def gy : Nat := 0x3617de4a96262c6f5d9e98bf9292dc29f8f41dbd289a147ce9da3113b5f0b8c00a60b1ce1d7e819d7a431d7c90ea0e5f

/-- `b ^ e mod m`, `fuel` bits of the exponent. -/
def powMod (m : Nat) : Nat → Nat → Nat → Nat
  | 0, _, _ => 1
  | k + 1, base, e =>
    let t := powMod m k (base * base % m) (e / 2)
    if e % 2 = 1 then t * base % m else t

/-- The inverse modulo a prime. -/
def inv (m a : Nat) : Nat := powMod m 384 (a % m) (m - 2)

/-- A point in Jacobian coordinates; Z = 0 is the point at infinity. -/
structure Pt where
  x : Nat
  y : Nat
  z : Nat
  deriving DecidableEq, Repr

/-- Subtraction modulo the field prime. -/
def sub (a c : Nat) : Nat := (a + p - c % p) % p

/-- Doubling. -/
def dbl (q : Pt) : Pt :=
  let d := q.z * q.z % p
  let g := q.y * q.y % p
  let bt := q.x * g % p
  let al := 3 * (sub q.x d * ((q.x + d) % p)) % p
  let x3 := sub (al * al % p) (8 * bt % p)
  let z3 := sub (sub ((q.y + q.z) * (q.y + q.z) % p) g) d
  let y3 := sub (al * sub (4 * bt % p) x3 % p) (8 * (g * g % p) % p)
  ⟨x3, y3, z3⟩

/-- Addition. -/
def add (u v : Pt) : Pt :=
  if u.z = 0 then v else if v.z = 0 then u else
  let z1 := u.z * u.z % p
  let z2 := v.z * v.z % p
  let u1 := u.x * z2 % p
  let u2 := v.x * z1 % p
  let s1 := u.y * (v.z * z2 % p) % p
  let s2 := v.y * (u.z * z1 % p) % p
  if u1 = u2 then (if s1 = s2 then dbl u else ⟨1, 1, 0⟩) else
  let h := sub u2 u1
  let r := sub s2 s1
  let h2 := h * h % p
  let h3 := h * h2 % p
  let x3 := sub (sub (r * r % p) h3) (2 * (u1 * h2 % p) % p)
  ⟨x3, sub (r * sub (u1 * h2 % p) x3 % p) (s1 * h3 % p), h * (u.z * v.z % p) % p⟩

/-- Scalar multiplication, `fuel` bits. -/
def mul : Nat → Nat → Pt → Pt
  | 0, _, _ => ⟨1, 1, 0⟩
  | k + 1, e, q => let t := mul k (e / 2) (dbl q); if e % 2 = 1 then add t q else t

/-- The affine coordinates of a finite point. -/
def affine (q : Pt) : Nat × Nat :=
  let zi := inv p q.z
  let z2 := zi * zi % p
  (q.x * z2 % p, q.y * (z2 * zi % p) % p)

/-- The public key of a private key. -/
def publicKey (priv : List Byte) : List Byte :=
  let a := affine (mul 384 (beNat priv) ⟨gx, gy, 1⟩)
  beBytes 48 a.1 ++ beBytes 48 a.2

/-- A public key that names a point of the curve. -/
def onCurve (x y : Nat) : Bool := x < p && y < p && (y * y) % p = (x * x % p * x + p * 3 - 3 * x + b) % p

/-- Verification of a signature r ‖ s over a SHA-384 digest under the public key X ‖ Y. -/
def verify (pub digest sig : List Byte) : Bool :=
  let x := beNat (pub.take 48)
  let y := beNat (pub.drop 48)
  let r := beNat (sig.take 48)
  let s := beNat (sig.drop 48)
  if onCurve x y && 0 < r && r < n && 0 < s && s < n then
    let w := inv n s
    let q := add (mul 384 (beNat digest * w % n) ⟨gx, gy, 1⟩) (mul 384 (r * w % n) ⟨x, y, 1⟩)
    if q.z = 0 then false else (affine q).1 % n = r
  else false

/-- The candidates of RFC 6979, `fuel` of them at most. -/
def nonceLoop : Nat → List Byte → List Byte → Nat
  | 0, _, v => beNat v % (n - 1) + 1
  | f + 1, k, v =>
    let v' := hmac384 k v
    let c := beNat v'
    if 0 < c && c < n then c
    else
      let k' := hmac384 k (v' ++ [0#8])
      nonceLoop f k' (hmac384 k' v')

/-- The per-message number of RFC 6979. -/
def nonce (priv digest : List Byte) : Nat :=
  let h := beBytes 48 (beNat digest % n)
  let k0 := List.replicate 48 0#8
  let v0 := List.replicate 48 1#8
  let k1 := hmac384 k0 (v0 ++ [0#8] ++ priv ++ h)
  let v1 := hmac384 k1 v0
  let k2 := hmac384 k1 (v1 ++ [1#8] ++ priv ++ h)
  nonceLoop 4 k2 (hmac384 k2 v1)

/-- A signature r ‖ s over a SHA-384 digest. -/
def sign (priv digest : List Byte) : List Byte :=
  let k := nonce priv digest
  let r := (affine (mul 384 k ⟨gx, gy, 1⟩)).1 % n
  let s := inv n k * ((beNat digest + r * beNat priv) % n) % n
  beBytes 48 r ++ beBytes 48 s

end Sys2Proof.Machine.P384
end

