-- ==== Sys2Proof/Machine/Settings.lean ====
section
/-! DEFINITION. Settings sets in flash (18): their header and records (R430), the choice of a set (R431), READ and COMMIT (R431,
R432), and the key store's rewrite in both copies (R392, R432). -/

namespace Sys2Proof.Machine

/-- A settings set: SVER, GEN and its records (R430). -/
structure SetImage where
  sver : Nat
  gen : Nat
  records : List (Nat × List Byte)
  deriving DecidableEq, Repr

/-- The records of a byte string as (TYPE, bytes with header and padding); nothing where they do not fill it. -/
def setRecords : Nat → List Byte → Option (List (Nat × List Byte))
  | 0, _ => none
  | f + 1, b =>
    if b.isEmpty then some []
    else
      let n := 8 + (leAt b 4 4 + 7) / 8 * 8
      if b.length < 8 || b.length < n then none
      else (setRecords f (b.drop n)).map fun r => (leAt b 0 2, b.take n) :: r

/-- The set a copy holds, where its header and CRC are valid (R430, R431). -/
def parseSet (b : List Byte) : Option SetImage :=
  let n := leAt b 16 4
  if leAt b 0 4 ≠ 0x5453594A || leAt b 4 2 ≠ 1 || n < 32 || b.length < n then none
  else
    let x := b.take n
    if crc32 (x.take 28 ++ [0, 0, 0, 0] ++ x.drop 32) ≠ leAt b 28 4 then none
    else (setRecords n (x.drop 32)).map fun r => ⟨leAt b 6 2, leAt b 8 8, r⟩

/-- A set written out (R430). -/
def SetImage.bytes (x : SetImage) : List Byte :=
  let body := x.records.flatMap (·.2)
  let hd := leBytes 4 0x5453594A ++ leBytes 2 1 ++ leBytes 2 x.sver ++ leBytes 8 x.gen ++ leBytes 4 (32 + body.length) ++
    List.replicate 8 0
  hd ++ leBytes 4 (crc32 (hd ++ [0, 0, 0, 0] ++ body)) ++ body

/-- Firmware records of a set: all but the key store. -/
def SetImage.firmware (x : SetImage) : List (Nat × List Byte) := x.records.filter fun r => r.1 ≠ 1

/-- Offset and size of a region of the directory (R413), (0, 0) before it has been read. -/
def State.region (s : State) (i : Nat) : Nat × Nat := s.bu.regions.getD i (0, 0)

/-- The set in copy `c`: 0 SETTINGS_A, 1 SETTINGS_B. -/
def State.setIn (s : State) (c : Nat) : Option SetImage :=
  let r := s.region (3 + c)
  let n := leNat (s.flashRead (r.1 + 16) 4)
  if r.2 < n then none else parseSet (s.flashRead r.1 (max 32 n))

/-- The highest GEN of a valid set, 0 without one. -/
def State.topGen (s : State) : Nat := max (((s.setIn 0).map (·.gen)).getD 0) (((s.setIn 1).map (·.gen)).getD 0)

/-- The copy with the lower or invalid GEN (R432). -/
def State.lowCopy (s : State) : Nat := match s.setIn 0, s.setIn 1 with
  | none, _ => 0
  | _, none => 1
  | some a, some b => if a.gen ≤ b.gen then 0 else 1

/-- The record that carries the key store: TYPE 1, its data the store encrypted under the key of this generation. The spec does not
give the bytes (log entry 34). -/
def keyRecord (free zgen : Nat) : List Byte :=
  let d := Config.keyStore free zgen
  leBytes 2 1 ++ leBytes 2 0 ++ leBytes 4 d.length ++ d ++ List.replicate ((8 - d.length % 8) % 8) 0

/-- A set with the key store in force written to a copy: erased and programmed (R432). Whether it fits. -/
def State.writeSet (s : State) (c sver : Nat) (fw : List (Nat × List Byte)) : Bool × State :=
  let r := s.region (3 + c)
  let b := (SetImage.mk sver (s.topGen + 1) ((1, keyRecord s.free s.au.zgen) :: fw)).bytes
  if r.2 < b.length then (false, s)
  else (true, ({ s with free := s.free + 1 }.flashErase r.1 r.2).flashProgram r.1 b)

/-- A copy rewritten with a changed key store (R432): its own firmware records and SVER, or where it holds no valid set those of
the other copy. -/
def State.rewriteSet (s : State) (c : Nat) : State :=
  match s.setIn c <|> s.setIn (1 - c) with
  | some x => (s.writeSet c x.sver x.firmware).2
  | none => (s.writeSet c (s.rdN Reg.BU_SET_VER) []).2

/-- The key store in flash follows the slots (R392): written to both copies, the lower GEN first (R432). -/
def State.keySave (s : State) : State :=
  let c := s.lowCopy
  ({ s with au := { s.au with store := (s.au.slots, s.au.zgen) } }.rewriteSet c).rewriteSet (1 - c)

/-! ## Selection, READ and COMMIT -/

/-- The copy selected at BOOT for a SETTINGS_VER (R431): the highest GEN with SVER at or below it. -/
def State.setChoice (s : State) (ver : Nat) : Option (Nat × SetImage) :=
  let ok (c : Nat) : Option (Nat × SetImage) := ((s.setIn c).filter fun x => decide (x.sver ≤ ver)).map fun x => (c, x)
  match ok 0, ok 1 with
  | some a, some b => if a.2.gen < b.2.gen then some b else some a
  | some a, none => some a
  | none, b => b

/-- Step 7 of R418 for a bundle with this SETTINGS_VER: the set selected and BU_SET_STAT (R431). -/
def State.selectSet (s : State) (ver : Nat) : State :=
  let s := s.wrN Reg.BU_SET_VER ver
  match s.setChoice ver with
  | some (c, x) =>
    let s := (s.setFld Reg.BU_SET_STAT F.BU_SET_STAT_SVER x.sver).setFld Reg.BU_SET_STAT F.BU_SET_STAT_COPY c
    let s := (s.setFld Reg.BU_SET_STAT F.BU_SET_STAT_MIGRATE (b2n (decide (x.sver < ver)))).setFld Reg.BU_SET_STAT F.BU_SET_STAT_NONE 0
    { s with bu := { s.bu with setCopy := some c } }
  | none => { s.setFld Reg.BU_SET_STAT F.BU_SET_STAT_NONE 1 with bu := { s.bu with setCopy := none } }

/-- The end of READ or COMMIT with its error (BU_SET_STAT). -/
def State.setEnd (s : State) (e : Nat) : State :=
  (s.setFld Reg.BU_SET_STAT F.BU_SET_STAT_ERR e).flag Reg.BU_SET_STAT F.BU_SET_STAT_DONE

/-- SETTINGS_READ (R431). -/
def State.settingsRead (s : State) : State :=
  let b := match s.bu.setCopy.bind s.setIn with
    | some x => x.firmware.flatMap (·.2)
    | none => []
  let w := if b.isEmpty then (true, s) else s.writeAs 8 (s.rdN Reg.BU_SET_ADDR * 64) b
  (w.2.wrN Reg.BU_SET_LEN b.length).setEnd 0

/-- SETTINGS_COMMIT (R432). In FIRST_START the target is the copy that does not hold the set selected at BOOT. -/
def State.settingsCommit (s : State) : State :=
  let n := s.rdN Reg.BU_SET_LEN
  match s.readAs 8 (s.rdN Reg.BU_SET_ADDR * 64) n with
  | (none, s) => s.setEnd 4
  | (some b, s) =>
    match setRecords (n + 1) b with
    | none => s.setEnd 4
    | some rs =>
      if rs.any fun r => r.1 < 0x100 || 0xFFFE < r.1 then s.setEnd 4
      else
        let c := match s.bu.log.phase, s.bu.setCopy with
          | 3, some c => 1 - c
          | _, _ => s.lowCopy
        let w := s.writeSet c (s.rdN Reg.BU_SET_VER) rs
        w.2.setEnd (if w.1 then 0 else 1)

end Sys2Proof.Machine
end

