-- ==== Sys2Proof/Machine/TimeNet.lean ====
section
/-! DEFINITION. Time and network (15): the timebase and its servo (R359, R362, R365), two domains (R366, R367), time over the
rope (R368), captures (R369, R370), the Ethernet ports and frame rings (R352 to R356), PRP (R357, R358) and Ethernet
timestamps (R363). Offsets count 1/16,000 ns, in which 1/128 ns is 125 and a slew step of SLEW / 1,000 ns is 16 SLEW. -/

namespace Sys2Proof.Machine

/-! ## Timebase -/

/-- ADDEND in force. -/
def State.addend (s : State) : Int := toSigned 32 (s.rdN Reg.TN_ADDEND)

/-- One TBCLK cycle (R359, R362): the timebase advances, or takes the value of a SET, which is not made once PRINT is entered. -/
def State.tbCycle (s : State) : State :=
  let s := if s.mode = .print then { s with tn := { s.tn with load := none } } else s
  match s.tn.load with
  | some v => { s with tn := { s.tn with sec := v.1, ns := v.2, frac := 0, load := none } }
  | none =>
    let f : Int := (s.tn.ns : Int) * 2 ^ 32 + s.tn.frac + 4 * 2 ^ 32 + s.addend
    let lim : Int := 1000000000 * 2 ^ 32
    let carry := decide (lim ≤ f)
    let f := if carry then f - lim else f
    { s with tn := { s.tn with sec := if carry then (s.tn.sec + 1) % 2 ^ 64 else s.tn.sec,
                               ns := (f / 2 ^ 32).toNat, frac := (f % 2 ^ 32).toNat } }

/-- SET (R362): refused in PRINT, and for a TN_SET_NS at or above 10^9; in force from the next TBCLK cycle. -/
def State.setTime (s : State) : State :=
  let ns := s.rdN Reg.TN_SET_NS
  if s.mode = .print || 1000000000 ≤ ns then s.flag Reg.TN_STAT F.TN_STAT_CFG_REFUSED
  else { s with tn := { s.tn with load := some (s.rdN Reg.TN_SET_SEC_LO + s.rdN Reg.TN_SET_SEC_HI * 2 ^ 32, ns) } }

/-- A write of TN_ADDEND0: in force at once while the servo is idle (R359). -/
def State.addend0Write (s : State) (w : Word) : State :=
  let s := s.wr Reg.TN_ADDEND0 w
  if s.tn.ran then s else s.wr Reg.TN_ADDEND w

/-- The timebase moved back by an offset (R365). -/
def State.stepTime (s : State) (x : Int) : State :=
  let t : Int := ((s.tn.sec : Int) * 1000000000 + s.tn.ns) * 2 ^ 32 + s.tn.frac - x * 2 ^ 32 / 16000
  let t := if t < 0 then 0 else t
  let u : Int := 1000000000 * 2 ^ 32
  { s with tn := { s.tn with sec := (t / u).toNat % 2 ^ 64, ns := (t % u / 2 ^ 32).toNat, frac := (t % 2 ^ 32).toNat } }

/-- Rounding to the nearest whole number, a half upwards. -/
def roundI (n d : Int) : Int := (2 * n + d) / (2 * d)

/-- A step is allowed (R365). -/
def State.stepAllowed (s : State) : Bool := s.mode ≠ .print && s.isSet Reg.TN_SERVO_CFG F.TN_SERVO_CFG_STEP_EN

/-- MAX_PPB, 1 to 500,000. -/
def State.maxPpb (s : State) : Nat := max 1 (min 500000 (s.fld Reg.TN_SERVO_CFG F.TN_SERVO_CFG_MAX_PPB))

/-- One servo update with an offset of the steering domain (R365). -/
def State.servo (s : State) (o : Int) : State :=
  let x := o - s.tn.bias
  let s := { s with tn := { s.tn with xPrev := x, ran := true } }
  if s.stepAllowed && decide ((s.rdN Reg.TN_STEP_T : Int) * 16000 < x.natAbs) then
    (s.stepTime x).flag Reg.TN_STAT F.TN_STAT_TIME_STEP |>.relayRaise Ev.TIME_STEP 0 tbPeriod
  else
    let m : Int := s.maxPpb * 4096000
    let integ := clamp (-m) m (s.tn.integ + s.fld Reg.TN_SERVO_GAIN F.TN_SERVO_GAIN_KI * x)
    let f0 := s.fld Reg.TN_SERVO_GAIN F.TN_SERVO_GAIN_KP * x + integ
    let f := clamp (-m) m f0
    let add := toSigned 32 (s.rdN Reg.TN_ADDEND0) - roundI (f * 2 ^ 34) (4096000 * 1000000000)
    let s := { s with tn := { s.tn with integ := integ } }.wrN Reg.TN_ADDEND (ofSigned 32 add)
    if f ≠ f0 then (s.flag Reg.TN_STAT F.TN_STAT_SERVO_LIMIT).raise Ev.SERVO_LIMIT else s

/-! ## Domains -/

/-- A change of steering domain (R367): BIAS and DOM. `keep` tells whether the last input still stands (not after holdover). -/
def State.steerTo (s : State) (dom : Nat) (o : Int) (keep : Bool) : State :=
  let x := if keep then s.tn.xPrev else 0
  { s with tn := { s.tn with dom := dom, xPrev := x, bias := if s.stepAllowed then 0 else o - x } }

/-- The steering domain after a change of health (R366). -/
def State.steer (s : State) : State :=
  let a := s.tn.domA.healthy
  let b := s.tn.domB.healthy
  let switch (s : State) : State := (s.flag Reg.TN_STAT F.TN_STAT_SWITCH).raise Ev.DOMAIN_SWITCH
  if !a && !b then
    if s.tn.dom = 2 then s
    else
      let s := { s with tn := { s.tn with dom := 2 } }
      (s.flag Reg.TN_STAT F.TN_STAT_HOLDOVER).raise Ev.TIME_HOLDOVER
  else
    match s.tn.dom with
    | 0 => if a then s else switch (s.steerTo 1 s.tn.domB.ofs true)
    | 1 => if b then s else switch (s.steerTo 0 s.tn.domA.ofs true)
    | _ => if a then s.steerTo 0 s.tn.domA.ofs false else s.steerTo 1 s.tn.domB.ofs false

/-- A domain after an offset write (R366). -/
def TimeDom.write (d : TimeDom) (o : Int) (qual : Bool) (now : Nat) : TimeDom :=
  { ofs := o, healthy := qual, last := now, since := if qual && !d.healthy then now else d.since }

/-- A domain. -/
def State.timeDom (s : State) (b : Bool) : TimeDom := if b then s.tn.domB else s.tn.domA

/-- A domain replaced. -/
def State.setDom (s : State) (b : Bool) (d : TimeDom) : State :=
  { s with tn := if b then { s.tn with domB := d } else { s.tn with domA := d } }

/-- OFFSET_WRITE (R365, R366): the offset is recorded; that of the steering domain with QUAL = 1 runs the servo. -/
def State.offsetWrite (s : State) (b : Bool) (w : Word) : State :=
  let s := s.wr (if b then Reg.TN_OFS_B else Reg.TN_OFS_A) w
  if s.isSet Reg.TN_CFG F.TN_CFG_TSRC then s
  else
    let o : Int := toSigned 31 (F.TN_OFS_A_OFS.get w) * 125
    let q := decide (F.TN_OFS_A_QUAL.get w = 1)
    let s := (s.setDom b ((s.timeDom b).write o q s.now)).steer
    if q && s.tn.dom = b2n b then s.servo o else s

/-- HEALTH_TMO has gone by since the last offset write of a domain (R366). -/
def State.healthOver (s : State) (b : Bool) : Bool :=
  decide (s.fld Reg.TN_DOMAIN_CFG F.TN_DOMAIN_CFG_HEALTH_TMO * 1000000 ≤ s.now - (s.timeDom b).last)

/-- Domain A has been healthy for REVERT_HOLD (R366). -/
def State.revertOver (s : State) : Bool := decide (s.si.limits.revertHold * 1000000 ≤ s.now - s.tn.domA.since)

/-- DOMAIN_HEALTH_TIMEOUT (R366). -/
def State.healthTimeout (s : State) (b : Bool) : State :=
  if (s.timeDom b).healthy && s.healthOver b then (s.setDom b { s.timeDom b with healthy := false }).steer else s

/-- DOMAIN_REVERT (R366): A has been healthy for REVERT_HOLD while B steers. -/
def State.domainRevert (s : State) : State :=
  if s.tn.dom = 1 && s.tn.domA.healthy && s.revertOver then
    ((s.steerTo 0 s.tn.domA.ofs true).flag Reg.TN_STAT F.TN_STAT_SWITCH).relayRaise Ev.DOMAIN_REVERT 0 tbPeriod
  else s

/-- BIAS_SLEW_STEP (R367). -/
def State.biasStep (s : State) : State :=
  let d : Int := 16 * max 1 (min 10000 (s.fld Reg.TN_DOMAIN_CFG F.TN_DOMAIN_CFG_SLEW))
  let b := s.tn.bias
  { s with tn := { s.tn with bias := if b.natAbs ≤ d.natAbs then 0 else if 0 < b then b - d else b + d } }

/-- Time of a 12-byte timestamp in 2^-16 ns. -/
def stampTime (ts : List Byte) : Int :=
  ((leAt ts 0 6 : Int) * 1000000000 + (leAt ts 6 4 % 2 ^ 30 : Nat)) * 65536 + leAt ts 10 2

/-- The offset a POS gives domain A (R368), DOM copied from its timestamp. -/
def State.ropeTime (s : State) (ts : List Byte) (age lat : Nat) : State :=
  let o16 := stampTime s.stamp.bytes - (stampTime ts + (age + lat + 40) * 65536)
  let o := o16 * 16000 / 65536
  let was := s.tn.domA.healthy
  let s := s.setDom false (s.tn.domA.write o true s.now)
  let s := s.wrN Reg.TN_OFS_A (2 * ofSigned 31 (o / 125) + 1)
  let s := if was then s else s.steerTo 0 o false
  let s := s.servo o
  { s with tn := { s.tn with dom := leAt ts 6 4 / 2 ^ 30 } }

/-- Health lapses with POS_LOST (R368). -/
def State.ropeTimeLost (s : State) : State :=
  if s.isSet Reg.TN_CFG F.TN_CFG_TSRC && s.tn.domA.healthy then
    let s := s.setDom false { s.tn.domA with healthy := false }
    ({ s with tn := { s.tn with dom := 2 } }.flag Reg.TN_STAT F.TN_STAT_HOLDOVER).raise Ev.TIME_HOLDOVER
  else s

/-! ## Captures -/

/-- The tick that fires a line (R369, R370). -/
def State.tickStamp (s : State) : State :=
  let s := { s with tn := { s.tn with tickTs := s.stamp.bytes, ticks := s.tn.ticks + 1 } }
  let d := s.fld Reg.TN_CAP_CFG F.TN_CAP_CFG_TICK_DIV
  if d ≠ 0 && s.tn.ticks % d = 0 then s.capture 0x10 else s

/-- TN_CAP_READ (R370): the oldest entry popped; LOST is cleared once read. -/
def State.capRead (s : State) : Word × State :=
  let lost := s.fld Reg.TN_CAP F.TN_CAP_LOST
  let s := s.setFld Reg.TN_CAP F.TN_CAP_LOST 0
  match s.tn.cap with
  | [] => (BitVec.ofNat 32 (lost * 256), s)
  | (src, ts) :: rest =>
    let s := { s with tn := { s.tn with cap := rest } }
    let s := ((s.wrN Reg.TN_CAP_TS0 (leAt ts 0 4)).wrN Reg.TN_CAP_TS1 (leAt ts 4 4)).wrN Reg.TN_CAP_TS2 (leAt ts 8 4)
    (BitVec.ofNat 32 (2 ^ 31 + lost * 256 + src), s)

/-- TN_TXTS_READ (R363). -/
def State.txtsRead (s : State) (k : Nat) : Word × State :=
  match s.tn.txts.getD k [] with
  | [] => (0, s)
  | (tag, ts) :: rest =>
    let s := { s with tn := { s.tn with txts := s.tn.txts.set k rest } }
    let s := ((s.wrN (Reg.TN_Pk_TXTS0 k) (leAt ts 0 4)).wrN (Reg.TN_Pk_TXTS1 k) (leAt ts 4 4)).wrN (Reg.TN_Pk_TXTS2 k) (leAt ts 8 4)
    (BitVec.ofNat 32 (2 ^ 31 + tag), s)

/-- A timestamp moved by an amount in 1/16 ns, as R363 corrects it. -/
def State.stampBy (s : State) (d16 : Int) : List Byte :=
  let t := s.timeNow
  let n : Int := ((t.1 : Int) * 1000000000 + t.2) * 65536 + (s.tn.frac / 65536 : Nat) + d16 * 4096
  let n := if n < 0 then 0 else n
  let u : Int := 1000000000 * 65536
  (Stamp.mk ((n / u).toNat % 2 ^ 48) ((n % u / 65536).toNat + s.tn.dom * 2 ^ 30) (n % 65536).toNat).bytes

/-- Ingress timestamp of a port (R363), which every received frame gets without being parsed (R364). -/
def State.ingress (s : State) (k : Nat) : List Byte :=
  s.stampBy (-(16 * (s.fld (Reg.TN_Pk_LAT k) F.TN_Pk_LAT_ING : Int)) - s.fldI (Reg.TN_Pk_ASYM k) F.TN_Pk_ASYM_ASYM)

/-- Egress timestamp of a port (R363), on request (R364). -/
def State.egress (s : State) (k : Nat) : List Byte :=
  s.stampBy (16 * (s.fld (Reg.TN_Pk_LAT k) F.TN_Pk_LAT_EGR : Int) - s.fldI (Reg.TN_Pk_ASYM k) F.TN_Pk_ASYM_ASYM)

/-! ## Ports -/

/-- A port that can carry frames. -/
def State.ethUp (s : State) (k : Nat) : Bool :=
  s.isSet (Reg.TN_Pk_CFG k) F.TN_Pk_CFG_EN && s.isSet (Reg.TN_Pk_STAT k) F.TN_Pk_STAT_LINK

/-- ETH_LINK_CHANGE (R372). -/
def State.linkChange (s : State) (k : Nat) (up : Bool) : State :=
  let a := Reg.TN_Pk_STAT k
  if up then
    (s.setFld a F.TN_Pk_STAT_LINK 1).setFld a F.TN_Pk_STAT_AN_DONE (s.fld (Reg.TN_Pk_CFG k) F.TN_Pk_CFG_AN_EN)
  else
    let was := s.isSet a F.TN_Pk_STAT_LINK
    let s := (s.setFld a F.TN_Pk_STAT_LINK 0).setFld a F.TN_Pk_STAT_AN_DONE 0
    if was then ((s.flag a F.TN_Pk_STAT_LINK_LOST).flag Reg.TN_STAT F.TN_STAT_ETH_LINK).raise Ev.ETH_LINK else s

/-- The MAC address, octets 0 to 5. -/
def State.mac (s : State) : List Byte := leBytes 4 (s.rdN Reg.TN_MAC_LO) ++ leBytes 2 (s.fld Reg.TN_MAC_HI F.TN_MAC_HI_ADDR)

/-- Destination addresses a port accepts (R353). -/
def State.macAccepts (s : State) (d : List Byte) : Bool :=
  d = s.mac || d = List.replicate 6 0xFF#8 || d = [0x01, 0x1B, 0x19, 0, 0, 0] || d = [0x01, 0x80, 0xC2, 0, 0, 0x0E] ||
  d = [0x01, 0x15, 0x4E, 0, 0x01, 0] || d = [0x01, 0, 0x5E, 0, 0x01, 0x81] || d = [0x01, 0, 0x5E, 0, 0, 0x6B] ||
  d = [0x33, 0x33, 0, 0, 0x01, 0x81] || d = [0x33, 0x33, 0, 0, 0, 0x6B] || d = [0x33, 0x33, 0, 0, 0, 0x01] ||
  (d.take 3 = [0x33, 0x33, 0xFF] && d.drop 3 = s.mac.drop 3)

/-! ## PRP -/

/-- LSDU size of a frame that ends with its trailer: from after the EtherType, and after a VLAN tag, to its end (log entry 33). -/
def lsduSize (n : Nat) (vlan : Bool) : Nat := n - (if vlan then 18 else 14)

/-- A frame with a VLAN tag. -/
def hasVlan (fr : List Byte) : Bool := slice fr 12 2 = [0x81, 0x00]

/-- A frame padded to the minimum. -/
def padFrame60 (fr : List Byte) : List Byte := fr ++ List.replicate (60 - fr.length) 0

/-- The copy of a frame for port `k` with its trailer (R357). -/
def prpFrame (seq k : Nat) (fr : List Byte) : List Byte :=
  let f := padFrame60 fr
  f ++ beBytes 2 seq ++ beBytes 2 ((0xA + k) * 4096 + lsduSize (f.length + 6) (hasVlan f) % 4096) ++ [0x88, 0xFB]

/-- The trailer of a frame: SeqNr and LanId (R357, R358). -/
def prpTrailer (fr : List Byte) : Option (Nat × Nat) :=
  let n := fr.length
  let t := slice fr (n - 6) 6
  let lan := beNat (slice t 2 1) / 16
  if 20 ≤ n && slice t 4 2 = [0x88, 0xFB] && (lan = 0xA || lan = 0xB) &&
      beNat (slice t 2 2) % 4096 = lsduSize n (hasVlan fr) % 4096 then some (beNat (slice t 0 2), lan)
  else none

/-- The duplicate check of an entry (R358): `none` for a SeqNr already marked. -/
def DupEnt.check (d : DupEnt) (seq now : Nat) : Option DupEnt :=
  let up := (seq + 65536 - d.high) % 65536
  if up = 0 then none
  else if up < 32768 then some { d with high := seq, window := (d.window * 2 ^ up + 2 ^ (up - 1)) % 2 ^ 64, last := now }
  else
    let b := 65536 - up - 1
    if 64 ≤ b then some { d with last := now }
    else if d.window.testBit b then none else some { d with window := d.window ||| 2 ^ b, last := now }

/-- The duplicate table after a frame with a trailer; `none` for a duplicate (R358). -/
def dupCheck (tab : List DupEnt) (mac seq now : Nat) : Option (List DupEnt) :=
  match tab.find? fun d => d.mac = mac with
  | some d => (d.check seq now).map fun d' => tab.map fun x => if x.mac = mac then d' else x
  | none =>
    let e : DupEnt := ⟨mac, seq, 0, now⟩
    if tab.length < 128 then some (tab ++ [e])
    else
      let old := tab.foldl (fun m d => min m d.last) now
      match tab.find? fun d => d.last = old with
      | some d => some (tab.erase d ++ [e])
      | none => some (tab ++ [e])

/-- PRP_ENTRY_EXPIRE (R358): an entry unused for 400 ms. -/
def State.dupExpire (s : State) (i : Nat) : State :=
  if (s.tn.dup[i]?).any fun d => decide (s.now - d.last < 400000000) then s
  else { s with tn := { s.tn with dup := s.tn.dup.eraseIdx i } }

/-! ## Rings -/

/-- A ring: first byte and entries. -/
def State.ring (s : State) (a : Nat) : Nat × Nat := (s.fld a F.TN_TXRING_ADDR64K * 65536, s.fld a F.TN_TXRING_COUNT)

/-- A frame without a receive entry (R355). -/
def State.rxDrop (s : State) : State := s.bump Reg.TN_PRP_CFG F.TN_PRP_CFG_RX_DROP

/-- A received frame placed in the next receive entry (R355), with its timestamp (R363). -/
def State.rxPlace (s : State) (k : Nat) (prp : Bool) (fr : List Byte) (ts : List Byte) : State :=
  let r := s.ring Reg.TN_RXRING
  if r.2 = 0 || !s.tn.rxRun then s.rxDrop
  else
    let e := r.1 + 32 * s.tn.rxPos
    match s.readAs 11 e 32 with
    | (none, s) => s.rxDrop
    | (some d, s) =>
      if !(bit (leAt d 8 1) 0) then { s with tn := { s.tn with rxRun := false, ringDone := false } }.rxDrop
      else
        let w := if leAt d 4 2 < fr.length then (false, s) else s.writeAs 11 (leAt d 0 4) fr
        if !w.1 then w.2.rxDrop
        else
          let w := w.2.writeAs 11 (e + 6) (leBytes 2 fr.length ++ leBytes 1 (2 * k + 4 * b2n prp) ++ [0, 0, 0] ++ ts)
          { w.2 with tn := { w.2.tn with rxPos := (s.tn.rxPos + 1) % r.2, ringDone := true } }

/-- ETH_FRAME_RECEIVE (R353, R358): the frame without its FCS. -/
def State.frameIn (s : State) (k : Nat) (fr : List Byte) (fcsOk : Bool) : State :=
  let ts := s.ingress k
  let n := fr.length
  if !s.isSet (Reg.TN_Pk_CFG k) F.TN_Pk_CFG_EN || !fcsOk || n < 60 || 1524 < n || !s.macAccepts (fr.take 6) ||
      slice fr 12 2 = [0x88, 0x08] then s
  else
    let sup := decide (fr.take 6 = [0x01, 0x15, 0x4E, 0, 0x01, 0])
    match if sup then none else prpTrailer fr with
    | none => if 1518 < n then s else s.rxPlace k false fr ts
    | some (seq, lan) =>
      match dupCheck s.tn.dup (beNat (slice fr 6 6)) seq s.now with
      | none => s.bump (Reg.TN_Pk_PRP k) F.TN_Pk_PRP_DUP
      | some tab =>
        let s := { s with tn := { s.tn with dup := tab } }
        let s := if lan = 0xA + k then s
          else ((s.bump (Reg.TN_Pk_PRP k) F.TN_Pk_PRP_WRONG_LAN).flag Reg.TN_STAT F.TN_STAT_PRP_WRONG_LAN).relayRaise Ev.PRP_WRONG_LAN k ethPeriod
        s.rxPlace k true (fr.take (n - 6)) ts

/-- An egress timestamp kept in the 16-entry FIFO of its port (R363). -/
def State.txStamp (s : State) (k tag : Nat) : State :=
  let q := s.tn.txts.getD k []
  if q.length < 16 then { s with tn := { s.tn with txts := s.tn.txts.set k (q ++ [(tag, s.egress k)]) } }
  else (s.flag Reg.TN_STAT F.TN_STAT_TS_LOST).relayRaise Ev.TS_LOST k ethPeriod

/-- A frame sent on both ports with PRP (R357). -/
def State.sendPrp (s : State) (fr : List Byte) (tsTag : Option Nat) : State :=
  let ks := [0, 1].filter s.ethUp
  let sq := s.tn.prpSeq
  let s := { s with tn := { s.tn with prpSeq := (sq + 1) % 65536, sent := ks.map fun k => (k, prpFrame sq k fr) } }
  match tsTag with
  | some t => ks.foldl (fun s k => s.txStamp k t) s
  | none => s

/-- A frame sent once on one port without a trailer (R357). -/
def State.sendOne (s : State) (k : Nat) (fr : List Byte) (tsTag : Option Nat) : State :=
  if !s.ethUp k then { s with tn := { s.tn with sent := [] } }
  else
    let s := { s with tn := { s.tn with sent := [(k, padFrame60 fr)] } }
    match tsTag with
    | some t => s.txStamp k t
    | none => s

/-- Transmit entries the walk has reached: from where it stands up to the first whose OWN is 0, or that NET may not read (R293, R355). -/
def State.txWindow (s : State) (base count : Nat) : Nat → Nat → List (Nat × List Byte)
  | 0, _ => []
  | f + 1, i =>
    let d := if s.fabricCheck 0 11 (base + 16 * i) 16 false = none then s.fabricCipher 11 (base + 16 * i) (s.dramRead (base + 16 * i) 16)
      else List.replicate 16 0
    if s.tn.txAhead.contains i then s.txWindow base count f ((i + 1) % count)
    else if bit (leAt d 6 1) 0 then (i, d) :: s.txWindow base count f ((i + 1) % count)
    else []

/-- The walk moved past entries already sent. -/
def txAdvance (count : Nat) : Nat → Nat → List Nat → Nat × List Nat
  | 0, p, l => (p, l)
  | f + 1, p, l => if l.contains p then txAdvance count f ((p + 1) % count) (l.erase p) else (p, l)

/-- An entry of the transmit ring done: OWN cleared, ERR set where it was refused (R354, R355). -/
def State.txDone (s : State) (base count i : Nat) (d : List Byte) (err : Bool) : State :=
  let fl := leAt d 6 1 - 1
  let w := s.writeAs 11 (base + 16 * i + 6) (leBytes 1 (if err then fl ||| 16 else fl))
  let a := txAdvance count count s.tn.txPos (s.tn.txAhead ++ [i])
  { w.2 with tn := { w.2.tn with txPos := a.1, txAhead := a.2, ringDone := true } }

/-- A ring entry sent (R354, R357). -/
def State.txEntry (s : State) (base count i : Nat) (d : List Byte) : State :=
  let fl := leAt d 6 1
  let len := leAt d 4 2
  if len < 14 || 1514 < len then s.txDone base count i d true
  else
    match s.readAs 11 (leAt d 0 4) len with
    | (none, s) => s.txDone base count i d true
    | (some fr, s) =>
      let tag := if bit fl 1 then some (leAt d 8 2) else none
      let s := if bit fl 2 then s.sendOne (b2n (bit fl 3)) fr tag else s.sendPrp fr tag
      s.txDone base count i d false

/-- ETH_FRAME_TRANSMIT (R355 to R357): entries with TS_REQ, then AUD frames, then other entries. -/
def State.frameOut (s : State) : State :=
  let r := s.ring Reg.TN_TXRING
  let win := if r.2 = 0 || !s.tn.txRun then [] else s.txWindow r.1 r.2 r.2 s.tn.txPos
  let s := if s.tn.txRun && r.2 ≠ 0 && win.isEmpty then (s.readAs 11 (r.1 + 16 * s.tn.txPos) 16).2 else s
  let s := if s.tn.txRun && win.isEmpty then { s with tn := { s.tn with txRun := false, ringDone := false } } else s
  match win.find? fun e => bit (leAt e.2 6 1) 1 with
  | some e => s.txEntry r.1 r.2 e.1 e.2
  | none =>
    match s.tn.audq with
    | fr :: rest => { s with tn := { s.tn with audq := rest } }.sendPrp fr none
    | [] =>
      match win with
      | e :: _ => s.txEntry r.1 r.2 e.1 e.2
      | [] => s

/-- PRP_SUPERVISION_TIMER (R357): a supervision frame of IEC 62439-3 on both ports (log entry 33). -/
def State.supervision (s : State) : State :=
  if s.fld Reg.TN_PRP_CFG F.TN_PRP_CFG_LIFE_MS = 0 then s
  else
    let fr : List Byte := [0x01, 0x15, 0x4E, 0, 0x01, 0] ++ s.mac ++ [0x88, 0xFB] ++ beBytes 2 1 ++ beBytes 2 s.tn.supSeq ++
      [20, 6] ++ s.mac ++ [0, 0]
    { s with tn := { s.tn with supSeq := (s.tn.supSeq + 1) % 65536 } }.sendPrp fr none

/-- TX_KICK and RX_KICK (R355). -/
def State.txKick (s : State) : State := { s with tn := { s.tn with txRun := true } }
def State.rxKick (s : State) : State := { s with tn := { s.tn with rxRun := true } }

/-! ## Registers -/

/-- Registers of TN that follow from the domains. -/
def State.tnView (s : State) (addr : Nat) : Option Word :=
  if addr = Reg.TN_STAT then
    some (F.TN_STAT_DOM.put (F.TN_STAT_A_HEALTHY.put (F.TN_STAT_B_HEALTHY.put (s.rd addr) (b2n s.tn.domB.healthy))
      (b2n s.tn.domA.healthy)) s.tn.dom)
  else if addr = Reg.TN_BIAS then some (BitVec.ofNat 32 (ofSigned 32 (s.tn.bias / 125)))
  else if addr = Reg.TN_DIFF then some (BitVec.ofNat 32 (ofSigned 32 ((s.tn.domB.ofs - s.tn.domA.ofs) / 125)))
  else if addr = Reg.TN_REVERT then
    some (BitVec.ofNat 32 (if s.tn.dom = 1 && s.tn.domA.healthy then
      min s.si.limits.revertHold ((s.now - s.tn.domA.since) / 1000000) else 0))
  else none

/-- A read of TN_TIME_SEC_LO or TN_TICK_TS0 captures its companions (R359, R369). -/
def State.tnReadCapture (s : State) (addr : Nat) : State :=
  if addr = Reg.TN_TIME_SEC_LO then
    (((s.wrN Reg.TN_TIME_SEC_LO s.tn.sec).wrN Reg.TN_TIME_SEC_HI (s.tn.sec / 2 ^ 32)).wrN Reg.TN_TIME_NS s.tn.ns).wrN
      Reg.TN_TIME_FRAC s.tn.frac
  else if addr = Reg.TN_TICK_TS0 then
    let t := s.tn.tickTs
    ((s.wrN Reg.TN_TICK_TS0 (leAt t 0 4)).wrN Reg.TN_TICK_TS1 (leAt t 4 4)).wrN Reg.TN_TICK_TS2 (leAt t 8 4)
  else s

end Sys2Proof.Machine
end

