-- ==== Sys2Proof/Machine/Audit.lean ====
section
/-! DEFINITION. Audit and security (16): composition tags and outcomes (R373, R374), tickets and cairns (R375 to R382), summits
(R383 to R385), delivery (R386 to R388), key slots (R389 to R393), zeroize and tamper (R394, R395), attestation (R396) and
witness mode (R397, R398). -/

namespace Sys2Proof.Machine

/-- An ASCII tag of a hashed or encrypted string. -/
def ascii (t : String) : List Byte := t.toList.map fun c => BitVec.ofNat 8 c.toNat

/-- The content of a key slot, if filled (R389). -/
def State.slot (s : State) (k : Nat) : Option (List Byte) := AMap.find? s.au.slots k

/-- CHIP_ID in 8 bytes. -/
def chipIdBytes : List Byte := leBytes 8 Config.chipId.toNat

/-! ## Composition tags and outcomes -/

/-- A job slot whose job has a place on the bar: it has been armed (R106). -/
def JobPhase.placed : JobPhase → Bool
  | .empty => false | .loaded => false | _ => true

/-- The job slot with the highest JOB_START at or below a bar line, of those armed. -/
def State.jobSlotAt (s : State) (l : Nat) : Option Nat :=
  let ks := [0, 1].filter fun k => (s.job k).phase.placed && decide ((s.job k).jobStart ≤ l)
  ks.foldl (fun b k => match b with
    | none => some k
    | some j => if (s.job j).jobStart < (s.job k).jobStart then some k else some j) none

/-- JOB(L) of R373; 0 where no job lies at or below the line. -/
def State.jobIdAt (s : State) (l : Nat) : Nat := match s.jobSlotAt l with
  | some k => (s.job k).jobId
  | none => 0

/-- Blocks X_1 to X_32 of a port's payload (R373). -/
def tagBlocks (vals : List Nat) : List Byte :=
  (List.range 32).flatMap fun i =>
    leBytes 16 (((vals.drop (64 * i)).take 64).reverse.foldl (fun a v => 4 * a + v) 0)

/-- G_p(L) of R373. -/
def tagPort (ka : List Byte) (job l p : Nat) (vals : List Nat) : Nat :=
  let h := beNat (aesEncrypt ka (ascii "JYHK" ++ leBytes 4 job ++ leBytes 1 p ++ List.replicate 7 0))
  ghash h 33 0 (tagBlocks vals ++ leBytes 4 l ++ leBytes 1 p ++ List.replicate 11 0)

/-- CT(L) of R373 for the payloads of the 64 ports. -/
def tagLine (ka : List Byte) (job l : Nat) (pay : Nat → List Nat) : Nat :=
  (List.range 64).foldl (fun a p => a ^^^ tagPort ka job l p (pay p))
    (beNat (aesEncrypt ka (ascii "JYLM" ++ leBytes 4 job ++ leBytes 4 l ++ List.replicate 4 0)))

/-- CT(L) under the AUDIT key. -/
def State.ctOf (s : State) (l : Nat) (pay : Nat → List Nat) : Nat :=
  tagLine ((s.slot 1).getD (List.replicate 32 0)) (s.jobIdAt l) l pay

/-- A bar line of which nothing is known. -/
def barDefault : Nat → BarLine := fun _ => ⟨none, none, 0, 0, 0, 0⟩

/-- A bar line. -/
def State.bar (s : State) (l : Nat) : BarLine := AMap.get barDefault s.au.lines l

/-- A bar line replaced. -/
def State.setBar (s : State) (l : Nat) (b : BarLine) : State :=
  { s with au := { s.au with lines := AMap.set barDefault s.au.lines l b } }

/-- The outcome code of a port for a bar line (R374). -/
def BarLine.code (b : BarLine) (p : Nat) : Nat := bits b.out (3 * p + 2) (3 * p)

/-- First and last bar line of the span of a ticket's instance (R375). -/
def State.spanOf (s : State) (t : Ticket) : Nat × Nat :=
  (t.lo, t.hi + s.dMax)

/-- A flag of R378 set on the tickets a condition picks. -/
def State.flagTickets (s : State) (pick : Ticket → Bool) (b : Nat) : State :=
  { s with au := { s.au with tickets := s.au.tickets.map fun t =>
      if t.verdict.isNone && pick t then { t with flags := t.flags ||| 2 ^ b } else t } }

/-- A ticket whose instance span meets a bar line, on a port that owns a column of it (R49, R375). -/
def State.spanMeets (s : State) (l p : Nat) (t : Ticket) : Bool :=
  let sp := s.spanOf t
  decide (sp.1 ≤ l) && decide (l ≤ sp.2) && s.si.meets p t.x t.w

/-- A ticket of which a port that owns a column fires an image line at a bar line (R22, R37, R49). -/
def State.lineMeets (s : State) (l p : Nat) (t : Ticket) : Bool :=
  s.si.meets p t.x t.w && [rowH p 0, rowH p 1].any fun r =>
    decide (t.first + s.lineDelay r ≤ l) && decide (l ≤ t.last + s.lineDelay r)

/-- The outcome of a port for a bar line (R374): its code, and whether it is final. LATE_BLANK and FIRED_LATE flag their
tickets by the span (R378), other causes, given as a flag, by the lines a ticket covers. CNT_VOID counts
the departures of R22 (R43), those of a bank over its limit apart (R188). Where a STATUS frame covered the LAT before the port
began the line, it is final now, and declined where that frame said so (R170). -/
def State.outcome (s : State) (l p code : Nat) (flag : Option Nat) (final : Bool) : State :=
  let b := s.bar l
  let declined := b.final.testBit p && !b.known.testBit p && b.code p = 5
  let s := s.setBar l { b with out := if declined then b.out else setBits b.out (3 * p + 2) (3 * p) code, known := b.known ||| 2 ^ p,
                               final := if final then b.final ||| 2 ^ p else b.final }
  let s := if code = 4 then s.flagTickets (s.spanMeets l p) 0 else if code = 6 then s.flagTickets (s.spanMeets l p) 1 else s
  let s := match flag with
    | some f => s.flagTickets (s.lineMeets l p) f
    | none => s
  let unfired := 2 ≤ code && code ≤ 5 || (code = 1 && (flag = some 3 || flag = some 4))
  if unfired && !declined && (code = 4 || !b.limit.testBit (p / 4)) && s.si.portValid p then s.countUp (portH p) 1 else s

/-- A port that takes part in a line leaves it unfired for a cause that has no flag in R378: a head that is not READY or not
configured. Covering tickets are VOID (R22). -/
def State.unfired (s : State) (l p : Nat) : State :=
  let s := s.outcome l p 1 none true
  let s := { s with au := { s.au with tickets := s.au.tickets.map fun t =>
    { t with unfired := t.unfired || (t.verdict.isNone && s.lineMeets l p t) } } }
  if (s.bar l).limit.testBit (p / 4) then s else s.countUp (portH p) 1

/-- A STATUS frame declines a line (R170): where the port has not begun it yet, its outcome is settled and comes with the line. -/
def State.decline (s : State) (l p : Nat) : State :=
  let b := s.bar l
  if b.known.testBit p then s.outcome l p 5 (some 9) true
  else
    let s := s.outcome l p 5 (some 9) true
    s.setBar l { s.bar l with known := b.known }

/-- The first port to begin a line of a bank the bank limit blanked (R188): covering tickets of every port of the bank are VOID,
and the line counts once on each port whose payload was replaced. -/
def State.limitCount (s : State) (l : Nat) : State :=
  forEach ((List.range 64).filter fun p => (s.bar l).limit.testBit (p / 4) && s.si.portValid p) (fun s p =>
    let s := s.flagTickets (s.lineMeets l p) 2
    if s.enabledAt l (portH p) then s.countUp (portH p) 1 else s) s

/-- An outcome FIRED or FIRED_LATE becomes final once a STATUS frame covers its LAT (R374); a line not begun yet will be final at once. -/
def State.outcomeFinal (s : State) (l p : Nat) : State :=
  let b := s.bar l
  s.setBar l { b with final := b.final ||| 2 ^ p }

/-! ## Witness records sent -/

/-- ROLE of AU_WIT_CFG; the reserved code is NONE. -/
def State.witRole (s : State) : Nat := s.fld Reg.AU_WIT_CFG F.AU_WIT_CFG_ROLE % 3

/-- A witness record sent to the partner (R397). -/
def State.sendWit (s : State) (rec : List Byte) : State := s.sendAud 2 (s.fld Reg.AU_WIT_CFG F.AU_WIT_CFG_PARTNER) rec

/-- KIND and the reserved bytes of a witness record. -/
def witKind (k : Nat) : List Byte := leBytes 4 k

/-- A BLANK record for a line left blank without composition (R397). -/
def State.sendBlank (s : State) (l : Nat) : State := if s.witRole = 1 then s.sendWit (witKind 1 ++ leBytes 4 l) else s

/-- An entry of a COMMIT record (R397). -/
def commitEntries : NhReq → List Nat
  | .noz i st pol => ((st.map fun x => nozH i + x * 2 ^ 24).toList) ++ (pol.map fun p => nozH i + p * 2 ^ 26 + 2 ^ 29).toList
  | .enable h en => [h + b2n en * 2 ^ 28 + 2 * 2 ^ 29]
  | .release _ => []
  | .parent _ => []

/-- COMMIT records for a commit position, up to 250 entries each (R397). -/
def State.sendCommits (s : State) (c : Nat) : Nat → List Nat → State
  | 0, _ => s
  | f + 1, es =>
    let now := es.take 250
    let s := s.sendWit (witKind 2 ++ leBytes 4 c ++ leBytes 2 now.length ++ [0, 0] ++ now.flatMap (leBytes 4))
    if (es.drop 250).isEmpty then s else s.sendCommits c f (es.drop 250)

/-- The start of staging on a primary (R397). -/
def State.witCommit (s : State) : State :=
  match s.nh.staging with
  | some (c, false) =>
    if s.witRole = 1 then s.sendCommits c 300 ((s.nh.queue.filter fun e => e.c = c).flatMap fun e => commitEntries e.req) else s
  | _ => s

/-- A mismatch at a line (R398). -/
def State.witMismatch (s : State) (l : Nat) : State :=
  let s := { s with au := { s.au with wit := { s.au.wit with mismatch := some l } } }.wrN Reg.AU_WIT_MISMATCH (l % 2 ^ 32)
  let hi := s.wp.hwm
  let s := s.flagTickets (fun t => let sp := s.spanOf t; decide (sp.1 ≤ hi) && decide (l ≤ sp.2)) 11
  (s.flag Reg.AU_STAT F.AU_STAT_WIT_MISMATCH).raise Ev.WITNESS_MISMATCH

/-- A STATUS record of the witness (R397). -/
def State.sendStatus (s : State) : State :=
  s.sendWit (witKind 3 ++ leBytes 4 s.au.wit.compared ++ leBytes 4 (s.au.wit.mismatch.getD 0xFFFFFFFF))

/-- The comparison of a line once the witness holds both tags (R398). -/
def State.witCompare (s : State) (l : Nat) : State :=
  match s.au.wit.recv.find? fun r => r.line = l, (s.bar l).ct with
  | some r, some ct =>
    if s.au.wit.blanks.contains l then s
    else
      let w := s.au.wit
      let s := { s with au := { s.au with wit :=
        { w with recv := w.recv.erase r, done := w.done ++ [(l, decide (r.ct = ct))], compared := max w.compared l } } }
      let s := s.wrN Reg.AU_WIT_LINE (s.au.wit.compared % 2 ^ 32)
      if r.ct = ct then s else (s.witMismatch l).sendStatus
  | _, _ => s

/-! ## The open-ticket table -/

/-- The epoch in force at a start line, recorded when the line is first composed (R209, R376), or when it is left blank without
having been composed (log entry 40). -/
def State.noteEpoch (s : State) (l : Nat) : State :=
  let ep := s.epochAt l
  { s with au := { s.au with tickets := s.au.tickets.map fun t => if t.first = l && t.epoch.isNone then { t with epoch := ep } else t } }

/-- A bar line composed for the first time (R373, R376, R397): CT, the epoch of the tickets that start with it, and the LINE
record or the comparison of the witness pair. -/
def State.auCompose (s : State) (l : Nat) (pay : Nat → List Nat) : State :=
  if (s.bar l).ct.isSome then s
  else
    let ct := s.ctOf l pay
    let s := (s.setBar l { s.bar l with ct := some ct }).noteEpoch l
    match s.witRole with
    | 1 =>
      let w := s.au.wit
      { s with au := { s.au with wit := { w with nextLo := some (w.nextLo.getD l) } } }.sendWit
        (witKind 0 ++ leBytes 4 l ++ beBytes 16 ct)
    | 2 => s.witCompare l
    | _ => s

/-- HWM has reached a line: the tickets that start at or below it take the timestamp of its tick (R369), and those it is a line
of are DISABLED while inspection is off (row 2 of R246). -/
def State.auTick (s : State) (l : Nat) (ts : List Byte) : State :=
  let off := !s.isSet Reg.IN_CTRL F.IN_CTRL_EN
  { s with au := { s.au with tickets := s.au.tickets.map fun t =>
      { t with ts := if t.ts.isNone && t.first ≤ s.wp.hwm then some ts else t.ts,
               enOff := t.enOff || (off && decide (t.first ≤ l) && decide (l ≤ t.last)) } } }

/-- AU_OPEN.MAX after an addition (R376). -/
def State.auOpenMax (s : State) : State := s.raiseTo Reg.AU_OPEN F.AU_OPEN_MAX s.au.tickets.length

/-- Tickets entered in the table, which has room for them (R376). -/
def State.addTickets (s : State) (ts : List Ticket) : State :=
  { s with au := { s.au with tickets := s.au.tickets ++ ts } }.auOpenMax

/-- Room for `n` tickets (R376). -/
def State.ticketRoom (s : State) (n : Nat) : Bool := decide (s.au.tickets.length + n ≤ 4096)

/-- Entry to HOLD in PRINT (R381): tickets at or below HWM are HALTED, the others are gone. -/
def State.haltTickets (s : State) : State :=
  let ts := (s.au.tickets.filter fun t => t.verdict.isSome || decide (t.first ≤ s.wp.hwm)).map fun t =>
    if t.verdict.isSome then t else { t with flags := t.flags ||| 2 ^ 10, halted := some s.wp.hwm }
  { s with au := { s.au with tickets := ts } }

/-! ## Cairns -/

/-- CT(L) of a line record: of zero payloads where a port left the line blank (R374). -/
def BarLine.tag (b : BarLine) : Nat :=
  (if (List.range 64).any fun p => b.code p = 4 then b.blank else b.ct.or b.blank).getD 0

/-- LREC(L) of R375. -/
def State.lineRecord (s : State) (l : Nat) : List Byte :=
  let b := s.bar l
  leBytes 4 l ++ beBytes 16 b.tag ++ leBytes 24 b.out

/-- The last bar line of the span that RD covers: up to HWM at the HOLD for a halted ticket (R375, R381). -/
def State.spanEnd (s : State) (t : Ticket) : Nat := match t.halted with
  | some h => min (s.spanOf t).2 h
  | none => (s.spanOf t).2

/-- RD(j) of R375. -/
def State.instDigest (s : State) (t : Ticket) : List Byte :=
  let lo := (s.spanOf t).1
  sha256 ((List.range (s.spanEnd t + 1 - lo)).flatMap fun i => s.lineRecord (lo + i))

/-- No pulse of a line is still to come: a gate cut can no longer change its outcome (R177). -/
def State.pulsesOver (s : State) (l : Nat) : Bool :=
  s.hp.ports.zipIdx.all fun q => (s.hp.banks.getD (q.2 / 4) BankState.reset).latLine ≠ some l || decide (q.1.waveEnd ≤ s.now)

/-- RD(j) is complete: the last line of its span is final on every port (R375). -/
def State.digestReady (s : State) (t : Ticket) : Bool :=
  let b := s.bar (s.spanEnd t)
  decide (2 ^ 64 - 1 ≤ b.final &&& b.known) && s.pulsesOver (s.spanEnd t)

/-- TT of R375. -/
def State.ticketTag (s : State) (ka : List Byte) (t : Ticket) : List Byte :=
  hmac256 ka (ascii "JYTT" ++ leBytes 4 t.jobId ++ leBytes 4 t.inst ++ leBytes 2 t.cell ++ t.serial ++ s.instDigest t)

/-- TAG of a ticket (R375, R394): none where a zeroize came before it was computed. -/
def State.tagOf (s : State) (t : Ticket) : Option (List Byte) :=
  if t.flags.testBit 18 then none
  else match t.tag, s.slot 1 with
    | some g, _ => some g
    | none, some ka => some (s.ticketTag ka t)
    | none, none => none

/-- The TAGs that can be computed as a zeroize comes are; every other open ticket is ZEROIZED (R394). -/
def State.tagTickets (s : State) : State :=
  { s with au := { s.au with tickets := s.au.tickets.map fun t =>
      match (if s.digestReady t then s.tagOf t else none) with
      | some g => { t with tag := some g }
      | none => { t with flags := t.flags ||| 2 ^ 18 } } }

/-- The 128 bytes of a cairn (R377) with a given TS. -/
def State.cairn (s : State) (t : Ticket) (ts : List Byte) : List Byte :=
  let fl := if (s.tagOf t).isNone then t.flags ||| 2 ^ 18 else t.flags
  leBytes 4 0x4E43594A ++ leBytes 2 1 ++ leBytes 1 (t.verdict.getD 0) ++ leBytes 1 s.index ++ leBytes 8 s.au.seq ++ chipIdBytes ++
  leBytes 4 t.jobId ++ leBytes 2 t.cell ++ leBytes 2 (t.epoch.getD 0) ++ t.serial ++ leBytes 4 t.first ++ ts ++ leBytes 4 fl ++
  leBytes 4 t.inst ++ leBytes 8 0 ++ (s.tagOf t).getD (List.replicate 32 0) ++ s.au.chain

/-! ## Delivery -/

/-- An audit frame to the network (R388). -/
def State.audFrame (s : State) (sub : Nat) (recs : List (List Byte)) : State :=
  let dst := leBytes 4 (s.rdN Reg.AU_NET_DST_LO) ++ leBytes 2 (s.rdN Reg.AU_NET_DST_HI)
  let fr := dst ++ s.mac ++ [0x88, 0xB5] ++ [1] ++ leBytes 1 sub ++ leBytes 1 recs.length ++ List.replicate 5 0 ++ recs.flatMap id
  { s with tn := { s.tn with audq := s.tn.audq ++ [fr] } }

/-- The cairns that wait sent in one frame (R388). -/
def State.audFlush (s : State) : State :=
  if s.au.netq.isEmpty then s
  else { s with au := { s.au with netq := s.au.netq.drop 8 } }.audFrame 0 (s.au.netq.take 8)

/-- ETH_EN and UP_EN of AU_NET_CFG. -/
def State.ethEn (s : State) : Bool := (s.rdN Reg.AU_NET_CFG).testBit 0
def State.upEn (s : State) : Bool := (s.rdN Reg.AU_NET_CFG).testBit 1

/-- A record sent on the network and up (R388). -/
def State.sendRecord (s : State) (sub : Nat) (rec : List Byte) : State :=
  let s :=
    if !s.ethEn then s
    else if sub = 0 then
      let s := { s with au := { s.au with netq := s.au.netq ++ [rec] } }
      if 8 ≤ s.au.netq.length then s.audFlush else s
    else s.audFrame 1 [rec]
  if s.upEn then s.sendAud sub 0 rec else s

/-- A record delivered (R386, R388): towards flash, the network and the host. -/
def State.deliverRec (s : State) (sub seq : Nat) (rec : List Byte) : State :=
  { s with au := { s.au with ringq := s.au.ringq ++ [(seq, rec)] } }.sendRecord sub rec

/-- AUDIT_RING in flash: offset and units of 128 bytes (R386). -/
def State.ringRegion (s : State) : Nat × Nat :=
  let r := s.bu.regions.getD 6 (0, 0)
  (r.1, r.2 / 128)

/-- A unit that may be erased: empty, or with SEQ at or below AU_RING_ACK (R386). -/
def State.unitAcked (s : State) (u : Nat) : Bool := decide (AMap.get (fun _ => 0) s.au.ringSeq u ≤ s.au.ack + 1)

/-- FILL_PCT of the ring (R387). -/
def State.ringFill (s : State) : Nat :=
  let n := (s.au.ringSeq.filter fun e => decide (s.au.ack + 1 < e.2)).length
  if s.ringRegion.2 = 0 then 0 else n * 100 / s.ringRegion.2

/-- A sector of 32 units erased for reuse. -/
def State.ringErase (s : State) (u : Nat) : State :=
  let s := s.flashErase (s.ringRegion.1 + 128 * u) 4096
  { s with au := { s.au with ringSeq := (List.range 32).foldl (fun m i => AMap.erase m (u + i)) s.au.ringSeq } }

/-- AUDIT_RING_WRITE (R386, R387): the oldest record programmed, its sector erased first where it enters one. `ok` tells
whether flash took it within its retries. -/
def State.ringWrite (s : State) (ok : Bool) : State :=
  match s.au.ringq with
  | [] => s
  | (seq, rec) :: rest =>
    let r := s.ringRegion
    if r.2 = 0 then s
    else
      let us := (List.range (if rec.length = 128 then 1 else 4)).map fun i => (s.au.ringPos + i) % r.2
      let heads := us.filter fun u => u % 32 = 0
      if !(heads.all fun u => (List.range 32).all fun i => s.unitAcked (u + i)) then
        if s.au.ringHeld then s
        else ({ s with au := { s.au with ringHeld := true } }.flag Reg.AU_STAT F.AU_STAT_RING_FULL).raise Ev.AUDIT_RING_FULL
      else if !ok then (s.flag Reg.AU_STAT F.AU_STAT_FLASH_ERR).raise Ev.AUDIT_FLASH_ERR
      else
        let before := s.ringFill
        let s := heads.foldl (fun s u => s.ringErase u) s
        let s := (us.zipIdx).foldl (fun s u => s.flashProgram (r.1 + 128 * u.1) (slice rec (128 * u.2) 128)) s
        let sq := us.foldl (fun m u => AMap.set (fun _ => 0) m u (seq + 1)) s.au.ringSeq
        let s := { s with au := { s.au with ringSeq := sq, ringPos := (s.au.ringPos + us.length) % r.2, ringq := rest,
                                            ringHeld := false } }
        let pct := s.fld Reg.AU_RING_CFG F.AU_RING_CFG_WARN_PCT
        if before < pct && pct ≤ s.ringFill then (s.flag Reg.AU_STAT F.AU_STAT_RING_WARN).raise Ev.AUDIT_RING_WARN else s

/-- AUDIT_RING_ACK_WRITE (R386): a write of HI takes effect with LO; a lower value is ignored. -/
def State.ringAck (s : State) (hi : Bool) (w : Word) : State :=
  if hi then { s with au := { s.au with ackHi := w.toNat } }
  else
    let v := s.au.ackHi * 2 ^ 32 + w.toNat
    { s with au := { s.au with ack := max s.au.ack v } }

/-- REPLAY (R388): every record in the ring from a SEQ upwards, oldest first. -/
def State.replayRing (s : State) : State :=
  let r := s.ringRegion
  let from' := s.rdN Reg.AU_REPLAY_SEQ_LO + s.rdN Reg.AU_REPLAY_SEQ_HI * 2 ^ 32
  let us := (s.au.ringSeq.map (·.1)).filter fun u => decide (from' + 1 ≤ AMap.get (fun _ => 0) s.au.ringSeq u)
  let us := (us.filter fun u => decide (s.au.ringPos ≤ u)) ++ us.filter fun u => decide (u < s.au.ringPos)
  us.foldl (fun s u =>
    let b := s.flashRead (r.1 + 128 * u) 128
    if leAt b 0 4 = 0x4E43594A then s.sendRecord 0 b
    else if leAt b 0 4 = 0x4D53594A then
      s.sendRecord 1 ((List.range 4).flatMap (fun i => s.flashRead (r.1 + 128 * ((u + i) % r.2)) 128) |>.take 464)
    else s) s

/-! ## Summits -/

/-- Bytes 0x000 to 0x10F of a summit (R383), with FLAGS, FIRST_SEQ and the lines its witness compared. -/
def State.summitBytes (s : State) (flags first lo hi : Nat) (cs : List (List Byte)) : List Byte :=
  leBytes 4 0x4D53594A ++ leBytes 2 1 ++ leBytes 2 flags ++ leBytes 8 (s.au.sumSeq + 1) ++ chipIdBytes ++
  leBytes 8 first ++ leBytes 2 cs.length ++ leBytes 1 s.mode.code ++ List.replicate 5 0 ++ s.stamp.bytes ++
  leBytes 4 lo ++ leBytes 4 hi ++ leBytes 4 0 ++ sha384 (cs.flatMap id) ++ s.au.sumPrev ++ s.bu.fwMeas ++ s.bu.m ++
  List.replicate 16 0

/-- Lines the witness has compared for this batch (R383): first and last, 0 without. -/
def State.witLines (s : State) : Nat × Nat := match s.au.wit.nextLo with
  | some lo => if lo ≤ s.au.wit.compared then (lo, s.au.wit.compared) else (0, 0)
  | none => (0, 0)

/-- FIRST_SEQ of a batch (R383): no value is stated for one without cairns (log entry 4). -/
def State.firstSeq (s : State) : Nat × State :=
  if s.au.batch.isEmpty then
    let d := s.drawFree
    (d.1 % 2 ^ 64, d.2)
  else (s.au.batchFirst, s)

/-- The close of a batch (R384); with DEVICE SIGN empty it stays open (R385). A primary asks its witness (R398). -/
def State.closeBatch (s : State) (byTime : Bool) : State :=
  if (s.slot 2).isNone || s.au.closing.isSome || s.mode = .boot || s.mode = .test then s
  else
    let cs := s.au.batch.take 64
    let (first, s) := s.firstSeq
    let prim := decide (s.witRole = 1)
    let ln := if prim then s.witLines else (0, 0)
    let b := s.summitBytes (b2n prim + 4 * b2n byTime + 8 * b2n s.au.sumFirst) first ln.1 ln.2 cs
    let w := if ln.2 = 0 then s.au.wit else { s.au.wit with nextLo := some (ln.2 + 1) }
    let s := { s with au := { s.au with
      closing := some ⟨b, cs, s.au.batchFirst + cs.length, prim, none⟩, batch := s.au.batch.drop 64,
      batchFirst := s.au.batchFirst + cs.length, closedAt := some s.now, wit := w } }
    if prim then s.sendWit (witKind 4 ++ b) else s

/-- 1 s has passed since the last batch closed, where one has (R384). -/
def State.summitDue (s : State) : Bool := match s.au.closedAt with
  | some t => decide (t + 1000000000 ≤ s.now)
  | none => true

/-- SUMMIT_TIMER (R384). -/
def State.summitTimer (s : State) : State := if s.summitDue then s.closeBatch true else s

/-- A primary's summit whose witness has not answered (R398). -/
def Summit.missing (c : Summit) : Bool := bit (leAt c.bytes 6 2) 0 && c.answer.isNone

/-- The summit up to SIG (R383, R398): WIT_ID and WIT_SIG of the answer, or WITNESS_MISSING in place of WITNESSED. -/
def Summit.body (c : Summit) : List Byte :=
  let b := if c.missing then putBytes c.bytes 6 (leBytes 2 (leAt c.bytes 6 2 + 1)) else c.bytes
  match c.answer with
  | some a => putBytes b 0x100 a.1 ++ a.2
  | none => b ++ List.replicate 96 0

/-- The 464 bytes of a summit (R385). -/
def Summit.record (c : Summit) (priv : List Byte) : List Byte := c.body ++ P384.sign priv (sha384 c.body)

/-- A summit record issued (R385). -/
def State.summitOut (s : State) (c : Summit) (r : List Byte) : State :=
  let s := { s with au := { s.au with closing := none, sumSeq := s.au.sumSeq + 1, sumPrev := sha384 r, sumFirst := false } }
  let s := (s.wrN Reg.AU_SUMMIT_SEQ s.au.sumSeq).deliverRec 1 (c.seqEnd - 1) r
  let s := if c.missing then (s.flag Reg.AU_STAT F.AU_STAT_WIT_LOST).raise Ev.WITNESS_LOST else s
  if 64 ≤ s.au.batch.length then s.closeBatch false else s

/-- SUMMIT_ISSUE (R385, R398): once the witness has answered or its wait is over. -/
def State.summitIssue (s : State) : State :=
  match s.au.closing, s.slot 2 with
  | some c, some priv => if c.waiting then s else s.summitOut c (c.record priv)
  | _, _ => s

/-- CAIRN_ISSUE (R379, R380): the first open ticket, once its verdict is known and its digest complete; on a witness it leaves
the table without a cairn (R397). -/
def State.cairnIssue (s : State) : State :=
  match s.au.tickets with
  | [] => s
  | t :: rest =>
    if t.verdict.isNone || !s.digestReady t then s
    else if s.isWitness then { s with au := { s.au with tickets := rest } }
    else
      let c := s.cairn t (t.ts.getD (List.replicate 12 0))
      let z := s.cairn t (List.replicate 12 0)
      let q := s.au.seq
      let s := { s with au := { s.au with tickets := rest, seq := q + 1, chain := (sha256 z).take 16,
                                          batch := s.au.batch ++ [c],
                                          batchFirst := if s.au.batch.isEmpty then q else s.au.batchFirst } }
      let s := s.deliverRec 0 q c
      if 64 ≤ s.au.batch.length then s.closeBatch false else s

/-! ## Keys -/

/-- The end of a key command with its error (AU_KEY_STAT). -/
def State.keyEnd (s : State) (e : Nat) : State :=
  (s.setFld Reg.AU_KEY_STAT F.AU_KEY_STAT_ERR e).flag Reg.AU_KEY_STAT F.AU_KEY_STAT_DONE

/-- A slot filled. -/
def State.fillSlot (s : State) (k : Nat) (v : List Byte) : State :=
  { s with au := { s.au with slots := AMap.set (fun _ => []) s.au.slots k v } }.keySave

/-- The command buffer of key commands. -/
def State.keyArg (s : State) : Nat := s.rdN Reg.AU_KEY_ARG * 64

/-- Bytes written to the command buffer by AU (requester AUD). -/
def State.keyOut (s : State) (bs : List Byte) : State := (s.writeAs 6 s.keyArg bs).2

/-- A private key drawn: 1 to n - 1. -/
def State.drawKey (s : State) : List Byte × State :=
  let d := s.drawRandom 48
  (beBytes 48 (leNat d.1 % (P384.n - 1) + 1), d.2)

/-- A slot that no command may name (R389). -/
def keySlotBad (k : Nat) : Bool := decide (8 ≤ k)

/-- A batch that stayed open for want of the DEVICE SIGN key closes once the slot is filled (R385). -/
def State.closeHeld (s : State) : State :=
  if 64 ≤ s.au.batch.length then s.closeBatch false
  else if s.au.closedAt.isSome && s.summitDue then s.closeBatch true
  else s

/-- GEN_DEV (R389): the DEVICE SIGN key drawn while the slot is empty. -/
def State.genDev (s : State) (k : Nat) : State :=
  if k ≠ 2 then s.keyEnd 2
  else if (s.slot 2).isSome then s.keyEnd 4
  else if 64 ≤ s.au.zgen then s.keyEnd 7
  else
    let d := s.drawKey
    ((d.2.fillSlot 2 d.1).keyEnd 0).closeHeld

/-- GEN_EPH (R390): an ephemeral pair and its signed statement. -/
def State.genEph (s : State) (k : Nat) : State :=
  if keySlotBad k then s.keyEnd 2
  else match s.slot 2 with
    | none => s.keyEnd 2
    | some priv =>
      let d := s.drawKey
      let s := d.2
      let id := (s.au.ephId + 1) % 2 ^ 32
      let s := { s with au := { s.au with ephId := id, eph := some (d.1, id, s.now) } }
      let b := leBytes 4 0x5045594A ++ leBytes 4 id ++ chipIdBytes ++ P384.publicKey d.1
      (s.keyOut (b ++ P384.sign priv (sha384 b))).keyEnd 0

/-- A job slot in a state that lets the AUDIT key change (R389). -/
def JobPhase.ended : JobPhase → Bool
  | .empty => true | .done => true | .failed => true | _ => false

/-- When a write to a secret slot is accepted (R145, R389). -/
def State.slotWritable (s : State) (k : Nat) : Bool := match k with
  | 0 => !s.js.job0.phase.held && !s.js.job1.phase.held
  | 1 => s.mode = .idle && s.js.job0.phase.ended && s.js.job1.phase.ended
  | _ => s.mode = .idle || s.mode = .service

/-- KEK of R390. -/
def kekOf (priv : List Byte) (id k : Nat) : List Byte :=
  (sha384 (beBytes 48 (Config.ecdhZ (BitVec.ofNat 384 (beNat priv)) id).toNat ++ ascii "JYKW" ++ leBytes 4 id ++ leBytes 1 k)).take 32

/-- The key a wrapped blob holds for a slot under the pair still held (R390). -/
def State.unwrapKey (s : State) (k : Nat) (b : List Byte) : Option (List Byte) :=
  match s.au.eph with
  | none => none
  | some (priv, id, _) =>
    if leAt b 0 4 = 0x574B594A && leAt b 4 1 = k && leAt b 5 3 = 0 && leAt b 8 4 = id then
      gcmOpen (kekOf priv id k) (slice b 0x0C 12) (slice b 0 12) (slice b 0x18 32) (slice b 0x38 16)
    else none

/-- UNWRAP (R390). -/
def State.unwrapCmd (s : State) (k : Nat) : State :=
  if k ≠ 0 && k ≠ 1 && k ≠ 7 then s.keyEnd 2
  else if !s.slotWritable k then s.keyEnd 3
  else if 64 ≤ s.au.zgen then s.keyEnd 7
  else
    let r := s.readAs 6 s.keyArg 72
    let key := s.unwrapKey k (r.1.getD [])
    let s := { r.2 with au := { r.2.au with eph := none } }
    match key with
    | some v => (s.fillSlot k v).keyEnd 0
    | none => s.keyEnd 5

/-- SET_PUB (R391). -/
def State.setPub (s : State) : State :=
  let r := s.readAs 6 s.keyArg 208
  let b := r.1.getD []
  let k := leAt b 4 1
  let s := r.2
  if leAt b 0 4 ≠ 0x4B50594A || leAt b 5 3 ≠ 0 then s.keyEnd 6
  else if k < 3 || 6 < k then s.keyEnd 2
  else
    let ok := match s.slot 3 with
      | none => decide (k = 3)
      | some pub => decide (leAt b 8 8 = s.au.pubCtr) && P384.verify pub (sha384 (slice b 0 112)) (slice b 112 96)
    if !ok then s.keyEnd (if (s.slot 3).isNone then 2 else 6)
    else (({ s with au := { s.au with pubCtr := s.au.pubCtr + 1 } }.fillSlot k (slice b 0x10 96))).keyEnd 0

/-- EXPORT_PUB (R391). -/
def State.exportPub (s : State) : State :=
  match s.slot 2 with
  | none => s.keyEnd 2
  | some priv => (s.keyOut (leBytes 4 0x5044594A ++ leBytes 4 0 ++ chipIdBytes ++ P384.publicKey priv)).keyEnd 0

/-- EPH_KEY_EXPIRE (R390). -/
def State.ephExpire (s : State) : State := match s.au.eph with
  | some (_, _, t) => if t + 60000000000 ≤ s.now then { s with au := { s.au with eph := none } } else s
  | none => s

/-- A write of AU_KEY_CMD: slots 8 to 15 and unknown codes are refused (R389). -/
def State.keyCmd (s : State) (w : Word) : State :=
  let k := F.AU_KEY_CMD_SLOT.get w
  match F.AU_KEY_CMD_OP.get w with
  | 1 => s.genDev k
  | 2 => s.genEph k
  | 3 => s.unwrapCmd k
  | 4 => if keySlotBad k then s.keyEnd 2 else s.setPub
  | 5 => if keySlotBad k then s.keyEnd 2 else s.exportPub
  | _ => s.keyEnd 1

/-! ## Zeroize and tamper -/

/-- The sealed region and the tile keys erased (R152). -/
def State.eraseTiles (s : State) : State :=
  let f (j : JobSlot) : JobSlot := { j with tileKey := none }
  { s with js := { s.js with job0 := f s.js.job0, job1 := f s.js.job1 }, au := { s.au with sealed := [] } }

/-- Zeroize (R394): secret slots and the ephemeral key cleared, sealed data erased, a generation blown (R392). A summit being
signed is abandoned, and its cairns wait for the next one (R399). -/
def State.zeroize (s : State) : State :=
  let s := s.tagTickets
  let slots := s.au.slots.filter fun e => decide (3 ≤ e.1) && decide (e.1 ≤ 6)
  let back := match s.au.closing with
    | some c => c.cairns
    | none => []
  let gen := min 64 (s.au.zgen + 1)
  let last := decide (s.au.zgen < 64 ∧ gen = 64)
  let s := { s with au := { s.au with slots := slots, eph := none, zgen := gen, closing := none, batch := back ++ s.au.batch,
                                      batchFirst := s.au.batchFirst - back.length } }
  let s := (s.keySave.eraseTiles.inKeyErase.bump Reg.AU_TAMPER_CNT F.AU_TAMPER_CNT_COUNT).flag Reg.AU_STAT F.AU_STAT_ZEROIZED
  if last then ((s.flag Reg.AU_STAT F.AU_STAT_KEYSTORE_EXH).raise Ev.KEYSTORE_EXHAUSTED).csrSet F.FL_CSR_KEYSTORE else s

/-- A write of AU_CTRL.ZEROIZE with CONFIRM 0xA5 (R394). -/
def State.zeroizeCmd (s : State) (w : Word) : State :=
  if F.AU_CTRL_ZEROIZE.get w = 1 && F.AU_CTRL_CONFIRM.get w = 0xA5 then s.zeroize.raise Ev.KEY_ZEROIZED else s

/-- LEVEL of AU_TAMPER_STAT: the tamper inputs at their asserted levels now. No command tells of a level but TAMPER, in its own
cycle (log entry 65). -/
def State.tampNow (s : State) : Nat := if s.au.tampAt = some s.now then s.au.tampLevel else (Config.tampPins s.now).toNat

/-- TAMPER (R395): an input at its asserted level beyond its filter. -/
def State.tamper (s : State) (i : Nat) : State :=
  let s := { s with au := { s.au with tampLevel := s.tampNow ||| 2 ^ i, tampAt := some s.now } }
  if (s.fld Reg.AU_TAMPER_CFG F.AU_TAMPER_CFG_EN).testBit i then
    ((s.setBit Reg.AU_TAMPER_STAT F.AU_TAMPER_STAT_HIT i).zeroize.flag Reg.AU_STAT F.AU_STAT_TAMPER).raise Ev.TAMPER
  else s

/-! ## Attestation -/

/-- SEQ of the last cairn issued (R396): no value is stated where none has been (log entry 4). -/
def State.lastSeq (s : State) : Nat × State :=
  if s.au.seq = 0 then
    let d := s.drawFree
    (d.1 % 2 ^ 64, d.2)
  else (s.au.seq - 1, s)

/-- ATTEST (R396): refused while DEVICE SIGN is empty. -/
def State.attest (s : State) : State :=
  match s.slot 2 with
  | none => s
  | some priv =>
    let a := s.rdN Reg.AU_ATT_ADDR * 64
    let r := s.readAs 6 a 32
    match r.1 with
    | none => r.2
    | some nonce =>
      let (q, s) := r.2.lastSeq
      let b := leBytes 4 0x5441594A ++ leBytes 2 1 ++ leBytes 1 s.mode.code ++ [0] ++ chipIdBytes ++ nonce ++ s.bu.fwMeas ++ s.bu.m ++
        leBytes 8 q ++ leBytes 8 s.au.sumSeq ++ s.stamp.bytes ++
        leBytes 2 (s.fld Reg.BU_SI_PARTIALS F.BU_SI_PARTIALS_COUNT) ++ List.replicate 18 0
      (s.writeAs 6 a (b ++ P384.sign priv (sha384 b))).2

/-! ## Witness mode -/

/-- LINE received by a witness (R398). -/
def State.witLine (s : State) (b : List Byte) : State :=
  if s.witRole ≠ 2 then s
  else
    let l := leAt b 4 4
    { s with au := { s.au with wit := { s.au.wit with recv := s.au.wit.recv ++ [WitLine.mk l (beNat (slice b 8 16)) s.now] } } }.witCompare l

/-- BLANK received by a witness (R397). -/
def State.witBlank (s : State) (b : List Byte) : State :=
  if s.witRole ≠ 2 then s
  else { s with au := { s.au with wit := { s.au.wit with blanks := s.au.wit.blanks ++ [leAt b 4 4] } } }

/-- The request an entry of a COMMIT record stands for (R397). -/
def commitReq (e : Nat) : Option NhReq :=
  let h := bits e 23 0
  match bits e 31 29 with
  | 0 => if kindOf h = some .nozzle then some (.noz (h - 0x20000) (some (bits e 25 24)) none) else none
  | 1 => if kindOf h = some .nozzle then some (.noz (h - 0x20000) none (some (bits e 27 26))) else none
  | 2 => some (.enable h (bit e 28))
  | _ => none

/-- COMMIT received by a witness: its entries are queued at position C (R397). -/
def State.witCommitIn (s : State) (b : List Byte) : State :=
  if s.witRole ≠ 2 then s
  else
    let c := leAt b 4 4
    let es := (List.range (leAt b 8 2)).filterMap fun i => commitReq (leAt b (12 + 4 * i) 4)
    { s with nh := { s.nh with queue := s.nh.queue ++ es.map fun r => ⟨c, r⟩ } }

/-- STATUS received by a primary (R397, R398). -/
def State.witStatus (s : State) (b : List Byte) : State :=
  if s.witRole ≠ 1 then s
  else
    let l := leAt b 4 4
    let m := leAt b 8 4
    let old := s.au.wit.mismatch
    let s := { s with au := { s.au with wit := { s.au.wit with compared := max s.au.wit.compared l, statusAt := some s.now } } }
    let s := s.wrN Reg.AU_WIT_LINE (s.au.wit.compared % 2 ^ 32)
    if m ≠ 0xFFFFFFFF && old ≠ some m then s.witMismatch m else s

/-- Every line from `lo` to `hi` has been compared without mismatch or was marked BLANK (R398); a summit that reports no line has 0
in both. -/
def State.witHas (s : State) (lo hi : Nat) : Bool :=
  hi = 0 || (List.range (hi + 1 - lo)).all fun i =>
    s.au.wit.done.contains (lo + i, true) && !s.au.wit.done.contains (lo + i, false) || s.au.wit.blanks.contains (lo + i)

/-- COSIGN_REQ received by a witness (R398). -/
def State.cosignReq (s : State) (b : List Byte) : State :=
  let r := slice b 4 0x110
  let lo := leAt r 0x34 4
  let hi := leAt r 0x38 4
  match s.slot 2 with
  | some priv =>
    if s.witRole = 2 && s.witHas lo hi && slice r 0xD0 48 = s.bu.m then
      s.sendWit (witKind 5 ++ chipIdBytes ++ P384.sign priv (sha384 (putBytes r 0x100 chipIdBytes)))
    else s
  | none => s

/-- COSIGN_RSP received by a primary (R398); one that does not verify counts as no answer. -/
def State.cosignRsp (s : State) (b : List Byte) : State :=
  match s.au.closing with
  | none => s
  | some c =>
    let id := slice b 4 8
    let sig := slice b 12 96
    let pub := beBytes 96 (Config.witnessKey (BitVec.ofNat 64 (leNat id))).toNat
    if c.waiting && P384.verify pub (sha384 (putBytes c.bytes 0x100 id)) sig then
      { s with au := { s.au with closing := some { c with waiting := false, answer := some (id, sig) } } }
    else s

/-- COSIGN_TIMEOUT (R398). -/
def State.cosignTimeout (s : State) : State :=
  match s.au.closing with
  | some c => if s.au.closedAt.all fun t => decide (t + 10000000 ≤ s.now) then
      { s with au := { s.au with closing := some { c with waiting := false } } } else s
  | none => s

/-- WITNESS_STATUS_SEND (R397). -/
def State.witStatusSend (s : State) : State := if s.witRole = 2 then s.sendStatus else s

/-- A LINE record whose partner CT is not produced within WIT_TMO (R398). -/
def State.witOverdue (s : State) (r : WitLine) : Bool :=
  (s.bar r.line).ct.isNone && !s.au.wit.blanks.contains r.line &&
    decide (r.time + max 1 (s.fld Reg.AU_WIT_CFG F.AU_WIT_CFG_WIT_TMO) * 1000 ≤ s.now)

/-- WITNESS_LATE (R398): the oldest LINE record whose partner is not produced. -/
def State.witLate (s : State) : State :=
  match s.au.wit.recv.find? s.witOverdue with
  | some r =>
    if s.witRole = 2 then
      let w := s.au.wit
      ({ s with au := { s.au with wit := { w with recv := w.recv.erase r } } }.witMismatch r.line).sendStatus
    else s
  | none => s

/-- A witness record that arrived (R341, R397). -/
def State.witRecord (s : State) (b : List Byte) : State := match leAt b 0 1 with
  | 0 => s.witLine b
  | 1 => s.witBlank b
  | 2 => s.witCommitIn b
  | 3 => s.witStatus b
  | 4 => s.cosignReq b
  | 5 => s.cosignRsp b
  | _ => s

/-- The records that let a primary into PRINT (R398): a STATUS within WIT_LOSS ms. -/
def State.witFresh (s : State) : Bool :=
  let ms := max 1 (s.fld Reg.AU_WIT_CFG F.AU_WIT_CFG_WIT_LOSS)
  s.witRole ≠ 1 || (match s.au.wit.statusAt with
    | some t => decide (s.now - t ≤ ms * 1000000)
    | none => false)

/-- WITNESS_LOST (R398): a primary has had no STATUS for WIT_LOSS ms. -/
def State.witLost (s : State) : State :=
  if s.witFresh then s else (s.flag Reg.AU_STAT F.AU_STAT_WIT_LOST).raise Ev.WITNESS_LOST

/-! ## Registers -/

/-- Registers of AU that follow from its state. -/
def State.auView (s : State) (addr : Nat) : Option Word :=
  let w (n : Nat) : Option Word := some (BitVec.ofNat 32 n)
  if addr = Reg.AU_CHIP_ID_LO then w Config.chipId.toNat
  else if addr = Reg.AU_CHIP_ID_HI then w (Config.chipId.toNat / 2 ^ 32)
  else if addr = Reg.AU_SEQ_LO then w s.au.seq
  else if addr = Reg.AU_OPEN then some (F.AU_OPEN_USED.put (s.rd addr) s.au.tickets.length)
  else if addr = Reg.AU_PUB_CTR then w s.au.pubCtr
  else if addr = Reg.AU_KEY_STAT then
    some (F.AU_KEY_STAT_FILLED.put (s.rd addr) (s.au.slots.foldl (fun m e => m ||| 2 ^ e.1) 0))
  else if addr = Reg.AU_STAT then
    some (F.AU_STAT_KEYS_MISSING.put (s.rd addr) (b2n ((s.slot 1).isNone || (s.slot 2).isNone)))
  else if addr = Reg.AU_KEY_GEN then w s.au.zgen
  else if addr = Reg.AU_TAMPER_STAT then some (F.AU_TAMPER_STAT_LEVEL.put (s.rd addr) s.tampNow)
  else if addr = Reg.AU_RING_ACK_LO then w s.au.ack
  else if addr = Reg.AU_RING_ACK_HI then w (s.au.ack / 2 ^ 32)
  else if addr = Reg.AU_RING_STAT then w (s.ringFill + 128 * b2n s.au.ringHeld)
  else none

end Sys2Proof.Machine
end

