-- ==== Sys2Proof/Machine/Symbols.lean ====
section
/-! DEFINITION. The two bar code symbologies of 06: Code 128 (R138, R139) and Data Matrix ECC 200 (R140, R141), as functions
from data bytes to modules. The pattern, size, Reed-Solomon and placement tables are those of ISO/IEC 15417 and 16022
(PRESUMED, log entry 13). -/

namespace Sys2Proof.Machine

/-- Bar and space widths of the symbol characters 0 to 105, six digits each (ISO/IEC 15417). -/
def c128Patterns : List Nat :=
  [212222,222122,222221,121223,121322,131222,122213,122312,132212,221213,221312,231212,112232,122132,122231,113222,
   123122,123221,223211,221132,221231,213212,223112,312131,311222,321122,321221,312212,322112,322211,212123,212321] ++
  [232121,111323,131123,131321,112313,132113,132311,211313,231113,231311,112133,112331,132131,113123,113321,133121,
   313121,211331,231131,213113,213311,213131,311123,311321,331121,312113,312311,332111,314111,221411,431111,111224] ++
  [111422,121124,121421,141122,141221,112214,112412,122114,122411,142112,142211,241211,221114,413111,241112,134111,
   111242,121142,121241,114212,124112,124211,411212,421112,421211,212141,214121,412121,111143,111341,131141,114113] ++
  [114311,411113,411311,113141,114131,311141,411131,211412,211214,211232]

/-- Modules of a width string, `n` digits, alternating from `dark`. -/
def widthsToModules (n v : Nat) (dark : Bool) : List Bool :=
  ((List.range n).map fun i => List.replicate (v / 10 ^ (n - 1 - i) % 10) (dark == (i % 2 == 0))).flatten

/-- Code sets of Code 128. -/
inductive C128Set where
  | a | b | c
  deriving DecidableEq, Repr

/-- A data byte that is a decimal digit. -/
def isDigit (b : Byte) : Bool := 48 ≤ b.toNat && b.toNat ≤ 57

/-- The length of the run of digits at the head of the data. -/
def digitRun (l : List Byte) : Nat := (l.takeWhile isDigit).length

/-- A byte writable in set A, or in set B; FNC1 is writable in each. -/
def c128Writable (s : C128Set) (b : Byte) : Bool :=
  b.toNat = 0xF1 || (match s with
    | .a => b.toNat < 96
    | .b => 32 ≤ b.toNat && b.toNat < 128
    | .c => isDigit b)

/-- The symbol value of a byte in set A or B. -/
def c128Value (b : Byte) : Nat := if b.toNat = 0xF1 then 102 else if b.toNat < 32 then b.toNat + 64 else b.toNat - 32

/-- The symbol values of the rest of the data in AUTO mode (R139, rules 2 to 4). -/
def c128Auto : Nat → C128Set → List Byte → List Nat
  | 0, _, _ => []
  | _, _, [] => []
  | f + 1, .c, x :: rest =>
    if x.toNat = 0xF1 then 102 :: c128Auto f .c rest
    else
      match rest with
      | y :: rest' =>
        if isDigit x && isDigit y then ((x.toNat - 48) * 10 + (y.toNat - 48)) :: c128Auto f .c rest'
        else if x.toNat < 32 then 101 :: c128Auto f .a (x :: rest) else 100 :: c128Auto f .b (x :: rest)
      | [] => if x.toNat < 32 then 101 :: c128Auto f .a [x] else 100 :: c128Auto f .b [x]
  | f + 1, set, x :: rest =>
    let n := digitRun (x :: rest)
    if n ≥ 6 || (n ≥ 4 && n = rest.length + 1) then
      if n % 2 = 1 then c128Value x :: c128Auto f set rest else 99 :: c128Auto f .c (x :: rest)
    else if c128Writable set x then c128Value x :: c128Auto f set rest
    else
      let other := if set = .a then C128Set.b else C128Set.a
      let nextOk := match rest with
        | [] => true
        | y :: _ => c128Writable set y
      if nextOk then 98 :: c128Value x :: c128Auto f set rest
      else (if set = .a then 100 else 101) :: c128Auto f other (x :: rest)

/-- The start character and set of AUTO mode (R139, rule 1). -/
def c128Start (d : List Byte) : Nat × C128Set :=
  let n := digitRun d
  if n ≥ 4 || (n = 2 && d.length = 2) then (105, .c)
  else match d with
    | x :: _ => if x.toNat < 32 then (103, .a) else (104, .b)
    | [] => (104, .b)

/-- The symbol values of a CODE128 field before its check character; nothing where the data cannot be encoded. -/
def c128Values (raw : Bool) (d : List Byte) : Option (List Nat) :=
  if raw then
    match d with
    | x :: rest =>
      if 103 ≤ x.toNat && x.toNat ≤ 105 && rest.all (fun b => b.toNat ≤ 102) then some (d.map (·.toNat)) else none
    | [] => none
  else if d.all (fun b => b.toNat < 128 || b.toNat = 0xF1) then
    let st := c128Start d
    some (st.1 :: c128Auto (4 * d.length + 4) st.2 d)
  else none

/-- The check character: the weighted sum modulo 103. -/
def c128Check (v : List Nat) : Nat :=
  (v.getD 0 0 + ((v.drop 1).zipIdx 1).foldl (fun a x => a + x.1 * x.2) 0) % 103

/-- The modules of a Code 128 symbol with its quiet zones of 10 modules (R138). -/
def c128Modules (v : List Nat) : List Bool :=
  List.replicate 10 false ++
  ((v ++ [c128Check v]).flatMap fun k => widthsToModules 6 (c128Patterns.getD k 0) true) ++
  widthsToModules 7 2331112 true ++ List.replicate 10 false

/-- The square symbols of ECC 200 in ascending order: side, regions per side, data codewords, error correction codewords
and interleaved blocks (ISO/IEC 16022). -/
def dmSizes : List (Nat × Nat × Nat × Nat × Nat) :=
  [(10,1,3,5,1),(12,1,5,7,1),(14,1,8,10,1),(16,1,12,12,1),(18,1,18,14,1),(20,1,22,18,1),(22,1,30,20,1),(24,1,36,24,1),
   (26,1,44,28,1),(32,2,62,36,1),(36,2,86,42,1),(40,2,114,48,1)] ++
  [(44,2,144,56,1),(48,2,174,68,1),(52,2,204,84,2),(64,4,280,112,2),(72,4,368,144,4),(80,4,456,192,4),(88,4,576,224,4),
   (96,4,696,272,4),(104,4,816,336,6),(120,6,1050,408,6),(132,6,1304,496,8),(144,6,1558,620,10)]

/-- ASCII encodation of R141. -/
def dmAscii : Nat → List Byte → List Nat
  | 0, _ => []
  | _, [] => []
  | f + 1, x :: rest =>
    match rest with
    | y :: rest' =>
      if isDigit x && isDigit y then (130 + (x.toNat - 48) * 10 + (y.toNat - 48)) :: dmAscii f rest'
      else if x.toNat < 128 then (x.toNat + 1) :: dmAscii f rest
      else 235 :: (x.toNat - 127) :: dmAscii f rest
    | [] => if x.toNat < 128 then [x.toNat + 1] else [235, x.toNat - 127]

/-- Base 256 randomisation at codeword position `pos` (from 1). -/
def dmRandom256 (pos v : Nat) : Nat := (v + (149 * pos) % 255 + 1) % 256

/-- The data codewords of a DMTX field (R141): FNC1, then ASCII encodation or one Base 256 field. -/
def dmEncode (b256 fnc1 : Bool) (d : List Byte) : List Nat :=
  let pre := if fnc1 then [232] else []
  if b256 then
    let n := d.length
    let body := (if n < 250 then [n] else [249 + n / 250, n % 250]) ++ d.map (·.toNat)
    let p0 := pre.length + 2
    pre ++ [231] ++ (body.zipIdx p0).map fun x => dmRandom256 x.2 x.1
  else pre ++ dmAscii (2 * d.length + 1) d

/-- Unused capacity: 129, then the pseudo-random pads of the standard. -/
def dmPad (cap : Nat) (cw : List Nat) : List Nat :=
  let k := cap - cw.length
  cw ++ (List.range k).map fun i =>
    if i = 0 then 129
    else
      let v := 129 + (149 * (cw.length + i + 1)) % 253 + 1
      if v > 254 then v - 254 else v

/-- Multiplication in GF(256) with the polynomial 0x12D of ECC 200. -/
def dmMul (a b : Nat) : Nat :=
  ((List.range 8).foldl (fun (s : Nat × Nat) i =>
    (if b.testBit i then s.1 ^^^ s.2 else s.1, if s.2 < 128 then s.2 * 2 else (s.2 * 2) ^^^ 0x12D)) (0, a)).1

/-- The generator polynomial with roots 2^1 to 2^k, highest power first without its leading 1. -/
def dmGen (k : Nat) : List Nat :=
  ((List.range k).foldl (fun (s : List Nat × Nat) _ =>
    let g := s.1
    let r := s.2
    (((g ++ [0]).zip (0 :: g)).map (fun (x : Nat × Nat) => x.1 ^^^ dmMul x.2 r), dmMul r 2)) ([1], 2)).1.drop 1

/-- The error correction codewords of one block. -/
def dmEcc (k : Nat) (data : List Nat) : List Nat :=
  let g := dmGen k
  data.foldl (fun r d =>
    let f := d ^^^ r.getD 0 0
    ((r.drop 1 ++ [0]).zip g).map fun (x : Nat × Nat) => x.1 ^^^ dmMul x.2 f) (List.replicate k 0)

/-- All codewords of a symbol: data, then error correction, blocks interleaved. -/
def dmCodewords (ecc blocks : Nat) (data : List Nat) : List Nat :=
  let per := ecc / blocks
  let eccs := (List.range blocks).map fun b =>
    dmEcc per ((data.zipIdx).filterMap fun x => if x.2 % blocks = b then some x.1 else none)
  data ++ (List.range ecc).map fun i =>
    let b := (data.length + i) % blocks
    (eccs.getD b []).getD (i / blocks) 0

/-- A module of the mapping matrix with the wrap of the standard. -/
def dmWrap (n : Nat) (r c : Int) : Nat × Nat :=
  let s : Int := 4 - ((n : Int) + 4) % 8
  let (r, c) := if r < 0 then (r + n, c + s) else (r, c)
  let (r, c) := if c < 0 then (r + s, c + n) else (r, c)
  (r.toNat, c.toNat)

/-- The mapping matrix in progress: module index to 8 × codeword + bit. -/
abbrev DmMap := AMap Nat

/-- The eight modules of a codeword placed. -/
def dmPlace (n : Nat) (m : DmMap) (chr : Nat) (cells : List (Int × Int)) : DmMap :=
  (cells.zipIdx).foldl (fun m x =>
    let q := dmWrap n x.1.1 x.1.2
    AMap.place (AMap.erase m (q.1 * n + q.2)) (q.1 * n + q.2) (8 * chr + x.2)) m

/-- The ordinary shape of a codeword. -/
def dmUtah (r c : Int) : List (Int × Int) :=
  [(r - 2, c - 2), (r - 2, c - 1), (r - 1, c - 2), (r - 1, c - 1), (r - 1, c), (r, c - 2), (r, c - 1), (r, c)]

/-- The corner shapes of the standard. -/
def dmCorner (n : Int) : Nat → List (Int × Int)
  | 1 => [(n - 1, 0), (n - 1, 1), (n - 1, 2), (0, n - 2), (0, n - 1), (1, n - 1), (2, n - 1), (3, n - 1)]
  | 2 => [(n - 3, 0), (n - 2, 0), (n - 1, 0), (0, n - 4), (0, n - 3), (0, n - 2), (0, n - 1), (1, n - 1)]
  | 3 => [(n - 3, 0), (n - 2, 0), (n - 1, 0), (0, n - 2), (0, n - 1), (1, n - 1), (2, n - 1), (3, n - 1)]
  | _ => [(n - 1, 0), (n - 1, n - 1), (0, n - 3), (0, n - 2), (0, n - 1), (1, n - 3), (1, n - 2), (1, n - 1)]

/-- One diagonal sweep, upwards or downwards, until it leaves the matrix. -/
def dmSweep (n : Nat) (up : Bool) : Nat → DmMap → Nat → Int → Int → DmMap × Nat × Int × Int
  | 0, m, chr, r, c => (m, chr, r, c)
  | f + 1, m, chr, r, c =>
    let free := 0 ≤ r && r < n && 0 ≤ c && c < n && (AMap.find? m (r.toNat * n + c.toNat)).isNone
    let (m, chr) := if free then (dmPlace n m chr (dmUtah r c), chr + 1) else (m, chr)
    let r' := if up then r - 2 else r + 2
    let c' := if up then c + 2 else c - 2
    if (if up then 0 ≤ r' && c' < n else r' < n && 0 ≤ c') then dmSweep n up f m chr r' c' else (m, chr, r', c')

/-- The whole placement of a matrix of side `n`. -/
def dmPlaceAll (n : Nat) : Nat → DmMap → Nat → Int → Int → DmMap
  | 0, m, _, _, _ => m
  | f + 1, m, chr, r, c =>
    let corner :=
      if r = n && c = 0 then 1
      else if r = (n : Int) - 2 && c = 0 && n % 8 = 4 then 3
      else if r = (n : Int) - 2 && c = 0 && n % 4 ≠ 0 then 2
      else if r = (n : Int) + 4 && c = 2 && n % 8 = 0 then 4 else 0
    let (m, chr) := if corner = 0 then (m, chr) else (dmPlace n m chr (dmCorner n corner), chr + 1)
    let (m, chr, r, c) := dmSweep n true (n + 4) m chr r c
    let (m, chr, r, c) := dmSweep n false (n + 4) m chr (r + 1) (c + 3)
    let r' := r + 3
    let c' := c + 1
    if r' < n || c' < n then dmPlaceAll n f m chr r' c' else m

/-- The modules of a symbol, row by row: the mapping matrix in its regions with their finder and clock tracks. -/
def dmGrid (side regions : Nat) (cw : List Nat) : List (List Bool) :=
  let n := side - 2 * regions
  let m := dmPlaceAll n (n + 4) [] 0 4 0
  let rs := side / regions
  let dataAt (r c : Nat) : Bool :=
    match AMap.find? m (r * n + c) with
    | some v => (cw.getD (v / 8) 0).testBit (7 - v % 8)
    | none => (r = n - 1 && c = n - 1) || (r = n - 2 && c = n - 2)
  (List.range side).map fun y => (List.range side).map fun x =>
    let ry := y % rs
    let rx := x % rs
    if rx = 0 || ry = rs - 1 then true
    else if ry = 0 then rx % 2 = 0
    else if rx = rs - 1 then ry % 2 = 1
    else dataAt (y / rs * (rs - 2) + ry - 1) (x / rs * (rs - 2) + rx - 1)

/-- The codewords of a Base 256 field that runs to the end of the symbol: the length codeword is 0 (R141, log entry 13). -/
def dmEncodeOpen (fnc1 : Bool) (d : List Byte) : List Nat :=
  let pre := if fnc1 then [232] else []
  pre ++ [231] ++ ((0 :: d.map (·.toNat)).zipIdx (pre.length + 2)).map fun x => dmRandom256 x.2 x.1

/-- The symbol of a DMTX field: nothing where the data do not fit the size asked for (R141). -/
def dmSymbol (size : Nat) (b256 fnc1 : Bool) (d : List Byte) : Option (List (List Bool)) :=
  let cw := dmEncode b256 fnc1 d
  let cands := if size = 0 then dmSizes else (dmSizes.drop (size - 1)).take 1
  let open' := dmEncodeOpen fnc1 d
  let fit := (cands.find? fun s => cw.length ≤ s.2.2.1).map (·, cw)
  match fit.orElse fun _ => if b256 then (cands.find? fun s => open'.length = s.2.2.1).map (·, open') else none with
  | some (s, cw) => some (dmGrid s.1 s.2.1 (dmCodewords s.2.2.2.1 s.2.2.2.2 (dmPad s.2.2.1 cw)))
  | none => none

end Sys2Proof.Machine
end

