-- ==== Sys2Proof/Machine/Render.lean ====
section
/-! DEFINITION. Field rendering (06): the checks of a cell record and its field records (R115, R118, R128 to R130), the
drawing of each primitive (R131 to R142) and the tile format (R132). Drawing is a function of the record, the imposition,
the libraries and the clear payload alone. -/

namespace Sys2Proof.Machine

/-- A field record (R128): its fields, its parameter bytes, and its bytes. -/
structure FieldRec where
  len : Nat
  prim : Nat
  slot : Nat
  x : Nat
  y : Nat
  value : Nat
  rot : Nat
  src : Nat
  lib : Nat
  doff : Nat
  dlen : Nat
  raw : List Byte
  deriving DecidableEq, Repr

/-- A field record read at the head of a byte string. -/
def FieldRec.parse (bs : List Byte) : FieldRec :=
  let g (i n : Nat) := leAt bs i n
  ⟨g 0 2, g 2 1, g 3 1, g 4 2, g 6 2, g 8 1, g 9 1, g 10 1, g 11 1, g 12 2, g 14 2, bs.take (g 0 2)⟩

/-- A parameter of a field record: `n` bytes at its offset in the record. -/
def FieldRec.par (f : FieldRec) (i n : Nat) : Nat := leAt f.raw i n

/-- Parameter bytes of the record outside the listed offsets are 0 (R128). -/
def FieldRec.unusedZero (f : FieldRec) (used : List (Nat × Nat)) : Bool :=
  (List.range 16).all fun i =>
    used.any (fun u => u.1 ≤ 0x10 + i && 0x10 + i < u.1 + u.2) || f.par (0x10 + i) 1 = 0

/-- Refusal reasons of AU_RNDR_ERR.REASON. -/
inductive FieldErr where
  | len | slot | prim | rot | param | payload | library | data | fit
  deriving DecidableEq, Repr

/-- The code of a reason. -/
def FieldErr.code : FieldErr → Nat
  | .len => 1 | .slot => 2 | .prim => 3 | .rot => 4 | .param => 5 | .payload => 6 | .library => 7 | .data => 8 | .fit => 9

/-- A library as the renderer reads it: the byte at an offset from BASE, and the bytes the slot holds; `none` where the
plate slot is neither READY nor IN_USE (R135). `shut` says that the fabric refuses bytes of a range (R293). -/
structure Library where
  size : Nat
  byte : Nat → Byte
  shut : Nat → Nat → Bool

/-- A little-endian value in a library. -/
def Library.le (l : Library) (off n : Nat) : Nat := leNat ((List.range n).map fun i => l.byte (off + i))

/-- An entry of a library: its bitmap offset, width, height and, for glyphs, advance and bearings. -/
structure LibEntry where
  off : Nat
  w : Nat
  h : Nat
  adv : Nat
  bx : Int
  byy : Int

/-- Entry `k` of a library with the given MAGIC, if R135 lets a field use it; the causes of a refusal are those of that rule (log
entry 38). -/
def Library.entry (l : Library) (magic bitsPer k : Nat) : Option LibEntry :=
  let e := 16 + 16 * k
  let w := l.le (e + 4) 2
  let h := l.le (e + 6) 2
  let off := l.le e 4
  let row := (w * bitsPer + 7) / 8
  if l.le 0 4 = magic && k < l.le 4 4 && off + row * h ≤ l.size && !l.shut e 16 && !l.shut off (row * h) then
    some ⟨off, w, h, l.le (e + 8) 2, toSigned 16 (l.le (e + 10) 2), toSigned 16 (l.le (e + 12) 2)⟩
  else none

/-- MAGIC of a glyph atlas. -/
def atlasMagic : Nat := 0x4147594A

/-- MAGIC of a stamp library. -/
def stampMagic : Nat := 0x4C53594A

/-- The bit of a glyph at a point of its bitmap. -/
def Library.glyphBit (l : Library) (e : LibEntry) (x y : Nat) : Bool :=
  (l.byte (e.off + y * ((e.w + 7) / 8) + x / 8)).toNat.testBit (x % 8)

/-- The value of a stamp at a point of its bitmap. -/
def Library.stampVal (l : Library) (e : LibEntry) (x y : Nat) : Nat :=
  (l.byte (e.off + y * ((e.w + 3) / 4) + x / 4)).toNat / 4 ^ (x % 4) % 4

/-- The glyph numbers of a GLYPH field (R136). -/
def glyphCodes (f : FieldRec) (d : List Byte) : List Nat :=
  let cw := f.par 0x12 1
  (List.range (d.length / cw)).map fun i => (f.par 0x10 2 + leAt d (cw * i) cw) % 65536

/-- The modules of a symbol and the size of a module, columns first, rows downward. -/
structure Grid where
  cols : Nat
  rows : Nat
  cell : Nat → Nat → Bool
  mw : Nat
  mh : Nat

/-- A grid turned by `rot` × 90° clockwise (R131); module sizes stay. -/
def Grid.turn (g : Grid) (rot : Nat) : Grid :=
  match rot with
  | 1 => ⟨g.rows, g.cols, fun c r => g.cell r (g.rows - 1 - c), g.mw, g.mh⟩
  | 2 => ⟨g.cols, g.rows, fun c r => g.cell (g.cols - 1 - c) (g.rows - 1 - r), g.mw, g.mh⟩
  | 3 => ⟨g.rows, g.cols, fun c r => g.cell (g.cols - 1 - r) c, g.mw, g.mh⟩
  | _ => g

/-- The module grid of a CODE128 or DMTX field, quiet zone included, before rotation; nothing where the data cannot be
encoded. -/
def symbolGrid (f : FieldRec) (d : List Byte) : Option Grid :=
  if f.prim = 1 then
    (c128Values (f.par 0x11 1 = 1) d).map fun v =>
      let m := c128Modules v
      let thick := f.par 0x10 1
      let len := f.par 0x12 2
      let odd := f.rot % 2 = 1
      ⟨m.length, 1, fun c _ => m.getD c false, if odd then len else thick, if odd then thick else len⟩
  else
    (dmSymbol (f.par 0x12 1) ((f.par 0x13 1).testBit 0) ((f.par 0x13 1).testBit 1) d).map fun g =>
      let q := f.par 0x14 1
      let n := g.length
      ⟨n + 2 * q, n + 2 * q,
        fun c r => q ≤ c && q ≤ r && ((g.getD (r - q) []).getD (c - q) false), f.par 0x10 1, f.par 0x11 1⟩

/-- What a field covers at a point of its slot, and with which value. -/
abbrev Drawing := Int → Int → Option Nat

/-- A drawing turned by 180° about the centre of a box at (x, y) of w × h (R131). -/
def Drawing.half (dr : Drawing) (x y w h : Int) : Drawing := fun px py => dr (2 * x + w - 1 - px) (2 * y + h - 1 - py)

/-- A GLYPH field (R136): the glyphs of the run with the pen advancing by ADV + TRACK. -/
def drawGlyphs (f : FieldRec) (l : Library) (codes : List Nat) : Drawing :=
  let track := toSigned 16 (f.par 0x14 2)
  let base := (f.y : Int) + f.par 0x16 2
  let run := codes.foldl (fun (s : List (LibEntry × Int) × Int) k =>
    match l.entry atlasMagic 1 k with
    | some e => (s.1 ++ [(e, s.2)], s.2 + e.adv + track)
    | none => s) ([], (f.x : Int))
  let dr : Drawing := fun px py =>
    if run.1.any (fun g =>
        let gx := px - (g.2 + g.1.bx)
        let gy := py - (base - g.1.byy)
        0 ≤ gx && gx < g.1.w && 0 ≤ gy && gy < g.1.h && l.glyphBit g.1 gx.toNat gy.toNat)
    then some f.value else none
  if f.rot = 2 then dr.half f.x f.y (run.2 - f.x) (f.par 0x18 2) else dr

/-- A STAMP field or a stamp silhouette of KNOCK (R137, R142): `value` gives what a covered point takes. -/
def drawStamp (f : FieldRec) (l : Library) (id : Nat) (opaqueAll silhouette : Bool) : Drawing :=
  match l.entry stampMagic 2 id with
  | none => fun _ _ => none
  | some e =>
    let dr : Drawing := fun px py =>
      let gx := px - f.x
      let gy := py - f.y
      if 0 ≤ gx && gx < e.w && 0 ≤ gy && gy < e.h then
        let v := l.stampVal e gx.toNat gy.toNat
        if v ≠ 0 || opaqueAll then some (if silhouette then 0 else v) else none
      else none
    if f.rot = 2 then dr.half f.x f.y e.w e.h else dr

/-- A rectangle at the field's corner, `test` deciding each point of it. -/
def drawRect (f : FieldRec) (w h v : Nat) (test : Nat → Nat → Bool) : Drawing := fun px py =>
  if (f.x : Int) ≤ px && px < f.x + w && (f.y : Int) ≤ py && py < f.y + h && test px.toNat py.toNat then some v else none

/-- A symbol: its modules with VALUE, everything else of its box with 0 (R138, R140). -/
def drawGrid (f : FieldRec) (g : Grid) : Drawing := fun px py =>
  let gx := px - f.x
  let gy := py - f.y
  if 0 ≤ gx && gx < g.cols * g.mw && 0 ≤ gy && gy < g.rows * g.mh then
    some (if g.cell (gx.toNat / g.mw) (gy.toNat / g.mh) then f.value else 0)
  else none

/-- The number of the stamp a field draws (R137). -/
def stampNumber (f : FieldRec) (d : List Byte) : Nat := if d.length = 2 then leNat d else f.par 0x10 2

/-- The drawing of a checked field (R131 to R142). -/
def drawField (f : FieldRec) (lib : Option Library) (d : List Byte) : Drawing :=
  let none' : Drawing := fun _ _ => none
  match f.prim with
  | 0 => match lib with
    | some l => drawGlyphs f l (glyphCodes f d)
    | none => none'
  | 1 | 2 => match symbolGrid f d with
    | some g => drawGrid f (g.turn f.rot)
    | none => none'
  | 3 => match lib with
    | some l => drawStamp f l (stampNumber f d) (f.par 0x12 1 = 1) false
    | none => none'
  | 4 =>
    let len := f.par 0x10 4
    let thick := f.par 0x14 2
    if f.par 0x16 1 = 0 then drawRect f len thick f.value (fun _ _ => true)
    else drawRect f thick len f.value (fun _ _ => true)
  | 5 => drawRect f (f.par 0x10 4) (f.par 0x14 2) f.value (fun px py => (f.par 0x16 2).testBit (4 * (py % 4) + px % 4))
  | 6 =>
    if f.par 0x10 1 = 0 then drawRect f (f.par 0x14 4) (f.par 0x18 2) 0 (fun _ _ => true)
    else match lib with
      | some l => drawStamp f l (f.par 0x12 2) false true
      | none => none'
  | _ => none'

/-- The layout of R128, then PRIM and ROT of R129 (R130, step 2): LEN, SLOT, the ranges of VALUE, SRC and LIB, then the primitive and
its rotation. -/
def checkLayout (f : FieldRec) (room : Nat) (slots : List ImpSlot) (seen : List Nat) : Option FieldErr :=
  if !(32 ≤ f.len && f.len ≤ 1024 && f.len % 8 = 0 && f.len ≤ room) then some .len
  else if !(f.slot < slots.length && !seen.contains f.slot) then some .slot
  else if !(f.src ≤ 1 && (if f.prim = 6 then f.value = 0 else 1 ≤ f.value && f.value ≤ 3) &&
      f.lib < 16 && (f.lib = 0 || f.prim = 0 || f.prim = 3 || (f.prim = 6 && f.par 0x10 1 = 1))) then some .param
  else if !(f.prim < 7 && ((slots.map ImpSlot.primMask).getD f.slot 0).testBit f.prim) then some .prim
  else if !(match f.prim with
      | 0 | 3 | 6 => f.rot = 0 || f.rot = 2
      | 1 | 2 => f.rot ≤ 3
      | _ => f.rot = 0) then some .rot
  else none

/-- Parameter ranges of R129, and the VALUE of a STAMP (R137). -/
def checkParams (f : FieldRec) : Option FieldErr :=
  let ok := match f.prim with
    | 0 => 1 ≤ f.par 0x18 2 && f.par 0x18 2 ≤ 4096 && f.unusedZero [(0x10, 2), (0x12, 1), (0x14, 2), (0x16, 2), (0x18, 2)]
    | 1 => 2 ≤ f.par 0x10 1 && f.par 0x10 1 ≤ 32 && f.par 0x11 1 ≤ 1 && 1 ≤ f.par 0x12 2 && f.par 0x12 2 ≤ 4096 &&
        f.unusedZero [(0x10, 4)]
    | 2 => 2 ≤ f.par 0x10 1 && f.par 0x10 1 ≤ 64 && 1 ≤ f.par 0x11 1 && f.par 0x11 1 ≤ 64 && f.par 0x12 1 ≤ 24 &&
        f.par 0x13 1 ≤ 3 && 1 ≤ f.par 0x14 1 && f.par 0x14 1 ≤ 4 && f.unusedZero [(0x10, 5)]
    | 3 => f.value = 1 && f.par 0x12 1 ≤ 1 && f.unusedZero [(0x10, 3)]
    | 4 => f.par 0x16 1 ≤ 1 && f.unusedZero [(0x10, 7)]
    | 5 => f.unusedZero [(0x10, 8)]
    | _ => f.par 0x10 1 ≤ 1 && f.unusedZero [(0x10, 1), (0x12, 2), (0x14, 6)]
  if ok then none else some .param

/-- DLEN and DOFF of R128 and R129 (LEN), and PAYLOAD data inside PAYLOAD_LEN. -/
def checkExtent (f : FieldRec) (payloadLen : Nat) : Option FieldErr :=
  let lenOk := match f.prim with
    | 0 => 1 ≤ f.dlen && f.dlen ≤ 512 && (f.par 0x12 1 = 1 || f.par 0x12 1 = 2) && f.dlen % (f.par 0x12 1) = 0
    | 1 => 1 ≤ f.dlen && f.dlen ≤ 64
    | 2 => 1 ≤ f.dlen && f.dlen ≤ 1556
    | 3 => f.dlen = 0 || f.dlen = 2
    | _ => f.dlen = 0
  if !lenOk then some .len
  else if f.src = 0 then (if 0x20 ≤ f.doff && f.doff + f.dlen ≤ f.len then none else some .len)
  else if payloadLen = 0 || payloadLen < f.doff + f.dlen then some .payload else none

/-- The library a field needs is usable, whatever numbers its data name (R135). -/
def checkLibrary (f : FieldRec) (lib : Nat → Option Library) : Option FieldErr :=
  let needs := f.prim = 0 || f.prim = 3 || (f.prim = 6 && f.par 0x10 1 = 1)
  if !needs then none
  else match lib f.lib with
    | none => some .library
    | some l => if l.le 0 4 = (if f.prim = 0 then atlasMagic else stampMagic) then none else some .library

/-- Checks that read the data of a field: numbers within the library, DATA and FIT (R135, R138, R140). -/
def checkData (f : FieldRec) (lib : Nat → Option Library) (slot : ImpSlot) (d : List Byte) : Option FieldErr :=
  match f.prim with
  | 0 => match lib f.lib with
    | some l => if (glyphCodes f d).all fun k => (l.entry atlasMagic 1 k).isSome then none else some .library
    | none => some .library
  | 3 => match lib f.lib with
    | some l => if (l.entry stampMagic 2 (stampNumber f d)).isSome then none else some .library
    | none => some .library
  | 6 => if f.par 0x10 1 = 0 then none else match lib f.lib with
    | some l => if (l.entry stampMagic 2 (f.par 0x12 2)).isSome then none else some .library
    | none => some .library
  | 1 | 2 => match symbolGrid f d with
    | none => some .data
    | some g =>
      let g := g.turn f.rot
      if f.x + g.cols * g.mw ≤ slot.w && f.y + g.rows * g.mh ≤ slot.h then none else some .fit
  | _ => none

/-- The first error of a list of checks. -/
def firstErr : List (Option FieldErr) → Option FieldErr
  | [] => none
  | some e :: _ => some e
  | none :: l => firstErr l

/-- The data bytes of a field. -/
def fieldData (f : FieldRec) (payload : List Byte) : List Byte :=
  if f.src = 0 then (f.raw.drop f.doff).take f.dlen else slice payload f.doff f.dlen

/-- Step 2 of R130 for one field record. -/
def checkField (f : FieldRec) (room payloadLen : Nat) (slots : List ImpSlot) (seen : List Nat)
    (lib : Nat → Option Library) : Option FieldErr :=
  firstErr [checkLayout f room slots seen, checkParams f, checkExtent f payloadLen, checkLibrary f lib,
    match slots[f.slot]? with
    | some sl => if f.src = 0 || f.prim ≥ 4 || f.dlen = 0 then checkData f lib sl (fieldData f []) else none
    | none => some .slot]

/-- Field record `i` of a record. -/
def fieldAt : Nat → List Byte → FieldRec
  | 0, rest => FieldRec.parse (slice rest 0 (max rest.length 32))
  | n + 1, rest => fieldAt n (rest.drop (max 1 (leAt rest 0 2)))

/-- The field records of a record, checked in order: the records, or the index and reason of the first refusal. -/
def parseFields (lib : Nat → Option Library) (slots : List ImpSlot) (payloadLen : Nat) :
    Nat → Nat → List Nat → List Byte → Except (Nat × FieldErr) (List FieldRec)
  | 0, _, _, rest => if rest.isEmpty then .ok [] else .error (0, .len)
  | n + 1, i, seen, rest =>
    let f := FieldRec.parse (slice rest 0 (max rest.length 32))
    match checkField f rest.length payloadLen slots seen lib with
    | some e => .error (i, e)
    | none =>
      match parseFields lib slots payloadLen n (i + 1) (f.slot :: seen) (rest.drop f.len) with
      | .ok fs => .ok (f :: fs)
      | .error e => .error e

/-- Step 4 of R130: the checks that need the clear payload. -/
def checkClear (lib : Nat → Option Library) (slots : List ImpSlot) (payload : List Byte) :
    Nat → List FieldRec → Option (Nat × FieldErr)
  | _, [] => none
  | i, f :: fs =>
    let e := if f.src = 1 then
        match slots[f.slot]? with
        | some sl => checkData f lib sl (fieldData f payload)
        | none => some .slot
      else none
    match e with
    | some e => some (i, e)
    | none => checkClear lib slots payload (i + 1) fs

/-- The bytes of a slot block (R132). -/
def slotBytes (w h : Nat) : Nat := ((w * h + 3) / 4 + (w * h + 7) / 8 + 63) / 64 * 64

/-- The slot block of a drawing: value plane, coverage plane, padding (R132, R133). -/
def slotBlock (w h : Nat) (dr : Drawing) : List Byte :=
  let at' (k : Nat) : Option Nat := if k < w * h then dr (k % w : Nat) (k / w : Nat) else none
  let vals := (List.range ((w * h + 3) / 4)).map fun b =>
    BitVec.ofNat 8 ((List.range 4).foldl (fun a i => a + ((at' (4 * b + i)).getD 0) * 4 ^ i) 0)
  let cov := (List.range ((w * h + 7) / 8)).map fun b =>
    BitVec.ofNat 8 ((List.range 8).foldl (fun a i => a + b2n (at' (8 * b + i)).isSome * 2 ^ i) 0)
  let body := vals ++ cov
  body ++ List.replicate (slotBytes w h - body.length) 0#8

/-- The slot blocks of a cell, in ascending slot index: each slot with the field that names it, if the record passed. -/
def renderCell (lib : Nat → Option Library) (slots : List ImpSlot) (fields : List FieldRec) (payload : List Byte) :
    List Byte :=
  (slots.zipIdx).flatMap fun x =>
    match fields.find? fun f => f.slot = x.2 with
    | some f => slotBlock x.1.w x.1.h (drawField f (lib f.lib) (fieldData f payload))
    | none => slotBlock x.1.w x.1.h (fun _ _ => none)

/-- A cell record read from its bytes (R115). -/
structure CellRec where
  magic : Nat
  length : Nat
  fieldCount : Nat
  flags : Nat
  rowInst : Nat
  cell : Nat
  resv : Nat
  serial : List Byte
  jobId : Nat
  fieldsLen : Nat
  payloadLen : Nat
  nonce : List Byte
  header : List Byte
  fields : List Byte
  cipher : List Byte
  tag : List Byte
  deriving DecidableEq, Repr

/-- The layout of R115. -/
def CellRec.parse (bs : List Byte) : CellRec :=
  let g (i n : Nat) := leAt bs i n
  let fl := g 0x24 2
  let pl := g 0x26 2
  ⟨g 0 4, g 4 2, g 6 1, g 7 1, g 8 4, g 12 2, g 14 2 + g 0x34 12, slice bs 0x10 16, g 0x20 4, fl, pl, slice bs 0x28 12,
    slice bs 0 64, slice bs 0x40 fl, slice bs (0x40 + fl) pl, slice bs (0x40 + fl + pl) 16⟩

/-- An END record of R115. -/
def CellRec.isEnd (r : CellRec) : Bool := r.flags = 2

/-- BLANK of R115. -/
def CellRec.blank (r : CellRec) : Bool := r.flags.testBit 0

/-- The fields every record needs (R118, first row), apart from the instance and cell it must name. -/
def CellRec.headerOk (r : CellRec) (jobId : Nat) : Bool :=
  r.magic = 0x5243594A && 64 ≤ r.length && r.length ≤ 4096 && r.length % 64 = 0 && r.flags ≤ 2 && r.resv = 0 &&
  r.jobId = jobId &&
  (!r.isEnd || (r.length = 64 && r.cell = 0 && r.fieldCount = 0 && r.fieldsLen = 0 && r.payloadLen = 0 &&
    r.serial.all (· = 0#8) && r.nonce.all (· = 0#8)))

/-- The lengths of a record are consistent (R115, R118, second row). -/
def CellRec.lengthsOk (r : CellRec) : Bool :=
  64 + r.fieldsLen + r.payloadLen + 16 ≤ r.length && r.payloadLen ≤ 512

end Sys2Proof.Machine
end

