-- ==== Sys2Proof/Machine/Waves.lean ====
section
/-! DEFINITION. Waveform tables (08): the table layout and its checks (R179, R180, R182, R184), the placement of bursts
under the bank limit (R187) and the width correction (R190, R191). -/

namespace Sys2Proof.Machine

/-- A slot of a slot-map set (R180). -/
structure WSlot where
  mask : Nat
  off : Nat
  wnom : Nat
  wmax : Nat
  deriving DecidableEq, Repr

/-- Fields of a table body (R179). -/
def WaveTab.le (t : WaveTab) (i n : Nat) : Nat := leAt t.body i n
def WaveTab.activeSet (t : WaveTab) : Nat := t.le 0x006 1
def WaveTab.setCount (t : WaveTab) : Nat := t.le 0x007 1
def WaveTab.pitch (t : WaveTab) : Nat := t.le 0x008 2
def WaveTab.lcDiv (t : WaveTab) : Nat := t.le 0x00A 2
def WaveTab.t0 (t : WaveTab) : Int := toSigned 16 (t.le 0x00C 2)
def WaveTab.warmMax (t : WaveTab) : Nat := t.le 0x00E 2
def WaveTab.temp (t : WaveTab) (i : Nat) : Nat := t.le (0x010 + 2 * i) 2
def WaveTab.volt (t : WaveTab) (i : Nat) : Nat := t.le (0x050 + 2 * i) 2
def WaveTab.load (t : WaveTab) (i : Nat) : Nat := t.le (0x0D0 + 2 * i) 2
def WaveTab.trim (t : WaveTab) (i : Nat) : Nat := t.le (0x0F0 + 2 * i) 2
def WaveTab.derate (t : WaveTab) (i : Nat) : Nat := t.le (0x110 + 2 * i) 2

/-- NSLOT of set `s`. -/
def WaveTab.nslot (t : WaveTab) (s : Nat) : Nat := t.le (0x120 + 80 * s) 1

/-- Slot `i` of set `s`. -/
def WaveTab.slot (t : WaveTab) (s i : Nat) : WSlot :=
  let a := 0x120 + 80 * s + 8 + 8 * i
  ⟨t.le a 1, t.le (a + 2) 2, t.le (a + 4) 2, t.le (a + 6) 2⟩

/-- The slots of a set. -/
def WaveTab.slots (t : WaveTab) (s : Nat) : List WSlot := (List.range (t.nslot s)).map (t.slot s)

/-- A warm slot drives nozzles of value 0. -/
def WSlot.warm (w : WSlot) : Bool := w.mask.testBit 0

/-- The rules of R180 for one set. -/
def WaveTab.setOk (t : WaveTab) (s : Nat) : Bool :=
  let a := 0x120 + 80 * s
  let ss := t.slots s
  1 ≤ t.nslot s && t.nslot s ≤ 9 && t.le (a + 1) 7 = 0 &&
  ((List.range 9).all fun i => if i < t.nslot s then t.le (a + 8 + 8 * i + 1) 1 = 0 else t.le (a + 8 + 8 * i) 8 = 0) &&
  (ss.all fun w => w.mask ≠ 0 && w.mask < 16 && (if w.warm then w.mask = 1 && w.wnom = 0 && w.wmax = t.warmMax
    else 50 ≤ w.wnom && w.wnom ≤ 2047 && w.wnom ≤ w.wmax && w.wmax ≤ 2047)) &&
  (ss.filter (·.warm)).length ≤ 1 &&
  ([1, 2, 3].all fun v => (ss.filter fun w => w.mask.testBit v).length ≤ 3) &&
  ((ss.zip (ss.drop 1)).all fun p => p.1.off + p.1.wmax + 20 ≤ p.2.off) &&
  (ss.all fun w => w.off + w.wmax + 20 ≤ t.pitch)

/-- A factor of R179: 0.5 to 1.99994 in Q2.14. -/
def factorOk (v : Nat) : Bool := 8192 ≤ v && v ≤ 32767

/-- The layout of R179 and R180. -/
def WaveTab.ok (t : WaveTab) : Bool :=
  t.body.length = 608 && t.le 0 4 = 0x5457594A && t.le 4 2 = 1 && 1 ≤ t.setCount && t.setCount ≤ 4 &&
  t.activeSet < t.setCount && 100 ≤ t.pitch && t.pitch ≤ 4000 && 1 ≤ t.lcDiv && t.lcDiv ≤ 1024 &&
  50 ≤ t.warmMax && t.warmMax ≤ 300 &&
  ((List.range 32).all fun i => factorOk (t.temp i)) && ((List.range 64).all fun i => factorOk (t.volt i)) &&
  ((List.range 16).all fun i => factorOk (t.load i)) && ((List.range 16).all fun i => factorOk (t.trim i)) &&
  t.trim 0 = 16384 && ((List.range 8).all fun i => factorOk (t.derate i) && t.derate i ≤ 16384) &&
  ((List.range 4).all fun s => if s < t.setCount then t.setOk s else t.le (0x120 + 80 * s) 80 = 0)

/-- The WAVETAB entry that governs a port: that of the nearest unit on its path (R67). -/
def Structure.waveIndex (si : Structure) (waves : List WaveTab) (p : Nat) : Option Nat :=
  (si.path (portH p)).findSome? fun u => waves.findIdx? fun w => w.unit = u

/-- The table that governs a port. -/
def Structure.waveOf (si : Structure) (waves : List WaveTab) (p : Nat) : Option WaveTab :=
  (si.waveIndex waves p).bind fun i => waves[i]?

/-- P_min of R184. -/
def Limits.pMin (l : Limits) : Nat := 1000000000 / l.lineRateMax

/-- The bank entry of a port. -/
def Structure.bank (si : Structure) (b : Nat) : BankCfg := si.banks.getD b ⟨0, 0, 0, 0, 0⟩

/-- T_wave of a port (R184) for a subline delay and a burst pitch. -/
def tWave (l : Limits) (bk : BankCfg) (sd pitch : Nat) : Nat :=
  100 + sd * l.pMin / 65536 + (bk.phases + bk.overflow) * pitch

/-- The placement in progress: slot loads, the ports' last slots and DEFER fields, and which overflow slot each deferred
burst took (port, phase, slot). -/
structure Placement where
  load : List Nat
  last : List Nat
  defer : List Nat
  assign : List (Nat × Nat × Nat)
  blank : Bool
  deriving DecidableEq, Repr

/-- The port to defer: the largest count above 0 not yet deferred in phase `k`, ties to the lower port (R187). -/
def pickPort (cnt : List (List Nat)) (pl : Placement) (k : Nat) : Option Nat :=
  let ok (q : Nat) : Bool := decide (0 < (cnt.getD q []).getD k 0) && !(pl.defer.getD q 0).testBit k
  (List.range cnt.length).foldl (fun best q =>
    if ok q then
      match best with
      | none => some q
      | some b => if (cnt.getD b []).getD k 0 < (cnt.getD q []).getD k 0 then some q else best
    else best) none

/-- Deferrals out of phase `k` until its load fits, `fuel` of them (R187). -/
def deferPhase (f o max : Nat) (cnt : List (List Nat)) (k : Nat) : Nat → Placement → Placement
  | 0, pl => pl
  | n + 1, pl =>
    if pl.blank || pl.load.getD k 0 ≤ max then pl
    else
      match pickPort cnt pl k with
      | none => { pl with blank := true }
      | some q =>
        let c := (cnt.getD q []).getD k 0
        let j? := (List.range (f + o)).find? fun j => pl.last.getD q 0 < j && pl.load.getD j 0 + c ≤ max
        match j? with
        | none => { pl with blank := true }
        | some j =>
          let load := (pl.load.set k (pl.load.getD k 0 - c))
          deferPhase f o max cnt k n
            { load := load.set j (load.getD j 0 + c), last := pl.last.set q j,
              defer := pl.defer.set q (pl.defer.getD q 0 ||| 2 ^ k), assign := pl.assign ++ [(q, k, j)], blank := false }

/-- The placement of R187: counts per port and phase, F, O and BANK_MAX to loads, DEFER fields and the blank verdict. -/
def placeBank (f o max : Nat) (cnt : List (List Nat)) : Placement :=
  let pl0 : Placement := ⟨List.replicate (f + o) 0, cnt.map fun _ => f - 1, cnt.map fun _ => 0, [], false⟩
  (List.range f).foldl (fun pl k =>
    if pl.blank then pl
    else
      let l := cnt.foldl (fun a c => a + c.getD k 0) 0
      deferPhase f o max cnt k (cnt.length + 1) { pl with load := pl.load.set k l }) pl0

/-- The slot in which the burst of phase `k` of port `q` sits (R183). -/
def Placement.slotOf (pl : Placement) (q k : Nat) : Nat :=
  match pl.assign.find? fun a => a.1 = q && a.2.1 = k with
  | some a => a.2.2
  | none => k

/-- f_T of R190. -/
def WaveTab.fT (t : WaveTab) (temp : Int) : Nat := t.temp (clamp 0 31 ((temp - t.t0) / 80)).toNat

/-- u of R190. -/
def voltU (vh vhNom : Nat) : Nat := vh * 8192 / vhNom

/-- f_V of R190. -/
def WaveTab.fV (t : WaveTab) (u : Nat) : Nat :=
  if u ≤ 6144 then t.volt 0
  else if 10176 ≤ u then t.volt 63
  else
    let a := u - 6144
    let i := a / 64
    let r := a % 64
    ((t.volt i : Int) + (((t.volt (i + 1) : Int) - t.volt i) * r + 32) / 64).toNat

/-- f_L of R190. -/
def WaveTab.fL (t : WaveTab) (load : Nat) : Nat := t.load (min 15 (load / t.lcDiv))

/-- f_D of R190 and its index: 16,384 at or below SOFT_T. -/
def WaveTab.fD (t : WaveTab) (temp softT : Int) : Nat :=
  if temp ≤ softT then 16384 else t.derate (min 7 ((temp - softT).toNat / 32))

/-- The corrected width before clamping (R191): one rounding of the exact product. -/
def widthRaw (wnom fT fV fL fR fD : Nat) : Nat := (wnom * fT * fV * fL * fR * fD + 2 ^ 69) / 2 ^ 70

/-- The width of a drop pulse (R191): clamped to 50 to WMAX ns. -/
def pulseWidth (wnom wmax fT fV fL fR fD : Nat) : Nat := max 50 (min wmax (widthRaw wnom fT fV fL fR fD))

end Sys2Proof.Machine
end

