-- ==== Sys2Proof/Machine/Image.lean ====
section
/-! DEFINITION. Structure images (03): the header, section table and sections, the checks repeated at load (R57 to R68,
R70), and what a full or a partial image makes of the structure in force (R69, R72). -/

namespace Sys2Proof.Machine

/-- Codes of BU_SI_STATUS.ERR. -/
inductive SiErr where
  | magic | stepping | size | key | signature | crc | base | sect | structure | budget | mode | busy | hold | abort
  deriving DecidableEq, Repr

/-- The code of an error. -/
def SiErr.code : SiErr → Nat
  | .magic => 1 | .stepping => 2 | .size => 3 | .key => 4 | .signature => 5 | .crc => 6 | .base => 7 | .sect => 8
  | .structure => 9 | .budget => 10 | .mode => 11 | .busy => 12 | .hold => 13 | .abort => 14

/-- A refusal: its code and the failing section table entry, 0xFF for the header or the signature. -/
structure SiRefusal where
  err : SiErr
  sect : Nat
  deriving DecidableEq, Repr

/-- A check that ends a load with an error where it fails. -/
def need (c : Bool) (e : SiErr) (sec : Nat := 0xFF) : Except SiRefusal Unit := if c then .ok () else .error ⟨e, sec⟩

/-- Every byte is 0. -/
def allZero (bs : List Byte) : Bool := bs.all (· = 0#8)

/-- The header checks of R58. Fields reported as MAGIC come first (log entry 20), then STEPPING, SIZE, KEY. -/
def checkHeader (img : List Byte) (part : Bool) : Except SiRefusal Unit := do
  let g (i n : Nat) := leAt img i n
  need (g 0 4 = 0x4953594A && g 4 2 = 1 && g 6 2 = 128 && g 0x0F 1 / 4 = 0 && (g 0x0F 1 % 2 = b2n part) &&
    g 0x28 4 < 0x1000000 && (part || (g 0x28 4 = 0 && g 0x30 48 = 0)) && g 0x11 3 = 0 && g 0x2C 4 = 0 && g 0x60 32 = 0) .magic
  need (g 0x10 1 = 0) .stepping
  need (g 8 4 = img.length && 512 ≤ g 8 4 && g 8 4 ≤ 4194304 && g 8 4 % 16 = 0 && 1 ≤ g 0x0C 2 && g 0x0C 2 ≤ 16) .size
  need (g 0x0E 1 ≤ 3) .key

/-- A section table entry (R59): index, type, version, offset, length, CRC. -/
structure SectEntry where
  idx : Nat
  ty : Nat
  sver : Nat
  off : Nat
  len : Nat
  crc : Nat
  deriving DecidableEq, Repr

/-- The section table. -/
def sectTable (img : List Byte) : List SectEntry :=
  (List.range (leAt img 0x0C 2)).map fun i =>
    let a := 128 + 16 * i
    ⟨i, leAt img a 2, leAt img (a + 2) 2, leAt img (a + 4) 4, leAt img (a + 8) 4, leAt img (a + 12) 4⟩

/-- The body of a section. -/
def SectEntry.body (e : SectEntry) (img : List Byte) : List Byte := slice img e.off e.len

/-- The layout of R57: bodies aligned, inside the image, disjoint; every other byte 0. -/
def layoutOk (img : List Byte) (t : List SectEntry) : Bool :=
  let head := 128 + 16 * t.length
  let tail := img.length - 104
  (t.all fun e => e.off % 16 = 0 && head ≤ e.off && e.off + e.len ≤ tail) &&
  (t.all fun e => t.all fun f => e.idx = f.idx || e.off + e.len ≤ f.off || f.off + f.len ≤ e.off) &&
  ((img.zipIdx).all fun x => x.1 = 0#8 || x.2 < head || tail ≤ x.2 ||
    t.any fun e => e.off ≤ x.2 && x.2 < e.off + e.len)

/-- The signature block (R68) checked under a public key: its own fields, then ECDSA over the digest. -/
def checkSignature (bs : List Byte) (keyIdx : Nat) (pub : Option (List Byte)) : Except SiRefusal (List Byte) := do
  let n := bs.length - 104
  let d := sha384 (bs.take n)
  match pub with
  | none => .error ⟨.key, 0xFF⟩
  | some k =>
    need (leAt bs n 4 = 0x4753594A && leAt bs (n + 4) 1 = keyIdx && leAt bs (n + 5) 3 = 0 &&
      P384.verify k d (slice bs (n + 8) 96)) .signature
    return d

/-- TREE entries with their own settings (R60, R61). -/
structure TreeBody where
  depth : Nat
  nodes : List TreeNode
  cfgs : List (Nat × UnitCfg)
  deriving DecidableEq, Repr

/-- The TREE section: nothing where a field is out of its range or the handles are not ascending. -/
def parseTree (b : List Byte) : Option TreeBody :=
  let n := leAt b 0 4
  let es := (List.range n).map fun i => (b.drop (16 + 16 * i)).take 16
  let hk (e : List Byte) := leAt e 0 4
  let h (e : List Byte) := hk e % 0x1000000
  let ok (e : List Byte) : Bool :=
    e.length = 16 && (kindOf (h e)).map Kind.code = some (hk e / 0x1000000) && kindOf (h e) ≠ some .nozzle &&
    leAt e 4 4 < 0x1000000 && leAt e 8 1 ≤ 1 && leAt e 9 1 < 16 && leAt e 10 2 ≤ 1023 && leAt e 12 2 ≤ 16383 &&
    leAt e 14 2 = 0 && (kindOf (h e) ≠ some .row || leAt e 12 2 = 0)
  if b.length = 16 + 16 * n && leAt b 5 11 = 0 && es.all ok &&
      ((es.zip (es.drop 1)).all fun p => h p.1 < h p.2) then
    some ⟨leAt b 4 1, es.map fun e => ⟨h e, hk e / 0x1000000, leAt e 4 4⟩,
      es.map fun e => (h e, ⟨leAt e 8 1 = 1, leAt e 9 1, leAt e 10 2, leAt e 12 2⟩)⟩
  else none

/-- The tree checks of R70: one ROOT, parents of the right kind that lead to ROOT, no GROUP without children, ROW entries
with their fixed parent, TREE_DEPTH equal to the depth of the deepest NOZZLE unit and at most 255 (R34, R61). A tree without a
port has no NOZZLE unit, and its TREE_DEPTH must be 0 (the model's choice, log entry 20). -/
def treeOk (si : Structure) : Bool :=
  let ports := (List.range 64).filter si.portValid
  let depth := (ports.map fun p => si.depth (portH p) + 2).foldl max 0
  (si.nodes.filter fun n => n.handle = 0).length = 1 &&
  (si.nodes.all fun n =>
    match kindOf n.handle with
    | some .root => n.parent = 0xFFFFFF
    | some .row => n.parent = portH ((n.handle - 0x10100) / 2) && si.portValid ((n.handle - 0x10100) / 2)
    | some .group => ((kindOf n.parent = some .root || kindOf n.parent = some .group) && (si.node? n.parent).isSome &&
        !(si.children n.handle).isEmpty && (si.path n.handle).contains 0)
    | some _ => ((kindOf n.parent = some .root || kindOf n.parent = some .group) && (si.node? n.parent).isSome &&
        (si.path n.handle).contains 0)
    | none => false) &&
  si.treeDepth = depth && depth ≤ 255

/-- Effective delays of every unit of this controller within R35. -/
def delaysOk (si : Structure) (own : AMap UnitCfg) (pld psd : Nat) : Bool :=
  let rows := ((List.range 64).filter si.portValid).flatMap fun p => [rowH p 0, rowH p 1]
  ((si.nodes.map (·.handle)) ++ rows).all fun h => pld + effLd si own h ≤ 1023 && psd + effSd si own h ≤ 16383

/-- Own settings of TREE entries laid over a map. -/
def putCfgs (own : AMap UnitCfg) (cs : List (Nat × UnitCfg)) : AMap UnitCfg :=
  cs.foldl (fun m c => AMap.set unitCfgDefault m c.1 c.2) own

/-- A PORTMAP port entry; its reserved bytes 0. -/
def parsePort (b : List Byte) : Option PortCfg :=
  if leAt b 0 4 < 0x80000 && leAt b 6 10 = 0 then some ⟨leAt b 0 4, leAt b 4 2⟩ else none

/-- A PORTMAP bank entry. -/
def parseBank (b : List Byte) : BankCfg := ⟨leAt b 0 4, leAt b 4 2, leAt b 6 1, leAt b 7 1, leAt b 8 2⟩

/-- The ranges of a bank entry in use. -/
def bankOk (k : BankCfg) : Bool :=
  40000 ≤ k.hpclkKhz && k.hpclkKhz ≤ 320000 && 1 ≤ k.bankMax && k.bankMax ≤ 8192 && 1 ≤ k.phases && k.phases ≤ 16 &&
  k.overflow ≤ 8 && k.phases + k.overflow ≤ 16 && 1000 ≤ k.vhNom

/-- A bank that holds a valid port. -/
def Structure.bankUsed (si : Structure) (b : Nat) : Bool := (List.range 4).any fun i => si.portValid (4 * b + i)

/-- PORTMAP of a full image: entries in use in range, others zero. -/
def portMapOk (si : Structure) (b : List Byte) : Bool :=
  b.length = 1280 &&
  ((List.range 64).all fun p =>
    let e := slice b (16 * p) 16
    if si.portValid p then (parsePort e).isSome else allZero e) &&
  ((List.range 16).all fun k =>
    let e := slice b (1024 + 16 * k) 16
    if si.bankUsed k then bankOk (parseBank e) && leAt e 10 6 = 0 else allZero e)

/-- Line programs of a section body, `n` of them. -/
def parseProgs : Nat → List Byte → Option (List LineProg)
  | 0, b => if b.isEmpty then some [] else none
  | n + 1, b =>
    let len := leAt b 2 2
    if 6 ≤ len && len ≤ 70 && 4 + 4 * len ≤ b.length then
      (parseProgs n (b.drop (4 + 4 * len))).map fun ps =>
        ⟨leAt b 0 2, (List.range len).map fun i => leAt b (4 + 4 * i) 4⟩ :: ps
    else none

/-- The LINEPROG section: PROG_COUNT, then the programs, then zero padding to no more than the body. -/
def parseLineProg (b : List Byte) : Option (List LineProg) :=
  if 1 ≤ leAt b 0 2 && leAt b 0 2 ≤ 16 && leAt b 2 2 = 0 then parseProgs (leAt b 0 2) (b.drop 4) else none

/-- RASTER of a program's FETCH word. -/
def LineProg.raster (p : LineProg) : Bool := (p.words.getD 0 0).testBit 23

/-- PLANE of a program's FETCH word. -/
def LineProg.plane (p : LineProg) : Nat := bits (p.words.getD 0 0) 27 24

/-- The MERGE words of a program: mode and layer, in order. -/
def LineProg.merges (p : LineProg) : List (Nat × Nat) :=
  (p.words.filter fun w => w / 0x10000000 = 2).map fun w => (bits w 27 26, bits w 21 16)

/-- The word order and fields of R62 and R63, with at most `layers` MERGE words. -/
def LineProg.ok (p : LineProg) (layers : Nat) : Bool :=
  let n := p.words.length
  let mid := (p.words.drop 1).take (n - 6)
  let w0 := p.words.getD 0 0
  let ms := p.merges.map (·.2)
  6 ≤ n && w0 / 0x10000000 = 1 && w0 % 0x800000 = 0 &&
  (mid.all fun w => w / 0x10000000 = 2 && bits w 27 26 ≠ 3 && bits w 25 22 = 0 && w % 0x10000 = 0) &&
  p.words.drop (n - 5) = [0x30000000, 0x40000000, 0x50000000, 0x60000000, 0xF0000000] &&
  mid.length ≤ layers && ms.length = mid.length && ms.eraseDups.length = ms.length && (!p.raster || mid.isEmpty)

/-- The worst-case cost of a program (R14, R63). -/
def LineProg.cost (p : LineProg) : Nat := 16 + 256 + 76 * p.merges.length + 528 + 528 + 160 + 84

/-- Engines are named by exactly one program where their bank holds a valid port, by none otherwise (R63). -/
def enginesOk (si : Structure) : Bool :=
  (List.range 16).all fun e =>
    (si.progs.filter fun p => p.mask.testBit e).length = (if si.bankUsed e then 1 else 0)

/-- The LOOPPROG section: code words and the context table. -/
def parseLoop (b : List Byte) : Option (List Nat × List CtxCfg) :=
  let n := leAt b 0 2
  let t := 4 + 4 * n
  let ce (i : Nat) := slice b (t + 16 * i) 16
  if 1 ≤ n && n ≤ 2048 && leAt b 2 2 = 0 && b.length = t + 1024 &&
      ((List.range 64).all fun i =>
        let e := ce i
        leAt e 0 1 ≤ 1 && leAt e 1 1 ≤ 2 && (leAt e 0 1 = 0 || 1 ≤ leAt e 2 2) && leAt e 8 4 < 0x1000000 && leAt e 14 2 = 0) then
    some ((List.range n).map fun i => leAt b (4 + 4 * i) 4,
      (List.range 64).map fun i =>
        let e := ce i
        ⟨leAt e 0 1 = 1, leAt e 1 1, leAt e 2 2, leAt e 4 2, leAt e 6 2, leAt e 8 4, leAt e 12 2⟩)
  else none

/-- The LOOPPARAM section: 2,048 Q15 words. -/
def parseParams (b : List Byte) : Option (List Nat) :=
  if b.length = 4096 then some ((List.range 2048).map fun i => leAt b (2 * i) 2) else none

/-- The SLOTTAB section with its background floor check (R70). HSTR is requester 0, CAMW requester 4. -/
def parseSlots (b : List Byte) : Option (List SlotTab) :=
  let es := (List.range 20).map fun i =>
    let e := slice b (272 * i) 272
    (leAt e 3 1, (⟨leAt e 0 1, leAt e 1 1, leAt e 2 1, leAt e 4 8, leAt e 12 2, leAt e 14 2,
      (List.range 256).map fun k => leAt e (16 + k) 1⟩ : SlotTab))
  if b.length = 5440 && (es.all fun e => e.1 = 0 && e.2.arb ≤ 9 && e.2.set ≤ 1 &&
        4 ≤ e.2.bgFloor && e.2.bgFloor ≤ 64 && e.2.bgFloor ≤ (e.2.slots.filter fun x => x ≠ 0 && x ≠ 4).length &&
        (e.2.slots.all fun x => x ≤ 11 || x = 0xFF)) &&
      ((List.range 10).all fun a => (List.range 2).all fun k =>
        (es.filter fun e => e.2.arb = a && e.2.set = k).length = 1) then
    some (es.map (·.2))
  else none

/-- The GATING section (R65). -/
def parseGating (b : List Byte) : Option (List GateCfg) :=
  let es := (List.range 9).map fun i =>
    let e := slice b (16 * i) 16
    (e, (⟨leAt e 0 8, leAt e 8 1, leAt e 9 1, leAt e 10 4⟩ : GateCfg))
  if b.length = 144 && (es.all fun e => e.2.mask ≠ 0 && (e.2.cls = 3 || e.2.cls = 4) && e.2.filter ≤ 50 &&
        e.2.unit < 0x1000000 && leAt e.1 14 2 = 0) &&
      (es.drop 7).all (fun e => e.2.mask = 2 ^ 64 - 1) then
    some (es.map (·.2))
  else none

/-- The EVENTMAP section (R66, R438). -/
def parseEvents (b : List Byte) : Option (List EventCfg) :=
  let n := leAt b 0 2
  let es := (List.range n).map fun i =>
    let e := slice b (4 + 12 * i) 12
    (e, (⟨leAt e 0 2, leAt e 2 1, leAt e 3 1, leAt e 4 4, leAt e 8 1⟩ : EventCfg))
  if b.length = 4 + 12 * n && leAt b 2 2 = 0 && ((es.zip (es.drop 1)).all fun p => p.1.2.id < p.2.2.id) &&
      (es.all fun e =>
        (match eventClass e.2.id with
          | some k => decide (k ≤ e.2.cls)
          | none => false) &&
        e.2.cls ≤ 4 && (e.2.irq ≤ 2 || e.2.irq = 0xFF) && e.2.unit < 0x1000000 && e.2.flags ≤ 3 &&
        (e.2.flags % 2 = 0 || e.2.cls = 4) && leAt e.1 9 3 = 0) then
    some (es.map (·.2))
  else none

/-- The LIMITS section; nothing where a value leaves its range. -/
def parseLimits (b : List Byte) : Option Limits :=
  let g (i n : Nat) := leAt b i n
  let soft := toSigned 16 (g 0x12 2)
  let hard := toSigned 16 (g 0x14 2)
  if b.length = 64 && 1000 ≤ g 0 4 && g 0 4 ≤ 128000 && g 4 1 ≤ 64 && 2 ≤ g 5 1 && g 5 1 ≤ 64 && g 5 1 ≤ g 6 2 &&
      g 6 2 ≤ 4096 && 8 ≤ g 8 2 && g 8 2 ≤ 16384 && g 10 2 ≤ 16384 && 1 ≤ g 12 2 && g 12 2 ≤ 32768 && 16 ≤ g 14 2 &&
      g 16 1 ≤ 1 && g 17 1 = 0 && -640 ≤ soft && soft ≤ 2400 && soft < hard && hard ≤ 2400 && g 0x16 2 = 0 &&
      1000 ≤ g 0x18 4 && g 0x18 4 ≤ 3600000 && (g 0x1C 4 = 0 || 1024 ≤ g 0x1C 4) && g 0x20 32 = 0 then
    some ⟨g 0 4, g 4 1, g 5 1, g 6 2, g 8 2, g 10 2, g 12 2, g 14 2, g 16 1 = 1, soft, hard, g 0x18 4, g 0x1C 4⟩
  else none

/-- Waveform entries of a section body, `n` of them; each table body 608 bytes (R179). -/
def parseWaves : Nat → List Byte → Option (List WaveTab)
  | 0, b => if b.isEmpty then some [] else none
  | n + 1, b =>
    if leAt b 0 4 < 0x1000000 && leAt b 4 4 = 608 && 616 ≤ b.length then
      let t : WaveTab := ⟨leAt b 0 4, slice b 8 608⟩
      if t.ok then (parseWaves n (b.drop 616)).map (t :: ·) else none
    else none

/-- The WAVETAB section. -/
def parseWaveTab (b : List Byte) : Option (List WaveTab) :=
  let n := leAt b 0 2
  if 1 ≤ n && n ≤ 48 && leAt b 2 2 = 0 then parseWaves n (b.drop 4) else none

/-- R67 and R182: entries name distinct valid ports or groups, cover every valid port, and agree on PITCH within a bank. -/
def wavesOk (si : Structure) : Bool :=
  let us := si.waves.map (·.unit)
  us.eraseDups.length = us.length &&
  (us.all fun u => si.valid u && (kindOf u = some .port || kindOf u = some .group)) &&
  ((List.range 64).all fun p => !si.portValid p || (si.waveOf si.waves p).isSome) &&
  ((List.range 16).all fun b =>
    let ps := ((List.range 4).map (4 * b + ·)).filter si.portValid
    (ps.filterMap fun p => (si.waveOf si.waves p).map (·.pitch)).eraseDups.length ≤ 1)

/-- R13: the line period at LINE_RATE_MAX is at least 100 ns + T_shift of the slowest bank. -/
def periodOk (si : Structure) : Bool :=
  let rate := si.limits.lineRateMax
  (List.range 16).all fun b => !si.bankUsed b ||
    decide (rate * (200 * (si.bank b).hpclkKhz + 4128000000) ≤ 1000000000 * (2 * (si.bank b).hpclkKhz))

/-- R13: every T_wave lies within the line period at LINE_RATE_MAX. -/
def waveFits (si : Structure) (own : AMap UnitCfg) (psd : Nat) : Bool :=
  (List.range 64).all fun p => !si.portValid p ||
    match si.waveOf si.waves p with
    | some t => decide (si.limits.lineRateMax * tWave si.limits (si.bank (p / 4)) (psd + effSd si own (portH p)) t.pitch ≤ 1000000000)
    | none => false

/-- R15: every program fits the composition budget. -/
def budgetOk (si : Structure) : Bool :=
  si.progs.all fun p => p.cost + 1024 ≤ 1000000000 / si.limits.lineRateMax

/-- What a load yields: the structure and own settings to put in force, and the digest of the image. -/
structure Loaded where
  si : Structure
  own : AMap UnitCfg
  digest : List Byte
  deriving DecidableEq, Repr

/-- A section that must be there and must parse. R60 gives no code for one that is absent: the model reports SECTION with
FAIL_SECTION 0xFF (its choice, log entry 20). -/
def getSect {α : Type} (img : List Byte) (t : List SectEntry) (ty : Nat) (f : List Byte → Option α) (e : SiErr) :
    Except SiRefusal α :=
  match t.find? fun s => s.ty = ty with
  | none => .error ⟨.sect, 0xFF⟩
  | some s =>
    match f (s.body img) with
    | some x => .ok x
    | none => .error ⟨e, s.idx⟩

/-- The index of a section for FAIL_SECTION. -/
def sectIdx (t : List SectEntry) (ty : Nat) : Nat := ((t.find? fun s => s.ty = ty).map (·.idx)).getD 0xFF

/-- The section table checks of R59 and R60 and the CRCs: `allowed` tells which types the load admits. An SVER other than 1 and a
TYPE that appears twice are reported as SECTION, a layout that breaks R57 with FAIL_SECTION 0xFF (the model's choice, log
entry 20). -/
def checkSections (img : List Byte) (allowed : Nat → Bool) : Except SiRefusal (List SectEntry) := do
  let t := sectTable img
  need (layoutOk img t) .size
  match t.find? fun s => !(allowed s.ty && s.sver = 1 && (t.filter fun x => x.ty = s.ty).length = 1) with
  | some s => .error ⟨.sect, s.idx⟩
  | none =>
    match t.find? fun s => crc32 (s.body img) ≠ s.crc with
    | some s => .error ⟨.crc, s.idx⟩
    | none => return t

/-- A full image (R57 to R68, R70, R71 steps 1 to 3). `pub` gives the key of an IMAGE VERIFY slot; `pld` and `psd` are the
parent's delays of R52. A SLOTTAB that breaks its rules or the background floor is reported as STRUCTURE (the model's choice,
log entry 20). -/
def loadFull (img : List Byte) (pub : Nat → Option (List Byte)) (pld psd : Nat) : Except SiRefusal Loaded := do
  checkHeader img false
  let d ← checkSignature img (leAt img 0x0E 1) (pub (leAt img 0x0E 1))
  let t ← checkSections img (fun ty => 1 ≤ ty && ty ≤ 10)
  let tree ← getSect img t 1 parseTree .structure
  let pm ← getSect img t 2 some .structure
  let progs ← getSect img t 3 parseLineProg .structure
  let loop ← getSect img t 4 parseLoop .structure
  let params ← getSect img t 5 parseParams .structure
  let slots ← getSect img t 6 parseSlots .structure
  let gating ← getSect img t 7 parseGating .structure
  let events ← getSect img t 8 parseEvents .structure
  let limits ← getSect img t 9 parseLimits .budget
  let waves ← getSect img t 10 parseWaveTab .structure
  let si : Structure := {
    loaded := true, testEn := (leAt img 0x0F 1).testBit 1, treeDepth := tree.depth, nodes := tree.nodes,
    ports := (List.range 64).map fun p => (parsePort (slice pm (16 * p) 16)).getD ⟨0, 0⟩,
    banks := (List.range 16).map fun b => parseBank (slice pm (1024 + 16 * b) 16),
    progs := progs, code := loop.1, ctxs := loop.2, params := params, slots := slots, gating := gating, events := events,
    limits := limits, waves := waves }
  let own := putCfgs [] tree.cfgs
  need (treeOk si) .structure (sectIdx t 1)
  need (portMapOk si pm) .structure (sectIdx t 2)
  need (delaysOk si own pld psd) .structure (sectIdx t 1)
  need (wavesOk si) .structure (sectIdx t 10)
  need (periodOk si) .budget (sectIdx t 9)
  need (waveFits si own psd) .budget (sectIdx t 10)
  need (progs.all (·.ok limits.mergeLayers) && enginesOk si) .structure (sectIdx t 3)
  need (budgetOk si) .budget (sectIdx t 3)
  return ⟨si, own, d⟩

/-- Whether two tables hold the same slot-map sets (R168) and their active sets drive the same values (R181). -/
def sameSets (a b : WaveTab) : Bool :=
  slice a.body 0x120 320 = slice b.body 0x120 320 &&
  ([1, 2, 3].all fun v => ((a.slots a.activeSet).any fun w => w.mask.testBit v) =
    ((b.slots b.activeSet).any fun w => w.mask.testBit v))

/-- A list with the elements at non-zero blocks of another taken over. -/
def overlay {α : Type} (zero : α → Bool) (old new : List α) : List α :=
  (old.zip new).map fun p => if zero p.2 then p.1 else p.2

/-- A context entry a partial image does not carry. -/
def CtxCfg.absent (c : CtxCfg) : Bool := c = ⟨false, 0, 0, 0, 0, 0, 0⟩

/-- A partial image over the structure in force (R72, R73): entries of the subtree replace those in force, zero entries of
the fixed-length sections are not carried, and nothing outside the subtree may be named. The model's choices (log entry 20): TEST_EN
of a partial image is not looked at; a unit of the subtree that its TREE section omits stays as it is; a partial image that
leaves a valid port without a WAVETAB entry is refused with STRUCTURE. -/
def loadPartial (img : List Byte) (pub : Nat → Option (List Byte)) (inPrint : Bool) (m : List Byte) (si : Structure)
    (own : AMap UnitCfg) (pld psd : Nat) : Except SiRefusal Loaded := do
  checkHeader img true
  let root := leAt img 0x28 4
  need (slice img 0x30 48 = m) .base
  let d ← checkSignature img (leAt img 0x0E 1) (pub (leAt img 0x0E 1))
  need (si.valid root && (kindOf root = some .group || kindOf root = some .port)) .sect
  let t ← checkSections img (fun ty => if inPrint then ty = 5 || ty = 10 else ty = 10 || (1 ≤ ty && ty ≤ 5))
  let has (ty : Nat) : Bool := t.any fun s => s.ty = ty
  -- TREE: units of the subtree; the parent of its root stays
  let (si1, own1) ← if has 1 then do
      let tree ← getSect img t 1 parseTree .structure
      let merged := (si.nodes.filter fun n => !(tree.nodes.any fun x => x.handle = n.handle)) ++ tree.nodes
      let nodes := merged.mergeSort (fun a b => a.handle ≤ b.handle)
      let s1 : Structure := { si with nodes := nodes, treeDepth := tree.depth }
      need (tree.nodes.all fun n => s1.below root n.handle && (!si.valid n.handle || si.below root n.handle) &&
        (n.handle ≠ root || some n.parent = si.parent root)) .sect
        (sectIdx t 1)
      need (treeOk s1) .structure (sectIdx t 1)
      pure (s1, putCfgs own tree.cfgs)
    else pure (si, own)
  need (delaysOk si1 own1 pld psd) .structure (sectIdx t 1)
  let inSub (h : Nat) : Bool := si1.below root h
  -- PORTMAP: ports of the subtree, banks wholly inside it
  let si2 ← if has 2 then do
      let pm ← getSect img t 2 (fun b => if b.length = 1280 then some b else none) .structure
      let pe (p : Nat) := slice pm (16 * p) 16
      let be (b : Nat) := slice pm (1024 + 16 * b) 16
      need ((List.range 64).all fun p => allZero (pe p) || inSub (portH p)) .sect (sectIdx t 2)
      need ((List.range 16).all fun b => allZero (be b) || (List.range 4).all fun i => inSub (portH (4 * b + i))) .sect (sectIdx t 2)
      need (((List.range 64).all fun p => allZero (pe p) || (parsePort (pe p)).isSome) &&
        (List.range 16).all fun b => allZero (be b) || (bankOk (parseBank (be b)) && leAt (be b) 10 6 = 0)) .structure (sectIdx t 2)
      pure { si1 with
        ports := (List.range 64).map fun p => if allZero (pe p) then si1.ports.getD p ⟨0, 0⟩ else (parsePort (pe p)).getD ⟨0, 0⟩
        banks := (List.range 16).map fun b => if allZero (be b) then si1.bank b else parseBank (be b) }
    else pure si1
  need ((List.range 16).all fun b => !si2.bankUsed b || bankOk (si2.bank b)) .structure (sectIdx t 2)
  -- LINEPROG: engines whose four ports all lie in the subtree
  let si3 ← if has 3 then do
      let ps ← getSect img t 3 parseLineProg .structure
      let mask := ps.foldl (fun a p => a ||| p.mask) 0
      need ((List.range 16).all fun e => !mask.testBit e || (List.range 4).all fun i => inSub (portH (4 * e + i))) .sect (sectIdx t 3)
      let kept := (si2.progs.map fun p => { p with mask := p.mask ^^^ (p.mask &&& mask) }).filter fun p => p.mask ≠ 0
      pure { si2 with progs := kept ++ ps }
    else pure si2
  need (si3.progs.all (·.ok si3.limits.mergeLayers) && enginesOk si3) .structure (sectIdx t 3)
  -- LOOPPROG: contexts owned in the subtree, code inside their running ranges
  let si4 ← if has 4 then do
      let lp ← getSect img t 4 parseLoop .structure
      need (((si3.ctxs.zip lp.2).all fun p => p.2.absent || (inSub p.1.owner && inSub p.2.owner))) .sect (sectIdx t 4)
      let covered (i : Nat) : Bool := (si3.ctxs.zip lp.2).any fun p =>
        !p.2.absent && p.1.entry ≤ i && i < p.1.entry + p.1.codeLen
      need ((lp.1.zipIdx).all fun x => x.1 = 0 || covered x.2) .sect (sectIdx t 4)
      pure { si3 with
        code := (si3.code.zipIdx).map fun x => if covered x.2 then lp.1.getD x.2 0 else x.1
        ctxs := overlay CtxCfg.absent si3.ctxs lp.2 }
    else pure si3
  -- LOOPPARAM: parameter blocks of contexts owned in the subtree
  let si5 ← if has 5 then do
      let ps ← getSect img t 5 parseParams .structure
      let blk (c : Nat) := (ps.drop (32 * c)).take 32
      need ((List.range 64).all fun c => (blk c).all (· = 0) || inSub ((si4.ctxs.getD c ⟨false, 0, 0, 0, 0, 0, 0⟩).owner)) .sect (sectIdx t 5)
      pure { si4 with params := (List.range 64).flatMap fun c =>
        if (blk c).all (· = 0) then (si4.params.drop (32 * c)).take 32 else blk c }
    else pure si4
  -- WAVETAB: entries whose unit lies in the subtree
  let si6 ← if has 10 then do
      let ws ← getSect img t 10 parseWaveTab .structure
      need (ws.all fun w => inSub w.unit) .sect (sectIdx t 10)
      let us := ws.map (·.unit)
      need (us.eraseDups.length = us.length) .structure (sectIdx t 10)
      pure { si5 with waves := (si5.waves.filter fun w => !us.contains w.unit) ++ ws }
    else pure si5
  need (wavesOk si6) .structure (sectIdx t 10)
  need (!inPrint || (List.range 64).all fun p =>
    match si.waveOf si.waves p, si6.waveOf si6.waves p with
    | some a, some b => sameSets a b
    | none, none => true
    | _, _ => false) .structure (sectIdx t 10)
  need (periodOk si6) .budget (sectIdx t 2)
  need (waveFits si6 own1 psd) .budget (sectIdx t 10)
  need (budgetOk si6) .budget (sectIdx t 3)
  return ⟨si6, own1, d⟩

end Sys2Proof.Machine
end

