-- ==== Sys2Proof/Machine/UnitTree.lean ====
section
/-! DEFINITION. The UT windows (02): snapshots (R55), commands with their checks and effects (R45 to R47, R50, R51), and what is
forwarded over the rope (R45, R52). -/

namespace Sys2Proof.Machine

/-! ## Snapshots -/

/-- The own enable of a unit as last set, a change that still waits included (UT_CFG.EN). -/
def State.enLastSet (s : State) (h : Nat) : Bool :=
  let pend (e : Bool) (r : NhReq) : Bool := match r with
    | .enable u en => if u = h then en else e
    | _ => e
  let e := s.nh.queue.foldl (fun e q => pend e q.req) (s.nh.unitsDue.foldl (fun e u => pend e u.2) (ownOf s.ut.own h).en)
  match s.ut.cmd with
  | some c => if c.code = 1 && c.handle = h && !c.applied && c.chip = s.index then c.arg.testBit 0 else e
  | none => e

/-- The words at offsets 0x04 to 0x24 of a window for a unit of this controller, with SNAP_READY (R55); VALID 0 and zeros for
a handle that is not valid. -/
def State.snapshot (s : State) (h : Nat) : List Nat :=
  if !s.si.valid h then [2 ^ 30, 0, 0, 0, 0, 0, 0, 0, 0]
  else
    let k := ((kindOf h).getD .root).code
    let o := ownOf s.ut.own h
    let c := s.counters h
    let d := if k = 5 then unitDynDefault 0 else s.dyn h
    let geom := if k = 2 then (h - 0x10000) / 4 * 2 ^ 20 + (s.si.ports.getD (h - 0x10000) ⟨0, 0⟩).geom % 2 ^ 19 else 0
    [2 ^ 31 + 2 ^ 30 + k * 2 ^ 24 + s.si.depth h * 2 ^ 16 + (s.si.children h).length % 2 ^ 16,
     (s.si.parent h).getD 0xFFFFFF,
     b2n (s.enLastSet h) * 2 ^ 31 + b2n (s.enabled h) * 2 ^ 30 + o.trim * 2 ^ 20 + effTrim s.si s.ut.own h * 2 ^ 16 + o.ldelay,
     s.subDelay h * 2 ^ 16 + o.sldelay,
     s.lineDelay h * 2 ^ 16 + b2n d.void * 2 ^ 9 + b2n d.warn * 2 ^ 8 + s.ownStatus h * 2 ^ 4 + s.dome h,
     c.1, c.2.1, c.2.2, geom]

/-- Snapshot words stored in a window. -/
def State.storeSnap (s : State) (w : Nat) (ws : List Nat) : State :=
  (ws.zipIdx).foldl (fun s p => s.wrN (Reg.UT_INFO w + 4 * p.2) p.1) s

/-- A snapshot that names no reachable unit (R55). -/
def State.snapFail (s : State) (w : Nat) : State :=
  { s with ut := { s.ut with snapWait := s.ut.snapWait.filter fun p => p.1 ≠ w } }.storeSnap w [2 ^ 30, 0, 0, 0, 0, 0, 0, 0, 0]

/-- The address of a register of UT window 7 (R333). -/
def utOf7 (f : Nat → Nat) : Nat := f 7

/-- UT_SEL_WRITE (R55). -/
def State.utSelect (s : State) (w : Nat) (d : Word) : State :=
  let s := (s.wr (Reg.UT_SEL w) d).setFld (Reg.UT_INFO w) F.UT_INFO_SNAP_READY 0
  let s := { s with ut := { s.ut with snapWait := s.ut.snapWait.filter fun p => p.1 ≠ w },
                    hl := { s.hl with fwd := s.hl.fwd.filter fun f => f.cmd || f.win ≠ w } }
  let c := F.UT_SEL_CHIP.get d
  if c = s.index then s.storeSnap w (s.snapshot (F.UT_SEL_HANDLE.get d))
  else if !s.reachable c then s.snapFail w
  else
    let s := { s with ut := { s.ut with snapWait := s.ut.snapWait ++ [(w, s.now)] } }
    let s := s.sendReq c 1 (utOf7 Reg.UT_SEL) 4 (leBytes 4 d.toNat) w false 0
    s.sendReq c 2 (utOf7 Reg.UT_INFO) 36 [] w false 1

/-- UT_SNAPSHOT_TIMEOUT (R55). -/
def State.snapTimeout (s : State) (w : Nat) : State :=
  if s.ut.snapWait.any fun p => p.1 = w then
    { s with hl := { s.hl with fwd := s.hl.fwd.filter fun f => f.cmd || f.win ≠ w } }.snapFail w
  else s

/-- UT_CHILD of a window: child INDEX in ascending handle order; 0 where UT_SEL names a unit of another controller (log
entry 26). -/
def State.utChild (s : State) (w : Nat) : Word :=
  let h := s.fld (Reg.UT_SEL w) F.UT_SEL_HANDLE
  if s.fld (Reg.UT_SEL w) F.UT_SEL_CHIP ≠ s.index || !s.si.valid h then 0
  else match (s.si.children h)[s.fld (Reg.UT_CHILD_SEL w) F.UT_CHILD_SEL_INDEX]? with
    | some c => BitVec.ofNat 32 (2 ^ 31 + c)
    | none => 0

/-- Registers of UT that follow from the tree. -/
def State.utView (s : State) (addr : Nat) : Option Word :=
  (List.range 8).findSome? fun w => if addr = Reg.UT_CHILD w then some (s.utChild w) else none

/-! ## Commands -/

/-- Line ticks count as running for 1 ms after the last one (R47, log entry 28). -/
def State.ticksRun (s : State) : Bool := match s.wp.tickAt with
  | some t => decide (s.now - t < 1000000)
  | none => false

/-- Modes that accept a command (R45). -/
def utModes (code : Nat) : List Mode := match code with
  | 0x01 => [.idle, .warm, .print, .service]
  | 0x02 => [.idle, .warm, .service]
  | 0x03 => [.idle, .warm, .print, .service]
  | 0x10 => [.idle, .warm, .print, .service, .hold, .test]
  | 0x11 => [.idle, .warm, .print, .service, .hold, .test]
  | 0x12 => [.idle, .warm, .print, .service]
  | 0x13 => [.warm, .service]
  | 0x14 => [.idle, .warm, .service]
  | _ => []

/-- A broadcast command (R45). -/
def utBroadcast (code : Nat) : Bool := decide (0x10 ≤ code)

/-- The end of a command of window `w`: ERR and DONE. -/
def State.utDone (s : State) (w err : Nat) : State :=
  let a := Reg.UT_CMD_STAT w
  (((s.setFld a F.UT_CMD_STAT_ERR err).setFld a F.UT_CMD_STAT_PENDING 0).setFld a F.UT_CMD_STAT_BUSY 0).flag a F.UT_CMD_STAT_DONE

/-- A refusal: ERR and DONE; a command of the window that is in progress goes on. -/
def State.utRefuse (s : State) (w err : Nat) : State :=
  (s.setFld (Reg.UT_CMD_STAT w) F.UT_CMD_STAT_ERR err).flag (Reg.UT_CMD_STAT w) F.UT_CMD_STAT_DONE

/-- Own settings after a SET_DELAY. -/
def State.ownDelay (s : State) (h arg : Nat) : AMap UnitCfg :=
  AMap.set unitCfgDefault s.ut.own h { ownOf s.ut.own h with ldelay := bits arg 9 0, sldelay := bits arg 29 16 }

/-- The subtree of a partial reload in SERVICE refuses commands from START until the reload ends (R74). -/
def State.reloading (s : State) (h : Nat) : Bool :=
  let r := s.bu.reload
  (r.state = .verify || r.state = .applying) && !r.inPrint && s.si.below r.root h

/-- CHIP units at or below a unit. -/
def State.chipsBelow (s : State) (h : Nat) : List Nat :=
  ((s.si.nodes.map (·.handle)).filter fun u => kindOf u = some .chip && s.si.below h u).map (· - 0x11000)

/-- Checks 4 and 5 of R46 for a unit of this controller; 0 where they pass. A witness refuses changes of enable in PRINT
(R397, log entry 66). -/
def State.utCheck (s : State) (code h arg : Nat) : Nat :=
  if !s.si.valid h then 2
  else if !(utModes code).contains s.mode || s.reloading h || (s.isWitness && s.mode = .print && (code = 0x01 || code = 0x12)) then 3
  else if code = 2 && ((kindOf h = some .nozzle && (bits arg 9 0 ≠ 0 || bits arg 29 16 ≠ 0)) ||
      (kindOf h = some .row && bits arg 29 16 ≠ 0)) then 6
  else if code = 2 && !delaysOk s.si (s.ownDelay h arg) s.ut.parent.ld s.ut.parent.sd then 4
  else 0

/-- R53 for one child: whether the delays above it, changed from (ld, sd) to (ld', sd'), carry a unit of it out of range. The
largest sums of its own tree are open, but they fit the delays in force. -/
def State.childOver (s : State) (ld sd ld' sd' : Nat) : Bool × State :=
  if ld' ≤ ld && sd' ≤ sd then (false, s)
  else
    let a := s.drawFree
    let b := a.2.drawFree
    (decide (1023 < ld' + a.1 % (1024 - ld)) || decide (16383 < sd' + b.1 % (16384 - sd)), b.2)

/-- R53: whether a tree with its own settings would carry a unit of a child out of its range (log entry 29). -/
def State.childrenOver (s : State) (si : Structure) (own : AMap UnitCfg) : Bool × State :=
  ((si.nodes.map (·.handle)).filter fun u => kindOf u = some .chip).foldl (fun a u =>
    let was := if s.si.valid u then (s.lineDelay u, s.subDelay u) else (0, 0)
    let r := a.2.childOver was.1 was.2 (s.ut.parent.ld + effLd si own u) (s.ut.parent.sd + effSd si own u)
    (a.1 || r.1, r.2)) (false, s)

/-- A command forwarded to the UT window of another controller (R45): the unit, the argument and code, and a read of the
command status. -/
def State.forward (s : State) (c sel arg code w : Nat) : State :=
  let s := s.sendReq c 1 (utOf7 Reg.UT_SEL) 4 (leBytes 4 sel) w true 0
  let s := s.sendReq c 1 (utOf7 Reg.UT_ARG) 8 (leBytes 4 arg ++ leBytes 4 code) w true 1
  s.sendReq c 2 (utOf7 Reg.UT_CMD_STAT) 4 [] w true 2

/-- Units a broadcast acts on (R45). -/
def State.actedOn (s : State) (code h : Nat) : List Nat :=
  let all := s.si.subtree 260 h
  match code with
  | 0x10 => all
  | 0x11 => all
  | 0x12 => all.filter fun u => kindOf u = some .port && ((s.port (u - 0x10000)).hot || (s.port (u - 0x10000)).bankFault)
  | _ => all.filter fun u => kindOf u = some .port

/-- A port told to identify its head and to be configured again (R45, R167). -/
def State.identifyPort (s : State) (p : Nat) : State := s.setPort p { s.port p with identReq := true, cfgDue := true }

/-- Events whose cause is a condition that is present now, with their default unit (R51, log entry 26). -/
def State.standing (s : State) : List (Nat × Nat) :=
  let ports (c : Nat → HeadPort → Bool) (id : Nat) : List (Nat × Nat) :=
    (s.validPorts.filter fun p => c p (s.port p)).map fun p => (id, portH p)
  let root (c : Bool) (id : Nat) : List (Nat × Nat) := if c then [(id, 0)] else []
  let loops (f : BitField) (id : Nat) : List (Nat × Nat) :=
    (s.le.ctxs.zipIdx.filter fun x => x.1.st = .holdout && s.isSet (Reg.LE_Cc_STAT x.2) f).map fun x =>
      (id, (s.si.ctxs.getD x.2 ⟨false, 0, 0, 0, 0, 0, 0⟩).owner)
  ports (fun _ q => q.hot) Ev.HEAD_HOT ++ ports (fun _ q => q.derating) Ev.HEAD_DERATE ++
  ports (fun _ q => q.st = .mismatch) Ev.HEAD_MISMATCH ++ ports (fun p _ => s.fl.hrr.testBit p) Ev.HEAD_REPLACE ++
  ports (fun p _ => !(s.an.chs.getD (p / 4) SupplyCh.reset).armed) Ev.VH_FAULT ++
  root (!(s.an.chs.getD 16 SupplyCh.reset).armed) Ev.VH_FAULT ++ root s.csr Ev.CHIP_SERVICE ++
  root (!s.sys.hlrefOk) Ev.HLREF_LOSS ++ root (s.wp.pinLow && s.wp.pinSince.isNone) Ev.BACKUP_TIMEOUT ++
  root (64 ≤ s.au.zgen) Ev.KEYSTORE_EXHAUSTED ++ loops F.LE_Cc_STAT_IMPLAUSIBLE Ev.LOOP_IMPLAUSIBLE ++
  loops F.LE_Cc_STAT_FROZEN Ev.LOOP_FROZEN

/-- The class and the unit of an event by the event map (R66, R439). -/
def State.classUnit (s : State) (e : Nat × Nat) : Nat × Nat :=
  match s.eventCfg e.1 with
  | some c => (max ((eventClass e.1).getD 0) c.cls, if c.unit = 0xFFFFFF then e.2 else c.unit)
  | none => ((eventClass e.1).getD 0, e.2)

/-- CLEAR_STATUS of a unit (R45): latched WARN and VOID are cleared, each unless a cause of it is still present (R51). -/
def State.clearLatch (s : State) (h : Nat) : State :=
  let held := s.standing.map s.classUnit
  let d := s.dyn h
  s.setDyn h { d with warn := d.warn && held.contains (1, h), void := d.void && held.contains (2, h) }

/-- The local effect of a command that does not wait for a commit position (R45, R47, R51). -/
def State.utEffect (s : State) (code h arg : Nat) : State :=
  match code with
  | 0x01 => s.commit (s.wp.hwm + 1) [.enable h (arg.testBit 0)]
  | 0x02 => { s with ut := { s.ut with own := s.ownDelay h arg } }.relay
  | 0x03 => { s with ut := { s.ut with own := AMap.set unitCfgDefault s.ut.own h { ownOf s.ut.own h with trim := arg % 16 } } }
  | 0x10 => (s.si.subtree 260 h).foldl (fun s u => s.clearLatch u) s
  | 0x11 => (s.si.subtree 260 h).foldl (fun s u => s.setDyn u { s.dyn u with cntEvent := 0, cntVoid := 0, cntCmd := 0 }) s
  | 0x12 => s.commit (s.wp.hwm + 1) [.release h]
  | 0x13 => (s.actedOn code h).foldl (fun s u => s.startSpit (u - 0x10000) (arg % 16)) s
  | 0x14 => (s.actedOn code h).foldl (fun s u => s.identifyPort (u - 0x10000)) s
  | _ => s

/-- CNT_CMD of every unit that accepts a command (R43): the addressed unit, and for a broadcast each unit it acts on. -/
def State.countCmd (s : State) (code h : Nat) : State :=
  if utBroadcast code then
    (h :: (s.actedOn code h).filter fun u => u ≠ h && kindOf u ≠ some .chip).foldl (fun s u => s.countUp u 2) s
  else s.countUp h 2

/-- The command in progress replaced. -/
def State.setCmd (s : State) (c : Option UtCmd) : State := { s with ut := { s.ut with cmd := c } }

/-- The local effect of the command in progress, at the tick of line `l` (0 where no ticks run) (R47). UT_CMD_LINE shows that line
for a RELEASE too, although it is a broadcast (log entry 26). -/
def State.utApply (s : State) (l : Nat) : State :=
  match s.ut.cmd with
  | none => s
  | some c =>
    if c.applied then s
    else
      let s := s.setCmd (some { c with applied := true })
      let s := s.utEffect c.code c.handle c.arg
      let s := if c.code = 0x10 || c.code = 0x11 then s.countCmd c.code c.handle else s
      s.wrN (Reg.UT_CMD_LINE c.win) (if utBroadcast c.code && c.code ≠ 0x12 then 0 else l % 2 ^ 32)

/-- The parent-side values in force (R52). -/
def State.setParent (s : State) (en : Bool) (ld sd : Nat) : State :=
  let p := s.ut.parent
  let s := if p.ld = ld && p.sd = sd then s
    else { s with ut := { s.ut with parent := { p with ld := ld, sd := sd } } }.relay
  s.parentEnable en

/-- The values announced by a POS taken once the line index reaches APPLY_LINE (R344). -/
def State.parentReach (s : State) (l : Nat) : State := match s.hl.next with
  | some (n, ld, sd, en) =>
    if n ≤ l then { s with hl := { s.hl with next := none } }.setParent en ld sd else s
  | none => s

/-- The tick of a line: a setting or RELEASE that waits for it takes effect (R47). -/
def State.utTick (s : State) (l : Nat) : State :=
  match s.ut.cmd with
  | some c => if c.chip = s.index && (!utBroadcast c.code || c.code = 0x12) && c.commit.isNone then s.utApply l else s
  | none => s

/-- An accepted command of this controller (R47, R50). -/
def State.utAccept (s : State) (w code h arg : Nat) : State :=
  let a := Reg.UT_CMD_STAT w
  let c : UtCmd := ⟨w, code, s.index, h, arg, s.now, false, false, none, 0⟩
  let busy (s : State) : State := (s.setFld a F.UT_CMD_STAT_ERR 0).setFld a F.UT_CMD_STAT_BUSY 1
  let fw := if utBroadcast code then s.chipsBelow h else []
  let live := fw.filter s.reachable
  let c := { c with forwarded := !live.isEmpty, err := if live.length < fw.length then 7 else 0 }
  let send (s : State) : State := live.foldl (fun s k => s.forward k (k * 2 ^ 24) arg code w) s
  if s.mode = .print && (code = 0x01 || code = 0x12) then
    let r : NhReq := if code = 1 then .enable h (arg.testBit 0) else .release h
    match s.request r with
    | none => s.queueFull.utRefuse w 8
    | some s' =>
      let p := (s'.nh.queue.getLast?.map (·.c)).getD 0
      let s' := (busy (s'.countCmd code h)).setFld a F.UT_CMD_STAT_PENDING 1
      send ((s'.setCmd (some { c with applied := true, commit := some p })).wrN (Reg.UT_CMD_LINE w) p)
  else
    let s := busy (if code = 0x10 || code = 0x11 then s else s.countCmd code h)
    let s := send (s.setCmd (some c))
    if utBroadcast code && code ≠ 0x12 then s else if s.ticksRun then s else s.utApply 0

/-- A write of UT_CMD (R46): the checks in their order, then the command accepted or forwarded. A CHIP unit of a subtree being
reloaded refuses with MODE (R74). -/
def State.utCommand (s : State) (w code : Nat) : State :=
  let c := s.fld (Reg.UT_SEL w) F.UT_SEL_CHIP
  let h := s.fld (Reg.UT_SEL w) F.UT_SEL_HANDLE
  let arg := s.rdN (Reg.UT_ARG w)
  let chip := c = s.index && kindOf h = some .chip
  let dest := if chip then h - 0x11000 else c
  let remote := chip || c ≠ s.index
  if s.ut.cmd.isSome then s.utRefuse w 1
  else if (utModes code).isEmpty then s.utRefuse w 6
  else if remote && !s.reachable dest then s.utRefuse w 5
  else if chip && !s.si.valid h then s.utRefuse w 2
  else if chip && s.reloading h then s.utRefuse w 3
  else if remote then
    let a := Reg.UT_CMD_STAT w
    let s := (s.setFld a F.UT_CMD_STAT_ERR 0).setFld a F.UT_CMD_STAT_BUSY 1
    let s := s.setCmd (some ⟨w, code, dest, h, arg, s.now, true, true, none, 0⟩)
    s.forward dest (if chip then dest * 2 ^ 24 else s.rdN (Reg.UT_SEL w)) arg code w
  else
    match s.utCheck code h arg with
    | 0 =>
      let r := if code = 2 then s.childrenOver s.si (s.ownDelay h arg) else (false, s)
      if r.1 then r.2.utRefuse w 4 else r.2.utAccept w code h arg
    | e => s.utRefuse w e

/-- UT_CMD_COMPLETE (R50): the walk of a broadcast reaches its units; the command ends once its effect has been applied, its
commit position reached and its forwarded parts answered. -/
def State.utComplete (s : State) : State :=
  match s.ut.cmd with
  | none => s
  | some c =>
    let walks := utBroadcast c.code && c.code ≠ 0x12
    let s := if !c.applied && (walks || !s.ticksRun) then s.utApply 0 else s
    match s.ut.cmd with
    | none => s
    | some c =>
      let reached := match c.commit with
        | some p => s.mode ≠ .print || decide (p ≤ s.line)
        | none => true
      if c.applied && reached && !(s.hl.fwd.any fun f => f.cmd) then (s.setCmd none).utDone c.win c.err else s

/-- The forwarded part of a command ends with LINK (R45, R50). -/
def State.forwardLost (s : State) : State :=
  match s.ut.cmd with
  | some c =>
    if s.hl.fwd.any fun f => f.cmd then
      let s := { s with hl := { s.hl with fwd := s.hl.fwd.filter fun f => !f.cmd } }
      (s.setCmd (some { c with err := 7 })).utComplete
    else s
  | none => s

/-- UT_FORWARD_TIMEOUT (R50). -/
def State.forwardTimeout (s : State) : State := s.forwardLost

/-- LINK_DOWN of a group ends a forwarded command whose child lay behind it (R350). -/
def State.linkDownCmd (s : State) : State :=
  if s.hl.fwd.any fun f => f.cmd && !s.reachable f.chip then s.forwardLost else s

/-- An RD_CPL that answers a request of this controller (R45, R55): the data of a snapshot, or the progress of a forwarded
command. A command the child has accepted and shows as PENDING ends here at once (log entry 29). -/
def State.rdCplHere (s : State) (tag status : Nat) (data : List Byte) : State :=
  match s.hl.fwd.find? fun f => f.tag = tag with
  | none => s
  | some f =>
    let s := { s with hl := { s.hl with fwd := s.hl.fwd.erase f } }
    let ok := decide (status % 256 = 0)
    if !f.cmd then
      if !ok then s.snapFail f.win
      else if f.step = 0 then s
      else
        let ws := (List.range 9).map fun i => leAt data (4 * i) 4
        { s with ut := { s.ut with snapWait := s.ut.snapWait.filter fun p => p.1 ≠ f.win } }.storeSnap f.win
          (ws.set 0 ((ws.getD 0 0) ||| 2 ^ 30))
    else
      match s.ut.cmd with
      | none => s
      | some c =>
        if !ok then (s.setCmd (some { c with err := if status % 256 = 3 then 5 else 7 })).utComplete
        else if f.step < 2 then s
        else
          let st := leAt data 0 4
          let err := bits st 7 4
          if st.testBit 0 && !st.testBit 2 then s.sendReq f.chip 2 (utOf7 Reg.UT_CMD_STAT) 4 [] f.win true 2
          else (s.setCmd (some { c with err := if c.err = 0 then err else c.err })).utComplete

end Sys2Proof.Machine
end

