-- ==== Sys2Proof/Machine/Jobs.lean ====
section
/-! DEFINITION. The job stream (05) and the rendering of instances (06): plate commands (R110), job slots with their commands
(R106, R107, R114, R125), the record ring (R115 to R118), rendering (R119, R130, R144 to R148), the end
of jobs (R124, R126) and what HOLD and IDLE do to them (R515). -/

namespace Sys2Proof.Machine

/-! ## Plates -/

/-- A job that is LOADED through CLOSING maps a plane to a plate slot (R110). -/
def State.plateMapped (s : State) (k : Nat) : Bool :=
  [s.js.job0, s.js.job1].any fun j => j.phase.held && (List.range 16).any fun i => decide (j.planeMap / 16 ^ i % 16 = k)

/-- A plate slot replaced. -/
def State.setPlate (s : State) (k : Nat) (p : PlateSlot) : State := { s with js := { s.js with plates := s.js.plates.set k p } }

/-- The error of a plate command. -/
def State.plateErr (s : State) (e : Nat) : State := s.setFld Reg.JS_PLATE_STAT F.JS_PLATE_STAT_ERR e

/-- OPEN (R110). -/
def State.plateOpen (s : State) (k : Nat) : State :=
  let r := s.plateRegion k
  if (s.plate k).phase ≠ .empty then s.plateErr 1
  else if !s.inDram r || s.meetsPlate r then s.plateErr 2
  else (s.setPlate k ⟨.loading, 0⟩).plateErr 0

/-- SEAL (R110). -/
def State.plateSeal (s : State) (k : Nat) : State :=
  let p := s.plate k
  if p.phase ≠ .loading then s.plateErr 1
  else if p.fill ≠ 32768 * s.fld (Reg.JS_PLATEk_CFG k) F.JS_PLATEk_CFG_LINES then s.plateErr 3
  else (s.setPlate k { p with phase := .ready }).plateErr 0

/-- FREE (R110). -/
def State.plateFree (s : State) (k : Nat) : State :=
  if (s.plate k).phase = .empty then s.plateErr 1
  else if s.plateMapped k then s.plateErr 4
  else (s.setPlate k ⟨.empty, 0⟩).plateErr 0

/-- A write of JS_PLATE_CMD. -/
def State.plateCmd (s : State) (w : Word) : State :=
  let k := F.JS_PLATE_CMD_SLOT.get w
  match F.JS_PLATE_CMD_OP.get w with
  | 1 => s.plateOpen k
  | 2 => s.plateSeal k
  | 3 => s.plateFree k
  | _ => s

/-! ## LOAD -/

/-- The columns of a row slice whose read positions lie in `lo` to `hi` (R109): first and last. -/
def Structure.colRange (si : Structure) (p r : Nat) (lo hi : Int) : Option (Nat × Nat) :=
  let g := (si.ports.getD p ⟨0, 0⟩).geom
  let o : Int := if si.res24 p then (r : Int) else 0
  let c : Int := (g % 0x20000 : Nat)
  let b := if g.testBit 17 then (c - o - hi, c - o - lo) else (lo - c - o, hi - c - o)
  let first := max 0 ((b.1 + 1) / 2)
  let last := min 1023 (b.2 / 2)
  if first ≤ last then some (first.toNat, last.toNat) else none

/-- 256-bit words of a row slice that a range of columns meets. -/
def wordsMet (c : Nat × Nat) : Nat := c.2 / 128 - c.1 / 128 + 1

/-- The cells of a row of the repeat with their indices. -/
def Imposition.cellsOf (i : Imposition) (row : Nat) : List (Nat × ImpCell) :=
  let r := i.rows.getD row ⟨0, 0, 0⟩
  (List.range r.cellCount).filterMap fun n => (i.cells[r.firstCell + n]?).map fun c => (r.firstCell + n, c)

/-- The slots of a cell. -/
def Imposition.slotsOf (i : Imposition) (c : ImpCell) : List ImpSlot := (i.slots.drop c.slotFirst).take c.slotCount

/-- Line program of a line engine. -/
def Structure.progOf (si : Structure) (e : Nat) : Option LineProg := si.progs.find? fun p => p.mask.testBit e

/-- Layers an engine merges. -/
def Structure.layersOf (si : Structure) (e : Nat) : List Nat := match si.progOf e with
  | some p => p.merges.map (·.2)
  | none => []

/-- Row slices of valid ports whose read positions meet positions `lo` to `hi`: port and columns. -/
def State.slicesMeet (s : State) (lo hi : Int) : List (Nat × (Nat × Nat)) :=
  s.validPorts.flatMap fun p => [0, 1].filterMap fun r => (s.si.colRange p r lo hi).map fun c => (p, c)

/-- Row heights of an imposition (R113). -/
def Imposition.heights (i : Imposition) : List Nat :=
  let os := i.rows.map (·.offset)
  ((os.drop 1) ++ [i.rep]).zip os |>.map fun p => p.1 - p.2

/-- W(k) of R120 for a row. -/
def State.rowNeed (s : State) (i : Imposition) (row : Nat) : Nat :=
  48 * ((i.cellsOf row).foldl (fun a c => (i.slotsOf c.2).foldl (fun a t =>
    (s.slicesMeet ((c.2.x + t.xOff : Nat) : Int) ((c.2.x + t.xOff + t.w : Nat) - 1 : Int)).foldl (fun a m => a + wordsMet m.2) a) a) 0)

/-- The quotient rounded up. -/
def ceilDiv (a b : Nat) : Nat := (a + b - 1) / b

/-- NEED of R120. -/
def State.need (s : State) (i : Imposition) : Nat :=
  let h := match i.heights with
    | [] => 1
    | x :: xs => xs.foldl min x
  (1 + ceilDiv s.dMax (max 1 h)) * ((List.range i.rows.length).map (s.rowNeed i)).foldl max 0

/-- ENTRY_BYTES of R120. -/
def State.entryBytes (s : State) : Nat := 8388608 / (s.si.limits.lead + 8) / 1024 * 1024

/-- The bytes of one row's tiles (R114, R132). -/
def Imposition.rowTile (i : Imposition) (row : Nat) : Nat :=
  (i.cellsOf row).foldl (fun a c => (i.slotsOf c.2).foldl (fun a t => a + slotBytes t.w t.h) a) 0

/-- An imposition read from its bytes (R112), with whether its MAGIC and reserved fields are right. -/
def Imposition.parse (b : List Byte) : Imposition × Bool :=
  let nr := leAt b 4 1
  let nc := leAt b 6 2
  let ns := leAt b 8 2
  let row (i : Nat) : List Byte := slice b (32 + 8 * i) 8
  let cell (i : Nat) : List Byte := slice b (32 + 8 * nr + 16 * i) 16
  let slot (i : Nat) : List Byte := slice b (32 + 8 * nr + 16 * (nc + i)) 16
  let rows := (List.range nr).map row
  let cells := (List.range nc).map cell
  let slots := (List.range ns).map slot
  (⟨rows.map fun r => ⟨leAt r 0 4, leAt r 4 2, leAt r 6 1⟩,
    cells.map fun c => ⟨leAt c 0 4, leAt c 4 4, leAt c 8 2, leAt c 10 2, leAt c 12 2, leAt c 14 1, leAt c 15 1 % 2 = 1⟩,
    slots.map fun t => ⟨leAt t 0 2, leAt t 2 2, leAt t 4 2, leAt t 6 2, leAt t 8 1, leAt t 9 1⟩, leAt b 12 4⟩,
   leAt b 0 4 = 0x4D49594A && leAt b 5 1 = 0 && leAt b 10 2 = 0 && leAt b 16 16 = 0 && rows.all (fun r => leAt r 7 1 = 0) &&
   cells.all (fun c => leAt c 15 1 ≤ 1) && slots.all fun t => leAt t 10 6 = 0)

/-- Boxes of two slots of one layer are disjoint. -/
def ImpSlot.apart (a b : ImpSlot) : Bool :=
  a.layer ≠ b.layer || a.xOff + a.w ≤ b.xOff || b.xOff + b.w ≤ a.xOff || a.yOff + a.h ≤ b.yOff || b.yOff + b.h ≤ a.yOff

/-- A relation holds of every two members of a list. -/
def allPairs {α : Type} (r : α → α → Bool) : List α → Bool
  | [] => true
  | x :: xs => xs.all (r x) && allPairs r xs

/-- The LAYOUT rows of R114, the header counts as read. -/
def Imposition.layoutOk (i : Imposition) (len : Nat) : Bool :=
  let nr := i.rows.length
  let nc := i.cells.length
  let ns := i.slots.length
  let os := i.rows.map (·.offset)
  let idx := i.rows.flatMap fun r => (List.range r.cellCount).map (r.firstCell + ·)
  let used := i.cells.flatMap fun c => (List.range c.slotCount).map (c.slotFirst + ·)
  1 ≤ nr && nr ≤ 16 && 1 ≤ nc && nc ≤ 1024 && ns ≤ 32768 && 16 ≤ i.rep && i.rep ≤ 1048576 && len = 32 + 8 * nr + 16 * (nc + ns) &&
  os.head? = some 0 && ((os.zip (os.drop 1)).all fun p => decide (p.1 < p.2)) && os.all (fun o => decide (o < i.rep)) &&
  i.rows.all (fun r => 1 ≤ r.cellCount && r.cellCount ≤ 64) && idx.length = nc && idx.eraseDups.length = nc &&
  idx.all (fun c => decide (c < nc)) && used.eraseDups.length = used.length && used.all (fun t => decide (t < ns)) &&
  (i.cells.all fun c => c.x ≤ 131071 && 1 ≤ c.w && c.w ≤ 131072 - c.x && 1 ≤ c.h && c.slotCount ≤ 32 && (!c.plain || c.slotCount = 0)) &&
  ((List.range nr).all fun k =>
    let cs := (i.cellsOf k).map (·.2)
    cs.all (fun c => decide (c.yOff + c.h ≤ i.heights.getD k 0)) &&
      allPairs (fun a b => decide (a.x + a.w ≤ b.x) || decide (b.x + b.w ≤ a.x)) cs) &&
  (i.cells.all fun c =>
    let ts := i.slotsOf c
    ts.all (fun t => t.xOff + t.w ≤ c.w && t.yOff + t.h ≤ c.h) && allPairs ImpSlot.apart ts) &&
  i.slots.all fun t => 1 ≤ t.w && 1 ≤ t.h && t.layer ≤ 63

/-- The LAYER row of R114. -/
def State.layersOk (s : State) (i : Imposition) : Bool :=
  i.cells.all fun c => (i.slotsOf c).all fun t =>
    (s.slicesMeet ((c.x + t.xOff : Nat) : Int) ((c.x + t.xOff + t.w : Nat) - 1 : Int)).all fun m =>
      (s.si.layersOf (m.1 / 4)).contains t.layer

/-- A slot as the descriptor and the imposition give it (R105). -/
def JobSlot.ofDesc (d : List Byte) (imp : Imposition) : JobSlot :=
  { JobSlot.reset with
      phase := .loaded, raster := (leAt d 4 1).testBit 0, tileBufs := leAt d 5 1, jobId := leAt d 8 4, jobStart := leAt d 0x0C 4,
      planeMap := leAt d 0x10 8, ringAddr := leAt d 0x20 4 * 64, ringSize := leAt d 0x24 4, tileAddr := leAt d 0x28 4 * 64,
      tileSize := leAt d 0x2C 4, rasterAddr := leAt d 0x30 4 * 65536, rasterLines := leAt d 0x34 4, imp := imp }

/-- The MEMORY row of R114. -/
def State.jobMemoryOk (s : State) (d : List Byte) : Bool :=
  let rs := [(leAt d 0x18 4 * 64, leAt d 0x1C 4), (leAt d 0x20 4 * 64, leAt d 0x24 4),
    (leAt d 0x28 4 * 64, leAt d 5 1 * leAt d 0x2C 4), (leAt d 0x30 4 * 65536, 32768 * leAt d 0x34 4)].filter fun r => r.2 ≠ 0
  rs.all (fun r => s.inDram r && !s.meetsPlate r) && allPairs (fun a b => !rangesMeet a b) rs

/-- Why the fabric refuses LOAD a descriptor or its imposition, both within DRAM (R150, R293; log entry 37). -/
def State.loadRefused (s : State) (at' : Nat) : Option Refused :=
  let d := s.dramRead at' 64
  if !s.inDram (at', 64) then none
  else (s.fabricCheck 0 2 at' 64 false).orElse fun _ =>
    if s.jobMemoryOk d then s.fabricCheck 0 2 (leAt d 0x18 4 * 64) (min (leAt d 0x1C 4) 540832) false else none

/-- The checks of LOAD in the order of R114: the ERR of the first that fails, 0 where all pass. -/
def State.loadErr (s : State) (at' : Nat) : Nat :=
  let d := s.dramRead at' 64
  let len := leAt d 0x1C 4
  let p := Imposition.parse (s.dramRead (leAt d 0x18 4 * 64) (max 32 (min len 540832)))
  let j := JobSlot.ofDesc d p.1
  let i := p.1
  let tickets := (i.cells.filter fun c => !c.plain).length
  if !s.inDram (at', 64) || !s.jobMemoryOk d || (s.loadRefused at').isSome then 9
  else if leAt d 0 4 ≠ 0x444A594A || 2 ≤ leAt d 4 1 || leAt d 6 2 ≠ 0 || leAt d 0x38 8 ≠ 0 || !p.2 then 1
  else if !i.layoutOk len then 2
  else if !s.layersOk i then 3
  else if 1024 * i.rep < tickets * s.si.limits.lineRateMax then 4
  else if !(65536 ≤ j.ringSize && j.ringSize ≤ 268435456 && j.ringSize % 4096 = 0) || s.entryBytes < s.need i then 5
  else if !(2 ≤ j.tileBufs && j.tileBufs ≤ 8 && j.tileSize % 64 = 0) ||
      (List.range i.rows.length).any (fun k => decide (j.tileSize < i.rowTile k)) then 6
  else if (if j.raster then !i.slots.isEmpty || s.si.progs.any (fun p => !p.raster) || j.rasterLines < s.dMax + s.si.limits.lead + 8
      else j.rasterAddr ≠ 0 || j.rasterLines ≠ 0 || s.si.progs.any (·.raster)) then 7
  else if !j.raster && s.si.progs.any (fun p => (s.plate (j.planeMap / 16 ^ p.plane % 16)).phase ≠ .ready) then 8
  else 0

/-- The payload slots of a tile buffer erased (R152). -/
def State.erasePayload (s : State) (b : Nat) : State := { s with au := { s.au with sealed := s.au.sealed.filter fun e => e.1 / 64 ≠ b } }

/-- The tile buffers a slot still holds are released with the slot itself (R119, R152). -/
def State.dropTiles (s : State) (k : Nat) : State :=
  let j := s.job k
  let n := min j.tileBufs ((j.rendering.map (·.inst + 1)).getD j.nextInst - j.released)
  (List.range n).foldl (fun s i => s.erasePayload ((j.released + i) % max 1 j.tileBufs)) s

/-- The ERR of a job slot. -/
def State.jobErr (s : State) (k e : Nat) : State := s.setJob k { s.job k with err := e }

/-- A LOAD that fails (R114). -/
def State.loadFail (s : State) (k e : Nat) : State :=
  ((s.setJob k { JobSlot.reset with phase := .failed, err := e }).flag Reg.JS_STAT F.JS_STAT_LOAD_REFUSED).raise Ev.LOAD_REFUSED

/-- LOAD (R105, R114, R117, R149). NEED is shown once the layout has passed. -/
def State.jobLoad (s : State) (k : Nat) : State :=
  let ph := (s.job k).phase
  if !(ph = .empty || ph = .done || ph = .failed) || !s.si.loaded then s.jobErr k 0xC
  else
    let at' := s.rdN (Reg.JS_JOBs_DESC k) * 64
    let d := s.dramRead at' 64
    let imp := (Imposition.parse (s.dramRead (leAt d 0x18 4 * 64) (max 32 (min (leAt d 0x1C 4) 540832)))).1
    let e := s.loadErr at'
    let s := match s.loadRefused at' with
      | some r => (s.dropTiles k).fabricRefuse 2 r
      | none => s.dropTiles k
    let s := if e = 0 || 3 ≤ e && e ≤ 8 then s.setFld Reg.JS_LRING F.JS_LRING_NEED_KIB (min 0xFFFF (ceilDiv (s.need imp) 1024)) else s
    if e = 0 then
      let r := s.drawRandom 32
      r.2.setJob k { JobSlot.ofDesc d imp with tileKey := some r.1 }
    else s.loadFail k e

/-! ## ARM and UNLOAD -/

/-- What is composed, in the line ring or in the slice buffers from a job's first bar line upwards is made anew. -/
def State.dropFromLine (s : State) (start : Nat) : State :=
  let l := max s.wp.hwm (start + s.dMin - 1)
  let s := s.dropAbove l
  { s with js := s.js.keepLines fun x => decide (x ≤ l) }

/-- The end of a job fixed at an instance, the first in line order (R124). -/
def State.fixEnd (s : State) (k i : Nat) : State :=
  let j := s.job k
  s.setJob k { j with endInst := some (match j.endInst with
    | some e => min e i
    | none => i) }

/-- An ended job whose next instance is at or above its end renders no more (R124). -/
def State.stopAtEnd (s : State) (k : Nat) : State :=
  let j := s.job k
  match j.endInst with
  | some e =>
    let above := match j.rendering with
      | some r => decide (e ≤ r.inst)
      | none => true
    if e ≤ j.nextInst && above && !j.stopped then s.jobDiscard k else s
  | none => s

/-- A job ended before instance `i`, or where an earlier end stands (R124): tickets of instances at or above the end are not printed,
records not rendered are discarded, and the lines above the end are made anew. -/
def State.endJob (s : State) (k i : Nat) : State :=
  let s := s.fixEnd k i
  let j := s.job k
  let e := j.endInst.getD i
  let s := s.setJob k (if j.rendering.any fun r => decide (e ≤ r.inst) then j.giveUp else j)
  let s := s.dropTickets fun t => t.job = k && decide (e ≤ t.inst)
  (s.stopAtEnd k).dropFromLine (j.bound e)

/-- ARM (R107, R125). -/
def State.jobArm (s : State) (k : Nat) : State :=
  let j := s.job k
  let active (i : Nat) : Bool := match (s.job i).phase with
    | .armed | .running | .draining => true
    | _ => false
  if j.phase ≠ .loaded then s.jobErr k 0xC
  else if !active (1 - k) then
    let s := s.setJob k { j with phase := .armed, err := 0 }
    { s with js := { s.js with cur := some k, next := none } }.dropFromLine j.jobStart
  else
    let c := s.job (1 - k)
    match (c.firstAbove j.jobStart).filter fun i => c.bound i = j.jobStart && s.line + s.si.limits.renderAhead ≤ j.jobStart with
    | some i =>
      let s := s.setJob k { j with phase := .armed, err := 0 }
      let s := { s with js := { s.js with cur := some (1 - k), next := some k } }
      s.endJob (1 - k) i
    | none => ((s.jobErr k 0xB).flag Reg.JS_STAT F.JS_STAT_ARM_REFUSED).raise Ev.ARM_REFUSED

/-- UNLOAD (R106). -/
def State.jobUnload (s : State) (k : Nat) : State :=
  let j := s.job k
  let printing := s.mode = .print || (match s.sys.trans with
    | some t => t.target = .print
    | none => false)
  let ok := match j.phase with
    | .loaded | .done | .failed => true
    | .armed => !(s.js.cur = some k && printing)
    | _ => false
  if !ok then s.jobErr k 0xC
  else
    let s := s.dropTickets fun t => t.job = k && decide (s.wp.hwm < t.first)
    let s := ((s.dropTiles k).setJob k JobSlot.reset).jobLeave k
    if j.phase = .armed then s.dropFromLine j.jobStart else s

/-- A write of JS_CTRL (R106): more than one command is refused. -/
def State.jobCtrl (s : State) (w : Word) : State :=
  let k := F.JS_CTRL_SLOT.get w
  match F.JS_CTRL_LOAD.get w, F.JS_CTRL_ARM.get w, F.JS_CTRL_UNLOAD.get w with
  | 0, 0, 0 => s
  | 1, 0, 0 => s.jobLoad k
  | 0, 1, 0 => s.jobArm k
  | 0, 0, 1 => s.jobUnload k
  | _, _, _ => s.jobErr k 0xC

/-- A write of RING_WP (R117): bits [5:0] are ignored; a job that renders no more discards what it names. -/
def State.ringWp (s : State) (k : Nat) (w : Word) : State :=
  let s := s.setJob k { s.job k with wp := w.toNat / 64 * 64 }
  if (s.job k).stopped && (s.job k).phase.held then s.jobDiscard k else s

/-! ## Lines fired -/

/-- The oldest tile buffer of a job released once its last bar line has been fired or left blank, its payload slots erased (R119,
R124, R152): instances at or above the end of a job wait for their own line too. -/
def State.releaseTile (s : State) (l k : Nat) : State :=
  let j := s.job k
  if !(j.phase.held || j.phase = .done) || j.nextInst ≤ j.released || l + 1 < j.bound (j.released + 1) + s.dMax then s
  else (s.erasePayload (j.released % max 1 j.tileBufs)).setJob k { j with released := j.released + 1 }

/-- Every tile buffer of a job that a bar line releases; at most eight are taken. -/
def State.releaseTiles (s : State) (l k : Nat) : State := (List.range 8).foldl (fun s _ => s.releaseTile l k) s

/-- The slot of a job that is ARMED. -/
def State.armedJob (s : State) : Option Nat := [0, 1].find? fun k => (s.job k).phase = .armed

/-- The state a job slot takes once a bar line has been fired or left blank (R106). -/
def JobSlot.after (j : JobSlot) (l dMin dMax : Nat) : JobPhase :=
  let ended (d : Nat) : Bool := match j.endLine with
    | some e => decide (e + d ≤ l + 1)
    | none => false
  match j.phase with
  | .armed =>
    if ended dMax then .closing
    else if j.jobStart + dMin ≤ l then (if j.endLine ≠ some j.jobStart then (if ended dMin then .draining else .running) else .armed)
    else .armed
  | .running => if ended dMax then .closing else if ended dMin then .draining else .running
  | .draining => if ended dMax then .closing else .draining
  | p => p

/-- The states of the current and the next job after a bar line (R106, R125, R126): the next job becomes the current one. -/
def State.jobsAfter (s : State) (l : Nat) : State :=
  let step (s : State) (k : Nat) : State :=
    let p := (s.job k).after l s.dMin s.dMax
    let s := s.setJob k { s.job k with phase := p }
    if p = .closing then (if (s.job k).stopped then s else s.jobDiscard k) else s
  let s := ((s.releaseTiles l 0).releaseTiles l 1)
  let s := (s.js.cur.toList ++ s.js.next.toList).foldl step s
  match s.js.cur with
  | some k =>
    if (s.job k).phase = .closing then { s with js := { s.js with cur := s.js.next.orElse (fun _ => s.armedJob), next := none } } else s
  | none => s

/-- The end of the last job takes PRINT to WARM (R29, R126). -/
def State.lastJobOver (s : State) : State :=
  if s.mode = .print && s.js.cur.isNone && s.sys.trans.isNone then { s with sys := { s.sys with trans := some ⟨.warm, s.now⟩ } } else s

/-- The end of a job fixed at lines already fired is reached at once (R106, R124, R126). -/
def State.jobsNow (s : State) : State := if s.mode = .print then (s.jobsAfter s.wp.hwm).lastJobOver else s

/-! ## Rendering -/

/-- What reading the records of an instance comes to (R116 to R119): not all of them are in the ring; one breaks the order, or the
fabric refuses the read of it (R150), after the records before it; an END record ends the job here; or the records with the
offset after them. -/
inductive InstRead where
  | wait | order (rs : List CellRec) | refused (e : Refused) (rs : List CellRec) | ends | recs (rs : List CellRec) (rp : Nat)

/-- Cells of an instance that carry a record. -/
def JobSlot.ticketCells (j : JobSlot) (i : Nat) : List (Nat × ImpCell) := (j.imp.cellsOf (i % j.nRows)).filter fun c => !c.2.plain

/-- The next instance at or above one that carries records: none where every cell is PLAIN. -/
def JobSlot.nextWithRecords (j : JobSlot) (i : Nat) : Option Nat :=
  ((List.range j.nRows).map (i + ·)).find? fun n => !(j.ticketCells n).isEmpty

/-- `n` bytes of a record ring as RNDR reads them through the fabric (R117, R293). -/
def State.ringRead (s : State) (j : JobSlot) (off n : Nat) : Except Refused (List Byte) :=
  let o := off % j.ringSize
  let n1 := min n (j.ringSize - o)
  match s.fabricCheck 0 2 (j.ringAddr + o) n1 false, if n1 < n then s.fabricCheck 0 2 j.ringAddr (n - n1) false else none with
  | none, none => .ok (s.ringBytes j off n)
  | some e, _ => .error e
  | _, some e => .error e

/-- The records of the cells still to come of an instance, from an offset. -/
def State.readCells (s : State) (j : JobSlot) (i : Nat) : List (Nat × ImpCell) → Nat → List CellRec → InstRead
  | [], off, rs => .recs rs (off % j.ringSize)
  | c :: cs, off, rs =>
    if j.avail off < 64 then .wait
    else
      match s.ringRead j off 64 with
      | .error e => .refused e rs
      | .ok b =>
        let h := CellRec.parse b
        if !h.headerOk j.jobId then .order rs
        else if h.isEnd then (if rs.isEmpty && h.rowInst = i then .ends else .order rs)
        else if h.rowInst ≠ i || h.cell ≠ c.1 then .order rs
        else if j.avail off < h.length then .wait
        else
          match s.ringRead j off h.length with
          | .error e => .refused e rs
          | .ok b => s.readCells j i cs (off + h.length) (rs ++ [CellRec.parse b])

/-- The records of an instance; for one that carries none, the record after its place decides (R116, R119). -/
def State.readInst (s : State) (j : JobSlot) (i : Nat) : InstRead :=
  match j.ticketCells i with
  | [] =>
    if j.avail j.rp < 64 then .wait
    else
      match s.ringRead j j.rp 64 with
      | .error e => .refused e []
      | .ok b =>
        let h := CellRec.parse b
        let n := j.nextWithRecords i
        if !h.headerOk j.jobId then .order []
        else if h.isEnd then
          (if h.rowInst = i then .ends else if i < h.rowInst && n.all fun n => decide (h.rowInst ≤ n) then .recs [] j.rp else .order [])
        else if some h.rowInst = n then .recs [] j.rp else .order []
  | cs => s.readCells j i cs j.rp []

/-- The bytes at an offset of a library that the fabric refuses RNDR (R293). -/
def State.libraryShut (s : State) (j : JobSlot) (n off len : Nat) : Option Refused :=
  s.fabricCheck 0 2 ((s.plateRegion (j.planeMap / 16 ^ n % 16)).1 + off) len false

/-- The library of a plane of a job: the plate slot mapped to it, READY or IN_USE (R135). A byte the fabric refuses is not transferred. -/
def State.library (s : State) (j : JobSlot) (n : Nat) : Option Library :=
  let k := j.planeMap / 16 ^ n % 16
  let r := s.plateRegion k
  let all := (s.libraryShut j n 0 r.2).isNone
  if (s.plate k).phase = .ready then
    some ⟨r.2, fun o => if o < r.2 && (all || (s.libraryShut j n o 1).isNone) then AMap.get (fun _ => dramDefault) s.dram (r.1 + o) else 0#8,
      fun o m => !all && (s.libraryShut j n o m).isSome⟩
  else none

/-- The refusal behind a field refused with LIBRARY, where the fabric refused its library or part of it (R150, R293). -/
def State.libraryRefuse (s : State) (j : JobSlot) (r : CellRec) (i : Nat) (e : FieldErr) : State :=
  let n := (fieldAt i r.fields).lib
  let k := j.planeMap / 16 ^ n % 16
  if e = .library && n < 16 && (s.plate k).phase = .ready then
    match s.libraryShut j n 0 (s.plateRegion k).2 with
    | some x => s.fabricRefuse 2 x
    | none => s
  else s

/-- RECORD_BAD with its place and reason (R118, AU_RNDR_ERR). -/
def State.recordBad (s : State) (i cell field reason : Nat) : State :=
  let s := ((s.setFld Reg.AU_RNDR_ERR F.AU_RNDR_ERR_REASON reason).setFld Reg.AU_RNDR_ERR F.AU_RNDR_ERR_FIELD field).setFld
    Reg.AU_RNDR_ERR F.AU_RNDR_ERR_CELL cell
  ((s.wrN Reg.AU_RNDR_ERR_INST i).flag Reg.JS_STAT F.JS_STAT_RECORD_BAD).raise Ev.RECORD_BAD

/-- A payload that fails authentication (R146). -/
def State.playFail (s : State) : State :=
  let n := s.au.playRun + 1
  let s := ({ s with au := { s.au with playRun := n } }.bump Reg.AU_PLAY_FAIL F.AU_PLAY_FAIL_COUNT).flag Reg.AU_PLAY_STAT F.AU_PLAY_STAT_AUTH_FAIL
  let s := s.raise Ev.PLAY_AUTH
  if n = s.fld Reg.AU_PLAY_CFG F.AU_PLAY_CFG_FAIL_MAX then (s.flag Reg.AU_PLAY_STAT F.AU_PLAY_STAT_BURST).raise Ev.PLAY_AUTH_BURST else s

/-- A payload that passes, written to its payload slot (R144, R146). -/
def State.playPass (s : State) (slot : Nat) (clear : List Byte) : State :=
  { s with au := { s.au with playRun := 0, sealed := AMap.set (fun _ => []) s.au.sealed slot (slice clear 0 512) } }.bump
    Reg.AU_PLAY_OK F.AU_PLAY_OK_COUNT

/-- The symbol descriptors of a rendered record (R242): one for each CODE128 and DMTX field. -/
def symbolsOf (k i y0 cell : Nat) (c : ImpCell) (slots : List ImpSlot) (fs : List FieldRec) (clear : List Byte) (key : Option (List Byte)) : List SymDesc :=
  fs.filterMap fun f =>
    if f.prim = 1 || f.prim = 2 then
      match symbolGrid f (fieldData f clear), slots[f.slot]? with
      | some g, some t =>
        let g := g.turn f.rot
        some ⟨k, i, cell, c.x + t.xOff + f.x, y0 + c.yOff + t.yOff + f.y, g.mw, g.mh,
          (List.range g.rows).map fun r => (List.range g.cols).map fun x => g.cell x r, none, key⟩
      | _, _ => none
    else none

/-- Slot boxes that receive a PAYLOAD field, masked on export (R151, R251). -/
def masksOf (y0 : Nat) (c : ImpCell) (slots : List ImpSlot) (fs : List FieldRec) (key : Option (List Byte)) : List PayMask :=
  fs.filterMap fun f => if f.src = 1 then (slots[f.slot]?).map fun t => ⟨c.x + t.xOff, t.w, y0 + c.yOff + t.yOff, t.h, key⟩ else none

/-- Bytes RNDR writes to a job's tile buffers from an offset, under the job's tile key (R149, R293). -/
def State.tileWrite (s : State) (k off : Nat) (bs : List Byte) : State :=
  let j := s.job k
  match s.fabricCheck 0 2 (j.tileAddr + off) bs.length true with
  | some e => s.fabricRefuse 2 e
  | none => s.dramWrite (j.tileAddr + off) (tileCrypt (j.tileKey.getD []) k off bs)

/-- One record checked and drawn (R130): the slot blocks of its cell, the flag its ticket starts with, and the state after. -/
def State.renderRec (s : State) (k i : Nat) (c : Nat × ImpCell) (r : CellRec) : List Byte × Nat × State :=
  let j := s.job k
  let slots := j.imp.slotsOf c.2
  let lib := s.library j
  let empty := renderCell lib slots [] []
  let bad (field reason : Nat) : List Byte × Nat × State := (empty, 2 ^ 6, s.recordBad i c.1 field reason)
  if !r.lengthsOk || (j.raster && r.payloadLen ≠ 0) then bad 0 FieldErr.len.code
  else if c.2.slotCount < r.fieldCount then bad 0 FieldErr.slot.code
  else if r.blank then (empty, 2 ^ 8, s)
  else
    match parseFields lib slots r.payloadLen r.fieldCount 0 [] r.fields with
    | .error e =>
      let x := bad e.1 e.2.code
      (x.1, x.2.1, x.2.2.libraryRefuse j r e.1 e.2)
    | .ok fs =>
      let first := (j.imp.rows.getD (i % j.nRows) ⟨0, 0, 0⟩).firstCell
      let at' := i % j.tileBufs * 64 + (c.1 - first)
      let clear := if r.payloadLen = 0 then some [] else
        match s.slot 0 with
        | some key => gcmOpen key r.nonce r.header r.cipher r.tag
        | none => none
      match clear with
      | none => (empty, 2 ^ 7, s.playFail)
      | some cl =>
        let s := if r.payloadLen = 0 then s else s.playPass at' cl
        match checkClear lib slots cl 0 fs with
        | some e => (empty, 2 ^ 6, (s.recordBad i c.1 e.1 e.2.code).libraryRefuse j r e.1 e.2)
        | none =>
          let y0 := j.bound i
          (renderCell lib slots fs cl, 0, { s with inn := { s.inn with
            syms := s.inn.syms ++ symbolsOf k i y0 c.1 c.2 slots fs cl s.inn.key, masks := s.inn.masks ++ masksOf y0 c.2 slots fs s.inn.key } })

/-- The ticket of a cell (R113, R376). -/
def JobSlot.ticketOf (j : JobSlot) (k i : Nat) (c : Nat × ImpCell) (serial : List Byte) (flags : Nat) : Ticket :=
  let first := j.bound i + c.2.yOff
  { job := k, jobId := j.jobId, inst := i, cell := c.1, serial := serial, x := c.2.x, w := c.2.w, lo := j.bound i,
    hi := j.bound (i + 1) - 1, first := first, last := first + c.2.h - 1, ts := none, epoch := none, flags := flags, defects := 0,
    bad := false, enOff := false, unfired := false, halted := none, tag := none, verdict := none }

/-- The records of an instance rendered into its tile buffer, in record order. -/
def State.renderAll (s : State) (k i rp : Nat) (rs : List CellRec) : State :=
  let j := s.job k
  let r := ((j.ticketCells i).zip rs).foldl (fun (a : List Byte × List Ticket × State) c =>
    let x := a.2.2.renderRec k i c.1 c.2
    (a.1 ++ x.1, a.2.1 ++ [j.ticketOf k i c.1 c.2.serial x.2.1], x.2.2)) (([] : List Byte), ([] : List Ticket), s)
  let s := r.2.2
  let s := if r.1.isEmpty then s else s.tileWrite k (j.tileSize * (i % j.tileBufs)) r.1
  s.setJob k { s.job k with rendering := some ⟨i, rp, r.2.1⟩ }

/-- A job whose instances the renderer may begin (R119, R515). -/
def State.renderable (s : State) (k : Nat) : Bool :=
  let j := s.job k
  (match j.phase with
    | .loaded | .armed | .running | .draining => true
    | _ => false) && !j.stopped && (s.mode = .warm || s.mode = .print) && s.js.job0.rendering.isNone && s.js.job1.rendering.isNone

/-- RENDER_INSTANCE_BEGIN (R119): the next instance of a job, once the four conditions hold. -/
def State.renderBegin (s : State) (k : Nat) : State :=
  let j := s.job k
  let i := j.nextInst
  if !s.renderable k || s.line + s.si.limits.renderAhead < j.bound i || j.released + j.tileBufs ≤ i then s
  else
    match s.readInst j i with
    | .wait => s
    | .order rs => (s.renderAll k i j.rp rs).jobOrder k F.JS_STAT_RECORD_ORDER Ev.RECORD_ORDER
    | .refused e rs => ((s.renderAll k i j.rp rs).fabricRefuse 2 e).jobOrder k F.JS_STAT_RECORD_ORDER Ev.RECORD_ORDER
    | .ends =>
      let s := s.fixEnd k i
      ((s.setJob k { s.job k with rp := (j.rp + 64) % j.ringSize }).jobDiscard k).jobsNow
    | .recs rs rp => s.renderAll k i rp rs

/-- RENDER_INSTANCE_DONE (R117, R376): the instance in hand is finished once its tickets find room. -/
def State.renderDone (s : State) : State :=
  match [0, 1].find? fun k => (s.job k).rendering.isSome with
  | none => s
  | some k =>
    let j := s.job k
    match j.rendering with
    | none => s
    | some r =>
      if !s.ticketRoom r.tickets.length then s
      else
        let s := s.setJob k { j with rendering := none, rp := r.rp, nextInst := r.inst + 1 }
        ((s.addTickets r.tickets).stopAtEnd k).releaseTiles s.wp.hwm k

/-! ## Ends of jobs -/

/-- CLOSING jobs whose last cairn has been issued are DONE; the tile key is erased (R106, R152). -/
def State.jobsDone (s : State) : State :=
  [0, 1].foldl (fun s k =>
    if (s.job k).phase = .closing && !(s.au.tickets.any fun t => t.job = k) then
      s.setJob k { s.job k with phase := .done, tileKey := none }
    else s) s

/-- A request from PRINT to WARM (R29, R124): the job that owns the next line ends at its first boundary above the line index;
tickets at or above it are not printed, and a next job that has not begun by then waits for the next request. -/
def State.endRequest (s : State) : State :=
  match (s.ownerAt (s.line + 1)).orElse fun _ => s.js.cur with
  | none => s
  | some k =>
    match (s.job k).firstAbove (s.line + 1) with
    | none => s
    | some i =>
      let s := if s.js.next = some k then s else { s with js := { s.js with next := none } }
      (s.endJob k i).jobsNow

/-! ## HOLD, IDLE and WARM -/

/-- What entry to HOLD and to IDLE does to a job slot (R515). -/
def State.jobHold (s : State) (k : Nat) : State :=
  let j := s.job k
  match j.phase with
  | .running | .draining => (s.jobDiscard k).setJob k { (s.jobDiscard k).job k with phase := .closing }
  | .loaded | .armed =>
    if 0 < j.nextInst || j.rendering.isSome then
      s.jobToFailed k 0xE
    else s
  | .closing => s.setJob k j.giveUp
  | _ => s

/-- Both slots, then which job is the current one: a next job that stays ARMED where the current one has ended. -/
def State.jobsHold (s : State) : State :=
  let s := (s.jobHold 0).jobHold 1
  let gone (k : Nat) : Bool := (s.job k).phase = .closing
  let s := [0, 1].foldl (fun s k => if gone k then s.jobLeave k else s) s
  ({ s with js := { s.js with cur := s.js.cur.orElse fun _ => s.armedJob } }).dropFromLine 0

/-- Entry to WARM (R515): a tile key drawn for each job that has lost its own. -/
def State.jobsWarm (s : State) : State :=
  [0, 1].foldl (fun s k =>
    let j := s.job k
    if (j.phase = .loaded || j.phase = .armed) && j.tileKey.isNone then
      let r := s.drawRandom 32
      r.2.setJob k { j with tileKey := some r.1 }
    else s) s

/-! ## Registers -/

/-- STATE of a job slot. -/
def JobPhase.code : JobPhase → Nat
  | .empty => 0 | .loaded => 1 | .armed => 2 | .running => 3 | .draining => 4 | .closing => 5 | .done => 6 | .failed => 7

/-- STATE of a plate slot. -/
def State.plateCode (s : State) (k : Nat) : Nat := match (s.plate k).phase with
  | .empty => 0
  | .loading => 1
  | .ready => if s.plateMapped k then 3 else 2

/-- Registers of JS, and those of AU for play data, that follow from typed state. -/
def State.jsView (s : State) (addr : Nat) : Option Word :=
  let w (n : Nat) : Option Word := some (BitVec.ofNat 32 n)
  if addr = Reg.JS_STAT then
    some (F.JS_STAT_CUR_SLOT.put (F.JS_STAT_NEXT_VALID.put (s.rd addr) (b2n (s.js.next.isSome || (s.armedJob.isSome && s.armedJob ≠ s.js.cur)))) (s.js.cur.getD 0))
  else if addr = Reg.JS_LRING then some (F.JS_LRING_ENTRY_KIB.put (s.rd addr) (if s.si.loaded then s.entryBytes / 1024 else 0))
  else if addr = Reg.AU_PLAY_STAT then
    some (F.AU_PLAY_STAT_KEY_LOCKED.put (F.AU_PLAY_STAT_FAIL_RUN.put (s.rd addr) (min 255 s.au.playRun))
      (b2n (s.js.job0.phase.held || s.js.job1.phase.held)))
  else
    ((List.range 16).findSome? fun k =>
      if addr = Reg.JS_PLATEk_CFG k then some (F.JS_PLATEk_CFG_STATE.put (s.rd addr) (s.plateCode k))
      else if addr = Reg.JS_PLATEk_FILL k then w (min 0xFFFFFFFF (s.plate k).fill)
      else none).orElse fun _ =>
    [0, 1].findSome? fun k =>
      let j := s.job k
      if addr = Reg.JS_JOBs_STAT k then w (j.err * 256 + j.phase.code)
      else if addr = Reg.JS_JOBs_RING_WP k then w j.wp
      else if addr = Reg.JS_JOBs_RING_RP k then w j.rp
      else if addr = Reg.JS_JOBs_END_LINE k then w (match j.endLine with
        | some e => e + s.dMax - 1
        | none => 0)
      else if addr = Reg.JS_JOBs_LAST_ROW k then w (match j.endInst with
        | some e => e + 0xFFFFFFFF
        | none => 0)
      else if addr = Reg.JS_JOBs_RASTER_WP k then w j.rasterWp
      else if addr = Reg.JS_JOBs_DISCARD k then w j.discard
      else none

end Sys2Proof.Machine
end

