-- ==== Sys2Proof/Machine/LineRing.lean ====
section
/-! DEFINITION. What a bar line is composed from: the slice buffers that HSTR fills from plates and raster lines (R108, R109, R123,
R290) and the line ring that CMPS fills from the tile buffers (R120, R121, R132, R149). -/

namespace Sys2Proof.Machine

/-! ## Plates and slices -/

/-- Values of 2 bits packed four to a byte, the first in the lowest bits (R108). -/
def packValues (vs : List Nat) : List Byte :=
  (List.range ((vs.length + 3) / 4)).map fun b => BitVec.ofNat 8 ((List.range 4).foldl (fun a i => a + vs.getD (4 * b + i) 0 % 4 * 4 ^ i) 0)

/-- Value `i` of packed values. -/
def packedValue (b : List Byte) (i : Nat) : Nat := (b.getD (i / 4) 0).toNat / 4 ^ (i % 4) % 4

/-- The bar position of a column of a row slice (R109). -/
def Structure.colX (si : Structure) (p r c : Nat) : Int := si.barX p (2 * c + (if si.res24 p then r else 0))

/-- The byte of a plate line that holds a bar position (R108). -/
def plateByte (x : Nat) : Nat := 16384 * (x % 2) + x / 2 / 4

/-- The bytes of a plate line that a row slice reads: the first and their number; none where no column lies on the bar (R109). -/
def Structure.sliceSpan (si : Structure) (p r : Nat) : Option (Nat × Nat) :=
  let bs := (List.range 1024).filterMap fun c =>
    let x := si.colX p r c
    if 0 ≤ x && x ≤ 131071 then some (plateByte x.toNat) else none
  match bs.head?, bs.getLast? with
  | some a, some b => some (min a b, max a b - min a b + 1)
  | _, _ => none

/-- The byte a plate line starts at for image line `i` of a job (R109), or the raster line (R123). -/
def State.plateLineAt (s : State) (j : JobSlot) (g : LineProg) (i : Nat) : Nat :=
  let k := i - j.jobStart
  if g.raster then j.rasterAddr + 32768 * (k % j.rasterLines)
  else
    let p := j.planeMap / 16 ^ g.plane % 16
    let r := s.plateRegion p
    r.1 + 32768 * (k % s.fld (Reg.JS_PLATEk_CFG p) F.JS_PLATEk_CFG_LINES)

/-- HSTR reads row slice `r` of port `p` for bar line `l`: zeros where no job owns the image line, nothing where the fabric refuses the
read (R109, R123, R293). -/
def State.sliceRead (s : State) (g : LineProg) (l p r : Nat) : Option (List Byte) × State :=
  let d := s.lineDelay (rowH p r)
  let zero := List.replicate 256 0#8
  match (if l < d then none else s.ownerAt (l - d)), s.si.sliceSpan p r with
  | some k, some (o, n) =>
    match s.readAs 0 (s.plateLineAt (s.job k) g (l - d) + o) n with
    | (none, s) => (none, s)
    | (some b, s') =>
      (some (packValues ((List.range 1024).map fun c =>
        let x := s.si.colX p r c
        if 0 ≤ x && x ≤ 131071 then packedValue b (4 * (plateByte x.toNat - o) + x.toNat / 2 % 4) else 0)), s')
  | _, _ => (some zero, s)

/-- The slices of a bar line read into the slice buffers (R122, R290); held only if every read is made. -/
def State.hstrRead (s : State) (l : Nat) : State :=
  let r := (s.validPorts.flatMap fun p => [(p, 0), (p, 1)]).foldl (fun (a : Option (List (Nat × List Byte)) × State) x =>
    match a.1, s.si.progOf (x.1 / 4) with
    | some rows, some g =>
      match a.2.sliceRead g l x.1 x.2 with
      | (some b, s) => (some (rows ++ [(2 * x.1 + x.2, b)]), s)
      | (none, s) => (none, s)
    | _, _ => a) (some [], s)
  match r.1 with
  | some rows => { r.2 with js := { r.2.js with slices := r.2.js.slices ++ [⟨l, rows⟩] } }
  | none => r.2

/-- The slice buffers hold a bar line (R122). -/
def State.slicesHeld (s : State) (l : Nat) : Bool := s.js.slices.any fun e => e.line = l

/-- The 1,024 values the slice buffers hold of a row slice of a bar line. -/
def State.sliceValues (s : State) (l p r : Nat) : List Nat :=
  let b := (((s.js.slices.find? fun e => e.line = l).bind fun e => (e.rows.find? fun x => x.1 = 2 * p + r).map (·.2)).getD [])
  (List.range 1024).map fun c => packedValue b c

/-! ## Tiles -/

/-- One line of a slot block: its layer, left edge and width on the bar, values and coverage (R132). -/
structure TileRow where
  layer : Nat
  x : Nat
  w : Nat
  vals : List Byte
  valBit : Nat
  cov : List Byte
  covBit : Nat

/-- `n` bytes of a job's tile buffers from offset `o`, decrypted with the job's tile key (R149). -/
def State.tileBytes (s : State) (k o n : Nat) : List Byte :=
  let j := s.job k
  ((tileCrypt (j.tileKey.getD []) k (o / 16 * 16) (s.dramRead (j.tileAddr + o / 16 * 16) (o % 16 + n))).drop (o % 16)).take n

/-- The value of a tile line at a bar position it covers (R132, R134). -/
def TileRow.at (t : TileRow) (x : Int) : Option Nat :=
  if x < t.x || (t.x + t.w : Nat) ≤ x then none
  else
    let i := x.toNat - t.x
    if (t.cov.getD ((t.covBit + i) / 8) 0).toNat.testBit ((t.covBit + i) % 8) then some (packedValue t.vals (t.valBit + i)) else none

/-- The tile lines of an image line of a job (R132): every slot of the instance that holds the line, if rendered. -/
def State.tileRows (s : State) (k i : Nat) : List TileRow :=
  let j := s.job k
  match j.instAt i with
  | none => []
  | some n =>
    if j.nextInst ≤ n then []
    else
      let y := i - j.bound n
      let slots := (j.imp.cellsOf (n % j.nRows)).flatMap fun c => (j.imp.slotsOf c.2).map fun t => (c.2, t)
      (slots.foldl (fun (a : Nat × List TileRow) ct =>
        let t := ct.2
        let sy := ct.1.yOff + t.yOff
        let rows := if sy ≤ y && y < sy + t.h then
            let q := (y - sy) * t.w
            let cv := a.1 + (t.w * t.h + 3) / 4
            [⟨t.layer, ct.1.x + t.xOff, t.w, s.tileBytes k (a.1 + q / 4) ((q % 4 + t.w + 3) / 4), q % 4,
              s.tileBytes k (cv + q / 8) ((q % 8 + t.w + 7) / 8), q % 8⟩]
          else []
        (a.1 + slotBytes t.w t.h, a.2 ++ rows)) (n % j.tileBufs * j.tileSize, [])).2

/-- Why the fabric refuses CMPS the tile buffer of an image line (R150, R250, R293). -/
def State.tileRefused (s : State) (x : Nat × Nat) : Option Refused :=
  let j := s.job x.1
  match j.instAt x.2 with
  | some n => if j.tileSize = 0 || j.imp.slots.isEmpty then none else s.fabricCheck 0 1 (j.tileAddr + n % j.tileBufs * j.tileSize) j.tileSize false
  | none => none

/-! ## The line ring -/

/-- Line delays of the valid rows, each once. -/
def State.delays (s : State) : List Nat := (s.validRows.map s.lineDelay).eraseDups

/-- Image lines of jobs that a bar line carries: job slot and image line (R37, R113). -/
def State.imagesAt (s : State) (l : Nat) : List (Nat × Nat) :=
  s.delays.filterMap fun d => if l < d then none else (s.ownerAt (l - d)).map fun k => (k, l - d)

/-- Every instance and raster line a bar line needs is there (R121, R123). -/
def State.lineRendered (s : State) (l : Nat) : Bool :=
  (s.imagesAt l).all fun x =>
    let j := s.job x.1
    (match j.instAt x.2 with
      | some i => decide (i < j.nextInst)
      | none => true) && (!j.raster || decide (x.2 < j.jobStart + j.rasterWp))

/-- The next bar line to enter the line ring. -/
def State.lringNext (s : State) : Nat := match s.js.lring.getLast? with
  | some e => e.line + 1
  | none => s.wp.hwm + 1

/-- The line ring entry of a bar line is free again: the line has been fired or left blank, and on a witness its CT has been
compared (R121, R397). -/
def State.entryFreed (s : State) (l : Nat) : Bool :=
  decide (l ≤ s.wp.hwm) &&
    (s.witRole ≠ 2 || (s.au.wit.done.any fun d => d.1 = l) || s.au.wit.blanks.contains l || (s.bar l).ct.isNone)

/-- The covered words of a row slice of a bar line, layer by layer (R120, R121): 128 columns to a word. -/
def State.sliceWords (s : State) (l p r : Nat) : List RingWord :=
  let d := s.lineDelay (rowH p r)
  match if l < d then none else s.ownerAt (l - d) with
  | none => []
  | some k =>
    let rows := s.tileRows k (l - d)
    ((s.si.layersOf (p / 4)).eraseDups).flatMap fun y => (List.range 8).filterMap fun w =>
      let vs := (List.range 128).map fun c =>
        (rows.filter fun t => t.layer = y).findSome? fun t => t.at (s.si.colX p r (128 * w + c))
      if vs.all Option.isNone then none
      else some ⟨2 * p + r, y, w, packValues (vs.map fun v => v.getD 0), packBits (vs.map Option.isSome)⟩

/-- The covered words of a bar line. -/
def State.lineWords (s : State) (l : Nat) : List RingWord :=
  s.validPorts.flatMap fun p => s.sliceWords l p 0 ++ s.sliceWords l p 1

/-- LINE_RING_FILL (R121): the entry of the next line is taken once it is free and what it needs is rendered; a line that
needs no tile data is complete at once. HSTR reads the slices of a line with its copy (log entry 40). -/
def State.lringFill (s : State) : State :=
  let l := s.lringNext
  if s.js.cur.isNone || !s.entryFreed (l - s.si.limits.lead - 8) || !s.lineRendered l then s
  else
    let free := (s.imagesAt l).isEmpty
    let s := { s with js := { s.js with lring := s.js.lring ++ [⟨l, free, []⟩] } }
    if free then s.hstrRead l else s

/-- LINE_RING_ENTRY_DONE (R121): the oldest copy under way is done; one the fabric refuses stays under way. -/
def State.lringDone (s : State) : State :=
  match s.js.lring.find? fun e => !e.complete with
  | none => s
  | some e =>
    match (s.imagesAt e.line).findSome? s.tileRefused with
    | some x => s.fabricRefuse 1 x
    | none =>
      let ws := s.lineWords e.line
      let s := { s with js := { s.js with lring := s.js.lring.map fun (x : LineEntry) => if x.line = e.line then ⟨x.line, true, ws⟩ else x } }
      s.hstrRead e.line

/-- The entry of a bar line is complete. -/
def State.lringComplete (s : State) (l : Nat) : Bool := s.js.lring.any fun e => e.line = l && e.complete

/-- What FETCH and MERGE of a bar line read is there: its line ring entry and its slices (R122). -/
def State.lineHeld (s : State) (l : Nat) : Bool := s.lringComplete l && s.slicesHeld l

/-- The covered words of a row slice that the line ring holds of a bar line. -/
def State.ringWords (s : State) (l p r : Nat) : List RingWord :=
  ((s.js.lring.find? fun e => e.line = l).map (·.words)).getD [] |>.filter fun w => w.slice = 2 * p + r

end Sys2Proof.Machine
end

