-- ==== Sys2Proof/Machine/Loop.lean ====
section
/-! DEFINITION. The loop engine (11): requests and control states (R263, R264, R270, R271), the tick (R254 to R256),
arithmetic (R257), operands (R258), instructions (R259), signals and channels (R260, R261), the control step (R265, R266) and
supervision (R267 to R269). -/

namespace Sys2Proof.Machine

/-! ## Arithmetic (R257) -/

/-- Saturation to a Q15 word, to the 40-bit accumulator, and to INTEG. -/
def satQ (v : Int) : Int := clamp (-32768) 32767 v
def satAcc (v : Int) : Int := clamp (-549755813888) 549755813887 v
def satInteg (v : Int) : Int := clamp (-2147483648) 2147483647 v

/-- rnd(ACC). -/
def rndQ (v : Int) : Int := satQ ((v + 16384) / 32768)

/-! ## Contexts -/

/-- Context `c` and its row of the context table. -/
def State.ctx (s : State) (c : Nat) : LoopCtx := s.le.ctxs.getD c LoopCtx.reset
def State.ctxCfg (s : State) (c : Nat) : CtxCfg := s.si.ctxs.getD c ⟨false, 0, 0, 0, 0, 0, 0⟩

/-- Context `c` replaced. -/
def State.setCtx (s : State) (c : Nat) (x : LoopCtx) : State := { s with le := { s.le with ctxs := s.le.ctxs.set c x } }

/-- Parameter word `w` of context `c`, as a whole number and in Q15 (R262). -/
def State.parN (s : State) (c w : Nat) : Nat := s.si.params.getD (32 * c + w) 0 % 65536
def State.parQ (s : State) (c w : Nat) : Int := toSigned 16 (s.parN c w)

/-- The set point of a context. -/
def State.loopSp (s : State) (c : Nat) : Int := s.fldI (Reg.LE_Cc_SP c) F.LE_Cc_SP_SP

/-- A loaded context: MAN where enabled, DISABLED otherwise, all words 0 (R258, R263). -/
def CtxCfg.load (k : CtxCfg) : LoopCtx := if k.en then { LoopCtx.reset with st := .man } else LoopCtx.reset

/-- Every context as the loaded table says (R263). -/
def State.loopLoad (s : State) : State := { s with le := { s.le with ctxs := s.si.ctxs.map CtxCfg.load } }

/-! ## Signals and channels -/

/-- The line rate in Hz (R260): 0 when no tick has come for 1 ms. -/
def State.lineRate (s : State) : Nat :=
  match s.wp.tickAt with
  | some t => if s.now - t < 1000000 then 1000000000 / s.wp.period else 0
  | none => 0

/-- A signal of R260 in Q15; `none` for a reserved one. -/
def State.signal (s : State) (n : Nat) : Option Int :=
  if n ≤ 0x3F then
    some (satQ (match (s.hp.ports.getD n HeadPort.reset).temp with
      | some t => t.1 * 8
      | none => 0))
  else if n ≤ 0x50 && 0x40 ≤ n then some (satQ (s.fld (Reg.AN_CHk_VAL (n - 0x40)) F.AN_CHk_VAL_MV / 2 : Nat))
  else if 0x60 ≤ n && n ≤ 0x67 then some (satQ (s.mo.raw.getD (n - 0x60) 0 * 8 : Nat))
  else if n = 0x70 then some (satQ (s.lineRate / 4 : Nat))
  else if 0x80 ≤ n && n ≤ 0x8F then some (s.fldI (Reg.LE_XINi (n - 0x80)) F.LE_XINi_VALUE)
  else if 0xB0 ≤ n && n ≤ 0xBF then some (satQ (s.le.drops.getD (n - 0xB0) 0 : Nat))
  else if 0x100 ≤ n && n ≤ 0x13F then some (s.ctx (n - 0x100)).outv
  else none

/-- What a channel of R261 reads back as; `none` for a reserved one. -/
def State.channel (s : State) (ch : Nat) : Option Int :=
  if ch ≤ 0x3F then some (s.fld (Reg.FE_Pp_WARM ch) F.FE_Pp_WARM_WIDTH * 64 : Nat)
  else if 0x40 ≤ ch && ch ≤ 0x4F then some (s.fldI (Reg.LE_XOUTi (ch - 0x40)) F.LE_XOUTi_VALUE)
  else if 0x80 ≤ ch && ch ≤ 0xBF then some (s.loopSp (ch - 0x80))
  else none

/-- A channel written by a committed run (R261). -/
def State.writeChannel (s : State) (ch : Nat) (v : Int) : State :=
  if ch ≤ 0x3F then
    let q := s.hp.ports.getD ch HeadPort.reset
    let was := match q.warmWas with
      | some (w, t) => if t = s.now then (w, t) else (s.fld (Reg.FE_Pp_WARM ch) F.FE_Pp_WARM_WIDTH, s.now)
      | none => (s.fld (Reg.FE_Pp_WARM ch) F.FE_Pp_WARM_WIDTH, s.now)
    let s := { s with hp := { s.hp with ports := s.hp.ports.set ch { q with warmWas := some was } } }
    s.setFld (Reg.FE_Pp_WARM ch) F.FE_Pp_WARM_WIDTH ((clamp 0 32767 v).toNat / 64)
  else if 0x40 ≤ ch && ch ≤ 0x4F then s.setFld (Reg.LE_XOUTi (ch - 0x40)) F.LE_XOUTi_VALUE (ofSigned 16 v)
  else if 0x80 ≤ ch && ch ≤ 0xBF then s.setFld (Reg.LE_Cc_SP (ch - 0x80)) F.LE_Cc_SP_SP (ofSigned 16 v)
  else s

/-! ## Instructions -/

/-- Fields of a loop-engine word (R259). -/
def opA (w : Nat) : Nat := bits w 26 21
def opB (w : Nat) : Nat := bits w 20 15

/-- The channel of the first OUT of a context's code, which MAN reads back (R263). -/
def State.outChannel (s : State) (k : CtxCfg) : Option Nat :=
  ((List.range k.codeLen).findSome? fun i =>
    let w := s.si.code.getD (k.entry + i) 0
    if bits w 31 27 = 0x0B then some (bits w 9 0) else none)

/-- A run in progress: its shadow context, ACC, the channel writes waiting for END, cycles so far, and the events its
supervision calls for, and OUTV at its start (R255). -/
structure LoopRun where
  x : LoopCtx
  acc : Int
  outs : List (Nat × Int)
  cycles : Nat
  implausible : Bool
  frozen : Bool
  start : Int
  deriving DecidableEq, Repr

/-- How a run ends: committed, ended without commit, or by a word that is not defined (R259). -/
inductive RunEnd where
  | commit (r : LoopRun) | stopped (late : Bool) (cycles : Nat) | fault (cycles : Nat)
  deriving DecidableEq, Repr

/-- The operand of an index (R258); `none` for a reserved one. -/
def State.operand (s : State) (c : Nat) (x : LoopCtx) (i : Nat) : Option Int :=
  if i < 0x20 then some (s.parQ c i)
  else if i < 0x30 then some (x.s.getD (i - 0x20) 0)
  else
    match i with
    | 0x30 => some x.y
    | 0x31 => some (s.loopSp c)
    | 0x32 => some (satQ (s.loopSp c - x.y))
    | 0x33 => some (rndQ x.integ)
    | 0x34 => some x.outv
    | 0x35 => some x.model
    | 0x36 => some 32767
    | 0x37 => some 0
    | _ => none

/-- PI (R265, R266): the step in AUTO, the preset where one is due, and P alone in the other states. -/
def State.piStep (s : State) (c cls : Nat) (r : LoopRun) : LoopRun :=
  let x := r.x
  let e := satQ (s.loopSp c - x.y)
  let f := r.acc
  let p := s.parQ c 0 * e * 2 ^ (s.parN c 3)
  let hold : LoopRun := { r with acc := satAcc (x.outv * 32768) }
  if x.st ≠ .auto then hold
  else if x.preset then
    { hold with x := { x with integ := satInteg (x.outv * 32768 - f - p), preset := false } }
  else
    let lo := s.parQ c 4
    let hi := s.parQ c 5
    let ki := s.parQ c 1
    let ic := clamp (lo * 32768) (hi * 32768) (x.integ + ki * e)
    let u := satAcc (match cls with
      | 0 => f + p
      | 1 => f + p + ic
      | _ => f + p + x.integ)
    let integ := match cls with
      | 0 => x.integ
      | 1 => if (hi < rndQ u ∧ 0 < e) ∨ (rndQ u < lo ∧ e < 0) then x.integ else ic
      | _ => x.integ + ki * e + s.parQ c 2 * (clamp lo hi (rndQ u) - rndQ u) * 32768
    let out := clamp lo hi (rndQ u)
    { r with x := { x with outv := out, integ := satInteg integ }, acc := satAcc (out * 32768) }

/-- SUP (R267 to R269). A trip leaves OUTV as it was, also where PI stands before it. -/
def State.supStep (s : State) (c : Nat) (r : LoopRun) : LoopRun :=
  let x := r.x
  if !x.modelSet then { r with x := { x with model := x.y, modelSet := true } }
  else
    let ma := s.parQ c 9
    let mg := s.parQ c 10
    let pred := satQ (x.model + rndQ (ma * (rndQ (mg * x.prevOut) + s.parQ c 11 - x.model)))
    let res := satQ (x.y - pred)
    let model := satQ (pred + rndQ (s.parQ c 12 * res))
    let ob := if (s.parN c 13 : Int) < res.natAbs then x.outband + 1 else 0
    let fz := if x.y ≠ x.prevY then 0 else if x.prevOut ≠ x.prevOut2 then x.frozen + 1 else x.frozen
    let imp := decide (0 < ob ∧ ob = s.parN c 14)
    let fro := decide (x.frozen < fz ∧ fz = s.parN c 15)
    let trip := (imp || fro) && x.st = .auto
    { r with x := { x with model := model, outband := ob, frozen := fz, st := if trip then .holdout else x.st,
                           holdRuns := if trip then 0 else x.holdRuns, outv := if trip then r.start else x.outv,
                           tripped := x.tripped || trip },
             outs := if trip then r.outs.map (fun o => (o.1, r.start)) else r.outs,
             implausible := r.implausible || imp, frozen := r.frozen || fro }

/-- The instructions of a run from a code address, at most `fuel` of them (R259). Every path goes forward, so a run has no
more instructions than its range has words. -/
def State.runLoop (s s0 : State) (c : Nat) (k : CtxCfg) : Nat → Nat → LoopRun → RunEnd
  | 0, _, r => .stopped false r.cycles
  | fuel + 1, pc, r =>
    if k.entry + k.codeLen ≤ pc then .stopped false r.cycles
    else
      let w := s.si.code.getD pc 0
      let go (n : Nat) (r : LoopRun) : RunEnd := s.runLoop s0 c k fuel (pc + 1) { r with cycles := r.cycles + n }
      let bad : RunEnd := .fault r.cycles
      let withA (f : Int → RunEnd) : RunEnd := match s.operand c r.x (opA w) with
        | some a => f a
        | none => bad
      let withAB (f : Int → Int → RunEnd) : RunEnd := withA fun a => match s.operand c r.x (opB w) with
        | some b => f a b
        | none => bad
      let jump (n : Nat) : RunEnd :=
        if k.entry + k.codeLen ≤ bits w 10 0 then .stopped true (r.cycles + n)
        else s.runLoop s0 c k fuel (bits w 10 0) { r with cycles := r.cycles + n }
      let backward := decide (bits w 10 0 ≤ pc)
      match bits w 31 27 with
      | 0x01 => withA fun a => go 1 { r with acc := a * 32768 }
      | 0x02 => withA fun a => go 1 { r with acc := satAcc (r.acc + a * 32768) }
      | 0x03 => withA fun a => go 1 { r with acc := satAcc (r.acc - a * 32768) }
      | 0x04 => withAB fun a b => go 1 { r with acc := satAcc (r.acc + a * b) }
      | 0x05 => withAB fun a b => go 1 { r with acc := satAcc (r.acc - a * b) }
      | 0x06 =>
        let n := toSigned 5 (bits w 4 0)
        go 1 { r with acc := satAcc (if n < 0 then r.acc / 2 ^ n.natAbs else r.acc * 2 ^ n.natAbs) }
      | 0x07 =>
        if 0x20 ≤ opA w && opA w < 0x30 then go 1 { r with x := { r.x with s := r.x.s.set (opA w - 0x20) (rndQ r.acc) } }
        else bad
      | 0x08 =>
        if 0x20 ≤ opA w && opA w < 0x30 then
          match s0.signal (bits w 9 0) with
          | some v =>
            let x := { r.x with s := r.x.s.set (opA w - 0x20) v }
            go 2 { r with x := if w.testBit 20 then { x with y := v } else x }
          | none => bad
        else bad
      | 0x09 => go 6 (s.piStep c k.cls r)
      | 0x0A => go 6 (s.supStep c r)
      | 0x0B =>
        match s.channel (bits w 9 0) with
        | some _ => go 2 (if r.x.st = .man then r else { r with outs := r.outs ++ [(bits w 9 0, r.x.outv)] })
        | none => bad
      | 0x0C => if backward then bad else withA fun a => if r.acc < a * 32768 then jump 2 else go 1 r
      | 0x0D => if backward then bad else jump 2
      | 0x1F => .commit { r with cycles := r.cycles + 1 }
      | _ => bad

/-! ## Runs -/

/-- The state a context enters its run in: a request takes effect, and HOLDOUT passes to RAMP (R263, R264, R270). -/
def State.startCtx (s : State) (c : Nat) : LoopCtx :=
  let x := s.ctx c
  let x := match x.req with
    | some .auto => { x with st := .auto, preset := true, req := none, inband := 0, tripped := false }
    | some .ramp => if x.st = .auto || x.st = .holdout then { x with st := .ramp, req := none, inband := 0 } else { x with req := none }
    | some _ => { x with st := .man, req := none, inband := 0 }
    | none => x
  if x.st = .holdout && s.parN c 8 ≤ x.holdRuns then { x with st := .ramp } else x

/-- OUTV at the start of a run (R263); the run that takes a context from MAN to AUTO reads it back too (R266). -/
def State.startOut (s : State) (c : Nat) (x : LoopCtx) : Int :=
  match (s.ctx c).st, x.st with
  | .man, .auto | _, .man => ((s.outChannel (s.ctxCfg c)).bind s.channel).getD x.outv
  | _, .ramp =>
    let d := s.parQ c 6 - x.outv
    x.outv + clamp (-(s.parQ c 7)) (s.parQ c 7) d
  | _, _ => x.outv

/-- LATE of a context (R255). -/
def State.loopLate (s : State) (c : Nat) : State :=
  let s := (s.bump (Reg.LE_Cc_CNT c) F.LE_Cc_CNT_LATE).flag (Reg.LE_Cc_STAT c) F.LE_Cc_STAT_LATE
  (s.flag Reg.LE_STAT F.LE_STAT_LATE).raise Ev.LOOP_LATE (s.ctxCfg c).owner

/-- A run committed (R255): state, channels, supervision events, INBAND and the walk to SAFE_OUT. -/
def State.loopCommit (s : State) (c : Nat) (r : LoopRun) : State :=
  let owner := (s.ctxCfg c).owner
  let e := satQ (s.loopSp c - r.x.y)
  let safe := r.x.st = .ramp && decide (r.x.outv = s.parQ c 6)
  let inb := if r.x.st = .auto && decide ((e.natAbs : Int) ≤ s.parQ c 16) then min 255 (r.x.inband + 1) else 0
  let x := { r.x with e := e, prevY := r.x.y, prevOut2 := r.x.prevOut, prevOut := r.x.outv, inband := inb,
                      st := if safe then .man else r.x.st,
                      holdRuns := if r.x.st = .holdout && (s.ctx c).st = .holdout then r.x.holdRuns + 1 else r.x.holdRuns }
  let s := s.setCtx c x
  let s := r.outs.foldl (fun s o => s.writeChannel o.1 o.2) s
  let s := s.bump (Reg.LE_Cc_CNT c) F.LE_Cc_CNT_RUNS
  let s := if r.implausible then
      ((s.flag (Reg.LE_Cc_STAT c) F.LE_Cc_STAT_IMPLAUSIBLE).flag Reg.LE_STAT F.LE_STAT_IMPLAUSIBLE).raise Ev.LOOP_IMPLAUSIBLE owner
    else s
  let s := if r.frozen then
      ((s.flag (Reg.LE_Cc_STAT c) F.LE_Cc_STAT_FROZEN).flag Reg.LE_STAT F.LE_STAT_FROZEN).raise Ev.LOOP_FROZEN owner
    else s
  if safe then (s.flag Reg.LE_STAT F.LE_STAT_AT_SAFE).raise Ev.LOOP_AT_SAFE owner else s

/-- Cycles between loop ticks (R254). -/
def tickCycles : Nat := 20000

/-- Entry to HOLD or TEST (R270): AUTO and HOLDOUT pass to RAMP at their next run. -/
def State.loopRampAll (s : State) : State :=
  let ramp (x : LoopCtx) : LoopCtx := if x.st = .auto || x.st = .holdout then { x with req := some .ramp } else x
  { s with le := { s.le with ctxs := s.le.ctxs.map ramp } }

/-- A HOLD entry that a run of this tick calls for (R272): the contexts that run after it begin under R270. -/
def State.loopHold (s : State) : State := if s.sys.holdDue && s.mode ≠ .hold then s.loopRampAll else s

/-- The run of one due context (R64, R254, R255): the state after it and the cycles of the tick used so far. A branch out of
the code range sets LATE of the context, a run past its last word nothing. -/
def State.loopRun (s0 : State) (a : State × Nat) (c : Nat) : State × Nat :=
  let s := a.1
  if tickCycles ≤ a.2 then (s.loopLate c, a.2)
  else
    let x := s.startCtx c
    let k := s.ctxCfg c
    let r : LoopRun := ⟨{ x with outv := s.startOut c x }, 0, [], 4, false, false, s.startOut c x⟩
    let s := s.setCtx c x
    match s.runLoop s0 c k (k.codeLen + 1) k.entry r with
    | .commit r => if a.2 + r.cycles ≤ tickCycles then (s.loopCommit c r, a.2 + r.cycles) else (s.loopLate c, tickCycles)
    | .stopped out n =>
      if tickCycles < a.2 + n then (s.loopLate c, tickCycles)
      else (if out then s.flag (Reg.LE_Cc_STAT c) F.LE_Cc_STAT_LATE else s, a.2 + n)
    | .fault n =>
      if a.2 + n ≤ tickCycles then
        let s := (s.flag (Reg.LE_Cc_STAT c) F.LE_Cc_STAT_FAULT).flag Reg.LE_STAT F.LE_STAT_FAULT
        (s.raise Ev.LOOP_FAULT k.owner, a.2 + n)
      else (s.loopLate c, tickCycles)

/-- A context is due at tick `k` (R254, R270). -/
def State.loopDue (s : State) (k c : Nat) : Bool :=
  let f := s.ctxCfg c
  f.en && f.period ≠ 0 && k % f.period = 0 && (s.ctx c).st ≠ .disabled && !(s.mode = .test && (s.ctx c).st = .man)

/-- LOOP_TICK (R254 to R256): the tick is counted outside BOOT and its due contexts run in order on one snapshot. -/
def State.loopTick (s : State) : State :=
  if s.mode = .boot then s
  else
    let k := (s.le.tick + 1) % 2 ^ 32
    let s := { s with le := { s.le with tick := k } }
    let run (a : State × Nat) (c : Nat) : State × Nat := let r := s.loopRun a c; (r.1.loopHold, r.2)
    let r := ((List.range 64).filter (s.loopDue k)).foldl run (s, 0)
    let s := (r.1.setFld Reg.LE_LOAD F.LE_LOAD_LAST_CYCLES r.2).raiseTo Reg.LE_LOAD F.LE_LOAD_MAX_CYCLES r.2
    { s with le := { s.le with drops := List.replicate 16 0 } }

/-! ## Requests -/

/-- A write of LE_Cc_CTRL (R264, R269). -/
def State.loopCtrl (s : State) (c : Nat) (w : Word) : State :=
  let refuse (s : State) : State := s.flag (Reg.LE_Cc_STAT c) F.LE_Cc_STAT_REQ_REFUSED
  let auto (s : State) : State :=
    let st := Reg.LE_Cc_STAT c
    if (s.ctx c).st = .man && (s.mode = .idle || s.mode = .warm || s.mode = .print || s.mode = .service) &&
        !s.isSet st F.LE_Cc_STAT_LATE && !s.isSet st F.LE_Cc_STAT_FAULT &&
        !((s.ctx c).tripped && (s.isSet st F.LE_Cc_STAT_IMPLAUSIBLE || s.isSet st F.LE_Cc_STAT_FROZEN)) then
      s.setCtx c { s.ctx c with req := some .auto }
    else refuse s
  let man (s : State) : State :=
    match (s.ctx c).st with
    | .auto | .holdout | .ramp => s.setCtx c { s.ctx c with req := some .man }
    | _ => refuse s
  let s := if F.LE_Cc_CTRL_AUTO.get w = 1 then auto s else s
  if F.LE_Cc_CTRL_MAN.get w = 1 then man s else s

/-- INBAND of a context (R271). -/
def State.inband (s : State) (c : Nat) : Bool :=
  let x := s.ctx c
  x.st = .auto && decide (0 < x.inband ∧ s.parN c 17 ≤ x.inband)

/-- Every enabled context with GATE = 1 is in band (R29, R271). -/
def State.loopsInBand (s : State) : Bool :=
  (List.range 64).all fun c => !(s.ctxCfg c).en || !s.isSet (Reg.LE_Cc_CFG c) F.LE_Cc_CFG_GATE || s.inband c

/-! ## What the registers show -/

/-- The code of a control state in LE_Cc_STAT. -/
def LoopState.code : LoopState → Nat
  | .disabled => 0 | .man => 1 | .auto => 2 | .holdout => 3 | .ramp => 4

/-- LE registers and windows that follow from typed state. -/
def State.leView (s : State) (addr : Nat) : Option Word :=
  if addr = Reg.LE_TICK then some (BitVec.ofNat 32 s.le.tick)
  else if 0x81000 ≤ addr && addr < 0x83000 then some (BitVec.ofNat 32 (s.parN ((addr - 0x81000) / 128) ((addr - 0x81000) / 4 % 32)))
  else if 0x84000 ≤ addr && addr < 0x86000 then some (BitVec.ofNat 32 (s.si.code.getD ((addr - 0x84000) / 4) 0))
  else if addr < 0x80400 || 0x80C00 ≤ addr then none
  else
    let c := (addr - 0x80400) / 32
    let x := s.ctx c
    let k := s.ctxCfg c
    let put (l : List (BitField × Nat)) : Option Word := some (l.foldl (fun w fv => BitField.put fv.1 w fv.2) (s.rd addr))
    match addr % 32 with
    | 0x04 => put [(F.LE_Cc_CFG_EN, b2n k.en), (F.LE_Cc_CFG_CLASS, k.cls), (F.LE_Cc_CFG_PERIOD, k.period)]
    | 0x08 => put [(F.LE_Cc_STAT_INBAND, b2n (s.inband c)), (F.LE_Cc_STAT_STATE, x.st.code)]
    | 0x10 => put [(F.LE_Cc_Y_MODEL, ofSigned 16 x.model), (F.LE_Cc_Y_Y, ofSigned 16 x.y)]
    | 0x14 => put [(F.LE_Cc_OUT_E, ofSigned 16 x.e), (F.LE_Cc_OUT_OUTV, ofSigned 16 x.outv)]
    | 0x18 => some (BitVec.ofNat 32 (ofSigned 32 x.integ))
    | _ => none

end Sys2Proof.Machine
end

