-- ==== Sys2Proof/Machine/Reload.lean ====
section
/-! DEFINITION. Partial reloads (03): START and ABORT (R73, R76), verification, activation in SERVICE (R74) and at line A in PRINT
(R75), and the measurement M (R69). -/

namespace Sys2Proof.Machine

/-- The public key of IMAGE VERIFY slot `k` (slots 3 to 6 of the key store, 16). -/
def State.imageKey (s : State) (k : Nat) : Option (List Byte) := AMap.find? s.au.slots (3 + k)

/-- BU_SI_STATUS.STATE. -/
def ReloadState.code : ReloadState → Nat
  | .idle => 0 | .verify => 1 | .pending => 2 | .applying => 3 | .done => 4 | .refused => 5 | .aborted => 6

/-- The reload replaced. -/
def State.setReload (s : State) (r : Reload) : State := { s with bu := { s.bu with reload := r } }

/-- A reload that has ended is no longer in progress (R76). -/
def ReloadState.busy : ReloadState → Bool
  | .verify => true | .pending => true | .applying => true | _ => false

/-- SI_RELOAD_START (R73, R76). -/
def State.reloadStart (s : State) : State :=
  let r := s.bu.reload
  if r.state.busy then s.setReload { r with err := 0xC }
  else if s.mode ≠ .service && s.mode ≠ .print then
    s.setReload { Reload.reset with state := .refused, err := 0xB, failSection := 0xFF }
  else
    let a := s.rdN Reg.BU_SI_STAGE * 64
    (s.wrN Reg.BU_SI_ACT_LINE 0).setReload
      { Reload.reset with state := .verify, addr := a, size := s.fld Reg.BU_SI_SIZE F.BU_SI_SIZE_SIZE,
                          root := leNat (s.dramRead (a + 0x28) 4), inPrint := decide (s.mode = .print) }

/-- A reload aborted with ERR HOLD or ABORT: nothing is activated (R76). -/
def State.reloadAbort (s : State) (err : Nat) : State :=
  let r := s.bu.reload
  if r.state = .verify || r.state = .pending then
    let s := { s with si := { s.si with params := r.paramsWere.getD s.si.params } }
    s.setReload { r with state := .aborted, err := err, shadow := none, shadowOwn := [], reached := false, paramsWere := none }
  else s

/-- M reported in BU_SI_MEAS0 to BU_SI_MEAS11 (R69). -/
def State.setM (s : State) (m : List Byte) : State :=
  (List.range 12).foldl (fun s k => s.wrN (Reg.BU_SI_MEASi k) (leAt m (4 * k) 4)) { s with bu := { s.bu with m := m } }

/-- R69: M of a partial image is SHA-384 over M and its digest. -/
def State.foldM (s : State) : State :=
  (s.setM (sha384 (s.bu.m ++ s.bu.reload.digest))).bump Reg.BU_SI_PARTIALS F.BU_SI_PARTIALS_COUNT

/-- A context of the subtree over an activation in SERVICE (R74): held in MAN, and back to AUTO with a preset where it was in
AUTO, its in-band count begun anew (R271). -/
def reloadCtx (new : CtxCfg) (x : LoopCtx) : LoopCtx :=
  if !new.en then LoopCtx.reset
  else match x.st with
    | .disabled => { LoopCtx.reset with st := .man }
    | .auto => { x with req := none, preset := true, inband := 0 }
    | _ => { x with st := .man, req := none }

/-- Codes and roles of the subtree brought up to date after a change of enables, as one commit (R203, R208). -/
def State.recodeBelow (s : State) (root : Nat) : State :=
  let ps := s.validPorts.filter fun p => s.si.below root (portH p)
  let v := s.view
  let stale := ps.any fun p => (List.range (s.si.positions p)).any fun x => v.code p x ≠ (s.mapEnt s.nh.mapNew p x).cur
  if !stale then s
  else
    let epoch := (s.nh.epoch + 1) % 65536
    let rec' := { s with nh := { s.nh with epoch := epoch } }.record (s.wp.hwm + 1) epoch
    ps.foldl (fun s p => (List.range (s.si.positions p)).foldl (fun s x => s.recode v epoch rec'.1 (p, x)) s) rec'.2

/-- Activation in SERVICE (R74); a HOLD that ending the sequences of the subtree calls for wins (R76). -/
def State.activateService (s : State) (new : Structure) : State :=
  let r := s.bu.reload
  let ps := s.validPorts.filter fun p => s.si.below r.root (portH p)
  let s := ps.foldl (fun s p => s.setPort p { s.port p with spit := none }) s
  let s := if s.nh.gate.running && s.nh.gate.ports.any ps.contains then s.gateAbort 1 else s
  if s.sys.holdDue then s else
  let old := s.si
  let inSub (c : Nat) : Bool :=
    old.below r.root ((old.ctxs.getD c ⟨false, 0, 0, 0, 0, 0, 0⟩).owner) ||
    new.below r.root ((new.ctxs.getD c ⟨false, 0, 0, 0, 0, 0, 0⟩).owner)
  let ctxs := s.le.ctxs.zipIdx.map fun x =>
    if inSub x.2 then reloadCtx (new.ctxs.getD x.2 ⟨false, 0, 0, 0, 0, 0, 0⟩) x.1 else x.1
  let s := { s with si := new, ut := { s.ut with own := r.shadowOwn }, le := { s.le with ctxs := ctxs } }
  let s := ((s.foldM.resLoad old ps).recodeBelow r.root).relay
  let s := (s.validPorts.filter fun p => s.si.below r.root (portH p)).foldl (fun s p => s.identifyPort p) s
  s.setReload { s.bu.reload with state := .done, shadow := none, shadowOwn := [] }

/-- The loop parameters of a PRINT reload put in force (R75); a context in AUTO whose gains P0 to P3 change is preset (R266). -/
def State.paramsOn (s : State) (new : Structure) : State :=
  let ctxs := s.le.ctxs.zipIdx.map fun x =>
    let c := 32 * x.2
    if x.1.st = .auto && (s.si.params.drop c).take 4 ≠ (new.params.drop c).take 4 then { x.1 with preset := true } else x.1
  { s with si := { s.si with params := new.params }, le := { s.le with ctxs := ctxs } }

/-- The tick that starts line `l`: the loop parameters of a reload whose line A it reaches are those of the next loop tick
(R75). -/
def State.paramsReach (s : State) (l : Nat) : State :=
  let r := s.bu.reload
  match r.shadow with
  | some new =>
    if r.state = .pending && decide (r.actLine ≤ l) && r.paramsWere.isNone then
      (s.paramsOn new).setReload { r with paramsWere := some s.si.params }
    else s
  | none => s

/-- Activation of a PRINT reload (R75): waveform tables and, where the tick of line A has not done it, loop parameters. -/
def State.activatePrint (s : State) : State :=
  let r := s.bu.reload
  match r.shadow with
  | some new =>
    if r.state ≠ .pending then s
    else
      let s := if r.paramsWere.isSome then s else s.paramsOn new
      let s := { s with si := { s.si with waves := new.waves } }
      s.foldM.setReload { s.bu.reload with state := .done, shadow := none, shadowOwn := [], reached := false, paramsWere := none }
  | none => s

/-- A reload that waits has reached its activation: it takes place at the end of the command, unless a HOLD comes with it
(R76). -/
def State.reloadDue (s : State) : State := s.setReload { s.bu.reload with reached := true }

/-- Line `l` is fired: a reload whose line A it reaches is activated (R75). -/
def State.reloadReach (s : State) (l : Nat) : State :=
  if s.bu.reload.state = .pending && s.bu.reload.actLine ≤ l then s.reloadDue else s

/-- The end of a command that has raised no HOLD: an activation it has reached takes place. -/
def State.reloadSettle (s : State) : State := if s.bu.reload.reached then s.activatePrint else s

/-- The waveform tables that govern a line (R75). -/
def State.wavesAt (s : State) (l : Nat) : List WaveTab :=
  let r := s.bu.reload
  match r.shadow with
  | some new => if r.state = .pending && r.actLine ≤ l then new.waves else s.si.waves
  | none => s.si.waves

/-- The waveform table that governs a port for a line (R67, R75). -/
def State.waveAt (s : State) (l p : Nat) : Option WaveTab := s.si.waveOf (s.wavesAt l) p

/-- SI_VERIFY_DONE (R72 to R75); delays that would carry a unit of a child out of range are refused (R53). A PRINT reload whose
verification ends after PRINT was left is activated at once (the model's choice, log entry 20). -/
def State.verifyDone (s : State) : State :=
  let r := s.bu.reload
  if r.state ≠ .verify then s
  else
    let img := s.dramRead r.addr (max 128 r.size)
    match loadPartial img s.imageKey r.inPrint s.bu.m s.si s.ut.own s.ut.parent.ld s.ut.parent.sd with
    | .error e => s.setReload { r with state := .refused, err := e.err.code, failSection := e.sect }
    | .ok x =>
      let c := s.childrenOver x.si x.own
      let s := c.2.setReload { r with shadow := some x.si, shadowOwn := x.own, digest := x.digest }
      if c.1 then
        s.setReload { r with state := .refused, err := SiErr.structure.code, failSection := sectIdx (sectTable img) 1 }
      else if !r.inPrint then s.activateService x.si
      else
        let a := s.boundaryAt (s.line + 4)
        let s := (s.setReload { s.bu.reload with state := .pending, actLine := a }).wrN Reg.BU_SI_ACT_LINE a
        if s.mode = .print then s else s.reloadDue

/-- Entry to WARM from PRINT activates a reload that waits (R76). -/
def State.reloadWarm (s : State) : State := if s.bu.reload.state = .pending then s.reloadDue else s

/-- BU_SI_STATUS. -/
def State.reloadView (s : State) (addr : Nat) : Option Word :=
  if addr = Reg.BU_SI_STATUS then
    some (BitVec.ofNat 32 (s.bu.reload.failSection * 65536 + s.bu.reload.err * 256 + s.bu.reload.state.code))
  else none

end Sys2Proof.Machine
end

