-- ==== Sys2Proof/Machine/Compose.lean ====
section
/-! DEFINITION. Composition of a bar line (R11, R162): FETCH (R109, R123), MERGE (R134), MAP (R204), HIDE (R205), the tag taken
from it (R373), and EMIT with the bank limit (R186 to R188) and the header of R156 and R157. What is composed for a line is a
function of the job stream, the structure and the map in force for it; the commands here decide only when. -/

namespace Sys2Proof.Machine

/-! ## FETCH and MERGE -/

/-- MERGE of one layer into the values of a row slice (R134): mode 0 REPLACE, 1 MAX, 2 KNOCKOUT. -/
def mergeWords (ws : List RingWord) (m : Nat × Nat) (vals : List Nat) : List Nat :=
  let ws := ws.filter fun w => w.layer = m.2
  if ws.isEmpty then vals
  else vals.zipIdx.map fun v =>
    match ws.find? fun w => w.word = v.2 / 128 with
    | some w =>
      let i := v.2 % 128
      if (w.cov.getD (i / 8) 0).toNat.testBit (i % 8) then
        (if m.1 = 0 then packedValue w.vals i else if m.1 = 1 then max v.1 (packedValue w.vals i) else 0)
      else v.1
    | none => v.1

/-- The row slice of row `r` of port `p` at bar line `l` before MAP, with its image line (R109, R134): the slice HSTR holds, each layer
of the line program merged into it from the line ring. -/
def State.rowSlice (s : State) (g : LineProg) (l p r : Nat) : Int × List Nat :=
  let ws := s.ringWords l p r
  ((l : Int) - s.lineDelay (rowH p r), g.merges.foldl (fun v m => mergeWords ws m v) (s.sliceValues l p r))

/-! ## MAP and HIDE -/

/-- The positions of a row slice, as map positions: nozzles of one row are two apart with RES2400 = 1. -/
def State.mapPos (s : State) (p r c : Nat) : Nat := if s.si.res24 p then 2 * c + r else c

/-- The columns that compensate the gaps of a row slice, one for each gap compensated (R205). -/
def hideChoices (codes : List Nat) (vals : List Nat) (i : Int) : List Nat :=
  let ok (c : Nat) : Bool := decide (codes.getD c 2 < 2)
  (List.range 1024).filterMap fun c =>
    if codes.getD c 0 = 2 && 1 ≤ vals.getD c 0 then
      let lo := if 0 < c && ok (c - 1) then some (c - 1) else none
      let hi := if c < 1023 && ok (c + 1) then some (c + 1) else none
      if i % 2 = 0 then lo.orElse fun _ => hi else hi.orElse fun _ => lo
    else none

/-- The values of a row after MAP and HIDE (R204, R205): a nozzle takes its slice value where its row serves the position,
raised by 1 for each gap it compensates, up to 3. -/
def mapHide (res24 : Bool) (r : Nat) (codes vals : List Nat) (i : Int) : List Nat :=
  let ch := hideChoices codes vals i
  (List.range 1024).map fun c =>
    let serves := if res24 then decide (codes.getD c 2 < 2) else decide (codes.getD c 2 = r)
    if serves then min 3 (vals.getD c 0 + (ch.filter fun x => x = c).length) else 0

/-- The 2,048 values of a port at a bar line, before R188. -/
def State.composePort (s : State) (g : LineProg) (l p : Nat) : List Nat :=
  let row (r : Nat) : List Nat :=
    let v := s.rowSlice g l p r
    mapHide (s.si.res24 p) r ((List.range 1024).map fun c => s.codeAt l p (s.mapPos p r c) v.1) v.2 v.1
  let a := row 0
  let b := row 1
  (List.range 1024).flatMap fun c => [a.getD c 0, b.getD c 0]

/-! ## EMIT -/

/-- Payload bytes in wire order (R158): four nozzles to a byte, the first in the highest bits. -/
def payloadBytes (vals : List Nat) : List Byte :=
  (List.range 512).map fun i => BitVec.ofNat 8 (((vals.drop (4 * i)).take 4).foldl (fun a v => 4 * a + v) 0)

/-- A header with its CRC (R156, R157). -/
def frameHeader (upper : Nat) (payload : List Byte) : Nat := upper * 256 + crcN 8 0x07 0 (beBytes 3 upper ++ payload)

/-- Bits [31:8] of a LINE header: PAR, PHASES, WSEL, DEFER. -/
def lineUpper (par phases wsel defer : Nat) : Nat := par * 2 ^ 22 + phases % 16 * 2 ^ 18 + wsel % 4 * 2 ^ 16 + defer % 65536

/-- cnt[q][k] of R186 for the values of a port. -/
def phaseCounts (f : Nat) (vals : List Nat) : List Nat :=
  (List.range f).map fun k => (vals.zipIdx.filter fun v => 1 ≤ v.1 && v.2 / 2 % f = k).length

/-- The active set of the table that governs a port for a line (R162); 0 without a table. -/
def State.wselAt (s : State) (l p : Nat) : Nat := match s.waveAt l p with
  | some t => t.activeSet
  | none => 0

/-- The entries EMIT writes for a bank: `pay q` the values of port 4b + q, `on q` whether it is counted and sent, the active
sets, and the header PAR bit (R162, R186 to R188). Answers the entries and whether the bank limit blanked them, the loads and
the bursts deferred. -/
def emitBank (k : BankCfg) (line par : Nat) (wsel : Nat → Nat) (on : Nat → Bool) (pay : Nat → List Nat) :
    List FifoEntry × Bool × List Nat × Nat :=
  let cnt := (List.range 4).map fun q => if on q then phaseCounts k.phases (pay q) else List.replicate k.phases 0
  let pl := placeBank k.phases k.overflow k.bankMax cnt
  let loads := if pl.blank then List.replicate (k.phases + k.overflow) 0 else pl.load
  let zero := List.replicate 2048 0
  let entry (q : Nat) : FifoEntry :=
    let v := if pl.blank && on q then zero else pay q
    let defer := if pl.blank then 0 else pl.defer.getD q 0
    { line := line, header := frameHeader (lineUpper par (k.phases - 1) (wsel q) defer) (payloadBytes v), values := v, loads := loads,
      burstSlots := (List.range k.phases).map fun i => if pl.blank then i else pl.slotOf q i, complete := false,
      blanked := pl.blank && on q }
  ((List.range 4).map entry, pl.blank, loads, if pl.blank then 0 else pl.assign.length)

/-- The lowest effectively enabled port of a bank for a bar line; the bank's first port without one. -/
def State.bankUnit (s : State) (l b : Nat) : Nat :=
  portH ((((List.range 4).map (4 * b + ·)).find? fun p => s.enabledAt l (portH p)).getD (4 * b))

/-- FE_BANKb counters after EMIT, and BANK_LIMIT where the placement blanked the bank (R188). -/
def State.bankCount (s : State) (l b : Nat) (blank : Bool) (loads : List Nat) (deferred : Nat) : State :=
  let s := s.raiseTo (Reg.FE_BANKb_LOAD b) F.FE_BANKb_LOAD_MAXLOAD (loads.foldl max 0)
  let s := s.bump (Reg.FE_BANKb_DEFER b) F.FE_BANKb_DEFER_COUNT deferred
  if blank then
    ((s.bump (Reg.FE_BANKb_LOAD b) F.FE_BANKb_LOAD_BLANK).flag Reg.FE_STAT F.FE_STAT_BANK_LIMIT).raise Ev.BANK_LIMIT (s.bankUnit l b)
  else s

/-- One bank composed (R162): its entries written, not yet complete. -/
def State.composeBank (s : State) (l b : Nat) (pay : Nat → List Nat) : State :=
  let r := emitBank (s.si.bank b) l (l % 2) (fun q => s.wselAt l (4 * b + q)) (fun q => s.enabledAt l (portH (4 * b + q)))
    (fun q => pay (4 * b + q))
  let s := s.bankCount l b r.2.1 r.2.2.1 r.2.2.2
  let s := if r.2.1 then s.setBar l { s.bar l with limit := (s.bar l).limit ||| 2 ^ b } else s
  (List.range 4).foldl (fun s q =>
    let p := 4 * b + q
    if s.si.portValid p then
      match r.1[q]? with
      | some e => s.setPort p { s.port p with fifo := (s.port p).fifo ++ [e] }
      | none => s
    else s) s

/-! ## When lines are composed -/

/-- A bar line has been composed. -/
def State.composed (s : State) (l : Nat) : Bool := (s.bar l).ct.isSome

/-- A bar line is composed and every engine is done with it. -/
def State.composeReady (s : State) (l : Nat) : Bool :=
  s.composed l && (match s.hp.composing with
    | some c => decide (c.1 ≠ l)
    | none => true)

/-- Bar lines are composed in PRINT, and in WARM for the job that is armed. -/
def State.composes (s : State) : Bool :=
  s.mode = .print || (s.mode = .warm && (match s.js.cur with
    | some k => (s.job k).phase = .armed
    | none => false))

/-- A bar line composed: a commit whose line it is takes effect first (R207); the tag covers the payloads before R188 (R373). -/
def State.composeLine (s : State) (l : Nat) : State :=
  let s := (s.activate l).parentActivate l
  let es := (List.range 16).filter fun e => (s.si.progOf e).isSome
  let vals := es.map fun e => (e, (List.range 4).map fun q =>
    match s.si.progOf e with
    | some g => if s.si.portValid (4 * e + q) then s.composePort g l (4 * e + q) else List.replicate 2048 0
    | none => List.replicate 2048 0)
  let pay (p : Nat) : List Nat := match vals.find? fun v => v.1 = p / 4 with
    | some v => v.2.getD (p % 4) []
    | none => List.replicate 2048 0
  let s := s.auCompose l pay
  let s := s.setBar l { s.bar l with limit := 0 }
  let s := es.foldl (fun s e => s.composeBank l e pay) s
  { s with hp := { s.hp with composing := if es.isEmpty then none else some (l, es.foldl (fun m e => m ||| 2 ^ e) 0) } }

/-- Every head FIFO has room for an entry: it holds two (R162). -/
def State.fifoRoom (s : State) : Bool := s.hp.ports.all fun q => decide (q.fifo.length < 2)

/-- The next bar line composed, if it may begin (R11, R162): one of the two lines after the line in hand, its line ring entry
complete and its slices held, the head FIFOs with room for it and the staging it needs done (R207). -/
def State.composeNext (s : State) : State :=
  let top := s.wp.ticking.getD s.wp.hwm
  let l := if s.composed (top + 1) then top + 2 else top + 1
  if s.composes && s.hp.composing.isNone && !s.composed l && s.fifoRoom && s.lineHeld l && s.stagedFor l then s.composeLine l else s

/-- The level of HSTR (R298): bursts of the slices held for bar lines after the one being composed, and bursts of its transfers granted
and not yet delivered. A row slice of a line is 4 bursts. -/
def State.hstrLevel (s : State) : Nat :=
  let ahead (l : Nat) : Bool := match s.hp.composing with
    | some c => decide (c.1 < l)
    | none => !s.composed l
  let held := s.js.slices.foldl (fun n (e : SliceLine) => if ahead e.line then n + 4 * e.rows.length else n) 0
  let open' (t : Xfer) : Nat := if t.req = 0 && !t.write && !t.failed then t.n - t.got.length else 0
  [0, 1].foldl (fun n a => (((s.arb a).run.map (·.1)).getD [] ++ (s.arb a).done).foldl (fun n t => n + open' t) n) held

/-- LINE_COMPOSE_DONE (R162): engine `e` has written the last word of its entries, after `cycles` cycles. -/
def State.composeDone (s : State) (e cycles : Nat) : State :=
  match s.hp.composing with
  | none => s
  | some (l, m) =>
    if !m.testBit e then s
    else
      let s := s.raiseTo (Reg.HP_LEe e) F.HP_LEe_MAX_CYCLES cycles
      let s := (List.range 4).foldl (fun s q =>
        let h := s.port (4 * e + q)
        s.setPort (4 * e + q) { h with fifo := h.fifo.map fun x => if x.line = l then { x with complete := true } else x }) s
      let m := m - 2 ^ e
      { s with hp := { s.hp with composing := if m = 0 then none else some (l, m) } }

end Sys2Proof.Machine
end

