-- ==== Sys2Proof/Machine/Heads.lean ====
section
/-! DEFINITION. Head ports and gate inputs (07): when FIRE is held low (R174), the cut latches (R175 to R177), CONFIG frames
(R159, R167), return frames (R169, R170), identification and hot plug (R171, R173), and what the registers show. -/

namespace Sys2Proof.Machine

/-! ## Enable and inhibit -/

/-- Gate inputs that count as asserted: all of them while VDDIO5 is out of range (R492). -/
def State.gateIn (s : State) : Nat := if s.sys.vddio5Low then 0x1FF else s.hp.gateLevel

/-- The GATING entry of a gate input; without an image, HOLD class and no port (R65). -/
def State.gating (s : State) (g : Nat) : GateCfg := s.si.gating.getD g ⟨0, 3, 0, 0⟩

/-- A set cut latch holds FIRE of a port low (R175). -/
def State.gateCut (s : State) (p : Nat) : Bool :=
  (List.range 9).any fun g => s.hp.cut.testBit g && (s.gating g).mask.testBit p

/-- A cause of R174 holds FIRE of a port low. -/
def State.inhibited (s : State) (p : Nat) : Bool :=
  let q := s.port p
  !s.enabled (portH p) || q.st ≠ .ready || !q.cfgOk || q.hot || s.gateCut p || s.sys.onOsc ||
    (match s.mode with
      | .boot | .idle | .hold | .test => true
      | _ => false)

/-- Bank `b`. -/
def State.bank (s : State) (b : Nat) : BankState := s.hp.banks.getD b BankState.reset

/-- Bank `b` replaced. -/
def State.setBank (s : State) (b : Nat) (k : BankState) : State := { s with hp := { s.hp with banks := s.hp.banks.set b k } }

/-- FIRE of a port forced low now: pulses to come are not emitted, one in progress is truncated (R175). -/
def cutPulses (now : Nat) (ps : List (Nat × Nat)) : List (Nat × Nat) :=
  ps.filterMap fun x => if now ≤ x.1 then none else some (x.1, min x.2 (now - x.1))

/-- The line in hand of a port cut short (R175, R177, R374): PART_FIRED, or NOT_FIRED where no pulse has left the port, also where
a STATUS frame has covered its LAT already. -/
def State.cutPort (s : State) (p : Nat) (flag : Option Nat) : State :=
  let q := s.port p
  if q.waveEnd ≤ s.now then s
  else
    let kept := cutPulses s.now q.pulses
    let s := s.setPort p { q with pulses := kept, waveEnd := kept.foldl (fun m x => max m (x.1 + x.2)) 0 }
    match (s.bank (p / 4)).latLine with
    | some l =>
      let b := s.bar l
      if b.known.testBit p && (b.code p = 0 || b.code p = 6) then
        s.outcome l p (if kept.isEmpty then 1 else 2) flag true
      else s
    | none => s

/-! ## Gate inputs -/

/-- An accepted transition of a gate input; too many within 10 ms raise GATE_CHATTER (R460). -/
def State.gateChatter (s : State) (g : Nat) : State :=
  let n := max 2 (s.fld Reg.FL_CFG F.FL_CFG_GCH_N)
  let ts := (AMap.get (fun _ => []) s.fl.gateTimes g ++ [s.now]).filter fun t => decide (s.now - t ≤ 10000000)
  let chatter := decide (n < ts.length)
  let s := { s with fl := { s.fl with gateTimes := AMap.set (fun _ => []) s.fl.gateTimes g (if chatter then [] else ts) } }
  if chatter then
    ((s.setBit Reg.FL_GATE_MON F.FL_GATE_MON_CHATTER g).flag Reg.FL_STAT F.FL_STAT_GATE_CHATTER).raiseWith Ev.GATE_CHATTER 1 0 g
  else s

/-- A cut latch sets: FIRE of the masked ports goes low, GATE_CUT is raised with the class and unit of the GATING entry, and
ESTOP_N stops the axes (R175, R176). -/
def State.gateLatch (s : State) (g : Nat) : State :=
  if s.hp.cut.testBit g then s
  else
    let e := s.gating g
    let s := { s with hp := { s.hp with cut := s.hp.cut ||| 2 ^ g } }
    let s := ((List.range 64).filter fun p => e.mask.testBit p).foldl (fun s p => s.cutPort p (some 4)) s
    let s := (s.flag Reg.HP_STAT F.HP_STAT_GATE_CUT).raiseWith Ev.GATE_CUT e.cls e.unit g
    if g = 8 then s.estopHalt else s

/-- GATE_INPUT_ASSERT (R175). -/
def State.gateAssert (s : State) (g : Nat) : State :=
  (({ s with hp := { s.hp with gateLevel := s.hp.gateLevel ||| 2 ^ g } }).gateChatter g).gateLatch g

/-- GATE_INPUT_DEASSERT (R176): the latch stays set. -/
def State.gateDeassert (s : State) (g : Nat) : State :=
  if s.hp.gateLevel.testBit g then ({ s with hp := { s.hp with gateLevel := s.hp.gateLevel - 2 ^ g } }).gateChatter g else s

/-- GATE_CLEAR (R176): every latch clears whose input is deasserted. -/
def State.gateClear (s : State) : State := { s with hp := { s.hp with cut := s.hp.cut &&& s.gateIn } }

/-! ## CONFIG frames -/

/-- Words 1 + 2 s and 2 + 2 s of a CONFIG payload for set `k` of a table (R159, R181). -/
def setWords (t : WaveTab) (k : Nat) : List Nat :=
  if t.setCount ≤ k then [1, 0]
  else
    let m (i : Nat) : Nat := if i < t.nslot k then (t.slot k i).mask else 0
    [(List.range 6).foldl (fun a i => a + m i * 2 ^ (8 + 4 * i)) (t.nslot k), m 6 + 16 * m 7 + 256 * m 8]

/-- The 128 words of a CONFIG payload (R159); a port without a table gets sets of no drops. -/
def configWords (t : Option WaveTab) (ident : Bool) : List Nat :=
  let sets := (List.range 4).flatMap fun k => match t with
    | some t => setWords t k
    | none => [1, 0]
  (1 + 65536 * b2n ident) :: (sets ++ List.replicate 119 0)

/-- A CONFIG frame as an entry: header with KIND 1 and the payload as the 2,048 values its bits spell (R156, R159). -/
def State.configFrame (s : State) (p : Nat) : FifoEntry :=
  let pay := (configWords (s.waveAt (s.wp.hwm + 1) p) (s.port p).identReq).flatMap (beBytes 4)
  { line := 0, header := frameHeader (2 ^ 23) pay,
    values := pay.flatMap fun b => [b.toNat / 64, b.toNat / 16 % 4, b.toNat / 4 % 4, b.toNat % 4],
    loads := [], burstSlots := [], complete := true, blanked := false }

/-- A CONFIG frame due on every port that is READY (R167). -/
def State.configAll (s : State) : State :=
  { s with hp := { s.hp with ports := s.hp.ports.map fun q => if q.st = .ready then { q with cfgDue := true, cfgFails := 0 } else q } }

/-- CFG_SEND (R167): ignored in PRINT. -/
def State.cfgSend (s : State) : State :=
  if s.mode = .print then s.flag Reg.HP_STAT F.HP_STAT_CFG_REFUSED else s.configAll

/-- A write of HP_CTRL. -/
def State.hpCtrl (s : State) (w : Word) : State :=
  let s := if F.HP_CTRL_GATE_CLEAR.get w = 1 then s.gateClear else s
  if F.HP_CTRL_CFG_SEND.get w = 1 then s.cfgSend else s

/-! ## Port states -/

/-- HEAD_LOST of a port (R173). -/
def State.headLost (s : State) (p : Nat) : State := (s.flag Reg.HP_STAT F.HP_STAT_HEAD_LOST).raise Ev.HEAD_LOST (portH p)

/-- A port enters a state other than READY (R171, R173): CFG_OK clears, and an effectively enabled port that leaves READY in
WARM, PRINT or SERVICE is lost. -/
def State.portTo (s : State) (p : Nat) (st : PortState) : State :=
  let q := s.port p
  let was := decide (q.st = .ready)
  let s := s.setPort p { q with st := st, cfgOk := false, cfgDue := false }
  if was && s.enabled (portH p) && (s.mode = .warm || s.mode = .print || s.mode = .service) then s.headLost p else s

/-- A port becomes READY (R167, R171, R219). -/
def State.portReady (s : State) (p : Nat) : State :=
  let q := s.port p
  if q.st = .ready then s
  else
    let s := s.setPort p { q with st := .ready, cfgOk := false, cfgDue := s.mode ≠ .print, cfgFails := 0, staleAt := s.now }
    let s := (s.flag Reg.HP_STAT F.HP_STAT_HEAD_INSERT).raise Ev.HEAD_INSERT (portH p)
    s.headSeen p

/-- A port judged by the last IDENT against its PORTMAP entry (R171): only once an image is loaded. -/
def State.judgePort (s : State) (p : Nat) : State :=
  let q := s.port p
  if !s.si.loaded || !s.si.portValid p || !q.identValid then s
  else if q.headType = (s.si.ports.getD p ⟨0, 0⟩).headType then s.portReady p
  else ((s.portTo p .mismatch).flag Reg.HP_STAT F.HP_STAT_HEAD_MISMATCH).raise Ev.HEAD_MISMATCH (portH p)

/-- Every port judged when an image is loaded (R171). -/
def State.judgeAll (s : State) : State := (List.range 64).foldl (fun s p => s.judgePort p) s

/-- HEAD_ABSENT_TIMEOUT (R171): the LATs and frames of the head are gone with it. -/
def State.headAbsent (s : State) (p : Nat) : State :=
  let s := s.portTo p .absent
  s.setPort p { s.port p with identValid := false, lats := [], lastPar := none }

/-- HEAD_STALE_TIMEOUT (R171): no good STATUS frame for STALE_US. -/
def State.headStale (s : State) (p : Nat) : State :=
  let us := max 60 (s.fld Reg.HP_RET_CFG F.HP_RET_CFG_STALE_US)
  if (s.port p).st = .ready && decide (us * 1000 ≤ s.now - (s.port p).staleAt) then s.portTo p .present else s

/-- Entry to PRINT (R173): an effectively enabled port that is not READY or not configured is lost. -/
def State.printPorts (s : State) : State :=
  (s.validPorts.filter fun p => s.enabled (portH p) && ((s.port p).st ≠ .ready || !(s.port p).cfgOk)).foldl (fun s p => s.headLost p) s

/-! ## Return frames -/

/-- A return frame is good (R169): eight bytes under a good stop bit, a known TYPE, and the CRC over bits [55:0] in wire order. -/
def returnOk (bs : List Byte) : Bool :=
  bs.length = 8 && (leAt bs 0 8 % 16 = 1 || leAt bs 0 8 % 16 = 2) && crcN 8 0x07 0 ((bs.take 7).map revByte) = leAt bs 7 1

/-- Bytes of a frame, its start bit before `now`: a LAT that fell at least 200 ns before it is covered (R169). -/
def latCovered (now : Nat) (r : LatRec) : Bool := decide (r.time + 20 + 200 + 6600 ≤ now)

/-- The LATs a STATUS frame whose last bit arrives now covers (R169). -/
def HeadPort.covered (q : HeadPort) (now : Nat) : List LatRec := q.lats.filter (latCovered now)

/-- A STATUS frame has covered the LATs it covers: a later frame covers none of them, and the PAR of their last LINE frame is the
one PAR_ECHO goes on with (R169, R170). -/
def HeadPort.cover (q : HeadPort) (now : Nat) : HeadPort :=
  { q with lats := q.lats.filter (fun r => !latCovered now r),
           lastPar := match ((q.covered now).filter fun r => !r.config).getLast? with
             | some r => some r.par
             | none => q.lastPar }

/-- A CONFIG frame reported by the head (R167, R171): accepted, resent, or given up after the third resend. -/
def State.configReport (s : State) (p : Nat) (err : Bool) : State :=
  let q := s.port p
  if !err then s.setPort p { q with cfgOk := decide (q.st = .ready), cfgFails := 0 }
  else if 3 ≤ q.cfgFails then
    (((s.setPort p { q with cfgFails := 0 }).flag Reg.HP_STAT F.HP_STAT_HEAD_CFG).raise Ev.HEAD_CFG (portH p))
  else s.setPort p { q with cfgFails := q.cfgFails + 1, cfgDue := s.mode ≠ .print }

/-- A STATUS frame (R170). -/
def State.statusFrame (s : State) (p v : Nat) : State :=
  let q := s.port p
  let cov := q.covered s.now
  let lines := cov.filter fun r => !r.config
  let par := (q.cover s.now).lastPar
  let echo := v.testBit 4
  let crc := v.testBit 5
  let seq := (match par with
    | some x => x != echo
    | none => false) || (v.testBit 6 && !lines.isEmpty)
  let declined := (seq || crc) && !lines.isEmpty
  let s := s.setPort p { q.cover s.now with
    temp := some (toSigned 14 (bits v 21 8), s.now), prevTemp := q.temp, staleAt := s.now, parEcho := echo }
  let s := if crc then s.bump (Reg.HP_Pp_ERRCNT p) F.HP_Pp_ERRCNT_HEAD_CRC else s
  let s := (lines.filterMap (·.line)).foldl (fun s l =>
    if (s.bar l).final.testBit p then s else if declined then s.decline l p else s.outcomeFinal l p) s
  let s := if crc && !lines.isEmpty then
      ((s.flag (Reg.HP_Pp_STAT p) F.HP_Pp_STAT_CRC_ERR).flag Reg.HP_STAT F.HP_STAT_HEAD_CRC).raise Ev.HEAD_CRC (portH p)
    else s
  let s := if seq then
      ((s.flag (Reg.HP_Pp_STAT p) F.HP_Pp_STAT_SEQ_ERR).flag Reg.HP_STAT F.HP_STAT_HEAD_SEQ).raise Ev.HEAD_SEQ (portH p)
    else s
  if cov.any (·.config) then s.configReport p crc else s

/-- An IDENT frame (R169, R171). -/
def State.identFrame (s : State) (p v : Nat) : State :=
  let q := s.port p
  (s.setPort p { q with identValid := true, headType := bits v 19 4, rev := bits v 23 20, serial := bits v 55 24 }).judgePort p

/-- HEAD_RETURN_FRAME (R169): a frame is checked and applied, or discarded with RET_FRAME. What it discards counts as the STATUS
frame of the LATs it covers, which no later frame reports (log entry 41). -/
def State.returnFrame (s : State) (p : Nat) (bs : List Byte) : State :=
  if returnOk bs then
    let v := leAt bs 0 8
    let s := if (s.port p).st = .absent then s.setPort p { s.port p with st := .present } else s
    if v % 16 = 1 then s.statusFrame p v else s.identFrame p v
  else
    let s := s.setPort p ((s.port p).cover s.now)
    let s := (s.bump (Reg.HP_Pp_ERRCNT p) F.HP_Pp_ERRCNT_RET_BAD).flag (Reg.HP_Pp_STAT p) F.HP_Pp_STAT_RET_ERR
    (s.flag Reg.HP_STAT F.HP_STAT_RET_FRAME).raise Ev.RET_FRAME (portH p)

/-! ## What the registers show -/

/-- STATE of HP_Pp_STAT. -/
def PortState.code : PortState → Nat
  | .absent => 0 | .present => 1 | .mismatch => 2 | .ready => 3

/-- Registers of HP that follow from typed state. -/
def State.hpView (s : State) (addr : Nat) : Option Word :=
  if addr = Reg.HP_GATE then some (BitVec.ofNat 32 (s.hp.cut * 65536 + s.gateIn))
  else if addr < Reg.HP_Pp_STAT 0 || Reg.HP_Pp_STAT 64 ≤ addr then none
  else
    let p := (addr - Reg.HP_Pp_STAT 0) / 16
    let q := s.port p
    let put (l : List (BitField × Nat)) : Option Word := some (l.foldl (fun w fv => BitField.put fv.1 w fv.2) (s.rd addr))
    match addr % 16 with
    | 0 => put [(F.HP_Pp_STAT_HEAD_TYPE, q.headType), (F.HP_Pp_STAT_REV, q.rev), (F.HP_Pp_STAT_INHIBIT, b2n (s.inhibited p)),
        (F.HP_Pp_STAT_CFG_OK, b2n q.cfgOk), (F.HP_Pp_STAT_PAR_ECHO, b2n q.parEcho), (F.HP_Pp_STAT_STATE, q.st.code)]
    | 4 => match q.temp with
      | some t => put [(F.HP_Pp_TEMP_AGE_US, min 0xFFFF ((s.now - t.2) / 1000)), (F.HP_Pp_TEMP_TEMP, ofSigned 14 t.1)]
      | none => none
    | 8 => some (BitVec.ofNat 32 q.serial)
    | _ => none

/-- Registers and the waveform table window of FE that follow from typed state. -/
def State.feView (s : State) (addr : Nat) : Option Word :=
  let ws := s.si.waves
  if addr = Reg.FE_WTAB_COUNT then some (BitVec.ofNat 32 ws.length)
  else if 0x58000 ≤ addr && addr < 0x60000 then
    let o := addr - 0x58000
    some (BitVec.ofNat 32 (match ws[o / 608]? with
      | some t => t.le (o % 608) 4
      | none => 0))
  else
    ((List.range 16).findSome? fun b =>
      if addr = Reg.FE_BANKb_CFG b then
        let k := s.si.bank b
        some (BitVec.ofNat 32 (k.overflow * 2 ^ 28 + k.phases * 2 ^ 23 + k.bankMax))
      else none).orElse fun _ =>
    (List.range 64).findSome? fun p =>
      if addr = Reg.FE_Pp_CFG p then
        match s.si.waveIndex ws p, s.si.waveOf ws p with
        | some i, some t => if s.si.portValid p then some (BitVec.ofNat 32 (t.pitch * 65536 + t.activeSet * 256 + i)) else none
        | _, _ => none
      else if addr = Reg.FE_Pp_STAT p then
        some (F.FE_Pp_STAT_DERATE.put (F.FE_Pp_STAT_HOT.put (s.rd addr) (b2n (s.port p).hot)) (b2n (s.port p).derating))
      else none

end Sys2Proof.Machine
end

