-- ==== Sys2Proof/Machine/Firing.lean ====
section
/-! DEFINITION. Firing (07, 08): readings frozen for a line (R12, R189, R190, R192, R193), shift and LAT of a bank (R163 to
R166, R185), the pulses of a line (R183, R191), its outcome (R26, R99, R374), lines left blank (R27), and warming and spit
lines (R195, R196, R215). -/

namespace Sys2Proof.Machine

/-- A port takes part in a bar line: effectively enabled for it, on a controller that is no witness (R397). -/
def State.portOn (s : State) (l p : Nat) : Bool := s.enabledAt l (portH p) && s.witRole ≠ 2

/-- The ports of a bank. -/
def bankPorts (b : Nat) : List Nat := (List.range 4).map (4 * b + ·)

/-- The valid ports of a bank that take part in a bar line. -/
def State.bankOn (s : State) (l b : Nat) : List Nat := (bankPorts b).filter fun p => s.si.portValid p && s.portOn l p

/-! ## Readings -/

/-- Head temperature as a freeze sees it: the last whose stop bit came before this cycle (R170, R194); 0 before any. -/
def HeadPort.tempAt (q : HeadPort) (now : Nat) : Int :=
  match q.temp, q.prevTemp with
  | some t, p => if t.2 < now then t.1 else (match p with
    | some u => u.1
    | none => 0)
  | none, _ => 0

/-- VH of a port: the value last delivered for its bank (R189). -/
def State.vh (s : State) (p : Nat) : Nat := s.fld (Reg.AN_CHk_VAL (p / 4)) F.AN_CHk_VAL_MV

/-- FE_Pp_WARM.WIDTH as a freeze sees it: a write by the loop engine on the freeze cycle applies from the next line on (R194). -/
def State.warmAt (s : State) (p : Nat) : Nat :=
  let now := s.fld (Reg.FE_Pp_WARM p) F.FE_Pp_WARM_WIDTH
  match (s.port p).warmWas with
  | some (w, t) => if t = s.now then w else now
  | none => now

/-- The readings and factors of a line on a port (R189, R190, R195). -/
def State.readings (s : State) (t : WaveTab) (l p pPrev : Nat) : Freeze :=
  let q := s.port p
  let temp := q.tempAt s.now
  let soft := s.si.limits.softT
  let vh := s.vh p
  { line := l, tick := s.now, temp := temp, vh := vh, fT := t.fT temp, fV := t.fV (voltU vh (s.si.bank (p / 4)).vhNom),
    fD := t.fD temp soft, dIdx := if t.fD temp soft = 16384 then 0 else min 7 ((temp - soft).toNat / 32),
    fR := t.trim (effTrim s.si s.ut.own (portH p)), pPrev := pPrev,
    warm := max 50 (min t.warmMax (s.warmAt p)), hot := q.hot }

/-- What the readings of a line call for (R190, R192, R193): VH_RANGE, HEAD_DERATE on a rise, and the inhibit of HARD_T from
the next line on. -/
def State.judgeReadings (s : State) (p : Nat) (f : Freeze) : State :=
  let q := s.port p
  let lim := s.si.limits
  let u := voltU f.vh (s.si.bank (p / 4)).vhNom
  let above := decide (lim.softT < f.temp)
  let hot := decide (lim.hardT < f.temp)
  let s := s.setPort p { q with hot := q.hot || hot, derating := above }
  let s := if u < 6144 || 10176 < u then
      ((s.flag (Reg.FE_Pp_STAT p) F.FE_Pp_STAT_VH_RANGE).flag Reg.FE_STAT F.FE_STAT_VH_RANGE).raise Ev.VH_RANGE (portH p)
    else s
  let s := if above && !q.derating then (s.flag Reg.FE_STAT F.FE_STAT_HEAD_DERATE).raise Ev.HEAD_DERATE (portH p) else s
  if hot && !q.hot then (s.flag Reg.FE_STAT F.FE_STAT_HEAD_HOT).raise Ev.HEAD_HOT (portH p) else s

/-- The freeze of a line on a port at its tick (R12, R189). -/
def State.freezePort (s : State) (l p pPrev : Nat) : State :=
  match s.waveAt l p with
  | none => s
  | some t =>
    let f := s.readings t l p pPrev
    (s.setPort p { s.port p with freeze := (f :: (s.port p).freeze).take 4 }).judgeReadings p f

/-! ## Pulses -/

/-- The pulses of a frame on a port from its start (R161, R183): (cycle, width) of every pulse of every burst, and whether a
width was clamped (R191). -/
def pulsesOf (t : WaveTab) (e : FifoEntry) (f : Freeze) (start : Nat) : List (Nat × Nat) × Bool :=
  let slots := t.slots (bits e.header 25 24)
  let all := e.burstSlots.flatMap fun j => slots.map fun w =>
    let fL := t.fL (e.loads.getD j 0)
    let raw := widthRaw w.wnom f.fT f.fV fL f.fR f.fD
    ((start + j * t.pitch + w.off, if w.warm then f.warm else pulseWidth w.wnom w.wmax f.fT f.fV fL f.fR f.fD),
     !w.warm && (raw < 50 || w.wmax < raw))
  (all.map (·.1), all.any (·.2))

/-- The values of a frame that drive a nozzle: those of 1 to 3 that a slot of the set takes up, 0 elsewhere (R180). -/
def drivenValues (t : WaveTab) (e : FifoEntry) : List Nat :=
  let slots := t.slots (bits e.header 25 24)
  e.values.map fun v => if 1 ≤ v && slots.any (fun w => w.mask.testBit v) then v else 0

/-- The nozzles of a port with a value of 1 to 3. -/
def printing (vals : List Nat) : List Nat := (vals.zipIdx.filter fun v => 1 ≤ v.1).map (·.2)

/-- A line counted for the nozzles of a port: values of 1 to 3 in the accumulators (R200) and in the signal of the bank (R260), drops
in the idle counts (R216). -/
def State.countDrops (s : State) (p : Nat) (t : WaveTab) (e : FifoEntry) : State :=
  let ns := printing e.values
  let s := ns.foldl (fun s n => s.fireCount (2048 * p + n)) s
  let s := (printing (drivenValues t e)).foldl (fun s n => s.drop (2048 * p + n)) s
  { s with le := { s.le with drops := s.le.drops.set (p / 4) (s.le.drops.getD (p / 4) 0 + ns.length) } }

/-- The pulses of the frame in a port's fire latch emitted from a start (R161, R183, R191). -/
def State.emitPulses (s : State) (p start : Nat) (t : WaveTab) (e : FifoEntry) (f : Freeze) : State :=
  let r := pulsesOf t e f start
  let q := s.port p
  let s := s.setPort p { q with pulses := r.1, waveEnd := r.1.foldl (fun m x => max m (x.1 + x.2)) q.waveEnd }
  let s := (s.setFld (Reg.FE_Pp_FACT p) F.FE_Pp_FACT_F_V f.fV).setFld (Reg.FE_Pp_FACT p) F.FE_Pp_FACT_F_T f.fT
  let s := s.setFld (Reg.FE_Pp_STAT p) F.FE_Pp_STAT_DERATE_IDX f.dIdx
  if r.2 then
    ((s.flag (Reg.FE_Pp_STAT p) F.FE_Pp_STAT_CLAMP).flag Reg.FE_STAT F.FE_STAT_WIDTH_CLAMP).raise Ev.WIDTH_CLAMP (portH p)
  else s

/-! ## Shift -/

/-- The time a frame takes to shift (R155): 2,064 HPCLK cycles, in ns. -/
def State.shiftTime (s : State) (b : Nat) : Nat := ceilDiv (2064 * 1000000) (s.si.bank b).hpclkKhz

/-- The next bar line a bank has entries of, on the ports that take part. -/
def State.nextFrame (s : State) (b : Nat) : Option Nat :=
  ((bankPorts b).flatMap fun p => ((s.port p).fifo.filter fun e => s.si.portValid p && s.portOn e.line p).map (·.line)).min?

/-- A shift begun on a bank: each port's shift register takes what it is sent, a port that is sent nothing holds nothing (R164, R174). -/
def State.beginShift (s : State) (b : Nat) (kind : FrameKind) (sent : Nat → Option FifoEntry) : State :=
  let s := (bankPorts b).foldl (fun s p => s.setPort p { s.port p with shifted := sent p }) s
  s.setBank b { s.bank b with shifting := some (kind, s.now + s.shiftTime b) }

/-- The frame of bar line `k` shifts into the heads of a bank (R163, R174): entries complete on every port that takes part. -/
def State.shiftLine (s : State) (b k : Nat) : State :=
  let ps := s.bankOn k b
  if ps.all fun p => (s.port p).fifo.any fun e => e.line = k && e.complete then
    s.beginShift b (.line k) fun p =>
      let q := s.port p
      if ps.contains p && q.st = .ready && q.cfgOk then q.fifo.find? fun e => e.line = k else none
  else s

/-- Ports of a bank a CONFIG frame is due on (R166, R167): effectively enabled (R39, R174), and READY or told to identify themselves. -/
def State.configDue (s : State) (b : Nat) : List Nat :=
  (bankPorts b).filter fun p =>
    let q := s.port p
    s.si.portValid p && s.enabled (portH p) && q.cfgDue && (q.st = .ready || (q.identReq && q.st ≠ .absent))

/-- CONFIG frames shift into the heads of a bank (R167). -/
def State.shiftConfig (s : State) (b : Nat) : State :=
  let due := s.configDue b
  let s := s.beginShift b .config fun p => if due.contains p then some (s.configFrame p) else none
  due.foldl (fun s p => s.setPort p { s.port p with cfgDue := false, identReq := false }) s

/-- Line frames may shift: in PRINT, and in WARM while PRINT has been requested, so that the first line waits in the heads. -/
def State.shiftsLines (s : State) : Bool :=
  s.mode = .print || (s.mode = .warm && (match s.sys.trans with
    | some t => t.target = .print
    | none => false))

/-- At least 100 ns have passed since the tick of the line a bank latched last (R163). -/
def State.shiftGap (s : State) (b : Nat) : Bool := match (s.bank b).latTick with
  | some t => decide (t + 100 ≤ s.now)
  | none => true

/-- FRAME_SHIFT (R163, R166). -/
def State.frameShift (s : State) (b : Nat) : State :=
  let k := s.bank b
  if k.shifting.isSome || k.waiting.isSome || s.witRole = 2 then s
  else if (s.mode = .idle || s.mode = .warm || s.mode = .service) && !(s.configDue b).isEmpty then s.shiftConfig b
  else if s.shiftsLines && s.shiftGap b then
    match s.nextFrame b with
    | some l => s.shiftLine b l
    | none => s
  else s

/-- SHIFT_COMPLETE (R162, R165): the entry is freed and the next line may be composed. A frame that is void is not latched. -/
def State.shiftComplete (s : State) (b : Nat) : State :=
  match (s.bank b).shifting with
  | none => s
  | some (k, e) =>
    if s.now < e then s
    else
      let s := s.setBank b { s.bank b with shifting := none, waiting := if k = .void then none else some (k, e) }
      match k with
      | .line l =>
        ((bankPorts b).foldl (fun s p => s.setPort p { s.port p with fifo := (s.port p).fifo.filter fun e => e.line ≠ l }) s)
      | _ => s

/-! ## LAT -/

/-- The end of the last pulse on a bank. -/
def State.bankEnd (s : State) (b : Nat) : Nat := ((bankPorts b).map fun p => (s.port p).waveEnd).foldl max 0

/-- Every port of a bank has begun the line latched before (R185). -/
def State.bankBegun (s : State) (b : Nat) : Bool := match (s.bank b).latLine with
  | some l => (s.bankOn l b).all fun p => (s.bar l).known.testBit p
  | none => true

/-- LAT of a bank (R164): what was shifted moves to the fire latches, and each head that received a frame owes a STATUS of it. `line`
is the bar line latched, with the cycle of its tick. -/
def State.lat (s : State) (b : Nat) (line : Option (Nat × Nat)) (config : Bool) : State :=
  let s := (bankPorts b).foldl (fun s p =>
    let q := s.port p
    let r (e : FifoEntry) : LatRec := ⟨config, line.map (·.1), e.header.testBit 30, s.now⟩
    s.setPort p { q with latched := if config then none else q.shifted, shifted := none,
                         lats := q.lats ++ (q.shifted.toList.map r) }) s
  s.setBank b { s.bank b with waiting := none, latAt := some s.now, latLine := line.map (·.1), latTick := line.map (·.2) }

/-- A warming or spit line fires 60 ns after its LAT (R166, R185, R195, R196); drops are counted for a spit line. -/
def State.fireExtra (s : State) (b : Nat) (spit : Bool) : State :=
  (bankPorts b).foldl (fun s p =>
    let l := s.wp.hwm + 1
    match (s.port p).latched, s.waveAt l p with
    | some e, some t =>
      let f := s.readings t l p s.si.limits.pMin
      let inh := s.inhibited p
      let s := if spit then s.judgeReadings p f else s
      if inh then s
      else
        let s := s.emitPulses p (s.now + 60) t e f
        if spit then s.countDrops p t e else s
    | _, _ => s) s

/-- The tick that started a line, as a port of a bank that takes part in it has frozen it. -/
def State.lineTick (s : State) (b l : Nat) : Option Nat :=
  if l ≤ s.wp.hwm || s.wp.ticking = some l then
    (bankPorts b).findSome? fun p => ((s.port p).freeze.find? fun f => f.line = l).map (·.tick)
  else none

/-- LAT_ISSUE (R165, R166, R185). A bank that lags behind latches its line after the tick of a later one. -/
def State.latIssue (s : State) (b : Nat) : State :=
  match (s.bank b).waiting with
  | none => s
  | some (.line l, e) =>
    match s.lineTick b l with
    | none => s
    | some t => if s.bankBegun b && max (max (t + 40) (e + 20)) (s.bankEnd b + 20) ≤ s.now then s.lat b (some (l, t)) false else s
  | some (.config, e) => if e + 20 ≤ s.now then s.lat b none true else s
  | some (.warming, e) => if e + 20 ≤ s.now then (s.lat b none false).fireExtra b false else s
  | some (.spit, e) => if e + 20 ≤ s.now then (s.lat b none false).fireExtra b true else s
  | some (.void, _) => s

/-! ## Lines that have begun or stay blank -/

/-- A bar line is done with as far as the print path goes: its line ring entry is free, the older tables and map copies are
released, tickets that begin with it take their start time, and jobs advance (R75, R106, R121, R207). The last line of the
last job takes PRINT to WARM (R126). -/
def State.lineDone (s : State) (l : Nat) (ts : List Byte) : State :=
  let s := { s with js := s.js.keepLines fun x => decide (l < x) }
  let s := (((s.unitsReach l).reloadReach l).firedFirst l).auTick l ts
  (s.jobsAfter l).lastJobOver

/-- The outcome of a port that takes no part in a line: NOT_FIRED, UNIT_DISABLED on a valid port that is not enabled (R48). -/
def State.notOn (s : State) (l p : Nat) : State :=
  s.outcome l p 1 (if s.si.portValid p && !s.enabledAt l (portH p) then some 5 else none) true

/-- A bar line counted for every port, and the ports judged that have been idle too long (R216). -/
def State.lineIdle (s : State) (ps : List Nat) : State := ps.foldl (fun s p => (s.lineCount p).idleCheck p) s

/-- A bar line left blank (R27, R374, R397): LATE_BLANK on the ports that take part, CT of zero payloads, frames dropped; what its
first composition would have recorded is recorded now. -/
def State.blankLine (s : State) (l : Nat) : State :=
  let s := ((s.activate l).parentActivate l).noteEpoch l
  let s := if s.composed l then s else s.sendBlank l
  let s := s.setBar l { s.bar l with blank := some (s.ctOf l fun _ => List.replicate 2048 0) }
  let s := (List.range 64).foldl (fun s p => if s.si.portValid p && s.portOn l p then s.outcome l p 4 none true else s.notOn l p) s
  let s := s.lineIdle s.validPorts
  let ps := s.hp.ports.map fun q => { q with fifo := q.fifo.filter fun e => e.line ≠ l }
  let s := { s with hp := { s.hp with ports := ps, banks := (s.hp.banks.map fun (b : BankState) => b.void fun k => k = FrameKind.line l), composing := s.hp.composing.filter fun c => c.1 ≠ l } }
  let s := { s with wp := { s.wp with hwm := l } }
  s.lineDone l s.stamp.bytes

/-- With BACKUP_ABSENT, lines above HWM whose tick has passed and that cannot be fired are left blank (R27). -/
def State.blankLost : Nat → State → State
  | 0, s => s
  | n + 1, s =>
    let l := s.wp.hwm + 1
    let passed := match s.wp.lastTick with
      | some t => decide (l ≤ t)
      | none => false
    if !s.si.limits.backup && passed && s.js.lead.contains (l, false) && s.wp.ticking.isNone then State.blankLost n (s.blankLine l) else s

/-- A line has begun firing (R24, R26): HWM is this line, ports that take no part have their outcome, and the banks the bank limit
blanked are counted (R188). -/
def State.lineBegin (s : State) (l : Nat) : State :=
  let s := { s with wp := { s.wp with hwm := l, ticking := none } }
  let s := ((List.range 64).filter fun p => !(s.si.portValid p && s.portOn l p)).foldl (fun s p => s.notOn l p) s
  let s := (s.limitCount l).lineIdle (s.validPorts.filter fun p => !s.portOn l p)
  let s := s.lineDone l s.tn.tickTs
  State.blankLost (s.js.lead.length + 1) s

/-! ## Firing a line -/

/-- s_p(L) (R185). -/
def State.lineStart (s : State) (p : Nat) (f : Freeze) (lat : Nat) : Nat :=
  max (f.tick + 100 + s.subDelay (portH p) * f.pPrev / 65536) (lat + 60)

/-- N_adv of R99. -/
def State.nAdv (s : State) (p : Nat) (f : Freeze) : Int := (s.subDelay (portH p) + 100 * 65536 / f.pPrev : Nat)

/-- The placement error of a line on a port, with WPOS as it is now (R26, R99), kept in WP_PLACE_MAX. -/
def State.placed (s : State) (l p : Nat) (f : Freeze) : Bool × State :=
  let err : Int := (s.wp.pos : Int) - (l * 65536 : Nat) - s.nAdv p f
  let big := decide ((s.fld Reg.WP_PLACE_MAX F.WP_PLACE_MAX_ERR : Int) < err)
  let s := if big then
      (s.setFld Reg.WP_PLACE_MAX F.WP_PLACE_MAX_ERR (min 0xFFFF err.toNat)).setFld Reg.WP_PLACE_MAX F.WP_PLACE_MAX_PORT p
    else s
  if (s.si.limits.placeTol : Int) < err then (true, (s.flag Reg.WP_STAT F.WP_STAT_OVERSPEED).raise Ev.OVERSPEED) else (false, s)

/-- The frame latched on a port fires (R183, R374). A port that takes part and does not fire for a cause other than HARD_T or a gate
cut leaves the line unfired (R22). -/
def State.firePort (s : State) (l p : Nat) (f : Freeze) : State :=
  let q := s.port p
  match q.latched.filter fun e => e.line = l, s.waveAt l p with
  | some e, some t =>
    if f.hot then s.outcome l p 1 (some 3) true
    else if s.gateCut p then s.outcome l p 1 (some 4) true
    else if q.st ≠ .ready || !q.cfgOk || s.mode ≠ .print then s.unfired l p
    else
      let s := s.emitPulses p s.now t e f
      let s := s.countDrops p t e
      let s := s.inTap p l (drivenValues t e)
      let r := s.placed l p f
      let s := r.2
      if e.blanked then s.outcome l p 3 none true
      else if r.1 then s.outcome l p 6 none false
      else s.outcome l p 0 none false
  | _, _ => if f.hot then s.outcome l p 1 (some 3) true else if s.gateCut p then s.outcome l p 1 (some 4) true else s.unfired l p

/-- LINE_FIRE (R183, R185): the line its bank has latched, from s_p(L) on. The first port to fire begins the line. -/
def State.lineFire (s : State) (p : Nat) : State :=
  let k := s.bank (p / 4)
  match k.latLine, k.latAt with
  | some l, some lat =>
    match (s.port p).freeze.find? fun f => f.line = l with
    | none => s
    | some f =>
      let due := s.si.portValid p && s.portOn l p && !(s.bar l).known.testBit p && (decide (l ≤ s.wp.hwm) || s.wp.ticking = some l)
      if !due || s.now < s.lineStart p f lat then s
      else
        let s := ((s.lineCount p).firePort l p f).idleCheck p
        if s.wp.hwm < l then s.lineBegin l else s
  | _, _ => s

/-- Firing inhibited at once on every port (R29, R174): lines in hand are cut short, and ports that had not begun the line in
hand do not fire it. -/
def State.closeOutcomes (s : State) : State :=
  let flag (s : State) (p : Nat) : Option Nat := if s.gateCut p then some 4 else none
  let s := (List.range 64).foldl (fun s p => s.cutPort p (flag s p)) s
  ((s.au.lines.map (·.1)).filter fun l => decide (l ≤ s.wp.hwm)).foldl (fun s l =>
    ((List.range 64).filter fun p => !(s.bar l).known.testBit p).foldl (fun s p => s.outcome l p 1 (flag s p) true) s) s

/-! ## Composition deadline -/

/-- COMPOSE_DEADLINE (R12, R16): the line after the last tick, not composed 100 ns after that tick, is late where it is the next
to be fired and no line before it is held back (R97). -/
def State.composeDeadline (s : State) : State × Option Nat :=
  match s.wp.lastTick, s.wp.tickAt with
  | some t, some c =>
    let n := t + 1
    let next := decide (n = s.wp.hwm + 1) || (s.wp.ticking = some t && decide (t = s.wp.hwm + 1))
    let held := s.wp.pinLow && decide (s.wp.holdLine ≤ n)
    if s.mode = .print && c + 100 ≤ s.now && next && !held && !s.composeReady n && !s.js.lead.contains (n, false) then
      let left := match s.hp.composing with
        | some (l, m) => if l = n then m else 0xFFFF
        | none => 0xFFFF
      let es := (List.range 16).filter fun e => (s.si.progOf e).isSome && left.testBit e
      let s := es.foldl (fun s e => s.bump (Reg.HP_LEe e) F.HP_LEe_LATE) s
      ({ s with js := { s.js with lead := (s.js.lead.filter fun x => x.1 ≠ n) ++ [(n, false)] } }, some n)
    else (s, none)
  | _, _ => (s, none)

/-! ## Warming and spit lines -/

/-- A port may take a warming or spit frame. -/
def State.extraPort (s : State) (p : Nat) : Bool :=
  let q := s.port p
  s.si.portValid p && s.enabled (portH p) && q.st = .ready && q.cfgOk && s.witRole ≠ 2

/-- A bank is free for a frame outside PRINT: nothing shifting or waiting, and 20 ns since its last pulse (R166, R196). -/
def State.bankFree (s : State) (b : Nat) : Bool :=
  (s.bank b).shifting.isNone && (s.bank b).waiting.isNone && decide (s.bankEnd b + 20 ≤ s.now) &&
    (s.mode = .warm || s.mode = .service)

/-- The entries of a warming or spit frame shift into the heads of a bank, PAR alternating (R166). -/
def State.shiftExtra (s : State) (b : Nat) (kind : FrameKind) (on : Nat → Bool) (es : List FifoEntry) : State :=
  let s := s.beginShift b kind fun p => if on p then es[p % 4]? else none
  s.setBank b { s.bank b with par := !(s.bank b).par }

/-- A spit line of a port is due (R215). -/
def State.spitDue (s : State) (p : Nat) : Bool := match (s.port p).spit with
  | some (k, _) =>
    let hz := max 100 (min 20000 (s.fld (Reg.NH_SPITk k) F.NH_SPITk_HZ))
    s.extraPort p && ((s.port p).spitM = 0 || decide (1000000000 / hz ≤ s.now - (s.port p).spitAt))
  | none => false

/-- WARMING_LINE (R195, R196). -/
def State.warmingLine (s : State) (b : Nat) : State :=
  let hz := min 50000 (s.fld (Reg.FE_BANKb_WARM b) F.FE_BANKb_WARM_HZ)
  let l := s.wp.hwm + 1
  let on (p : Nat) : Bool := s.extraPort p && s.fld (Reg.FE_Pp_WARM p) F.FE_Pp_WARM_WIDTH ≠ 0 && (match s.waveAt l p with
    | some t => (t.slots t.activeSet).any WSlot.warm
    | none => false)
  if hz = 0 || !s.bankFree b || s.now - (s.bank b).warmAt < 1000000000 / hz || (bankPorts b).any s.spitDue ||
      !((bankPorts b).any on) then s
  else
    let r := emitBank (s.si.bank b) 0 (b2n (s.bank b).par) (fun q => s.wselAt l (4 * b + q)) (fun _ => false)
      fun _ => List.replicate 2048 0
    let s := s.setBank b { s.bank b with warmAt := s.now }
    s.shiftExtra b .warming on r.1

/-- The values of spit line `m` of a profile (R215). -/
def State.spitValues (s : State) (k m : Nat) : List Nat :=
  let n := s.fld (Reg.NH_SPITk k) F.NH_SPITk_STRIDE + 1
  (List.range 2048).map fun i => if i % n = m % n then s.fld (Reg.NH_SPITk k) F.NH_SPITk_VALUE else 0

/-- The end of a spit profile (R215): the decap timer starts again, unless a line was blanked. -/
def State.spitEnd (s : State) (p : Nat) : State :=
  let q := s.port p
  s.setPort p { q with spit := none, decapAt := if q.spitBlank then q.decapAt else s.now }

/-- A line of drops for one port composed for its bank, within the bank limit (R187, R188); whether the limit blanked it. -/
def State.spitFrame (s : State) (p : Nat) (vals : List Nat) : List FifoEntry × Bool × State :=
  let b := p / 4
  let l := s.wp.hwm + 1
  let r := emitBank (s.si.bank b) 0 (b2n (s.bank b).par) (fun q => s.wselAt l (4 * b + q)) (fun q => 4 * b + q = p)
    fun q => if 4 * b + q = p then vals else List.replicate 2048 0
  (r.1, r.2.1, s.bankCount l b r.2.1 r.2.2.1 r.2.2.2)

/-- SPIT_LINE (R187, R188, R215). -/
def State.spitLine (s : State) (p : Nat) : State :=
  match (s.port p).spit with
  | none => s
  | some (_, 0) => s.spitEnd p
  | some (k, left + 1) =>
    let b := p / 4
    if !s.bankFree b || !s.spitDue p then s
    else
      let r := s.spitFrame p (s.spitValues k (s.port p).spitM)
      let s := r.2.2
      let q := s.port p
      let s := s.setPort p { q with spit := some (k, left), spitM := q.spitM + 1, spitAt := s.now, spitBlank := q.spitBlank || r.2.1 }
      let s := s.shiftExtra b .spit (fun x => x = p) r.1
      if left = 0 then s.spitEnd p else s

/-! ## Drop-gate shots -/

/-- A shot at nozzle `i` (R212): a spit line with VALUE for the nozzle and 0 elsewhere is shifted, latched and fired (R166). -/
def State.shotFired (s : State) (i : Nat) : State :=
  let p := i / 2048
  let v := s.fld Reg.NH_GATE_CFG F.NH_GATE_CFG_VALUE
  let r := s.spitFrame p ((List.range 2048).map fun n => if n = i % 2048 then v else 0)
  let s := r.2.2.shiftExtra (p / 4) .spit (fun x => x = p && s.extraPort p) r.1
  let s := s.setBank (p / 4) { s.bank (p / 4) with shifting := none }
  (s.lat (p / 4) none false).fireExtra (p / 4) true

/-- GATE_SHOT (R212, R213): the shot is fired on a bank that is free for it, and judged by its two crossings. -/
def State.gateShot (s : State) (ta tb : Option Nat) : State :=
  match s.nh.gate.todo with
  | [] => s
  | i :: _ =>
    if s.nh.gate.st ≠ 2 || !s.bankFree (i / 2048 / 4) then s else (s.shotFired i).gateJudge i ta tb

end Sys2Proof.Machine
end

