-- ==== Sys2Proof/Machine/Test.lean ====
section
/-! DEFINITION. Production and field test (23): loop-backs (R508 to R510), the field self-test (R511), the TAP (R513), and what
ends a loop (R514). -/

namespace Sys2Proof.Machine

/-- How many instances an interface has (TS_CFG.INST), 0 for a reserved code. -/
def testInsts : Nat → Nat
  | 0 => 8 | 1 => 64 | 2 => 2 | 3 => 2 | 4 => 2 | 5 => 2 | 6 => 17 | _ => 0

/-- Depths of an interface (R508). -/
def testDepths : Nat → Nat
  | 0 => 3 | 1 => 2 | 2 => 1 | 3 => 2 | 4 => 2 | 5 => 1 | 6 => 1 | _ => 0

/-- A loop would break the path by which a master reaches the controller (R508): the UP group, for the host and the parent. -/
def State.testBreaks (s : State) (m ifc inst : Nat) : Bool := ifc = 0 && s.groupOf inst = 0 && (m = 5 || m = 7)

/-- A serial loop carries the pattern of TS_CFG.PAT and is judged by lock and errors (R509). -/
def TestRun.serial (r : TestRun) : Bool := r.ifc = 0 || r.ifc = 1 || r.ifc = 3 || r.ifc = 4

/-- The block replaced. -/
def State.setTs (s : State) (t : TsState) : State := { s with ts := t }

/-- A loop begins: counts and results cleared, BUSY set. -/
def State.testBegin (s : State) (r : TestRun) : State :=
  let s := (((s.setFld Reg.TS_STAT F.TS_STAT_PASS 0).setFld Reg.TS_STAT F.TS_STAT_LOCK 0).setFld Reg.TS_STAT F.TS_STAT_ERR 0).flag
    Reg.TS_STAT F.TS_STAT_BUSY
  let s := s.wrN Reg.TS_ERRCNT 0
  s.setTs { s.ts with run := some r, encErr := false, bits := 0 }

/-- The interface and depth of an item of the self-test (R511). -/
def selfPath : Nat → Nat × Nat
  | 0 => (0, 0) | 1 => (0, 1) | 2 => (1, 0) | 3 => (1, 1) | 4 => (2, 0) | 5 => (3, 0) | 6 => (3, 1) | 7 => (4, 0) | 8 => (4, 1)
  | 9 => (5, 0) | _ => (6, 0)

/-- The instances of an item (R511). -/
def State.selfInsts (s : State) (i : Nat) : List Nat :=
  match i with
  | 0 => (List.range 8).filter fun k => s.groupOf k < 3
  | 1 => (List.range 8).filter fun k => s.groupOf k < 3
  | 2 => s.validPorts
  | 3 => s.validPorts.filter fun p => (s.port p).st = .absent
  | 4 => [0, 1].filter fun n => (List.range 16).any fun k => s.segOn k && s.segPort k = n
  | 5 => [0, 1]
  | 6 => [0, 1]
  | 7 => [0, 1].filter fun k => s.isSet (Reg.TN_Pk_CFG k) F.TN_Pk_CFG_EN
  | 8 => [0, 1].filter fun k => s.isSet (Reg.TN_Pk_CFG k) F.TN_Pk_CFG_EN
  | 9 => [0, 1].filter fun k => s.fld (Reg.WP_CHk_CFG k) F.WP_CHk_CFG_MODE ≠ 0
  | _ => List.range 17

/-- The next item of the self-test begins, or the run is complete (R511). -/
def State.selfNext (s : State) : State :=
  match s.ts.todo with
  | [] =>
    let s := (s.flag Reg.TS_SELF_RUN F.TS_SELF_RUN_COMPLETE).setTs { s.ts with selfRun := false, run := none }
    (s.setFld Reg.TS_STAT F.TS_STAT_BUSY 0).flag Reg.TS_STAT F.TS_STAT_DONE
  | (i, k) :: rest => (s.setTs { s.ts with todo := rest }).testBegin ⟨(selfPath i).1, (selfPath i).2, k, some i, s.now⟩

/-- Items of the self-test not run read SKIP (R514). -/
def State.selfStop (s : State) : State :=
  if s.ts.selfRun then
    let s := (s.ts.todo.map (·.1)).foldl (fun s i => s.setBit Reg.TS_SELF F.TS_SELF_SKIP i) s
    s.setTs { s.ts with todo := [], selfRun := false }
  else s

/-- A warm reset during the self-test (R514): the item in progress and those not run read SKIP. -/
def State.selfCut (s : State) : State :=
  match s.ts.run.bind TestRun.item with
  | some i => (s.setBit Reg.TS_SELF F.TS_SELF_SKIP i).selfStop
  | none => s

/-- The result of an item (R511): the first failure names its item and instance. -/
def State.selfResult (s : State) (i inst : Nat) (pass : Bool) : State :=
  if pass then s
  else
    let first := decide (s.fld Reg.TS_SELF F.TS_SELF_FAIL = 0)
    let s := s.setBit Reg.TS_SELF F.TS_SELF_FAIL i
    if first then (s.setFld Reg.TS_SELF_INST F.TS_SELF_INST_INST inst).setFld Reg.TS_SELF_INST F.TS_SELF_INST_ITEM i else s

/-- The loop in progress ends with a result (R510). -/
def State.testEnd (s : State) (pass : Bool) (err : Nat) : State :=
  match s.ts.run with
  | none => s
  | some r =>
    let s := s.setTs { s.ts with run := none }
    let s := (s.setFld Reg.TS_STAT F.TS_STAT_PASS (b2n pass)).setFld Reg.TS_STAT F.TS_STAT_ERR err
    match r.item with
    | some i =>
      let s := s.selfResult i r.inst pass
      if err = 7 then ((s.selfStop.setFld Reg.TS_STAT F.TS_STAT_BUSY 0).flag Reg.TS_STAT F.TS_STAT_DONE) else s.selfNext
    | none => (s.setFld Reg.TS_STAT F.TS_STAT_BUSY 0).flag Reg.TS_STAT F.TS_STAT_DONE

/-- Lock held with no bit error (R510); a FAR loop has no local result. -/
def State.testLocked (s : State) (r : TestRun) : Bool :=
  r.serial && !(r.ifc = 0 && r.depth = 2) && s.isSet Reg.TS_STAT F.TS_STAT_LOCK && s.rdN Reg.TS_ERRCNT = 0

/-- A refusal of START or SELFTEST. -/
def State.testRefuse (s : State) (e : Nat) : State := s.setFld Reg.TS_STAT F.TS_STAT_ERR e

/-- TS_START (R508). -/
def State.testStart (s : State) (m : Nat) : State :=
  let ifc := s.fld Reg.TS_CFG F.TS_CFG_IF
  let depth := s.fld Reg.TS_CFG F.TS_CFG_DEPTH
  let inst := s.fld Reg.TS_CFG F.TS_CFG_INST
  if s.ts.run.isSome || s.ts.selfRun then s.testRefuse 4
  else if s.mode ≠ .test then s.testRefuse 1
  else if testInsts ifc ≤ inst || testDepths ifc ≤ depth then s.testRefuse 5
  else if s.testBreaks m ifc inst then s.testRefuse 2
  else if ifc = 1 && depth = 1 && (s.port inst).st ≠ .absent then s.testRefuse 3
  else s.testBegin ⟨ifc, depth, inst, none, s.now⟩

/-- TS_STOP (R510): the loop is judged as it stands; a self-test goes on with its next item. -/
def State.testStop (s : State) : State :=
  match s.ts.run with
  | some r => s.testEnd (s.testLocked r) 0
  | none => s

/-- SELFTEST (R511): items excluded or not fitted read SKIP. -/
def State.selfTest (s : State) (m : Nat) : State :=
  if s.ts.run.isSome || s.ts.selfRun then s.testRefuse 4
  else if s.mode ≠ .test then s.testRefuse 1
  else
    let all := (List.range 11).flatMap fun i => (s.selfInsts i).map fun k => (i, k)
    let ok (x : Nat × Nat) : Bool := !s.testBreaks m (selfPath x.1).1 x.2
    let skip := (List.range 11).foldl (fun a i =>
      if (s.selfInsts i).isEmpty || (s.selfInsts i).any (fun k => !ok (i, k)) then a + 2 ^ i else a) 0
    let s := (s.wrN Reg.TS_SELF 0).setFld Reg.TS_SELF F.TS_SELF_SKIP skip
    let s := (s.bump Reg.TS_SELF_RUN F.TS_SELF_RUN_RUNS).setFld Reg.TS_SELF_RUN F.TS_SELF_RUN_COMPLETE 0
    let s := s.wrN Reg.TS_SELF_INST 0
    (s.setTs { s.ts with todo := all.filter ok, selfRun := true }).selfNext

/-- A write of TS_CTRL. -/
def State.tsCtrl (s : State) (m : Nat) (w : Word) : State :=
  let s := if F.TS_CTRL_START.get w = 1 then s.testStart m else s
  let s := if F.TS_CTRL_STOP.get w = 1 then s.testStop else s
  if F.TS_CTRL_SELFTEST.get w = 1 then s.selfTest m else s

/-- CHECKER_LOCK_CHANGE (R509): the checker counts from lock. -/
def State.checkerLock (s : State) (gained : Bool) : State :=
  match s.ts.run with
  | some r =>
    if !r.serial then s
    else
      let s := s.setFld Reg.TS_STAT F.TS_STAT_LOCK (b2n gained)
      if gained then (s.wrN Reg.TS_ERRCNT 0).setTs { s.ts with bits := 0 } else s
  | none => s

/-- How long a loop runs, in ms: TS_DUR (R510); in the self-test as its item says, where it says so (R511). -/
def State.testTime (s : State) (r : TestRun) : Option Nat :=
  match r.item with
  | none => some (s.rdN Reg.TS_DUR)
  | some i => if i < 2 || i = 7 || i = 8 then some 10 else if i < 4 then some 1 else none

/-- The time of a loop is over. -/
def State.testOver (s : State) (r : TestRun) : Bool := (s.testTime r).any fun d => decide (r.since + d * 1000000 ≤ s.now)

/-- TEST_LOOP_DURATION_END (R510): errors and bits since lock, as the checker counted them. -/
def State.durationEnd (s : State) (errs bitsRun : Nat) : State :=
  match s.ts.run with
  | some r =>
    if !s.testOver r then s
    else if r.serial then
      let s := (s.bump Reg.TS_ERRCNT F.TS_ERRCNT_VALUE errs).setTs { s.ts with bits := bitsRun }
      s.testEnd (s.testLocked r) 0
    else s.testEnd false 0
  | none => s

/-- TEST_LOOP_PASS_COMPLETE (R509, R510): a DRAM, ENC, CAM or ANALOG pass is judged by its criterion. -/
def State.passComplete (s : State) (crc : Word) (ok : Bool) : State :=
  match s.ts.run with
  | some r =>
    match r.ifc with
    | 2 => s.testEnd (crc = s.rd Reg.TS_CAM_CRC) 0
    | 3 => s.testEnd (s.testLocked r && ok) 0
    | 5 => s.testEnd (ok && !s.ts.encErr) 0
    | 6 => s.testEnd ok 0
    | _ => s
  | none => s

/-- A head pad loop is running on a port. -/
def State.padLoop (s : State) (p : Nat) : Bool := match s.ts.run with
  | some r => r.ifc = 1 && r.depth = 1 && r.inst = p
  | none => false

/-- The instruction the TAP acts on (R513): EXTEST, CLAMP and HIGHZ act as BYPASS outside TEST and FAILED. -/
def State.tapActs (s : State) : Nat :=
  if s.ts.tap < 3 || s.mode = .test || (s.mode = .boot && s.bu.bootState = 2) then s.ts.tap else 0

/-- EXTEST drives a ball that the loop in progress drives as well (R514). -/
def State.tapTakes (s : State) (r : TestRun) : Bool := s.tapActs = 3 && ((r.ifc = 1 && r.depth = 1) || r.ifc = 5)

/-- What ends a loop from outside it (R514): a gate cut, with ERR GATE, and EXTEST on the same ball. -/
def State.testGate (s : State) : State :=
  match s.ts.run with
  | some r =>
    if s.padLoop r.inst && s.gateCut r.inst then s.testEnd false 6
    else if s.tapTakes r then s.testEnd false 0 else s
  | none => s

/-- HOLD ends the loop and the self-test with ERR HOLD (R510, R514). -/
def State.testHold (s : State) : State := if s.ts.run.isSome then s.testEnd false 7 else s.selfStop

/-- A STATUS frame during a pad loop of its port stops the loop (R514). -/
def State.testHead (s : State) (p : Nat) (bs : List Byte) : State :=
  if s.padLoop p && returnOk bs && leAt bs 0 8 % 16 = 1 then s.testEnd false 3 else s

/-- A fault of the encoder under an ENC loop (R509). -/
def State.testEnc (s : State) (ch : Nat) : State :=
  match s.ts.run with
  | some r => if r.ifc = 5 && r.inst = ch then s.setTs { s.ts with encErr := true } else s
  | none => s

/-- TAP_INSTRUCTION (R513): 0 BYPASS, 1 IDCODE, 2 SAMPLE/PRELOAD, 3 EXTEST, 4 CLAMP, 5 HIGHZ. What it does then is tapActs. -/
def State.tapInstruction (s : State) (c : Nat) : State := s.setTs { s.ts with tap := c, tapReset := false }

/-- TAP_RESET (R513): the instruction register of a TAP in reset holds IDCODE. -/
def State.tapHold (s : State) : State := s.setTs { s.ts with tap := 1, tapReset := true }

/-- Registers of TS that follow their source. -/
def State.tsView (s : State) (a : Nat) : Option Word := if a = Reg.TS_BITS_LO then some (BitVec.ofNat 32 s.ts.bits) else none

end Sys2Proof.Machine
end

