-- ==== Sys2Proof/Machine/Modes.lean ====
section
/-! DEFINITION. Operating modes (R29, R30, R433 to R437): what entry to each mode does, HOLD and its causes, requests, and the
moment an accepted transition takes effect. Every command ends in `settle`, which enters HOLD and zeroizes where an event of
the command calls for it (R442). -/

namespace Sys2Proof.Machine

/-! ## Entering a mode -/

/-- The mode in force replaced; no transition is in progress. -/
def State.setMode (s : State) (m : Mode) : State := { s with sys := { s.sys with mode := m, trans := none } }

/-- Spit profiles end with the modes that run them (R215). -/
def State.spitStop (s : State) : State := { s with hp := { s.hp with ports := s.hp.ports.map fun q => { q with spit := none } } }

/-- Frames of a kind that the mode entered does not send are not latched (R166, R174). -/
def State.dropFrames (s : State) (gone : FrameKind → Bool) : State := { s with hp := { s.hp with banks := s.hp.banks.map (·.void gone) } }

/-- A line frame. -/
def FrameKind.isLine : FrameKind → Bool
  | .line _ => true
  | _ => false

/-- What leaving PRINT does, whatever the next mode: queued commits take effect (R206), the second slot table set comes into
force (R302), and tickets have CLOSE_TMO to close (R248). -/
def State.leavePrint (s : State) : State :=
  let s := (s.commitExit).setSwitch 1
  { s with inn := { s.inn with exitAt := some s.now } }.headsSeen

/-- What entry to IDLE and TEST erases (R152, R250): clear payloads, tile keys and the inspection key. HOLD keeps the last. -/
def State.eraseClear (s : State) : State := s.eraseTiles.inKeyErase

/-- Entry to IDLE (R152, R174, R248, R515): FIRE goes low at once, and CONFIG is the only frame still sent. -/
def State.enterIdle (s : State) : State :=
  let s := ((s.closeOutcomes.setMode .idle).spitStop).dropFrames fun k => k ≠ .config
  let s := s.jobsHold.closeAll.eraseClear
  { s with fl := { s.fl with safe := false } }

/-- Entry to WARM (R75, R76, R167, R515). -/
def State.enterWarm (s : State) : State :=
  let print := s.mode = .print
  let s := s.setMode .warm
  let s := if print then
      let s := (s.leavePrint.dropFrames FrameKind.isLine).dropAbove s.wp.hwm
      { s with wp := { s.wp with ticking := none } }.reloadWarm
    else s
  s.jobsWarm.configAll

/-- Entry to SERVICE (R167). -/
def State.enterService (s : State) : State := (s.setMode .service).configAll

/-- Entry to TEST (R152, R174, R270, R410). -/
def State.enterTest (s : State) : State :=
  ((s.closeOutcomes.setMode .test).spitStop.dropFrames fun _ => true).eraseClear.loopRampAll.czAbortAll

/-- Entry to PRINT (R173, R174, R302). -/
def State.enterPrint (s : State) : State :=
  let s := ((s.setMode .print).spitStop.dropFrames fun k => !k.isLine).setSwitch 0
  { s with inn := { s.inn with exitAt := none } }.printPorts

/-- Entry to HOLD (R29, R30, R76, R98, R174, R214, R270, R285, R381, R442, R514, R515). In HOLD already, a transition in
progress is given up. -/
def State.enterHold (s : State) : State :=
  if s.mode = .hold then
    let s := { s with sys := { s.sys with trans := none } }
    if s.sys.safeDue then s.capStart else s
  else
    let print := s.mode = .print
    let s := s.closeOutcomes
    let s := s.setMode .hold
    let s := if print then s.haltTickets.leavePrint else s
    let s := s.reloadAbort 0xD
    let s := { s with wp := { s.wp with pinLow := false, backup := false, ticking := none } }
    let s := (s.spitStop.dropFrames fun _ => true).dropAbove s.wp.hwm
    let s := s.jobsHold.eraseTiles
    let scanning := s.nh.gate.running
    let s := (s.loopRampAll.gateAbort 2).testHold
    let s := if scanning then s.loseAxis 3 else s
    s.capStart

/-! ## After a command -/

/-- A running drop-gate scan stops where its axis is lost, or a gate cut falls on a port of it (R214). -/
def State.gateWatch (s : State) : State :=
  if !s.nh.gate.running then s
  else if (s.axis 3).lost then s.gateAbort 4
  else if s.nh.gate.ports.any s.gateCut then s.gateAbort 3
  else s

/-- What a command leaves due takes effect (R442): a gate scan or loop-back that its effects end, a zeroize the event map calls
for (R394), and HOLD. -/
def State.settle (s : State) : State :=
  let s := s.gateWatch.testGate.jobsDone
  let s := if s.sys.zeroDue then s.zeroize else s
  let s := if s.sys.holdDue then s.enterHold else s.reloadSettle
  { s with sys := { s.sys with holdDue := false, zeroDue := false, safeDue := false } }

/-! ## HOLD causes and the cap slide -/

/-- HOLD_CAUSE of R434: bit 0 GATE, bit 1 EVENT, bit 2 RING. -/
def State.holdCauses (s : State) : Nat := b2n (decide (s.hp.cut ≠ 0)) + 2 * b2n s.holdEvent + 4 * b2n s.au.ringHeld

/-- The cap slide reports closed (R285). -/
def State.capClosed (s : State) : Bool := s.fitted 1 && s.capped 1

/-! ## Requests -/

/-- A request refused with a reason (R433). -/
def State.modeRefuse (s : State) (r : Nat) : State :=
  (s.setFld Reg.SYS_MODE_STAT F.SYS_MODE_STAT_REFUSE r).flag Reg.SYS_MODE_STAT F.SYS_MODE_STAT_REFUSED

/-- The rows of R29 that firmware may request. -/
def modePath : Mode → Mode → Bool
  | .idle, .warm | .idle, .service | .idle, .test | .warm, .print | .warm, .idle | .warm, .service | .print, .warm
  | .service, .warm | .service, .idle | .hold, .idle => true
  | _, _ => false

/-- Why a request from WARM to PRINT is refused: 0 where it is not (R107, R393, R398, R433). -/
def State.printRefuse (s : State) : Nat :=
  match s.js.cur with
  | none => 3
  | some k =>
    if (s.job k).phase ≠ .armed || (s.job k).jobStart ≤ s.wp.hwm then 3
    else if (s.slot 1).isNone || (s.slot 2).isNone then 4
    else if !s.witFresh then 5
    else 0

/-- A transition accepted, to take effect later (R30). -/
def State.modeAccept (s : State) (m : Mode) : State := { s with sys := { s.sys with trans := some ⟨m, s.now⟩ } }

/-- MODE_REQUEST (R30, R433). Transitions that take effect at once do so with the request. -/
def State.modeRequest (s : State) (w : Word) : State :=
  match Mode.ofCode (F.SYS_MODE_REQ_MODE.get w) with
  | none => if s.sys.trans.isSome then s.modeRefuse 1 else s.modeRefuse 2
  | some m =>
    if s.sys.trans.isSome then s.modeRefuse 1
    else if s.mode = m then s
    else if !modePath s.mode m then s.modeRefuse 2
    else
      match s.mode, m with
      | .idle, .service => s.enterService
      | .warm, .service => s.enterService
      | .idle, .test => if s.si.testEn then s.enterTest else s.modeRefuse 6
      | .hold, _ => if s.holdCauses = 0 && !s.sys.onOsc then s.modeAccept m else s.modeRefuse 7
      | .warm, .print =>
        match s.printRefuse with
        | 0 => s.modeAccept m
        | r =>
          let s := match s.js.cur with
            | some k => if r = 3 && (s.job k).phase = JobPhase.armed then s.jobErr k 0xA else s
            | none => s
          s.modeRefuse r
      | .print, _ => s.endRequest.modeAccept m
      | _, _ => s.modeAccept m

/-! ## Effects -/

/-- The last bar line PRINT has still to fire: none where a next job follows without an end of its own, or the job in hand has
no end fixed (R124, R126). -/
def State.printEnd (s : State) : Option Nat :=
  match s.js.next.orElse fun _ => s.js.cur with
  | some k => ((s.job k).endLine).map fun e => e + s.dMax - 1
  | none => some s.wp.hwm

/-- PRINT is over: every line has begun on every port and its last pulse has ended (R29). -/
def State.printOver (s : State) : Bool :=
  (match s.printEnd with
    | some e => decide (e ≤ s.wp.hwm)
    | none => false) &&
  s.validPorts.all fun p => (s.port p).waveEnd ≤ s.now && (!s.portOn s.wp.hwm p || !s.composed s.wp.hwm || (s.bar s.wp.hwm).known.testBit p)

/-- What a request to leave SERVICE waits for in any case: a drop-gate scan (R214) and a reload (R76). -/
def State.serviceHeld (s : State) : Bool := s.nh.gate.running || s.bu.reload.state = .verify || s.bu.reload.state = .applying

/-- The sequences of SERVICE that the controller itself runs have ended: the drop-gate scan, spit profiles and a reload (R76). -/
def State.serviceOver (s : State) : Bool := !s.serviceHeld && s.hp.ports.all fun q => q.spit.isNone

/-- MODE_TRANSITION_EFFECT (R29): the transition in progress takes effect once its condition holds. `serviceEnded` says that the
sequence firmware runs in SERVICE has ended. From WARM to PRINT the next tick above HWM is the condition. -/
def State.modeEffect (s : State) (serviceEnded : Bool) : State :=
  match s.sys.trans with
  | none => s
  | some t =>
    match s.mode, t.target with
    | .idle, .warm => if s.capOpen && s.loopsInBand then s.enterWarm else s
    | .warm, .idle => if s.capClosed then s.enterIdle else s
    | .service, .idle => if s.capClosed && !s.serviceHeld then s.enterIdle else s
    | .service, .warm => if serviceEnded && s.serviceOver then s.enterWarm else s
    | .print, .warm => if s.printOver then s.enterWarm else s
    | .hold, .idle => if s.atCap then s.enterIdle else s
    | _, _ => s

/-- MODE_TIMEOUT (R435). -/
def State.modeTimeout (s : State) : State :=
  let ms := s.rdN Reg.SYS_MODE_TMO
  match s.sys.trans with
  | none => s
  | some t =>
    let waits := match s.mode, t.target with
      | .idle, .warm | .warm, .idle | .service, .idle | .hold, .idle => true
      | _, _ => false
    if waits && ms ≠ 0 && decide (ms * 1000000 ≤ s.now - t.since) then
      ({ s with sys := { s.sys with trans := none } }.flag Reg.SYS_MODE_STAT F.SYS_MODE_STAT_TIMEOUT).raise Ev.MODE_TIMEOUT
    else s

/-! ## What the registers show -/

/-- SYS_MODE_STAT. -/
def State.modeView (s : State) (addr : Nat) : Option Word :=
  if addr = Reg.SYS_MODE_STAT then
    some ([(F.SYS_MODE_STAT_HOLD_CAUSE, s.holdCauses), (F.SYS_MODE_STAT_BUSY, b2n s.sys.trans.isSome),
      (F.SYS_MODE_STAT_TARGET, match s.sys.trans with
        | some t => t.target.code
        | none => 0),
      (F.SYS_MODE_STAT_MODE, s.mode.code)].foldl (fun w fv => BitField.put fv.1 w fv.2) (s.rd addr))
  else none

end Sys2Proof.Machine
end

