-- ==== Sys2Proof/Machine/Sense.lean ====
section
/-! DEFINITION. Analog sense (20): conversion of supply channels (R465 to R469), calibration against the reference (R470 to
R472), motor current offsets (R473) and the photodiode inputs (R474). -/

namespace Sys2Proof.Machine

/-- Supply channel `c`. -/
def State.supply (s : State) (c : Nat) : SupplyCh := s.an.chs.getD c SupplyCh.reset

/-- Supply channel `c` replaced. -/
def State.setSupply (s : State) (c : Nat) (x : SupplyCh) : State := { s with an := { s.an with chs := s.an.chs.set c x } }

/-- The calibration in progress replaced. -/
def State.setCal (s : State) (c : Option Cal) : State := { s with an := { s.an with cal := c } }

/-- A code converted to mV (R467). -/
def supplyMv (off : Int) (gcal div code : Nat) : Nat :=
  let v : Int := (((code : Int) - off) * gcal + 2 ^ 15) / 2 ^ 16
  (clamp 0 65535 ((v * div + 500 * 2 ^ 16) / (1000 * 2 ^ 16))).toNat

/-- The divider ratio of a ball. -/
def State.divOf (s : State) (k : Nat) : Nat := s.rdN (Reg.AN_CHk_DIV k)

/-- The last code of a channel under its corrections in force, with the divider of ball `k`. -/
def State.mvOf (s : State) (c k : Nat) : Nat :=
  let x := s.supply c
  supplyMv x.off x.gcal (s.divOf k) x.code

/-- The bank the spare substitutes for (R468). -/
def State.spareFor (s : State) : Option Nat := match s.an.cal with
  | some x => if x.ch < 16 && s.isSet (Reg.AN_CHk_VAL x.ch) F.AN_CHk_VAL_SRC then some x.ch else none
  | none => none

/-- The range check of a delivered value (R469). -/
def State.rangeCheck (s : State) (b mv : Nat) : State :=
  let x := s.supply b
  let out := decide (mv < s.fld (Reg.AN_CHk_LIM b) F.AN_CHk_LIM_LO ∨ s.fld (Reg.AN_CHk_LIM b) F.AN_CHk_LIM_HI < mv)
  if out then
    let n := min 4 (x.outside + 1)
    let fault := n = 4 && x.armed
    let s := s.setSupply b { x with outside := n, inside := 0, armed := x.armed && !fault }
    if !fault then s
    else
      let s := s.flag Reg.AN_STAT F.AN_STAT_VH_FAULT
      if b = 16 then s.raise Ev.VH_FAULT
      else (bankPorts b).foldl (fun s p =>
        (s.setPort p { s.port p with bankFault := true }).raise Ev.VH_FAULT (portH p)) s
  else
    let n := min 4 (x.inside + 1)
    s.setSupply b { x with inside := n, outside := 0, armed := x.armed || n = 4 }

/-- A value delivered for bank `b`, or for the ball of the spare (R468). -/
def State.deliverMv (s : State) (b mv : Nat) : State := (s.setFld (Reg.AN_CHk_VAL b) F.AN_CHk_VAL_MV mv).rangeCheck b mv

/-- What the result of channel `c` is delivered as (R468). -/
def State.deliverSupply (s : State) (c : Nat) : State :=
  if c = 16 then
    match s.an.cal with
    | none => s.deliverMv 16 (s.mvOf 16 16)
    | some _ => match s.spareFor with
      | some k => s.deliverMv k (s.mvOf 16 k)
      | none => s
  else if s.isSet (Reg.AN_CHk_VAL c) F.AN_CHk_VAL_SRC then s
  else s.deliverMv c (s.mvOf c c)

/-! ## Calibration -/

/-- Codes a step takes (R471): NCAL_SH clamped to 2 to 6. -/
def State.calN (s : State) : Nat := 2 ^ (max 2 (min 6 (s.fld Reg.AN_CFG F.AN_CFG_NCAL_SH)))

/-- VREF_UV (AN_VREF). -/
def vrefUv : Nat := Config.vrefUv.toNat % 2 ^ 21

/-- The sum of results. -/
def sumI (l : List Int) : Int := l.foldl (· + ·) 0

/-- Maximum minus minimum of the codes of a step. -/
def spread (l : List Int) : Int := match l with
  | [] => 0
  | a :: t => t.foldl max a - t.foldl min a

/-- The next calibration of the pass begins (R470, R471); a channel waits for no spare: without CALOK it is rejected. -/
def State.calNext : Nat → State → State
  | 0, s => s
  | n + 1, s =>
    if s.an.cal.isSome || s.mode = .boot || s.mode = .test then s
    else
      match s.an.pass with
      | [] => s
      | k :: rest =>
        let s := { s with an := { s.an with pass := rest } }.setFld Reg.AN_STAT F.AN_STAT_CAL_CH k
        if k < 16 && !(s.supply 16).calok then
          State.calNext n (((s.setFld Reg.AN_STAT F.AN_STAT_REJECT 6).flag Reg.AN_STAT F.AN_STAT_CAL_REJECT).raise Ev.CAL_REJECT)
        else s.setCal (some ⟨k, if k = 16 then 4 else 2, 2, [], [], 0, 0, false⟩)

/-- The end of a calibration. -/
def State.calEnd (s : State) : State := { s with an := { s.an with cal := none, applyAt := false } }.calNext 18

/-- A source change that is due (R468, R471): step 3, 8 or 9, with the delivered value recomputed from the last code of the new
source. -/
def State.calApply (s : State) : State :=
  match s.an.cal with
  | none => s
  | some x =>
    let k := x.ch
    let s := { s with an := { s.an with applyAt := false } }
    match x.step with
    | 3 =>
      let s := (s.flag (Reg.AN_CHk_VAL k) F.AN_CHk_VAL_SRC).setFld (Reg.AN_CHk_VAL k) F.AN_CHk_VAL_MV (s.mvOf 16 k)
      s.setCal (some { x with step := 4, wait := 2, own := [], spare := [] })
    | 8 =>
      let s := s.setSupply k { s.supply k with off := x.off, gcal := x.gcal, calok := true }
      let s := s.bump Reg.AN_CNT F.AN_CNT_CAL_DONE
      let s := if k = 16 then s
        else (s.setFld (Reg.AN_CHk_VAL k) F.AN_CHk_VAL_SRC 0).setFld (Reg.AN_CHk_VAL k) F.AN_CHk_VAL_MV (s.mvOf k k)
      s.calEnd
    | 9 => ((s.setFld (Reg.AN_CHk_VAL k) F.AN_CHk_VAL_SRC 0).setFld (Reg.AN_CHk_VAL k) F.AN_CHk_VAL_MV (s.mvOf k k)).calEnd
    | _ => s

/-- A source change falls due: at the next tick, or at once outside PRINT with no ticks running (R468). -/
def State.calDue (s : State) : State :=
  if s.mode ≠ .print && !s.ticksRun then s.calApply else { s with an := { s.an with applyAt := true } }

/-- A source change that waits takes effect at a tick (R194, R471). -/
def State.anTick (s : State) : State := if s.an.applyAt then s.calApply else s

/-- A calibration rejected with a cause (R471, R472): before step 3 it ends at once; afterwards the channel returns by step 9. -/
def State.calReject (s : State) (x : Cal) (cause : Nat) : State :=
  let s := ((s.setFld Reg.AN_STAT F.AN_STAT_REJECT cause).flag Reg.AN_STAT F.AN_STAT_CAL_REJECT).raise Ev.CAL_REJECT
  if x.step = 2 || x.ch = 16 then s.calEnd
  else s.setCal (some { x with step := 9, wait := 2, own := [], spare := [], failed := true })

/-- Steps 2 and 7: the means of eight results compared (R471, R472). -/
def State.calCompare (s : State) (x : Cal) : State :=
  if x.own.length < 8 || x.spare.length < 8 then s.setCal (some x)
  else
    let far := decide (8 * s.fld Reg.AN_XCHK F.AN_XCHK_XCHK_MV < (sumI x.own - sumI x.spare).natAbs)
    if far then (s.setCal (some x)).calReject x (if x.step = 2 then 4 else 5)
    else (s.setCal (some { x with step := if x.step = 2 then 3 else 8, own := [], spare := [] })).calDue

/-- Steps 5 and 6: GCAL' and the plausibility checks in their order (R471, R472). -/
def State.calGain (s : State) (x : Cal) : State :=
  let n := x.spare.length
  let g := (sumI x.spare + n / 2) / n
  let d := g - x.off
  let gcal := if d ≤ 0 then 2 ^ 24 else ((2 * (vrefUv * 2 ^ 16 : Nat) + d) / (2 * d)).toNat
  let x := { x with gcal := gcal }
  let noise := (s.fld Reg.AN_CAL_LIM F.AN_CAL_LIM_NOISE_LIM : Int)
  if s.fld Reg.AN_CAL_LIM F.AN_CAL_LIM_ZERO_LIM < x.off.natAbs then s.calReject x 1
  else if 1250000 * s.fld Reg.AN_CAL_LIM F.AN_CAL_LIM_GAIN_LIM < ((gcal : Int) - 1250000).natAbs * 1024 then s.calReject x 2
  else if noise < spread x.own ∨ noise < spread x.spare then s.calReject x 3
  else if x.ch = 16 then (s.setCal (some { x with step := 8 })).calApply
  else s.setCal (some { x with step := 7, wait := 2, own := [], spare := [] })

/-- A result of the channel in calibration, or of the spare beside it (R471). -/
def State.calResult (s : State) (c code : Nat) : State :=
  match s.an.cal with
  | none => s
  | some x =>
    let k := x.ch
    let compares := x.step = 2 || x.step = 7
    if s.mode = .boot || s.mode = .test then s
    else if c = k then
      if 0 < x.wait then
        let x := { x with wait := x.wait - 1 }
        let s := s.setCal (some x)
        if x.step = 9 && x.wait = 0 then s.calDue else s
      else if compares then
        let own := supplyMv (if x.step = 7 then x.off else (s.supply k).off) (if x.step = 7 then x.gcal else (s.supply k).gcal) (s.divOf k) code
        s.calCompare (if x.own.length < 8 then { x with own := x.own ++ [(own : Int)] } else x)
      else if x.step = 4 then
        let own := x.own ++ [(code : Int)]
        let n := s.calN
        if own.length < n then s.setCal (some { x with own := own })
        else s.setCal (some { x with own := own, off := (sumI own + n / 2) / n, step := 5, wait := 2, spare := [] })
      else if x.step = 5 then
        let x := { x with spare := x.spare ++ [(code : Int)] }
        if x.spare.length < s.calN then s.setCal (some x) else s.calGain x
      else s
    else if c = 16 && compares && x.wait = 0 && x.spare.length < 8 then
      s.calCompare { x with spare := x.spare ++ [(s.mvOf 16 k : Int)] }
    else s

/-- CAL_START (R470, R471, R476). -/
def State.calStart (s : State) (w : Word) : State :=
  let k := F.AN_CTRL_CH.get w
  if s.an.cal.isSome || 16 < k || s.mode = .boot || s.mode = .test then s.flag Reg.AN_STAT F.AN_STAT_CFG_REFUSED
  else
    let s := s.setFld Reg.AN_STAT F.AN_STAT_REJECT 0
    { s with an := { s.an with pass := k :: s.an.pass } }.calNext 18

/-- A full pass begins, or waits for the calibration in progress (R470). -/
def State.passBegin (s : State) : State :=
  { s with an := { s.an with pass := s.an.pass ++ 16 :: List.range 16, passAt := s.now } }.calNext 18

/-- CAL_PASS_TIMER (R470). -/
def State.passTimer (s : State) : State :=
  let int := s.fld Reg.AN_CFG F.AN_CFG_CAL_INT
  if int = 0 || s.mode = .boot || s.mode = .test || s.now - s.an.passAt < int * 1000000000 then s else s.passBegin

/-! ## Slots -/

/-- The bank a slot measures: its own, or that of the channel in calibration for the spare. -/
def State.slotBank (s : State) : Option Nat :=
  if s.an.slot < 16 then some s.an.slot
  else match s.an.cal with
    | some x => if x.ch < 16 then some x.ch else none
    | none => none

/-- SENSE_SLOT_START (R466): `delay` is the time the slot waited for a quiet moment. -/
def State.slotStart (s : State) (delay : Nat) : State :=
  match s.slotBank with
  | some b =>
    let loaded := s.isSet Reg.AN_CFG F.AN_CFG_QUIET && 2000 ≤ delay
    let s := s.setFld (Reg.AN_CHk_VAL b) F.AN_CHk_VAL_LOADED (b2n loaded)
    if loaded then s.bump Reg.AN_CNT F.AN_CNT_LOADED else s
  | none => s

/-- A source change that waited for a tick and finds PRINT left and no ticks running takes effect (R468). -/
def State.calLate (s : State) : State := if s.an.applyAt && s.mode ≠ .print && !s.ticksRun then s.calApply else s

/-- SENSE_CONVERSION_DONE (R465, R467, R468). -/
def State.conversionDone (s : State) (code : Nat) : State :=
  let s := s.calLate
  let c := s.an.slot
  let s := s.setSupply c { s.supply c with code := code }
  let s := { s with an := { s.an with slot := (c + 1) % 17 } }
  (s.deliverSupply c).calResult c code

/-! ## Motor and photodiode inputs -/

/-- MZERO (R473): `means` are the rounded means of 64 codes of each input. -/
def State.motorZero (s : State) (means : List Nat) : State :=
  if [0, 1, 2, 3].all fun a => !s.fitted a || (s.axis a).st = .disabled then
    (List.range 8).foldl (fun s i => if s.fitted (i / 2) then s.setFld (Reg.AN_MOFFi i) F.AN_MOFFi_MOFF (means.getD i 0x800) else s) s
  else s.flag Reg.AN_STAT F.AN_STAT_CFG_REFUSED

/-- PD_CROSSING (R474): the time of the fall below LO, the latency taken off. -/
def State.pdCrossing (s : State) (i t : Nat) : State := { s with an := { s.an with cross := s.an.cross.set i (some t) } }

/-- PD_BRIGHT (R474). -/
def State.pdBright (s : State) : State := (s.flag Reg.AN_STAT F.AN_STAT_PD_BRIGHT).raise Ev.PD_BRIGHT

/-- A write of AN_CTRL. -/
def State.anCtrl (s : State) (w : Word) (means : List Nat) : State :=
  let s := if F.AN_CTRL_CAL_START.get w = 1 then s.calStart w else s
  if F.AN_CTRL_MZERO.get w = 1 then s.motorZero means else s

/-! ## What the registers show -/

/-- Registers of AN that follow from typed state. -/
def State.anView (s : State) (addr : Nat) : Option Word :=
  if addr = Reg.AN_STAT then
    some (F.AN_STAT_BUSY.put (F.AN_STAT_STEP.put (s.rd addr) (match s.an.cal with
      | some x => x.step
      | none => 0)) (b2n s.an.cal.isSome))
  else if addr = Reg.AN_PD0_LVL then some (F.AN_PD0_LVL_LEVEL.put (s.rd addr) (Config.pdLevel 0 s.now).toNat)
  else if addr = Reg.AN_PD1_LVL then some (F.AN_PD0_LVL_LEVEL.put (s.rd addr) (Config.pdLevel 1 s.now).toNat)
  else if addr = Reg.AN_VREF then some (BitVec.ofNat 32 vrefUv)
  else
    (List.range 17).findSome? fun k =>
      let x := s.supply k
      if addr = Reg.AN_CHk_GCAL k then some (BitVec.ofNat 32 (b2n x.calok * 2 ^ 31 + x.gcal % 2 ^ 24))
      else if addr = Reg.AN_CHk_RAW k then some (BitVec.ofNat 32 (x.code * 65536 + ofSigned 16 x.off))
      else none

end Sys2Proof.Machine
end

