-- ==== Sys2Proof/Machine/Boot.lean ====
section
/-! DEFINITION. Boot and field update (18): the flash directory (R413), boot bundles (R414), the boot log (R417), the boot sequence
and the choice of the slot (R418, R419), base camp and its pieces (R421 to R426), installation, confirmation and rollback
(R427 to R429), and the resumption of the audit ring (R379). -/

namespace Sys2Proof.Machine

/-! ## Directory -/

/-- Two regions that share a byte. -/
def regionsMeet (a b : Nat × Nat) : Bool := a.1 < b.1 + b.2 && b.1 < a.1 + a.2

/-- The regions of a directory, where it keeps every rule of R413. -/
def parseDirectory (b : List Byte) : Option (List (Nat × Nat)) :=
  let size := leAt b 8 4
  let rs := (List.range 7).map fun i => (leAt b (0x10 + 8 * i) 4, leAt b (0x14 + 8 * i) 4)
  let sz (i : Nat) : Nat := (rs.getD i (0, 0)).2
  let okRegion (r : Nat × Nat) : Bool := r.1 % 4096 = 0 && r.2 % 4096 = 0 && 4096 ≤ r.1 && r.1 + r.2 ≤ size
  if leAt b 0 4 = 0x4446594A && leAt b 4 2 = 1 && 50 ≤ leAt b 6 1 && leAt b 6 1 ≤ 200 && 4 ≤ leAt b 7 1 && leAt b 7 1 ≤ 30 &&
      leAt b 12 4 = 0 && crc32 (b.take 0x48) = leAt b 0x48 4 && rs.all okRegion && allPairs (fun x y => !regionsMeet x y) rs &&
      sz 0 = sz 1 && sz 0 ≤ 0x1000000 && sz 0 + 0x40000 ≤ sz 2 && sz 3 = sz 4 && 0x10000 ≤ sz 3 && sz 3 ≤ 0x100000 &&
      sz 5 = 0x800000 && 0x100000 ≤ sz 6 then some rs
  else none

/-- SLOT_SIZE. -/
def State.slotSize (s : State) : Nat := (s.region 0).2

/-! ## Boot log -/

/-- A boot log record written out (R417). -/
def BootLog.bytes (l : BootLog) : List Byte :=
  let b := leBytes 4 0x4C42594A ++ leBytes 4 l.gen ++ leBytes 1 l.phase ++ leBytes 1 l.tries ++ leBytes 1 l.flags ++ [0] ++
    leBytes 4 l.floor ++ leBytes 8 l.id ++ leBytes 4 0
  b ++ leBytes 4 (crc32 b)

/-- The record of 32 bytes, where its MAGIC and CRC are valid. -/
def parseLog (b : List Byte) : Option BootLog :=
  if leAt b 0 4 = 0x4C42594A && crc32 (b.take 28) = leAt b 28 4 then
    some ⟨leAt b 4 4, leAt b 8 1, leAt b 9 1, leAt b 10 1, leAt b 12 4, leAt b 16 8⟩
  else none

/-- Bytes of the log at an offset: sectors L0 and L1 begin the control area of base camp (R416). -/
def State.logSlot (s : State) (o : Nat) : List Byte := s.flashRead ((s.region 2).1 + o) 32

/-- The record in force with its offset (R417): the highest GEN across both sectors. -/
def State.logFind (s : State) : Option (Nat × BootLog) :=
  ((List.range 256).filterMap fun i => (parseLog (s.logSlot (32 * i))).map fun l => (32 * i, l)).foldl
    (fun b x => match b with
      | some y => if y.2.gen < x.2.gen then some x else some y
      | none => some x) none

/-- The boot log read (R417): without a record it reads as zeros. -/
def State.logLoad (s : State) : State := match s.logFind with
  | some (o, l) => { s with bu := { s.bu with log := l, logAt := some o } }
  | none => { s with bu := { s.bu with log := ⟨0, 0, 0, 0, 0, 0⟩, logAt := none } }

/-- Where the next record goes, and whether its sector is erased first: the next blank place of the sector in use, else the
start of the other sector. -/
def State.logNext (s : State) : Nat × Bool := match s.bu.logAt with
  | none => (0, true)
  | some o =>
    let rest := (List.range 128).map fun i => o / 4096 * 4096 + 32 * i
    match rest.find? fun x => o < x && (s.logSlot x).all (· = 0xFF#8) with
    | some x => (x, false)
    | none => ((1 - o / 4096) * 4096, true)

/-- A record written with the next GEN. -/
def State.logWrite (s : State) (l : BootLog) : State :=
  let l := { l with gen := (s.bu.log.gen + 1) % 2 ^ 32 }
  let n := s.logNext
  let a := (s.region 2).1 + n.1
  let s := if n.2 then s.flashErase a 4096 else s
  let s := s.flashProgram a l.bytes
  { s with bu := { s.bu with log := l, logAt := some n.1 } }

/-- ARMED, REJECTED and PREV_VALID. -/
def BootLog.armed (l : BootLog) : Bool := bit l.flags 0
def BootLog.rejected (l : BootLog) : Bool := bit l.flags 1
def BootLog.prevValid (l : BootLog) : Bool := bit l.flags 2

/-- FLAGS from the three. -/
def logFlags (armed rejected prev : Bool) : Nat := b2n armed + 2 * b2n rejected + 4 * b2n prev

/-- REJECTED set for the update in base camp, ARMED cleared. -/
def State.logReject (s : State) (id : Nat) : State :=
  s.logWrite { s.bu.log with flags := logFlags false true s.bu.log.prevValid, id := id }

/-! ## Bundles -/

/-- A bundle that passes step 4 of R418: BUNDLE_SIZE, SVN, FW_VERSION, SETTINGS_VER, DRAM, the code of the cores and the
structure image as (OFFSET, LENGTH, LOAD, ENTRY), and D_B. -/
structure Bundle where
  size : Nat
  svn : Nat
  fwVer : Nat
  setVer : Nat
  dram : Nat
  sec : Nat × Nat × Nat × Nat
  app : Nat × Nat × Nat × Nat
  si : Nat × Nat
  digest : List Byte
  deriving DecidableEq, Repr

/-- A body of a bundle: at a multiple of 16 bytes, between the header and the signature block. -/
def bodyOk (size off len : Nat) : Bool := off % 16 = 0 && 128 ≤ off && off + len + 104 ≤ size

/-- A bundle at a flash offset checked (R414, R418 step 4), or its ERR of BU_BOOT_STAT. -/
def State.bundleAt (s : State) (off : Nat) : Except Nat Bundle :=
  let h := s.flashRead off 128
  let w (i n : Nat) : Nat := leAt h i n
  let size := w 8 4
  let x : Bundle := ⟨size, w 0x0C 4, w 0x10 4, w 0x14 2, w 0x18 4, (w 0x20 4, w 0x24 4, w 0x28 4, w 0x2C 4),
    (w 0x30 4, w 0x34 4, w 0x38 4, w 0x3C 4), (w 0x40 4, w 0x44 4), []⟩
  let okHead := w 0 4 = 0x5442594A && w 4 2 = 1 && 4096 ≤ size && size ≤ s.slotSize && size % 16 = 0 && 1 ≤ x.setVer &&
    w 0x16 2 = 0 && x.dram % 2 ^ 16 / 32 % 8 = 0 && x.dram / 2 ^ 16 = 0 && w 0x1C 4 = 0 && allZero (slice h 0x48 56) &&
    bodyOk size x.sec.1 x.sec.2.1 && x.sec.2.1 ≤ 524288 && bodyOk size x.app.1 x.app.2.1 && bodyOk size x.si.1 x.si.2
  let key := w 6 1
  if !okHead then .error 3
  else if w 7 1 ≠ 0 then .error 4
  else if 4 ≤ key || (s.imageKey key).isNone then .error 6
  else if x.svn < s.bu.log.floor then .error 5
  else match checkSignature (s.flashRead off size) key (s.imageKey key) with
    | .ok d => .ok { x with digest := d }
    | .error _ => .error 7

/-- The structure image of a bundle loaded (R71 steps 1 to 3). -/
def State.bundleImage (s : State) (off : Nat) (x : Bundle) : Except SiRefusal Loaded :=
  loadFull (s.flashRead (off + x.si.1) x.si.2) s.imageKey s.ut.parent.ld s.ut.parent.sd

/-- A region erased and a bundle copied into it (R427, R429). -/
def State.slotCopy (s : State) (src dst n : Nat) : State :=
  let b := s.flashRead src n
  (s.flashErase dst s.slotSize).flashProgram dst b

/-- BUNDLE_SIZE of the bundle at a flash offset, at most SLOT_SIZE. -/
def State.bundleSize (s : State) (off : Nat) : Nat := min s.slotSize (leNat (s.flashRead (off + 8) 4))

/-! ## Base camp -/

/-- The first byte of base camp. -/
def State.campBase (s : State) : Nat := (s.region 2).1

/-- Where the bundle being staged lies (R416). -/
def State.campBundle (s : State) : Nat := s.campBase + 0x40000

/-- Whether the piece of a number is stored: its bitmap bit is clear (R416). Before the directory is read no piece is. -/
def State.pieceIn (s : State) (k : Nat) : Bool :=
  (s.region 2).2 ≠ 0 && !(bit (leNat (s.flashRead (s.campBase + 0x2000 + k / 8) 1)) (k % 8))

/-- N of the manifest, and the manifest's length and pieces (R422). -/
def State.campN (s : State) : Nat := leNat (s.flashRead (s.campBase + 0x3014) 4)
def State.campLen (s : State) : Nat := 232 + 32 * s.campN
def State.campM (s : State) : Nat := min 33 ((s.campLen + 4095) / 4096)

/-- Every manifest piece stored. -/
def State.manifestIn (s : State) : Bool := s.pieceIn 0 && (List.range s.campM).all s.pieceIn

/-- Data pieces missing. -/
def State.dataMissing (s : State) : Nat := ((List.range s.campN).filter fun i => !s.pieceIn (64 + i)).length

/-- Manifest checks of R424 step 8. -/
def State.manifestOk (s : State) : Bool :=
  let n := s.campN
  let size := leNat (s.flashRead (s.campBase + 0x3010) 4)
  if 4096 < n || n = 0 then false
  else
    let b := s.flashRead (s.campBase + 0x3000) s.campLen
    let key := leAt b 6 1
    leAt b 0 4 = 0x464D594A && leAt b 4 2 = 1 && leAt b 7 1 = 0 && leAt b 8 8 = s.bu.campId && size ≤ s.slotSize &&
      n = (size + 4095) / 4096 && leAt b 0x1C 4 = 0 && allZero (slice b 0x50 48) && key ≤ 3 &&
      s.bu.log.floor ≤ leAt b 0x18 4 && (checkSignature b key (s.imageKey key)).isOk

/-- The whole check of base camp (R425), with the bundle's SVN equal to the manifest's (R422). -/
def State.wholeOk (s : State) : Bool :=
  let b := s.flashRead (s.campBase + 0x3000) 0x80
  let size := leAt b 0x10 4
  size ≤ s.slotSize && sha384 (s.flashRead s.campBundle size) = slice b 0x20 48 &&
    match s.bundleAt s.campBundle with
    | .ok x => x.size = size && x.svn = leAt b 0x18 4 && (s.bundleImage s.campBundle x).isOk
    | .error _ => false

/-- Base camp in a state. -/
def State.setCamp (s : State) (c : CampState) : State := { s with bu := { s.bu with camp := c } }

/-- UPDATE_REJECTED with REJECTED in the boot log. -/
def State.campReject (s : State) : State := ((s.logReject s.bu.campId).setCamp .rejected).raise Ev.UPDATE_REJECTED

/-- Base camp rebuilt from flash (R423). -/
def State.campRebuild (s : State) : State :=
  let id := if s.pieceIn 0 then leNat (s.flashRead (s.campBase + 0x3008) 8)
    else if s.bu.log.rejected || s.bu.log.armed then s.bu.log.id else s.bu.campId
  let s := { s with bu := { s.bu with campId := id } }
  if s.bu.log.rejected then s.setCamp .rejected
  else if s.bu.log.armed then s.setCamp .armed
  else if (List.range 4160).all fun k => !s.pieceIn k then s.setCamp .empty
  else if !s.manifestIn then s.setCamp .manifest
  else if !s.manifestOk then s.campReject
  else if s.dataMissing ≠ 0 then s.setCamp .data
  else if s.wholeOk then s.setCamp .ready
  else s.campReject

/-! ## Installation and rollback -/

/-- R427 step 1: PREVIOUS takes the bundle of ACTIVE. -/
def State.copyPrev (s : State) : State :=
  let s := s.logWrite { s.bu.log with phase := 1 }
  let s := s.slotCopy (s.region 0).1 (s.region 1).1 (s.bundleSize (s.region 0).1)
  s.logWrite { s.bu.log with flags := logFlags s.bu.log.armed s.bu.log.rejected true }

/-- R427 steps 3 and 4: ACTIVE takes the bundle of base camp, then FIRST_START. -/
def State.copyActive (s : State) : State :=
  let s := s.logWrite { s.bu.log with phase := 2 }
  let s := s.slotCopy s.campBundle (s.region 0).1 (s.bundleSize s.campBundle)
  s.logWrite { s.bu.log with phase := 3, tries := 0, flags := logFlags false s.bu.log.rejected s.bu.log.prevValid }

/-- Installation (R427). -/
def State.install (s : State) : State :=
  match s.bundleAt (s.region 0).1 with
  | .ok _ => s.copyPrev.copyActive
  | .error _ => s.copyActive

/-- Rollback (R429). -/
def State.rollback (s : State) : State :=
  let s := s.logWrite { s.bu.log with phase := 4 }
  let s := s.slotCopy (s.region 1).1 (s.region 0).1 (s.bundleSize (s.region 1).1)
  let s := s.logWrite { s.bu.log with phase := 0, tries := 0, flags := logFlags false true s.bu.log.prevValid }
  (s.setCamp .rejected).raise Ev.UPDATE_ROLLBACK

/-! ## The audit ring -/

/-- Units of the ring that hold a byte other than an erased one. -/
def State.ringUnits (s : State) : List Nat :=
  let r := s.ringRegion
  ((s.flash.filter fun c => r.1 ≤ c.1 && c.1 < r.1 + 128 * r.2).map fun c => (c.1 - r.1) / 128).eraseDups

/-- A unit's bytes. -/
def State.ringUnit (s : State) (u : Nat) : List Byte := s.flashRead (s.ringRegion.1 + 128 * u) 128

/-- CHAIN that the cairn after one carries (R379). -/
def chainAfter (c : List Byte) : List Byte := (sha256 (putBytes c 0x34 (List.replicate 12 0))).take 16

/-- The first unit past the newest records where the ring goes on: the rest of a sector is written only while it is blank. -/
def State.ringGo (s : State) (used : List Nat) : Nat → Nat → Nat
  | 0, u => u
  | f + 1, u =>
    let n := max 1 s.ringRegion.2
    if leAt (s.ringUnit u) 0 4 = 0x4D53594A && used.contains u then s.ringGo used f ((u + 4) % n)
    else if used.contains u && u % 32 ≠ 0 then s.ringGo used f ((u + 1) % n)
    else u

/-- R379: SEQ and CHAIN from the newest cairn in the ring whose CHAIN verifies against its predecessor. -/
def State.ringResume (s : State) : State :=
  let us := s.ringUnits
  let n := max 1 s.ringRegion.2
  let sums := us.filter fun u => leAt (s.ringUnit u) 0 4 = 0x4D53594A
  let inSum := sums.flatMap fun u => (List.range 4).map fun i => ((u + i) % n, leAt (s.ringUnit u) 0x18 8 + leAt (s.ringUnit u) 0x20 2)
  let cairns := (us.filter fun u => leAt (s.ringUnit u) 0 4 = 0x4E43594A && !(inSum.any fun x => x.1 = u)).map fun u =>
    (u, leAt (s.ringUnit u) 8 8, s.ringUnit u)
  let follows (c : Nat × Nat × List Byte) : Bool :=
    if c.2.1 = 0 then allZero (c.2.2.drop 112)
    else cairns.any fun p => p.2.1 + 1 = c.2.1 && chainAfter p.2.2 = c.2.2.drop 112
  let best := (cairns.filter follows).foldl (fun (b : Option (Nat × Nat × List Byte)) c => match b with
    | some y => if y.2.1 < c.2.1 then some c else some y
    | none => some c) none
  let sq := inSum.foldl (fun m x => AMap.set (fun _ => 0) m x.1 x.2) ([] : AMap Nat)
  let sq := cairns.foldl (fun m c => AMap.set (fun _ => 0) m c.1 (c.2.1 + 1)) sq
  let s := { s with au := { s.au with ringSeq := sq } }
  match best with
  | some c => { s with au := { s.au with seq := c.2.1 + 1, chain := chainAfter c.2.2, ringPos := s.ringGo us 64 ((c.1 + 1) % n) } }
  | none => { s with au := { s.au with seq := 0, chain := List.replicate 16 0, ringPos := 0 } }

/-! ## The boot sequence -/

/-- The end of the sequence in FAILED (R420). -/
def State.bootFail (s : State) (e : Nat) : State :=
  let s := s.setFld Reg.BU_BOOT_STAT F.BU_BOOT_STAT_ERR e
  { s with bu := { s.bu with bootState := 2 } }

/-- The key store decrypted (R392): a store of an earlier generation is lost. -/
def State.keyLoad (s : State) : State :=
  { s with au := { s.au with slots := if s.au.store.2 = s.au.zgen then s.au.store.1 else [] } }

/-- Secret slots empty, where no settings set qualifies (R431). -/
def State.keyNone (s : State) : State :=
  { s with au := { s.au with slots := s.au.slots.filter fun e => decide (3 ≤ e.1) && decide (e.1 ≤ 6) } }

/-- R71 steps 4 and 5: the structure in force, M, and the registers that report it. -/
def State.putStructure (s : State) (img : List Byte) (x : Loaded) : State :=
  let s := { s with si := x.si, ut := { s.ut with own := x.own } }
  let s := (s.setM x.digest).mapLoad.loopLoad.judgeAll
  (s.wrN Reg.BU_SI_ID (leAt img 0x14 4)).wrN Reg.BU_SI_VER (leAt img 0x18 4)

/-- FW_MEAS reported (R415). -/
def State.putFwMeas (s : State) (d : List Byte) : State :=
  (List.range 12).foldl (fun s k => s.wrN (Reg.BU_FW_MEASi k) (leAt d (4 * k) 4)) { s with bu := { s.bu with fwMeas := d } }

/-- A GATE_CUT held in BOOT takes the class and unit of its GATING entry, which is loaded now (R176, R437). -/
def State.gateHeld (s : State) : State :=
  let look (h : HeldEvent) : HeldEvent :=
    if h.id = Ev.GATE_CUT then { h with cls := (s.gating h.detail).cls, unit := (s.gating h.detail).unit }
    else h
  { s with fl := { s.fl with held := s.fl.held.map look } }

/-- BOOT to IDLE (R29, R437, R470). -/
def State.bootIdle (s : State) : State :=
  let s := (s.gateHeld.setMode .idle).raiseHeld
  { s with bu := { s.bu with bootState := 1, idleAt := s.now, coresReleased := true } }.passBegin

/-- How booting a slot ends: in IDLE, in FAILED for good, or with the slot failed (R418). -/
inductive SlotEnd where
  | done (s : State) | failed (s : State) | slotBad (s : State) (e : Nat)

/-- DRAM training of a channel (R313): the five steps on each fitted rank, each tried up to four times, until one fails them all. A
step has passed when it has on every rank. -/
def State.trainChannel (s : State) (env : BootEnv) (c : Nat) : Bool × State :=
  let a := Reg.DC_CHc_TRAIN c
  let ranks := if s.isSet Reg.DC_CFG F.DC_CFG_RANK1 then 2 else 1
  (List.range (5 * ranks)).foldl (fun (p : Bool × State) i =>
    if !p.1 then p
    else
      let f := (env.fails.getD (10 * c + i) 0).val
      let s := p.2.setFld a F.DC_CHc_TRAIN_RETRIES (min 3 f)
      if f = 4 then (false, s)
      else
        let s := if i = 3 then s.setFld a F.DC_CHc_TRAIN_VREF_DQ (if c = 0 then env.vrefA.val else env.vrefB.val) else s
        (true, if i / 5 + 1 = ranks then s.setFld a F.DC_CHc_TRAIN_PASS (s.fld a F.DC_CHc_TRAIN_PASS ||| 2 ^ (i % 5)) else s))
    (true, s.wrN a 0)

/-- DRAM training (R313) at the rate of DC_CFG; a reserved rate trains nothing. -/
def State.train (s : State) (env : BootEnv) : Bool × State :=
  if 5 ≤ s.fld Reg.DC_CFG F.DC_CFG_RATE then (false, s)
  else
    let p := s.trainChannel env 0
    if p.1 then p.2.trainChannel env 1 else p

/-- Step 6 of R418: the code of the cores copied to where it loads, into DRAM where LOAD is an address of DRAM. -/
def State.copyCode (s : State) (off : Nat) (x : Bundle) : State :=
  let code (c : Nat × Nat × Nat × Nat) : Nat × Nat × List Byte := (c.2.2.1, c.2.2.2, s.flashRead (off + c.1) c.2.1)
  let app := code x.app
  let s := { s with bu := { s.bu with code := [code x.sec, app] } }
  if app.2.2.isEmpty then s
  else if Config.loadInDram app.1 && decide (app.1 + app.2.2.length ≤ s.dramSize) then s.dramWrite app.1 app.2.2
  else s

/-- Steps 4 to 9 of R418 on the slot at a flash offset. -/
def State.bootSlot (s : State) (slot : Nat) (env : BootEnv) : SlotEnd :=
  let off := (s.region slot).1
  match s.bundleAt off with
  | .error e => .slotBad s e
  | .ok x =>
    let s := s.putFwMeas x.digest
    let s := ((s.setFld Reg.DC_CFG F.DC_CFG_RATE (bits x.dram 2 0)).setFld Reg.DC_CFG F.DC_CFG_DBI (bits x.dram 3 3)).setFld
      Reg.DC_CFG F.DC_CFG_RANK1 (bits x.dram 4 4) |>.setFld Reg.DC_CFG F.DC_CFG_SIZE (bits x.dram 15 8)
    let p := s.train env
    let s := p.2
    if !p.1 then .failed ((s.flag Reg.DC_STAT F.DC_STAT_TRAIN_FAIL).bootFail 8)
    else
      let s := { s with sys := { s.sys with stopped := s.sys.stopped.filter (· ≠ Domain.dram) } }.copyCode off x
      let s := s.selectSet x.setVer
      let s := if s.bu.setCopy.isNone then s.keyNone else s
      let img := s.flashRead (off + x.si.1) x.si.2
      match s.bundleImage off x with
      | .error e =>
        .slotBad (s.setReload { Reload.reset with state := .refused, err := e.err.code, failSection := e.sect }) 9
      | .ok l =>
        let s := s.putStructure img l
        let s := (s.wrN Reg.BU_SVN x.svn).wrN Reg.BU_FW_VER x.fwVer |>.setFld Reg.BU_BOOT_STAT F.BU_BOOT_STAT_SLOT slot
        let s := if s.bu.log.phase = 3 then s.logWrite { s.bu.log with tries := s.bu.log.tries + 1 } else s
        .done s.bootIdle

/-- SVN_FLOOR lets PREVIOUS be booted (R419 rule 4). -/
def State.prevAllowed (s : State) : Bool :=
  s.bu.log.prevValid && decide (s.bu.log.floor ≤ leNat (s.flashRead ((s.region 1).1 + 0x0C) 4))

/-- The list of R419, applied again after a copy. -/
def State.bootList (env : BootEnv) : Nat → State → State
  | 0, s => s.bootFail 0xA
  | f + 1, s =>
    let err (s : State) (e : Nat) : State := s.setFld Reg.BU_BOOT_STAT F.BU_BOOT_STAT_ERR e
    match s.bu.log.phase with
    | 1 =>
      let s := s.copyPrev
      State.bootList env f (s.logWrite { s.bu.log with phase := 0 })
    | 2 => State.bootList env f s.copyActive
    | 4 => State.bootList env f s.rollback
    | ph =>
      if s.bu.log.armed && s.wholeOk then State.bootList env f s.install
      else
        let s := if s.bu.log.armed then s.campReject else s
        if ph = 3 && 3 ≤ s.bu.log.tries then State.bootList env f s.rollback
        else match s.bootSlot 0 env with
          | .done s => s
          | .failed s => s
          | .slotBad s e =>
            let s := err s e
            if ph = 3 then State.bootList env f s.rollback
            else if !s.prevAllowed then s.bootFail 0xA
            else
              let fb (s : State) : State :=
                ((s.flag Reg.BU_BOOT_STAT F.BU_BOOT_STAT_FALLBACK).raise Ev.SLOT_FALLBACK).csrSet F.FL_CSR_FALLBACK
              match (fb s).bootSlot 1 env with
              | .done s => s
              | .failed s => s
              | .slotBad s _ => s.bootFail 0xA

/-- BOOT_SEQUENCE (R418): from reset to IDLE or FAILED. Above 100 MHz with VDDIO0 above 1.95 V no read of the flash succeeds once
the directory has been read (R498). -/
def State.bootSequence (s : State) (env : BootEnv) : State :=
  if s.mode ≠ .boot || s.bu.bootState ≠ 0 then s
  else
    let s := { s with sys := { s.sys with coreVsel := Config.coreVsel.val, io0High := env.io0High } }
    match parseDirectory (s.flashRead 0 0x4C) with
    | none => s.bootFail 1
    | some rs =>
      let mhz := leAt (s.flashRead 0 0x4C) 6 1
      let s := { s with bu := { s.bu with regions := rs, xspiMhz := mhz } }
      if s.sys.io0High && decide (100 < mhz) then s.bootFail 2
      else
        let s := State.bootList env 16 s.keyLoad.logLoad.campRebuild
        let s := if s.bu.log.armed || s.bu.camp = .rejected then s else s.campRebuild
        s.ringResume

/-! ## Operations on base camp -/

/-- The end of an operation with its error (BU_UP_STAT). -/
def State.upEnd (s : State) (e : Nat) : State :=
  (s.setFld Reg.BU_UP_STAT F.BU_UP_STAT_ERR e).flag Reg.BU_UP_STAT F.BU_UP_STAT_DONE

/-- The piece in BU_UP_BUF. -/
def State.piece (s : State) : List Byte := (List.range 1040).flatMap fun k => leBytes 4 (AMap.get (fun _ => (0 : Word)) s.bu.buf k).toNat

/-- INDEX and LEN within R421 and R422: LEN is 4,096 but for the last piece of its kind. Before piece 0 of the manifest is
stored any INDEX up to 32 may be. -/
def State.pieceFits (s : State) (kind index len : Nat) : Bool :=
  let exact (total : Nat) : Bool := index * 4096 < total && len = min 4096 (total - index * 4096)
  if kind = 1 then exact (leNat (s.flashRead (s.campBase + 0x3010) 4))
  else if s.pieceIn 0 then exact s.campLen && index ≤ 32
  else index ≤ 32 && 1 ≤ len && len ≤ 4096

/-- Steps 1 to 5 of R424: the piece's error, or `some 0` where it is already present. -/
def State.pieceCheck (s : State) (p : List Byte) : Option Nat :=
  let kind := leAt p 6 1
  let index := leAt p 0x10 4
  let len := leAt p 0x14 2
  let num := if kind = 1 then 64 + index else index
  if leAt p 0 4 ≠ 0x5055594A || leAt p 4 2 ≠ 1 then some 2
  else if crc32 (p.take 0x3C ++ p.drop 0x40) ≠ leAt p 0x3C 4 then some 1
  else if leAt p 7 1 ≠ 0 || !allZero (slice p 0x16 38) || 1 < kind || !allZero (p.drop (64 + len)) then some 2
  else if s.bu.camp ≠ .empty && leAt p 8 8 ≠ s.bu.campId then some 3
  else if (if kind = 1 then s.bu.camp ≠ .data else s.bu.camp ≠ .empty && s.bu.camp ≠ .manifest) || !s.pieceFits kind index len then
    some 4
  else if s.pieceIn num then some 0
  else if kind = 1 && sha256 (slice p 64 len) ≠ s.flashRead (s.campBase + 0x3080 + 32 * index) 32 then some 5
  else none

/-- Steps 8 and 9 of R424 once the piece is stored. -/
def State.pieceLast (s : State) (kind : Nat) : State :=
  if kind = 0 then
    if !s.manifestIn then (s.setCamp .manifest).upEnd 0
    else if s.manifestOk then (s.setCamp .data).upEnd 0
    else s.campReject.upEnd 7
  else if s.dataMissing ≠ 0 then s.upEnd 0
  else if s.wholeOk then (s.setCamp .ready).upEnd 0
  else s.campReject.upEnd 8

/-- SUBMIT (R424). -/
def State.submitPiece (s : State) : State :=
  let p := s.piece
  let kind := leAt p 6 1
  let index := leAt p 0x10 4
  match s.pieceCheck p with
  | some 0 => (s.bump Reg.BU_UP_PROG F.BU_UP_PROG_DUP).upEnd 0
  | some e => s.upEnd e
  | none =>
    let num := if kind = 1 then 64 + index else index
    let a := if kind = 1 then s.campBundle + 4096 * index else s.campBase + 0x3000 + 4096 * index
    let b := slice p 64 4096
    let t := s.flashProgram a b
    if (s.region 2).2 = 0 || t.flashRead a 4096 ≠ b then s.upEnd 6
    else
      let t := t.flashProgram (s.campBase + 0x2000 + num / 8) (leBytes 1 (255 - 2 ^ (num % 8)))
      { t with bu := { t.bu with campId := leAt p 8 8 } }.pieceLast kind

/-- BU_ARM (R426). -/
def State.buArm (s : State) : State :=
  if s.bu.camp ≠ .ready then s.upEnd 9
  else
    let s := s.logWrite { s.bu.log with flags := logFlags true s.bu.log.rejected s.bu.log.prevValid, id := s.bu.campId }
    (s.setCamp .armed).upEnd 0

/-- DISARM (R426). -/
def State.disarm (s : State) : State :=
  if s.bu.camp ≠ .armed then s.upEnd 9
  else
    let s := s.logWrite { s.bu.log with flags := logFlags false s.bu.log.rejected s.bu.log.prevValid }
    (s.setCamp .ready).upEnd 0

/-- DISCARD (R426): the bitmap, the manifest store and the data area erased. -/
def State.discard (s : State) : State :=
  if s.bu.camp = .armed then s.upEnd 9
  else
    let s := if (s.region 2).2 = 0 then s
      else (s.flashErase (s.campBase + 0x2000) 0x22000).flashErase s.campBundle s.slotSize
    let s := if s.bu.log.rejected then s.logWrite { s.bu.log with flags := logFlags false false s.bu.log.prevValid } else s
    (s.setCamp .empty).upEnd 0

/-- A write of BU_UP_CTRL: each operation whose bit is set, in the order of the bits. -/
def State.upCtrl (s : State) (w : Word) : State :=
  let s := if F.BU_UP_CTRL_SUBMIT.get w = 1 then s.submitPiece else s
  let s := if F.BU_UP_CTRL_ARM.get w = 1 then s.buArm else s
  let s := if F.BU_UP_CTRL_DISARM.get w = 1 then s.disarm else s
  if F.BU_UP_CTRL_DISCARD.get w = 1 then s.discard else s

/-- CONFIRM (R428): without effect outside FIRST_START. -/
def State.confirmStart (s : State) : State :=
  if s.bu.log.phase ≠ 3 then s
  else s.logWrite { s.bu.log with phase := 0, tries := 0, floor := s.rdN Reg.BU_SVN }

/-- Whether the confirmation time is over (R428). -/
def State.confirmDue (s : State) : Bool :=
  let t := max 1 (s.fld Reg.BU_CONFIRM_TMO F.BU_CONFIRM_TMO_S)
  s.mode ≠ .boot && s.bu.log.phase = 3 && decide (s.bu.idleAt + t * 1000000000 ≤ s.now)

/-! ## Registers -/

/-- BU_UP_STAT.STATE. -/
def CampState.code : CampState → Nat
  | .empty => 0 | .manifest => 1 | .data => 2 | .ready => 3 | .armed => 4 | .rejected => 5

/-- Registers of BU that follow from the boot log and base camp. -/
def State.buView (s : State) (addr : Nat) : Option Word :=
  if addr = Reg.BU_BOOT_STAT then
    let w := F.BU_BOOT_STAT_TRIES.put (s.rd addr) s.bu.log.tries
    some (F.BU_BOOT_STAT_STATE.put (F.BU_BOOT_STAT_PHASE.put w s.bu.log.phase) s.bu.bootState)
  else if addr = Reg.BU_SVN_FLOOR then some (BitVec.ofNat 32 s.bu.log.floor)
  else if addr = Reg.BU_UP_STAT then some (F.BU_UP_STAT_STATE.put (s.rd addr) s.bu.camp.code)
  else if addr = Reg.BU_UP_PROG then
    some (F.BU_UP_PROG_MISSING.put (s.rd addr) (if s.bu.camp = .data then s.dataMissing else 0))
  else if addr = Reg.BU_UP_ID_LO then some (BitVec.ofNat 32 s.bu.campId)
  else if addr = Reg.BU_UP_ID_HI then some (BitVec.ofNat 32 (s.bu.campId / 2 ^ 32))
  else none

end Sys2Proof.Machine
end

