-- ==== Sys2Proof/Machine/Tick.lean ====
section
/-! DEFINITION. WPOS and the line tick (R24 to R27, R92, R93, R96 to R98, R122): a change of WPOS judges the compares that watch
it and, where the line index rises, is the tick of a line. At a tick the LEAD checks that are due are made, and the line after
HWM is started, held back by PRESS_HOLD_N or left blank. -/

namespace Sys2Proof.Machine

/-! ## Compares -/

/-- A web compare. -/
def State.wpCmp (s : State) (k : Nat) : Cmp := s.wp.cmps.getD k ⟨false, 0, 0, 0⟩

/-- A web compare replaced. -/
def State.setWpCmp (s : State) (k : Nat) (c : Cmp) : State := { s with wp := { s.wp with cmps := s.wp.cmps.set k c } }

/-- What a firing compare does (R100): it disarms, and its actions follow on the same cycle. -/
def State.wpCmpFire (s : State) (k : Nat) : State :=
  let a := Reg.WP_CMPk_CTRL k
  let act := s.fld a F.WP_CMPk_CTRL_ACTION
  let s := (s.setWpCmp k { s.wpCmp k with armed := false }).flag a F.WP_CMPk_CTRL_FIRED
  let s := if act.testBit 0 then s.raise (Ev.CMP_HIT k) else s
  let s := if act.testBit 1 then s.triggerAxis (s.fld a F.WP_CMPk_CTRL_AXIS) else s
  if act.testBit 2 then s.capture k else s

/-- A position a compare can match: WPOS always, U from -2^47 to 2^47 - 1 (R102). -/
def cmpInRange (src : Nat) (x : Int) : Bool := src = 0 || decide (-(2 ^ 47) ≤ x ∧ x < 2 ^ 47)

/-- The compares that watch a position judged on a change of it (R100): 0 WPOS, 1 and 2 the U of a channel. -/
def State.wpCompare (s : State) (src : Nat) (old new : Int) : State :=
  forEach (List.range 8) (fun s k =>
    let c := s.wpCmp k
    if c.armed && c.src = src && cmpInRange src new && crosses c.dir c.target old new then s.wpCmpFire k else s) s

/-! ## Holding the press -/

/-- PRESS_HOLD_N driven low for a line (R25, R96, R97): while it is low, the lowest such line stands. -/
def State.pressHold (s : State) (l : Nat) : State :=
  let w := s.wp
  { s with wp := { w with holdLine := if w.pinLow && decide (w.holdLine ≤ l) then w.holdLine else l, pinLow := true,
                          pinSince := if w.pinLow then w.pinSince else some s.now, backup := true } }

/-- PRESS_HOLD_RELEASE (R25, step 5 of R97). -/
def State.pressRelease (s : State) : State :=
  if s.wp.pinLow && decide (s.line + s.si.limits.runup ≤ s.wp.hwm + 1) && s.lringComplete (s.wp.hwm + 1) then
    { s with wp := { s.wp with pinLow := false } }
  else s

/-- BACKUP_TIMEOUT (R98): raised once while the pin is low; the pin stays low. -/
def State.backupTimeout (s : State) : State :=
  let ms := s.rdN Reg.WP_BACKUP_TMO
  match s.wp.pinSince with
  | some t =>
    if s.wp.pinLow && ms ≠ 0 && decide (ms * 1000000 ≤ s.now - t) then
      ({ s with wp := { s.wp with pinSince := none } }.flag Reg.WP_STAT F.WP_STAT_BACKUP_TIMEOUT).raise Ev.BACKUP_TIMEOUT
    else s
  | none => s

/-! ## The tick -/

/-- A tick that fires nothing (R92). -/
def State.tickIdle (s : State) : State := { s with wp := { s.wp with ticksIdle := satInc s.wp.ticksIdle } }

/-- The LEAD check of a line (R122): passed while its line ring entry is complete and the slice buffers hold its slices; a failed one
makes the line late. -/
def State.leadCheck (s : State) (x : Nat) : State :=
  let ok := s.lineHeld x
  let s := { s with js := { s.js with lead := s.js.lead ++ [(x, ok)] } }
  if ok then s
  else
    let s := ((s.wrN Reg.JS_LATE_LINE x).bump Reg.JS_LATE_CNT F.JS_LATE_CNT_VALUE).flag Reg.JS_STAT F.JS_STAT_LINE_LATE
    let s := s.raise Ev.LINE_LATE
    if s.si.limits.backup then s.pressHold x else s

/-- The LEAD checks due at the tick of a line (R122): lines above HWM up to LEAD lines ahead that have none yet. -/
def State.leadChecks (s : State) (l : Nat) : State :=
  let top := match s.printEnd with
    | some e => min (l + s.si.limits.lead) e
    | none => l + s.si.limits.lead
  let h := s.wp.hwm
  (((List.range (top - h)).map (h + 1 + ·)).filter fun x => !(s.js.lead.any fun e => e.1 = x)).foldl (fun s x => s.leadCheck x) s

/-- The FIFO entries of a bank none of whose ports takes part in a line are freed at its tick, since no shift frees them (log entry
40). -/
def State.freeEntries (s : State) (b l : Nat) : State :=
  (bankPorts b).foldl (fun s p => s.setPort p { s.port p with fifo := (s.port p).fifo.filter fun e => decide (l < e.line) }) s

/-- A line started at its tick (R11, R12, R93): the period, P_prev, the timestamp of the tick, the unit changes committed at it
(R47, R174) and the readings of every port that takes part; a line without such a port begins at once. `prevAt` is the cycle of the tick before. -/
def State.startLine (s : State) (l : Nat) (prevAt : Option Nat) : State :=
  let pMin := s.si.limits.pMin
  let w := s.wp
  let period := match w.lastFire with
    | some (k, c) => if k + 1 = l then some (s.now - c) else none
    | none => none
  let gap := match w.lastFire with
    | some (k, c) => !(k + 1 = l && prevAt = some c)
    | none => true
  let pPrev := if gap then pMin else w.pNext
  let back := w.backup && !w.pinLow
  let s := { s with wp := { w with
    ticking := some l, lastFire := some (l, s.now), period := period.getD w.period, pNext := period.getD pMin,
    backup := w.backup && !back, backupCnt := if back then satInc w.backupCnt else w.backupCnt } }
  let s := match period with
    | some p => if p < pMin then (s.flag Reg.WP_STAT F.WP_STAT_LINE_RATE_HIGH).raise Ev.LINE_RATE_HIGH else s
    | none => s
  let s := (s.tickStamp).unitsReach l
  let on := s.validPorts.filter (s.portOn l)
  let s := (List.range 16).foldl (fun s b => if (s.bankOn l b).isEmpty then s.freeEntries b l else s) s
  let s := on.foldl (fun s p => s.freezePort l p pPrev) s
  if on.isEmpty then s.lineBegin l else s

/-- A tick beyond the line in turn (R26): with BACKUP_PRESENT the first lost line is held for, with BACKUP_ABSENT the lost lines
stay blank. -/
def State.tickLost (s : State) (l : Nat) : State :=
  let s := ((s.flag Reg.WP_STAT F.WP_STAT_LINE_MISSED).raise Ev.LINE_MISSED).tickIdle
  let first := if s.wp.ticking.isSome then s.wp.hwm + 2 else s.wp.hwm + 1
  if s.si.limits.backup then s.pressHold first
  else
    let lost := (List.range (l + 1 - first)).map (first + ·)
    let s := { s with js := { s.js with lead := (s.js.lead.filter fun e => !lost.contains e.1) ++ lost.map fun x => (x, false) } }
    State.blankLost (s.js.lead.length + 1) s

/-- What the tick of a line in PRINT does with it (R24 to R27, R97). -/
def State.tickLine (s : State) (l : Nat) (prevAt : Option Nat) : State :=
  let past := match s.printEnd with
    | some e => decide (e < l)
    | none => false
  if l ≤ s.wp.hwm || past || s.wp.ticking = some l then s.tickIdle
  else if s.wp.hwm + 2 ≤ l then s.tickLost l
  else if s.wp.pinLow && decide (s.wp.holdLine ≤ l) then s.tickIdle
  else if s.js.lead.contains (l, false) || !s.composeReady l then
    if s.si.limits.backup then (s.pressHold l).tickIdle else (s.blankLine l).tickIdle
  else s.startLine l prevAt

/-- The tick of a line (R92): source changes and settings that wait for it take effect (R47, R471), an accepted request for
PRINT takes effect with the first tick above HWM (R29), the LEAD checks that are due are made in PRINT and for the job that is ARMED in
WARM (R122), and in PRINT loop parameters that wait for the line go into force (R75)
and the line itself is judged. -/
def State.tick (s : State) (l : Nat) : State :=
  let prevAt := s.wp.tickAt
  let s := { s with wp := { s.wp with tickAt := some s.now, lastTick := some l } }
  let s := (s.anTick.utTick l).parentReach l
  let pend := match s.sys.trans with
    | some t => t.target = .print
    | none => false
  let s := if s.mode = .warm && pend && decide (s.wp.hwm < l) then s.enterPrint else s
  let s := if s.composes && !s.sys.holdDue then s.leadChecks l else s
  if s.mode ≠ .print || s.sys.holdDue then s.tickIdle else (s.paramsReach l).tickLine l prevAt

/-- COMPOSE_DEADLINE (R12, R16). -/
def State.deadline (s : State) : State :=
  let r := s.composeDeadline
  match r.2 with
  | some n => if s.si.limits.backup then r.1.pressHold n else r.1
  | none => r.1

/-! ## WPOS -/

/-- PT_LAG (R104): a resynthesised output more than 4 counts behind, reported once until it has caught up. -/
def State.ptWatch (s : State) (k : Nat) : State :=
  let o := if k = 0 then s.wp.pt0 else s.wp.pt1
  let put (s : State) (o : PtOut) : State := { s with wp := if k = 0 then { s.wp with pt0 := o } else { s.wp with pt1 := o } }
  if s.fld (Reg.WP_CHk_PT k) F.WP_CHk_PT_PT_MODE ≠ 2 then s
  else
    let d := (s.ptQ k - o.q).natAbs
    if 4 < d && !o.lagging then ((put s { o with lagging := true }).flag Reg.WP_STAT F.WP_STAT_PT_LAG).raise Ev.PT_LAG
    else if d = 0 then put s { o with lagging := false }
    else s

/-- WPOS takes a new value (R89, R92): compares on it are judged, and a rise of the line index is a tick; a fall begins a
reversal, after which LEAD checks are made anew (R122). -/
def State.setPos (s : State) (new : Nat) : State :=
  let old := s.wp.pos
  if new = old then s
  else
    let s := ({ s with wp := { s.wp with pos := new } }.wpCompare 0 old new)
    let s := if old / 65536 < new / 65536 then s.tick (new / 65536)
      else if new / 65536 < old / 65536 then { s with js := { s.js with lead := [] } }
      else s
    (s.ptWatch 0).ptWatch 1

end Sys2Proof.Machine
end

