-- ==== Sys2Proof/Machine/WebPos.lean ====
section
/-! DEFINITION. Feedback inputs (04): accepted levels (R80), counting (R81, R82, R88), the SSI receiver (R83 to R85), the index
check and ZLATCH (R86, R87), WPOS from the armed source (R89 to R91), direction (R94), crossing compares (R100 to R102) and
pass-through outputs (R103, R104). -/

namespace Sys2Proof.Machine

/-- A feedback channel. -/
def State.enc (s : State) (k : Nat) : EncCh := if k = 0 then s.wp.ch0 else s.wp.ch1

/-- A feedback channel replaced. -/
def State.setEnc (s : State) (k : Nat) (c : EncCh) : State :=
  { s with wp := if k = 0 then { s.wp with ch0 := c } else { s.wp with ch1 := c } }

/-- MODE of a channel (R78). -/
def State.encMode (s : State) (k : Nat) : Nat := s.fld (Reg.WP_CHk_CFG k) F.WP_CHk_CFG_MODE

/-- Counts per revolution as the counter uses them (R88). -/
def State.encCpr (s : State) (k : Nat) : Nat := max 4 (min 2147483648 (s.rdN (Reg.WP_CHk_CPR k)))

/-- U of a channel (R88). -/
def State.encU (s : State) (k : Nat) : Int := (s.enc k).rev * s.encCpr k + (s.enc k).cnt

/-- A flag of WP_CHk_STAT with its event. -/
def State.encFault (s : State) (k : Nat) (f : BitField) (ev : Nat) : State := (s.flag (Reg.WP_CHk_STAT k) f).raise ev

/-- A refused write (WP_STAT.CFG_REFUSED). -/
def State.wpRefuse (s : State) : State := s.flag Reg.WP_STAT F.WP_STAT_CFG_REFUSED

/-! ## WPOS and counting -/

/-- The 48 bits of a position. -/
def posTop : Int := 2 ^ 48

/-- WPOS follows U of the armed source (R89); a result out of range leaves it as it is. -/
def State.follow (s : State) (k : Nat) : State :=
  match s.wp.arm with
  | some (src, u0, b, lr) =>
    if src ≠ k || s.wp.src ≠ k then s
    else
      let w : Int := b + (s.encU k - u0) * lr / 65536
      if 0 ≤ w && w < posTop then s.setPos w.toNat else (s.flag Reg.WP_STAT F.WP_STAT_RANGE).raise Ev.WP_RANGE
  | none => s

/-- U of a channel has moved from `old`: its compares are judged, and WPOS follows. -/
def State.countMoved (s : State) (k : Nat) (old : Int) : State :=
  let new := s.encU k
  if new = old then s else (s.wpCompare (k + 1) old new).follow k

/-- CNT and REV one count on (R88). -/
def EncCh.step (c : EncCh) (cpr : Nat) (up : Bool) : EncCh :=
  if up then
    if c.cnt + 1 < cpr then { c with cnt := c.cnt + 1 } else { c with cnt := 0, rev := toSigned 32 (ofSigned 32 (c.rev + 1)) }
  else if 0 < c.cnt then { c with cnt := c.cnt - 1 }
  else { c with cnt := cpr - 1, rev := toSigned 32 (ofSigned 32 (c.rev - 1)) }

/-- The direction flag after a count (R94). -/
def EncCh.turn (c : EncCh) (hyst : Nat) (neg : Bool) : EncCh :=
  let n := if c.runNeg = neg then min 255 (c.runLen + 1) else 1
  { c with runNeg := neg, runLen := n, dirRev := if hyst ≤ n then neg else c.dirRev }

/-- The channel has index events (R86). -/
def State.idxOn (s : State) (k : Nat) : Bool := s.encMode k = 1 && s.isSet (Reg.WP_CHk_CFG k) F.WP_CHk_CFG_IDX_EN

/-- The index check applies: not under ROPE (R91). -/
def State.idxCheck (s : State) (k : Nat) : Bool := s.idxOn k && s.wp.src ≠ 2

/-- INDEX_TOL of a channel. -/
def State.idxTol (s : State) (k : Nat) : Nat := s.fld (Reg.WP_CHk_IDX k) F.WP_CHk_IDX_INDEX_TOL

/-- One count of a channel (R88, R89, R94), with the supervision of R86: INDEX_MISSING once per index event. -/
def State.count (s : State) (k : Nat) (up : Bool) : State :=
  let c := s.enc k
  let old := s.encU k
  let hyst := max 1 (s.fld (Reg.WP_CHk_IDX k) F.WP_CHk_IDX_DIR_HYST)
  let c' := (c.step (s.encCpr k) up).turn hyst (!up)
  let since := c.sinceIdx + (if up then 1 else -1)
  let miss := s.idxCheck k && c.idxSeen && !c.idxMissed && decide (s.encCpr k + s.idxTol k < since.natAbs)
  let s := s.setEnc k { c' with sinceIdx := since, idxMissed := c.idxMissed || miss }
  let s := if c'.dirRev ≠ c.dirRev then s.raise Ev.DIR_CHG else s
  let s := if miss then s.encFault k F.WP_CHk_STAT_INDEX_MISSING Ev.INDEX_MISSING else s
  s.countMoved k old

/-- A step that counts 0 (R81, R82). -/
def State.encIllegal (s : State) (k : Nat) : State :=
  ((s.bump (Reg.WP_CHk_QERR k) F.WP_CHk_QERR_ILLEGAL_CNT).encFault k F.WP_CHk_STAT_ILLEGAL Ev.ENC_ILLEGAL).testEnc k

/-! ## Accepted levels -/

/-- The place of (A, B) in the order of R81. -/
def quadPlace (a b : Bool) : Nat := match a, b with
  | false, false => 0 | true, false => 1 | true, true => 2 | false, true => 3

/-- The place of the Hall state (W, V, U) in the order of R82; 0b000 and 0b111 have none. -/
def hallPlace (u v w : Bool) : Option Nat := match w, v, u with
  | false, false, true => some 0 | false, true, true => some 1 | false, true, false => some 2
  | true, true, false => some 3 | true, false, false => some 4 | true, false, true => some 5
  | _, _, _ => none

/-- What a step counts (R81, R82): `some up`, or none for an illegal step; `same` where nothing changes. -/
inductive CountStep where
  | same | illegal | count (up : Bool)
  deriving DecidableEq, Repr

/-- The step between two states of a cycle of `n` places. -/
def cycleStep (n old new : Nat) : CountStep :=
  if old = new then .same else if (old + 1) % n = new then .count true else if (new + 1) % n = old then .count false else .illegal

/-- The step of a channel from its accepted levels to new ones. -/
def EncCh.stepTo (c : EncCh) (mode : Nat) (a b z : Bool) : CountStep :=
  match mode with
  | 1 => cycleStep 4 (quadPlace c.a c.b) (quadPlace a b)
  | 2 =>
    if c.a = a && c.b = b && c.z = z then .same
    else match hallPlace c.a c.b c.z, hallPlace a b z with
      | some x, some y => cycleStep 6 x y
      | _, _ => .illegal
  | _ => .same

/-- Too short a time since the last accepted edge of a signal (R80). -/
def edgeClose (last : Option Nat) (now min : Nat) : Bool := match last with
  | some t => decide (now - t < min)
  | none => false

/-- An index event (R86, R87): the check, and the latch that ZLATCH asked for. -/
def State.indexEvent (s : State) (k : Nat) : State :=
  let c := s.enc k
  let cpr := s.encCpr k
  let z := s.rdN (Reg.WP_CHk_ZPOS k)
  let d : Int := ((c.cnt : Int) - z) % cpr
  let dev := if cpr ≤ 2 * d.toNat then d - cpr else d
  let old := s.encU k
  let s := s.setEnc k { c with sinceIdx := 0, idxSeen := true, idxMissed := false, zlatch := false,
                               cnt := if c.zlatch then z % cpr else c.cnt }
  let s := if s.idxCheck k && decide (s.idxTol k < dev.natAbs) then
      ((s.setFld (Reg.WP_CHk_QERR k) F.WP_CHk_QERR_IDX_DEV (ofSigned 16 (clamp (-32768) 32767 dev))).encFault k
        F.WP_CHk_STAT_INDEX_ERR Ev.INDEX_ERR).testEnc k
    else s
  s.countMoved k old

/-- ENCODER_LEVEL_ACCEPT (R80 to R82, R86): the accepted levels of A, B and Z (or U, V and W) from this cycle on. -/
def State.levels (s : State) (k : Nat) (a b z : Bool) : State :=
  let c := s.enc k
  let mode := s.encMode k
  let ea := c.a != a
  let eb := c.b != b
  let ez := c.z != z
  let c' := { c with a := a, b := b, z := z }
  if mode = 0 then s.setEnc k c'
  else
    let lim := s.fld (Reg.WP_CHk_CFG k) F.WP_CHk_CFG_EDGE_MIN
    let close := [(ea, c.edgeA), (eb, c.edgeB), (ez, c.edgeZ)].filter fun e => e.1 && edgeClose e.2 s.now lim
    let s' := s.setEnc k { c' with edgeA := if ea then some s.now else c.edgeA, edgeB := if eb then some s.now else c.edgeB,
                                   edgeZ := if ez then some s.now else c.edgeZ }
    let s' := close.foldl (fun s _ => s.encFault k F.WP_CHk_STAT_OVERRATE Ev.ENC_OVERRATE) s'
    let inv := s.isSet (Reg.WP_CHk_CFG k) F.WP_CHk_CFG_INV_DIR
    let s' := match c.stepTo mode a b z with
      | .same => s'
      | .illegal => s'.encIllegal k
      | .count up => s'.count k (up != inv)
    if s.idxOn k && a && b && z && !(c.a && c.b && c.z) then s'.indexEvent k else s'

/-- ENC_WIRE_TIMEOUT (R79): the legs of signal `sig` (0 A, 1 B, 2 Z) have read alike for WIRE_T; judged for the inputs the mode
uses. -/
def State.wireFault (s : State) (k sig : Nat) : State :=
  let used := match s.encMode k with
    | 1 | 2 => true
    | 3 => sig = 0
    | _ => false
  if used && s.isSet (Reg.WP_CHk_CFG k) F.WP_CHk_CFG_WIRE_EN then
    s.encFault k (match sig with
      | 0 => F.WP_CHk_STAT_WIRE_A
      | 1 => F.WP_CHk_STAT_WIRE_B
      | _ => F.WP_CHk_STAT_WIRE_Z) Ev.ENC_WIRE
  else s

/-! ## SSI -/

/-- SSI_FRAME_START (R83): a frame falls due; with the data line not idle for MONO it is put off. -/
def State.ssiStart (s : State) (k : Nat) : State :=
  let c := s.enc k
  if s.encMode k ≠ 3 then s
  else
    let mono := max 1 (s.fld (Reg.WP_CHk_SSI k) F.WP_CHk_SSI_MONO) * 1000
    let quiet := max c.ssiEnd (c.edgeA.getD 0)
    let fresh := c.ssiEnd = 0 && c.edgeA.isNone
    if c.ssiActive || (!fresh && decide (s.now < quiet + mono)) then s.encFault k F.WP_CHk_STAT_OVERRATE Ev.ENC_OVERRATE
    else s.setEnc k { c with ssiActive := true, ssiFrom := s.now }

/-- Gray code to binary: every bit is the parity of the bits at and above it. -/
def grayToBin (n v : Nat) : Nat := (List.range n).foldl (fun a i => a ^^^ (v >>> i)) 0

/-- Whether a number has an odd number of ones, among `n` bits. -/
def oddOnes (n v : Nat) : Bool := ((List.range n).filter fun i => v.testBit i).length % 2 = 1

/-- Bits of the SSI frame of a channel. -/
def State.ssiBits (s : State) (k : Nat) : Nat := max 8 (min 40 (s.fld (Reg.WP_CHk_SSI k) F.WP_CHk_SSI_BITS))

/-- A frame decoded (R83, R84): V with its width, or none where parity or the error bit discards it. -/
def State.ssiValue (s : State) (k : Nat) (bits : Nat) : Option (Nat × Nat) :=
  let n := s.ssiBits k
  let w := bits % 2 ^ n
  let par := s.fld (Reg.WP_CHk_SSI k) F.WP_CHk_SSI_PAR
  let hasPar := par = 1 || par = 2
  let hasErr := s.isSet (Reg.WP_CHk_SSI k) F.WP_CHk_SSI_ERRBIT
  let v := if hasPar then w / 2 else w
  let parOk := !hasPar || (oddOnes n w = decide (par = 2))
  let m := n - b2n hasPar - b2n hasErr
  let err := hasErr && v % 2 = 1
  let v := if hasErr then v / 2 else v
  if parOk && !err then some (if s.isSet (Reg.WP_CHk_SSI k) F.WP_CHk_SSI_GRAY then grayToBin m v else v, m) else none

/-- The frame period of SSI in ns, which is also the greatest change a frame may bring. -/
def State.ssiPeriod (s : State) (k : Nat) : Nat := s.fld (Reg.WP_CHk_SSIT k) F.WP_CHk_SSIT_PERIOD * 100

/-- A good frame (R84, R85): its change is owed in single counts, or is a jump. -/
def State.ssiGood (s : State) (k v m : Nat) : State :=
  let c := s.enc k
  let s := s.setEnc k { c with ssiV := some v, ssiMiss := 0 }
  match c.ssiV with
  | none => s
  | some v0 =>
    let d := toSigned m (ofSigned m ((v : Int) - v0))
    let st := s.fld (Reg.WP_CHk_SSI k) F.WP_CHk_SSI_ST_BITS
    if 2 ^ (st - 1) ≤ d.natAbs || s.ssiPeriod k < d.natAbs then s.encFault k F.WP_CHk_STAT_SSI_JUMP Ev.SSI_JUMP
    else
      let c := s.enc k
      s.setEnc k (if c.owed = 0 then { c with owed := d } else { c with owedNext := c.owedNext + d })

/-- SSI_FRAME_DONE (R83, R84). -/
def State.ssiDone (s : State) (k bits : Nat) : State :=
  let c := s.enc k
  if !c.ssiActive then s
  else
    let s := s.setEnc k { c with ssiActive := false, ssiEnd := s.now }
    match s.ssiValue k bits with
    | some (v, m) => s.ssiGood k v m
    | none =>
      let n := c.ssiMiss + 1
      let lim := max 1 (s.fld (Reg.WP_CHk_SSI k) F.WP_CHk_SSI_MISS_MAX)
      let s := s.setEnc k { s.enc k with ssiMiss := n }
      let s := s.encFault k F.WP_CHk_STAT_SSI_PARITY Ev.SSI_PARITY
      if n = lim then s.encFault k F.WP_CHk_STAT_SSI_LOST Ev.SSI_LOST else s

/-- SSI_COUNT_ISSUE (R85): one of the counts owed. -/
def State.ssiIssue (s : State) (k : Nat) : State :=
  let c := s.enc k
  if c.owed = 0 then s
  else
    let up := decide (0 < c.owed)
    let left := if up then c.owed - 1 else c.owed + 1
    let s := s.setEnc k (if left = 0 then { c with owed := c.owedNext, owedNext := 0 } else { c with owed := left })
    s.count k (up != s.isSet (Reg.WP_CHk_CFG k) F.WP_CHk_CFG_INV_DIR)

/-! ## Configuration, ARM, SRC and ZLATCH -/

/-- Modes in which MODE, CPR and SRC of channels may change: TEST only for the first two (R78, R88, R91). -/
def State.wpCfgMode (s : State) : Bool := s.mode = .idle || s.mode = .service || s.mode = .test

/-- A write of WP_CHk_CFG (R78): one that changes MODE out of its modes is ignored; a change starts the receiver afresh. -/
def State.encCfgWrite (s : State) (k : Nat) (w : Word) : State :=
  if F.WP_CHk_CFG_MODE.get w = s.encMode k then s.wr (Reg.WP_CHk_CFG k) w
  else if s.wpCfgMode then
    let c := s.enc k
    (s.wr (Reg.WP_CHk_CFG k) w).setEnc k { c with ssiActive := false, ssiV := none, ssiMiss := 0, owed := 0, owedNext := 0, idxSeen := false,
                                                  idxMissed := false, sinceIdx := 0, zlatch := false }
  else s.wpRefuse

/-- WP_CPR_WRITE (R88). -/
def State.cprWrite (s : State) (k : Nat) (w : Word) : State :=
  if s.wpCfgMode then
    let old := s.encU k
    let s := s.wr (Reg.WP_CHk_CPR k) w
    let c := s.enc k
    (s.setEnc k { c with cnt := c.cnt % s.encCpr k }).countMoved k old
  else s.wpRefuse

/-- A mode in which ARM and ZLATCH are accepted (R87, R90). -/
def State.armMode (s : State) : Bool := s.mode = .idle || s.mode = .warm || s.mode = .service

/-- LINE_RATIO scaled by 2^32 (R89). -/
def State.lineRatio (s : State) : Nat := s.fld Reg.WP_RATIO_INT F.WP_RATIO_INT_INT * 2 ^ 32 + s.rdN Reg.WP_RATIO_FRAC

/-- WP_ARM_POS. -/
def State.armPos (s : State) : Nat := s.fld Reg.WP_ARM_POS_HI F.WP_ARM_POS_HI_POS * 2 ^ 32 + s.rdN Reg.WP_ARM_POS_LO

/-- ARM would be accepted for the source in force (R84, R90). -/
def State.armOk (s : State) : Bool :=
  let k := s.wp.src
  let cpr := s.rdN (Reg.WP_CHk_CPR k)
  s.armMode && decide (s.lineRatio ≤ 2 ^ 32) && 4 ≤ cpr && cpr ≤ 2147483648 &&
    (s.encMode k ≠ 3 || cpr = 2 ^ s.fld (Reg.WP_CHk_SSI k) F.WP_CHk_SSI_ST_BITS)

/-- ARM (R90): WPOS is b, HWM its line; what was composed or checked above it is made anew. Under ROPE it does not apply (R91). -/
def State.armWrite (s : State) : State :=
  if s.wp.src = 2 then s
  else if !s.armOk then s.wpRefuse
  else
    let b := s.armPos
    let old := s.wp.pos
    let h := s.wp.hwm
    let s := { s with wp := { s.wp with arm := some (s.wp.src, s.encU s.wp.src, b, s.lineRatio), pos := b, hwm := b / 65536, holdLine := 0,
                                        lastFire := none, ticking := none } }
    let s := { s with js := { s.js with lring := [], slices := [], lead := [] } }.dropAbove (min h (b / 65536))
    (((if b = old then s else s.wpCompare 0 old b).ptWatch 0).ptWatch 1)

/-- ZLATCH (R87). -/
def State.zlatchWrite (s : State) : State :=
  if !s.armMode then s.wpRefuse
  else if s.wp.src < 2 then s.setEnc s.wp.src { s.enc s.wp.src with zlatch := true }
  else s

/-- A write of WP_CTRL: a change of source first, then ZLATCH and ARM (WP_CTRL). -/
def State.wpCtrl (s : State) (w : Word) : State :=
  let z := F.WP_CTRL_ZLATCH.get w = 1
  let src := F.WP_CTRL_SRC.get w
  let change := !z && src ≠ s.wp.src
  if change && (src = 3 || !(s.mode = .idle || s.mode = .service)) then s.wpRefuse
  else
    let s := if change then { s with wp := { s.wp with src := src, arm := none }, hl := { s.hl with rope := none, posAt := s.now } } else s
    let s := if z then s.zlatchWrite else s
    if F.WP_CTRL_ARM.get w = 1 then s.armWrite else s

/-! ## Compares and outputs -/

/-- The position a compare source names (R100), and whether it moves in reverse: WPOS moves with its source. -/
def State.cmpSource (s : State) (src : Nat) : Int × Bool :=
  match src with
  | 0 => (s.wp.pos, if s.wp.src < 2 then (s.enc s.wp.src).dirRev else match s.hl.rope with
    | some r => decide (r.vel < 0)
    | none => false)
  | k => (s.encU (k - 1), (s.enc (k - 1)).dirRev)

/-- A write of WP_CMPk_CTRL (R100 to R102). -/
def State.wpCmpCtrl (s : State) (k : Nat) (w : Word) : State :=
  let a := Reg.WP_CMPk_CTRL k
  let s := forEach [F.WP_CMPk_CTRL_AXIS, F.WP_CMPk_CTRL_ACTION, F.WP_CMPk_CTRL_SRC, F.WP_CMPk_CTRL_DIR] (fun s f => s.setFld a f (f.get w)) s
  let s := forEach [F.WP_CMPk_CTRL_BEHIND, F.WP_CMPk_CTRL_FIRED] (fun s f => if f.get w = 1 then s.setFld a f 0 else s) s
  let src := F.WP_CMPk_CTRL_SRC.get w
  let dir := F.WP_CMPk_CTRL_DIR.get w
  if F.WP_CMPk_CTRL_ARM.get w = 0 || src = 3 || dir = 3 then s
  else
    let t : Nat := s.fld (Reg.WP_CMPk_HI k) F.WP_CMPk_HI_TARGET * 2 ^ 32 + s.rdN (Reg.WP_CMPk_LO k)
    let target : Int := if src = 0 then t else toSigned 48 t
    let x := s.cmpSource src
    if behind dir target x.1 x.2 then
      ((s.setWpCmp k ⟨false, target, src, dir⟩).flag a F.WP_CMPk_CTRL_BEHIND |>.flag Reg.WP_STAT F.WP_STAT_COMPARE_BEHIND).raise Ev.COMPARE_BEHIND
    else s.setWpCmp k ⟨true, target, src, dir⟩

/-- A pass-through output. -/
def State.ptOut (s : State) (k : Nat) : PtOut := if k = 0 then s.wp.pt0 else s.wp.pt1

/-- A pass-through output replaced. -/
def State.setPtOut (s : State) (k : Nat) (o : PtOut) : State :=
  { s with wp := if k = 0 then { s.wp with pt0 := o } else { s.wp with pt1 := o } }

/-- A write of WP_CHk_PT (R103): an output put into RESYNTH starts from the present count. -/
def State.ptWrite (s : State) (k : Nat) (w : Word) : State :=
  let was := s.fld (Reg.WP_CHk_PT k) F.WP_CHk_PT_PT_MODE
  let s := s.wr (Reg.WP_CHk_PT k) w
  if F.WP_CHk_PT_PT_MODE.get w = 2 && was ≠ 2 then s.setPtOut k ⟨s.ptQ k, none, false⟩ else s.ptWatch k

/-- PT_OUTPUT_STEP (R104): one count towards Q, at most once every 20 ns. -/
def State.ptStep (s : State) (k : Nat) : State :=
  let o := s.ptOut k
  let q := s.ptQ k
  let due := match o.last with
    | some t => decide (t + 20 ≤ s.now)
    | none => true
  if s.fld (Reg.WP_CHk_PT k) F.WP_CHk_PT_PT_MODE ≠ 2 || q = o.q || !due then s
  else (s.setPtOut k { o with q := if o.q < q then o.q + 1 else o.q - 1, last := some s.now }).ptWatch k

/-! ## Output balls -/

/-- ENCk_SCK (R78, R83): low out of SSI; in a frame of SSI it changes every SCK_HALF cycles, one rising edge to each bit. The level
between frames is open (log entry 32). -/
def State.encSck (s : State) (k : Nat) : Bool :=
  let c := s.enc k
  let half := max 50 (min 5000 (s.fld (Reg.WP_CHk_SSIT k) F.WP_CHk_SSIT_SCK_HALF))
  let n := (s.now - c.ssiFrom) / half
  if s.encMode k ≠ 3 then false
  else if c.ssiActive && decide (n < 2 * s.ssiBits k) then decide (n % 2 = 0) != Config.sckIdle
  else Config.sckIdle

/-- The levels of (A, B) in the quadrature state a count stands for (R81): 00, 10, 11, 01 for counts 0 to 3 modulo 4. -/
def quadLevels (q : Int) : Bool × Bool := (decide (q % 4 = 1 ∨ q % 4 = 2), decide (2 ≤ q % 4))

/-- ENCk_OA, ENCk_OB and ENCk_OZ (R103, R104). RAW follows the receiver, whose levels the model knows as accepted (log entry
36). -/
def State.ptLevels (s : State) (k : Nat) : Bool × Bool × Bool :=
  let a := Reg.WP_CHk_PT k
  let c := s.enc k
  let q := (s.ptOut k).q
  let z := s.fld a F.WP_CHk_PT_ZLINES
  match s.fld a F.WP_CHk_PT_PT_MODE with
  | 1 => if s.encMode k = 3 then (false, false, false) else (c.a, c.b, c.z)
  | 2 => ((quadLevels q).1, (quadLevels q).2, z ≠ 0 && decide (q % s.cpl k = 0 ∧ q / s.cpl k % z = 0))
  | _ => (false, false, false)

/-! ## What the registers show -/

/-- Registers of WP that follow from typed state. -/
def State.wpView (s : State) (addr : Nat) : Option Word :=
  let w (n : Nat) : Option Word := some (BitVec.ofNat 32 n)
  if addr = Reg.WP_POS_LO then w s.wp.pos
  else if addr = Reg.WP_LINE then w s.line
  else if addr = Reg.WP_HWM then w s.wp.hwm
  else if addr = Reg.WP_HOLD_LINE then w s.wp.holdLine
  else if addr = Reg.WP_PERIOD then w (min 0xFFFFFFFF s.wp.period)
  else if addr = Reg.WP_BACKUP then w (2 * b2n s.wp.pinLow + b2n s.wp.backup)
  else if addr = Reg.WP_BACKUP_CNT then w s.wp.backupCnt
  else if addr = Reg.WP_TICKS_IDLE then w s.wp.ticksIdle
  else if addr = Reg.WP_STAT then some (F.WP_STAT_SRC.put (s.rd addr) s.wp.src)
  else
    ([0, 1].findSome? fun k =>
      let c := s.enc k
      if addr = Reg.WP_CHk_CNT k then w c.cnt
      else if addr = Reg.WP_CHk_STAT k then
        some (F.WP_CHk_STAT_DIR.put (F.WP_CHk_STAT_LEVEL.put (s.rd addr) (b2n c.a + 2 * b2n c.b + 4 * b2n c.z)) (b2n c.dirRev))
      else none).orElse fun _ =>
    (List.range 8).findSome? fun k =>
      if addr = Reg.WP_CMPk_CTRL k then some (F.WP_CMPk_CTRL_ARMED.put (s.rd addr) (b2n (s.wpCmp k).armed)) else none

/-- A read of CNT or WP_POS_LO captures its companion from the same cycle. -/
def State.wpReadCapture (s : State) (addr : Nat) : State :=
  if addr = Reg.WP_POS_LO then s.wrN Reg.WP_POS_HI (s.wp.pos / 2 ^ 32)
  else if addr = Reg.WP_CHk_CNT 0 then s.wrN (Reg.WP_CHk_REV 0) (ofSigned 32 (s.enc 0).rev)
  else if addr = Reg.WP_CHk_CNT 1 then s.wrN (Reg.WP_CHk_REV 1) (ofSigned 32 (s.enc 1).rev)
  else s

end Sys2Proof.Machine
end

