-- ==== Sys2Proof/Machine/Reset.lean ====
section
/-! DEFINITION. Resets and supplies (21, 22): power-on, cold and warm reset (R482, R483, R492), the monitored supplies and VDDIO5
(R492), the cores' interrupt inputs (R484), and how a command runs: nothing but pins acts while reset is held. -/

namespace Sys2Proof.Machine

/-- The three kinds of reset (R482). -/
inductive ResetKind where
  | powerOn | cold | warm
  deriving DecidableEq, Repr

/-- Fields a reset keeps: RWS fields over warm reset; over cold reset those whose description names power-on as their
only clear (R5, R482). -/
def ResetKind.keeps (k : ResetKind) (r : RegRow) (f : FieldRow) : Bool :=
  f.ty = .rws && match k with
    | .powerOn => false
    | .cold => r.base = Reg.AU_TAMPER_CFG || r.base = Reg.AU_TAMPER_STAT || r.base = Reg.AU_TAMPER_CNT
    | .warm => true

/-- A register after a reset. -/
def ResetKind.regAfter (k : ResetKind) (a : Nat) (w : Word) : Word :=
  match findReg a with
  | some (r, _) =>
    (r.fields.filter (k.keeps r)).foldl (fun x f => (BitField.mk f.hi f.lo).put x ((BitField.mk f.hi f.lo).get w)) (regReset a)
  | none => regReset a

/-- The registers after a reset. -/
def ResetKind.regsAfter (k : ResetKind) (m : AMap Word) : AMap Word :=
  m.foldl (fun x e => AMap.set regReset x e.1 (k.regAfter e.1 e.2)) []

/-- A feedback channel after a reset: the levels of its wires stay. -/
def EncCh.again (x : EncCh) : EncCh := { EncCh.reset with a := x.a, b := x.b, z := x.z }

/-- An axis after a reset: the levels of its limit switches stay. -/
def Axis.again (x : Axis) : Axis := { Axis.reset with limLo := x.limLo, limHi := x.limHi }

/-- A head port after a reset: its pulse, if any, is truncated (R482). -/
def HeadPort.again (now : Nat) (q : HeadPort) : HeadPort := { HeadPort.reset with pulses := cutPulses now q.pulses }

/-- A reset of one kind (R482) with its cause for SYS_RST_STAT. Kept are fuses and flash, the kept fields, what comes from
outside (pins, clocks, the commands that wait) and the cut latches but at power-on (R492). -/
def State.afterReset (s : State) (k : ResetKind) (cause : Nat) : State :=
  let s' : State := { State.reset with
    pending := s.pending, now := s.now, free := s.free, flash := s.flash, regs := k.regsAfter s.selfCut.regs,
    sys := { SysState.reset with
      refOk := s.sys.refOk, hlrefOk := s.sys.hlrefOk, onOsc := !s.sys.refOk, vddio5Low := s.sys.vddio5Low,
      stopped := Domain.dram :: s.sys.stopped.filter fun d => d = Domain.csi 0 || d = Domain.csi 1 },
    wp := { WpState.reset with ch0 := s.wp.ch0.again, ch1 := s.wp.ch1.again },
    mo := { MoState.reset with axes := s.mo.axes.map Axis.again },
    hp := { HpState.reset with
      ports := s.hp.ports.map (HeadPort.again s.now), gateLevel := s.hp.gateLevel,
      cut := if k = .powerOn then 0 else s.hp.cut },
    bu := { BuState.reset with campId := s.bu.campId },
    au := { AuState.reset with zgen := s.au.zgen, tampLevel := s.au.tampLevel, tampAt := s.au.tampAt, store := s.au.store },
    ts := { State.reset.ts with tap := s.ts.tap, tapReset := s.ts.tapReset } }
  let s' := if 64 ≤ s.au.zgen then s'.flag Reg.FL_CSR F.FL_CSR_KEYSTORE else s'
  s'.setFld Reg.SYS_RST_STAT F.SYS_RST_STAT_CAUSE cause

/-- The release of a power-on reset (R482, R492): a latch sets for an input that is asserted. -/
def State.powerOn (s : State) (cause : Nat) : State :=
  let s := s.afterReset .powerOn cause
  ((List.range 9).filter fun g => s.hp.gateLevel.testBit g).foldl (fun s g => s.gateLatch g) s

/-- POWER_ON_RESET (R482): by the supplies, or by RESET_N low for 1 µs. After CLOCK_LOSS a reset is accepted once REFCLK is
back (R461). -/
def State.powerOnReset (s : State) (pin : Bool) : State :=
  if pin then (if s.sys.refOk && !s.sys.inReset then s.powerOn 1 else s)
  else { s with sys := { s.sys with vddio5Low := false } }.powerOn 0

/-- SUPPLY_BROWNOUT (R492): power-on reset is held from here until the supplies return. -/
def State.supplyBrownout (s : State) : State :=
  let s := s.afterReset .powerOn 0
  { s with sys := { s.sys with inReset := true } }

/-- VDDIO5_LOSS (R492): every gate input counts as asserted and sets its latch. -/
def State.vddio5Loss (s : State) : State :=
  let s := { s with sys := { s.sys with vddio5Low := true } }
  (List.range 9).foldl (fun s g => s.gateLatch g) s

/-- VDDIO5_RETURN (R492): the inputs count as they stand. -/
def State.vddio5Return (s : State) : State := { s with sys := { s.sys with vddio5Low := false } }

/-- A reset requested through SYS_RST (R420, R461, R483). -/
def State.sysReset (s : State) (w : Word) : State :=
  let cold := F.SYS_RST_COLD.get w = 1
  if F.SYS_RST_KEY.get w ≠ 0x5A || !(cold || F.SYS_RST_WARM.get w = 1) || !s.sys.refOk then s
  else if s.mode = .boot && s.bu.bootState = 2 then s.afterReset .cold 5
  else if cold then s.afterReset .cold 2
  else s.afterReset .warm 3

/-- CONFIRM_TIMEOUT (R428): a cold reset, deferred while in PRINT. -/
def State.confirmTimeout (s : State) : State :=
  if !s.confirmDue || !s.sys.refOk then s
  else if s.mode = .print then { s with sys := { s.sys with pendingReset := some 4 } }
  else s.afterReset .cold 4

/-- A deferred reset takes place once PRINT is left. -/
def State.resetDue (s : State) : State := match s.sys.pendingReset with
  | some c => if s.mode = .print || !s.sys.refOk then s else s.afterReset .cold c
  | none => s

/-- What a command leaves due takes place (R436, R442); the queue of commands is not its concern. -/
def State.close (s t : State) : State := { t.settle.resetDue with pending := s.pending }

/-- How a command runs: nothing happens while reset is held. -/
def State.run (s : State) (f : State → State) : State := if s.sys.inReset then s else s.close (f s)

/-- How an event on a pin runs: it acts during reset too, where it leaves nothing due. -/
def State.runPin (s : State) (f : State → State) : State :=
  if s.sys.inReset then
    let t := f s
    { t with pending := s.pending, sys := { t.sys with holdDue := false, zeroDue := false, safeDue := false, pendingReset := none } }
  else s.close (f s)

/-! ## Interrupts of the cores -/

/-- SWI (R484). -/
def State.swiSet (s : State) (w : Word) : State :=
  { s with sys := { s.sys with swi := s.sys.swi ||| F.SYS_SWI_CORE.get w } }

/-- SYS_COREc_IPEND (R484). -/
def State.ipend (s : State) (c : Nat) : Nat :=
  let done (a : Nat) (f : BitField) : Bool := s.isSet a f
  let fl := b2n (s.irqLow 0) + 2 * b2n (s.irqLow 1) + 4 * b2n (s.irqLow 2)
  let ut := done (Reg.UT_CMD_STAT c) F.UT_CMD_STAT_DONE
  let eng := (List.range 4).any (fun d => done (Reg.CZ_Dd_STAT d) F.CZ_Dd_STAT_DONE) || done Reg.CZ_C_STAT F.CZ_C_STAT_DONE ||
    done Reg.IN_XP_STAT F.IN_XP_STAT_DONE
  let key := done Reg.AU_KEY_STAT F.AU_KEY_STAT_DONE || done Reg.BU_UP_STAT F.BU_UP_STAT_DONE ||
    done Reg.BU_SET_STAT F.BU_SET_STAT_DONE
  fl + 8 * b2n ut + 16 * b2n eng + 32 * b2n s.tn.ringDone + 64 * b2n key + 128 * b2n (s.sys.swi.testBit c)

/-- The interrupt input of a core asserted (R484). -/
def State.coreIrq (s : State) (c : Nat) : Bool := (s.ipend c &&& s.fld (Reg.SYS_COREc_IEN c) F.SYS_COREc_IEN_EN) ≠ 0

/-- Registers of SYS that follow their sources. -/
def State.sysView (s : State) (addr : Nat) : Option Word :=
  match (List.range 5).find? fun c => addr = Reg.SYS_COREc_IPEND c with
  | some c => some (BitVec.ofNat 32 (s.ipend c))
  | none => none

/-- A write of 1 to SYS_COREc_IPEND.SWI clears it (R484). -/
def State.swiClear (s : State) (c : Nat) (w : Word) : State :=
  if F.SYS_COREc_IPEND_SWI.get w = 1 && s.sys.swi.testBit c then { s with sys := { s.sys with swi := s.sys.swi - 2 ^ c } } else s

end Sys2Proof.Machine
end

