-- ==== Sys2Proof/Machine/Clocks.lean ====
section
/-! DEFINITION. Clock supervision (R460, R461), domains whose clock can stop and the registers held in them (19, Stopped clocks), and
the registers of the fault block that follow from its queue and clocks. -/

namespace Sys2Proof.Machine

/-- CLOCK_LOSS (R460, R461): sources 0 REFCLK absent, 1 out of range, 2 to 5 PLL_CORE, PLL_TB, PLL_HP, PLL_DRAM. FIRE of every
port is cut, SYSCLK runs from the oscillator, and the event's HOLD class takes the controller to HOLD. -/
def State.clockLoss (s : State) (src : Nat) : State :=
  let y := s.sys
  let gone := if src < 2 then !y.refOk else !(y.pllLock.testBit (src - 2))
  if gone then s
  else
    let y := if src < 2 then { y with refOk := false } else { y with pllLock := y.pllLock - 2 ^ (src - 2) }
    let y := if src = 5 && !(y.stopped.contains Domain.dram) then { y with stopped := .dram :: y.stopped } else y
    let s := { s with sys := { y with onOsc := true } }
    let s := (List.range 64).foldl (fun s p => s.cutPort p none) s
    let s := (s.setFld Reg.FL_CLKMON F.FL_CLKMON_LAST_SRC src).flag Reg.FL_STAT F.FL_STAT_CLOCK_LOSS
    (s.raiseWith Ev.CLOCK_LOSS 3 0 src).csrSet F.FL_CSR_CLOCK

/-- REFCLK_RETURN (R461): the controller stays on the oscillator until a reset, which is accepted now. -/
def State.refclkReturn (s : State) : State := { s with sys := { s.sys with refOk := true } }

/-- HLREF_LOSS (R460, R461): the lanes and the Ethernet ports stop; active groups lose their lock. -/
def State.hlrefLoss (s : State) : State :=
  if !s.sys.hlrefOk then s
  else
    let s := { s with sys := { s.sys with hlrefOk := false } }
    let s := (s.flag Reg.FL_STAT F.FL_STAT_HLREF_LOSS).raise Ev.HLREF_LOSS
    forEach [0, 1, 2] (fun s g => s.startRetrain g) (s.csrSet F.FL_CSR_CLOCK)

/-- HLREF_RETURN. -/
def State.hlrefReturn (s : State) : State := { s with sys := { s.sys with hlrefOk := true } }

/-- What lanes and Ethernet ports do needs HL_REFCLK (R461). -/
def State.onLanes (s : State) (f : State → State) : State := if s.sys.hlrefOk then f s else s

/-- Whether what an access would wait for is not there yet: a stopped clock, or a snapshot still to come (R55, R458). -/
def State.waitsFor (s : State) : Domain → Bool
  | .lane k =>
    let g := s.groupOf k
    !s.sys.hlrefOk || 3 ≤ g || (s.grp g).st = GroupPhase.disabled || (s.grp g).st = GroupPhase.detect ||
      (s.isSet (Reg.HL_Lk_STAT k) F.HL_Lk_STAT_LOS && !(s.lane k).cdr)
  | .csi n => s.sys.stopped.contains (.csi n)
  | .eth => !s.sys.hlrefOk
  | .dram => s.sys.stopped.contains .dram
  | .snap w => s.ut.snapWait.any fun p => p.1 = w
  | .turn => true

/-- The domain a register is held in, for those whose clock can stop; the words of a UT window a snapshot fills (R55). -/
def regDomain (a : Nat) : Option Domain :=
  let lane := (List.range 8).find? fun k => a = Reg.HL_Lk_STAT k || a = Reg.HL_Lk_ERR k
  let csi := [0, 1].find? fun n => a = Reg.IN_PORTn_ERR n
  let eth := [0, 1].any fun k => a = Reg.TN_Pk_STAT k || a = Reg.TN_Pk_PRP k || a = Reg.TN_Pk_TXTS k || a = Reg.TN_Pk_TXTS0 k ||
    a = Reg.TN_Pk_TXTS1 k || a = Reg.TN_Pk_TXTS2 k
  let dram := [0, 1].any fun c => a = Reg.DC_CHc_TRACK c || a = Reg.DC_CHc_REF c || a = Reg.DC_CHc_WQ c
  let win := (List.range 8).find? fun w => Reg.UT_INFO w ≤ a && a < Reg.UT_INFO w + 36
  match lane, csi, win with
  | some k, _, _ => some (.lane k)
  | _, some n, _ => some (.csi n)
  | _, _, some w => some (.snap w)
  | _, _, _ => if eth then some .eth else if dram then some .dram else none

/-- The block code of a domain (R438, R457). -/
def Domain.block : Domain → Nat
  | .lane _ => 0x0C | .csi _ => 0x07 | .eth => 0x0D | .dram => 0x0A | .snap _ => 0 | .turn => 0

/-- The watchdog limit in force (R458): 65,536 before an image is loaded. -/
def State.wdogCyc (s : State) : Nat := s.si.limits.fabricWdog

/-- The words of a queue entry (FL_EQ_ID to FL_EQ_TS2). -/
def QEntry.words (e : QEntry) : List Nat :=
  let ts := e.ts.bytes
  [e.seq * 65536 + e.id,
   e.rep * 256 + b2n e.chip * 128 + (match e.irq with
     | some m => m * 32 + 16
     | none => 0) + e.cls,
   e.unit, e.detail, leAt ts 0 4, leAt ts 4 4, leAt ts 8 4]

/-- The entry FL_EQ_SEL selects. -/
def State.eqEntry (s : State) : Option QEntry := s.fl.queue[s.fld Reg.FL_EQ_SEL F.FL_EQ_SEL_INDEX]?

/-- A read of FL_EQ_ID captures the entry selected. -/
def State.eqCapture (s : State) : State :=
  let ws := match s.eqEntry with
    | some e => e.words
    | none => [0, 0, 0, 0, 0, 0, 0]
  (ws.zipIdx).foldl (fun s p => s.wrN (Reg.FL_EQ_ID + 4 * p.2) p.1) s

/-- Registers of FL that follow from the queue, the counters and the clocks. -/
def State.flView (s : State) (addr : Nat) : Option Word :=
  let w (n : Nat) : Option Word := some (BitVec.ofNat 32 n)
  if addr = Reg.FL_STAT then some (F.FL_STAT_CSR.put (s.rd addr) (b2n s.csr))
  else if addr = Reg.FL_HRR_LO then w s.fl.hrr
  else if addr = Reg.FL_HRR_HI then w (s.fl.hrr / 2 ^ 32)
  else if addr = Reg.FL_EQ_STAT then
    let head := match s.fl.queue with
      | e :: _ => e.seq
      | [] => 0
    some ([(F.FL_EQ_STAT_HEAD_SEQ, head), (F.FL_EQ_STAT_OVERFLOW, b2n s.fl.overflow), (F.FL_EQ_STAT_USED, s.fl.queue.length)].foldl
      (fun w fv => BitField.put fv.1 w fv.2) (s.rd addr))
  else if addr = Reg.FL_EQ_ID then w (match s.eqEntry with
    | some e => e.words.headD 0
    | none => 0)
  else if addr = Reg.FL_EVCNT then w (AMap.get (fun _ => 0) s.fl.evcnt (s.fld Reg.FL_EVCNT_SEL F.FL_EVCNT_SEL_SEL))
  else if addr = Reg.FL_WDOG_CYC then w s.wdogCyc
  else if addr = Reg.FL_CLKMON then
    some ([(F.FL_CLKMON_HLREF_OK, b2n s.sys.hlrefOk), (F.FL_CLKMON_REF_OK, b2n s.sys.refOk), (F.FL_CLKMON_ON_OSC, b2n s.sys.onOsc),
      (F.FL_CLKMON_PLL_LOCK, s.sys.pllLock)].foldl (fun w fv => BitField.put fv.1 w fv.2) (s.rd addr))
  else
    [0, 1, 2].findSome? fun m =>
      if addr = Reg.FL_IRQm_STAT m then
        some (F.FL_IRQm_STAT_QNE.put (s.rd addr)
          (b2n (!s.fl.queue.isEmpty && s.fld Reg.FL_IRQ_CFG F.FL_IRQ_CFG_QNE_LINE = m)))
      else none

end Sys2Proof.Machine
end

