-- ==== Sys2Proof/Machine/Bus.lean ====
section
/-! DEFINITION. The register bus (R5, R6, R54, R335, R478 to R480): what a register reads as, what reading it clears or captures,
what writing it does, and how an access completes. Every write of firmware, host, MSPI or parent goes through `busWrite`. -/

namespace Sys2Proof.Machine

/-! ## Reading -/

/-- Program word `i` of a line engine (R479). -/
def State.engineWord (s : State) (e i : Nat) : Nat := match s.si.progs.find? fun p => p.mask.testBit e with
  | some p => p.words.getD i 0
  | none => 0

/-- A word of the slot-table window (R479), from offset `o` of arbiter `a` and set `k`. -/
def State.slotWord (s : State) (a k o : Nat) : Nat := match s.si.slots.find? fun t => t.arb = a && t.set = k with
  | some t =>
    if o < 0x400 then t.slots.getD (o / 4) 0
    else if o = 0x400 then t.bgFloor
    else if o = 0x404 then t.rank
    else if o = 0x408 then t.rank / 2 ^ 32
    else if o = 0x40C then t.panicCamw * 65536 + t.panicHstr
    else 0
  | none => 0

/-- An address some chapter or window maps (R478). -/
def mapped (a : Nat) : Bool :=
  a < 0x140000 || (0x1000000 ≤ a && a < 0x1400000) || (0x2000000 ≤ a && a < 0x201A000)

/-- What a register reads as: its word, or the typed state it shows. -/
def State.regView (s : State) (a : Nat) : Word :=
  let v : Option Word := match a / 0x10000 with
    | 0x00 => (s.modeView a).orElse fun _ => s.sysView a
    | 0x01 => s.utView a
    | 0x02 => s.wpView a
    | 0x03 => s.jsView a
    | 0x04 => s.hpView a
    | 0x05 => s.feView a
    | 0x06 => s.nhView a
    | 0x07 => s.inView a
    | 0x08 => s.leView a
    | 0x09 => s.moView a
    | 0x0A => s.mfView a
    | 0x0B => s.mfView a
    | 0x0C => s.hlView a
    | 0x0D => s.tnView a
    | 0x0E => (s.auView a).orElse fun _ => s.jsView a
    | 0x0F => s.czView a
    | 0x10 => (s.buView a).orElse fun _ => s.reloadView a
    | 0x11 => s.flView a
    | 0x12 => s.anView a
    | 0x13 => s.tsView a
    | _ => none
  v.getD (s.rd a)

/-- The word at a mapped address. -/
def State.wordAt (s : State) (a : Nat) : Word :=
  if a < 0x140000 then s.regView a
  else if a < 0x2000000 then BitVec.ofNat 32 (leAt (s.nozBytes ((a - 0x1000000) / 32)) (a % 32) 4)
  else if a < 0x2010000 then
    BitVec.ofNat 32 (if (a - 0x2000000) / 0x400 < 16 then s.engineWord ((a - 0x2000000) / 0x400) (a % 0x400 / 4) else 0)
  else
    let o := a - 0x2010000
    BitVec.ofNat 32 (s.slotWord (o / 0x1000) (o / 0x800 % 2) (o % 0x800))

/-- What reading a register captures before its value is returned. -/
def State.readCapture (s : State) (a : Nat) : State :=
  let s := (s.wpReadCapture a).tnReadCapture a
  if a = Reg.HL_AUTH_SEQ_LO then { s with hl := { s.hl with seqHi := s.hl.authSeq / 2 ^ 32 } }
  else if a = Reg.TS_BITS_LO then s.wrN Reg.TS_BITS_HI (s.ts.bits / 2 ^ 32)
  else if a = Reg.AU_SEQ_LO then s.wrN Reg.AU_SEQ_HI (s.au.seq / 2 ^ 32)
  else if a = Reg.FL_EQ_ID then s.eqCapture
  else s

/-- What reading a register clears (R5, RC), or moves on. -/
def State.readClear (s : State) (a : Nat) : State :=
  let s := match findReg a with
    | some (r, _) => (r.fields.filter fun (f : FieldRow) => f.ty = FieldType.rc).foldl (fun (s : State) (f : FieldRow) => s.setFld a ⟨f.hi, f.lo⟩ 0) s
    | none => s
  let s := s.mfReadClear a
  if a = Reg.FL_EVCNT then
    { s with fl := { s.fl with evcnt := AMap.set (fun _ => 0) s.fl.evcnt (s.fld Reg.FL_EVCNT_SEL F.FL_EVCNT_SEL_SEL) 0 } }
  else if a = Reg.IN_TAB_DATA then s.tabNext
  else s

/-- A read performed: its word, and the state after it. -/
def State.readWord (s : State) (a : Nat) : Word × State :=
  if a = Reg.TN_CAP then s.capRead
  else if a = Reg.TN_Pk_TXTS 0 then s.txtsRead 0
  else if a = Reg.TN_Pk_TXTS 1 then s.txtsRead 1
  else
    let s := s.readCapture a
    (s.wordAt a, s.readClear a)

/-! ## Writing -/

/-- A write with no effect but its fields' types (R5, R6): RW and RWS fields take the value, W1C flags written 1 clear. -/
def State.fieldWrite (s : State) (a : Nat) (w : Word) : State := match findReg a with
  | none => s
  | some (r, _) => r.fields.foldl (fun s f =>
      let b : BitField := ⟨f.hi, f.lo⟩
      match f.ty with
      | .rw | .rws => s.setFld a b (b.get w)
      | .w1c => s.wr a (s.rd a &&& ~~~(b.put 0 (b.get w)))
      | _ => s) s

/-- A word with the reserved bits of its register 0 (R6). -/
def regMask (a : Nat) (w : Word) : Word := match findReg a with
  | none => 0
  | some (r, _) => r.fields.foldl (fun x f => (BitField.mk f.hi f.lo).put x ((BitField.mk f.hi f.lo).get w)) 0

/-- A write to SYS. -/
def State.writeSys (s : State) (a : Nat) (w : Word) : State :=
  if a = Reg.SYS_RST then s.sysReset w
  else if a = Reg.SYS_SWI then s.swiSet w
  else if a = Reg.SYS_MODE_REQ then s.modeRequest w
  else match (List.range 5).find? fun c => a = Reg.SYS_COREc_IPEND c with
    | some c => s.swiClear c w
    | none => s.fieldWrite a w

/-- A write to a UT window. -/
def State.writeUt (s : State) (a : Nat) (w : Word) : State :=
  let win := (a - 0x10000) / 0x100
  if a = Reg.UT_SEL win then s.utSelect win w
  else if a = Reg.UT_CMD win then s.utCommand win (F.UT_CMD_CODE.get w)
  else s.fieldWrite a w

/-- A write to WP. -/
def State.writeWp (s : State) (a : Nat) (w : Word) : State :=
  if a = Reg.WP_CTRL then s.wpCtrl w
  else
    match [0, 1].find? fun k => a = Reg.WP_CHk_CFG k || a = Reg.WP_CHk_CPR k || a = Reg.WP_CHk_PT k with
    | some k => if a = Reg.WP_CHk_CFG k then s.encCfgWrite k w else if a = Reg.WP_CHk_CPR k then s.cprWrite k w else s.ptWrite k w
    | none =>
      match (List.range 8).find? fun k => a = Reg.WP_CMPk_CTRL k with
      | some k => s.wpCmpCtrl k w
      | none => s.fieldWrite a w

/-- A write to JS: BASE and LINES of a plate slot only while it is EMPTY, LINES from 1 to 65,536. -/
def State.writeJs (s : State) (a : Nat) (w : Word) : State :=
  if a = Reg.JS_CTRL then s.jobCtrl w
  else if a = Reg.JS_PLATE_CMD then s.plateCmd w
  else
    match (List.range 16).find? fun k => a = Reg.JS_PLATEk_BASE k || a = Reg.JS_PLATEk_CFG k with
    | some k =>
      let n := F.JS_PLATEk_CFG_LINES.get w
      if (s.plate k).phase ≠ .empty || (a = Reg.JS_PLATEk_CFG k && (n = 0 || 65536 < n)) then s else s.fieldWrite a w
    | none =>
      match [0, 1].find? fun k => a = Reg.JS_JOBs_RING_WP k with
      | some k => s.ringWp k w
      | none => s.fieldWrite a w

/-- A write to NH: the shadow address only in IDLE; settings that HEAD_REPLACE_REQ depends on judge it anew (R218). -/
def State.writeNh (s : State) (a : Nat) (w : Word) : State :=
  if a = Reg.NH_CTRL then s.nhCtrl w
  else if a = Reg.NH_GATE_CTRL then s.gateCtrl w
  else if a = Reg.NH_SHADOW && s.mode ≠ .idle then s
  else if a = Reg.NH_WEAR_CFG || (0x60100 ≤ a && a < 0x60500) then (s.fieldWrite a w).replaceAll
  else s.fieldWrite a w

/-- A register with a field that firmware sets; a write to any other is ignored (R5). -/
def settable (a : Nat) : Bool := match findReg a with
  | some (r, _) => r.fields.any fun f => f.ty = .rw || f.ty = .rws
  | none => false

/-- A write to IN: settings other than banks are held while EN = 1 (R249, R252); a port whose configuration changes is
reset (R457). -/
def State.writeIn (s : State) (a : Nat) (w : Word) : State :=
  if a = Reg.IN_CTRL then s.inEnable w
  else if a = Reg.IN_TAB_DATA then s.inTabWrite w
  else if a = Reg.IN_XP_CTRL then (if F.IN_XP_CTRL_START.get w = 1 then s.exportStart else s)
  else if a = Reg.IN_STAT || a = Reg.IN_TAB_SEL || (Reg.IN_XP_FIRST ≤ a && a ≤ Reg.IN_XP_STAT) then s.fieldWrite a w
  else
    match (List.range 32).find? fun i => a = bankReg (i / 2) (i % 2) with
    | some i => s.inBankWrite (i / 2) (i % 2) w
    | none =>
      if !settable a then s
      else if s.inEn then s.flag Reg.IN_STAT F.IN_STAT_CFG_REFUSED
      else
        let t := s.fieldWrite a w
        if (a = Reg.IN_PORTn_CFG 0 || a = Reg.IN_PORTn_CFG 1) && t.rd a ≠ s.rd a then
          t.xingReset 0x07 (csiRelays (if a = Reg.IN_PORTn_CFG 0 then 0 else 1)) else t

/-- A write to LE: GATE only in IDLE. -/
def State.writeLe (s : State) (a : Nat) (w : Word) : State :=
  if a < 0x80400 || 0x80C00 ≤ a then s.fieldWrite a w
  else
    let c := (a - 0x80400) / 32
    if a = Reg.LE_Cc_CTRL c then s.loopCtrl c w
    else if a = Reg.LE_Cc_CFG c && s.mode ≠ .idle then s
    else s.fieldWrite a w

/-- A write to MO: FITTED only in IDLE. -/
def State.writeMo (s : State) (a : Nat) (w : Word) : State :=
  if a = Reg.MO_CFG then
    let t := s.fieldWrite a w
    let t := if s.mode = .idle then t else t.setFld a F.MO_CFG_FITTED (s.fld a F.MO_CFG_FITTED)
    if t.estopped && !s.estopped then t.estopHalt else t
  else
    match [0, 1, 2, 3].find? fun k => a = Reg.MO_Aa_CMD k with
    | some k => s.axisCommand k w
    | none =>
      match (List.range 8).find? fun k => a = Reg.MO_CMPm_CTRL k with
      | some k => s.moCmpCtrl k w
      | none => s.fieldWrite a w

/-- A write to DC: DC_CFG only in BOOT. -/
def State.writeDc (s : State) (a : Nat) (w : Word) : State :=
  if a = Reg.DC_CFG && s.mode ≠ .boot then s else s.fieldWrite a w

/-- A write to HL. -/
def State.writeHl (s : State) (a : Nat) (w : Word) : State :=
  if a = Reg.HL_CFG then s.hlCfgWrite w
  else if a = Reg.HL_CTRL then
    let s := s.retrainGroups w
    if F.HL_CTRL_ENUM.get w = 1 then s.enumStart else s
  else if (List.range 32).any fun i => a = Reg.HL_Lk_FFEs (i / 4) (i % 4) then s.ffeWrite a w
  else s.fieldWrite a w

/-- A write to TN: TN_CFG and the MAC address only in IDLE; a port disabled is reset (R457). -/
def State.writeTn (s : State) (a : Nat) (w : Word) : State :=
  if a = Reg.TN_CTRL then
    let s := if F.TN_CTRL_SET.get w = 1 then s.setTime else s
    let s := if F.TN_CTRL_TX_KICK.get w = 1 then s.txKick else s
    if F.TN_CTRL_RX_KICK.get w = 1 then s.rxKick else s
  else if a = Reg.TN_ADDEND0 then s.addend0Write w
  else if a = Reg.TN_OFS_A then s.offsetWrite false w
  else if a = Reg.TN_OFS_B then s.offsetWrite true w
  else if a = Reg.TN_CFG || a = Reg.TN_MAC_LO || a = Reg.TN_MAC_HI then (if s.mode = .idle then s.fieldWrite a w else s)
  else
    match [0, 1].find? fun k => a = Reg.TN_Pk_CFG k with
    | some k =>
      let t := s.fieldWrite a w
      if s.isSet a F.TN_Pk_CFG_EN && !t.isSet a F.TN_Pk_CFG_EN then (if t.isSet (Reg.TN_Pk_STAT k) F.TN_Pk_STAT_LINK then
        t.linkChange k false else t).xingReset 0x0D (ethRelays k) else t
    | none => s.fieldWrite a w

/-- A write to AU: EN of AU_TAMPER_CFG is only set, HIT clears where written 1, ROLE only in IDLE. -/
def State.writeAu (s : State) (a : Nat) (w : Word) : State :=
  if a = Reg.AU_CTRL then
    let s := s.zeroizeCmd w
    let s := if F.AU_CTRL_ATTEST.get w = 1 then s.attest else s
    if F.AU_CTRL_REPLAY.get w = 1 then s.replayRing else s
  else if a = Reg.AU_KEY_CMD then s.keyCmd w
  else if a = Reg.AU_RING_ACK_LO then s.ringAck false w
  else if a = Reg.AU_RING_ACK_HI then s.ringAck true w
  else if a = Reg.AU_TAMPER_CFG then
    (s.fieldWrite a w).setFld a F.AU_TAMPER_CFG_EN (s.fld a F.AU_TAMPER_CFG_EN ||| F.AU_TAMPER_CFG_EN.get w)
  else if a = Reg.AU_TAMPER_STAT then s.wr a (s.rd a &&& ~~~(F.AU_TAMPER_STAT_HIT.put 0 (F.AU_TAMPER_STAT_HIT.get w)))
  else if a = Reg.AU_WIT_CFG && s.mode ≠ .idle then
    (s.fieldWrite a w).setFld a F.AU_WIT_CFG_ROLE (s.fld a F.AU_WIT_CFG_ROLE)
  else if a = Reg.AU_WIT_CFG then
    let s := s.fieldWrite a w
    if s.isWitness && s.inEn then s.inDisable else s
  else s.fieldWrite a w

/-- A write to CZ. -/
def State.writeCz (s : State) (a : Nat) (w : Word) : State :=
  if a = Reg.CZ_C_CTRL then s.compCtrl w
  else match [0, 1, 2, 3].find? fun d => a = Reg.CZ_Dd_CTRL d with
    | some d => s.decCtrl d w
    | none => s.fieldWrite a w

/-- A write to BU. -/
def State.writeBu (s : State) (a : Nat) (w : Word) : State :=
  if a = Reg.BU_CTRL then (if F.BU_CTRL_CONFIRM.get w = 1 then s.confirmStart else s)
  else if a = Reg.BU_UP_CTRL then s.upCtrl w
  else if a = Reg.BU_SET_CTRL then
    let s := if F.BU_SET_CTRL_READ.get w = 1 then s.settingsRead else s
    if F.BU_SET_CTRL_COMMIT.get w = 1 then s.settingsCommit else s
  else if a = Reg.BU_SI_CTRL then
    let s := if F.BU_SI_CTRL_ABORT.get w = 1 then s.reloadAbort 0xE else s
    if F.BU_SI_CTRL_START.get w = 1 then s.reloadStart else s
  else if 0x101000 ≤ a && a < 0x102040 then
    { s with bu := { s.bu with buf := AMap.set (fun _ => (0 : Word)) s.bu.buf ((a - 0x101000) / 4) w } }
  else s.fieldWrite a w

/-- A rise of CHIP_SERVICE_REQ by a write (R452). -/
def State.writeFl (s : State) (a : Nat) (w : Word) : State :=
  if a = Reg.FL_CTRL then
    let s := if F.FL_CTRL_OVF_CLEAR.get w = 1 then s.ovfClear else s
    if F.FL_CTRL_CSR_CLEAR.get w = 1 then s.csrClear else s
  else if a = Reg.FL_EQ_ACK then s.eqAck (F.FL_EQ_ACK_SEQ.get w)
  else if a = Reg.FL_CSR then
    let t := s.fieldWrite a w
    if !s.csr && t.csr then
      (t.flag Reg.FL_STAT F.FL_STAT_CHIP_SERVICE).raiseCore Ev.CHIP_SERVICE 0 0 (s.line % 2 ^ 32)
    else t
  else s.fieldWrite a w

/-- Eight measured means as the spec leaves them open to a write that carries none (MZERO, R473): 12-bit codes. -/
def State.freeMeans (s : State) : List Nat × State :=
  (List.range 8).foldl (fun x _ => let d := x.2.drawFree; (x.1 ++ [d.1 % 4096], d.2)) ([], s)

/-- A write to AN: DIV only in IDLE (R476). -/
def State.writeAn (s : State) (a : Nat) (w : Word) : State :=
  if a = Reg.AN_CTRL then
    let m := s.freeMeans
    if F.AN_CTRL_MZERO.get w = 1 then m.2.anCtrl w m.1 else s.anCtrl w []
  else if ((List.range 17).any fun k => a = Reg.AN_CHk_DIV k) && s.mode ≠ .idle then s.flag Reg.AN_STAT F.AN_STAT_CFG_REFUSED
  else s.fieldWrite a w

/-- A write to a register block, by the master that makes it. -/
def State.writeReg (s : State) (m a : Nat) (w : Word) : State := match a / 0x10000 with
  | 0x00 => s.writeSys a w
  | 0x01 => s.writeUt a w
  | 0x02 => s.writeWp a w
  | 0x03 => s.writeJs a w
  | 0x04 => if a = Reg.HP_CTRL then s.hpCtrl w else s.fieldWrite a w
  | 0x06 => s.writeNh a w
  | 0x07 => s.writeIn a w
  | 0x08 => s.writeLe a w
  | 0x09 => s.writeMo a w
  | 0x0B => s.writeDc a w
  | 0x0C => s.writeHl a w
  | 0x0D => s.writeTn a w
  | 0x0E => s.writeAu a w
  | 0x0F => s.writeCz a w
  | 0x10 => s.writeBu a w
  | 0x11 => s.writeFl a w
  | 0x12 => s.writeAn a w
  | 0x13 => if a = Reg.TS_CTRL then s.tsCtrl m w else s.fieldWrite a w
  | _ => s.fieldWrite a w

/-- Windows that are only read: those of R479, the parameters and code of LE, the waveform tables of FE. -/
def readOnlyWindow (a : Nat) : Bool :=
  0x2000000 ≤ a || (0x81000 ≤ a && a < 0x83000) || (0x84000 ≤ a && a < 0x86000) || (0x58000 ≤ a && a < 0x60000)

/-- A write performed at a mapped address: whether it completes with an error, and the state after it. -/
def State.writeWord (s : State) (m a : Nat) (w : Word) : Bool × State :=
  if readOnlyWindow a then (true, s)
  else if a < 0x140000 then (false, s.writeReg m a (regMask a w))
  else if a % 32 ≠ 0 then (true, s)
  else
    let x := s.nozWrite ((a - 0x1000000) / 32) w
    (!x.2, x.1)

/-! ## Accesses -/

/-- How an access ends: done with a word and whether with an error, or waiting. -/
inductive Access where
  | done (v : Word) (err : Bool) (s : State)
  | waits (d : Domain)

/-- An access this rule completes with an error (R480): address and master are recorded. -/
def State.busFault (s : State) (m a : Nat) : State := (s.wrN Reg.SYS_BUS_ERR a).wrN Reg.SYS_BUS_MST m

/-- Registers whose description reserves writes to the security core. -/
def securityOnly (a : Nat) : Bool := a = Reg.HL_MSPI_CFG || a = Reg.DC_CFG

/-- A write of AU or BU by MSPI that HL_CFG.AUTH_REQ refuses (R335). -/
def State.authRefused (s : State) (a : Nat) : Bool :=
  s.isSet Reg.HL_CFG F.HL_CFG_AUTH_REQ && (a / 0x10000 = 0x0E || a / 0x10000 = 0x10)

/-- A refusal of MSPI writes (R335, R348): by HL_MSPI_CFG.RO, and to AU and BU where AUTH_REQ is set. -/
def State.mspiRefused (s : State) (a : Nat) : Bool := s.isSet Reg.HL_MSPI_CFG F.HL_MSPI_CFG_RO || s.authRefused a

/-- The access itself, waiting or not: a read where there is no word, a write of one. -/
def State.perform (s : State) (m a : Nat) (data : Option Word) : Word × Bool × State := match data with
  | none => let x := s.readWord a; (x.1, false, x.2)
  | some w => let x := s.writeWord m a w; (0, x.1, x.2)

/-- An access of a master (R54, R335, R458, R480). -/
def State.access (s : State) (m a width : Nat) (data : Option Word) : Access :=
  if width ≠ 4 || a % 4 ≠ 0 || !mapped a then .done 0 true (s.busFault m a)
  else if 0x10000 ≤ a && a < 0x10800 && (a - 0x10000) / 0x100 ≠ m then .done 0 true s
  else if data.isSome && m = 6 && s.mspiRefused a then .done 0 true s
  else if data.isSome && m ≠ 0 && securityOnly a then .done 0 true (s.busFault m a)
  else match (regDomain a).filter s.waitsFor with
    | some d => .waits d
    | none => let x := s.perform m a data; .done x.1 x.2.1 x.2.2

/-- The completion of an access as its master sees it. -/
def State.complete (s : State) (m : Nat) (v : Word) (err timeout : Bool) : State := { s with bus := ⟨m, v, err, timeout⟩ }

/-- A single access from the bus: completed, or left waiting. -/
def State.busAccess (s : State) (m a width : Nat) (data : Option Word) : State := match s.access m a width data with
  | .done v e s => s.complete m v e false
  | .waits d => { s with fl := { s.fl with waits := s.fl.waits ++ [⟨d, m, a, data, s.now, none⟩] } }

/-- A write of a word by a master, and a read. -/
def State.busWrite (s : State) (m a : Nat) (w : Word) : State := s.busAccess m a 4 (some w)
def State.busRead (s : State) (m a : Nat) : State := s.busAccess m a 4 none

end Sys2Proof.Machine
end

