-- ==== Sys2Proof/Machine/LinkUp.lean ====
section
/-! DEFINITION. Received packets (14): register requests with their series of accesses (R332, R333, R335), DMA_WR (R334), EVT (R340,
R451), AUD (R341), the position broadcast (R342 to R347, R368), MSPI frames (R349), and the accesses that wait (R55, R458). -/

namespace Sys2Proof.Machine

/-! ## Series of accesses -/

/-- An access left waiting. -/
def State.suspend (s : State) (d : Domain) (m a : Nat) (data : Option Word) (q : Option Series) : State :=
  { s with fl := { s.fl with waits := s.fl.waits ++ [⟨d, m, a, data, s.now, q⟩] } }

/-- The CRC-8 of R157 over the bytes of an MSPI frame or answer (R349). -/
def mspiCrc (bs : List Byte) : Byte := BitVec.ofNat 8 (crcN 8 0x07 0 bs)

/-- The end of a series with a status of R333 and the index of the failing word: RD_CPL of a packet, the answer bytes of an MSPI
frame (R349). -/
def State.seriesEnd (s : State) (q : Series) (status : Nat) : State := match q.pkt with
  | some p => s.reply p (status + (if status = 1 then q.i * 256 else 0)) (if status = 0 then q.got else [])
  | none =>
    let ans := if status ≠ 0 then [0x5A#8] ++ leBytes 1 status ++ leBytes 1 q.i
      else if q.write then [0xA5#8] else [0xA5#8] ++ q.got ++ [mspiCrc q.got]
    { s with hl := { s.hl with mspi := ans } }

/-- A series from its next access on (R333): to its end, to an error (AUTH where R335 refuses an MSPI write), or to an access
that waits. -/
def State.serve (s : State) : Nat → Series → State
  | 0, q => s.seriesEnd q 0
  | n + 1, q =>
    if q.count ≤ q.i then s.seriesEnd q 0
    else
      let a := q.addr + 4 * q.i
      let data := if q.write then some (q.data.getD q.i 0) else none
      match s.access q.master a 4 data with
      | .waits d => s.suspend d q.master a data (some q)
      | .done v err s =>
        if err then s.seriesEnd q (if q.master = 6 && q.write && s.authRefused a && !s.isSet Reg.HL_MSPI_CFG F.HL_MSPI_CFG_RO then 4 else 1)
        else s.serve n { q with i := q.i + 1, got := if q.write then q.got else q.got ++ leBytes 4 v.toNat }

/-- Words of a payload, four bytes each. -/
def payloadWords (bs : List Byte) : List Word := (List.range (bs.length / 4)).map fun i => BitVec.ofNat 32 (leAt bs (4 * i) 4)

/-- A series of accesses begun. -/
def State.beginSeries (s : State) (pkt : Option Pkt) (write : Bool) (m addr count : Nat) (data : List Word) : State :=
  s.serve (count + 1) ⟨pkt, write, m, addr, data, count, 0, []⟩

/-! ## Requests -/

/-- A write that touches AU or BU (R335). -/
def guarded (addr len : Nat) : Bool :=
  (List.range (len / 4)).any fun i => let b := (addr + 4 * i) / 0x10000; b = 0x0E || b = 0x10

/-- A trailer is valid (R335): its TAG16 under the LINK key over the packet before it and AUTH_SEQ, which exceeds the last. -/
def State.trailerOk (s : State) (p : Pkt) : Option Nat := match p.auth, s.slot 7 with
  | some (seq, tag), some key =>
    if s.hl.authSeq < seq && tag = (hmac256 key (p.header ++ p.payload ++ leBytes 8 seq)).take 16 then some seq else none
  | _, _ => none

/-- A REG_WR or REG_RD performed here (R333, R335): window 5 for the host, 7 for a controller. -/
def State.regHere (s : State) (p : Pkt) (fromUp : Bool) : State :=
  let write := p.ty = 1
  let addr := p.addr % 2 ^ 32
  let m := if p.host then 5 else 7
  let go (s : State) : State := s.beginSeries (some p) write m addr (p.len / 4) (payloadWords p.payload)
  if p.len < 4 || 256 < p.len || p.len % 4 ≠ 0 || addr % 4 ≠ 0 then s.reply p 5 []
  else if write && fromUp && s.isSet Reg.HL_CFG F.HL_CFG_AUTH_REQ && guarded addr p.len then
    match s.trailerOk p with
    | some seq => go { s with hl := { s.hl with authSeq := seq } }
    | none =>
      let s := if p.auth.isSome then (s.flag Reg.HL_STAT F.HL_STAT_LINK_AUTH).raise Ev.LINK_AUTH else s
      s.reply p 4 []
  else go s

/-- A DMA_WR written to DRAM by HLDMA, or refused (R334). -/
def State.dmaHere (s : State) (p : Pkt) : State :=
  let r := if p.len < 64 || p.len % 64 ≠ 0 || p.addr % 64 ≠ 0 then (false, s) else s.writeAs 7 p.addr p.payload
  if r.1 then r.2
  else
    let s := { r.2 with hl := { r.2.hl with fault := if r.2.hl.fault.contains p.source then r.2.hl.fault else p.source :: r.2.hl.fault } }
    ((s.bump Reg.HL_DMA_ERR F.HL_DMA_ERR_COUNT).flag Reg.HL_STAT F.HL_STAT_DMA_REFUSED).raise Ev.DMA_REFUSED

/-- A packet of class 3 performed (R332). -/
def State.class3 (s : State) (p : Pkt) (fromUp : Bool) : State := if p.ty = 4 then s.dmaHere p else s.regHere p fromUp

/-- The source of a waiting access, where it came over a link. -/
def WaitAccess.source (w : WaitAccess) : Option Nat := match w.series with
  | some q => q.pkt.map Pkt.source
  | none => none

/-- A packet of class 3 at its destination: performed behind the earlier ones of its source (R332). -/
def State.class3In (s : State) (p : Pkt) (fromUp : Bool) : State :=
  if s.fl.waits.any fun w => w.source = some p.source then
    s.suspend .turn (b2n fromUp) 0 none (some ⟨some p, false, 0, 0, [], 0, 0, []⟩)
  else s.class3 p fromUp

/-! ## Accesses that wait -/

/-- A waiting access whose wait is over. -/
def State.waitOver (s : State) (before : List WaitAccess) (w : WaitAccess) : Bool := match w.dom with
  | .turn =>
    !(before.any fun x => x.source = w.source) && !(s.fl.waits.any fun x => x.source = w.source && x.dom ≠ Domain.turn)
  | d => !s.waitsFor d

/-- The first waiting access whose wait is over, and the others. -/
def State.firstOver (s : State) : List WaitAccess → List WaitAccess → Option (WaitAccess × List WaitAccess)
  | _, [] => none
  | before, w :: rest => if s.waitOver before w then some (w, before ++ rest) else s.firstOver (before ++ [w]) rest

/-- A waiting access performed, with the rest of its series. -/
def State.resume (s : State) (w : WaitAccess) : State := match w.series with
  | none => s.busAccess w.master w.addr 4 w.data
  | some q => match w.dom, q.pkt with
    | .turn, some p => s.class3 p (w.master = 1)
    | _, _ => s.serve (q.count + 1 - q.i) q

/-- Every access whose wait is over performed, in order. -/
def State.serveWaits : Nat → State → State
  | 0, s => s
  | n + 1, s => match s.firstOver [] s.fl.waits with
    | none => s
    | some (w, rest) => State.serveWaits n ({ s with fl := { s.fl with waits := rest } }.resume w)

/-! ## Packets of each type -/

/-- REG_WR, REG_RD and DMA_WR received. -/
def State.class3Packet (s : State) (g ty : Nat) (bs : List Byte) : State := match s.receive g ty bs with
  | (none, s) => s
  | (some p, s) => match s.routed g p with
    | (some p, s) => s.class3In p (g = 0)
    | (none, s) => s

/-- RD_CPL received. -/
def State.rdCplPacket (s : State) (g : Nat) (bs : List Byte) : State := match s.receive g 3 bs with
  | (none, s) => s
  | (some p, s) => match s.routed g p with
    | (some p, s) => s.rdCplHere p.tag p.status p.payload
    | (none, s) => s

/-- A stamp of 12 bytes. -/
def stampOf (bs : List Byte) : Stamp := ⟨leAt bs 0 6, leAt bs 6 4, leAt bs 10 2⟩

/-- What an EVT leaves in a controller it passes (R340, R451, R52). -/
def State.evtNote (s : State) (p : Pkt) : State :=
  let b := p.payload
  let s := if s.si.valid (chipH p.src) then
      let c : ChipInfo := ⟨true, leAt b 20 1, leAt b 21 1, leAt b 24 4, leAt b 28 4, leAt b 32 4, s.now⟩
      { s with ut := { s.ut with chips := AMap.set chipDefault s.ut.chips p.src c } }
    else s
  let id := leAt b 0 2
  let cls := leAt b 2 1
  if id = 0 then s
  else
    let s := s.enqueue id cls (leAt b 4 4) 0 true none (stampOf (slice b 8 12))
    if 3 ≤ cls && s.isSet Reg.FL_CFG F.FL_CFG_CASCADE_HOLD then { s with sys := { s.sys with holdDue := true } } else s

/-- EVT received: from below only (R328). -/
def State.evtPacket (s : State) (g : Nat) (bs : List Byte) : State := match s.receive g 6 bs with
  | (none, s) => s
  | (some p, s) => if g = 0 then s else ((s.evtNote p).routed g p).2

/-- AUD received: a witness record is delivered here (R341, R397). -/
def State.audPacket (s : State) (g : Nat) (bs : List Byte) : State := match s.receive g 7 bs with
  | (none, s) => s
  | (some p, s) => match s.routed g p with
    | (some p, s) => if leAt p.payload 0 1 = 2 then s.witRecord (p.payload.drop 8) else s
    | (none, s) => s

/-! ## Position broadcast -/

/-- PERIOD_NS, at least 1,000 (HL_POS_CFG). -/
def State.posPeriod (s : State) : Nat := max 1000 (s.fld Reg.HL_POS_CFG F.HL_POS_CFG_PERIOD_NS)

/-- The child below a DOWN group: the lowest index of its range. -/
def State.childOf (s : State) (g : Nat) : Nat := s.fld (routeReg g) F.HL_ROUTE0_LO

/-- A change that waits for its commit position and alters the enable of a CHIP unit (R343): its line and the enable then. -/
def State.chipPending (s : State) (h : Nat) : Option (Nat × Bool) :=
  let due : List (Nat × Nat × Bool) := (s.nh.unitsDue ++ s.nh.queue.map fun e => (e.c, e.req)).filterMap fun u => match u.2 with
    | .enable u' en => some (u.1, u', en)
    | _ => none
  let now := effEn s.si s.ut.own h
  (due.foldl (fun (x : AMap UnitCfg × Option (Nat × Bool)) u =>
    let own := AMap.set unitCfgDefault x.1 u.2.1 { ownOf x.1 u.2.1 with en := u.2.2 }
    (own, x.2.orElse fun _ => if effEn s.si own h ≠ now then some (u.1, effEn s.si own h) else none)) (s.ut.own, none)).2

/-- The parent-side fields of a POS (R342): delays and enable in force, the NEXT values and APPLY_LINE. -/
structure PosParent where
  ld : Nat
  sd : Nat
  en : Bool
  nextLd : Nat
  nextSd : Nat
  nextEn : Bool
  apply : Nat
  deriving DecidableEq, Repr

/-- What a POS from the summit starts with. -/
def PosParent.top : PosParent := ⟨0, 0, true, 0, 0, true, 0⟩

/-- The parent-side fields of a payload. -/
def PosParent.of (b : List Byte) : PosParent :=
  let e := leAt b 0x20 1
  ⟨leAt b 0x1C 2, leAt b 0x1E 2, e.testBit 0, leAt b 0x24 2, leAt b 0x26 2, e.testBit 1, leAt b 0x28 4⟩

/-- The parent-side fields as they go on to the child below a group (R343): combined with its CHIP unit. -/
def State.posBelow (s : State) (q : PosParent) (g : Nat) : PosParent :=
  let h := chipH (s.childOf g)
  if !s.si.valid h then q
  else
    let ld := effLd s.si s.ut.own h
    let sd := effSd s.si s.ut.own h
    let en := effEn s.si s.ut.own h
    let base : PosParent := { q with ld := q.ld + ld, sd := q.sd + sd, en := q.en && en }
    if q.apply ≠ 0 then { base with nextLd := q.nextLd + ld, nextSd := q.nextSd + sd, nextEn := q.nextEn && en }
    else match s.chipPending h with
      | some (l, en') => { base with nextLd := base.ld, nextSd := base.sd, nextEn := q.en && en', apply := l % 2 ^ 32 }
      | none => { base with nextLd := 0, nextSd := 0, nextEn := false }

/-- The 48 bytes of a POS payload (R342). -/
def posPayload (wpos : Nat) (vel : Int) (age : Nat) (ts : List Byte) (q : PosParent) : List Byte :=
  leBytes 8 wpos ++ leBytes 4 (ofSigned 32 vel) ++ leBytes 4 age ++ ts ++ leBytes 2 q.ld ++ leBytes 2 q.sd ++
  leBytes 1 (b2n q.en + 2 * b2n q.nextEn) ++ [0, 0, 0] ++ leBytes 2 q.nextLd ++ leBytes 2 q.nextSd ++ leBytes 4 q.apply ++ [0, 0, 0, 0]

/-- A POS sent on every ACTIVE DOWN group (R343): AGE counts from now. -/
def State.posDown (s : State) (wpos : Nat) (vel : Int) (age : Nat) (ts : List Byte) (q : PosParent) : State :=
  s.activeDown.foldl (fun s g =>
    s.sendOn g (s.newPkt 5 4 (s.childOf g) 0 0 0 48 (posPayload wpos vel age ts (s.posBelow q g)))) s

/-- w(t) of R346. -/
def RopePos.at (r : RopePos) (t : Nat) : Int :=
  let d := t - r.t0
  r.target - r.c + r.c * (min d r.period : Nat) / r.period + r.vel * d / 65536

/-- WPOS takes a value of w, where it lies in its range (R89). -/
def State.ropeSet (s : State) (w : Int) : State :=
  if 0 ≤ w && w < posTop then s.setPos w.toNat else (s.flag Reg.WP_STAT F.WP_STAT_RANGE).raise Ev.WP_RANGE

/-- ROPE_WPOS_ADVANCE (R346). -/
def State.ropeAdvance (s : State) : State := match s.hl.rope with
  | some r => if s.wp.src = 2 then s.ropeSet (r.at s.now) else s
  | none => s

/-- The latency of the UP link (R345). -/
def State.upLat (s : State) : Nat := s.fld (Reg.HL_Gg_LAT 0) F.HL_Gg_LAT_LAT

/-- A good POS corrects WPOS (R346, R350). -/
def State.ropeCorrect (s : State) (wpos : Nat) (vel : Int) (age : Nat) : State :=
  if s.wp.src ≠ 2 then s
  else
    let s := s.ropeAdvance
    let target : Int := wpos + vel * (age + s.upLat + 40 : Nat) / 65536
    match s.hl.rope with
    | none => { s with hl := { s.hl with rope := some ⟨s.now, target, 0, vel, s.posPeriod⟩ } }.ropeSet target
    | some _ =>
      let c := target - s.wp.pos
      let s := s.setFld Reg.HL_POS_STAT F.HL_POS_STAT_CORR (ofSigned 16 (clamp (-32768) 32767 c))
      let s := { s with hl := { s.hl with rope := some ⟨s.now, target, c, vel, s.posPeriod⟩ } }
      if 65536 < c.natAbs then (s.flag Reg.HL_STAT F.HL_STAT_POS_JUMP).raise Ev.POS_JUMP else s

/-- The parent-side values of a POS taken (R52, R344). -/
def State.posParent (s : State) (q : PosParent) : State :=
  if q.apply ≠ 0 && decide (q.apply ≤ s.line) then { s with hl := { s.hl with next := none } }.setParent q.nextEn q.nextLd q.nextSd
  else
    { s with hl := { s.hl with next := if q.apply = 0 then none else some (q.apply, q.nextLd, q.nextSd, q.nextEn) } }.setParent q.en q.ld q.sd

/-- A good POS (R343 to R346, R368). -/
def State.posIn (s : State) (b : List Byte) : State :=
  let wpos := leAt b 0 6
  let vel := toSigned 32 (leAt b 8 4)
  let age := leAt b 12 4
  let ts := slice b 16 12
  let q := PosParent.of b
  let lat := s.upLat
  let n := s.hl.posCount + 1
  let s := { s with hl := { s.hl with posCount := n, posAt := s.now } }
  let s := s.setFld Reg.HL_POS_STAT F.HL_POS_STAT_AGE (min 65535 (age + lat))
  let s := s.posDown wpos vel (min 0xFFFFFFFF (age + lat)) ts q
  let s := (s.ropeCorrect wpos vel age).posParent q
  if s.isSet Reg.TN_CFG F.TN_CFG_TSRC && n % max 1 Config.ropeDiv = 0 then s.ropeTime ts age lat else s

/-- POS received: from above only (R328). -/
def State.posPacket (s : State) (g : Nat) (bs : List Byte) : State := match s.receive g 5 bs with
  | (none, s) => s
  | (some p, s) => if g = 0 then s.posIn p.payload else s

/-- POS_SAMPLE (R343). -/
def State.posSample (s : State) : State :=
  let w := s.wp.pos
  let vel := ((w : Int) - s.hl.lastPos) * 65536 / s.posPeriod
  let s := { s with hl := { s.hl with lastPos := w } }
  if s.isSummit && s.isSet Reg.HL_POS_CFG F.HL_POS_CFG_EN then s.posDown w vel 0 s.stamp.bytes PosParent.top else s

/-- TMO periods have gone by since the last good POS, or since SRC became ROPE (R347). -/
def State.posOver (s : State) : Bool :=
  decide (max 2 (s.fld Reg.HL_POS_CFG F.HL_POS_CFG_TMO) * s.posPeriod ≤ s.now - s.hl.posAt)

/-- POS_TIMEOUT (R347): w is held at its last value. -/
def State.posTimeout (s : State) : State :=
  if s.wp.src ≠ 2 || !s.posOver then s
  else
    let s := { s with hl := { s.hl with rope := s.hl.rope.map fun _ => ⟨s.now, s.wp.pos, 0, 0, s.posPeriod⟩ } }
    ((s.flag Reg.HL_STAT F.HL_STAT_POS_LOST).raise Ev.POS_LOST).ropeTimeLost

/-! ## MSPI -/

/-- MSPI_ERR (R349). -/
def State.mspiErr (s : State) (f : BitField) : State :=
  ((s.bump Reg.HL_MSPI_ERR f).flag Reg.HL_STAT F.HL_STAT_MSPI_ERR).raise Ev.MSPI_ERR

/-- An answer of status and failing word (R349). -/
def State.mspiAnswer (s : State) (status : Nat) : State :=
  { s with hl := { s.hl with mspi := [0x5A#8] ++ leBytes 1 status ++ [0] } }

/-- MSPI_FRAME (R348, R349): the bytes of MOSI from CS_N falling, without those that only clock the answer; `answered` tells
whether the answer was clocked to its end. -/
def State.mspiFrame (s : State) (bs : List Byte) (answered : Bool) : State :=
  let cmd := leAt bs 0 1
  let addr := leAt bs 1 4
  let n := leAt bs 5 1 + 1
  let s := { s with hl := { s.hl with mspi := [0] } }
  if bs.isEmpty then s
  else if cmd ≠ 2 && cmd ≠ 3 then s.mspiErr F.HL_MSPI_ERR_ABORT
  else if bs.length < 6 then s
  else if cmd = 2 then
    if bs.length < 6 + 4 * n + 1 then s
    else if mspiCrc (bs.take (6 + 4 * n)) ≠ bs.getD (6 + 4 * n) 0 then (s.mspiErr F.HL_MSPI_ERR_CRC).mspiAnswer 6
    else if 64 < n || addr % 4 ≠ 0 then s.mspiAnswer 5
    else s.beginSeries none true 6 addr n (payloadWords (slice bs 6 (4 * n)))
  else if 64 < n || addr % 4 ≠ 0 then s.mspiAnswer 5
  else
    let s := s.beginSeries none false 6 addr n []
    if answered then s else s.mspiErr F.HL_MSPI_ERR_ABORT

end Sys2Proof.Machine
end

