-- ==== Sys2Proof/Machine/Faults.lean ====
section
/-! DEFINITION. Accesses ended by the fabric watchdog (R458), clocks that return, the collector (R443, R450), and what every command
leaves to be served. -/

namespace Sys2Proof.Machine

/-! ## The fabric watchdog -/

/-- A domain the watchdog watches: one whose clock can stop. -/
def Domain.clocked : Domain → Bool
  | .snap _ => false
  | .turn => false
  | _ => true

/-- The oldest access that has waited for a stopped clock as long as FABRIC_WDOG allows; with FABRIC_WDOG = 0 none is (R459). -/
def State.overdue (s : State) : Option WaitAccess :=
  s.fl.waits.find? fun w => s.wdogCyc ≠ 0 && w.dom.clocked && s.waitsFor w.dom && decide (s.wdogCyc ≤ s.now - w.start)

/-- FABRIC_WDOG_EXPIRE (R458): the access ends with an error, its crossing is reset. -/
def State.wdogExpire (s : State) : State := match s.overdue with
  | none => s
  | some w =>
    let fl := { s.fl with waits := s.fl.waits.erase w,
                          resetDomains := if s.fl.resetDomains.contains w.dom then s.fl.resetDomains else w.dom :: s.fl.resetDomains }
    let s := { s with fl := fl }
    let s := (s.bump Reg.FL_WDOG_CNT F.FL_WDOG_CNT_VALUE).wrN Reg.FL_WDOG_ADDR w.addr
    let s := (s.flag Reg.FL_STAT F.FL_STAT_FABRIC_TIMEOUT).raiseWith Ev.FABRIC_TIMEOUT ((eventClass Ev.FABRIC_TIMEOUT).getD 0) 0 w.addr
    match w.series with
    | none => s.complete w.master 0 true true
    | some q => s.seriesEnd q 2

/-! ## Clocks that return -/

/-- The crossings of domains whose clock is back leave reset (R457). -/
def State.domainsBack (s : State) : State :=
  (s.fl.resetDomains.filter fun d => !s.waitsFor d).foldl (fun s d =>
    { s with fl := { s.fl with resetDomains := s.fl.resetDomains.erase d } }.xingReset d.block d.relays) s

/-- A waiting access performed as its clock returns. -/
def State.resumeNow (s : State) (w : WaitAccess) : State :=
  let x := s.perform w.master w.addr w.data
  match w.series with
  | none => x.2.2.complete w.master x.1 x.2.1 false
  | some q =>
    if x.2.1 then x.2.2.seriesEnd q 1
    else x.2.2.serve (q.count - q.i) { q with i := q.i + 1, got := if q.write then q.got else q.got ++ leBytes 4 x.1.toNat }

/-- The domain of a number: lanes 0 to 7, CSI ports 8 and 9, Ethernet 10, DRAM 11. -/
def Domain.ofNum (n : Nat) : Domain :=
  if n < 8 then .lane n else if n < 10 then .csi (n - 8) else if n = 10 then .eth else .dram

/-- STOPPED_CLOCK_RESTART (R457, R458). -/
def State.clockRestart (s : State) (n : Nat) : State :=
  let d := Domain.ofNum n
  let s := { s with sys := { s.sys with stopped := s.sys.stopped.filter (· ≠ d) } }
  let s := if s.fl.resetDomains.contains d then
      { s with fl := { s.fl with resetDomains := s.fl.resetDomains.erase d } }.xingReset d.block d.relays
    else s
  let mine := s.fl.waits.filter fun w => w.dom = d
  let s := { s with fl := { s.fl with waits := s.fl.waits.filter fun w => w.dom ≠ d } }
  mine.foldl (fun s w => s.resumeNow w) s

/-! ## The collector and reports -/

/-- EVENT_COLLECT (R443, R450). -/
def State.eventCollect (s : State) : State := match s.collect with
  | none => s
  | some (o, s) => if o.reported then s.sendEvt o.id o.cls (s.cascade o.unit) o.ts else s

/-- An EVT on a change of ROOT status, once one that waits has gone (R340). -/
def State.reportRoot (s : State) : State :=
  if (s.grp 0).st = .active && !((s.grp 0).waitq.any fun p => p.ty = 6 && !p.fwd) && s.rootChanged then s.statusEvt else s

/-- What is served after a command: accesses whose wait is over, the composition of the next line (R11), and reports. -/
def State.serveAll (s : State) : State := (State.serveWaits s.fl.waits.length s.domainsBack.linkDownCmd).composeNext.reportRoot

/-- How a command runs, from outside reset (R5, R482). -/
def State.act (s : State) (f : State → State) : State := s.run fun s => (f s).serveAll

/-- How an event on a pin runs, in reset too. -/
def State.actPin (s : State) (f : State → State) : State := s.runPin fun s => (f s).serveAll

/-- One cycle of SYSCLK in which no command comes (R9, R359): 1 ns, and every fourth one a cycle of TBCLK. -/
def State.cycle (s : State) : State :=
  let s := { s with now := s.now + 1 }
  s.act fun s => if s.now % 4 = 0 then s.tbCycle else s

end Sys2Proof.Machine
end

