-- ==== Sys2Proof/Machine/Command.lean ====
section
/-! DEFINITION. What register commands share: the word a command writes, and the write of MZERO with its measurement. -/

namespace Sys2Proof.Machine

/-- A word with the bits of one command in place: its own set, those of the register's other commands clear. -/
def command (w : Word) (fs : List (BitField × Nat)) : Word := fs.foldl (fun w f => f.1.put w f.2) w

/-- A write of AN_CTRL.MZERO with the rounded means the converters measure (R473). -/
def State.mzeroWrite (s : State) (m : Nat) (w : Word) (means : List Nat) : State :=
  if m = 6 && s.mspiRefused Reg.AN_CTRL then s.complete m 0 true false
  else
    (s.anCtrl (command w [(F.AN_CTRL_MZERO, 1), (F.AN_CTRL_CAL_START, 0)]) ((List.range 8).map fun i => means.getD i 0 % 4096)).complete
      m 0 false false

end Sys2Proof.Machine
end

