-- ==== Sys2Proof/Machine/CmdAudit.lean ====
section
/-! DEFINITION. Commands of audit, compression, boot and update (16 to 18). Each command has a meaning of its own, over the operations of its
block. -/

namespace Sys2Proof.Machine

/-- ZEROIZE (R394): AU_CTRL.ZEROIZE with CONFIRM 0xA5 clears the secret slots, erases sealed data and blows a generation fuse.
-/
def execZeroize (m : Master) (w : Word) (s : State) : Host.Outcome State Fault Refusal :=
  .next (s.act (·.busWrite m.val Reg.AU_CTRL (command w [(F.AU_CTRL_CONFIRM, 0xA5), (F.AU_CTRL_ZEROIZE, 1), (F.AU_CTRL_ATTEST, 0), (F.AU_CTRL_REPLAY, 0)])))

/-- ATTEST (R396): AU_CTRL.ATTEST writes a signed attestation record over a nonce. -/
def execAttest (m : Master) (w : Word) (s : State) : Host.Outcome State Fault Refusal :=
  .next (s.act (·.busWrite m.val Reg.AU_CTRL (command w [(F.AU_CTRL_ATTEST, 1), (F.AU_CTRL_ZEROIZE, 0), (F.AU_CTRL_REPLAY, 0)])))

/-- REPLAY (R388): AU_CTRL.REPLAY resends records from the ring from AU_REPLAY_SEQ. -/
def execReplay (m : Master) (w : Word) (s : State) : Host.Outcome State Fault Refusal :=
  .next (s.act (·.busWrite m.val Reg.AU_CTRL (command w [(F.AU_CTRL_REPLAY, 1), (F.AU_CTRL_ZEROIZE, 0), (F.AU_CTRL_ATTEST, 0)])))

/-- GEN_DEV (R389): the key command generates the DEVICE SIGN key on chip while the slot is empty. -/
def execGenDev (m : Master) (w : Word) (s : State) : Host.Outcome State Fault Refusal :=
  .next (s.act (·.busWrite m.val Reg.AU_KEY_CMD (command w [(F.AU_KEY_CMD_OP, 1)])))

/-- GEN_EPH (R390): the key command draws an ephemeral key pair and writes a signed statement. -/
def execGenEph (m : Master) (w : Word) (s : State) : Host.Outcome State Fault Refusal :=
  .next (s.act (·.busWrite m.val Reg.AU_KEY_CMD (command w [(F.AU_KEY_CMD_OP, 2)])))

/-- UNWRAP (R390): the key command authenticates a wrapped blob and fills a secret slot. -/
def execUnwrap (m : Master) (w : Word) (s : State) : Host.Outcome State Fault Refusal :=
  .next (s.act (·.busWrite m.val Reg.AU_KEY_CMD (command w [(F.AU_KEY_CMD_OP, 3)])))

/-- SET_PUB (R391): the key command fills an IMAGE VERIFY slot from a signed record. -/
def execSetPub (m : Master) (w : Word) (s : State) : Host.Outcome State Fault Refusal :=
  .next (s.act (·.busWrite m.val Reg.AU_KEY_CMD (command w [(F.AU_KEY_CMD_OP, 4)])))

/-- EXPORT_PUB (R391): the key command writes the DEVICE SIGN public key record. -/
def execExportPub (m : Master) (w : Word) (s : State) : Host.Outcome State Fault Refusal :=
  .next (s.act (·.busWrite m.val Reg.AU_KEY_CMD (command w [(F.AU_KEY_CMD_OP, 5)])))

/-- EPH_KEY_EXPIRE (R390): an ephemeral private key unused for 60 s is erased. -/
def execEphKeyExpire (s : State) : Host.Outcome State Fault Refusal := .next (s.act (·.ephExpire))

/-- TAMPER (R395): an enabled tamper input at its asserted level beyond its filter causes zeroize. -/
def execTamper (i : Fin 4) (s : State) : Host.Outcome State Fault Refusal := .next (s.actPin (·.tamper i.val))

/-- CAIRN_ISSUE (R380): A ticket whose verdict and digest are complete, after every earlier ticket, receives its chained cairn.
-/
def execCairnIssue (s : State) : Host.Outcome State Fault Refusal := .next (s.act (·.cairnIssue))

/-- SUMMIT_TIMER (R384): 1 s after the last close the batch closes by time. -/
def execSummitTimer (s : State) : Host.Outcome State Fault Refusal := .next (s.act (·.summitTimer))

/-- SUMMIT_ISSUE (R385): after the witness answer or wait, the summit is signed and issued. -/
def execSummitIssue (s : State) : Host.Outcome State Fault Refusal := .next (s.act (·.summitIssue))

/-- AUDIT_RING_WRITE (R386): A record is programmed into the flash audit ring, erasing an acknowledged sector if needed. -/
def execAuditRingWrite (ok : Bool) (s : State) : Host.Outcome State Fault Refusal := .next (s.act (·.ringWrite ok))

/-- AUDIT_RING_ACK_WRITE (R386): A write of AU_RING_ACK raises the acknowledged SEQ, ignoring lower values. -/
def execAuditRingAckWrite (m : Master) (hi : Bool) (w : Word) (s : State) : Host.Outcome State Fault Refusal :=
  .next (s.act (·.busWrite m.val (if hi then Reg.AU_RING_ACK_HI else Reg.AU_RING_ACK_LO) w))

/-- AUDIT_FRAME_TIMER (R388): 1 ms after the first waiting cairn an audit frame is sent even if not full. -/
def execAuditFrameTimer (s : State) : Host.Outcome State Fault Refusal := .next (s.act (·.audFlush))

/-- LINE (R398): A witness receives a LINE record and compares its CT with its own. -/
def execLineRecord (bytes : List Byte) (s : State) : Host.Outcome State Fault Refusal := .next (s.act (·.witLine bytes))

/-- BLANK (R397): A witness receives a BLANK record and skips the comparison of that line. -/
def execBlankRecord (bytes : List Byte) (s : State) : Host.Outcome State Fault Refusal := .next (s.act (·.witBlank bytes))

/-- COMMIT (R397): A witness receives a COMMIT record and queues the commit at position C. -/
def execCommitRecord (bytes : List Byte) (s : State) : Host.Outcome State Fault Refusal := .next (s.act (·.witCommitIn bytes))

/-- STATUS (R398): A primary receives a witness STATUS and records compared lines or a mismatch. -/
def execStatusRecord (bytes : List Byte) (s : State) : Host.Outcome State Fault Refusal := .next (s.act (·.witStatus bytes))

/-- COSIGN_REQ (R398): A witness receives a co-sign request and signs the summit if every line matched. -/
def execCosignReq (bytes : List Byte) (s : State) : Host.Outcome State Fault Refusal := .next (s.act (·.cosignReq bytes))

/-- COSIGN_RSP (R398): A primary receives a co-sign answer and places it in the summit. -/
def execCosignRsp (bytes : List Byte) (s : State) : Host.Outcome State Fault Refusal := .next (s.act (·.cosignRsp bytes))

/-- WITNESS_STATUS_SEND (R397): every 1 ms the witness sends a STATUS record. -/
def execWitnessStatusSend (s : State) : Host.Outcome State Fault Refusal := .next (s.act (·.witStatusSend))

/-- WITNESS_LATE (R398): A LINE record whose partner CT is not produced within WIT_TMO counts as a mismatch. -/
def execWitnessLate (s : State) : Host.Outcome State Fault Refusal := .next (s.act (·.witLate))

/-- WITNESS_LOST (R398): no STATUS for WIT_LOSS ms raises WITNESS_LOST on the primary. -/
def execWitnessLost (s : State) : Host.Outcome State Fault Refusal := .next (s.act (·.witLost))

/-- COSIGN_TIMEOUT (R398): no co-sign answer within 10 ms issues the summit with WITNESS_MISSING. -/
def execCosignTimeout (s : State) : Host.Outcome State Fault Refusal := .next (s.act (·.cosignTimeout))

/-- DCMP_START (R403): CZ_Dd_CTRL.START starts a decompressor job over a range of blocks. -/
def execDcmpStart (m : Master) (d : Fin 4) (w : Word) (s : State) : Host.Outcome State Fault Refusal :=
  .next (s.act (·.busWrite m.val (Reg.CZ_Dd_CTRL d.val) (command w [(F.CZ_Dd_CTRL_START, 1), (F.CZ_Dd_CTRL_ABORT, 0)])))

/-- DCMP_ABORT (R404): CZ_Dd_CTRL.ABORT ends a decompressor job after any block write in progress. -/
def execDcmpAbort (m : Master) (d : Fin 4) (w : Word) (s : State) : Host.Outcome State Fault Refusal :=
  .next (s.act (·.busWrite m.val (Reg.CZ_Dd_CTRL d.val) (command w [(F.CZ_Dd_CTRL_ABORT, 1), (F.CZ_Dd_CTRL_START, 0)])))

/-- DCMP_BLOCK_DONE (R403): A container block is decoded, checked and written to its destination, then the next block begins or
the job ends. -/
def execDcmpBlockDone (d : Fin 4) (s : State) : Host.Outcome State Fault Refusal := .next (s.act (·.dcmpBlockDone d.val))

/-- CZ_START (R406): CZ_C_CTRL.START compresses an input range into the descriptor chain. -/
def execCzStart (m : Master) (w : Word) (s : State) : Host.Outcome State Fault Refusal :=
  .next (s.act (·.busWrite m.val Reg.CZ_C_CTRL (command w [(F.CZ_C_CTRL_START, 1), (F.CZ_C_CTRL_ABORT, 0)])))

/-- CZ_ABORT (R408): CZ_C_CTRL.ABORT ends the compressor job without writing the header. -/
def execCzAbort (m : Master) (w : Word) (s : State) : Host.Outcome State Fault Refusal :=
  .next (s.act (·.busWrite m.val Reg.CZ_C_CTRL (command w [(F.CZ_C_CTRL_ABORT, 1), (F.CZ_C_CTRL_START, 0)])))

/-- CZ_JOB_DONE (R408): the compressor finishes the container and writes its index and header, or ends with NOSPACE. -/
def execCzJobDone (s : State) : Host.Outcome State Fault Refusal := .next (s.act (·.czJobDone))

/-- CONFIRM (R428): BU_CTRL.CONFIRM ends FIRST_START and raises SVN_FLOOR. -/
def execConfirm (m : Master) (w : Word) (s : State) : Host.Outcome State Fault Refusal :=
  .next (s.act (·.busWrite m.val Reg.BU_CTRL (command w [(F.BU_CTRL_CONFIRM, 1)])))

/-- CONFIRM_TIMEOUT (R428): without CONFIRM within BU_CONFIRM_TMO of IDLE the security core causes a cold reset. -/
def execConfirmTimeout (s : State) : Host.Outcome State Fault Refusal := .next (s.act (·.confirmTimeout))

/-- SUBMIT (R424): BU_UP_CTRL.SUBMIT checks and stores an update piece in base camp. -/
def execSubmit (m : Master) (w : Word) (s : State) : Host.Outcome State Fault Refusal :=
  .next (s.act (·.busWrite m.val Reg.BU_UP_CTRL (command w [(F.BU_UP_CTRL_SUBMIT, 1), (F.BU_UP_CTRL_ARM, 0), (F.BU_UP_CTRL_DISARM, 0), (F.BU_UP_CTRL_DISCARD, 0)])))

/-- BU_ARM (R426): BU_UP_CTRL.ARM sets ARMED for a READY base camp. -/
def execBuArm (m : Master) (w : Word) (s : State) : Host.Outcome State Fault Refusal :=
  .next (s.act (·.busWrite m.val Reg.BU_UP_CTRL (command w [(F.BU_UP_CTRL_ARM, 1), (F.BU_UP_CTRL_SUBMIT, 0), (F.BU_UP_CTRL_DISARM, 0), (F.BU_UP_CTRL_DISCARD, 0)])))

/-- DISARM (R426): BU_UP_CTRL.DISARM clears ARMED. -/
def execDisarm (m : Master) (w : Word) (s : State) : Host.Outcome State Fault Refusal :=
  .next (s.act (·.busWrite m.val Reg.BU_UP_CTRL (command w [(F.BU_UP_CTRL_DISARM, 1), (F.BU_UP_CTRL_SUBMIT, 0), (F.BU_UP_CTRL_ARM, 0), (F.BU_UP_CTRL_DISCARD, 0)])))

/-- DISCARD (R426): BU_UP_CTRL.DISCARD erases base camp and returns it to EMPTY. -/
def execDiscard (m : Master) (w : Word) (s : State) : Host.Outcome State Fault Refusal :=
  .next (s.act (·.busWrite m.val Reg.BU_UP_CTRL (command w [(F.BU_UP_CTRL_DISCARD, 1), (F.BU_UP_CTRL_SUBMIT, 0), (F.BU_UP_CTRL_ARM, 0), (F.BU_UP_CTRL_DISARM, 0)])))

/-- SETTINGS_READ (R431): BU_SET_CTRL.READ copies the firmware records of the selected set to DRAM. -/
def execSettingsRead (m : Master) (w : Word) (s : State) : Host.Outcome State Fault Refusal :=
  .next (s.act (·.busWrite m.val Reg.BU_SET_CTRL (command w [(F.BU_SET_CTRL_READ, 1), (F.BU_SET_CTRL_COMMIT, 0)])))

/-- SETTINGS_COMMIT (R432): BU_SET_CTRL.COMMIT writes a new settings set into the target copy. -/
def execSettingsCommit (m : Master) (w : Word) (s : State) : Host.Outcome State Fault Refusal :=
  .next (s.act (·.busWrite m.val Reg.BU_SET_CTRL (command w [(F.BU_SET_CTRL_COMMIT, 1), (F.BU_SET_CTRL_READ, 0)])))

end Sys2Proof.Machine
end

