-- ==== Sys2Proof/Machine/CmdFaults.lean ====
section
/-! DEFINITION. Commands of faults, clocks, sense and test (19, 20, 23), and register accesses (01). Each command has a meaning of its own, over the operations of its
block. -/

namespace Sys2Proof.Machine

/-- REGISTER_WRITE (R5): A firmware or master write to a register that has no row of its own updates its fields according to
their types. -/
def execRegisterWrite (m : Master) (addr : Word) (width : Nat) (data : Word) (s : State) : Host.Outcome State Fault Refusal :=
  .next (s.act (·.busAccess m.val addr.toNat width (some data)))

/-- EVENT_COLLECT (R443): the collector takes one buffered occurrence, counts it, and enters or merges it in the error queue
and interrupts. -/
def execEventCollect (s : State) : Host.Outcome State Fault Refusal := .next (s.act (·.eventCollect))

/-- FL_EQ_ACK (R446): A write of FL_EQ_ACK removes the queue entry with that SEQ. -/
def execFlEqAck (m : Master) (w : Word) (s : State) : Host.Outcome State Fault Refusal :=
  .next (s.act (·.busWrite m.val Reg.FL_EQ_ACK w))

/-- OVF_CLEAR (R447): FL_CTRL.OVF_CLEAR clears OVERFLOW when the queue is not full. -/
def execOvfClear (m : Master) (w : Word) (s : State) : Host.Outcome State Fault Refusal :=
  .next (s.act (·.busWrite m.val Reg.FL_CTRL (command w [(F.FL_CTRL_OVF_CLEAR, 1), (F.FL_CTRL_CSR_CLEAR, 0)])))

/-- CSR_CLEAR (R452): FL_CTRL.CSR_CLEAR clears the clearable causes of CHIP_SERVICE_REQ. -/
def execCsrClear (m : Master) (w : Word) (s : State) : Host.Outcome State Fault Refusal :=
  .next (s.act (·.busWrite m.val Reg.FL_CTRL (command w [(F.FL_CTRL_CSR_CLEAR, 1), (F.FL_CTRL_OVF_CLEAR, 0)])))

/-- FABRIC_WDOG_EXPIRE (R458): an access waiting on a stopped clock for FABRIC_WDOG cycles ends with an error and resets the
crossing. -/
def execFabricWdogExpire (s : State) : Host.Outcome State Fault Refusal := .next (s.act (·.wdogExpire))

/-- CLOCK_LOSS (R461): loss of REFCLK or a core PLL cuts FIRE, moves SYSCLK to the internal oscillator and enters HOLD. -/
def execClockLoss (src : Fin 6) (s : State) : Host.Outcome State Fault Refusal := .next (s.act (·.clockLoss src.val))

/-- HLREF_LOSS (R460): loss of HL_REFCLK or a lane PLL stops the lanes and Ethernet ports. -/
def execHlrefLoss (s : State) : Host.Outcome State Fault Refusal := .next (s.act (·.hlrefLoss))

/-- SENSE_SLOT_START (R466): A converter slot of the round starts, waiting for a quiet moment on its bank or marking the result
LOADED. -/
def execSenseSlotStart (delay : Nat) (s : State) : Host.Outcome State Fault Refusal := .next (s.act (·.slotStart delay))

/-- SENSE_CONVERSION_DONE (R468): A conversion ends and its result becomes the delivered VH of its bank and is range-checked.
-/
def execSenseConversionDone (code : Fin 65536) (s : State) : Host.Outcome State Fault Refusal :=
  .next (s.act (·.conversionDone code.val))

/-- CAL_START (R471): AN_CTRL.CAL_START calibrates a supply channel against the reference, substituting the spare. -/
def execCalStart (m : Master) (w : Word) (s : State) : Host.Outcome State Fault Refusal :=
  .next (s.act (·.busWrite m.val Reg.AN_CTRL (command w [(F.AN_CTRL_CAL_START, 1), (F.AN_CTRL_MZERO, 0)])))

/-- CAL_PASS_TIMER (R470): every CAL_INT s, and on entry to IDLE from BOOT, a full calibration pass starts. -/
def execCalPassTimer (s : State) : Host.Outcome State Fault Refusal := .next (s.act (·.passTimer))

/-- MZERO (R473): AN_CTRL.MZERO measures the motor current offsets while every axis is disabled. -/
def execMzero (m : Master) (w : Word) (means : List Nat) (s : State) : Host.Outcome State Fault Refusal :=
  .next (s.act (·.mzeroWrite m.val w means))

/-- PD_CROSSING (R474): A photodiode level falls below LO and is timed as a beam crossing. -/
def execPdCrossing (i : Fin 2) (t : Nat) (s : State) : Host.Outcome State Fault Refusal := .next (s.act (·.pdCrossing i.val t))

/-- PD_BRIGHT (R474): A photodiode level above HI for 1 µs raises PD_BRIGHT. -/
def execPdBright (_i : Fin 2) (s : State) : Host.Outcome State Fault Refusal := .next (s.act (·.pdBright))

/-- TS_START (R508): TS_CTRL.START runs the selected loop-back in TEST. -/
def execTsStart (m : Master) (w : Word) (s : State) : Host.Outcome State Fault Refusal :=
  .next (s.act (·.busWrite m.val Reg.TS_CTRL (command w [(F.TS_CTRL_START, 1), (F.TS_CTRL_STOP, 0), (F.TS_CTRL_SELFTEST, 0)])))

/-- TS_STOP (R510): TS_CTRL.STOP ends the running loop-back and judges it. -/
def execTsStop (m : Master) (w : Word) (s : State) : Host.Outcome State Fault Refusal :=
  .next (s.act (·.busWrite m.val Reg.TS_CTRL (command w [(F.TS_CTRL_STOP, 1), (F.TS_CTRL_START, 0), (F.TS_CTRL_SELFTEST, 0)])))

/-- SELFTEST (R511): TS_CTRL.SELFTEST runs the field self-test items in order. -/
def execSelftest (m : Master) (w : Word) (s : State) : Host.Outcome State Fault Refusal :=
  .next (s.act (·.busWrite m.val Reg.TS_CTRL (command w [(F.TS_CTRL_SELFTEST, 1), (F.TS_CTRL_START, 0), (F.TS_CTRL_STOP, 0)])))

/-- TEST_LOOP_DURATION_END (R510): A loop-back ends after TS_DUR ms and records PASS or failure. -/
def execTestLoopDurationEnd (errs bitsRun : Nat) (s : State) : Host.Outcome State Fault Refusal :=
  .next (s.act (·.durationEnd errs bitsRun))

/-- TAP_INSTRUCTION (R513): an IEEE 1149.1 instruction loaded through the TAP takes effect as permitted by the mode. -/
def execTapInstruction (c : Fin 6) (s : State) : Host.Outcome State Fault Refusal := .next (s.actPin (·.tapInstruction c.val))

/-- REGISTER_READ (R5): A read of a register with behaviour of its own returns its value and then acts, clearing RC fields or
capturing companion halves such as WPOS HI, REV or the queue entry. -/
def execRegisterRead (m : Master) (addr : Word) (s : State) : Host.Outcome State Fault Refusal :=
  .next (s.act (·.busAccess m.val addr.toNat 4 none))

/-- ROPE_WPOS_ADVANCE (R346): between POS packets, w(t) of a controller with SRC ROPE advances every cycle by the spread
correction and velocity, producing ticks and compare crossings when it crosses a line or target. -/
def execRopeWposAdvance (s : State) : Host.Outcome State Fault Refusal := .next (s.act (·.ropeAdvance))

/-- STOPPED_CLOCK_RESTART (R458): A stopped domain clock returns, completing the register access that waited for it or, after a
watchdog reset, letting the crossing leave reset under XING_RESET. -/
def execStoppedClockRestart (d : Fin 12) (s : State) : Host.Outcome State Fault Refusal := .next (s.act (·.clockRestart d.val))

/-- REFCLK_RETURN (R461): REFCLK comes back within its range while the controller runs on the internal oscillator, so that a
pending reset is accepted and REF_OK is set. -/
def execRefclkReturn (s : State) : Host.Outcome State Fault Refusal := .next (s.actPin (·.refclkReturn))

/-- HLREF_RETURN (R460): HL_REFCLK and the lane PLLs return, setting HLREF_OK and letting the lanes and Ethernet ports start
again. -/
def execHlrefReturn (s : State) : Host.Outcome State Fault Refusal := .next (s.actPin (·.hlrefReturn))

/-- VDDIO5_RETURN (R492): VDDIO5 comes back into range after a loss, ending the forcing of the gate inputs to asserted while
the cut latches stay set until GATE_CLEAR. -/
def execVddio5Return (s : State) : Host.Outcome State Fault Refusal := .next (s.actPin (·.vddio5Return))

/-- CHECKER_LOCK_CHANGE (R509): A loop-back pattern checker gains lock after 64 correct bits, or drops it on 64 errors within
128 bits, and starts counting again. -/
def execCheckerLockChange (gained : Bool) (s : State) : Host.Outcome State Fault Refusal :=
  .next (s.act (·.checkerLock gained))

/-- TEST_LOOP_PASS_COMPLETE (R510): A DRAM, ENC, CAM or ANALOG loop-back ends on completion of its pass and is judged by its
criterion. -/
def execTestLoopPassComplete (crc : Word) (ok : Bool) (s : State) : Host.Outcome State Fault Refusal :=
  .next (s.act (·.passComplete crc ok))

/-- TAP_RESET (R513): TRST_N held low puts the boundary-scan TAP in reset and keeps it there. -/
def execTapReset (s : State) : Host.Outcome State Fault Refusal := .next (s.actPin (·.tapHold))

end Sys2Proof.Machine
end

