-- ==== Sys2Proof/Machine/CmdLink.lean ====
section
/-! DEFINITION. Commands of the links, time and network (14, 15). Each command has a meaning of its own, over the operations of its
block. -/

namespace Sys2Proof.Machine

/-- ENUM (R337): HL_CTRL.ENUM on the summit starts enumeration of the rope. -/
def execEnumStart (m : Master) (w : Word) (s : State) : Host.Outcome State Fault Refusal :=
  .next (s.act (·.busWrite m.val Reg.HL_CTRL (command w [(F.HL_CTRL_ENUM, 1), (F.HL_CTRL_RETRAIN, 0)])))

/-- RETRAIN (R326): HL_CTRL.RETRAIN forces a retrain of the named groups. -/
def execRetrain (m : Master) (w : Word) (s : State) : Host.Outcome State Fault Refusal :=
  .next (s.act (·.busWrite m.val Reg.HL_CTRL (command w [(F.HL_CTRL_ENUM, 0)])))

/-- LINK_LOS (R322): low receiver amplitude for 1 µs raises LOS and starts a retrain in ACTIVE. -/
def execLinkLos (k : Fin 8) (s : State) : Host.Outcome State Fault Refusal :=
  .next (s.act (·.onLanes (·.laneLost k.val F.HL_Lk_STAT_LOS)))

/-- LINK_LOL (R322): loss of clock recovery, block lock or AM lock raises LOL and starts a retrain in ACTIVE. -/
def execLinkLol (k : Fin 8) (s : State) : Host.Outcome State Fault Refusal :=
  .next (s.act (·.onLanes (·.laneLost k.val F.HL_Lk_STAT_LOL)))

/-- TRAIN_BLOCK (R325): A received TRAIN block advances the bring-up state of its group. -/
def execTrainBlock (g : Fin 3) (lane : Fin 4) (before : List Block) (hdr : Fin 4) (lo hi : BitVec 32) (cdr : Bool) (s : State) :
    Host.Outcome State Fault Refusal :=
  .next (s.act (·.onLanes (·.trainBlock g.val lane.val before ⟨hdr, hi ++ lo⟩ cdr)))

/-- AM_BLOCK (R323): A received alignment marker updates AM lock and lane deskew. -/
def execAmBlock (k : Fin 8) (blocks : List Block) (skew : Nat) (s : State) : Host.Outcome State Fault Refusal :=
  .next (s.act (·.onLanes (·.amBlock k.val blocks skew)))

/-- LINK_BRINGUP_TIMEOUT (R325): A bring-up step exceeding its bound retries DETECT or steps speed down. -/
def execLinkBringupTimeout (g : Fin 3) (s : State) : Host.Outcome State Fault Refusal :=
  .next (s.act (·.onLanes (·.bringupTimeout g.val)))

/-- RETRAIN_TIMEOUT (R326): A retrain not ACTIVE within 10 ms ends in DETECT with LINK_DOWN and discards replay. -/
def execRetrainTimeout (g : Fin 3) (s : State) : Host.Outcome State Fault Refusal := .next (s.act (·.retrainTimeout g.val))

/-- ACK (R329): A received ACK block releases acknowledged packets and updates credits. -/
def execAck (g : Fin 3) (seq creq cpri : Nat) (s : State) : Host.Outcome State Fault Refusal :=
  .next (s.act (·.onLanes (·.ackBlock g.val seq creq cpri)))

/-- NAK (R330): A received NAK makes the transmitter replay from the oldest unacknowledged packet. -/
def execNak (g : Fin 3) (_seq : Nat) (s : State) : Host.Outcome State Fault Refusal :=
  .next (s.act (·.onLanes (·.replayFrom g.val)))

/-- ACK_TIMER (R329): every 10 µs in ACTIVE the receiver sends an ACK block. -/
def execAckTimer (g : Fin 3) (s : State) : Host.Outcome State Fault Refusal := .next (s.act (·.onLanes (·.ackTimer g.val)))

/-- REPLAY_TIMEOUT (R330): 20 µs without an ACK while packets are held starts a replay. -/
def execReplayTimeout (g : Fin 3) (s : State) : Host.Outcome State Fault Refusal :=
  .next (s.act (·.onLanes (·.replayFrom g.val)))

/-- PACKET_TRANSMIT (R331): at a packet boundary with enough credit the oldest waiting packet of the lowest class starts
transmission. -/
def execPacketTransmit (g : Fin 3) (s : State) : Host.Outcome State Fault Refusal :=
  .next (s.act (·.onLanes (·.transmit g.val)))

/-- ECHO_REQ (R345): A received ECHO_REQ is answered with an ECHO_RSP carrying its turnaround. -/
def execEchoReq (g : Fin 3) (token turn : Nat) (s : State) : Host.Outcome State Fault Refusal :=
  .next (s.act (·.onLanes (·.echoReq g.val token turn)))

/-- ECHO_RSP (R345): A received ECHO_RSP contributes to the link latency measurement. -/
def execEchoRsp (g : Fin 3) (token turn : Nat) (s : State) : Host.Outcome State Fault Refusal :=
  .next (s.act (·.onLanes (·.echoRsp g.val token turn)))

/-- LATENCY_MEASURE_TIMER (R345): at DESKEW and every 1 s the receiving end sends 8 ECHO_REQ blocks. -/
def execLatencyMeasureTimer (g : Fin 3) (s : State) : Host.Outcome State Fault Refusal :=
  .next (s.act (·.onLanes (·.measure g.val)))

/-- ENUM_BLOCK (R337): A received ENUM REQ, SIZE or BASE block advances enumeration. -/
def execEnumBlock (g : Fin 3) (kind value depth : Nat) (s : State) : Host.Outcome State Fault Refusal :=
  .next (s.act (·.onLanes (·.enumBlock g.val kind value depth)))

/-- ENUM_TIMEOUT (R337): A group not answering SIZE within 1 ms fails enumeration with ENUM_FAIL. -/
def execEnumTimeout (g : Fin 3) (s : State) : Host.Outcome State Fault Refusal := .next (s.act (·.enumTimeout g.val))

/-- REG_WR (R333): A received REG_WR is routed, or performed at DEST as ascending word writes and answered by RD_CPL. -/
def execRegWr (g : Fin 3) (bytes : List Byte) (s : State) : Host.Outcome State Fault Refusal :=
  .next (s.act (·.onLanes (·.class3Packet g.val 1 bytes)))

/-- REG_RD (R333): A received REG_RD is routed, or performed at DEST and answered by RD_CPL with data. -/
def execRegRd (g : Fin 3) (bytes : List Byte) (s : State) : Host.Outcome State Fault Refusal :=
  .next (s.act (·.onLanes (·.class3Packet g.val 2 bytes)))

/-- RD_CPL (R333): A received RD_CPL is routed to, or completes, its requester's transaction. -/
def execRdCpl (g : Fin 3) (bytes : List Byte) (s : State) : Host.Outcome State Fault Refusal :=
  .next (s.act (·.onLanes (·.rdCplPacket g.val bytes)))

/-- DMA_WR (R334): A received DMA_WR is routed, or written to DRAM by HLDMA at DEST. -/
def execDmaWr (g : Fin 3) (bytes : List Byte) (s : State) : Host.Outcome State Fault Refusal :=
  .next (s.act (·.onLanes (·.class3Packet g.val 4 bytes)))

/-- POS (R346): A received POS packet re-issues down and, under ROPE, corrects WPOS, applies parent settings and feeds the time
domain. -/
def execPosPacket (g : Fin 3) (bytes : List Byte) (s : State) : Host.Outcome State Fault Refusal :=
  .next (s.act (·.onLanes (·.posPacket g.val bytes)))

/-- EVT (R340): A received EVT packet updates the CHIP unit, enters the parent's queue and is forwarded up. -/
def execEvt (g : Fin 3) (bytes : List Byte) (s : State) : Host.Outcome State Fault Refusal :=
  .next (s.act (·.onLanes (·.evtPacket g.val bytes)))

/-- AUD (R341): A received AUD packet is forwarded toward the host or delivered to a witness partner. -/
def execAud (g : Fin 3) (bytes : List Byte) (s : State) : Host.Outcome State Fault Refusal :=
  .next (s.act (·.onLanes (·.audPacket g.val bytes)))

/-- EVT_PERIODIC (R340): without other EVT for 1 ms the controller sends a periodic EVT. -/
def execEvtPeriodic (s : State) : Host.Outcome State Fault Refusal := .next (s.act (·.evtPeriodic))

/-- CHIP_EVT_TIMEOUT (R340): A CHIP unit without EVT for 5 ms reports OFFLINE. -/
def execChipEvtTimeout (c : Fin 256) (s : State) : Host.Outcome State Fault Refusal := .next (s.act (·.chipTimeout c.val))

/-- POS_SAMPLE (R343): every PERIOD_NS the summit samples WPOS and sends POS on each ACTIVE DOWN group. -/
def execPosSample (s : State) : Host.Outcome State Fault Refusal := .next (s.act (·.posSample))

/-- POS_TIMEOUT (R347): no good POS for TMO periods holds w and raises POS_LOST. -/
def execPosTimeout (s : State) : Host.Outcome State Fault Refusal := .next (s.act (·.posTimeout))

/-- MSPI_FRAME (R349): an MSPI frame between CS_N edges performs a CRC-checked WRITE or READ through UT window 6. -/
def execMspiFrame (bytes : List Byte) (answered : Bool) (s : State) : Host.Outcome State Fault Refusal :=
  .next (s.act (·.mspiFrame bytes answered))

/-- ETH_FRAME_RECEIVE (R358): A received Ethernet frame is filtered, timestamped, duplicate-checked and placed in the receive
ring. -/
def execEthFrameReceive (k : Fin 2) (bytes : List Byte) (fcsOk : Bool) (s : State) : Host.Outcome State Fault Refusal :=
  .next (s.act (·.onLanes (·.frameIn k.val bytes fcsOk)))

/-- ETH_FRAME_TRANSMIT (R357): A frame is sent in priority order on one or both ports with PRP trailer and optional egress
timestamp. -/
def execEthFrameTransmit (s : State) : Host.Outcome State Fault Refusal := .next (s.act (·.onLanes (·.frameOut)))

/-- PRP_SUPERVISION_TIMER (R357): every LIFE_MS a PRP supervision frame is sent on both ports. -/
def execPrpSupervisionTimer (s : State) : Host.Outcome State Fault Refusal := .next (s.act (·.supervision))

/-- PRP_ENTRY_EXPIRE (R358): A duplicate-table entry unused for 400 ms is forgotten. -/
def execPrpEntryExpire (i : Fin 128) (s : State) : Host.Outcome State Fault Refusal := .next (s.act (·.dupExpire i.val))

/-- ETH_LINK_CHANGE (R372): A port's link is lost or regained. -/
def execEthLinkChange (k : Fin 2) (up : Bool) (s : State) : Host.Outcome State Fault Refusal :=
  .next (s.act (·.onLanes (·.linkChange k.val up)))

/-- SET (R362): TN_CTRL.SET loads the timebase outside PRINT. -/
def execSetTime (m : Master) (w : Word) (s : State) : Host.Outcome State Fault Refusal :=
  .next (s.act (·.busWrite m.val Reg.TN_CTRL (command w [(F.TN_CTRL_SET, 1), (F.TN_CTRL_TX_KICK, 0), (F.TN_CTRL_RX_KICK, 0)])))

/-- TX_KICK (R355): TN_CTRL.TX_KICK restarts the transmit ring walk. -/
def execTxKick (m : Master) (w : Word) (s : State) : Host.Outcome State Fault Refusal :=
  .next (s.act (·.busWrite m.val Reg.TN_CTRL (command w [(F.TN_CTRL_TX_KICK, 1), (F.TN_CTRL_SET, 0), (F.TN_CTRL_RX_KICK, 0)])))

/-- RX_KICK (R355): TN_CTRL.RX_KICK restarts the receive ring walk. -/
def execRxKick (m : Master) (w : Word) (s : State) : Host.Outcome State Fault Refusal :=
  .next (s.act (·.busWrite m.val Reg.TN_CTRL (command w [(F.TN_CTRL_RX_KICK, 1), (F.TN_CTRL_SET, 0), (F.TN_CTRL_TX_KICK, 0)])))

/-- OFFSET_WRITE (R365): A write of TN_OFS_A or TN_OFS_B records an offset and runs a servo update for the steering domain. -/
def execOffsetWrite (m : Master) (domB : Bool) (w : Word) (s : State) : Host.Outcome State Fault Refusal :=
  .next (s.act (·.busWrite m.val (if domB then Reg.TN_OFS_B else Reg.TN_OFS_A) w))

/-- DOMAIN_HEALTH_TIMEOUT (R366): A domain without qualified offset for HEALTH_TMO becomes unhealthy, switching domain or
entering holdover. -/
def execDomainHealthTimeout (domB : Bool) (s : State) : Host.Outcome State Fault Refusal :=
  .next (s.act (·.healthTimeout domB))

/-- DOMAIN_REVERT (R366): domain A healthy for REVERT_HOLD while B steers takes steering back. -/
def execDomainRevert (s : State) : Host.Outcome State Fault Refusal := .next (s.act (·.domainRevert))

/-- BIAS_SLEW_STEP (R367): every 1 ms of timebase BIAS moves toward 0 by SLEW / 1,000 ns. -/
def execBiasSlewStep (s : State) : Host.Outcome State Fault Refusal := .next (s.act (·.biasStep))

/-- TN_CAP_READ (R370): A read of TN_CAP pops the oldest capture FIFO entry. -/
def execTnCapRead (m : Master) (s : State) : Host.Outcome State Fault Refusal := .next (s.act (·.busRead m.val Reg.TN_CAP))

/-- TN_TXTS_READ (R363): A read of TN_Pk_TXTS pops the oldest egress timestamp. -/
def execTnTxtsRead (m : Master) (k : Fin 2) (s : State) : Host.Outcome State Fault Refusal :=
  .next (s.act (·.busRead m.val (Reg.TN_Pk_TXTS k.val)))

end Sys2Proof.Machine
end

