-- ==== Sys2Proof/Machine/CmdMotion.lean ====
section
/-! DEFINITION. Commands of loops, motion and the memory fabric (11 to 13). Each command has a meaning of its own, over the operations of its
block. -/

namespace Sys2Proof.Machine

/-- LOOP_TICK (R254): every 20 µs inputs are sampled and due loop contexts run in order, abandoning any late run. -/
def execLoopTick (s : State) : Host.Outcome State Fault Refusal := .next (s.act (·.loopTick))

/-- AUTO (R264): LE_Cc_CTRL.AUTO requests AUTO for a context in MAN. -/
def execAuto (m : Master) (c : Fin 64) (w : Word) (s : State) : Host.Outcome State Fault Refusal :=
  .next (s.act (·.busWrite m.val (Reg.LE_Cc_CTRL c.val) (command w [(F.LE_Cc_CTRL_AUTO, 1), (F.LE_Cc_CTRL_MAN, 0)])))

/-- MAN (R264): LE_Cc_CTRL.MAN requests MAN for a context in AUTO, HOLDOUT or RAMP. -/
def execMan (m : Master) (c : Fin 64) (w : Word) (s : State) : Host.Outcome State Fault Refusal :=
  .next (s.act (·.busWrite m.val (Reg.LE_Cc_CTRL c.val) (command w [(F.LE_Cc_CTRL_MAN, 1), (F.LE_Cc_CTRL_AUTO, 0)])))

/-- MOVE (R275): MO_Aa_CMD MOVE starts or queues a move of an axis to its target. -/
def execMove (m : Master) (a : Fin 4) (w : Word) (s : State) : Host.Outcome State Fault Refusal :=
  .next (s.act (·.busWrite m.val (Reg.MO_Aa_CMD a.val) (command w [(F.MO_Aa_CMD_OP, 1)])))

/-- HOME (R283): MO_Aa_CMD HOME drives the axis into its hard stop and backs off. -/
def execHome (m : Master) (a : Fin 4) (w : Word) (s : State) : Host.Outcome State Fault Refusal :=
  .next (s.act (·.busWrite m.val (Reg.MO_Aa_CMD a.val) (command w [(F.MO_Aa_CMD_OP, 2)])))

/-- STOP (R284): MO_Aa_CMD STOP stops the axis and discards its queued move. -/
def execStop (m : Master) (a : Fin 4) (w : Word) (s : State) : Host.Outcome State Fault Refusal :=
  .next (s.act (·.busWrite m.val (Reg.MO_Aa_CMD a.val) (command w [(F.MO_Aa_CMD_OP, 3)])))

/-- ENABLE (R275): MO_Aa_CMD ENABLE enables the bridge at hold voltage. -/
def execEnable (m : Master) (a : Fin 4) (w : Word) (s : State) : Host.Outcome State Fault Refusal :=
  .next (s.act (·.busWrite m.val (Reg.MO_Aa_CMD a.val) (command w [(F.MO_Aa_CMD_OP, 4)])))

/-- DISABLE (R275): MO_Aa_CMD DISABLE drives outputs low and leaves the axis LOST. -/
def execDisable (m : Master) (a : Fin 4) (w : Word) (s : State) : Host.Outcome State Fault Refusal :=
  .next (s.act (·.busWrite m.val (Reg.MO_Aa_CMD a.val) (command w [(F.MO_Aa_CMD_OP, 5)])))

/-- PROFILE_TICK (R277): every 1 µs the profile generator advances jerk, acceleration, velocity and position, completing or
starting moves. -/
def execProfileTick (s : State) : Host.Outcome State Fault Refusal := .next (s.act (·.profileTick))

/-- PWM_PERIOD (R278): at each 40 kHz period the drive voltages are computed, currents sampled and stall counted. -/
def execPwmPeriod (a : Fin 4) (rawA rawB : Fin 4096) (s : State) : Host.Outcome State Fault Refusal :=
  .next (s.act (·.pwmPeriod a.val rawA.val rawB.val))

/-- LIMIT_SWITCH_EDGE (R282): A raw transition of a limit switch is counted for chatter. -/
def execLimitSwitchEdge (a : Fin 4) (hi : Bool) (s : State) : Host.Outcome State Fault Refusal :=
  .next (s.act (·.limitEdge a.val hi))

/-- LIMIT_SWITCH_ACCEPT (R281): A switch level stable for LIM_DB is accepted and may stop the axis. -/
def execLimitSwitchAccept (a : Fin 4) (hi level : Bool) (s : State) : Host.Outcome State Fault Refusal :=
  .next (s.act (·.limitAccept a.val hi level))

/-- CAP_SEQUENCE_NEXT_AXIS (R285): when one axis of the cap sequence ends, the next fitted axis is homed and moved to CAP_POS.
-/
def execCapSequenceNextAxis (s : State) : Host.Outcome State Fault Refusal := .next (s.act (·.capNext))

/-- MO_CMP_ARM (R287): A write of MO_CMPm_CTRL.ARM arms an axis compare. -/
def execMoCmpArm (m : Master) (k : Fin 8) (w : Word) (s : State) : Host.Outcome State Fault Refusal :=
  .next (s.act (·.busWrite m.val (Reg.MO_CMPm_CTRL k.val) (command w [(F.MO_CMPm_CTRL_ARM, 1)])))

/-- FABRIC_TRANSFER_REQUEST (R293): A requester presents a transfer, which is checked at decode and refused or made pending. -/
def execFabricTransferRequest (a : Fin 10) (r : Fin 12) (lane : Fin 16) (addr n : Nat) (write : Bool) (data : List Byte) (s : State) : Host.Outcome State Fault Refusal :=
  .next (s.act (·.fabricRequest a.val r.val lane.val addr n write data))

/-- ARB_SLOT_DECISION (R296): each slot an arbiter grants the slot by floor, panic, ownership, parking or rank, possibly
revoking. -/
def execArbSlotDecision (a : Fin 10) (reads : Fin 65) (camera : Fin 1025) (s : State) : Host.Outcome State Fault Refusal :=
  .next (s.act fun s => s.arbSlot a.val s.hstrLevel reads.val camera.val)

/-- FABRIC_TRANSFER_COMPLETE (R299): the last burst of a transfer arrives and its data become usable. -/
def execFabricTransferComplete (a : Fin 10) (r : Fin 12) (lane : Fin 16) (s : State) : Host.Outcome State Fault Refusal :=
  .next (s.act (·.fabricDone a.val r.val lane.val))

/-- DRAM_REFRESH_DUE (R312): at tREFI a REFab is issued, or postponed under panic up to eight. -/
def execDramRefreshDue (c : Fin 2) (s : State) : Host.Outcome State Fault Refusal := .next (s.act (·.refreshDue c.val))

/-- DRAM_MR4_READ (R312): every 16 ms MR4 is read to set the refresh rate. -/
def execDramMr4Read (c : Fin 2) (rate : Fin 8) (hot : Bool) (s : State) : Host.Outcome State Fault Refusal :=
  .next (s.act (·.mr4Read c.val rate.val hot))

/-- DRAM_TRACK_INTERVAL (R314): every INTERVAL ms a channel measures DQS drift and runs ZQ calibration, applied at the next
REFab. -/
def execDramTrackInterval (c : Fin 2) (osc : Fin 65536) (shift : Int) (s : State) : Host.Outcome State Fault Refusal :=
  .next (s.act (·.trackInterval c.val osc.val shift))

/-- WRITE_DRAIN_BATCH (R311): A write queue reaching 48 bursts starts a drain batch that runs until 16 remain. -/
def execWriteDrainBatch (c : Fin 2) (s : State) : Host.Outcome State Fault Refusal := .next (s.act (·.drainBatch c.val))

end Sys2Proof.Machine
end

