-- ==== Sys2Proof/Machine/CmdPrint.lean ====
section
/-! DEFINITION. Commands of composition, heads, firing, nozzle health, jobs and inspection (05 to 10). Each command has a meaning of its own, over the operations of its
block. -/

namespace Sys2Proof.Machine

/-- LINE_COMPOSE_DONE (R162): the head FIFO entries of a composed line are complete. -/
def execLineComposeDone (e : Fin 16) (cycles : Nat) (s : State) : Host.Outcome State Fault Refusal :=
  .next (s.act (·.composeDone e.val cycles))

/-- COMPOSE_DEADLINE (R16): A line whose composition is incomplete 100 ns after the next tick becomes a late line. -/
def execComposeDeadline (s : State) : Host.Outcome State Fault Refusal := .next (s.act (·.deadline))

/-- FRAME_SHIFT (R163): A bank starts shifting the frame of the next line on the first HPCLK edge at which its entries are
complete and the previous LAT has been issued. -/
def execFrameShift (b : Fin 16) (s : State) : Host.Outcome State Fault Refusal := .next (s.act (·.frameShift b.val))

/-- SHIFT_COMPLETE (R165): the last bit of a frame is shifted and its FIFO entry is freed. -/
def execShiftComplete (b : Fin 16) (s : State) : Host.Outcome State Fault Refusal := .next (s.act (·.shiftComplete b.val))

/-- LAT_ISSUE (R185): LAT of line L begins at the latest of tick + 40 ns, shift end + 20 ns and the end of the previous line's
pulses. -/
def execLatIssue (b : Fin 16) (s : State) : Host.Outcome State Fault Refusal := .next (s.act (·.latIssue b.val))

/-- LINE_FIRE (R183): at s_p(L) the port emits every burst of the line, placement is judged, and the line counts as fired. -/
def execLineFire (p : Fin 64) (s : State) : Host.Outcome State Fault Refusal := .next (s.act (·.lineFire p.val))

/-- WARMING_LINE (R196): in WARM and SERVICE the firing block issues a warming line on a bank at FE_BANKb_WARM.HZ. -/
def execWarmingLine (b : Fin 16) (s : State) : Host.Outcome State Fault Refusal := .next (s.act (·.warmingLine b.val))

/-- SPIT_LINE (R215): A running spit profile issues its next spit line at its rate. -/
def execSpitLine (p : Fin 64) (s : State) : Host.Outcome State Fault Refusal := .next (s.act (·.spitLine p.val))

/-- CFG_SEND (R167): HP_CTRL.CFG_SEND sends CONFIG frames to every READY port outside PRINT. -/
def execCfgSend (m : Master) (w : Word) (s : State) : Host.Outcome State Fault Refusal :=
  .next (s.act (·.busWrite m.val Reg.HP_CTRL (command w [(F.HP_CTRL_CFG_SEND, 1), (F.HP_CTRL_GATE_CLEAR, 0)])))

/-- GATE_CLEAR (R176): HP_CTRL.GATE_CLEAR clears every cut latch whose input is deasserted. -/
def execGateClear (m : Master) (w : Word) (s : State) : Host.Outcome State Fault Refusal :=
  .next (s.act (·.busWrite m.val Reg.HP_CTRL (command w [(F.HP_CTRL_GATE_CLEAR, 1), (F.HP_CTRL_CFG_SEND, 0)])))

/-- HEAD_RETURN_FRAME (R169): A return frame from a head is received and checked, and a STATUS or IDENT frame is applied. -/
def execHeadReturnFrame (p : Fin 64) (bytes : List Byte) (s : State) : Host.Outcome State Fault Refusal :=
  .next (s.act fun s => (s.returnFrame p.val bytes).testHead p.val bytes)

/-- HEAD_ABSENT_TIMEOUT (R171): HP_RET held low for ABSENT_US moves the port to ABSENT. -/
def execHeadAbsentTimeout (p : Fin 64) (s : State) : Host.Outcome State Fault Refusal := .next (s.act (·.headAbsent p.val))

/-- HEAD_STALE_TIMEOUT (R171): no good STATUS frame for STALE_US takes a READY port out of READY. -/
def execHeadStaleTimeout (p : Fin 64) (s : State) : Host.Outcome State Fault Refusal := .next (s.act (·.headStale p.val))

/-- GATE_INPUT_ASSERT (R175): A gate input held asserted beyond its filter sets its cut latch and forces FIRE of the masked
ports low within 200 ns. -/
def execGateInputAssert (g : Fin 9) (s : State) : Host.Outcome State Fault Refusal := .next (s.actPin (·.gateAssert g.val))

/-- GATE_INPUT_DEASSERT (R176): A gate input returns to its deasserted level while its latch stays set. -/
def execGateInputDeassert (g : Fin 9) (s : State) : Host.Outcome State Fault Refusal := .next (s.actPin (·.gateDeassert g.val))

/-- NOZZLE_RECORD_WRITE (R199): A write to the word at offset 0 of a nozzle record requests a STATE or POLICY change through
the commit queue. -/
def execNozzleRecordWrite (m : Master) (i : Fin 131072) (w : Word) (s : State) : Host.Outcome State Fault Refusal :=
  .next (s.act (·.busWrite m.val (0x1000000 + 32 * i.val) w))

/-- MAP_STAGING_START (R207): staging of the map copy for commit C begins once the previous commit line has fired. -/
def execMapStagingStart (s : State) : Host.Outcome State Fault Refusal := .next (s.act (·.stageStart))

/-- MAP_STAGING_COMPLETE (R207): the map copy for a commit is fully staged. -/
def execMapStagingComplete (s : State) : Host.Outcome State Fault Refusal := .next (s.act (·.stageDone))

/-- NH_SWEEP (R200): the sweep visits records and flushes fire-count accumulators into FIRE_COUNT at least every 2 s. -/
def execNhSweep (s : State) : Host.Outcome State Fault Refusal := .next (s.act (·.sweep))

/-- NH_SHADOW_WRITE (R201): A changed nozzle record is written to the DRAM shadow within 2 s. -/
def execNhShadowWrite (i : Fin 131072) (s : State) : Host.Outcome State Fault Refusal := .next (s.act (·.shadowWrite i.val))

/-- RESTORE (R202): NH_CTRL.RESTORE copies the shadow records of a port into the table if the head matches. -/
def execRestore (m : Master) (w : Word) (s : State) : Host.Outcome State Fault Refusal :=
  .next (s.act (·.busWrite m.val Reg.NH_CTRL (command w [(F.NH_CTRL_RESTORE, 1)])))

/-- EVIDENCE_RECORD_APPLY (R210): A column evidence record is attributed to the nozzle that served at its epoch, updates its
runs and may queue WEAK or DEAD. -/
def execEvidenceRecordApply (s : State) : Host.Outcome State Fault Refusal := .next (s.act (·.evidence))

/-- GATE_SCAN_START (R212): NH_GATE_CTRL.START begins a drop-gate scan in SERVICE. -/
def execGateScanStart (m : Master) (w : Word) (s : State) : Host.Outcome State Fault Refusal :=
  .next (s.act (·.busWrite m.val Reg.NH_GATE_CTRL (command w [(F.NH_GATE_CTRL_START, 1), (F.NH_GATE_CTRL_ABORT, 0)])))

/-- GATE_SCAN_ABORT (R214): NH_GATE_CTRL.ABORT stops the scan and commits the results already classified. -/
def execGateScanAbort (m : Master) (w : Word) (s : State) : Host.Outcome State Fault Refusal :=
  .next (s.act (·.busWrite m.val Reg.NH_GATE_CTRL (command w [(F.NH_GATE_CTRL_ABORT, 1), (F.NH_GATE_CTRL_START, 0)])))

/-- GATE_SCAN_SETTLE_DONE (R212): SETTLE_US after a carriage move the scan starts firing shots at the position. -/
def execGateScanSettleDone (levelA levelB : Fin 1024) (s : State) : Host.Outcome State Fault Refusal :=
  .next (s.act (·.gateSettled levelA.val levelB.val))

/-- GATE_SHOT (R213): A drop-gate shot fires one nozzle and is timed at both beams, classifying the nozzle after its last shot.
-/
def execGateShot (ta tb : Option Nat) (s : State) : Host.Outcome State Fault Refusal := .next (s.act (·.gateShot ta tb))

/-- DECAP_TIMER_EXPIRE (R215): A port's decap timer reaching DECAP_MS runs spit profile 0 or raises DECAP_DUE. -/
def execDecapTimerExpire (p : Fin 64) (s : State) : Host.Outcome State Fault Refusal := .next (s.act (·.decapExpire p.val))

/-- JOB_LOAD (R114): JS_CTRL.LOAD copies and checks a job descriptor and imposition into the slot. -/
def execJobLoad (m : Master) (w : Word) (s : State) : Host.Outcome State Fault Refusal :=
  .next (s.act (·.busWrite m.val Reg.JS_CTRL (command w [(F.JS_CTRL_LOAD, 1), (F.JS_CTRL_ARM, 0), (F.JS_CTRL_UNLOAD, 0)])))

/-- JOB_ARM (R107): JS_CTRL.ARM makes a loaded job the current job or the next job at a boundary. -/
def execJobArm (m : Master) (w : Word) (s : State) : Host.Outcome State Fault Refusal :=
  .next (s.act (·.busWrite m.val Reg.JS_CTRL (command w [(F.JS_CTRL_ARM, 1), (F.JS_CTRL_LOAD, 0), (F.JS_CTRL_UNLOAD, 0)])))

/-- JOB_UNLOAD (R106): JS_CTRL.UNLOAD empties a job slot within the permitted states. -/
def execJobUnload (m : Master) (w : Word) (s : State) : Host.Outcome State Fault Refusal :=
  .next (s.act (·.busWrite m.val Reg.JS_CTRL (command w [(F.JS_CTRL_UNLOAD, 1), (F.JS_CTRL_LOAD, 0), (F.JS_CTRL_ARM, 0)])))

/-- OPEN (R110): JS_PLATE_CMD OPEN takes an EMPTY plate slot to LOADING. -/
def execPlateOpen (m : Master) (w : Word) (s : State) : Host.Outcome State Fault Refusal :=
  .next (s.act (·.busWrite m.val Reg.JS_PLATE_CMD (command w [(F.JS_PLATE_CMD_OP, 1)])))

/-- SEAL (R110): JS_PLATE_CMD SEAL takes a fully filled LOADING slot to READY. -/
def execPlateSeal (m : Master) (w : Word) (s : State) : Host.Outcome State Fault Refusal :=
  .next (s.act (·.busWrite m.val Reg.JS_PLATE_CMD (command w [(F.JS_PLATE_CMD_OP, 2)])))

/-- FREE (R110): JS_PLATE_CMD FREE returns an unmapped plate slot to EMPTY. -/
def execPlateFree (m : Master) (w : Word) (s : State) : Host.Outcome State Fault Refusal :=
  .next (s.act (·.busWrite m.val Reg.JS_PLATE_CMD (command w [(F.JS_PLATE_CMD_OP, 3)])))

/-- RING_WP_WRITE (R117): A write of JS_JOBs_RING_WP publishes records and re-evaluates the render conditions. -/
def execRingWpWrite (m : Master) (j : Fin 2) (w : Word) (s : State) : Host.Outcome State Fault Refusal :=
  .next (s.act (·.busWrite m.val (Reg.JS_JOBs_RING_WP j.val) w))

/-- RENDER_INSTANCE_BEGIN (R119): once its four conditions hold, the renderer begins cell-row instance j into its tile buffer.
-/
def execRenderInstanceBegin (j : Fin 2) (s : State) : Host.Outcome State Fault Refusal := .next (s.act (·.renderBegin j.val))

/-- RENDER_INSTANCE_DONE (R117): the renderer finishes instance j, advances RP and hands serials to AU. -/
def execRenderInstanceDone (s : State) : Host.Outcome State Fault Refusal := .next (s.act (·.renderDone))

/-- LINE_RING_FILL (R121): the compositor starts copying the covered words of bar line L once its entry is free and its
instances are rendered. -/
def execLineRingFill (s : State) : Host.Outcome State Fault Refusal := .next (s.act (·.lringFill))

/-- LINE_RING_ENTRY_DONE (R121): the copy of a line ring entry completes. -/
def execLineRingEntryDone (s : State) : Host.Outcome State Fault Refusal := .next (s.act (·.lringDone))

/-- IN_ENABLE (R227): A write of IN_CTRL.EN enables inspection after its rule checks, or disables it and erases the inspection
key. -/
def execInEnable (m : Master) (w : Word) (s : State) : Host.Outcome State Fault Refusal :=
  .next (s.act (·.busWrite m.val Reg.IN_CTRL w))

/-- IN_TAB_DATA_WRITE (R232): A write of IN_TAB_DATA stores a DARK, GAIN, CURVE or TONE entry, refused for a bank in use. -/
def execInTabDataWrite (m : Master) (w : Word) (s : State) : Host.Outcome State Fault Refusal :=
  .next (s.act (·.busWrite m.val Reg.IN_TAB_DATA w))

/-- IN_BANK_WRITE (R232): A write of IN_SEGk_BANKb sets SET_ID, KNEE, BLEND_SH or VALID, refused for a bank in use. -/
def execInBankWrite (m : Master) (k : Fin 16) (b : Fin 2) (w : Word) (s : State) : Host.Outcome State Fault Refusal :=
  .next (s.act (·.busWrite m.val (bankReg k.val b.val) w))

/-- CSI_PACKET (R224): A CSI-2 packet is received, ECC- and CRC-checked, and handled as frame start, frame end, embedded data
or pixel line. -/
def execCsiPacket (n : Fin 2) (di : Byte) (wc : BitVec 16) (ecc : Byte) (payload : List Byte) (crc : BitVec 16) (fits : Bool)
    (s : State) : Host.Outcome State Fault Refusal :=
  .next (s.act fun s =>
    { s with sys := { s.sys with stopped := s.sys.stopped.filter (· ≠ Domain.csi n.val) } }.csiPacket n.val fits
      (csiWire di wc ecc payload crc))

/-- MERGED_LINE_CLOSE (R237): A ready merged line closes when all segments have delivered or its deadline passes, and is
compared and written. -/
def execMergedLineClose (s : State) : Host.Outcome State Fault Refusal := .next (s.act (·.mergedClose))

/-- EXPECTED_LINE_COMPUTE (R240): when merged line v+1 is ready, the expected image of line v is computed into the expected
ring. -/
def execExpectedLineCompute (s : State) : Host.Outcome State Fault Refusal := .next (s.act (·.expectedLine))

/-- SYMBOL_VERIFY (R243): INSP reads the module interiors of a closed symbol and judges it. -/
def execSymbolVerify (s : State) : Host.Outcome State Fault Refusal := .next (s.act (·.symbolVerify))

/-- TICKET_VERDICT (R247): A ticket whose lines have closed and symbols are judged receives its verdict, sent to AU. -/
def execTicketVerdict (s : State) : Host.Outcome State Fault Refusal := .next (s.act (·.ticketVerdict))

/-- CLOSE_TIMEOUT (R248): A ticket still open CLOSE_TMO ms after leaving PRINT closes as UNVERIFIED with TIMEOUT. -/
def execCloseTimeout (s : State) : Host.Outcome State Fault Refusal := .next (s.act (·.closeTimeout))

/-- IN_EXPORT_START (R251): IN_XP_CTRL.START exports camera ring lines to the compressor with payload pixels masked. -/
def execInExportStart (m : Master) (w : Word) (s : State) : Host.Outcome State Fault Refusal :=
  .next (s.act (·.busWrite m.val Reg.IN_XP_CTRL (command w [(F.IN_XP_CTRL_START, 1)])))

end Sys2Proof.Machine
end

