-- ==== Sys2Proof/Machine/CmdSystem.lean ====
section
/-! DEFINITION. Commands of resets, modes, the unit tree, reloads and web position (02 to 04, 18, 21). Each command has a meaning of its own, over the operations of its
block. -/

namespace Sys2Proof.Machine

/-- POWER_ON_RESET (R482): supplies rising through their thresholds, or RESET_N held low for at least 1 µs, clear everything,
hold FIRE low and lead to BOOT. -/
def execPowerOnReset (pin : Bool) (s : State) : Host.Outcome State Fault Refusal := .next (s.powerOnReset pin)

/-- SUPPLY_BROWNOUT (R492): A monitored rail below its threshold for longer than 1 µs applies a power-on reset. -/
def execSupplyBrownout (s : State) : Host.Outcome State Fault Refusal := .next (s.supplyBrownout)

/-- VDDIO5_LOSS (R492): VDDIO5 falling below 1.5 V after reset release makes every gate input count as asserted and sets the
cut latches. -/
def execVddio5Loss (s : State) : Host.Outcome State Fault Refusal := .next (s.actPin (·.vddio5Loss))

/-- RESET_COLD (R483): A write of SYS_RST with KEY 0x5A and COLD set applies a cold reset after any flash program or erase in
progress. -/
def execResetCold (m : Master) (w : Word) (s : State) : Host.Outcome State Fault Refusal :=
  .next (s.act (·.busWrite m.val Reg.SYS_RST (command w [(F.SYS_RST_KEY, 0x5A), (F.SYS_RST_COLD, 1)])))

/-- RESET_WARM (R483): A write of SYS_RST with KEY 0x5A and only WARM set applies a warm reset, the only firmware exit from
TEST. -/
def execResetWarm (m : Master) (w : Word) (s : State) : Host.Outcome State Fault Refusal :=
  .next (s.act (·.busWrite m.val Reg.SYS_RST (command w [(F.SYS_RST_KEY, 0x5A), (F.SYS_RST_COLD, 0), (F.SYS_RST_WARM, 1)])))

/-- SWI (R484): A write of SYS_SWI sets the software interrupt pending on the named cores. -/
def execSwi (m : Master) (w : Word) (s : State) : Host.Outcome State Fault Refusal :=
  .next (s.act (·.busWrite m.val Reg.SYS_SWI w))

/-- BOOT_SEQUENCE (R418): after reset release the security core reads fuses and directory, chooses and checks a slot, trains
DRAM, loads code, settings and the structure image, and completes BOOT to IDLE. -/
def execBootSequence (env : BootEnv) (s : State) : Host.Outcome State Fault Refusal := .next (s.act (·.bootSequence env))

/-- MODE_REQUEST (R433): A write of SYS_MODE_REQ requests a mode, and is accepted or refused with a reason under the transition
table. -/
def execModeRequest (m : Master) (w : Word) (s : State) : Host.Outcome State Fault Refusal :=
  .next (s.act (·.busWrite m.val Reg.SYS_MODE_REQ w))

/-- MODE_TRANSITION_EFFECT (R29): an accepted transition takes effect once its waited-for condition holds: cap slide, in-band
loops, tick, cell row boundary, sequence end or AT_CAP. -/
def execModeTransitionEffect (serviceEnded : Bool) (s : State) : Host.Outcome State Fault Refusal :=
  .next (s.act (·.modeEffect serviceEnded))

/-- MODE_TIMEOUT (R435): A transition waiting for cap slide, loops or axes longer than SYS_MODE_TMO is cancelled and raises
MODE_TIMEOUT. -/
def execModeTimeout (s : State) : Host.Outcome State Fault Refusal := .next (s.act (·.modeTimeout))

/-- UT_SEL_WRITE (R55): A write to UT_SEL starts a snapshot of the selected unit, local or forwarded to another controller. -/
def execUtSelWrite (m : Master) (w : Word) (s : State) : Host.Outcome State Fault Refusal :=
  .next (s.act (·.busWrite m.val (Reg.UT_SEL m.val) w))

/-- UT_SNAPSHOT_TIMEOUT (R55): A remote snapshot without answer for 100 µs completes with VALID 0 and zero fields. -/
def execUtSnapshotTimeout (win : Master) (s : State) : Host.Outcome State Fault Refusal :=
  .next (s.act (·.snapTimeout win.val))

/-- SET_ENABLE (R45): the command sets the own enable of the addressed unit, taking effect at the next tick or at a commit
position in PRINT. -/
def execSetEnable (m : Master) (s : State) : Host.Outcome State Fault Refusal :=
  .next (s.act (·.busWrite m.val (Reg.UT_CMD m.val) 0x01))

/-- SET_DELAY (R45): the command sets LDELAY and SLDELAY of the addressed unit after range checks over every affected unit. -/
def execSetDelay (m : Master) (s : State) : Host.Outcome State Fault Refusal :=
  .next (s.act (·.busWrite m.val (Reg.UT_CMD m.val) 0x02))

/-- SET_TRIM (R45): the command sets the energy trim class of the addressed unit, effective from the next line. -/
def execSetTrim (m : Master) (s : State) : Host.Outcome State Fault Refusal :=
  .next (s.act (·.busWrite m.val (Reg.UT_CMD m.val) 0x03))

/-- CLEAR_STATUS (R45): the broadcast clears latched WARN and VOID on every unit of the subtree whose cause has ended. -/
def execClearStatus (m : Master) (s : State) : Host.Outcome State Fault Refusal :=
  .next (s.act (·.busWrite m.val (Reg.UT_CMD m.val) 0x10))

/-- CLEAR_COUNTERS (R45): the broadcast clears the three counters of every unit of the subtree. -/
def execClearCounters (m : Master) (s : State) : Host.Outcome State Fault Refusal :=
  .next (s.act (·.busWrite m.val (Reg.UT_CMD m.val) 0x11))

/-- RELEASE (R45): the broadcast releases PORT units in HOLD whose cause has ended. -/
def execRelease (m : Master) (s : State) : Host.Outcome State Fault Refusal :=
  .next (s.act (·.busWrite m.val (Reg.UT_CMD m.val) 0x12))

/-- SPIT (R45): the broadcast runs the given spit profile on the PORT units of the subtree. -/
def execSpit (m : Master) (s : State) : Host.Outcome State Fault Refusal :=
  .next (s.act (·.busWrite m.val (Reg.UT_CMD m.val) 0x13))

/-- IDENTIFY (R45): the broadcast re-reads head identity on the PORT units of the subtree and sends CONFIG frames. -/
def execIdentify (m : Master) (s : State) : Host.Outcome State Fault Refusal :=
  .next (s.act (·.busWrite m.val (Reg.UT_CMD m.val) 0x14))

/-- UT_CMD_COMPLETE (R50): an accepted command finishes its subtree walk or takes effect at its commit, setting DONE and
updating dome status. -/
def execUtCmdComplete (s : State) : Host.Outcome State Fault Refusal := .next (s.act (·.utComplete))

/-- UT_FORWARD_TIMEOUT (R50): A forwarded command without completion within 100 µs ends with LINK. -/
def execUtForwardTimeout (s : State) : Host.Outcome State Fault Refusal := .next (s.act (·.forwardTimeout))

/-- SI_RELOAD_START (R73): A write of BU_SI_CTRL.START begins verification of a staged partial image in SERVICE or PRINT. -/
def execSiReloadStart (m : Master) (s : State) : Host.Outcome State Fault Refusal :=
  .next (s.act (·.busWrite m.val Reg.BU_SI_CTRL (command 0 [(F.BU_SI_CTRL_START, 1)])))

/-- SI_RELOAD_ABORT (R76): A write of BU_SI_CTRL.ABORT aborts a reload in VERIFY or PENDING. -/
def execSiReloadAbort (m : Master) (s : State) : Host.Outcome State Fault Refusal :=
  .next (s.act (·.busWrite m.val Reg.BU_SI_CTRL (command 0 [(F.BU_SI_CTRL_ABORT, 1)])))

/-- SI_VERIFY_DONE (R74): end of verification loads shadow tables, then activates at once in SERVICE or sets activation line A
in PRINT. -/
def execSiVerifyDone (s : State) : Host.Outcome State Fault Refusal := .next (s.act (·.verifyDone))

/-- ENCODER_LEVEL_ACCEPT (R80): A filtered encoder input level is accepted and stepped into the count, updating U, WPOS,
direction, index and compares. -/
def execEncoderLevelAccept (ch : Fin 2) (a b z : Bool) (s : State) : Host.Outcome State Fault Refusal :=
  .next (s.actPin (·.levels ch.val a b z))

/-- ENC_WIRE_TIMEOUT (R79): both legs of a pair at one level for longer than WIRE_T raise ENC_WIRE. -/
def execEncWireTimeout (ch : Fin 2) (sig : Fin 3) (s : State) : Host.Outcome State Fault Refusal :=
  .next (s.act (·.wireFault ch.val sig.val))

/-- SSI_FRAME_START (R83): every PERIOD × 100 ns, once the line has been idle for MONO, the controller clocks an SSI frame from
the encoder. -/
def execSsiFrameStart (ch : Fin 2) (s : State) : Host.Outcome State Fault Refusal := .next (s.act (·.ssiStart ch.val))

/-- SSI_FRAME_DONE (R84): A received SSI frame is checked, Gray-decoded and turned into a Δ, or discarded with SSI_PARITY,
SSI_LOST or SSI_JUMP. -/
def execSsiFrameDone (ch : Fin 2) (bits : BitVec 40) (s : State) : Host.Outcome State Fault Refusal :=
  .next (s.act (·.ssiDone ch.val bits.toNat))

/-- SSI_COUNT_ISSUE (R85): one count of a good SSI Δ is issued after its spacing interval. -/
def execSsiCountIssue (ch : Fin 2) (s : State) : Host.Outcome State Fault Refusal := .next (s.act (·.ssiIssue ch.val))

/-- WP_CPR_WRITE (R88): A write of WP_CHk_CPR is accepted in IDLE, SERVICE and TEST and wraps CNT into the new range. -/
def execWpCprWrite (m : Master) (ch : Fin 2) (w : Word) (s : State) : Host.Outcome State Fault Refusal :=
  .next (s.act (·.busWrite m.val (Reg.WP_CHk_CPR ch.val) w))

/-- ARM (R90): WP_CTRL.ARM latches u0, b and LINE_RATIO and sets HWM from WP_ARM_POS. -/
def execArm (m : Master) (w : Word) (s : State) : Host.Outcome State Fault Refusal :=
  .next (s.act (·.busWrite m.val Reg.WP_CTRL (command w [(F.WP_CTRL_ARM, 1), (F.WP_CTRL_ZLATCH, 0)])))

/-- ZLATCH (R87): WP_CTRL.ZLATCH sets CNT to Z_POS at the next index event, outside PRINT. -/
def execZlatch (m : Master) (w : Word) (s : State) : Host.Outcome State Fault Refusal :=
  .next (s.act (·.busWrite m.val Reg.WP_CTRL (command w [(F.WP_CTRL_ZLATCH, 1), (F.WP_CTRL_ARM, 0)])))

/-- SRC (R91): A write of WP_CTRL.SRC selects ENC0, ENC1 or ROPE as position source. -/
def execSrc (m : Master) (w : Word) (s : State) : Host.Outcome State Fault Refusal :=
  .next (s.act (·.busWrite m.val Reg.WP_CTRL (command w [(F.WP_CTRL_ARM, 0), (F.WP_CTRL_ZLATCH, 0)])))

/-- PRESS_HOLD_RELEASE (R97): once the web is RUNUP lines back and data for HWM+1 are ready, PRESS_HOLD_N is released. -/
def execPressHoldRelease (s : State) : Host.Outcome State Fault Refusal := .next (s.act (·.pressRelease))

/-- BACKUP_TIMEOUT (R98): PRESS_HOLD_N low longer than WP_BACKUP_TMO raises BACKUP_TIMEOUT. -/
def execBackupTimeout (s : State) : Host.Outcome State Fault Refusal := .next (s.act (·.backupTimeout))

/-- CMP_ARM (R101): A write of WP_CMPk_CTRL.ARM arms a crossing compare, or marks it behind. -/
def execCmpArm (m : Master) (k : Fin 8) (w : Word) (s : State) : Host.Outcome State Fault Refusal :=
  .next (s.act (·.busWrite m.val (Reg.WP_CMPk_CTRL k.val) (command w [(F.WP_CMPk_CTRL_ARM, 1)])))

/-- PT_OUTPUT_STEP (R104): A RESYNTH pass-through output steps one quadrature state toward Q, at most once per 20 ns. -/
def execPtOutputStep (ch : Fin 2) (s : State) : Host.Outcome State Fault Refusal := .next (s.act (·.ptStep ch.val))

end Sys2Proof.Machine
end

