-- ==== Sys2Proof/Machine/Dispatch.lean ====
section
/-! DEFINITION. One arm per command: a direct call of its meaning. -/

namespace Sys2Proof.Machine

/-- The effect of a command on everything but the queue. -/
def exec (i : Instr) (s : State) : Host.Outcome State Fault Refusal :=
  match i with
  | .registerWrite m addr width data => Sys2Proof.Machine.execRegisterWrite m addr width data s
  | .powerOnReset pin => Sys2Proof.Machine.execPowerOnReset pin s
  | .supplyBrownout => Sys2Proof.Machine.execSupplyBrownout s
  | .vddio5Loss => Sys2Proof.Machine.execVddio5Loss s
  | .resetCold m w => Sys2Proof.Machine.execResetCold m w s
  | .resetWarm m w => Sys2Proof.Machine.execResetWarm m w s
  | .swi m w => Sys2Proof.Machine.execSwi m w s
  | .bootSequence env => Sys2Proof.Machine.execBootSequence env s
  | .modeRequest m w => Sys2Proof.Machine.execModeRequest m w s
  | .modeTransitionEffect serviceEnded => Sys2Proof.Machine.execModeTransitionEffect serviceEnded s
  | .modeTimeout => Sys2Proof.Machine.execModeTimeout s
  | .utSelWrite m w => Sys2Proof.Machine.execUtSelWrite m w s
  | .utSnapshotTimeout win => Sys2Proof.Machine.execUtSnapshotTimeout win s
  | .setEnable m => Sys2Proof.Machine.execSetEnable m s
  | .setDelay m => Sys2Proof.Machine.execSetDelay m s
  | .setTrim m => Sys2Proof.Machine.execSetTrim m s
  | .clearStatus m => Sys2Proof.Machine.execClearStatus m s
  | .clearCounters m => Sys2Proof.Machine.execClearCounters m s
  | .release m => Sys2Proof.Machine.execRelease m s
  | .spit m => Sys2Proof.Machine.execSpit m s
  | .identify m => Sys2Proof.Machine.execIdentify m s
  | .utCmdComplete => Sys2Proof.Machine.execUtCmdComplete s
  | .utForwardTimeout => Sys2Proof.Machine.execUtForwardTimeout s
  | .siReloadStart m => Sys2Proof.Machine.execSiReloadStart m s
  | .siReloadAbort m => Sys2Proof.Machine.execSiReloadAbort m s
  | .siVerifyDone => Sys2Proof.Machine.execSiVerifyDone s
  | .encoderLevelAccept ch a b z => Sys2Proof.Machine.execEncoderLevelAccept ch a b z s
  | .encWireTimeout ch sig => Sys2Proof.Machine.execEncWireTimeout ch sig s
  | .ssiFrameStart ch => Sys2Proof.Machine.execSsiFrameStart ch s
  | .ssiFrameDone ch bits => Sys2Proof.Machine.execSsiFrameDone ch bits s
  | .ssiCountIssue ch => Sys2Proof.Machine.execSsiCountIssue ch s
  | .wpCprWrite m ch w => Sys2Proof.Machine.execWpCprWrite m ch w s
  | .arm m w => Sys2Proof.Machine.execArm m w s
  | .zlatch m w => Sys2Proof.Machine.execZlatch m w s
  | .src m w => Sys2Proof.Machine.execSrc m w s
  | .pressHoldRelease => Sys2Proof.Machine.execPressHoldRelease s
  | .backupTimeout => Sys2Proof.Machine.execBackupTimeout s
  | .cmpArm m k w => Sys2Proof.Machine.execCmpArm m k w s
  | .ptOutputStep ch => Sys2Proof.Machine.execPtOutputStep ch s
  | .lineComposeDone e cycles => Sys2Proof.Machine.execLineComposeDone e cycles s
  | .composeDeadline => Sys2Proof.Machine.execComposeDeadline s
  | .frameShift b => Sys2Proof.Machine.execFrameShift b s
  | .shiftComplete b => Sys2Proof.Machine.execShiftComplete b s
  | .latIssue b => Sys2Proof.Machine.execLatIssue b s
  | .lineFire p => Sys2Proof.Machine.execLineFire p s
  | .warmingLine b => Sys2Proof.Machine.execWarmingLine b s
  | .spitLine p => Sys2Proof.Machine.execSpitLine p s
  | .cfgSend m w => Sys2Proof.Machine.execCfgSend m w s
  | .gateClear m w => Sys2Proof.Machine.execGateClear m w s
  | .headReturnFrame p bytes => Sys2Proof.Machine.execHeadReturnFrame p bytes s
  | .headAbsentTimeout p => Sys2Proof.Machine.execHeadAbsentTimeout p s
  | .headStaleTimeout p => Sys2Proof.Machine.execHeadStaleTimeout p s
  | .gateInputAssert g => Sys2Proof.Machine.execGateInputAssert g s
  | .gateInputDeassert g => Sys2Proof.Machine.execGateInputDeassert g s
  | .nozzleRecordWrite m n0 w => Sys2Proof.Machine.execNozzleRecordWrite m n0 w s
  | .mapStagingStart => Sys2Proof.Machine.execMapStagingStart s
  | .mapStagingComplete => Sys2Proof.Machine.execMapStagingComplete s
  | .nhSweep => Sys2Proof.Machine.execNhSweep s
  | .nhShadowWrite n0 => Sys2Proof.Machine.execNhShadowWrite n0 s
  | .restore m w => Sys2Proof.Machine.execRestore m w s
  | .evidenceRecordApply => Sys2Proof.Machine.execEvidenceRecordApply s
  | .gateScanStart m w => Sys2Proof.Machine.execGateScanStart m w s
  | .gateScanAbort m w => Sys2Proof.Machine.execGateScanAbort m w s
  | .gateScanSettleDone levelA levelB => Sys2Proof.Machine.execGateScanSettleDone levelA levelB s
  | .gateShot ta tb => Sys2Proof.Machine.execGateShot ta tb s
  | .decapTimerExpire p => Sys2Proof.Machine.execDecapTimerExpire p s
  | .jobLoad m w => Sys2Proof.Machine.execJobLoad m w s
  | .jobArm m w => Sys2Proof.Machine.execJobArm m w s
  | .jobUnload m w => Sys2Proof.Machine.execJobUnload m w s
  | .plateOpen m w => Sys2Proof.Machine.execPlateOpen m w s
  | .plateSeal m w => Sys2Proof.Machine.execPlateSeal m w s
  | .plateFree m w => Sys2Proof.Machine.execPlateFree m w s
  | .ringWpWrite m j w => Sys2Proof.Machine.execRingWpWrite m j w s
  | .renderInstanceBegin j => Sys2Proof.Machine.execRenderInstanceBegin j s
  | .renderInstanceDone => Sys2Proof.Machine.execRenderInstanceDone s
  | .lineRingFill => Sys2Proof.Machine.execLineRingFill s
  | .lineRingEntryDone => Sys2Proof.Machine.execLineRingEntryDone s
  | .inEnable m w => Sys2Proof.Machine.execInEnable m w s
  | .inTabDataWrite m w => Sys2Proof.Machine.execInTabDataWrite m w s
  | .inBankWrite m k b w => Sys2Proof.Machine.execInBankWrite m k b w s
  | .csiPacket n di wc ecc payload crc fits => Sys2Proof.Machine.execCsiPacket n di wc ecc payload crc fits s
  | .mergedLineClose => Sys2Proof.Machine.execMergedLineClose s
  | .expectedLineCompute => Sys2Proof.Machine.execExpectedLineCompute s
  | .symbolVerify => Sys2Proof.Machine.execSymbolVerify s
  | .ticketVerdict => Sys2Proof.Machine.execTicketVerdict s
  | .closeTimeout => Sys2Proof.Machine.execCloseTimeout s
  | .inExportStart m w => Sys2Proof.Machine.execInExportStart m w s
  | .loopTick => Sys2Proof.Machine.execLoopTick s
  | .auto m c w => Sys2Proof.Machine.execAuto m c w s
  | .man m c w => Sys2Proof.Machine.execMan m c w s
  | .move m a w => Sys2Proof.Machine.execMove m a w s
  | .home m a w => Sys2Proof.Machine.execHome m a w s
  | .stop m a w => Sys2Proof.Machine.execStop m a w s
  | .enable m a w => Sys2Proof.Machine.execEnable m a w s
  | .disable m a w => Sys2Proof.Machine.execDisable m a w s
  | .profileTick => Sys2Proof.Machine.execProfileTick s
  | .pwmPeriod a rawA rawB => Sys2Proof.Machine.execPwmPeriod a rawA rawB s
  | .limitSwitchEdge a hi => Sys2Proof.Machine.execLimitSwitchEdge a hi s
  | .limitSwitchAccept a hi level => Sys2Proof.Machine.execLimitSwitchAccept a hi level s
  | .capSequenceNextAxis => Sys2Proof.Machine.execCapSequenceNextAxis s
  | .moCmpArm m k w => Sys2Proof.Machine.execMoCmpArm m k w s
  | .fabricTransferRequest a r lane addr n write data => Sys2Proof.Machine.execFabricTransferRequest a r lane addr n write data s
  | .arbSlotDecision a reads camera => Sys2Proof.Machine.execArbSlotDecision a reads camera s
  | .fabricTransferComplete a r lane => Sys2Proof.Machine.execFabricTransferComplete a r lane s
  | .dramRefreshDue c => Sys2Proof.Machine.execDramRefreshDue c s
  | .dramMr4Read c rate hot => Sys2Proof.Machine.execDramMr4Read c rate hot s
  | .dramTrackInterval c osc shift => Sys2Proof.Machine.execDramTrackInterval c osc shift s
  | .writeDrainBatch c => Sys2Proof.Machine.execWriteDrainBatch c s
  | .enumStart m w => Sys2Proof.Machine.execEnumStart m w s
  | .retrain m w => Sys2Proof.Machine.execRetrain m w s
  | .linkLos k => Sys2Proof.Machine.execLinkLos k s
  | .linkLol k => Sys2Proof.Machine.execLinkLol k s
  | .trainBlock g lane before hdr lo hi cdr => Sys2Proof.Machine.execTrainBlock g lane before hdr lo hi cdr s
  | .amBlock k blocks skew => Sys2Proof.Machine.execAmBlock k blocks skew s
  | .linkBringupTimeout g => Sys2Proof.Machine.execLinkBringupTimeout g s
  | .retrainTimeout g => Sys2Proof.Machine.execRetrainTimeout g s
  | .ack g seq creq cpri => Sys2Proof.Machine.execAck g seq creq cpri s
  | .nak g seq => Sys2Proof.Machine.execNak g seq s
  | .ackTimer g => Sys2Proof.Machine.execAckTimer g s
  | .replayTimeout g => Sys2Proof.Machine.execReplayTimeout g s
  | .packetTransmit g => Sys2Proof.Machine.execPacketTransmit g s
  | .echoReq g token turn => Sys2Proof.Machine.execEchoReq g token turn s
  | .echoRsp g token turn => Sys2Proof.Machine.execEchoRsp g token turn s
  | .latencyMeasureTimer g => Sys2Proof.Machine.execLatencyMeasureTimer g s
  | .enumBlock g kind value depth => Sys2Proof.Machine.execEnumBlock g kind value depth s
  | .enumTimeout g => Sys2Proof.Machine.execEnumTimeout g s
  | .regWr g bytes => Sys2Proof.Machine.execRegWr g bytes s
  | .regRd g bytes => Sys2Proof.Machine.execRegRd g bytes s
  | .rdCpl g bytes => Sys2Proof.Machine.execRdCpl g bytes s
  | .dmaWr g bytes => Sys2Proof.Machine.execDmaWr g bytes s
  | .posPacket g bytes => Sys2Proof.Machine.execPosPacket g bytes s
  | .evt g bytes => Sys2Proof.Machine.execEvt g bytes s
  | .aud g bytes => Sys2Proof.Machine.execAud g bytes s
  | .evtPeriodic => Sys2Proof.Machine.execEvtPeriodic s
  | .chipEvtTimeout c => Sys2Proof.Machine.execChipEvtTimeout c s
  | .posSample => Sys2Proof.Machine.execPosSample s
  | .posTimeout => Sys2Proof.Machine.execPosTimeout s
  | .mspiFrame bytes answered => Sys2Proof.Machine.execMspiFrame bytes answered s
  | .ethFrameReceive k bytes fcsOk => Sys2Proof.Machine.execEthFrameReceive k bytes fcsOk s
  | .ethFrameTransmit => Sys2Proof.Machine.execEthFrameTransmit s
  | .prpSupervisionTimer => Sys2Proof.Machine.execPrpSupervisionTimer s
  | .prpEntryExpire n0 => Sys2Proof.Machine.execPrpEntryExpire n0 s
  | .ethLinkChange k up => Sys2Proof.Machine.execEthLinkChange k up s
  | .setTime m w => Sys2Proof.Machine.execSetTime m w s
  | .txKick m w => Sys2Proof.Machine.execTxKick m w s
  | .rxKick m w => Sys2Proof.Machine.execRxKick m w s
  | .offsetWrite m domB w => Sys2Proof.Machine.execOffsetWrite m domB w s
  | .domainHealthTimeout domB => Sys2Proof.Machine.execDomainHealthTimeout domB s
  | .domainRevert => Sys2Proof.Machine.execDomainRevert s
  | .biasSlewStep => Sys2Proof.Machine.execBiasSlewStep s
  | .tnCapRead m => Sys2Proof.Machine.execTnCapRead m s
  | .tnTxtsRead m k => Sys2Proof.Machine.execTnTxtsRead m k s
  | .zeroize m w => Sys2Proof.Machine.execZeroize m w s
  | .attest m w => Sys2Proof.Machine.execAttest m w s
  | .replay m w => Sys2Proof.Machine.execReplay m w s
  | .genDev m w => Sys2Proof.Machine.execGenDev m w s
  | .genEph m w => Sys2Proof.Machine.execGenEph m w s
  | .unwrap m w => Sys2Proof.Machine.execUnwrap m w s
  | .setPub m w => Sys2Proof.Machine.execSetPub m w s
  | .exportPub m w => Sys2Proof.Machine.execExportPub m w s
  | .ephKeyExpire => Sys2Proof.Machine.execEphKeyExpire s
  | .tamper n0 => Sys2Proof.Machine.execTamper n0 s
  | .cairnIssue => Sys2Proof.Machine.execCairnIssue s
  | .summitTimer => Sys2Proof.Machine.execSummitTimer s
  | .summitIssue => Sys2Proof.Machine.execSummitIssue s
  | .auditRingWrite ok => Sys2Proof.Machine.execAuditRingWrite ok s
  | .auditRingAckWrite m hi w => Sys2Proof.Machine.execAuditRingAckWrite m hi w s
  | .auditFrameTimer => Sys2Proof.Machine.execAuditFrameTimer s
  | .lineRecord bytes => Sys2Proof.Machine.execLineRecord bytes s
  | .blankRecord bytes => Sys2Proof.Machine.execBlankRecord bytes s
  | .commitRecord bytes => Sys2Proof.Machine.execCommitRecord bytes s
  | .statusRecord bytes => Sys2Proof.Machine.execStatusRecord bytes s
  | .cosignReq bytes => Sys2Proof.Machine.execCosignReq bytes s
  | .cosignRsp bytes => Sys2Proof.Machine.execCosignRsp bytes s
  | .witnessStatusSend => Sys2Proof.Machine.execWitnessStatusSend s
  | .witnessLate => Sys2Proof.Machine.execWitnessLate s
  | .witnessLost => Sys2Proof.Machine.execWitnessLost s
  | .cosignTimeout => Sys2Proof.Machine.execCosignTimeout s
  | .dcmpStart m d w => Sys2Proof.Machine.execDcmpStart m d w s
  | .dcmpAbort m d w => Sys2Proof.Machine.execDcmpAbort m d w s
  | .dcmpBlockDone d => Sys2Proof.Machine.execDcmpBlockDone d s
  | .czStart m w => Sys2Proof.Machine.execCzStart m w s
  | .czAbort m w => Sys2Proof.Machine.execCzAbort m w s
  | .czJobDone => Sys2Proof.Machine.execCzJobDone s
  | .confirm m w => Sys2Proof.Machine.execConfirm m w s
  | .confirmTimeout => Sys2Proof.Machine.execConfirmTimeout s
  | .submit m w => Sys2Proof.Machine.execSubmit m w s
  | .buArm m w => Sys2Proof.Machine.execBuArm m w s
  | .disarm m w => Sys2Proof.Machine.execDisarm m w s
  | .discard m w => Sys2Proof.Machine.execDiscard m w s
  | .settingsRead m w => Sys2Proof.Machine.execSettingsRead m w s
  | .settingsCommit m w => Sys2Proof.Machine.execSettingsCommit m w s
  | .eventCollect => Sys2Proof.Machine.execEventCollect s
  | .flEqAck m w => Sys2Proof.Machine.execFlEqAck m w s
  | .ovfClear m w => Sys2Proof.Machine.execOvfClear m w s
  | .csrClear m w => Sys2Proof.Machine.execCsrClear m w s
  | .fabricWdogExpire => Sys2Proof.Machine.execFabricWdogExpire s
  | .clockLoss src => Sys2Proof.Machine.execClockLoss src s
  | .hlrefLoss => Sys2Proof.Machine.execHlrefLoss s
  | .senseSlotStart delay => Sys2Proof.Machine.execSenseSlotStart delay s
  | .senseConversionDone code => Sys2Proof.Machine.execSenseConversionDone code s
  | .calStart m w => Sys2Proof.Machine.execCalStart m w s
  | .calPassTimer => Sys2Proof.Machine.execCalPassTimer s
  | .mzero m w means => Sys2Proof.Machine.execMzero m w means s
  | .pdCrossing n0 t => Sys2Proof.Machine.execPdCrossing n0 t s
  | .pdBright n0 => Sys2Proof.Machine.execPdBright n0 s
  | .tsStart m w => Sys2Proof.Machine.execTsStart m w s
  | .tsStop m w => Sys2Proof.Machine.execTsStop m w s
  | .selftest m w => Sys2Proof.Machine.execSelftest m w s
  | .testLoopDurationEnd errs bitsRun => Sys2Proof.Machine.execTestLoopDurationEnd errs bitsRun s
  | .tapInstruction c => Sys2Proof.Machine.execTapInstruction c s
  | .registerRead m addr => Sys2Proof.Machine.execRegisterRead m addr s
  | .ropeWposAdvance => Sys2Proof.Machine.execRopeWposAdvance s
  | .stoppedClockRestart d => Sys2Proof.Machine.execStoppedClockRestart d s
  | .refclkReturn => Sys2Proof.Machine.execRefclkReturn s
  | .hlrefReturn => Sys2Proof.Machine.execHlrefReturn s
  | .vddio5Return => Sys2Proof.Machine.execVddio5Return s
  | .checkerLockChange gained => Sys2Proof.Machine.execCheckerLockChange gained s
  | .testLoopPassComplete crc ok => Sys2Proof.Machine.execTestLoopPassComplete crc ok s
  | .tapReset => Sys2Proof.Machine.execTapReset s

end Sys2Proof.Machine
end

