-- ==== Sys2Proof/Safety.lean ====
section
/-! DEFINITION. What counts as a safe run, in the terms the statements use: a run that never stops, and whose states have nothing
left due and keep their memories in canonical form. -/

namespace Sys2Proof.Machine

/-- Nothing is left due between commands: no HOLD and no zeroize that an event calls for (R442), and a reset that waits does
so only in PRINT or while REFCLK is absent (R428, R461). -/
def State.Settled (s : State) : Prop :=
  s.sys.holdDue = false ∧ s.sys.zeroDue = false ∧ s.sys.safeDue = false ∧
  (s.sys.pendingReset.isSome = true → s.sys.mode = Mode.print ∨ s.sys.refOk = false)

/-- Nothing waits that a command's end would serve: no reset is held or pending, no HOLD or zeroize is due, no access waits, no
request to another controller is open, UP is not ACTIVE, no drop-gate scan, loop-back or CLOSING job is in hand, no reload has
reached its line, and no composition may begin. -/
def State.Quiet (s : State) : Prop :=
  s.sys.inReset = false ∧ s.sys.pendingReset = none ∧ s.sys.holdDue = false ∧ s.sys.zeroDue = false ∧ s.sys.safeDue = false ∧
  s.fl.waits = [] ∧ s.fl.resetDomains = [] ∧ s.hl.fwd = [] ∧ (s.grp 0).st ≠ GroupPhase.active ∧
  s.nh.gate.running = false ∧ s.ts.run = none ∧ (s.job 0).phase ≠ JobPhase.closing ∧ (s.job 1).phase ≠ JobPhase.closing ∧
  s.bu.reload.reached = false ∧ (s.composes = false ∨ s.hp.composing.isSome = true)

/-- Where a command on `s` ends whose own effect is `u`: what the effect leaves to be served is served (the accesses whose wait is
over, the composition of the next line, reports), and what it leaves due takes place. From a `u` that is quiet it is `u` itself. -/
def State.after (s u : State) : State := s.close u.serveAll

/-- Where a command ends that is a granted register access of master `m` with the effect `u`: it completes without an error. -/
def State.wrote (s u : State) (m : Master) : State := s.after (u.complete m.val 0 false false)

/-- An access of master `m` to a register is performed at once: the address is mapped, a UT window is the master's own (R54), HL and
DC setup stays with the security core, MSPI writes are allowed (R335, R348), and the register's clock runs (R458). -/
def State.grants (s : State) (m : Master) (a : Nat) : Bool :=
  a % 4 = 0 && mapped a && !(0x10000 ≤ a && a < 0x10800 && (a - 0x10000) / 0x100 ≠ m.val) && !(m.val = 6 && s.mspiRefused a) &&
    !(m.val ≠ 0 && securityOnly a) && ((regDomain a).filter s.waitsFor).isNone

/-- A register command of master `m` is served as it comes: no reset is held and the access is granted. -/
def State.takes (s : State) (m : Master) (a : Nat) : Prop := s.sys.inReset = false ∧ s.grants m a = true

/-- A write of UT_CMD that R46 accepts for unit `h` of this controller: no command is in progress, UT_SEL names the unit, which
is no CHIP unit, UT_ARG holds `arg`, the checks of R46 pass, and no unit of another controller lies below (R53). -/
def State.unitReady (s : State) (m : Master) (code h arg : Nat) : Prop :=
  s.takes m (Reg.UT_CMD m.val) ∧ s.ut.cmd = none ∧ s.fld (Reg.UT_SEL m.val) F.UT_SEL_CHIP = s.index ∧
  s.fld (Reg.UT_SEL m.val) F.UT_SEL_HANDLE = h ∧ kindOf h ≠ some .chip ∧ s.rdN (Reg.UT_ARG m.val) = arg ∧
  s.utCheck code h arg = 0 ∧ s.chipsBelow h = []

/-- The unit command of master `m` in progress on this controller (R50). -/
def State.unitCmd (s : State) (m : Master) (code h arg : Nat) (applied : Bool) : UtCmd :=
  ⟨m.val, code, s.index, h, arg, s.now, false, applied, none, 0⟩

/-- The word a register command writes, reserved bits 0 (R6). -/
def cmdWord (a : Nat) (w : Word) (fs : List (BitField × Nat)) : Word := regMask a (command w fs)

/-- The memories and the register map in canonical form: addresses strictly rising, no entry equal to what an unlisted
address reads as. -/
def State.MapsWf (s : State) : Prop :=
  AMap.wf regReset s.regs = true ∧ AMap.wf (fun _ => dramDefault) s.dram = true ∧ AMap.wf (fun _ => flashDefault) s.flash = true

/-- The frame of an effect that reaches no block but those listed, by the upper half of their registers' addresses (0x20 stands
for DRAM, 0x21 for flash). What an event leaves in the fault block, in the status of units (R440) and as HOLD or zeroize
due (R442) is no part of it. -/
def State.Frame (s : State) (bs : List Nat) (u : State) : Prop :=
  (∀ a, a / 0x10000 ∉ bs → a / 0x10000 ≠ 0x11 → u.rd a = s.rd a) ∧
  u.now = s.now ∧ u.si = s.si ∧ u.bus = s.bus ∧ u.ut.own = s.ut.own ∧ u.ut.cmd = s.ut.cmd ∧ u.fl.waits = s.fl.waits ∧
  u.sys.mode = s.sys.mode ∧ u.sys.trans = s.sys.trans ∧ u.sys.pendingReset = s.sys.pendingReset ∧
  (0x20 ∉ bs → u.dram = s.dram) ∧ (0x21 ∉ bs → u.flash = s.flash) ∧ (0x02 ∉ bs → u.wp = s.wp) ∧ (0x03 ∉ bs → u.js = s.js) ∧
  (0x04 ∉ bs → u.hp = s.hp) ∧ (0x06 ∉ bs → u.nh = s.nh) ∧ (0x07 ∉ bs → u.inn = s.inn) ∧ (0x08 ∉ bs → u.le = s.le) ∧
  (0x09 ∉ bs → u.mo = s.mo) ∧ (0x0A ∉ bs → u.mf = s.mf) ∧ (0x0C ∉ bs → u.hl = s.hl) ∧ (0x0D ∉ bs → u.tn = s.tn) ∧
  (0x0E ∉ bs → u.au = s.au) ∧ (0x0F ∉ bs → u.cz = s.cz) ∧ (0x10 ∉ bs → u.bu = s.bu) ∧ (0x12 ∉ bs → u.an = s.an) ∧
  (0x13 ∉ bs → u.ts = s.ts)

/-- A safe outcome: a next state with nothing left due. -/
def SafeOutcome (o : Host.Outcome State Fault Refusal) : Prop := ∃ t, o = .next t ∧ t.Settled

end Sys2Proof.Machine
end

