-- ==== Sys2Proof/Certificates/Slice0/Obligations.lean ====
section
/-! DEFINITION. The statements for the provers. `State.after s u` is where a command on `s` ends whose own effect is `u`, and
`State.wrote` the same for a granted register access (see Safety). -/

open Sys2Proof Sys2Proof.Machine

/-! ## Commands and the queue -/

/-- A step with a command at the front of the queue runs it on the state with the rest of the queue. -/
def Obligations.StepRunsFront : Prop :=
  ∀ (c : Instr) (s : State), step { s with pending := c :: s.pending } = exec c { s with pending := s.pending }

/-- No command changes the queue of the commands that wait, and a step takes exactly its front command; on an empty queue a
step is one cycle of SYSCLK. -/
def Obligations.QueueIsKept : Prop :=
  (∀ (c : Instr) (s t : State), exec c s = .next t → t.pending = s.pending) ∧
  (∀ (c : Instr) (s t : State), step { s with pending := c :: s.pending } = .next t → t.pending = s.pending) ∧
  (∀ s : State, s.pending = [] → s.sys.inReset = false → ∃ t, step s = .next t ∧ t.pending = [] ∧
    t = ({ s with now := s.now + 1 } : State).after
      (if (s.now + 1) % 4 = 0 then ({ s with now := s.now + 1 } : State).tbCycle else { s with now := s.now + 1 }))

/-- The invariant that nothing an event calls for is left over: no step leaves a HOLD or a zeroize due, or a reset pending
outside PRINT while REFCLK is there. Every command answers a next state, so the machine never stops. -/
def Obligations.StepsLeaveNothingDue : Prop :=
  (∀ s t : State, s.Settled → step s = .next t → t.Settled) ∧
  (∀ s : State, ∃ t, step s = .next t)

/-- The state after reset: nothing is due or waits, the memories and registers are in canonical form with nothing listed, the
mode is BOOT, and every register reads the value the spec gives it for reset. -/
def Obligations.ResetState : Prop :=
  State.reset.Settled ∧ State.reset.Quiet ∧ State.reset.MapsWf ∧ State.reset.pending = [] ∧ State.reset.sys.mode = .boot ∧
  State.reset.dram = [] ∧ State.reset.flash = [] ∧ State.reset.fl.queue = [] ∧ State.reset.sys.inReset = false ∧
  (∀ a : Nat, State.reset.rd a = regReset a)

/-- A command whose effect leaves nothing to be served ends with that effect alone, and every command whose effect is served
later ends settled. -/
def Obligations.QuietEffectsStand : Prop :=
  (∀ s u : State, u.Quiet → s.after u = { u with pending := s.pending }) ∧
  (∀ s u : State, (s.after u).Settled) ∧
  (∀ (s u : State) (m : Master), u.Quiet → s.wrote u m = { u with pending := s.pending, bus := ⟨m.val, 0, false, false⟩ })

/-- Registers, DRAM and flash stay in canonical form under every operation that writes them, a read of a place just written
gives what was written, and every other place reads as before. -/
def Obligations.MemoriesKeepForm : Prop :=
  (∀ (s : State) (a : Nat) (w : Word), s.MapsWf → (s.wr a w).MapsWf ∧ (s.wr a w).rd a = w ∧
    ∀ b, b ≠ a → (s.wr a w).rd b = s.rd b) ∧
  (∀ (s : State) (a : Nat) (bs : List Byte), s.MapsWf → (s.dramWrite a bs).MapsWf ∧
    (s.dramWrite a bs).dramRead a bs.length = bs ∧
    ∀ b n, b + n ≤ a ∨ a + bs.length ≤ b → (s.dramWrite a bs).dramRead b n = s.dramRead b n) ∧
  (∀ (s : State) (a : Nat) (bs : List Byte), s.MapsWf → (s.flashProgram a bs).MapsWf ∧
    (s.flashProgram a bs).flashRead a bs.length = ((s.flashRead a bs.length).zip bs).map (fun p => p.1 &&& p.2) ∧
    ∀ b n, b + n ≤ a ∨ a + bs.length ≤ b → (s.flashProgram a bs).flashRead b n = s.flashRead b n) ∧
  (∀ (s : State) (a n : Nat), s.MapsWf → (s.flashErase a n).MapsWf ∧
    (s.flashErase a n).flashRead a n = List.replicate n flashDefault ∧
    ∀ b k, b + k ≤ a ∨ a + n ≤ b → (s.flashErase a n).flashRead b k = s.flashRead b k)

/-- The frame of the events of links, time and network: each changes nothing outside HL (0x0C) or TN (0x0D), with what it
raises. -/
def Obligations.LinkFrames : Prop :=
  ∀ (s : State) (c : Instr) (b : Nat), s.sys.inReset = false →
    (match c with
      | .linkLos _ | .linkLol _ | .trainBlock .. | .amBlock .. | .linkBringupTimeout _ | .retrainTimeout _ | .ack .. | .nak ..
      | .replayTimeout _ | .ackTimer _ | .packetTransmit _ | .echoReq .. | .echoRsp .. | .latencyMeasureTimer _ | .enumBlock ..
      | .enumTimeout _ | .evtPeriodic | .chipEvtTimeout _ | .posSample | .hlrefReturn => b = 0x0C
      | .domainHealthTimeout _ | .domainRevert | .biasSlewStep | .prpEntryExpire _ | .prpSupervisionTimer | .ethLinkChange .. => b = 0x0D
      | _ => False) →
    ∃ u : State, exec c s = .next (s.after u) ∧ s.Frame [b] u

/-- The frame of events of audit, sense, test, memory and faults: each changes nothing outside the blocks named beside it, with
what it raises. -/
def Obligations.BlockFrames : Prop :=
  ∀ (s : State) (c : Instr) (bs : List Nat), s.sys.inReset = false →
    (match c with
      | .ephKeyExpire | .cosignTimeout | .witnessLost | .statusRecord _ | .cosignRsp _ | .blankRecord _ => bs = [0x0E]
      | .summitTimer | .lineRecord _ | .cosignReq _ | .witnessLate | .witnessStatusSend => bs = [0x0E, 0x0C]
      | .summitIssue | .cairnIssue => bs = [0x0E, 0x0C, 0x0D]
      | .auditFrameTimer => bs = [0x0E, 0x0D]
      | .auditRingWrite _ => bs = [0x0E, 0x21]
      | .commitRecord _ => bs = [0x06]
      | .senseSlotStart _ | .calPassTimer | .pdCrossing .. | .pdBright _ => bs = [0x12]
      | .testLoopDurationEnd .. | .testLoopPassComplete .. | .checkerLockChange _ => bs = [0x13]
      | .dramMr4Read .. | .dramTrackInterval .. => bs = [0x0A, 0x0B]
      | .fabricTransferComplete .. => bs = [0x0A]
      | .eventCollect => bs = [0x0C]
      | _ => False) →
    ∃ u : State, exec c s = .next (s.after u) ∧ s.Frame bs u

/-- R5, R480: an access of another width or alignment, or to an unmapped address, completes with an error, has no effect but on
the two registers that record it, and those hold its address and master; a granted write updates the fields by type and a
granted read answers the register's word. -/
def Obligations.RegisterAccesses : Prop :=
  (∀ (s : State) (m : Master) (a : Word) (width : Nat) (d : Word), s.sys.inReset = false →
    (width ≠ 4 ∨ a.toNat % 4 ≠ 0 ∨ mapped a.toNat = false) →
    ∃ u : State, exec (.registerWrite m a width d) s = .next (s.after u) ∧ u.bus = ⟨m.val, 0, true, false⟩ ∧
      u.rd Reg.SYS_BUS_ERR = a ∧ u.rdN Reg.SYS_BUS_MST = m.val ∧
      (∀ b, b ≠ Reg.SYS_BUS_ERR → b ≠ Reg.SYS_BUS_MST → u.rd b = s.rd b) ∧
      u = { s with regs := u.regs, bus := u.bus }) ∧
  (∀ (s : State) (m : Master) (a : Word), s.sys.inReset = false → (a.toNat % 4 ≠ 0 ∨ mapped a.toNat = false) →
    ∃ u : State, exec (.registerRead m a) s = .next (s.after u) ∧ u.bus = ⟨m.val, 0, true, false⟩ ∧
      u = { s with regs := u.regs, bus := u.bus }) ∧
  (∀ (s : State) (m : Master) (a d : Word), s.takes m a.toNat → readOnlyWindow a.toNat = false → a.toNat < 0x140000 →
    exec (.registerWrite m a 4 d) s = .next (s.wrote (s.writeReg m.val a.toNat (regMask a.toNat d)) m)) ∧
  (∀ (s : State) (m : Master) (a : Word), s.takes m a.toNat →
    exec (.registerRead m a) s = .next (s.after ((s.readWord a.toNat).2.complete m.val (s.readWord a.toNat).1 false false))) ∧
  (∀ (s : State) (a : Nat) (w : Word) (r : RegRow) (i : Nat), findReg a = some (r, i) → ∀ f ∈ r.fields, f.ty = .ro →
    (∀ g ∈ r.fields, g = f ∨ g.hi < f.lo ∨ f.hi < g.lo) →
    (⟨f.hi, f.lo⟩ : BitField).get ((s.fieldWrite a w).rd a) = (⟨f.hi, f.lo⟩ : BitField).get (s.rd a))

/-- R54: an access to a UT window by a master other than its owner completes with an error and changes nothing else, and no
register stands at offsets 0x40 to 0xFF of a window: a write there by its owner changes nothing, and a read answers the word of
an empty place. -/
def Obligations.UtWindowsOwned : Prop :=
  (∀ (s : State) (m win : Master) (off : Nat) (d : Word), s.sys.inReset = false → win ≠ m → off < 0x100 → off % 4 = 0 →
    let a := BitVec.ofNat 32 (0x10000 + 0x100 * win.val + off)
    exec (.registerWrite m a 4 d) s = .next (s.after (s.complete m.val 0 true false)) ∧
    exec (.registerRead m a) s = .next (s.after (s.complete m.val 0 true false))) ∧
  (∀ (s : State) (m : Master) (off : Nat) (d : Word), s.sys.inReset = false → 0x40 ≤ off → off < 0x100 → off % 4 = 0 →
    m.val ≠ 6 →
    let a := BitVec.ofNat 32 (0x10000 + 0x100 * m.val + off)
    findReg a.toNat = none ∧
    exec (.registerWrite m a 4 d) s = .next (s.after (s.complete m.val 0 false false)) ∧
    exec (.registerRead m a) s = .next (s.after (s.complete m.val (s.rd a.toNat) false false)) ∧ regReset a.toNat = 0) ∧
  (∀ (s : State) (off : Nat), s.sys.inReset = false → 0x40 ≤ off → off < 0x100 → off % 4 = 0 →
    let a := BitVec.ofNat 32 (0x10000 + 0x100 * 6 + off)
    findReg a.toNat = none ∧ ∀ w : Word, s.writeUt a.toNat w = s)

/-! ## Resets and modes -/

/-- R482, R483, R492: power-on reset by the supplies, and by RESET_N where REFCLK is present and no reset is held; a brownout
holds reset; a cold and a warm reset through SYS_RST with KEY 0x5A. Each clears the machine as `State.afterReset` says. R492:
loss of VDDIO5 outside reset sets the cut latch of all nine gate inputs; its return lets the inputs count as they stand and
clears no latch. -/
def Obligations.Resets : Prop :=
  ((∀ s : State, exec (.powerOnReset false) s = .next ({ s with sys := { s.sys with vddio5Low := false } }.powerOn 0)) ∧
  (∀ s : State, s.sys.refOk = true → s.sys.inReset = false → exec (.powerOnReset true) s = .next (s.powerOn 1)) ∧
  (∀ s : State, exec .supplyBrownout s =
    .next { s.afterReset .powerOn 0 with sys := { (s.afterReset .powerOn 0).sys with inReset := true } }) ∧
  (∀ (s : State) (m : Master) (w : Word), s.takes m Reg.SYS_RST → s.sys.refOk = true →
    ¬(s.sys.mode = .boot ∧ s.bu.bootState = 2) → exec (.resetCold m w) s = .next (s.wrote (s.afterReset .cold 2) m)) ∧
  (∀ (s : State) (m : Master) (w : Word), s.takes m Reg.SYS_RST → s.sys.refOk = true →
    ¬(s.sys.mode = .boot ∧ s.bu.bootState = 2) → exec (.resetWarm m w) s = .next (s.wrote (s.afterReset .warm 3) m))) ∧
  ((∀ s : State, s.sys.inReset = false → ∃ u : State, exec .vddio5Loss s = .next (s.after u) ∧ u.sys.vddio5Low = true ∧
    ∀ g : Nat, g < 9 → u.hp.cut.testBit g = true) ∧
  (∀ s : State, s.sys.inReset = false →
    exec .vddio5Return s = .next (s.after { s with sys := { s.sys with vddio5Low := false } })))

/-- R482: what a reset leaves. Every register without a field the reset keeps reads its reset value, except SYS_RST_STAT with
the cause and FL_CSR; the mode is BOOT, every job slot and plate slot is EMPTY, every head port ABSENT, the error queue empty;
flash and the queue of commands stay as they are. -/
def Obligations.ResetLeaves : Prop :=
  ∀ (s : State) (k : ResetKind) (cause : Nat),
    let t := s.afterReset k cause
    t.sys.mode = .boot ∧ t.flash = s.flash ∧ t.pending = s.pending ∧ t.js = JsState.reset ∧ t.fl.queue = [] ∧
    (∀ p : Nat, (t.port p).st = .absent) ∧ t.fld Reg.SYS_RST_STAT F.SYS_RST_STAT_CAUSE = cause % 2 ^ 32 % 16 ∧
    (k = .powerOn → ∀ a : Nat, a ≠ Reg.SYS_RST_STAT → a ≠ Reg.FL_CSR → t.rd a = regReset a) ∧
    (∀ a : Nat, a ≠ Reg.SYS_RST_STAT → a ≠ Reg.FL_CSR →
      (∀ r i, findReg a = some (r, i) → ∀ f ∈ r.fields, k.keeps r f = false) → t.rd a = regReset a)

/-- R29, R30, R433: a request that a row of R29 allows is accepted while no transition is in progress. IDLE or WARM to SERVICE
and, with TEST_EN, IDLE to TEST take effect with the request; the others are in progress until their condition holds. A
software interrupt is recorded for the cores it names (R484). R433: the refusals of a mode request. Reason 1 while a transition
is in progress; 2 where no row of R29 leads there; 6 to TEST without TEST_EN; 7 from HOLD while a cause of R434 remains. The
mode stays, REFUSED is set and REFUSE gives the reason. R29: a transition in progress takes effect once its condition holds,
and R435: one that waits longer than SYS_MODE_TMO for the cap slide, the loops or the axes is given up, with TIMEOUT set and
MODE_TIMEOUT raised. -/
def Obligations.Modes : Prop :=
  ((∀ (s : State) (m : Master) (w : Word), s.takes m Reg.SYS_MODE_REQ → s.sys.trans = none →
    (s.sys.mode = .idle ∨ s.sys.mode = .warm) → F.SYS_MODE_REQ_MODE.get (cmdWord Reg.SYS_MODE_REQ w []) = 4 →
    exec (.modeRequest m w) s = .next (s.wrote s.enterService m)) ∧
  (∀ (s : State) (m : Master) (w : Word), s.takes m Reg.SYS_MODE_REQ → s.sys.trans = none →
    s.sys.mode = .idle → s.si.testEn = true → F.SYS_MODE_REQ_MODE.get (cmdWord Reg.SYS_MODE_REQ w []) = 6 →
    exec (.modeRequest m w) s = .next (s.wrote s.enterTest m)) ∧
  (∀ (s : State) (m : Master) (w : Word) (d : Mode), s.takes m Reg.SYS_MODE_REQ →
    s.sys.trans = none → (s.sys.mode, d) ∈ [(Mode.idle, Mode.warm), (.warm, .idle), (.service, .warm), (.service, .idle)] →
    F.SYS_MODE_REQ_MODE.get (cmdWord Reg.SYS_MODE_REQ w []) = d.code →
    exec (.modeRequest m w) s = .next (s.wrote { s with sys := { s.sys with trans := some ⟨d, s.now⟩ } } m)) ∧
  (∀ (s : State) (m : Master) (w : Word), s.takes m Reg.SYS_MODE_REQ → s.sys.trans = none →
    s.sys.mode = .warm → s.printRefuse = 0 → F.SYS_MODE_REQ_MODE.get (cmdWord Reg.SYS_MODE_REQ w []) = 3 →
    exec (.modeRequest m w) s = .next (s.wrote { s with sys := { s.sys with trans := some ⟨.print, s.now⟩ } } m)) ∧
  (∀ (s : State) (m : Master) (w : Word), s.takes m Reg.SYS_SWI →
    exec (.swi m w) s = .next (s.wrote
      { s with sys := { s.sys with swi := s.sys.swi ||| F.SYS_SWI_CORE.get (cmdWord Reg.SYS_SWI w []) } } m))) ∧
  (∀ (s : State) (m : Master) (w : Word) (d : Mode), s.takes m Reg.SYS_MODE_REQ →
    F.SYS_MODE_REQ_MODE.get (cmdWord Reg.SYS_MODE_REQ w []) = d.code →
    ∃ u : State, exec (.modeRequest m w) s = .next (s.wrote u m) ∧
      (s.sys.trans.isSome = true → u = s.modeRefuse 1) ∧
      (s.sys.trans = none → s.sys.mode ≠ d → modePath s.sys.mode d = false → u = s.modeRefuse 2) ∧
      (s.sys.trans = none → s.sys.mode = .idle → d = .test → s.si.testEn = false → u = s.modeRefuse 6) ∧
      (s.sys.trans = none → s.sys.mode = .hold → d = .idle → s.holdCauses ≠ 0 → u = s.modeRefuse 7)) ∧
  ((∀ (s : State) (b : Bool) (c : Nat), s.sys.inReset = false → s.sys.mode = .idle → s.sys.trans = some ⟨.warm, c⟩ →
    s.capOpen = true → s.loopsInBand = true → exec (.modeTransitionEffect b) s = .next (s.after s.enterWarm)) ∧
  (∀ (s : State) (b : Bool) (c : Nat), s.sys.inReset = false → s.sys.mode = .warm → s.sys.trans = some ⟨.idle, c⟩ →
    s.capClosed = true → exec (.modeTransitionEffect b) s = .next (s.after s.enterIdle)) ∧
  (∀ (s : State) (b : Bool) (c : Nat), s.sys.inReset = false → s.sys.mode = .service → s.sys.trans = some ⟨.idle, c⟩ →
    s.capClosed = true → s.serviceOver = true → exec (.modeTransitionEffect b) s = .next (s.after s.enterIdle)) ∧
  (∀ (s : State) (c : Nat), s.sys.inReset = false → s.sys.mode = .service → s.sys.trans = some ⟨.warm, c⟩ →
    s.serviceOver = true → exec (.modeTransitionEffect true) s = .next (s.after s.enterWarm)) ∧
  (∀ (s : State) (b : Bool) (c : Nat), s.sys.inReset = false → s.sys.mode = .print → s.sys.trans = some ⟨.warm, c⟩ →
    s.printOver = true → exec (.modeTransitionEffect b) s = .next (s.after s.enterWarm)) ∧
  (∀ (s : State) (b : Bool) (c : Nat), s.sys.inReset = false → s.sys.mode = .hold → s.sys.trans = some ⟨.idle, c⟩ →
    s.atCap = true → s.mo.capSeq = none → exec (.modeTransitionEffect b) s = .next (s.after s.enterIdle)) ∧
  (∀ (s : State) (c : Nat) (d : Mode), s.sys.inReset = false → s.sys.trans = some ⟨d, c⟩ →
    (s.sys.mode, d) ∈ [(Mode.idle, Mode.warm), (.warm, .idle), (.service, .idle), (.hold, .idle)] →
    s.rdN Reg.SYS_MODE_TMO ≠ 0 → s.rdN Reg.SYS_MODE_TMO * 1000000 ≤ s.now - c →
    exec .modeTimeout s = .next (s.after
      (({ s with sys := { s.sys with trans := none } }.flag Reg.SYS_MODE_STAT F.SYS_MODE_STAT_TIMEOUT).raise Ev.MODE_TIMEOUT))))

/-- R418, R498: BOOT runs once after reset: it reads the core voltage code and the directory. Without a valid directory it ends
in FAILED with ERR 1; with XSPI_MHZ above 100 and VDDIO0 above 1.95 V it ends in FAILED with ERR 2; else it takes the key
store, the boot log and base camp from flash and goes through the slots, and the audit ring resumes. R73, R74, R76: a reload is
started in SERVICE or PRINT while none is in progress, is verified, and can be aborted while it is in VERIFY or PENDING. An
image refused in verification changes nothing of the structure in force. -/
def Obligations.BootAndReloads : Prop :=
  (∀ (s : State) (env : BootEnv), s.sys.inReset = false → s.sys.mode = .boot → s.bu.bootState = 0 →
    let s1 := { s with sys := { s.sys with coreVsel := Config.coreVsel.val, io0High := env.io0High } }
    let mhz := leAt (s.flashRead 0 0x4C) 6 1
    (parseDirectory (s.flashRead 0 0x4C) = none → exec (.bootSequence env) s = .next (s.after (s1.bootFail 1))) ∧
    (∀ rs, parseDirectory (s.flashRead 0 0x4C) = some rs →
      let s2 := { s1 with bu := { s1.bu with regions := rs, xspiMhz := mhz } }
      (env.io0High = true → 100 < mhz → exec (.bootSequence env) s = .next (s.after (s2.bootFail 2))) ∧
      (env.io0High = false ∨ mhz ≤ 100 →
        exec (.bootSequence env) s = .next (s.after (
          let b := State.bootList env 16 s2.keyLoad.logLoad.campRebuild
          (if b.bu.log.armed || b.bu.camp = .rejected then b else b.campRebuild).ringResume))))) ∧
  ((∀ (s : State) (m : Master), s.takes m Reg.BU_SI_CTRL → s.bu.reload.state.busy = false →
    (s.sys.mode = .service ∨ s.sys.mode = .print) →
    let a := s.rdN Reg.BU_SI_STAGE * 64
    exec (.siReloadStart m) s = .next (s.wrote ((s.wrN Reg.BU_SI_ACT_LINE 0).setReload
      { Reload.reset with state := .verify, addr := a, size := s.fld Reg.BU_SI_SIZE F.BU_SI_SIZE_SIZE,
                          root := leNat (s.dramRead (a + 0x28) 4), inPrint := decide (s.sys.mode = .print) }) m)) ∧
  (∀ (s : State) (m : Master), s.takes m Reg.BU_SI_CTRL →
    (s.bu.reload.state = .verify ∨ s.bu.reload.state = .pending) →
    exec (.siReloadAbort m) s = .next (s.wrote (
      { s with si := { s.si with params := s.bu.reload.paramsWere.getD s.si.params } }.setReload
        { s.bu.reload with state := .aborted, err := 0xE, shadow := none, shadowOwn := [], reached := false, paramsWere := none }) m)) ∧
  (∀ s : State, s.sys.inReset = false → s.bu.reload.state = .verify →
    let r := s.bu.reload
    let img := s.dramRead r.addr (max 128 r.size)
    let x := loadPartial img s.imageKey r.inPrint s.bu.m s.si s.ut.own s.ut.parent.ld s.ut.parent.sd
    r.inPrint = false →
    exec .siVerifyDone s = .next (s.after (match x with
      | .error e => s.setReload { r with state := .refused, err := e.err.code, failSection := e.sect }
      | .ok l =>
        let c := s.childrenOver l.si l.own
        if c.1 then c.2.setReload { r with state := .refused, err := SiErr.structure.code, failSection := sectIdx (sectTable img) 1 }
        else (c.2.setReload { r with shadow := some l.si, shadowOwn := l.own, digest := l.digest }).activateService l.si))))

/-! ## Units -/

/-- R55: a write of UT_SEL that names this controller fills the window with the snapshot of the unit; one that names a
controller no route leads to, and a remote snapshot that runs out of time, leave VALID 0 and zero fields with SNAP_READY. A
handle that is not valid has the same snapshot. -/
def Obligations.UnitSnapshots : Prop :=
  (∀ (s : State) (m : Master) (w : Word), s.takes m (Reg.UT_SEL m.val) →
    let d := cmdWord (Reg.UT_SEL m.val) w []
    let s0 := (s.wr (Reg.UT_SEL m.val) d).setFld (Reg.UT_INFO m.val) F.UT_INFO_SNAP_READY 0
    let s1 := { s0 with ut := { s.ut with snapWait := s.ut.snapWait.filter fun p => p.1 ≠ m.val },
                        hl := { s.hl with fwd := s.hl.fwd.filter fun f => f.cmd || f.win ≠ m.val } }
    (F.UT_SEL_CHIP.get d = s1.index →
      exec (.utSelWrite m w) s = .next (s.wrote (s1.storeSnap m.val (s1.snapshot (F.UT_SEL_HANDLE.get d))) m)) ∧
    (F.UT_SEL_CHIP.get d ≠ s1.index → s1.reachable (F.UT_SEL_CHIP.get d) = false →
      exec (.utSelWrite m w) s = .next (s.wrote (s1.snapFail m.val) m))) ∧
  (∀ (s : State) (win : Master) (t : Nat), s.sys.inReset = false → (win.val, t) ∈ s.ut.snapWait →
    ∃ u : State, exec (.utSnapshotTimeout win) s = .next (s.after u) ∧ u.fld (Reg.UT_INFO win.val) F.UT_INFO_VALID = 0 ∧
      u.fld (Reg.UT_INFO win.val) F.UT_INFO_SNAP_READY = 1 ∧ (∀ q ∈ u.ut.snapWait, q.1 ≠ win.val)) ∧
  (∀ (s : State) (h : Nat), s.si.valid h = false → s.snapshot h = [2 ^ 30, 0, 0, 0, 0, 0, 0, 0, 0])

/-- R45, R47, R50: outside PRINT and without ticks, SET_ENABLE, SET_DELAY, SET_TRIM and RELEASE count on the unit's path,
become the command in progress (BUSY) and take effect at once, with UT_CMD_LINE 0; SET_ENABLE in PRINT waits for its commit
position. -/
def Obligations.UnitSettings : Prop :=
  (∀ (s : State) (m : Master) (h arg : Nat), s.unitReady m 1 h arg → s.mode ≠ .print → s.ticksRun = false →
    let b := ((s.countCmd 1 h).setFld (Reg.UT_CMD_STAT m.val) F.UT_CMD_STAT_ERR 0).setFld (Reg.UT_CMD_STAT m.val) F.UT_CMD_STAT_BUSY 1
    let c := { b with ut := { b.ut with cmd := some (s.unitCmd m 1 h arg true) } }
    exec (.setEnable m) s = .next (s.wrote
      ((c.commit (c.wp.hwm + 1) [.enable h (arg.testBit 0)]).wrN (Reg.UT_CMD_LINE m.val) 0) m)) ∧
  (∀ (s : State) (m : Master) (h arg : Nat), s.unitReady m 2 h arg → s.mode ≠ .print → s.ticksRun = false →
    let b := ((s.countCmd 2 h).setFld (Reg.UT_CMD_STAT m.val) F.UT_CMD_STAT_ERR 0).setFld (Reg.UT_CMD_STAT m.val) F.UT_CMD_STAT_BUSY 1
    let own := AMap.set unitCfgDefault b.ut.own h { ownOf b.ut.own h with ldelay := bits arg 9 0, sldelay := bits arg 29 16 }
    exec (.setDelay m) s = .next (s.wrote
      (({ b with ut := { b.ut with cmd := some (s.unitCmd m 2 h arg true), own := own },
                 js := { b.js with lring := b.js.lring.filter fun e => decide (e.line ≤ b.wp.hwm), slices := b.js.slices.filter fun e => decide (e.line ≤ b.wp.hwm),
                                   lead := b.js.lead.filter fun e => decide (e.1 ≤ b.wp.hwm) } }.dropAbove b.wp.hwm).wrN
        (Reg.UT_CMD_LINE m.val) 0) m)) ∧
  (∀ (s : State) (m : Master) (h arg : Nat), s.unitReady m 3 h arg → s.ticksRun = false →
    let b := ((s.countCmd 3 h).setFld (Reg.UT_CMD_STAT m.val) F.UT_CMD_STAT_ERR 0).setFld (Reg.UT_CMD_STAT m.val) F.UT_CMD_STAT_BUSY 1
    let own := AMap.set unitCfgDefault b.ut.own h { ownOf b.ut.own h with trim := arg % 16 }
    exec (.setTrim m) s = .next (s.wrote
      ({ b with ut := { b.ut with cmd := some (s.unitCmd m 3 h arg true), own := own } }.wrN (Reg.UT_CMD_LINE m.val) 0) m)) ∧
  (∀ (s : State) (m : Master) (h arg : Nat), s.unitReady m 0x12 h arg → s.mode ≠ .print → s.ticksRun = false →
    let b := ((s.countCmd 0x12 h).setFld (Reg.UT_CMD_STAT m.val) F.UT_CMD_STAT_ERR 0).setFld (Reg.UT_CMD_STAT m.val) F.UT_CMD_STAT_BUSY 1
    let c := { b with ut := { b.ut with cmd := some (s.unitCmd m 0x12 h arg true) } }
    exec (.release m) s = .next (s.wrote ((c.commit (c.wp.hwm + 1) [.release h]).wrN (Reg.UT_CMD_LINE m.val) 0) m)) ∧
  (∀ (s s' : State) (m : Master) (h arg : Nat), s.unitReady m 1 h arg → s.mode = .print →
    s.queueReq (.enable h (arg.testBit 0)) = some s' →
    let p := (s'.nh.queue.getLast?.map (·.c)).getD 0
    ∃ u : State, exec (.setEnable m) s = .next (s.wrote u m) ∧ u.nh.queue = s'.nh.queue ∧ u.ut.own = s'.ut.own ∧
      u.rdN (Reg.UT_CMD_LINE m.val) = p % 2 ^ 32 ∧ u.fld (Reg.UT_CMD_STAT m.val) F.UT_CMD_STAT_PENDING = 1 ∧
      u.fld (Reg.UT_CMD_STAT m.val) F.UT_CMD_STAT_BUSY = 1)

/-- R45, R50, R51: the broadcasts of the walk are accepted and counted, and become the command in progress; its completion
reaches every unit of the subtree, then sets DONE. CLEAR_STATUS clears WARN and VOID of a unit unless an event of that class
and unit has its cause still present (which conditions those are is the model's reading, log entry 26), CLEAR_COUNTERS the
three counters, SPIT starts the profile and IDENTIFY asks for identity and CONFIG on the PORT units. A forwarded command
without an answer ends with ERR LINK. -/
def Obligations.UnitBroadcasts : Prop :=
  (∀ (s : State) (m : Master) (h arg : Nat), s.unitReady m 0x10 h arg →
    let b := (s.setFld (Reg.UT_CMD_STAT m.val) F.UT_CMD_STAT_ERR 0).setFld (Reg.UT_CMD_STAT m.val) F.UT_CMD_STAT_BUSY 1
    exec (.clearStatus m) s = .next (s.wrote { b with ut := { b.ut with cmd := some (s.unitCmd m 0x10 h arg false) } } m)) ∧
  (∀ (s : State) (m : Master) (h arg : Nat), s.unitReady m 0x11 h arg →
    let b := (s.setFld (Reg.UT_CMD_STAT m.val) F.UT_CMD_STAT_ERR 0).setFld (Reg.UT_CMD_STAT m.val) F.UT_CMD_STAT_BUSY 1
    exec (.clearCounters m) s = .next (s.wrote { b with ut := { b.ut with cmd := some (s.unitCmd m 0x11 h arg false) } } m)) ∧
  (∀ (s : State) (m : Master) (h arg : Nat), s.unitReady m 0x13 h arg →
    let b := ((s.countCmd 0x13 h).setFld (Reg.UT_CMD_STAT m.val) F.UT_CMD_STAT_ERR 0).setFld (Reg.UT_CMD_STAT m.val) F.UT_CMD_STAT_BUSY 1
    exec (.spit m) s = .next (s.wrote { b with ut := { b.ut with cmd := some (s.unitCmd m 0x13 h arg false) } } m)) ∧
  (∀ (s : State) (m : Master) (h arg : Nat), s.unitReady m 0x14 h arg →
    let b := ((s.countCmd 0x14 h).setFld (Reg.UT_CMD_STAT m.val) F.UT_CMD_STAT_ERR 0).setFld (Reg.UT_CMD_STAT m.val) F.UT_CMD_STAT_BUSY 1
    exec (.identify m) s = .next (s.wrote { b with ut := { b.ut with cmd := some (s.unitCmd m 0x14 h arg false) } } m)) ∧
  (∀ (s : State) (c : UtCmd), s.sys.inReset = false → s.ut.cmd = some c → c.applied = false → c.commit = none →
    (∀ f ∈ s.hl.fwd, f.cmd = false) → c.code ∈ [0x10, 0x11, 0x13, 0x14] →
    let b := { s with ut := { s.ut with cmd := some { c with applied := true } } }
    let reached := match c.code with
      | 0x10 => ((s.si.subtree 260 c.handle).foldl (fun (t : State) u => t.setDyn u { t.dyn u with
          warn := (t.dyn u).warn && (t.standing.map t.classUnit).contains (1, u), void := (t.dyn u).void && (t.standing.map t.classUnit).contains (2, u) }) b).countCmd 0x10 c.handle
      | 0x11 => ((s.si.subtree 260 c.handle).foldl (fun (t : State) u => t.setDyn u { t.dyn u with cntEvent := 0, cntVoid := 0, cntCmd := 0 }) b).countCmd
          0x11 c.handle
      | 0x13 => (b.actedOn 0x13 c.handle).foldl (fun (t : State) u => t.startSpit (u - 0x10000) (c.arg % 16)) b
      | _ => (b.actedOn 0x14 c.handle).foldl (fun (t : State) u => t.identifyPort (u - 0x10000)) b
    let ended := reached.wrN (Reg.UT_CMD_LINE c.win) 0
    exec .utCmdComplete s = .next (s.after ({ ended with ut := { ended.ut with cmd := none } }.utDone c.win c.err))) ∧
  (∀ (s : State) (c : UtCmd) (f : Fwd), s.sys.inReset = false → s.ut.cmd = some c → f ∈ s.hl.fwd → f.cmd = true →
    c.applied = true → c.commit = none →
    exec .utForwardTimeout s = .next (s.after
      ({ s with ut := { s.ut with cmd := none }, hl := { s.hl with fwd := s.hl.fwd.filter fun f => !f.cmd } }.utDone c.win 7)))

/-! ## Position -/

/-- R88: a count moves the unwrapped count U = REV × COUNTS_PER_REV + CNT by exactly one and keeps CNT below COUNTS_PER_REV, as
long as REV stays within 32 bits. R94: DIR takes the sign of the last count once DIR_HYST counts in a row have had it. R81,
R82: the accepted pair steps through 0b00, 0b10, 0b11, 0b01 (QUAD) and the state (W, V, U) through 0b001, 0b011, 0b010, 0b110,
0b100, 0b101 (HALL): a step in that order counts +1, one in the opposite order −1, any other change is illegal. R80 to R82,
R79: newly accepted levels are taken and the channel counts the step they make, or raises ENC_ILLEGAL; with both legs of a pair
alike ENC_WIRE is raised. No edge follows another of its signal within EDGE_MIN here and no index is checked. R83 to R85: an
SSI frame starts once the line has been idle, and comes later with ENC_OVERRATE otherwise; a frame that fails parity or carries
the error bit is discarded, a good one owes its change in single counts, and one of them is issued at a time. Gray code decodes
to the number it codes. -/
def Obligations.EncoderInputs : Prop :=
  ((∀ (c : EncCh) (cpr : Nat) (up : Bool), c.cnt < cpr → -(2 ^ 31) < c.rev → c.rev < 2 ^ 31 - 1 →
    (c.step cpr up).cnt < cpr ∧
    (c.step cpr up).rev * cpr + (c.step cpr up).cnt = c.rev * cpr + c.cnt + (if up then 1 else -1)) ∧
  (∀ (c : EncCh) (cpr : Nat), c.cnt < cpr → ((c.step cpr true).step cpr false).cnt = c.cnt) ∧
  (∀ (c : EncCh) (hyst n : Nat) (neg : Bool), 1 ≤ hyst → hyst ≤ n → n ≤ 255 →
    ((List.range n).foldl (fun c _ => c.turn hyst neg) c).dirRev = neg)) ∧
  ((∀ c : EncCh, ∀ x y z a b : Bool, c.a = x → c.b = y →
    (c.stepTo 1 a b z = .same ↔ (a, b) = (x, y)) ∧
    (c.stepTo 1 a b z = .count true ↔ ((x, y), (a, b)) ∈
      [((false, false), (true, false)), ((true, false), (true, true)), ((true, true), (false, true)), ((false, true), (false, false))]) ∧
    (c.stepTo 1 a b z = .illegal ↔ a ≠ x ∧ b ≠ y)) ∧
  (∀ c : EncCh, ∀ u v w u' v' w' : Bool, c.a = u → c.b = v → c.z = w →
    let order := [(false, false, true), (false, true, true), (false, true, false), (true, true, false), (true, false, false), (true, false, true)]
    (∀ i < 6, order[i]? = some (w, v, u) → order[(i + 1) % 6]? = some (w', v', u') → c.stepTo 2 u' v' w' = .count true) ∧
    (∀ i < 6, order[i]? = some (w', v', u') → order[(i + 1) % 6]? = some (w, v, u) → c.stepTo 2 u' v' w' = .count false) ∧
    ((u', v', w') ≠ (u, v, w) → (w', v', u') ∉ order → c.stepTo 2 u' v' w' = .illegal))) ∧
  ((∀ (s : State) (ch : Fin 2) (a b z : Bool), s.sys.inReset = false → s.encMode ch.val ≠ 0 → s.idxOn ch.val = false →
    s.fld (Reg.WP_CHk_CFG ch.val) F.WP_CHk_CFG_EDGE_MIN = 0 →
    let c := s.enc ch.val
    let t := s.setEnc ch.val { c with
      a := a, b := b, z := z, edgeA := if c.a != a then some s.now else c.edgeA, edgeB := if c.b != b then some s.now else c.edgeB,
      edgeZ := if c.z != z then some s.now else c.edgeZ }
    exec (.encoderLevelAccept ch a b z) s = .next (s.after (match c.stepTo (s.encMode ch.val) a b z with
      | .same => t
      | .illegal => ((t.bump (Reg.WP_CHk_QERR ch.val) F.WP_CHk_QERR_ILLEGAL_CNT).encFault ch.val F.WP_CHk_STAT_ILLEGAL Ev.ENC_ILLEGAL).testEnc
          ch.val
      | .count up => t.count ch.val (up != s.isSet (Reg.WP_CHk_CFG ch.val) F.WP_CHk_CFG_INV_DIR)))) ∧
  (∀ (s : State) (ch : Fin 2) (a b z : Bool), s.sys.inReset = false → s.encMode ch.val = 0 →
    exec (.encoderLevelAccept ch a b z) s = .next (s.after (s.setEnc ch.val { s.enc ch.val with a := a, b := b, z := z }))) ∧
  (∀ (s : State) (ch : Fin 2) (sig : Fin 3), s.sys.inReset = false → (s.encMode ch.val = 1 ∨ s.encMode ch.val = 2) →
    s.isSet (Reg.WP_CHk_CFG ch.val) F.WP_CHk_CFG_WIRE_EN = true →
    exec (.encWireTimeout ch sig) s = .next (s.after (s.encFault ch.val (match sig.val with
      | 0 => F.WP_CHk_STAT_WIRE_A | 1 => F.WP_CHk_STAT_WIRE_B | _ => F.WP_CHk_STAT_WIRE_Z) Ev.ENC_WIRE)))) ∧
  ((∀ (s : State) (ch : Fin 2), s.sys.inReset = false → s.encMode ch.val = 3 → (s.enc ch.val).ssiActive = false →
    max (s.enc ch.val).ssiEnd ((s.enc ch.val).edgeA.getD 0) + max 1 (s.fld (Reg.WP_CHk_SSI ch.val) F.WP_CHk_SSI_MONO) * 1000 ≤ s.now →
    exec (.ssiFrameStart ch) s = .next (s.after (s.setEnc ch.val { s.enc ch.val with ssiActive := true, ssiFrom := s.now }))) ∧
  (∀ (s : State) (ch : Fin 2), s.sys.inReset = false → s.encMode ch.val = 3 → (s.enc ch.val).ssiActive = true →
    exec (.ssiFrameStart ch) s = .next (s.after (s.encFault ch.val F.WP_CHk_STAT_OVERRATE Ev.ENC_OVERRATE))) ∧
  (∀ (s : State) (ch : Fin 2) (bits : BitVec 40) (v m v0 : Nat), s.sys.inReset = false → (s.enc ch.val).ssiActive = true →
    s.ssiValue ch.val bits.toNat = some (v, m) → (s.enc ch.val).ssiV = some v0 → (s.enc ch.val).owed = 0 →
    let d := toSigned m (ofSigned m ((v : Int) - v0))
    let c := { s.enc ch.val with ssiActive := false, ssiEnd := s.now, ssiV := some v, ssiMiss := 0 }
    exec (.ssiFrameDone ch bits) s = .next (s.after
      (if 2 ^ (s.fld (Reg.WP_CHk_SSI ch.val) F.WP_CHk_SSI_ST_BITS - 1) ≤ d.natAbs || s.ssiPeriod ch.val < d.natAbs then
        (s.setEnc ch.val c).encFault ch.val F.WP_CHk_STAT_SSI_JUMP Ev.SSI_JUMP
      else s.setEnc ch.val { c with owed := d }))) ∧
  (∀ (s : State) (ch : Fin 2) (bits : BitVec 40), s.sys.inReset = false → (s.enc ch.val).ssiActive = true →
    s.ssiValue ch.val bits.toNat = none →
    let t := (s.setEnc ch.val { s.enc ch.val with
      ssiActive := false, ssiEnd := s.now, ssiMiss := (s.enc ch.val).ssiMiss + 1 }).encFault ch.val F.WP_CHk_STAT_SSI_PARITY Ev.SSI_PARITY
    exec (.ssiFrameDone ch bits) s = .next (s.after
      (if (s.enc ch.val).ssiMiss + 1 = max 1 (s.fld (Reg.WP_CHk_SSI ch.val) F.WP_CHk_SSI_MISS_MAX) then
        t.encFault ch.val F.WP_CHk_STAT_SSI_LOST Ev.SSI_LOST else t))) ∧
  (∀ (s : State) (ch : Fin 2), s.sys.inReset = false → 1 < (s.enc ch.val).owed →
    exec (.ssiCountIssue ch) s = .next (s.after ((s.setEnc ch.val { s.enc ch.val with owed := (s.enc ch.val).owed - 1 }).count ch.val
      (!s.isSet (Reg.WP_CHk_CFG ch.val) F.WP_CHk_CFG_INV_DIR)))) ∧
  (∀ (n v : Nat), n ≤ 40 → v < 2 ^ n → grayToBin n (v ^^^ (v >>> 1)) = v))

/-- R88, R90, R91, R87: COUNTS_PER_REV is written in IDLE, SERVICE and TEST only; ARM in IDLE, WARM and SERVICE latches u0, b
and LINE_RATIO and sets WPOS to b and HWM to its line; a change of source in IDLE and SERVICE drops what was armed; ZLATCH
waits for the next index event. Refused, each sets CFG_REFUSED and nothing else. -/
def Obligations.PositionSetup : Prop :=
  (∀ (s : State) (m : Master) (ch : Fin 2) (w : Word), s.takes m (Reg.WP_CHk_CPR ch.val) → s.wpCfgMode = true →
    let t := s.wr (Reg.WP_CHk_CPR ch.val) (cmdWord (Reg.WP_CHk_CPR ch.val) w [])
    exec (.wpCprWrite m ch w) s = .next (s.wrote
      ((t.setEnc ch.val { s.enc ch.val with cnt := (s.enc ch.val).cnt % t.encCpr ch.val }).countMoved ch.val (s.encU ch.val)) m)) ∧
  (∀ (s : State) (m : Master) (ch : Fin 2) (w : Word), s.takes m (Reg.WP_CHk_CPR ch.val) → s.wpCfgMode = false →
    exec (.wpCprWrite m ch w) s = .next (s.wrote (s.flag Reg.WP_STAT F.WP_STAT_CFG_REFUSED) m)) ∧
  (∀ (s : State) (m : Master) (w : Word), s.takes m Reg.WP_CTRL → s.wp.src < 2 → s.armOk = true →
    F.WP_CTRL_SRC.get (cmdWord Reg.WP_CTRL w [(F.WP_CTRL_ARM, 1), (F.WP_CTRL_ZLATCH, 0)]) = s.wp.src →
    ∃ u : State, exec (.arm m w) s = .next (s.wrote u m) ∧
      u.wp.arm = some (s.wp.src, s.encU s.wp.src, s.armPos, s.lineRatio) ∧ u.wp.pos = s.armPos ∧ u.wp.hwm = s.armPos / 65536 ∧
      u.wp.holdLine = 0 ∧ u.wp.ch0 = s.wp.ch0 ∧ u.wp.ch1 = s.wp.ch1 ∧ u.js.lring = [] ∧ u.dram = s.dram ∧ u.flash = s.flash) ∧
  (∀ (s : State) (m : Master) (w : Word), s.takes m Reg.WP_CTRL → s.wp.src < 2 → s.armOk = false →
    F.WP_CTRL_SRC.get (cmdWord Reg.WP_CTRL w [(F.WP_CTRL_ARM, 1), (F.WP_CTRL_ZLATCH, 0)]) = s.wp.src →
    exec (.arm m w) s = .next (s.wrote (s.flag Reg.WP_STAT F.WP_STAT_CFG_REFUSED) m)) ∧
  (∀ (s : State) (m : Master) (w : Word) (k : Nat), s.takes m Reg.WP_CTRL → (s.mode = .idle ∨ s.mode = .service) →
    F.WP_CTRL_SRC.get (cmdWord Reg.WP_CTRL w [(F.WP_CTRL_ARM, 0), (F.WP_CTRL_ZLATCH, 0)]) = k → k ≠ s.wp.src → k ≠ 3 →
    exec (.src m w) s = .next (s.wrote
      { s with wp := { s.wp with src := k, arm := none }, hl := { s.hl with rope := none, posAt := s.now } } m)) ∧
  (∀ (s : State) (m : Master) (w : Word), s.takes m Reg.WP_CTRL → s.armMode = true → s.wp.src < 2 →
    exec (.zlatch m w) s = .next (s.wrote (s.setEnc s.wp.src { s.enc s.wp.src with zlatch := true }) m)) ∧
  (∀ (s : State) (m : Master) (w : Word), s.takes m Reg.WP_CTRL → s.armMode = false →
    exec (.zlatch m w) s = .next (s.wrote (s.flag Reg.WP_STAT F.WP_STAT_CFG_REFUSED) m))

/-- R101, R100: a compare armed while the position is at or past its target in its direction, moving that way, is behind: it
does not fire and sets BEHIND, COMPARE_BEHIND and the event. Any other compare is armed. EITHER is never behind. R97, R98,
R104: PRESS_HOLD_N is released once the web is RUNUP lines back and the next line is in the line ring; BACKUP_TIMEOUT is raised
once and leaves the pin low; a resynthesised output steps one quadrature state towards Q, at most every 20 ns. -/
def Obligations.ComparesAndPress : Prop :=
  ((∀ (s : State) (m : Master) (k : Fin 8) (w : Word), s.takes m (Reg.WP_CMPk_CTRL k.val) →
    let a := Reg.WP_CMPk_CTRL k.val
    let d := cmdWord a w [(F.WP_CMPk_CTRL_ARM, 1)]
    let src := F.WP_CMPk_CTRL_SRC.get d
    let dir := F.WP_CMPk_CTRL_DIR.get d
    let t : Nat := s.fld (Reg.WP_CMPk_HI k.val) F.WP_CMPk_HI_TARGET * 2 ^ 32 + s.rdN (Reg.WP_CMPk_LO k.val)
    let target : Int := if src = 0 then t else toSigned 48 t
    let pos := (s.cmpSource src).1
    let rev := (s.cmpSource src).2
    let isBehind := (dir = 0 ∧ target ≤ pos ∧ rev = false) ∨ (dir = 1 ∧ pos ≤ target ∧ rev = true)
    src ≠ 3 → dir ≠ 3 →
    ∃ u : State, exec (.cmpArm m k w) s = .next (s.wrote u m) ∧ u.wp.cmps = s.wp.cmps.set k.val ⟨decide (¬isBehind), target, src, dir⟩ ∧
      (isBehind → u.fld a F.WP_CMPk_CTRL_BEHIND = 1) ∧
      u.wp.pos = s.wp.pos ∧ u.wp.hwm = s.wp.hwm ∧ u.dram = s.dram ∧ u.flash = s.flash) ∧
  (∀ (dir : Nat) (target old new : Int),
    crosses dir target old new = decide ((dir ≠ 1 ∧ old < target ∧ target ≤ new) ∨ (dir ≠ 0 ∧ target < old ∧ new ≤ target)))) ∧
  ((∀ s : State, s.sys.inReset = false → s.wp.pinLow = true → s.line + s.si.limits.runup ≤ s.wp.hwm + 1 →
    s.lringComplete (s.wp.hwm + 1) = true →
    exec .pressHoldRelease s = .next (s.after { s with wp := { s.wp with pinLow := false } })) ∧
  (∀ (s : State) (t : Nat), s.sys.inReset = false → s.wp.pinLow = true → s.wp.pinSince = some t → s.rdN Reg.WP_BACKUP_TMO ≠ 0 →
    s.rdN Reg.WP_BACKUP_TMO * 1000000 ≤ s.now - t →
    exec .backupTimeout s = .next (s.after
      (({ s with wp := { s.wp with pinSince := none } }.flag Reg.WP_STAT F.WP_STAT_BACKUP_TIMEOUT).raise Ev.BACKUP_TIMEOUT))) ∧
  (∀ (s : State) (ch : Fin 2), s.sys.inReset = false → s.fld (Reg.WP_CHk_PT ch.val) F.WP_CHk_PT_PT_MODE = 2 →
    s.ptQ ch.val ≠ (s.ptOut ch.val).q → (∀ t, (s.ptOut ch.val).last = some t → t + 20 ≤ s.now) →
    ∃ u : State, exec (.ptOutputStep ch) s = .next (s.after u) ∧ (u.ptOut ch.val).last = some s.now ∧
      (u.ptOut ch.val).q = (s.ptOut ch.val).q + (if (s.ptOut ch.val).q < s.ptQ ch.val then 1 else -1) ∧ u.wp.pos = s.wp.pos))

/-! ## Printing -/

/-- R162, R163, R165, R185: an engine done with a line completes its entries; a bank shifts the frame of its next line, or
CONFIG frames outside PRINT; the end of the shift frees the entries; LAT moves what was shifted to the fire latches no earlier
than 40 ns after the tick, 20 ns after the shift and 20 ns after the last pulse. -/
def Obligations.LinesReachTheHeads : Prop :=
  (∀ (s : State) (e : Fin 16) (cycles l m : Nat), s.sys.inReset = false → s.hp.composing = some (l, m) → m.testBit e.val = true →
    ∃ u : State, exec (.lineComposeDone e cycles) s = .next (s.after u) ∧
      u.hp.composing = (if m = 2 ^ e.val then none else some (l, m - 2 ^ e.val)) ∧ u.hp.banks = s.hp.banks ∧
      (∀ q < 4, ∀ x ∈ (u.port (4 * e.val + q)).fifo, x.line = l → x.complete = true) ∧
      (∀ p : Nat, p / 4 ≠ e.val → u.port p = s.port p) ∧ u.wp = s.wp ∧ u.dram = s.dram) ∧
  (∀ (s : State) (t c : Nat), s.sys.inReset = false → s.mode = .print → s.wp.lastTick = some t → s.wp.tickAt = some c → c + 100 ≤ s.now →
    t = s.wp.hwm → s.wp.pinLow = false → s.composeReady (t + 1) = false → (t + 1, false) ∉ s.js.lead →
    ∃ u : State, exec .composeDeadline s = .next (s.after u) ∧ (t + 1, false) ∈ u.js.lead ∧ u.wp.hwm = s.wp.hwm ∧
      u.wp.pinLow = s.si.limits.backup ∧ (s.si.limits.backup = true → u.wp.holdLine = t + 1) ∧ u.hp = s.hp ∧ u.dram = s.dram) ∧
  (∀ (s : State) (b : Fin 16) (l : Nat), s.sys.inReset = false → s.mode = .print → (s.bank b.val).shifting = none →
    (s.bank b.val).waiting = none → s.witRole ≠ 2 → s.shiftGap b.val = true → s.nextFrame b.val = some l →
    (∀ p ∈ s.bankOn l b.val, ∃ e ∈ (s.port p).fifo, e.line = l ∧ e.complete = true) →
    ∃ u : State, exec (.frameShift b) s = .next (s.after u) ∧
      u.hp.banks = s.hp.banks.set b.val { s.bank b.val with shifting := some (.line l, s.now + s.shiftTime b.val) } ∧
      (∀ p ∈ s.bankOn l b.val, p < s.hp.ports.length → (u.port p).shifted =
        (if (s.port p).st = .ready && (s.port p).cfgOk then (s.port p).fifo.find? fun e => e.line = l else none)) ∧
      u.regs = s.regs ∧ u.wp = s.wp ∧ u.dram = s.dram) ∧
  (∀ (s : State) (b : Fin 16), s.sys.inReset = false → (s.mode = .idle ∨ s.mode = .warm ∨ s.mode = .service) →
    (s.bank b.val).shifting = none → (s.bank b.val).waiting = none → s.witRole ≠ 2 → s.configDue b.val ≠ [] →
    ∃ u : State, exec (.frameShift b) s = .next (s.after u) ∧
      u.hp.banks = s.hp.banks.set b.val { s.bank b.val with shifting := some (.config, s.now + s.shiftTime b.val) } ∧
      (∀ p ∈ s.configDue b.val, p < s.hp.ports.length → (u.port p).cfgDue = false) ∧ u.regs = s.regs ∧ u.dram = s.dram) ∧
  (∀ (s : State) (b : Fin 16) (l e : Nat), s.sys.inReset = false → (s.bank b.val).shifting = some (.line l, e) → e ≤ s.now →
    ∃ u : State, exec (.shiftComplete b) s = .next (s.after u) ∧
      u.hp.banks = s.hp.banks.set b.val { s.bank b.val with shifting := none, waiting := some (.line l, e) } ∧
      (∀ p ∈ bankPorts b.val, ∀ x ∈ (u.port p).fifo, x.line ≠ l) ∧ (∀ p ∉ bankPorts b.val, u.port p = s.port p) ∧
      u.regs = s.regs ∧ u.dram = s.dram) ∧
  (∀ (s : State) (b : Fin 16) (l e t : Nat), s.sys.inReset = false → (s.bank b.val).waiting = some (.line l, e) →
    s.lineTick b.val l = some t → s.bankBegun b.val = true → t + 40 ≤ s.now → e + 20 ≤ s.now → s.bankEnd b.val + 20 ≤ s.now →
    ∃ u : State, exec (.latIssue b) s = .next (s.after u) ∧
      u.hp.banks = s.hp.banks.set b.val { s.bank b.val with waiting := none, latAt := some s.now, latLine := some l, latTick := some t } ∧
      (∀ p ∈ bankPorts b.val, p < s.hp.ports.length → (u.port p).latched = (s.port p).shifted ∧ (u.port p).shifted = none) ∧
      (∀ p ∉ bankPorts b.val, u.port p = s.port p) ∧ u.regs = s.regs ∧ u.dram = s.dram) ∧
  (∀ (s : State) (b : Fin 16) (l e t : Nat), s.sys.inReset = false → (s.bank b.val).waiting = some (.line l, e) →
    s.lineTick b.val l = some t → s.now < max (max (t + 40) (e + 20)) (s.bankEnd b.val + 20) →
    exec (.latIssue b) s = .next (s.after s))

/-- R183, R28, R174, R191: at s_p(L) the frame latched on a READY port in PRINT is emitted at this cycle, its drops are
counted, placement is judged and the line counts as fired, HWM following the first port. A port inhibited by HARD_T or by a
gate, or not READY, emits nothing and has the outcome NOT_FIRED. -/
def Obligations.LinesFire : Prop :=
  (∀ (s : State) (p : Fin 64) (l lat : Nat) (f : Freeze), s.sys.inReset = false → (s.bank (p.val / 4)).latLine = some l →
    (s.bank (p.val / 4)).latAt = some lat → (s.port p.val).freeze.find? (fun f => f.line = l) = some f → s.si.portValid p.val = true →
    s.portOn l p.val = true → (s.bar l).known.testBit p.val = false → (l ≤ s.wp.hwm ∨ s.wp.ticking = some l) →
    s.lineStart p.val f lat ≤ s.now →
    let t := ((s.lineCount p.val).firePort l p.val f).idleCheck p.val
    exec (.lineFire p) s = .next (s.after (if t.wp.hwm < l then t.lineBegin l else t))) ∧
  (∀ (s : State) (p : Fin 64) (l : Nat) (f : Freeze) (e : FifoEntry) (t : WaveTab), (s.port p.val).latched = some e → e.line = l →
    s.waveAt l p.val = some t → s.mode = .print → (s.port p.val).st = .ready → (s.port p.val).cfgOk = true → f.hot = false →
    s.gateCut p.val = false →
    let v := ((s.emitPulses p.val s.now t e f).countDrops p.val t e).inTap p.val l (drivenValues t e)
    let r := v.placed l p.val f
    s.firePort l p.val f = if e.blanked then r.2.outcome l p.val 3 none true
      else if r.1 then r.2.outcome l p.val 6 none false else r.2.outcome l p.val 0 none false) ∧
  (∀ (s : State) (p : Fin 64) (l : Nat) (f : Freeze) (e : FifoEntry) (t : WaveTab), (s.port p.val).latched = some e → e.line = l →
    s.waveAt l p.val = some t →
    (f.hot = true → s.firePort l p.val f = s.outcome l p.val 1 (some 3) true) ∧
    (f.hot = false → s.gateCut p.val = true → s.firePort l p.val f = s.outcome l p.val 1 (some 4) true) ∧
    (f.hot = false → s.gateCut p.val = false → (s.port p.val).st ≠ .ready → s.firePort l p.val f = s.unfired l p.val)) ∧
  (∀ (s : State) (l p c : Nat) (fin : Bool), p < 64 → c < 7 → ((s.bar l).known.testBit p = true ∨ (s.bar l).final.testBit p = false) →
    (s.outcome l p c none fin).hp = s.hp ∧
    ((s.outcome l p c none fin).bar l).known.testBit p = true ∧ ((s.outcome l p c none fin).bar l).code p = c) ∧
  (∀ (s : State) (l p c : Nat) (flag : Option Nat) (fin : Bool), p < 64 → (s.bar l).known.testBit p = false →
    ((s.decline l p).bar l).known = (s.bar l).known ∧ ((s.decline l p).bar l).final.testBit p = true ∧
    (((s.decline l p).outcome l p c flag fin).bar l).code p = 5)

/-- R196, R195, R215: a warming line and a spit line shift a frame of their own on a free bank, in WARM and SERVICE; once
DECAP_MS has passed since the last spit the decap timer runs spit profile 0 where AUTO_SPIT allows it and raises DECAP_DUE
otherwise. R167, R169, R171: CFG_SEND asks for CONFIG frames on every READY port and is refused in PRINT. A return frame that
fails its check only sets the flags of RET_FRAME; a good STATUS frame gives temperature and parity echo, a good IDENT frame the
identity. HP_RET low for ABSENT_US leaves the port ABSENT, and STALE_US without a STATUS frame takes it out of READY. R175,
R176: an asserted gate input sets its cut latch and no other; its return to deasserted leaves the latch set; GATE_CLEAR clears
exactly the latches whose input is deasserted. -/
def Obligations.HeadsAndGates : Prop :=
  ((∀ (s : State) (b : Fin 16), s.sys.inReset = false →
    let hz := min 50000 (s.fld (Reg.FE_BANKb_WARM b.val) F.FE_BANKb_WARM_HZ)
    hz ≠ 0 → s.bankFree b.val = true → 1000000000 / hz ≤ s.now - (s.bank b.val).warmAt →
    (∀ p ∈ bankPorts b.val, s.spitDue p = false) →
    (∃ p ∈ bankPorts b.val, s.extraPort p = true ∧ s.fld (Reg.FE_Pp_WARM p) F.FE_Pp_WARM_WIDTH ≠ 0 ∧
      ∃ t, s.waveAt (s.wp.hwm + 1) p = some t ∧ (t.slots t.activeSet).any WSlot.warm = true) →
    ∃ u : State, exec (.warmingLine b) s = .next (s.after u) ∧
      u.hp.banks = s.hp.banks.set b.val { s.bank b.val with
        warmAt := s.now, shifting := some (.warming, s.now + s.shiftTime b.val), par := !(s.bank b.val).par } ∧
      u.regs = s.regs ∧ u.wp = s.wp ∧ u.dram = s.dram) ∧
  (∀ (s : State) (p : Fin 64) (k left : Nat), s.sys.inReset = false → (s.port p.val).spit = some (k, left + 1) →
    s.bankFree (p.val / 4) = true → s.spitDue p.val = true → p.val < s.hp.ports.length →
    ∃ u : State, exec (.spitLine p) s = .next (s.after u) ∧
      u.hp.banks = s.hp.banks.set (p.val / 4) { s.bank (p.val / 4) with
        shifting := some (.spit, s.now + s.shiftTime (p.val / 4)), par := !(s.bank (p.val / 4)).par } ∧
      (u.port p.val).spit = (if left = 0 then none else some (k, left)) ∧ (u.port p.val).spitAt = s.now ∧
      u.wp = s.wp ∧ u.dram = s.dram) ∧
  (∀ (s : State) (p : Fin 64), s.sys.inReset = false → s.fld (Reg.NH_Pp_CFG p.val) F.NH_Pp_CFG_DECAP_MS ≠ 0 →
    s.fld (Reg.NH_Pp_CFG p.val) F.NH_Pp_CFG_DECAP_MS * 1000000 ≤ s.now - (s.port p.val).decapAt →
    s.isSet Reg.NH_CFG F.NH_CFG_AUTO_SPIT = true →
    (s.mode = .service ∨ (s.mode = .warm ∧ s.isSet Reg.NH_CFG F.NH_CFG_WARM_SPIT = true)) →
    exec (.decapTimerExpire p) s = .next (s.after (s.startSpit p.val 0))) ∧
  (∀ (s : State) (p : Fin 64), s.sys.inReset = false → s.fld (Reg.NH_Pp_CFG p.val) F.NH_Pp_CFG_DECAP_MS ≠ 0 →
    s.fld (Reg.NH_Pp_CFG p.val) F.NH_Pp_CFG_DECAP_MS * 1000000 ≤ s.now - (s.port p.val).decapAt →
    s.isSet Reg.NH_CFG F.NH_CFG_AUTO_SPIT = false →
    exec (.decapTimerExpire p) s = .next (s.after (((s.flag (Reg.NH_Pp_STAT p.val) F.NH_Pp_STAT_DECAP_DUE).flag Reg.NH_STAT
      F.NH_STAT_DECAP_DUE).raise Ev.DECAP_DUE (portH p.val))))) ∧
  ((∀ (s : State) (m : Master) (w : Word), s.takes m Reg.HP_CTRL → s.mode ≠ .print →
    exec (.cfgSend m w) s = .next (s.wrote
      { s with hp := { s.hp with ports := s.hp.ports.map fun q => if q.st = .ready then { q with cfgDue := true, cfgFails := 0 } else q } } m)) ∧
  (∀ (s : State) (m : Master) (w : Word), s.takes m Reg.HP_CTRL → s.mode = .print →
    exec (.cfgSend m w) s = .next (s.wrote (s.flag Reg.HP_STAT F.HP_STAT_CFG_REFUSED) m)) ∧
  (∀ (s : State) (p : Fin 64) (bs : List Byte), s.sys.inReset = false → returnOk bs = false →
    exec (.headReturnFrame p bs) s = .next (s.after
      (((((s.setPort p.val ((s.port p.val).cover s.now)).bump (Reg.HP_Pp_ERRCNT p.val) F.HP_Pp_ERRCNT_RET_BAD).flag (Reg.HP_Pp_STAT p.val) F.HP_Pp_STAT_RET_ERR).flag Reg.HP_STAT
        F.HP_STAT_RET_FRAME).raise Ev.RET_FRAME (portH p.val)))) ∧
  (∀ (q : HeadPort) (now : Nat) (r : LatRec), (r ∈ (q.cover now).lats ↔ r ∈ q.lats ∧ now < r.time + 6820) ∧
    (q.cover now).fifo = q.fifo ∧ (q.cover now).latched = q.latched ∧ (q.cover now).temp = q.temp) ∧
  (∀ (s : State) (p : Fin 64) (bs : List Byte), s.sys.inReset = false → returnOk bs = true → leAt bs 0 8 % 16 = 1 →
    s.padLoop p.val = false → p.val < s.hp.ports.length →
    ∃ u : State, exec (.headReturnFrame p bs) s = .next (s.after u) ∧
      (u.port p.val).temp = some (toSigned 14 (bits (leAt bs 0 8) 21 8), s.now) ∧ (u.port p.val).staleAt = s.now ∧
      (u.port p.val).parEcho = (leAt bs 0 8).testBit 4 ∧ (u.port p.val).st ≠ .absent ∧ u.dram = s.dram) ∧
  (∀ (s : State) (p : Fin 64) (bs : List Byte), s.sys.inReset = false → returnOk bs = true → leAt bs 0 8 % 16 = 2 →
    s.padLoop p.val = false → p.val < s.hp.ports.length →
    ∃ u : State, exec (.headReturnFrame p bs) s = .next (s.after u) ∧ (u.port p.val).identValid = true ∧
      (u.port p.val).headType = bits (leAt bs 0 8) 19 4 ∧ (u.port p.val).rev = bits (leAt bs 0 8) 23 20 ∧
      (u.port p.val).serial = bits (leAt bs 0 8) 55 24) ∧
  (∀ (s : State) (p : Fin 64), s.sys.inReset = false → p.val < s.hp.ports.length →
    ∃ u : State, exec (.headAbsentTimeout p) s = .next (s.after u) ∧ (u.port p.val).st = .absent ∧
      (u.port p.val).identValid = false ∧ (u.port p.val).lats = [] ∧ (∀ q : Nat, q ≠ p.val → u.port q = s.port q)) ∧
  (∀ (s : State) (p : Fin 64), s.sys.inReset = false → p.val < s.hp.ports.length → (s.port p.val).st = .ready →
    max 60 (s.fld Reg.HP_RET_CFG F.HP_RET_CFG_STALE_US) * 1000 ≤ s.now - (s.port p.val).staleAt →
    ∃ u : State, exec (.headStaleTimeout p) s = .next (s.after u) ∧ (u.port p.val).st = .present ∧ (u.port p.val).cfgOk = false ∧
      (∀ q : Nat, q ≠ p.val → u.port q = s.port q))) ∧
  ((∀ (s : State) (g : Fin 9), s.sys.inReset = false →
    ∃ u : State, exec (.gateInputAssert g) s = .next (s.after u) ∧ u.hp.gateLevel = s.hp.gateLevel ||| 2 ^ g.val ∧
      u.hp.cut = s.hp.cut ||| 2 ^ g.val) ∧
  (∀ (s : State) (g : Fin 9), s.sys.inReset = false →
    ∃ u : State, exec (.gateInputDeassert g) s = .next (s.after u) ∧ u.hp.gateLevel.testBit g.val = false ∧ u.hp.cut = s.hp.cut ∧
      (∀ j : Nat, j ≠ g.val → u.hp.gateLevel.testBit j = s.hp.gateLevel.testBit j) ∧ u.hp.ports = s.hp.ports) ∧
  (∀ (s : State) (m : Master) (w : Word), s.takes m Reg.HP_CTRL →
    exec (.gateClear m w) s = .next (s.wrote { s with hp := { s.hp with cut := s.hp.cut &&& s.gateIn } } m)) ∧
  (∀ s : State, s.sys.vddio5Low = false → ∀ g : Nat,
    (s.hp.cut &&& s.gateIn).testBit g = (s.hp.cut.testBit g && s.hp.gateLevel.testBit g)))

/-! ## Nozzle health -/

/-- R199, R206, R208: a record write is accepted exactly where R199 allows it; outside PRINT it commits at once at HWM + 1, in
PRINT it waits in the commit queue; refused, or with the queue full, it completes with an error and leaves the records alone.
R207: staging of the map copy for the first queued commit starts in PRINT once the copy for the lower position is free, and
completes. -/
def Obligations.NozzleRequests : Prop :=
  ((∀ (s : State) (m : Master) (i : Fin 131072) (w : Word), s.takes m (0x1000000 + 32 * i.val) → s.mode ≠ .print →
    s.nozWriteOk i.val w = true →
    exec (.nozzleRecordWrite m i w) s = .next (s.wrote
      (s.commit (s.wp.hwm + 1) [s.nozAsk i.val w]) m)) ∧
  (∀ (s s' : State) (m : Master) (i : Fin 131072) (w : Word), s.takes m (0x1000000 + 32 * i.val) → s.mode = .print →
    s.nozWriteOk i.val w = true → s.queueReq (s.nozAsk i.val w) = some s' →
    exec (.nozzleRecordWrite m i w) s = .next (s.wrote s' m)) ∧
  (∀ (s : State) (m : Master) (i : Fin 131072) (w : Word), s.takes m (0x1000000 + 32 * i.val) → s.nozWriteOk i.val w = false →
    exec (.nozzleRecordWrite m i w) s = .next (s.after (s.complete m.val 0 true false))) ∧
  (∀ (s : State) (i : Nat) (w : Word), s.fld Reg.AU_WIT_CFG F.AU_WIT_CFG_ROLE ≠ 2 → w.toNat < 2 ^ 16 →
    s.mode ≠ .boot → s.mode ≠ .test →
    let st := bits w.toNat 1 0
    let cur := (s.noz i).state
    cur < 4 → (s.nozWriteOk i w = true ↔ st = cur ∨ st = 3 ∨ (st = 0 ∧ cur = 3))) ∧
  (∀ (s : State) (c epoch i st : Nat) (pol : Option Nat), st ≠ (s.noz i).state →
    let u := s.commitNoz c epoch i st pol
    (u.noz i).state = st ∧ (u.noz i).epoch = epoch ∧ (u.noz i).stateLine = c % 2 ^ 32 ∧
      (u.noz i).changes = min 0xFFFF ((s.noz i).changes + 1) ∧ (u.noz i).fire = (s.noz i).fire ∧
      (∀ j : Nat, j ≠ i → u.noz j = s.noz j))) ∧
  ((∀ (s : State) (c : Nat), s.sys.inReset = false → s.mode = .print → s.nextCommit = some c → s.nh.staging = none → s.nh.mapOld = none →
    exec .mapStagingStart s = .next (s.after { s with nh := { s.nh with staging := some (c, false) } })) ∧
  (∀ (s : State) (c : Nat) (b : Bool), s.sys.inReset = false → s.nh.staging = some (c, b) →
    exec .mapStagingComplete s = .next (s.after { s with nh := { s.nh with staging := some (c, true) } })))

/-- R200 to R202: the sweep adds every accumulator to FIRE_COUNT and writes the whole shadow area of every port; a changed
record goes to its place in the shadow with the header of its port; RESTORE in IDLE takes the records of a port whose header
matches its head and is refused otherwise. R210, R211: evidence is dropped as STALE, SPLIT or GAP, or applied to the nozzle
that served, alone: CLEAN ends both runs, WEAK advances one, MISSING both, and a run that reaches its limit queues DEAD or
WEAK. -/
def Obligations.EvidenceAndShadow : Prop :=
  ((∀ s : State, s.sys.inReset = false →
    exec .nhSweep s = .next (s.after
      (let t := s.sweepList.foldl (fun (t : State) i => t.flush i) s
       let t := t.validPorts.foldl (fun (t : State) p => (t.project p).replaceUpdate p) t
       (List.range 64).foldl (fun (t : State) p => t.shadowSweep p) t))) ∧
  (∀ (s : State) (i : Nat), (AMap.get (fun _ => 0) s.nh.acc i ≠ 0 ∨ s.noz i ≠ s.si.recDefault i) → i ∈ s.sweepList) ∧
  (∀ (s : State) (p a : Nat), s.shadowAt p = some a →
    let u := s.shadowSweep p
    (∀ n < 2048, u.dramRead (a + 32 * n) 32 = s.nozBytes (2048 * p + n)) ∧
    u.dramRead (a + 65536) 7 = leBytes 4 (s.port p).serial ++ leBytes 2 (s.port p).headType ++ [1] ∧
    (∀ x : Nat, a + 65600 ≤ x → x < a + 131072 → u.dramRead x 1 = [0]) ∧
    (∀ x : Nat, (x < a ∨ a + 131072 ≤ x) → u.dramRead x 1 = s.dramRead x 1)) ∧
  (∀ (s : State) (i : Nat), s.wearLimit (i / 2048) = 0 →
    let u := s.flush i
    (u.noz i).fire = min (2 ^ 40 - 1) ((s.noz i).fire + AMap.get (fun _ => 0) s.nh.acc i) ∧ AMap.get (fun _ => 0) u.nh.acc i = 0 ∧
      (∀ j : Nat, j ≠ i → u.noz j = s.noz j)) ∧
  (∀ (s : State) (i : Fin 131072) (a : Nat), s.sys.inReset = false → s.shadowAt (i.val / 2048) = some a →
    ∃ u : State, exec (.nhShadowWrite i) s = .next (s.after u) ∧ u.dramRead (a + 65536) 6 =
        leBytes 4 (s.port (i.val / 2048)).serial ++ leBytes 2 (s.port (i.val / 2048)).headType ∧
      u.dramRead (a + 32 * (i.val % 2048)) 32 = s.nozBytes i.val ∧
      (∀ x : Nat, (x < a + 32 * (i.val % 2048) ∨ a + 32 * (i.val % 2048) + (s.nozBytes i.val).length ≤ x) →
        (x < a + 65536 ∨ a + 65536 + 64 ≤ x) → u.dramRead x 1 = s.dramRead x 1) ∧ u.regs = s.regs ∧ u.nh = s.nh) ∧
  (∀ (s : State) (m : Master) (w : Word) (a p : Nat), s.takes m Reg.NH_CTRL → s.mode = .idle →
    F.NH_CTRL_PORT.get (cmdWord Reg.NH_CTRL w [(F.NH_CTRL_RESTORE, 1)]) = p → s.shadowAt p = some a → (s.port p).identValid = true →
    leAt (s.dramRead (a + 65536) 64) 6 1 = 1 → leAt (s.dramRead (a + 65536) 64) 0 4 = (s.port p).serial →
    leAt (s.dramRead (a + 65536) 64) 4 2 = (s.port p).headType →
    ∃ u : State, exec (.restore m w) s = .next (s.wrote u m) ∧ (u.nh.epoch = s.nh.epoch ∨ u.nh.epoch = (s.nh.epoch + 1) % 65536) ∧
      (∀ n < 2048, (u.noz (2048 * p + n)).fire = (NozRec.ofBytes (s.dramRead (a + 32 * n) 32)).fire) ∧ u.dram = s.dram) ∧
  (∀ (s : State) (m : Master) (w : Word), s.takes m Reg.NH_CTRL → s.mode ≠ .idle →
    exec (.restore m w) s = .next (s.wrote (s.flag Reg.NH_STAT F.NH_STAT_RESTORE_REFUSED) m))) ∧
  ((∀ (s : State) (e : EvidRec) (rest : List EvidRec) (i n : Nat), s.sys.inReset = false → s.inn.evq = e :: rest →
    s.fld Reg.AU_WIT_CFG F.AU_WIT_CFG_ROLE ≠ 2 → s.line - s.si.limits.camOffset - s.evidWindow ≤ e.last →
    s.epochAt e.first = some n → s.epochAt e.last = some n → s.servedAt e.port e.pos n = some i →
    exec .evidenceRecordApply s = .next (s.after ({ s with inn := { s.inn with evq := rest } }.evidApply i e.cls))) ∧
  (∀ (s : State) (e : EvidRec) (rest : List EvidRec), s.sys.inReset = false → s.inn.evq = e :: rest →
    s.fld Reg.AU_WIT_CFG F.AU_WIT_CFG_ROLE ≠ 2 → e.last < s.line - s.si.limits.camOffset - s.evidWindow →
    exec .evidenceRecordApply s = .next (s.after
      ((({ s with inn := { s.inn with evq := rest } }.bump Reg.NH_EVID_DROP F.NH_EVID_DROP_STALE).flag Reg.NH_STAT F.NH_STAT_EVID_STALE).raise
        Ev.EVID_STALE))) ∧
  (∀ (s : State) (e : EvidRec) (rest : List EvidRec) (n : Nat), s.sys.inReset = false → s.inn.evq = e :: rest →
    s.fld Reg.AU_WIT_CFG F.AU_WIT_CFG_ROLE ≠ 2 → s.line - s.si.limits.camOffset - s.evidWindow ≤ e.last → s.epochAt e.last = some n →
    (s.epochAt e.first ≠ some n ∨ s.servedAt e.port e.pos n = none) →
    exec .evidenceRecordApply s = .next (s.after
      ((({ s with inn := { s.inn with evq := rest } }.bump Reg.NH_EVID_DROP F.NH_EVID_DROP_SPLIT_GAP).flag Reg.NH_STAT
        F.NH_STAT_EVID_STALE).raise Ev.EVID_STALE))) ∧
  (∀ (s : State) (i : Nat), (s.noz i).state = 3 →
    ((s.evidApply i 0).noz i).missRun = 0 ∧ ((s.evidApply i 0).noz i).weakRun = 0 ∧
    ((s.evidApply i 1).noz i).missRun = 0 ∧ ((s.evidApply i 1).noz i).weakRun = min 15 ((s.noz i).weakRun + 1) ∧
    ((s.evidApply i 2).noz i).missRun = min 15 ((s.noz i).missRun + 1) ∧
    ((s.evidApply i 2).noz i).weakRun = min 15 ((s.noz i).weakRun + 1) ∧
    ((s.evidApply i 2).noz i).state = 3 ∧ (∀ c j : Nat, j ≠ i → (s.evidApply i c).noz j = s.noz j)) ∧
  (∀ (s : State) (i : Nat), (s.noz i).state ≤ 1 → (s.noz i).missRun < 15 →
    (s.noz i).missRun + 1 = max 1 (s.fld Reg.NH_CFG F.NH_CFG_MISS_N) →
    s.evidApply i 2 = (s.setNoz i { s.noz i with
      missRun := (s.noz i).missRun + 1, weakRun := min 15 ((s.noz i).weakRun + 1) }).requestOrDrop (.noz i (some 2) none)))

/-- R212 to R214: a drop-gate scan starts in SERVICE with axis 3 homed and stopped; SETTLE_US after the move shots are fired;
each shot is fired as a spit line of one nozzle on a bank that is free, timed and counted, good where both beams are crossed
within their windows; the last shot classifies the nozzle; ABORT ends the scan with cause 1. -/
def Obligations.DropGateScan : Prop :=
  (∀ (s : State) (m : Master) (w : Word), s.takes m Reg.NH_GATE_CTRL → s.mode = .service → (s.axis 3).homed = true →
    (s.axis 3).st = .stopped → s.nh.gate.running = false → s.si.valid (s.fld Reg.NH_GATE_CFG F.NH_GATE_CFG_UNIT) = true →
    let todo := s.gateList (s.fld Reg.NH_GATE_CFG F.NH_GATE_CFG_UNIT)
    let ports := (todo.map (· / 2048)).eraseDups
    let g : GateScan := { st := 1, cause := 0, scan := (s.nh.gate.scan + 1) % 65536, todo := todo, shots := 0, good := 0, sumA := 0,
                          sumD := 0, results := [], ports := ports }
    (∀ p ∈ ports, (s.port p).spit = none) →
    exec (.gateScanStart m w) s = .next (s.wrote
      (if todo.isEmpty then { s with nh := { s.nh with gate := { g with st := 3 } } } else { s with nh := { s.nh with gate := g } }.gateMove) m)) ∧
  (∀ (s : State) (m : Master) (w : Word), s.takes m Reg.NH_GATE_CTRL → s.nh.gate.running = true →
    let t := s.gateCommit
    exec (.gateScanAbort m w) s = .next (s.wrote
      (({ t with nh := { t.nh with gate := { t.nh.gate with st := 4, cause := 1, todo := [] } } }.flag Reg.NH_STAT F.NH_STAT_GATE_ABORT).raise
        Ev.GATE_ABORT (portH ((s.nh.gate.todo.head?.getD 0) / 2048))) m)) ∧
  (∀ (s : State) (la lb : Fin 1024), s.sys.inReset = false → s.nh.gate.st = 1 → (s.axis 3).st = .stopped →
    ∃ u : State, exec (.gateScanSettleDone la lb) s = .next (s.after u) ∧ u.nh.gate = { s.nh.gate with st := 2 } ∧
      u.mo = s.mo ∧ u.dram = s.dram) ∧
  (∀ (s : State) (ta tb : Option Nat) (i : Nat) (rest : List Nat), s.sys.inReset = false → s.nh.gate.st = 2 → s.nh.gate.todo = i :: rest →
    exec (.gateShot ta tb) s = .next (s.after (if s.bankFree (i / 2048 / 4) then (s.shotFired i).gateJudge i ta tb else s))) ∧
  (∀ (t : State) (i : Nat) (ta tb : Option Nat),
    let g := t.nh.gate
    let u := match t.shotGood ta tb with
      | some (a, d) => t.setGate { g with shots := g.shots + 1, good := g.good + 1, sumA := g.sumA + a, sumD := g.sumD + d }
      | none => t.setGate { g with shots := g.shots + 1 }
    t.gateJudge i ta tb = if u.gateRepeats ≤ u.nh.gate.shots then u.gateClassify i else u) ∧
  (∀ (s : State) (a b : Nat),
    let o := s.fld Reg.NH_GATE_WIN F.NH_GATE_WIN_WIN_OPEN * 10
    let l := s.fld Reg.NH_GATE_WIN F.NH_GATE_WIN_WIN_LEN * 10
    let dmax := s.fld Reg.NH_GATE_DT F.NH_GATE_DT_DT_MAX * 10
    let dmin := s.fld Reg.NH_GATE_DT F.NH_GATE_DT_DT_MIN * 10
    (s.shotGood (some a) (some b) = some (a, b - a) ↔
      (o ≤ a ∧ a ≤ o + l ∧ o ≤ b ∧ b ≤ o + l + dmax ∧ a + dmin ≤ b ∧ b ≤ a + dmax)) ∧
    s.shotGood none (some b) = none ∧ s.shotGood (some a) none = none) ∧
  (∀ g n : Nat, 1 ≤ n → g ≤ n → (gateResult g n = 1 ↔ g = n) ∧ (gateResult g n = 2 ↔ n ≤ 2 * g ∧ g < n) ∧
    (gateResult g n = 3 ↔ 2 * g < n))

/-! ## Jobs -/

/-- R110: OPEN takes an EMPTY slot to LOADING unless its range is outside DRAM or meets another slot (ERR MEMORY); SEAL takes a
LOADING slot that is filled to READY (else ERR FILL); FREE takes a slot that no job maps to EMPTY (else ERR IN_USE); in any
other state each is refused with ERR STATE. A slot that a job maps stays as it is under FREE. R106, R107, R114, R117: LOAD of a
slot that is EMPTY, DONE or FAILED copies the job, or leaves the slot FAILED with the error of the first check it breaks; ARM
of a LOADED job makes it the current job where no other is active; UNLOAD empties a slot; a command the state does not list is
ERR STATE and changes nothing else. A write of RING_WP publishes the records below it. -/
def Obligations.JobsAndPlates : Prop :=
  ((∀ (s : State) (m : Master) (w : Word) (k : Nat), s.takes m Reg.JS_PLATE_CMD →
    F.JS_PLATE_CMD_SLOT.get (cmdWord Reg.JS_PLATE_CMD w [(F.JS_PLATE_CMD_OP, 1)]) = k →
    exec (.plateOpen m w) s = .next (s.wrote
      (if (s.plate k).phase ≠ .empty then s.setFld Reg.JS_PLATE_STAT F.JS_PLATE_STAT_ERR 1
       else if s.inDram (s.plateRegion k) = false ∨ s.meetsPlate (s.plateRegion k) = true then s.setFld Reg.JS_PLATE_STAT F.JS_PLATE_STAT_ERR 2
       else { s with js := { s.js with plates := s.js.plates.set k ⟨.loading, 0⟩ } }.setFld Reg.JS_PLATE_STAT F.JS_PLATE_STAT_ERR 0) m)) ∧
  (∀ (s : State) (m : Master) (w : Word) (k : Nat), s.takes m Reg.JS_PLATE_CMD →
    F.JS_PLATE_CMD_SLOT.get (cmdWord Reg.JS_PLATE_CMD w [(F.JS_PLATE_CMD_OP, 2)]) = k →
    exec (.plateSeal m w) s = .next (s.wrote
      (if (s.plate k).phase ≠ .loading then s.setFld Reg.JS_PLATE_STAT F.JS_PLATE_STAT_ERR 1
       else if (s.plate k).fill ≠ 32768 * s.fld (Reg.JS_PLATEk_CFG k) F.JS_PLATEk_CFG_LINES then
         s.setFld Reg.JS_PLATE_STAT F.JS_PLATE_STAT_ERR 3
       else { s with js := { s.js with plates := s.js.plates.set k ⟨.ready, (s.plate k).fill⟩ } }.setFld Reg.JS_PLATE_STAT
         F.JS_PLATE_STAT_ERR 0) m)) ∧
  (∀ (s : State) (m : Master) (w : Word) (k : Nat), s.takes m Reg.JS_PLATE_CMD →
    F.JS_PLATE_CMD_SLOT.get (cmdWord Reg.JS_PLATE_CMD w [(F.JS_PLATE_CMD_OP, 3)]) = k →
    exec (.plateFree m w) s = .next (s.wrote
      (if (s.plate k).phase = .empty then s.setFld Reg.JS_PLATE_STAT F.JS_PLATE_STAT_ERR 1
       else if s.plateMapped k = true then s.setFld Reg.JS_PLATE_STAT F.JS_PLATE_STAT_ERR 4
       else { s with js := { s.js with plates := s.js.plates.set k ⟨.empty, 0⟩ } }.setFld Reg.JS_PLATE_STAT F.JS_PLATE_STAT_ERR 0) m)) ∧
  (∀ (s : State) (k : Nat), s.plateMapped k = true ↔
    ∃ j ∈ [s.js.job0, s.js.job1], j.phase ∈ [JobPhase.loaded, .armed, .running, .draining, .closing] ∧
      ∃ i < 16, j.planeMap / 16 ^ i % 16 = k)) ∧
  ((∀ (s : State) (m : Master) (w : Word) (k : Nat), s.takes m Reg.JS_CTRL →
    F.JS_CTRL_SLOT.get (cmdWord Reg.JS_CTRL w [(F.JS_CTRL_LOAD, 1), (F.JS_CTRL_ARM, 0), (F.JS_CTRL_UNLOAD, 0)]) = k →
    (s.job k).phase ∈ [JobPhase.empty, .done, .failed] → s.si.loaded = true →
    let at' := s.rdN (Reg.JS_JOBs_DESC k) * 64
    ∃ u : State, exec (.jobLoad m w) s = .next (s.wrote u m) ∧ u.dram = s.dram ∧ u.wp = s.wp ∧
      (s.loadErr at' = 0 → (u.job k).phase = .loaded ∧ (u.job k).rp = 0 ∧ (u.job k).wp = 0 ∧ (u.job k).nextInst = 0 ∧
        (u.job k).jobId = leAt (s.dramRead at' 64) 0x08 4 ∧ u.job (1 - k) = s.job (1 - k)) ∧
      (s.loadErr at' ≠ 0 → (u.job k).phase = .failed ∧ (u.job k).err = s.loadErr at' ∧ u.job (1 - k) = s.job (1 - k))) ∧
  (∀ (s : State) (m : Master) (w : Word) (k : Nat), s.takes m Reg.JS_CTRL →
    F.JS_CTRL_SLOT.get (cmdWord Reg.JS_CTRL w [(F.JS_CTRL_ARM, 1), (F.JS_CTRL_LOAD, 0), (F.JS_CTRL_UNLOAD, 0)]) = k →
    (s.job k).phase = .loaded → (s.job (1 - k)).phase ∉ [JobPhase.armed, .running, .draining] →
    ∃ u : State, exec (.jobArm m w) s = .next (s.wrote u m) ∧ u.js.cur = some k ∧ u.js.next = none ∧
      u.job k = { s.job k with phase := .armed, err := 0 } ∧ u.job (1 - k) = s.job (1 - k) ∧ u.wp = s.wp ∧ u.dram = s.dram) ∧
  (∀ (s : State) (m : Master) (w : Word) (k : Nat), s.takes m Reg.JS_CTRL →
    F.JS_CTRL_SLOT.get (cmdWord Reg.JS_CTRL w [(F.JS_CTRL_UNLOAD, 1), (F.JS_CTRL_LOAD, 0), (F.JS_CTRL_ARM, 0)]) = k →
    (s.job k).phase ∈ [JobPhase.loaded, .done, .failed] →
    ∃ u : State, exec (.jobUnload m w) s = .next (s.wrote u m) ∧ u.job k = JobSlot.reset ∧ u.job (1 - k) = s.job (1 - k) ∧
      u.js.cur ≠ some k ∧ u.wp = s.wp ∧ u.dram = s.dram) ∧
  (∀ (s : State) (m : Master) (w : Word) (k : Nat), s.takes m Reg.JS_CTRL →
    F.JS_CTRL_SLOT.get (cmdWord Reg.JS_CTRL w [(F.JS_CTRL_ARM, 1), (F.JS_CTRL_LOAD, 0), (F.JS_CTRL_UNLOAD, 0)]) = k →
    (s.job k).phase ≠ .loaded →
    exec (.jobArm m w) s = .next (s.wrote (s.setJob k { s.job k with err := 0xC }) m)) ∧
  (∀ (s : State) (m : Master) (j : Fin 2) (w : Word), s.takes m (Reg.JS_JOBs_RING_WP j.val) → (s.job j.val).stopped = false →
    exec (.ringWpWrite m j w) s = .next (s.wrote
      (s.setJob j.val { s.job j.val with wp := (cmdWord (Reg.JS_JOBs_RING_WP j.val) w []).toNat / 64 * 64 }) m)))

/-- R119, R117, R124: the renderer begins the next instance of a job once its line is near, a tile buffer is free and every
record is in the ring, and draws all of it; an END record ends the job there and a record out of order fails it. A finished
instance advances RP, hands its tickets to AU and lets the tile buffers go whose last line has been fired. R121, R122: the line
ring takes the next bar line once the entry of the line LEAD + 8 before it is free and its instances are rendered; the end of
the copy completes the entry with the covered words of its row slices, and HSTR reads the slices of the line with it. -/
def Obligations.RendererAndRing : Prop :=
  ((∀ (s : State) (j : Fin 2), s.sys.inReset = false → s.renderable j.val = true →
    (s.job j.val).bound (s.job j.val).nextInst ≤ s.line + s.si.limits.renderAhead →
    (s.job j.val).nextInst < (s.job j.val).released + (s.job j.val).tileBufs →
    let i := (s.job j.val).nextInst
    exec (.renderInstanceBegin j) s = .next (s.after (match s.readInst (s.job j.val) i with
      | .wait => s
      | .order rs => (((s.renderAll j.val i (s.job j.val).rp rs).jobToFailed j.val 0xD).flag Reg.JS_STAT F.JS_STAT_RECORD_ORDER).raise
          Ev.RECORD_ORDER
      | .refused e rs => ((((s.renderAll j.val i (s.job j.val).rp rs).fabricRefuse 2 e).jobToFailed j.val 0xD).flag Reg.JS_STAT
          F.JS_STAT_RECORD_ORDER).raise Ev.RECORD_ORDER
      | .ends => (((s.fixEnd j.val i).setJob j.val { (s.fixEnd j.val i).job j.val with
          rp := ((s.job j.val).rp + 64) % (s.job j.val).ringSize }).jobDiscard j.val).jobsNow
      | .recs rs rp => s.renderAll j.val i rp rs))) ∧
  (∀ (s : State) (j : Fin 2), s.sys.inReset = false →
    (s.renderable j.val = false ∨ s.line + s.si.limits.renderAhead < (s.job j.val).bound (s.job j.val).nextInst ∨
      (s.job j.val).released + (s.job j.val).tileBufs ≤ (s.job j.val).nextInst) →
    exec (.renderInstanceBegin j) s = .next (s.after s)) ∧
  (∀ (s : State) (k i rp : Nat) (rs : List CellRec), k < 2 →
    ∃ r : Rendering, ((s.renderAll k i rp rs).job k).rendering = some r ∧ r.inst = i ∧ r.rp = rp ∧
      r.tickets.length = min ((s.job k).ticketCells i).length rs.length) ∧
  (∀ (s : State) (r : Rendering), s.sys.inReset = false → s.js.job0.rendering = some r → s.ticketRoom r.tickets.length = true →
    s.js.job0.endInst = none →
    exec .renderInstanceDone s = .next (s.after
      (((s.setJob 0 { s.js.job0 with rendering := none, rp := r.rp, nextInst := r.inst + 1 }).addTickets r.tickets).releaseTiles s.wp.hwm 0)) ∧
    (s.addTickets r.tickets).au.tickets = s.au.tickets ++ r.tickets) ∧
  (∀ (s : State) (l k : Nat), k < 2 →
    let u := s.releaseTiles l k
    (∃ n, (s.job k).released ≤ n ∧ n ≤ (s.job k).released + 8 ∧ u.job k = { s.job k with released := n }) ∧
      u.job (1 - k) = s.job (1 - k) ∧ u.au.tickets = s.au.tickets ∧ u.dram = s.dram ∧ u.wp = s.wp)) ∧
  ((∀ s : State, s.sys.inReset = false → s.js.cur.isSome = true → s.entryFreed (s.lringNext - s.si.limits.lead - 8) = true →
    s.lineRendered s.lringNext = true → s.imagesAt s.lringNext ≠ [] →
    exec .lineRingFill s = .next (s.after
      { s with js := { s.js with lring := s.js.lring ++ [LineEntry.mk s.lringNext false []] } })) ∧
  (∀ s : State, s.sys.inReset = false → s.js.cur.isSome = true → s.entryFreed (s.lringNext - s.si.limits.lead - 8) = true →
    s.lineRendered s.lringNext = true → s.imagesAt s.lringNext = [] →
    exec .lineRingFill s = .next (s.after
      ({ s with js := { s.js with lring := s.js.lring ++ [LineEntry.mk s.lringNext true []] } }.hstrRead s.lringNext))) ∧
  (∀ (s : State) (l : Nat) (before after : List LineEntry), s.sys.inReset = false → s.js.lring = before ++ LineEntry.mk l false [] :: after →
    (∀ e ∈ before, e.complete = true ∧ e.line ≠ l) → (∀ e ∈ after, e.line ≠ l) → (∀ x ∈ s.imagesAt l, s.tileRefused x = none) →
    exec .lineRingEntryDone s = .next (s.after
      ({ s with js := { s.js with lring := before ++ LineEntry.mk l true (s.lineWords l) :: after } }.hstrRead l))) ∧
  (∀ (s : State) (l : Nat), (s.hstrRead l).js.lring = s.js.lring ∧ (s.hstrRead l).dram = s.dram ∧ (s.hstrRead l).wp = s.wp ∧
    ((s.hstrRead l).js.slices = s.js.slices ∨ ∃ rows, (s.hstrRead l).js.slices = s.js.slices ++ [⟨l, rows⟩])) ∧
  (∀ s : State, s.lringNext = (match s.js.lring.getLast? with
    | some e => e.line + 1
    | none => s.wp.hwm + 1)))

/-! ## Inspection -/

/-- R227, R231, R232, R250, R252: enabling inspection makes the checks of R227 first, draws the inspection key and encrypts
descriptors and masks that stand in the clear; disabling closes what is open and erases it; both are refused in PRINT, and a
witness stays disabled. A table entry is stored unless its bank is in use, or EN holds TONE; a bank in use keeps its header.
R223 to R226, R228, R249: a packet is read from the lanes with the polarity POL gives each; one with two header bits wrong is
discarded with CSI_ECC, and one with a single wrong bit is corrected and counted; one of a data type the controller does not
take, or of a virtual channel above 7, is discarded and counted; a frame start closes an open frame as short and opens the
channel, a frame end closes it; pixel and embedded lines are handled, and one that does not fit raises RX_OVERFLOW and takes
their places from the lines behind it. The sensor clock counts as present from then on. A header without an error passes as it
is, whatever its 26 bits, and with any one bit wrong it is corrected. R237, R238, R240, R241: the merged line above IN_IHWM
closes once it is ready and delivered or its deadline has passed: its grid goes to the camera ring under the inspection key and
IN_IHWM advances. The expected image of a line is computed once the merged line after it is ready. Without a key nothing
happens. -/
def Obligations.InspectionInput : Prop :=
  ((∀ (s : State) (m : Master) (w : Word), s.takes m Reg.IN_CTRL → F.IN_CTRL_EN.get (cmdWord Reg.IN_CTRL w []) = 1 → s.mode ≠ .print →
    s.isWitness = true → s.inEn = false → exec (.inEnable m w) s = .next (s.wrote s m)) ∧
  (∀ (s : State) (m : Master) (w : Word), s.takes m Reg.IN_CTRL → F.IN_CTRL_EN.get (cmdWord Reg.IN_CTRL w []) = 1 → s.mode ≠ .print →
    s.inEn = false → s.isWitness = false →
    (s.enCheck = none → exec (.inEnable m w) s = .next (s.wrote
      (({ s with free := s.free + 1, inn := { s.inn with
          key := some (s.drawRandom 32).1, expNext := max s.inn.expNext s.expFirst,
          syms := s.inn.syms.map fun (d : SymDesc) => { d with key := d.key.orElse fun _ => some (s.drawRandom 32).1 },
          masks := s.inn.masks.map fun (d : PayMask) => { d with key := d.key.orElse fun _ => some (s.drawRandom 32).1 } } }.setFld
        Reg.IN_STAT F.IN_STAT_EN_ERR 0).flag Reg.IN_CTRL F.IN_CTRL_EN) m)) ∧
    (∀ e, s.enCheck = some e → exec (.inEnable m w) s = .next (s.wrote
      (((s.setFld Reg.IN_STAT F.IN_STAT_EN_ERR e).flag Reg.IN_STAT F.IN_STAT_EN_REFUSED).raise Ev.EN_REFUSED) m))) ∧
  (∀ (s : State) (m : Master) (w : Word), s.takes m Reg.IN_CTRL → F.IN_CTRL_EN.get (cmdWord Reg.IN_CTRL w []) = 0 → s.mode ≠ .print →
    s.inEn = true →
    ∃ u : State, exec (.inEnable m w) s = .next (s.wrote u m) ∧ u.inEn = false ∧ u.inn.key = none ∧
      (∀ c ∈ u.inn.vcs, c.isOpen = false)) ∧
  (∀ (s : State) (m : Master) (w : Word), s.takes m Reg.IN_CTRL → s.mode = .print →
    exec (.inEnable m w) s = .next (s.wrote (s.setFld Reg.IN_STAT F.IN_STAT_EN_ERR 1) m)) ∧
  (∀ (s : State) (m : Master) (w : Word) (key : Nat), s.takes m Reg.IN_TAB_DATA →
    let t := s.fld Reg.IN_TAB_SEL F.IN_TAB_SEL_TABLE
    let k := s.fld Reg.IN_TAB_SEL F.IN_TAB_SEL_SEG
    let b := s.fld Reg.IN_TAB_SEL F.IN_TAB_SEL_BANK
    let v := F.IN_TAB_DATA_VALUE.get (cmdWord Reg.IN_TAB_DATA w [])
    s.tabSelected = some key → t < 3 → s.bankInUse k b = false →
    exec (.inTabDataWrite m w) s = .next (s.wrote
      (({ s with inn := { s.inn with tab := AMap.set (fun _ => 0) s.inn.tab key (if t = 1 then v else v % 4096) } }.setFld (bankReg k b)
        F.IN_SEGk_BANK0_VALID 0).tabNext) m)) ∧
  (∀ (s : State) (m : Master) (w : Word), s.takes m Reg.IN_TAB_DATA → s.fld Reg.IN_TAB_SEL F.IN_TAB_SEL_TABLE < 3 →
    s.bankInUse (s.fld Reg.IN_TAB_SEL F.IN_TAB_SEL_SEG) (s.fld Reg.IN_TAB_SEL F.IN_TAB_SEL_BANK) = true →
    exec (.inTabDataWrite m w) s = .next (s.wrote ((s.flag Reg.IN_STAT F.IN_STAT_BANK_BUSY).tabNext) m)) ∧
  (∀ (s : State) (m : Master) (k : Fin 16) (b : Fin 2) (w : Word), s.takes m (bankReg k.val b.val) →
    let a := bankReg k.val b.val
    let d := cmdWord a w []
    F.IN_SEGk_BANK0_SET_ID.get d ≠ s.fld a F.IN_SEGk_BANK0_SET_ID →
    (s.bankInUse k.val b.val = true →
      exec (.inBankWrite m k b w) s = .next (s.wrote (s.flag Reg.IN_STAT F.IN_STAT_BANK_BUSY) m)) ∧
    (s.bankInUse k.val b.val = false →
      ∃ u : State, exec (.inBankWrite m k b w) s = .next (s.wrote u m) ∧ u.fld a F.IN_SEGk_BANK0_SET_ID = F.IN_SEGk_BANK0_SET_ID.get d ∧
        u.fld a F.IN_SEGk_BANK0_KNEE = F.IN_SEGk_BANK0_KNEE.get d ∧
        u.fld a F.IN_SEGk_BANK0_BLEND_SH = F.IN_SEGk_BANK0_BLEND_SH.get d ∧ u.fld a F.IN_SEGk_BANK0_VALID = 0 ∧
        (∀ x : Nat, x ≠ a → u.rd x = s.rd x) ∧ u.dram = s.dram ∧ u.inn = s.inn))) ∧
  ((∀ (s : State) (n : Fin 2) (di : Byte) (wc : BitVec 16) (ecc : Byte) (payload : List Byte) (crc : BitVec 16) (fits : Bool), s.sys.inReset = false →
    let s0 := { s with sys := { s.sys with stopped := s.sys.stopped.filter (· ≠ Domain.csi n.val) } }
    let b := s0.csiLanes n.val (csiWire di wc ecc payload crc)
    (csiHeader (leAt b 0 4) = none → exec (.csiPacket n di wc ecc payload crc fits) s = .next (s.after
      (((s0.bump (Reg.IN_PORTn_ERR n.val) F.IN_PORTn_ERR_DISCARD).flag Reg.IN_STAT F.IN_STAT_CSI_ECC).relayRaise Ev.CSI_ECC n.val
        (s0.bytePeriod n.val)))) ∧
    (∀ (h : Nat) (one : Bool), csiHeader (leAt b 0 4) = some (h, one) →
      let fixed := if one then s0.bump (Reg.IN_PORTn_ERR n.val) F.IN_PORTn_ERR_ECC_FIX else s0
      let discard := fixed.bump (Reg.IN_PORTn_ERR n.val) F.IN_PORTn_ERR_DISCARD
      let vc := h / 64 % 4 + h / 2 ^ 24 * 4
      let dt := h % 64
      let bs := (b.drop 4).take (h / 256 % 65536)
      ∃ u : State, exec (.csiPacket n di wc ecc payload crc fits) s = .next (s.after u) ∧
        (7 < vc → u = discard) ∧
        (vc ≤ 7 → dt = 0 → s.inEn = true → u = (fixed.frameEnd n.val vc true).setVc n.val vc ⟨true, none⟩) ∧
        (vc ≤ 7 → dt = 1 → u = fixed.frameEnd n.val vc false) ∧
        (vc ≤ 7 → dt ∈ [2, 3, 8, 9, 10, 11, 12, 13, 14, 15] → u = fixed) ∧
        (vc ≤ 7 → dt ∈ [0x12, 0x2B, 0x2C] → fits = true → ∃ crcOk : Bool, u = fixed.longPacket n.val vc dt crcOk bs ∧
          (crcOk = true ↔ bs.length = h / 256 % 65536 ∧ b.length = h / 256 % 65536 + 6 ∧ csiCrc bs = leAt b (4 + h / 256 % 65536) 2)) ∧
        (vc ≤ 7 → dt ∈ [0x12, 0x2B, 0x2C] → fits = false → u = fixed.rxOverflow n.val vc dt) ∧
        (vc ≤ 7 → 0x10 ≤ dt → dt ∉ [0x12, 0x2B, 0x2C] → u = discard))) ∧
  (∀ (s : State) (n : Nat) (wire : List Byte), (s.csiLanes n wire).length = wire.length ∧
    (s.fld (Reg.IN_PORTn_CFG n) F.IN_PORTn_CFG_POL = 0 → s.csiLanes n wire = wire)) ∧
  (∀ (d e i : Nat), d < 2 ^ 26 → i < 26 → e < 64 → csiHeader (d % 2 ^ 24 + e * 2 ^ 24 + d / 2 ^ 24 * 2 ^ 30) = some (d, false) →
    csiHeader ((d ^^^ 2 ^ i) % 2 ^ 24 + e * 2 ^ 24 + (d ^^^ 2 ^ i) / 2 ^ 24 * 2 ^ 30) = some (d, true))) ∧
  ((∀ (s : State) (key : List Byte), s.sys.inReset = false → s.inn.key = some key → s.mayClose (s.rdN Reg.IN_IHWM + 1) = true →
    ∃ u : State, exec .mergedLineClose s = .next (s.after u) ∧ u.rdN Reg.IN_IHWM = (s.rdN Reg.IN_IHWM + 1) % 2 ^ 32 ∧
      (∀ g ∈ u.inn.segs, ∀ e ∈ g.pairs, s.rdN Reg.IN_IHWM + 1 < e.1) ∧
      (∀ x : Nat, (x < (s.imgRow (s.rdN Reg.IN_IHWM + 1)).2 ∨ (s.imgRow (s.rdN Reg.IN_IHWM + 1)).2 + 32768 ≤ x) →
        u.dramRead x 1 = s.dramRead x 1) ∧ u.flash = s.flash ∧ u.hp = s.hp) ∧
  (∀ s : State, s.sys.inReset = false → s.inn.key = none → exec .mergedLineClose s = .next (s.after s)) ∧
  (∀ (s : State) (key : List Byte), s.sys.inReset = false → s.inn.key = some key → s.inEn = true →
    s.mergedReady (s.inn.expNext + 1) = true →
    let v := s.inn.expNext
    let t := s.dramWrite (s.expRow v).2 (ringCrypt key 1 (s.expRow v).1 ((List.range 16384).map fun u => BitVec.ofNat 8 (s.expected u v)))
    exec .expectedLineCompute s = .next (s.after
      { t with inn := { s.inn with expNext := v + 1, s := s.inn.s.filter fun c => decide (16384 * v ≤ c.1) } })))

/-- R243, R246 to R248, R516: a symbol whose last line has closed is judged once. A ticket whose verdict is due gets it by the
first row of R246 that applies (row 1 also where a port left its line unfired, the model's reading of R22, log entry 42), is
counted by that verdict and recorded under UNVER_POLICY; CLOSE_TMO after PRINT every ticket still open closes. -/
def Obligations.Verdicts : Prop :=
  (∀ (s : State) (i : Nat) (d : SymDesc), s.sys.inReset = false →
    s.inn.syms.findIdx? (fun d => d.judged.isNone && decide (d.lastMerged ≤ s.rdN Reg.IN_IHWM)) = some i → s.inn.syms[i]? = some d →
    (s.readable d.key = false → exec .symbolVerify s = .next (s.after
      { s with inn := { s.inn with syms := s.inn.syms.set i { d with judged := some (false, false, true) } } })) ∧
    ∃ (u : State) (v : Bool × Bool × Bool), exec .symbolVerify s = .next (s.after u) ∧
      u.inn = { s.inn with syms := s.inn.syms.set i { d with judged := some v } } ∧ u.regs = s.regs ∧ u.dram = s.dram ∧ u.au = s.au) ∧
  (∀ (s : State) (i : Nat), s.sys.inReset = false → s.au.tickets.findIdx? s.verdictDue = some i →
    exec .ticketVerdict s = .next (s.after (s.closeTicket i false))) ∧
  (∀ (s : State) (i : Nat) (t : Ticket) (late : Bool), s.au.tickets[i]? = some t → t.verdict = none →
    let d := s.judge t late
    let keep := s.isSet Reg.IN_CFG F.IN_CFG_UNVER_POLICY
    ∃ t' : Ticket, (s.closeTicket i late).au.tickets[i]? = some t' ∧
      t'.verdict = some (if d.1 = 2 ∧ keep = false then 1 else d.1) ∧ t'.serial = t.serial ∧
      (∀ j : Nat, j ≠ i → (s.closeTicket i late).au.tickets[j]? = s.au.tickets[j]?)) ∧
  (∀ (s : State) (t : Ticket) (late : Bool),
    (outsideCauses t.flags = true ∨ t.unfired = true → (s.judge t late).1 = 1 ∧ (s.judge t late).2.1 = 1) ∧
    (outsideCauses t.flags = false → t.unfired = false → t.enOff = true → (s.judge t late).1 = 2 ∧ (s.judge t late).2.1 = 2) ∧
    (outsideCauses t.flags = false → t.unfired = false → t.enOff = false → s.fld Reg.IN_CNT_CFG F.IN_CNT_CFG_DEFECT_MAX < t.defects →
      (s.judge t late).1 = 1 ∧ (s.judge t late).2.1 = 3) ∧
    (outsideCauses t.flags = false → t.unfired = false → t.enOff = false → t.defects ≤ s.fld Reg.IN_CNT_CFG F.IN_CNT_CFG_DEFECT_MAX → s.symsOf t = [] →
      (s.judge t late).1 = (if late ∨ t.bad then 2 else 0))) ∧
  (∀ (s : State) (t : Nat), s.sys.inReset = false → s.inn.exitAt = some t → s.mode ≠ .print →
    s.fld Reg.IN_CFG F.IN_CFG_CLOSE_TMO * 1000000 ≤ s.now - t →
    exec .closeTimeout s = .next (s.after { s with inn := { s.inn with exitAt := none } }.closeAll))

/-! ## Loops and motion -/

/-- R254, R264, R269: a loop tick is counted outside BOOT and runs the due contexts in ascending order on one snapshot, keeping
the cycles used; in BOOT nothing runs. AUTO is requested for a context in MAN (after a supervision trip once IMPLAUSIBLE and
FROZEN are clear), MAN for one in AUTO, HOLDOUT or RAMP; any other request is refused. -/
def Obligations.LoopEngine : Prop :=
  (∀ s : State, s.sys.inReset = false → s.mode ≠ .boot →
    ∃ u : State, exec .loopTick s = .next (s.after u) ∧ u.le.tick = (s.le.tick + 1) % 2 ^ 32 ∧ u.le.drops = List.replicate 16 0 ∧
      ((List.range 64).filter (s.loopDue ((s.le.tick + 1) % 2 ^ 32)) = [] → u.fld Reg.LE_LOAD F.LE_LOAD_LAST_CYCLES = 0 ∧
        u.le.ctxs = s.le.ctxs ∧ u.dram = s.dram)) ∧
  (∀ s : State, s.sys.inReset = false → s.mode = .boot → exec .loopTick s = .next (s.after s)) ∧
  (∀ (s : State) (m : Master) (c : Fin 64) (w : Word), s.takes m (Reg.LE_Cc_CTRL c.val) → (s.ctx c.val).st = .man →
    s.mode ∈ [Mode.idle, .warm, .print, .service] → s.isSet (Reg.LE_Cc_STAT c.val) F.LE_Cc_STAT_LATE = false →
    s.isSet (Reg.LE_Cc_STAT c.val) F.LE_Cc_STAT_FAULT = false →
    ((s.ctx c.val).tripped = true → s.isSet (Reg.LE_Cc_STAT c.val) F.LE_Cc_STAT_IMPLAUSIBLE = false ∧
      s.isSet (Reg.LE_Cc_STAT c.val) F.LE_Cc_STAT_FROZEN = false) →
    exec (.auto m c w) s = .next (s.wrote (s.setCtx c.val { s.ctx c.val with req := some .auto }) m)) ∧
  (∀ (s : State) (m : Master) (c : Fin 64) (w : Word), s.takes m (Reg.LE_Cc_CTRL c.val) → (s.ctx c.val).tripped = true →
    (s.isSet (Reg.LE_Cc_STAT c.val) F.LE_Cc_STAT_IMPLAUSIBLE = true ∨ s.isSet (Reg.LE_Cc_STAT c.val) F.LE_Cc_STAT_FROZEN = true) →
    exec (.auto m c w) s = .next (s.wrote (s.flag (Reg.LE_Cc_STAT c.val) F.LE_Cc_STAT_REQ_REFUSED) m)) ∧
  (∀ (s : State) (m : Master) (c : Fin 64) (w : Word), s.takes m (Reg.LE_Cc_CTRL c.val) → (s.ctx c.val).st ≠ .man →
    exec (.auto m c w) s = .next (s.wrote (s.flag (Reg.LE_Cc_STAT c.val) F.LE_Cc_STAT_REQ_REFUSED) m)) ∧
  (∀ (s : State) (m : Master) (c : Fin 64) (w : Word), s.takes m (Reg.LE_Cc_CTRL c.val) →
    exec (.man m c w) s = .next (s.wrote
      (if (s.ctx c.val).st ∈ [LoopState.auto, .holdout, .ramp] then s.setCtx c.val { s.ctx c.val with req := some .man }
       else s.flag (Reg.LE_Cc_STAT c.val) F.LE_Cc_STAT_REQ_REFUSED) m))

/-- R275, R276, R283, R284: a MOVE of a stopped axis starts, of one in motion or waiting for a trigger is queued, with the
limits latched at its start; HOME starts toward the stop; STOP discards the queued move and leaves an axis in motion LOST, its
compares disarmed; ENABLE holds a disabled axis; DISABLE leaves it LOST. An axis that is not fitted answers ERR 8 and changes
nothing. R278, R279, R281, R282, R285, R287: a PWM period keeps the corrected currents and drives the phases by the sine table;
the outputs of a disabled axis are low. A switch accepted at the end an axis moves toward stops it; three edges within LIM_DB
are chatter. The cap sequence homes a LOST axis, moves the next to CAP_POS and ends when none is left. An axis compare is
armed, or reported as behind. -/
def Obligations.Axes : Prop :=
  ((∀ (s : State) (m : Master) (a : Fin 4) (w : Word), s.takes m (Reg.MO_Aa_CMD a.val) → s.fitted a.val = true →
    let d := cmdWord (Reg.MO_Aa_CMD a.val) w [(F.MO_Aa_CMD_OP, 1)]
    let target := s.rdI (Reg.MO_Aa_TARGET a.val)
    (s.moveErr a.val false target = 0 → F.MO_Aa_CMD_TRIG.get d = 0 → (s.axis a.val).st = .stopped →
      exec (.move m a w) s = .next (s.wrote ((s.axisErr a.val 0).startMove a.val target) m)) ∧
    (s.moveErr a.val false target = 0 → (F.MO_Aa_CMD_TRIG.get d = 1 ∨ (s.axis a.val).st ≠ .stopped) →
      exec (.move m a w) s = .next (s.wrote ((s.axisErr a.val 0).setAxis a.val
        { s.axis a.val with queued := some (target, decide (F.MO_Aa_CMD_TRIG.get d = 1)) }) m)) ∧
    (s.moveErr a.val false target ≠ 0 →
      exec (.move m a w) s = .next (s.wrote (s.axisErr a.val (s.moveErr a.val false target)) m))) ∧
  (∀ (s : State) (m : Master) (a : Fin 4) (w : Word), s.takes m (Reg.MO_Aa_CMD a.val) → s.fitted a.val = true →
    s.moveErr a.val true (s.rdI (Reg.MO_Aa_TARGET a.val)) = 0 →
    exec (.home m a w) s = .next (s.wrote ((s.axisErr a.val 0).startHome a.val) m)) ∧
  (∀ (s : State) (m : Master) (a : Fin 4) (w : Word), s.takes m (Reg.MO_Aa_CMD a.val) → s.fitted a.val = true →
    exec (.stop m a w) s = .next (s.wrote
      (if (s.axis a.val).st = .moving ∨ (s.axis a.val).st = .homing then ((s.axisErr a.val 0).setAxis a.val { s.axis a.val with
         queued := none, st := .stopped, v := 0, a := 0, lost := true, homed := false, backoff := false, scanMove := false,
         endAt := some s.now }).moDisarm a.val
       else (s.axisErr a.val 0).setAxis a.val { s.axis a.val with queued := none }) m)) ∧
  (∀ (s : State) (m : Master) (a : Fin 4) (w : Word), s.takes m (Reg.MO_Aa_CMD a.val) → s.fitted a.val = true → s.mode ≠ .boot →
    s.mode ≠ .test → s.estopped = false → (s.axis a.val).st = .disabled →
    exec (.enable m a w) s = .next (s.wrote ((s.axisErr a.val 0).setAxis a.val { s.axis a.val with st := .stopped }) m)) ∧
  (∀ (s : State) (m : Master) (a : Fin 4) (w : Word), s.takes m (Reg.MO_Aa_CMD a.val) → s.fitted a.val = true →
    exec (.disable m a w) s = .next (s.wrote (((s.axisErr a.val 0).setAxis a.val { s.axis a.val with
      st := .disabled, v := 0, a := 0, lost := true, homed := false, queued := none, backoff := false, scanMove := false, va := 0, vb := 0,
      da := 0, db := 0 }).moDisarm a.val) m)) ∧
  (∀ (s : State) (m : Master) (a : Fin 4) (w : Word), s.takes m (Reg.MO_Aa_CMD a.val) → s.fitted a.val = false →
    exec (.move m a w) s = .next (s.wrote (s.axisErr a.val 8) m) ∧ exec (.home m a w) s = .next (s.wrote (s.axisErr a.val 8) m) ∧
    exec (.stop m a w) s = .next (s.wrote (s.axisErr a.val 8) m))) ∧
  ((∀ (s : State) (a : Fin 4) (ra rb : Fin 4096), s.sys.inReset = false → (s.fitted a.val = false ∨ (s.axis a.val).st = .disabled) →
    exec (.pwmPeriod a ra rb) s = .next (s.after
      (let i := s.motorRaw (2 * a.val) ra.val
       let j := s.motorRaw (2 * a.val + 1) rb.val
       { s with mo := { s.mo with raw := (s.mo.raw.set (2 * a.val) i).set (2 * a.val + 1) j } }.setAxis a.val
        { s.axis a.val with va := 0, vb := 0, da := 0, db := 0, stall := 0 }))) ∧
  (∀ (s : State) (a : Fin 4) (ra rb : Fin 4096), s.sys.inReset = false → s.fitted a.val = true → (s.axis a.val).st = .stopped →
    (s.axis a.val).endAt = none → s.rdN Reg.MO_VM ≠ 0 → a.val < s.mo.axes.length →
    let x := s.axis a.val
    let amp : Int := (x.iHold * s.fld (Reg.MO_Aa_ELEC a.val) F.MO_Aa_ELEC_R_COIL / 1000 +
      s.fld (Reg.MO_Aa_ELEC a.val) F.MO_Aa_ELEC_KE * x.v.natAbs / 2 ^ 48 : Nat)
    let k := (x.pos % 1024).toNat
    ∃ u : State, exec (.pwmPeriod a ra rb) s = .next (s.after u) ∧ (u.axis a.val).va = amp * cosTab k / 2 ^ 15 ∧
      (u.axis a.val).vb = amp * sinTab k / 2 ^ 15 ∧ (u.axis a.val).da ≤ 25000 ∧ (u.axis a.val).db ≤ 25000 ∧ u.dram = s.dram) ∧
  (∀ (s : State) (a : Fin 4) (hi level : Bool), s.sys.inReset = false →
    let t := s.setAxis a.val (if hi then { s.axis a.val with limHi := level } else { s.axis a.val with limLo := level })
    exec (.limitSwitchAccept a hi level) s = .next (s.after
      (if level = false then t
       else match (s.axis a.val).st with
        | .homing => if (s.axis a.val).backoff = false ∧ s.homeHigh a.val = hi then t.homingFault a.val 0 else t
        | .moving => if (0 < (s.axis a.val).v ∧ hi = true) ∨ ((s.axis a.val).v < 0 ∧ hi = false) then
            ((t.stopAxis a.val).flag Reg.MO_STAT F.MO_STAT_LIMIT).raise Ev.MO_LIMIT else t
        | _ => t))) ∧
  (∀ (s : State) (a : Fin 4) (hi : Bool), s.sys.inReset = false →
    let db := max 1 (s.fld (Reg.MO_Aa_LIM a.val) F.MO_Aa_LIM_LIM_DB) * 1000
    let es := ((if hi then (s.axis a.val).edgesHi else (s.axis a.val).edgesLo) ++ [s.now]).filter fun t => decide (s.now - t ≤ db)
    es.length < 3 →
    exec (.limitSwitchEdge a hi) s = .next (s.after
      (s.setAxis a.val (if hi then { s.axis a.val with edgesHi := es } else { s.axis a.val with edgesLo := es })))) ∧
  (∀ s : State, s.sys.inReset = false → s.mo.capSeq = some [] →
    exec .capSequenceNextAxis s = .next (s.after { s with mo := { s.mo with capSeq := none, capPhase := 0 } })) ∧
  (∀ (s : State) (a : Nat) (rest : List Nat), s.sys.inReset = false → s.mo.capSeq = some (a :: rest) → s.mo.capPhase = 0 →
    s.estopped = false → (s.axis a).st ≠ .moving → (s.axis a).st ≠ .homing → s.limitsZero a = false →
    ((s.axis a).lost = false → s.limitToward a (s.rdI (Reg.MO_Aa_CAP_POS a)) = false →
      exec .capSequenceNextAxis s = .next (s.after
        ({ s with mo := { s.mo with capPhase := 2 } }.startMove a (s.rdI (Reg.MO_Aa_CAP_POS a))))) ∧
    ((s.axis a).lost = true → s.isSet Reg.MO_CFG F.MO_CFG_CAP_HOME = true →
      s.fld (Reg.MO_Aa_STALL a) F.MO_Aa_STALL_STALL_VMIN * 64 ≤ s.fld (Reg.MO_Aa_HOME a) F.MO_Aa_HOME_HOME_V →
      exec .capSequenceNextAxis s = .next (s.after ({ s with mo := { s.mo with capPhase := 1 } }.startHome a)))) ∧
  (∀ (s : State) (m : Master) (k : Fin 8) (w : Word), s.takes m (Reg.MO_CMPm_CTRL k.val) → (s.axis (k.val / 2)).lost = false →
    let a := Reg.MO_CMPm_CTRL k.val
    let dir := F.MO_CMPm_CTRL_DIR.get (cmdWord a w [(F.MO_CMPm_CTRL_ARM, 1)])
    let target := s.rdI (Reg.MO_CMPm_TARGET k.val)
    let x := s.axis (k.val / 2)
    dir ≠ 3 →
    ∃ u : State, exec (.moCmpArm m k w) s = .next (s.wrote u m) ∧ u.mo.axes = s.mo.axes ∧ u.dram = s.dram ∧
      (behind dir target x.pos x.back = false → u.mo.cmps = s.mo.cmps.set k.val ⟨true, target, k.val / 2, dir⟩) ∧
      (behind dir target x.pos x.back = true → u.mo.cmps = s.mo.cmps.set k.val ⟨false, target, k.val / 2, dir⟩ ∧
        u.fld a F.MO_CMPm_CTRL_BEHIND = 1)))

/-- R277: a profile tick treats the axes in ascending order. An axis at rest is left alone; one in motion moves by its
velocity, held within the latched limits, and ends at rest on its target. -/
def Obligations.ProfileTick : Prop :=
  (∀ s : State, s.sys.inReset = false →
    exec .profileTick s = .next (s.after ((((s.profileAxis 0).profileAxis 1).profileAxis 2).profileAxis 3))) ∧
  (∀ (s : State) (a : Nat), (s.axis a).st ≠ .moving → (s.axis a).st ≠ .homing → s.profileAxis a = s) ∧
  (∀ (s : State) (a : Nat) (t : Int), (s.axis a).st = .moving → (s.axis a).target = some t → (s.axis a).p = t → (s.axis a).v = 0 →
    (s.axis a).a = 0 → (s.axis a).queued = none → (s.axis a).lost = false → s.profileAxis a = s.setAxis a { s.axis a with
      st := .stopped, homed := (s.axis a).homed || (s.axis a).backoff, backoff := false, scanMove := false, endAt := some s.now }) ∧
  (∀ jm am vm v a left : Int, 0 < jm → 0 ≤ a → 0 ≤ v →
    let a' := clamp (-am) am (a + jm)
    let v' := clamp (-vm) vm (v + a')
    (jerkChoice jm am vm v a left = jm ∨ jerkChoice jm am vm v a left = 0 ∨ jerkChoice jm am vm v a left = -jm) ∧
    (0 ≤ a' → 0 ≤ v' → v' + a' * a' / (2 * jm) ≤ vm → stopDistance jm am v' a' ≤ left - v' → jerkChoice jm am vm v a left = jm)) ∧
  (∀ (s : State) (a : Nat), a < s.mo.axes.length → (s.axis a).st = .moving → (s.axis a).target.isSome = true →
    (s.axis a).queued = none → 0 ≤ (s.axis a).vm → 0 ≤ (s.axis a).am → (∀ c ∈ s.mo.cmps, c.armed = false) →
    let x := (s.profileAxis a).axis a
    (x.st = .moving → x.v ≤ (s.axis a).vm ∧ -(s.axis a).vm ≤ x.v ∧ x.a ≤ (s.axis a).am ∧ -(s.axis a).am ≤ x.a ∧
      x.p = (s.axis a).p + x.v) ∧
    (x.st = .moving ∨ (x.st = .stopped ∧ x.v = 0 ∧ x.a = 0 ∧ some x.p = (s.axis a).target)))

/-! ## Memory fabric -/

/-- R292, R293, R299, R307: a transfer of 1 to 4 bursts within one 4 KiB page of its channel becomes pending when its requester
has none in hand, and is refused with its reason otherwise, which completes it with an error; a write without data carries what
its requester last read, and is not presented before that read has completed; when the last burst has arrived the transfer
leaves the arbiter, and the data of a read are in its requester's private buffer. R150, R290, R293: a transfer outside DRAM is
refused; the tile buffers of a held job admit only writes by RNDR and reads by CMPS; a plate slot that is not EMPTY admits
writes only of DCMP while it is LOADING; the line ring group admits writes by CMPS and reads by HSTR alone. -/
def Obligations.FabricTransfers : Prop :=
  ((∀ (s : State) (a : Fin 10) (r : Fin 12) (lane : Fin 16) (addr n : Nat) (write : Bool) (data : List Byte), s.sys.inReset = false →
    addr % 64 = 0 → 1 ≤ n → n ≤ 4 →
    (2 ≤ a.val ∨ (addr / 4096 % 2 = a.val ∧ (addr + 64 * n - 1) / 4096 = addr / 4096)) →
    (write = true → data.length = 64 * n) →
    let p := if r.val = 0 then lane.val else 0
    (s.arb a.val).presents r.val p = false →
    let t : Xfer := { req := r.val, lane := p, addr := addr, n := n, write := write, data := if write then slice data 0 (64 * n) else [],
                      since := s.now, starved := false, got := [], counted := 0, failed := false }
    exec (.fabricTransferRequest a r lane addr n write data) s = .next (s.after
      (match s.fabricCheck a.val r.val addr (64 * n) write with
       | some e => (s.fabricRefuse r.val e).setArb a.val { s.arb a.val with done := (s.arb a.val).done ++ [{ t with failed := true }] }
       | none => s.setArb a.val { s.arb a.val with pend := (s.arb a.val).pend ++ [t] }))) ∧
  (∀ (s : State) (a : Fin 10) (r : Fin 12) (lane : Fin 16) (addr n : Nat), s.sys.inReset = false →
    (AMap.get (fun _ => []) s.mf.stage (16 * r.val + if r.val = 0 then lane.val else 0)).length < 64 * n →
    exec (.fabricTransferRequest a r lane addr n true []) s = .next (s.after s)) ∧
  (∀ (s : State) (a : Fin 10) (r : Fin 12) (lane : Fin 16) (t : Xfer), s.sys.inReset = false →
    let p := if r.val = 0 then lane.val else 0
    (s.arb a.val).done.find? (fun t => t.isOf r.val p && t.ended) = some t →
    let u (d : List Byte) : State := s.setArb a.val { s.arb a.val with done := (s.arb a.val).done.erase t, last := some { t with data := d } }
    exec (.fabricTransferComplete a r lane) s = .next (s.after
      (if t.write || t.failed then u t.data
       else { u t.readData with mf := { (u t.readData).mf with stage := AMap.set (fun _ => []) s.mf.stage (16 * r.val + p) t.readData } }))) ∧
  (∀ (s : State) (a : Fin 10) (r : Fin 12) (lane : Fin 16), s.sys.inReset = false →
    (s.arb a.val).done.find? (fun t => t.isOf r.val (if r.val = 0 then lane.val else 0) && t.ended) = none →
    exec (.fabricTransferComplete a r lane) s = .next (s.after s)) ∧
  (∀ (s : State) (r : Nat) (e : Refused), (s.fabricRefuse r e).dram = s.dram ∧ (s.fabricRefuse r e).mf = s.mf)) ∧
  ((∀ (s : State) (a r addr len : Nat) (write : Bool), a < 2 → s.dramSize < addr + len →
    s.fabricCheck a r addr len write = some .range) ∧
  (∀ (s : State) (a r addr len k : Nat) (write : Bool), a < 2 → addr + len ≤ s.dramSize → s.tileOwner (addr, len) = some k →
    ¬(r = 2 ∧ write = true) → ¬(r = 1 ∧ write = false) → s.fabricCheck a r addr len write = some (.tile 0)) ∧
  (∀ (s : State) (a r addr len k : Nat), a < 2 → s.fabricCheck a r addr len true = none → s.tileOwner (addr, len) = none →
    s.ringHit (addr, len) = none → k < 16 → (s.plate k).phase ≠ .empty → rangesMeet (addr, len) (s.plateRegion k) = true →
    r = 3) ∧
  (∀ (r off : Nat) (write : Bool), (sramGranted 0 r off write = none ↔ (r = 1 ∧ write = true) ∨ (r = 0 ∧ write = false))))

/-- R296 to R298, R300, R303: each slot an arbiter takes up its decision, notes who is in panic and moves on; an unoccupied
slot that is no floor slot goes to HSTR or CAMW in panic, else to its owner, else to a parked requester, else to the lowest
rank; a floor slot left idle by a stale grant has had its turn; a revoked transfer is pending again. R311 to R314: training
passes where no step fails four times, and fails at once where the first step does; reads are served in order, none while a
drain batch runs, and a full read queue admits none; a refresh closes the rows and brings in a waiting tracking result, is
postponed up to eight times in panic and then forced; MR4 gives the refresh rate and DRAM_HOT; a tracking interval keeps its
count until the next REFab; a drain batch issues writes until 16 remain. -/
def Obligations.ArbiterAndDram : Prop :=
  ((∀ (s : State) (a : Fin 10) (reads : Fin 65) (camera : Fin 1025), s.sys.inReset = false → a.val < s.mf.arbs.length →
    let t := s.slotTabFor a.val (s.arb a.val).slot
    ∃ u : State, exec (.arbSlotDecision a reads camera) s = .next (s.after u) ∧ (u.arb a.val).slot = ((s.arb a.val).slot + 1) % 256 ∧
      ((u.arb a.val).hstrPanic = true ↔ t.panicHstr ≠ 0 ∧ s.hstrLevel < t.panicHstr) ∧
      ((u.arb a.val).camwPanic = true ↔ t.panicCamw ≠ 0 ∧ 1024 - s.mf.staged < t.panicCamw) ∧ u.mf.staged ≤ 1024 ∧
      (∀ b : Nat, b ≠ a.val → u.arb b = s.arb b)) ∧
  (∀ (s : State) (a : Fin 10) (reads : Fin 65) (camera : Fin 1025) (r : Nat), s.sys.inReset = false → a.val < s.mf.arbs.length →
    (s.arb a.val).run = none → (s.arb a.val).grant = none → (s.arb a.val).setNext = none → (s.arb a.val).floorCarry = false →
    let t := s.slotTab a.val
    let i := ((s.arb a.val).slot + 1) % 256
    t.floors.contains i = false →
    claimant t i (pendingIds (s.arb a.val).pend) (s.arb a.val).parked (s.slotPanic a.val s.hstrLevel).1 (s.slotPanic a.val s.hstrLevel).2 = some r →
    ∃ (u : State) (lane : Nat), exec (.arbSlotDecision a reads camera) s = .next (s.after u) ∧
      (u.arb a.val).grant = some (r, lane, false)) ∧
  (∀ (s : State) (a : Fin 10) (reads : Fin 65) (camera : Fin 1025) (r lane : Nat), s.sys.inReset = false → a.val < s.mf.arbs.length →
    (s.arb a.val).run = none → (s.arb a.val).grant = some (r, lane, true) → (s.arb a.val).stale = true →
    ∃ u : State, exec (.arbSlotDecision a reads camera) s = .next (s.after u) ∧ (u.arb a.val).floorLast = r ∧ (u.arb a.val).run = none) ∧
  (∀ (s : State) (a : Fin 10) (reads : Fin 65) (camera : Fin 1025) (t : Xfer) (k r lane : Nat), s.sys.inReset = false → a.val < s.mf.arbs.length →
    (s.arb a.val).run = some ([t], k, false) → (s.arb a.val).revoke = true → (s.arb a.val).grant = some (r, lane, false) → t.req ≠ r →
    ∃ u : State, exec (.arbSlotDecision a reads camera) s = .next (s.after u) ∧
      ∃ v ∈ (u.arb a.val).pend, v.req = t.req ∧ v.lane = t.lane ∧ v.addr = t.addr ∧ v.n = t.n ∧ v.write = t.write ∧ v.got = [] ∧ v.since = s.now) ∧
  (∀ (t : SlotTab) (i : Nat) (ids parked : List Nat) (hp cp : Bool),
    (hp = true → 0 ∈ ids → claimant t i ids parked hp cp = some 0) ∧
    (hp = false → cp = true → 4 ∈ ids → claimant t i ids parked hp cp = some 4) ∧
    (hp = false → cp = false → t.owner i ∈ ids → claimant t i ids parked hp cp = some (t.owner i)) ∧
    (∀ r, claimant t i ids parked hp cp = some r → r ∈ ids))) ∧
  ((∀ (s : State) (env : BootEnv), s.fld Reg.DC_CFG F.DC_CFG_RATE < 5 → (∀ f ∈ env.fails, f.val < 4) →
    (s.train env).1 = true ∧ (s.train env).2.dram = s.dram ∧ (s.train env).2.mf = s.mf) ∧
  (∀ (s : State) (env : BootEnv) (rest : List (Fin 5)), env.fails = 4 :: rest → (s.train env).1 = false) ∧
  (∀ (s : State) (c n : Nat), (s.dch c).drain = true → State.dramServe c n s = s) ∧
  (∀ (s : State) (c : Nat) (b : ReadBurst) (rest : List ReadBurst), c < s.mf.chs.length → (s.dch c).drain = false → (s.dch c).rq = b :: rest →
    ((State.dramServe c 1 s).dch c).rq = rest ∧ (State.dramServe c 1 s).dram = s.dram) ∧
  (∀ (s : State) (c : Nat) (t : Xfer) (i : Nat), c < 2 → t.write = false → 64 ≤ (s.dch c).rq.length →
    (∀ w ∈ (s.dch c).wq, w.1 ≠ t.addr + 64 * i) → s.admitBurst c t i = none) ∧
  (∀ (s : State) (c : Fin 2), s.sys.inReset = false → s.chPanic c.val = false →
    exec (.dramRefreshDue c) s = .next (s.after ((s.setDch c.val { s.dch c.val with postponed := 0 }).refresh c.val))) ∧
  (∀ (s : State) (c : Fin 2), s.sys.inReset = false → s.chPanic c.val = true → (s.dch c.val).postponed < 8 →
    exec (.dramRefreshDue c) s = .next (s.after
      ((s.setDch c.val { s.dch c.val with postponed := (s.dch c.val).postponed + 1 }).raiseTo (Reg.DC_CHc_REF c.val) F.DC_CHc_REF_MAXPOST
        ((s.dch c.val).postponed + 1)))) ∧
  (∀ (s : State) (c : Fin 2), s.sys.inReset = false → s.chPanic c.val = true → 8 ≤ (s.dch c.val).postponed →
    exec (.dramRefreshDue c) s = .next (s.after
      ((((s.bump (Reg.DC_CHc_REF c.val) F.DC_CHc_REF_FORCED).flag Reg.DC_STAT F.DC_STAT_REFRESH_FORCED).relayRaise Ev.REFRESH_FORCED c.val dramPeriod).refresh
        c.val))) ∧
  (∀ (s : State) (c : Nat), c < s.mf.chs.length → ((s.refresh c).dch c).rows = [] ∧ ((s.refresh c).dch c).track = none ∧
    (s.refresh c).dram = s.dram) ∧
  (∀ (s : State) (c : Fin 2) (rate : Fin 8) (hot : Bool), s.sys.inReset = false →
    let t := s.setFld (Reg.DC_CHc_REF c.val) F.DC_CHc_REF_MR4_RATE rate.val
    exec (.dramMr4Read c rate hot) s = .next (s.after
      (if hot then (t.flag Reg.DC_STAT F.DC_STAT_HOT).raise Ev.DRAM_HOT else t))) ∧
  (∀ (s : State) (c : Fin 2) (osc : Fin 65536) (shift : Int), s.sys.inReset = false →
    exec (.dramTrackInterval c osc shift) s = .next (s.after
      ((s.setFld (Reg.DC_CHc_TRACK c.val) F.DC_CHc_TRACK_OSC osc.val).setDch c.val { s.dch c.val with track := some (osc.val, shift) }))) ∧
  (∀ (s : State) (c : Fin 2), s.sys.inReset = false → c.val < s.mf.chs.length → (s.dch c.val).drain = true →
    ∃ u : State, exec (.writeDrainBatch c) s = .next (s.after u) ∧
      (u.dch c.val).wq = (s.dch c.val).wq.drop ((s.dch c.val).wq.length - 16) ∧ (u.dch c.val).wq.length ≤ 16 ∧
      (u.dch c.val).drain = false ∧ u.dram = s.dram))

/-! ## Links -/

/-- R322, R326: LOS or LOL of a lane is kept in HL_Lk_STAT and ends its locks; where its group is ACTIVE and uses the lane, the
group retrains at its speed and width, and keeps its replay buffer and the SEQ it expects. HL_CTRL.RETRAIN retrains the groups
it names. R325: the steps of bring-up that a TRAIN block takes. In DETECT lane 0 with a valid partner starts TRAIN, and another
partner is LINK_DOWN; the sixteenth NEG block agrees the highest common speed and the largest width locked at both ends; in
ACTIVE a partner in TRAIN starts a retrain. R325, R326: what the bounds do. DETECT is tried again; TRAIN goes on to NEGOTIATE
where lane 0 is locked at both ends and NEGOTIATE falls back to DETECT; STEP-UP takes the next lower common speed, or DETECT; a
retrain past 10 ms ends in DETECT with an empty replay buffer. R320, R322, R323: 64 valid sync headers in a row give block
lock, and the sixteenth invalid one within 64 ends it, each counted in SYNC_ERR; two alignment markers in a row give AM lock,
the fourth missed in a row ends it, and each is counted. R320: descrambling gives back what was scrambled from the same state,
and leaves both ends in one state; a receiver is in step after one block, whatever state it began in. -/
def Obligations.LanesBringUp : Prop :=
  ((∀ (s : State) (k : Fin 8) (c : Instr) (f : BitField), s.sys.inReset = false → s.sys.hlrefOk = true →
    (c, f) ∈ [(Instr.linkLos k, F.HL_Lk_STAT_LOS), (.linkLol k, F.HL_Lk_STAT_LOL)] →
    let g := s.groupOf k.val
    ∃ u : State, exec c s = .next (s.after u) ∧ u.fld (Reg.HL_Lk_STAT k.val) f = 1 ∧
      (u.lane k.val).blockLock = false ∧ (u.lane k.val).amLock = false ∧
      (∀ g', g' ≠ g ∨ (s.grp g').st ≠ .active → u.grp g' = s.grp g') ∧
      (g < 3 → (s.grp g).st = .active → k.val < s.laneBase g + (s.grp g).lanes →
        let x := u.grp g
        let y := s.grp g
        x.st = .train ∧ x.retrain = true ∧ x.lanes = y.lanes ∧ x.speed = y.speed ∧ x.replay = y.replay ∧ x.rxSeq = y.rxSeq ∧
        u.isSet Reg.HL_STAT F.HL_STAT_LINK_RETRAIN = true)) ∧
  (∀ (s : State) (m : Master) (w : Word), s.takes m Reg.HL_CTRL →
    let v := cmdWord Reg.HL_CTRL w [(F.HL_CTRL_ENUM, 0)]
    ∃ u : State, exec (.retrain m w) s = .next (s.wrote u m) ∧ ∀ g, g < 3 →
      ((F.HL_CTRL_RETRAIN.get v).testBit g = true → (s.grp g).st = .active → (u.grp g).st = .train ∧ (u.grp g).retrain = true) ∧
      ((F.HL_CTRL_RETRAIN.get v).testBit g = false ∨ (s.grp g).st ≠ .active → u.grp g = s.grp g))) ∧
  ((∀ (s : State) (g : Fin 3) (st cap node locked : Nat) (before : List Block) (hdr : Fin 4) (lo hi : BitVec 32), s.sys.inReset = false →
    s.sys.hlrefOk = true → g.val < s.hl.groups.length → 0 < s.cfgLanes g.val → (s.grp g.val).st = .detect →
    (((s.laneBlocks (s.laneBase g.val) before).1.laneBlock (s.laneBase g.val) ⟨hdr, hi ++ lo⟩).1.bind (readTrain 0)) = some (st, cap, node, locked) →
    ∃ u : State, exec (.trainBlock g 0 before hdr lo hi true) s = .next (s.after u) ∧
      (((g.val = 0 ∧ (node = 0 ∨ node = 2)) ∨ (g.val ≠ 0 ∧ node = 1)) →
        (u.grp g.val).st = .train ∧ (u.grp g.val).cap = cap ∧ (u.grp g.val).partner = (if node = 0 then 1 else 2)) ∧
      (¬((g.val = 0 ∧ (node = 0 ∨ node = 2)) ∨ (g.val ≠ 0 ∧ node = 1)) →
        (u.grp g.val).st = .detect ∧ ((s.grp g.val).steps = 0 → u.isSet Reg.HL_STAT F.HL_STAT_LINK_DOWN = true))) ∧
  (∀ (s : State) (g c n : Nat) (rest : List Nat), g < s.hl.groups.length → s.speedCodes g = c :: rest →
    [4, 2, 1].find? (fun n => decide (n ≤ s.cfgLanes g) &&
      (List.range n).all fun i => (s.lockedMask g &&& (s.grp g).theirs).testBit i) = some n →
    ((s.agree g).grp g).speed = c ∧ ((s.agree g).grp g).lanes = n ∧
      ((s.agree g).grp g).st = (if c = 0 then .deskew else .stepUp)) ∧
  (∀ (s : State) (g : Nat) (c : Nat), c ∈ s.speedCodes g →
    (∀ d ∈ s.speedCodes g, d ≤ (s.speedCodes g).headD 0) ∧ (s.grp g).cap.testBit c = true ∧ (g ≠ 0 → 2 ≤ c)) ∧
  (∀ (s : State) (g : Fin 3) (lane : Fin 4) (cap node locked : Nat) (before : List Block) (hdr : Fin 4) (lo hi : BitVec 32),
    s.sys.inReset = false → s.sys.hlrefOk = true → lane.val < s.cfgLanes g.val → (s.grp g.val).st = .active →
    (((s.laneBlocks (s.laneBase g.val + lane.val) before).1.laneBlock (s.laneBase g.val + lane.val) ⟨hdr, hi ++ lo⟩).1.bind (readTrain lane.val)) =
      some (1, cap, node, locked) →
    ∃ u : State, exec (.trainBlock g lane before hdr lo hi true) s = .next (s.after u) ∧
      (u.grp g.val).st = .train ∧ (u.grp g.val).retrain = true)) ∧
  ((∀ (s : State) (g : Fin 3), s.sys.inReset = false → s.sys.hlrefOk = true → (s.grp g.val).retrain = false →
    let x := s.grp g.val
    ∃ u : State, exec (.linkBringupTimeout g) s = .next (s.after u) ∧
      (x.st = .detect ∨ x.st = .negotiate → u = s.toDetect g.val) ∧
      (x.st = .train → u = if (s.lockedMask g.val &&& x.theirs).testBit 0 then
        s.setGrp g.val { x with st := .negotiate, steps := 0 } else s.toDetect g.val) ∧
      (∀ c, x.st = .stepUp → (s.speedCodes g.val).find? (decide <| · < x.speed) = some c →
        u = s.setGrp g.val { x with speed := c, steps := 0, st := if c = 0 then .deskew else .stepUp }) ∧
      (x.st = .stepUp → (s.speedCodes g.val).find? (decide <| · < x.speed) = none →
        u = (if g.val = 0 then s else s.linkSlow).toDetect g.val)) ∧
  (∀ (s : State) (g : Fin 3), s.sys.inReset = false → (s.grp g.val).retrain = true →
    ∃ u : State, exec (.retrainTimeout g) s = .next (s.after u) ∧ (u.grp g.val).replay = [] ∧ (u.grp g.val).waitq = [] ∧
      (u.grp g.val).st = (if s.setLanes g.val = 0 then .disabled else .detect) ∧ (u.grp g.val).width = s.setLanes g.val ∧
      (u.grp g.val).base = s.setBase g.val ∧
      u.isSet Reg.HL_STAT F.HL_STAT_LINK_DOWN = true) ∧
  (∀ (s : State) (g : Nat), (g = 1 ∨ g = 2) → (s.toDetect g).isSet (routeReg g) F.HL_ROUTE0_VALID = false)) ∧
  ((∀ (s : State) (k : Nat), k < s.hl.lanes.length → (s.lane k).blockLock = false →
    ((s.syncHeader k true).1.lane k).run = min 64 ((s.lane k).run + 1) ∧
    (((s.syncHeader k true).1.lane k).blockLock = true ↔ 63 ≤ (s.lane k).run)) ∧
  (∀ (s : State) (k : Nat) (ok : Bool), k < s.hl.lanes.length → (s.lane k).blockLock = true →
    let h := (s.lane k).hist ++ [ok]
    ((s.syncHeader k ok).2 = true ↔ 16 ≤ ((h.drop (h.length - 64)).filter fun b => !b).length) ∧
    ((s.syncHeader k ok).1.lane k).blockLock = !(s.syncHeader k ok).2) ∧
  (∀ (s : State) (k : Fin 8), (s.syncHeader k.val false).1.fld (Reg.HL_Lk_ERR k.val) F.HL_Lk_ERR_SYNC_ERR =
    min F.HL_Lk_ERR_SYNC_ERR.top (s.fld (Reg.HL_Lk_ERR k.val) F.HL_Lk_ERR_SYNC_ERR + 1)) ∧
  (∀ (s : State) (k : Fin 8) (b : Block) (skew : Nat), s.sys.inReset = false → s.sys.hlrefOk = true → k.val < s.hl.lanes.length →
    s.isMarker k.val b = true → (s.syncHeader k.val true).2 = false →
    ∃ u : State, exec (.amBlock k [b] skew) s = .next (s.after u) ∧ (u.lane k.val).skew = min 31 skew ∧
      ((u.lane k.val).amLock = true ↔ (s.lane k.val).amLock = true ∨ 1 ≤ (s.lane k.val).amGood)) ∧
  (∀ (s : State) (k : Fin 8) (skew : Nat), s.sys.inReset = false → s.sys.hlrefOk = true → k.val < s.hl.lanes.length →
    ∃ u : State, exec (.amBlock k [] skew) s = .next (s.after u) ∧
      u.fld (Reg.HL_Lk_ERR k.val) F.HL_Lk_ERR_AM_ERR =
        min F.HL_Lk_ERR_AM_ERR.top (s.fld (Reg.HL_Lk_ERR k.val) F.HL_Lk_ERR_AM_ERR + 1) ∧
      ((u.lane k.val).amLock = true ↔ (s.lane k.val).amLock = true ∧ (s.lane k.val).amBad < 3))) ∧
  ((∀ st d : Nat, d < 2 ^ 64 → descramble st (scramble st d).1 = (d, (scramble st d).2)) ∧
  (∀ a b d : Nat, (descramble a d).2 = (descramble b d).2))

/-- R329, R330, R331: a packet starts only when a group is ACTIVE and the credit of its class covers it; a sequenced one takes
the next SEQ and stays in the replay buffer until an ACK names it or a later one; a NAK or 20 µs without an ACK resends all
that is held, in order, four times and then retrains. -/
def Obligations.PacketsAreKept : Prop :=
  (∀ (s : State) (g : Fin 3), s.sys.inReset = false → s.sys.hlrefOk = true → (s.grp g.val).nextPkt = none →
    exec (.packetTransmit g) s = .next (s.after s)) ∧
  (∀ (s : State) (g : Fin 3) (p : Pkt), s.sys.inReset = false → s.sys.hlrefOk = true → (s.grp g.val).nextPkt = some p →
    (s.grp g.val).st = .active → p.flags.testBit 2 = false → (p.ty ≠ 5) →
    let x := s.grp g.val
    let q := { s.fillPkt p with seq := x.txSeq }
    x.held + q.bytes.length ≤ 65536 →
    ∃ u : State, exec (.packetTransmit g) s = .next (s.after u) ∧ (u.grp g.val).sent = [q] ∧
      (u.grp g.val).replay = x.replay ++ [q] ∧ (u.grp g.val).txSeq = (x.txSeq + 1) % 4096 ∧
      (u.grp g.val).waitq = x.waitq.erase p) ∧
  (∀ (x : LinkGroup) (p : Pkt), x.nextPkt = some p → p ∈ x.waitq ∧
    p.credits ≤ (if pktClass p.ty = 3 then x.creditReq else x.creditPri)) ∧
  (∀ (s : State) (g : Fin 3) (seq creq cpri : Nat), s.sys.inReset = false → s.sys.hlrefOk = true → g.val < s.hl.groups.length →
    let x := s.grp g.val
    ∃ u : State, exec (.ack g seq creq cpri) s = .next (s.after u) ∧
      (u.grp g.val).creditReq = creq ∧ (u.grp g.val).creditPri = cpri ∧
      (∀ l q r, x.replay = l ++ q :: r → q.seq = seq → (∀ p ∈ l, p.seq ≠ seq) → (u.grp g.val).replay = r) ∧
      ((∀ p ∈ x.replay, p.seq ≠ seq) → (u.grp g.val).replay = x.replay)) ∧
  (∀ (s : State) (g : Fin 3) (c : Instr), s.sys.inReset = false → s.sys.hlrefOk = true → (c = .replayTimeout g ∨ ∃ n, c = .nak g n) →
    let x := s.grp g.val
    x.st = .active → x.replay ≠ [] →
    ∃ u : State, exec c s = .next (s.after u) ∧ (u.grp g.val).replay = x.replay ∧
      (x.resends < 4 → (u.grp g.val).sent = x.replay ∧ (u.grp g.val).resends = x.resends + 1 ∧ (u.grp g.val).st = .active) ∧
      (4 ≤ x.resends → (u.grp g.val).st = .train ∧ (u.grp g.val).retrain = true)) ∧
  (∀ (s : State) (g : Fin 3), s.sys.inReset = false → s.sys.hlrefOk = true → (s.grp g.val).st = .active →
    exec (.ackTimer g) s = .next (s.after (s.sendBlock g.val (s.grp g.val).ackBytes)))

/-- R327, R328: a packet as the controller builds it has a good CRC-32 and is read back with every field it holds. -/
def Obligations.PacketsParse : Prop :=
  ∀ (p : Pkt) (t : Nat), 1 ≤ p.ty → p.ty ≤ 7 → p.flags < 8 → p.len ≤ 1024 → p.len % 4 = 0 →
    (if p.ty = 2 then p.payload = [] else p.payload.length = p.len) → p.seq < 4096 →
    (p.flags.testBit 2 = true → p.seq = 0) → p.dest < 256 → p.src < 256 → p.tag < 65536 → p.status < 65536 →
    p.addr < 2 ^ 64 → (p.ty ≠ 3 → p.status = 0) → (p.ty ≠ 1 → p.ty ≠ 2 → p.ty ≠ 4 → p.addr = 0) →
    (p.ty = 5 → p.len = 48 ∧ p.flags.testBit 2 = true) → (p.ty = 6 → p.len = 40 ∧ p.flags.testBit 1 = true) →
    (p.flags.testBit 0 = p.auth.isSome) → (∀ a ∈ p.auth, a.1 < 2 ^ 64 ∧ a.2.length = 16) →
    pktCrcOk p.bytes = true ∧ parsePkt p.bytes t = some { p with fwd := true, since := t }

/-- R327, R329, R330: what a receiver does with a packet of the type it is. A good one with the expected SEQ is accepted and
acknowledged; a duplicate is discarded in silence; one above the expected SEQ, or with a bad CRC-32, is discarded and a NAK
with the expected SEQ sent once. R332, R333, R336: a register request, a DMA_WR, a completion and an AUD that a receiver
accepts are routed: those for this controller are performed here, behind the earlier ones of their source, and those for
another group wait there for transmission. R334: a DMA_WR is written whole to DRAM or moves no byte; a refused one is counted,
raises DMA_REFUSED and is told to its source with the next RD_CPL. R335: with AUTH_REQ, a REG_WR to AU or BU from UP without a
valid trailer is answered with AUTH and writes nothing; a trailer is valid only under the LINK key and with an AUTH_SEQ above
the last. -/
def Obligations.PacketsReceived : Prop :=
  (∀ (s : State) (g ty : Nat) (bs : List Byte), (s.grp g).st = .active →
    let x := s.grp g
    let r := s.receive g ty bs
    (∀ p, pktCrcOk bs = true → parsePkt bs s.now = some p → p.ty = ty → p.flags.testBit 2 = false →
      (p.seq = x.rxSeq → r.1 = some p ∧ (r.2.grp g).rxSeq = (x.rxSeq + 1) % 4096 ∧ (r.2.grp g).nakSent = false ∧
        (r.2.grp g).block = { x with rxSeq := (x.rxSeq + 1) % 4096 }.ackBytes) ∧
      (p.seq ≠ x.rxSeq → (x.rxSeq + 4096 - p.seq) % 4096 < 2048 → r = (none, s)) ∧
      (p.seq ≠ x.rxSeq → 2048 ≤ (x.rxSeq + 4096 - p.seq) % 4096 → x.nakSent = false →
        r.1 = none ∧ (r.2.grp g).nakSent = true ∧ (r.2.grp g).block = [0x69#8] ++ leBytes 2 x.rxSeq ++ List.replicate 5 0)) ∧
    (pktCrcOk bs = false → ty ≠ 5 → r.1 = none ∧ (r.2.grp g).rxSeq = x.rxSeq ∧ (r.2.grp g).nakSent = true)) ∧
  ((∀ (s s1 : State) (g : Fin 3) (p : Pkt) (bs : List Byte) (c : Instr) (ty : Nat), s.sys.inReset = false → s.sys.hlrefOk = true →
    (c, ty) ∈ [(Instr.regWr g bs, 1), (.regRd g bs, 2), (.dmaWr g bs, 4)] → s.receive g.val ty bs = (some p, s1) →
    ∃ u : State, exec c s = .next (s.after u) ∧
      (s1.routeOf p (g.val = 0) = .here → (∀ w ∈ s1.fl.waits, w.source ≠ some p.source) → u = s1.class3 p (g.val = 0)) ∧
      (s1.routeOf p (g.val = 0) = .here → (∃ w ∈ s1.fl.waits, w.source = some p.source) →
        u = s1.suspend .turn (b2n (g.val = 0)) 0 none (some ⟨some p, false, 0, 0, [], 0, 0, []⟩)) ∧
      (∀ k, s1.routeOf p (g.val = 0) = .group k → u = s1.sendOn k p) ∧
      (s1.routeOf p (g.val = 0) = .refused → ty ≠ 4 → u = (s1.faultTold p).sendOn g.val (s1.completion p 3 [])) ∧
      (s1.routeOf p (g.val = 0) = .refused → ty = 4 → u = s1.noRoute)) ∧
  (∀ (s s1 : State) (g : Fin 3) (p : Pkt) (bs : List Byte), s.sys.inReset = false → s.sys.hlrefOk = true →
    s.receive g.val 3 bs = (some p, s1) →
    ∃ u : State, exec (.rdCpl g bs) s = .next (s.after u) ∧
      (s1.routeOf p (g.val = 0) = .here → u = s1.rdCplHere p.tag p.status p.payload) ∧
      (∀ k, s1.routeOf p (g.val = 0) = .group k → u = s1.sendOn k p)) ∧
  (∀ (s s1 : State) (g : Fin 3) (p : Pkt) (bs : List Byte), s.sys.inReset = false → s.sys.hlrefOk = true →
    s.receive g.val 7 bs = (some p, s1) →
    ∃ u : State, exec (.aud g bs) s = .next (s.after u) ∧
      (s1.routeOf p (g.val = 0) = .here → leAt p.payload 0 1 = 2 → u = s1.witRecord (p.payload.drop 8)) ∧
      (∀ k, s1.routeOf p (g.val = 0) = .group k → u = s1.sendOn k p)) ∧
  (∀ (s : State) (p : Pkt) (up : Bool), p.host = true → up = false →
    s.routeOf p up = .group 0) ∧
  (∀ (s : State) (p : Pkt) (up : Bool), p.host = false ∨ up = true → s.routeOf p up =
    (if s.indexValid = false then .refused else if p.dest = s.index then .here else if s.inRoute 1 p.dest = true then .group 1
      else if s.inRoute 2 p.dest = true then .group 2 else if s.isSummit = true then .refused else .group 0))) ∧
  (∀ (s : State) (p : Pkt),
    let w := s.writeAs 7 p.addr p.payload
    let bad := p.len < 64 ∨ p.len % 64 ≠ 0 ∨ p.addr % 64 ≠ 0
    (¬bad → w.1 = true → s.dmaHere p = w.2) ∧
    ((bad ∨ w.1 = false) → (s.dmaHere p).dram = s.dram ∧ p.source ∈ (s.dmaHere p).hl.fault ∧
      (s.dmaHere p).isSet Reg.HL_STAT F.HL_STAT_DMA_REFUSED = true ∧
      (s.dmaHere p).fld Reg.HL_DMA_ERR F.HL_DMA_ERR_COUNT = min F.HL_DMA_ERR_COUNT.top (s.fld Reg.HL_DMA_ERR F.HL_DMA_ERR_COUNT + 1))) ∧
  ((∀ (s : State) (p : Pkt), p.ty = 1 → 4 ≤ p.len → p.len ≤ 256 → p.len % 4 = 0 → p.addr % 2 ^ 32 % 4 = 0 →
    s.isSet Reg.HL_CFG F.HL_CFG_AUTH_REQ = true → guarded (p.addr % 2 ^ 32) p.len = true → s.trailerOk p = none →
    ∃ t : State, s.regHere p true = t.reply p 4 [] ∧ t.bu = s.bu ∧ t.au = s.au ∧ t.hl = s.hl ∧
      (∀ a, a / 0x10000 = 0x0E ∨ a / 0x10000 = 0x10 → t.rd a = s.rd a) ∧ (p.auth = none → t = s)) ∧
  (∀ (s : State) (p : Pkt) (seq : Nat), s.trailerOk p = some seq →
    s.hl.authSeq < seq ∧ ∃ key tag, s.slot 7 = some key ∧ p.auth = some (seq, tag) ∧
      tag = (hmac256 key (p.header ++ p.payload ++ leBytes 8 seq)).take 16))

/-- R337: enumeration is refused off the summit, in another mode and while a group trains, with its ENUM_ERR; a group that does
not answer fails it; the summit fails a rope of more than 256 controllers or deeper than 16, and otherwise takes index 0 and
gives DOWN0 the range from 1 and DOWN1 the range behind it. R345: ECHO_REQ is answered with its turnaround; a measurement sends
eight requests; the eighth answer sets the latency of the group to half the mean of round trip less turnaround, plus ADJ. R340,
R451: an EVT from below updates its CHIP unit, is passed on, and enters the queue where it reports an event; one of class HOLD
or above brings HOLD with CASCADE_HOLD. A CHIP unit without one for 5 ms is OFFLINE, and after 1 ms without one of its own the
controller reports its own status. -/
def Obligations.RopeReports : Prop :=
  ((∀ (s : State) (m : Master) (w : Word), s.takes m Reg.HL_CTRL →
    ∃ u : State, exec (.enumStart m w) s = .next (s.wrote u m) ∧
      (s.isSummit = false → u = s.enumErr 5) ∧
      (s.isSummit = true → s.mode ≠ .idle → s.mode ≠ .service → u = s.enumErr 4)) ∧
  (∀ (s : State) (m : Master) (w : Word), s.takes m Reg.HL_CTRL → s.isSummit = true → (s.mode = .idle ∨ s.mode = .service) →
    s.hl.enum = none → (s.grp 1).st = .disabled → (s.grp 2).st = .disabled →
    ∃ u : State, exec (.enumStart m w) s = .next (s.wrote u m) ∧ u.isSummit = true ∧ u.indexValid = true ∧ u.index = 0 ∧
      u.hl.enum = none ∧ u.isSet Reg.HL_STAT F.HL_STAT_ENUM_DONE = true ∧
      u.isSet Reg.HL_ROUTE0 F.HL_ROUTE0_VALID = false ∧ u.isSet Reg.HL_ROUTE1 F.HL_ROUTE1_VALID = false) ∧
  (∀ (s : State) (a b : Nat × Nat), s.isSummit = true → s.hl.enum = some ⟨some a, some b⟩ →
    let t := s.enumAnswered
    t.hl.enum = none ∧
    (256 < 1 + a.1 + b.1 ∨ 16 < max a.2 b.2 → t.isSet Reg.HL_STAT F.HL_STAT_ENUM_FAIL = true ∧
      t.rd Reg.HL_ROUTE0 = s.rd Reg.HL_ROUTE0 ∧ t.rd Reg.HL_ROUTE1 = s.rd Reg.HL_ROUTE1) ∧
    (¬(256 < 1 + a.1 + b.1 ∨ 16 < max a.2 b.2) → t.index = 0 ∧ t.indexValid = true ∧
      (∀ d, d ≤ 256 → (t.inRoute 1 d = true ↔ 1 ≤ d ∧ d ≤ a.1) ∧ (t.inRoute 2 d = true ↔ a.1 + 1 ≤ d ∧ d ≤ a.1 + b.1)))) ∧
  (∀ (s : State) (g : Fin 3) (e : EnumState), s.sys.inReset = false → s.hl.enum = some e →
    ((g.val = 1 ∧ e.size0 = none) ∨ (g.val = 2 ∧ e.size1 = none)) →
    ∃ u : State, exec (.enumTimeout g) s = .next (s.after u) ∧ u.hl.enum = none ∧
      u.isSet Reg.HL_STAT F.HL_STAT_ENUM_FAIL = true) ∧
  (∀ (s : State) (value depth : Nat) (a b : Nat × Nat), s.sys.inReset = false → s.sys.hlrefOk = true → (s.grp 0).st = .active →
    s.isSummit = false → s.hl.enum = some ⟨some a, some b⟩ → value < 256 → depth < 16 →
    ∃ u : State, exec (.enumBlock 0 2 value depth) s = .next (s.after u) ∧ u.index = value ∧ u.indexValid = true ∧
      u.fld Reg.HL_INDEX F.HL_INDEX_DEPTH = depth + 1 ∧ u.hl.enum = none)) ∧
  ((∀ (s : State) (g : Fin 3) (token turn : Nat), s.sys.inReset = false → s.sys.hlrefOk = true →
    ((s.grp g.val).st = .deskew ∨ (s.grp g.val).st = .active) →
    exec (.echoReq g token turn) s = .next (s.after (s.sendBlock g.val ([0x9C] ++ leBytes 4 token ++ leBytes 2 turn ++ [0])))) ∧
  (∀ (s : State) (g : Fin 3), s.sys.inReset = false → s.sys.hlrefOk = true →
    ((s.grp g.val).st = .deskew ∨ (s.grp g.val).st = .active) → g.val < s.hl.groups.length →
    ∃ u : State, exec (.latencyMeasureTimer g) s = .next (s.after u) ∧ (u.grp g.val).echoSent.length = 8 ∧
      (u.grp g.val).echoRt = [] ∧ (∀ e ∈ (u.grp g.val).echoSent, e.2 = s.now)) ∧
  (∀ (s : State) (g : Fin 3) (token turn at_ : Nat), s.sys.inReset = false → s.sys.hlrefOk = true → (s.grp g.val).st = .active →
    (s.grp g.val).echoSent.find? (fun e => e.1 = token) = some (token, at_) →
    let rt := (s.grp g.val).echoRt ++ [s.now - at_ - turn]
    ∃ u : State, exec (.echoRsp g token turn) s = .next (s.after u) ∧
      (rt.length < 8 → (u.grp g.val).echoRt = rt ∧ u.regs = s.regs) ∧
      (rt.length = 8 → (u.grp g.val).measured = true ∧ (u.fld (Reg.HL_Gg_LAT g.val) F.HL_Gg_LAT_LAT : Int) =
        clamp 0 65535 ((rt.sum / 16 : Nat) + s.fldI (Reg.HL_Gg_LAT g.val) F.HL_Gg_LAT_ADJ)))) ∧
  ((∀ (s s1 : State) (g : Fin 3) (p : Pkt) (bs : List Byte), s.sys.inReset = false → s.sys.hlrefOk = true → g.val ≠ 0 →
    s.receive g.val 6 bs = (some p, s1) → s1.si.valid (chipH p.src) = true →
    ∃ u : State, exec (.evt g bs) s = .next (s.after u) ∧
      AMap.get chipDefault u.ut.chips p.src = ⟨true, leAt p.payload 20 1, leAt p.payload 21 1, leAt p.payload 24 4,
        leAt p.payload 28 4, leAt p.payload 32 4, s1.now⟩ ∧
      (leAt p.payload 0 2 ≠ 0 → 3 ≤ leAt p.payload 2 1 → s1.isSet Reg.FL_CFG F.FL_CFG_CASCADE_HOLD = true →
        u.sys.holdDue = true)) ∧
  (∀ (s : State) (c : Fin 256), s.sys.inReset = false →
    ∃ u : State, exec (.chipEvtTimeout c) s = .next (s.after u) ∧
      (s.now - (AMap.get chipDefault s.ut.chips c.val).lastEvt < 5000000 → u = s) ∧
      (5000000 ≤ s.now - (AMap.get chipDefault s.ut.chips c.val).lastEvt → (AMap.get chipDefault u.ut.chips c.val).online = false) ∧
      ∀ d, d ≠ c.val → AMap.get chipDefault u.ut.chips d = AMap.get chipDefault s.ut.chips d) ∧
  (∀ s : State, s.sys.inReset = false → exec .evtPeriodic s =
    .next (s.after (if 1000000 ≤ s.now - s.hl.evtAt then s.statusEvt else s))))

/-- R342 to R347: the summit samples WPOS with its velocity and sends it down; a POS is passed on with AGE raised, corrects
WPOS under ROPE (the first sets it), and its loss holds w with POS_LOST. -/
def Obligations.PositionBroadcast : Prop :=
  (∀ s : State, s.sys.inReset = false → ∃ u : State, exec .posSample s = .next (s.after u) ∧ u.hl.lastPos = s.wp.pos ∧
    (s.isSummit = true → s.isSet Reg.HL_POS_CFG F.HL_POS_CFG_EN = true →
      u = ({ s with hl := { s.hl with lastPos := s.wp.pos } } : State).posDown s.wp.pos
        (((s.wp.pos : Int) - s.hl.lastPos) * 65536 / s.posPeriod) 0 s.stamp.bytes PosParent.top)) ∧
  (∀ (s s1 : State) (p : Pkt) (bs : List Byte), s.sys.inReset = false → s.sys.hlrefOk = true →
    s.receive 0 5 bs = (some p, s1) → exec (.posPacket 0 bs) s = .next (s.after (s1.posIn p.payload))) ∧
  (∀ (s : State) (wpos : Nat) (vel : Int) (age : Nat), s.wp.src = 2 → s.hl.rope = none →
    let target : Int := wpos + vel * (age + s.upLat + 40 : Nat) / 65536
    s.ropeCorrect wpos vel age =
      ({ s with hl := { s.hl with rope := some ⟨s.now, target, 0, vel, s.posPeriod⟩ } } : State).ropeSet target) ∧
  (∀ (r : RopePos), 0 < r.period → r.at r.t0 = r.target - r.c ∧
    (∀ t, r.t0 + r.period ≤ t → r.at t = r.target + r.vel * (t - r.t0 : Nat) / 65536)) ∧
  (∀ s : State, s.sys.inReset = false → s.wp.src ≠ 2 ∨ s.posOver = false → exec .posTimeout s = .next (s.after s)) ∧
  (∀ s : State, s.sys.inReset = false → s.wp.src = 2 → s.posOver = true → ∃ u : State, exec .posTimeout s = .next (s.after u) ∧
    u.wp.pos = s.wp.pos ∧ u.isSet Reg.HL_STAT F.HL_STAT_POS_LOST = true ∧ (∀ r ∈ u.hl.rope, ∀ t, r.at t = s.wp.pos))

/-- R349: an MSPI frame that has another command is counted, one that is cut short performs nothing; a WRITE with a wrong
CRC-8, or a COUNT or address out of its rules, makes no access and answers why; a good frame is a series of accesses through
window 6. -/
def Obligations.MspiFrames : Prop :=
  (∀ (s : State) (bs : List Byte) (ans : Bool), s.sys.inReset = false →
    let n := leAt bs 5 1 + 1
    ∃ u : State, exec (.mspiFrame bs ans) s = .next (s.after u) ∧
      (bs ≠ [] → leAt bs 0 1 ≠ 2 → leAt bs 0 1 ≠ 3 →
        u = ({ s with hl := { s.hl with mspi := [0] } } : State).mspiErr F.HL_MSPI_ERR_ABORT) ∧
      (bs = [] ∨ ((leAt bs 0 1 = 2 ∨ leAt bs 0 1 = 3) ∧ bs.length < 6) ∨ (leAt bs 0 1 = 2 ∧ bs.length < 6 + 4 * n + 1) →
        u = ({ s with hl := { s.hl with mspi := [0] } } : State)) ∧
      (6 + 4 * n + 1 ≤ bs.length → leAt bs 0 1 = 2 → mspiCrc (bs.take (6 + 4 * n)) ≠ bs.getD (6 + 4 * n) 0 →
        u = (({ s with hl := { s.hl with mspi := [0] } } : State).mspiErr F.HL_MSPI_ERR_CRC).mspiAnswer 6) ∧
      (6 + 4 * n + 1 ≤ bs.length → leAt bs 0 1 = 2 → mspiCrc (bs.take (6 + 4 * n)) = bs.getD (6 + 4 * n) 0 → n ≤ 64 →
        leAt bs 1 4 % 4 = 0 → u = ({ s with hl := { s.hl with mspi := [0] } } : State).beginSeries none true 6 (leAt bs 1 4) n
          (payloadWords (slice bs 6 (4 * n)))) ∧
      (6 ≤ bs.length → leAt bs 0 1 = 3 → n ≤ 64 → leAt bs 1 4 % 4 = 0 → ans = true →
        u = ({ s with hl := { s.hl with mspi := [0] } } : State).beginSeries none false 6 (leAt bs 1 4) n []) ∧
      (6 ≤ bs.length → leAt bs 0 1 = 3 → n ≤ 64 → leAt bs 1 4 % 4 = 0 → ans = false →
        u = (({ s with hl := { s.hl with mspi := [0] } } : State).beginSeries none false 6 (leAt bs 1 4) n []).mspiErr F.HL_MSPI_ERR_ABORT) ∧
      (6 ≤ bs.length → leAt bs 0 1 = 3 → 64 < n ∨ leAt bs 1 4 % 4 ≠ 0 → u.hl.mspi = [0x5A#8, 5#8, 0#8] ∧ u.regs = s.regs)) ∧
  (∀ (s : State) (a : Nat), s.isSet Reg.HL_MSPI_CFG F.HL_MSPI_CFG_RO = true → s.mspiRefused a = true)

/-! ## Time and network -/

/-- R362: SET waits for the next TBCLK cycle, and is refused in PRINT and for TN_SET_NS of a second or more; R359: a TBCLK
cycle advances the timebase by 4 ns and ADDEND, with a carry into seconds, or takes the value of a SET with fraction 0 except
in PRINT, and TB_NS stays below one second. R355: a kick sets a ring walk going. R363, R370: a read of TN_CAP or TN_Pk_TXTS
completes with VALID and the oldest entry and pops it, and the three words behind it hold its timestamp; from an empty FIFO it
answers without VALID. -/
def Obligations.Timebase : Prop :=
  ((∀ (s : State) (m : Master) (w : Word), s.takes m Reg.TN_CTRL →
    ∃ u : State, exec (.setTime m w) s = .next (s.wrote u m) ∧
      (s.mode = .print ∨ 1000000000 ≤ s.rdN Reg.TN_SET_NS → u = s.flag Reg.TN_STAT F.TN_STAT_CFG_REFUSED) ∧
      (s.mode ≠ .print → s.rdN Reg.TN_SET_NS < 1000000000 → u = { s with tn := { s.tn with
        load := some (s.rdN Reg.TN_SET_SEC_LO + s.rdN Reg.TN_SET_SEC_HI * 2 ^ 32, s.rdN Reg.TN_SET_NS) } })) ∧
  (∀ (s : State) (m : Master) (w : Word), s.takes m Reg.TN_CTRL →
    exec (.txKick m w) s = .next (s.wrote { s with tn := { s.tn with txRun := true } } m) ∧
    exec (.rxKick m w) s = .next (s.wrote { s with tn := { s.tn with rxRun := true } } m)) ∧
  (∀ (s : State) (a b : Nat), s.mode ≠ .print → s.tn.load = some (a, b) →
    s.tbCycle = { s with tn := { s.tn with sec := a, ns := b, frac := 0, load := none } }) ∧
  (∀ s : State, s.tn.load = none ∨ s.mode = .print → s.tn.ns < 1000000000 → s.tn.frac < 2 ^ 32 →
    let t := s.tbCycle
    let v (x : State) : Int := ((x.tn.sec : Int) * 1000000000 + x.tn.ns) * 2 ^ 32 + x.tn.frac
    0 ≤ (s.tn.ns : Int) * 2 ^ 32 + s.tn.frac + 4 * 2 ^ 32 + s.addend → s.tn.sec + 1 < 2 ^ 64 →
    v t = v s + 4 * 2 ^ 32 + s.addend ∧ t.tn.ns < 1000000000 ∧ t.tn.frac < 2 ^ 32)) ∧
  ((∀ (s : State) (m : Master), s.takes m Reg.TN_CAP →
    let lost := s.fld Reg.TN_CAP F.TN_CAP_LOST
    ∃ (u : State) (v : Nat), exec (.tnCapRead m) s = .next (s.after (u.complete m.val (BitVec.ofNat 32 v) false false)) ∧
      u.fld Reg.TN_CAP F.TN_CAP_LOST = 0 ∧
      (s.tn.cap = [] → v = lost * 256 ∧ u.tn = s.tn) ∧
      (∀ src ts rest, s.tn.cap = (src, ts) :: rest → v = 2 ^ 31 + lost * 256 + src ∧ u.tn.cap = rest ∧
        u.rd Reg.TN_CAP_TS0 = BitVec.ofNat 32 (leAt ts 0 4) ∧ u.rd Reg.TN_CAP_TS1 = BitVec.ofNat 32 (leAt ts 4 4) ∧
        u.rd Reg.TN_CAP_TS2 = BitVec.ofNat 32 (leAt ts 8 4))) ∧
  (∀ (s : State) (m : Master) (k : Fin 2), s.takes m (Reg.TN_Pk_TXTS k.val) →
    ∃ (u : State) (v : Nat), exec (.tnTxtsRead m k) s = .next (s.after (u.complete m.val (BitVec.ofNat 32 v) false false)) ∧
      (s.tn.txts.getD k.val [] = [] → v = 0 ∧ u = s) ∧
      (∀ tag ts rest, s.tn.txts.getD k.val [] = (tag, ts) :: rest → v = 2 ^ 31 + tag ∧ u.tn.txts = s.tn.txts.set k.val rest ∧
        u.rd (Reg.TN_Pk_TXTS0 k.val) = BitVec.ofNat 32 (leAt ts 0 4) ∧
        u.rd (Reg.TN_Pk_TXTS2 k.val) = BitVec.ofNat 32 (leAt ts 8 4))))

/-- R365, R366: an offset write outside a rope domain records the offset and the health of its domain, and only that of the
steering domain with QUAL = 1 runs the servo; a step of the servo happens only outside PRINT with STEP_EN and is flagged. R366,
R367: loss of health of the steering domain, HEALTH_TMO after its last offset write, gives steering to the other while it is
healthy, with DOMAIN_SWITCH, and brings holdover with TIME_HOLDOVER otherwise; A takes steering back with DOMAIN_REVERT once
REVERT_HOLD has gone by; in PRINT a change of domain keeps the servo's input, and BIAS moves by SLEW / 1,000 ns each
millisecond to exactly 0. -/
def Obligations.Servo : Prop :=
  ((∀ (s : State) (m : Master) (b : Bool) (w : Word), s.takes m (if b then Reg.TN_OFS_B else Reg.TN_OFS_A) →
    s.isSet Reg.TN_CFG F.TN_CFG_TSRC = false →
    let a := if b then Reg.TN_OFS_B else Reg.TN_OFS_A
    let v := cmdWord a w []
    let o : Int := toSigned 31 (F.TN_OFS_A_OFS.get v) * 125
    let q := decide (F.TN_OFS_A_QUAL.get v = 1)
    let t := ((s.wr a v).setDom b ((s.timeDom b).write o q s.now)).steer
    exec (.offsetWrite m b w) s = .next (s.wrote (if q = true ∧ t.tn.dom = b2n b then t.servo o else t) m)) ∧
  (∀ (s : State) (o : Int), s.mode = .print →
    let t := s.servo o
    t.tn.sec = s.tn.sec ∧ t.tn.ns = s.tn.ns ∧ t.tn.frac = s.tn.frac ∧ t.tn.xPrev = o - s.tn.bias) ∧
  (∀ (s : State) (o : Int), s.stepAllowed = false →
    let m : Int := s.maxPpb * 4096000
    (s.servo o).tn.integ ≤ m ∧ -m ≤ (s.servo o).tn.integ)) ∧
  ((∀ (s : State) (b : Bool), s.sys.inReset = false → (s.timeDom b).healthy = false ∨ s.healthOver b = false →
    exec (.domainHealthTimeout b) s = .next (s.after s)) ∧
  (∀ (s : State), s.sys.inReset = false → s.tn.dom = 0 → s.tn.domA.healthy = true → s.healthOver false = true →
    ∃ u : State, exec (.domainHealthTimeout false) s = .next (s.after u) ∧ u.tn.domA.healthy = false ∧
      (s.tn.domB.healthy = true → u.tn.dom = 1 ∧ u.isSet Reg.TN_STAT F.TN_STAT_SWITCH = true ∧
        (s.mode = .print → s.tn.domB.ofs - u.tn.bias = s.tn.xPrev)) ∧
      (s.tn.domB.healthy = false → u.tn.dom = 2 ∧ u.isSet Reg.TN_STAT F.TN_STAT_HOLDOVER = true ∧
        u.rd Reg.TN_ADDEND = s.rd Reg.TN_ADDEND)) ∧
  (∀ (s : State), s.sys.inReset = false → s.tn.dom = 1 → s.tn.domB.healthy = true → s.healthOver true = true →
    ∃ u : State, exec (.domainHealthTimeout true) s = .next (s.after u) ∧ u.tn.domB.healthy = false ∧
      u.tn.dom = if s.tn.domA.healthy then 0 else 2) ∧
  (∀ (s : State), s.sys.inReset = false → s.tn.dom ≠ 1 ∨ s.tn.domA.healthy = false ∨ s.revertOver = false →
    exec .domainRevert s = .next (s.after s)) ∧
  (∀ (s : State), s.sys.inReset = false → s.tn.dom = 1 → s.tn.domA.healthy = true → s.revertOver = true →
    ∃ u : State, exec .domainRevert s = .next (s.after u) ∧ u.tn.dom = 0 ∧
      (s.mode = .print → s.tn.domA.ofs - u.tn.bias = s.tn.xPrev)) ∧
  (∀ (s : State), s.sys.inReset = false →
    let d : Int := 16 * max 1 (min 10000 (s.fld Reg.TN_DOMAIN_CFG F.TN_DOMAIN_CFG_SLEW))
    ∃ u : State, exec .biasSlewStep s = .next (s.after u) ∧
      (s.tn.bias.natAbs ≤ d.natAbs → u.tn.bias = 0) ∧
      (d < s.tn.bias → u.tn.bias = s.tn.bias - d) ∧ (s.tn.bias < -d → u.tn.bias = s.tn.bias + d)))

/-- R353, R358: a frame with a bad FCS, of a length outside the limits, on a port not enabled or for another address changes
nothing; one whose SeqNr its source has already sent, at most 64 below the highest, is discarded and counted in DUP; any other
is placed in the receive ring without its trailer. R355, R357: with nothing to send a transmit command leaves the ports silent;
an AUD frame goes with a trailer to every port whose link is up, with the next SeqNr; a supervision frame goes out only with
LIFE_MS not 0; R372: loss of a link in use is flagged and raises ETH_LINK. -/
def Obligations.EthernetFrames : Prop :=
  ((∀ (s : State) (k : Fin 2) (fr : List Byte) (ok : Bool), s.sys.inReset = false → s.sys.hlrefOk = true →
    (ok = false ∨ fr.length < 60 ∨ 1524 < fr.length ∨ s.isSet (Reg.TN_Pk_CFG k.val) F.TN_Pk_CFG_EN = false ∨
      s.macAccepts (fr.take 6) = false) →
    exec (.ethFrameReceive k fr ok) s = .next (s.after s)) ∧
  (∀ (s : State) (k : Fin 2) (fr : List Byte), s.sys.inReset = false → s.sys.hlrefOk = true →
    60 ≤ fr.length → fr.length ≤ 1524 → s.isSet (Reg.TN_Pk_CFG k.val) F.TN_Pk_CFG_EN = true →
    s.macAccepts (fr.take 6) = true → slice fr 12 2 ≠ [0x88, 0x08] →
    let sup := fr.take 6 = [0x01, 0x15, 0x4E, 0, 0x01, 0]
    ∃ u : State, exec (.ethFrameReceive k fr true) s = .next (s.after u) ∧
      ((sup ∨ prpTrailer fr = none) → fr.length ≤ 1518 → u = s.rxPlace k.val false fr (s.ingress k.val)) ∧
      (∀ seq lan, ¬sup → prpTrailer fr = some (seq, lan) →
        (dupCheck s.tn.dup (beNat (slice fr 6 6)) seq s.now = none → u = s.bump (Reg.TN_Pk_PRP k.val) F.TN_Pk_PRP_DUP) ∧
        (∀ tab, dupCheck s.tn.dup (beNat (slice fr 6 6)) seq s.now = some tab → lan = 0xA + k.val →
          u = ({ s with tn := { s.tn with dup := tab } } : State).rxPlace k.val true (fr.take (fr.length - 6)) (s.ingress k.val)))) ∧
  (∀ (tab tab' : List DupEnt) (mac seq now : Nat), seq < 65536 →
    (∀ d ∈ tab, d.mac = mac → (seq + 65536 - d.high) % 65536 < 32768 ∨ 65472 ≤ (seq + 65536 - d.high) % 65536) →
    dupCheck tab mac seq now = some tab' → dupCheck tab' mac seq now = none) ∧
  (∀ (tab tab' : List DupEnt) (mac seq now : Nat), tab.length ≤ 128 → (∀ d ∈ tab, d.last ≤ now) →
    dupCheck tab mac seq now = some tab' → tab'.length ≤ 128) ∧
  (∀ (s : State) (i : Fin 128), s.sys.inReset = false → exec (.prpEntryExpire i) s =
    .next (s.after (if (s.tn.dup[i.val]?).any fun d => decide (s.now - d.last < 400000000) then s
      else { s with tn := { s.tn with dup := s.tn.dup.eraseIdx i.val } })))) ∧
  ((∀ (s : State), s.sys.inReset = false → s.sys.hlrefOk = true → s.tn.txRun = false → s.tn.audq = [] →
    exec .ethFrameTransmit s = .next (s.after s)) ∧
  (∀ (s : State) (fr : List Byte) (rest : List (List Byte)), s.sys.inReset = false → s.sys.hlrefOk = true → s.tn.txRun = false →
    s.tn.audq = fr :: rest → ∃ u : State, exec .ethFrameTransmit s = .next (s.after u) ∧ u.tn.audq = rest ∧
      u.tn.prpSeq = (s.tn.prpSeq + 1) % 65536 ∧
      u.tn.sent = ([0, 1].filter s.ethUp).map fun k => (k, prpFrame s.tn.prpSeq k fr)) ∧
  (∀ s : State, s.sys.inReset = false →
    ∃ u : State, exec .prpSupervisionTimer s = .next (s.after u) ∧
      (s.fld Reg.TN_PRP_CFG F.TN_PRP_CFG_LIFE_MS = 0 → u = s) ∧
      (s.fld Reg.TN_PRP_CFG F.TN_PRP_CFG_LIFE_MS ≠ 0 → u.tn.prpSeq = (s.tn.prpSeq + 1) % 65536 ∧
        u.tn.sent.map (·.1) = [0, 1].filter s.ethUp ∧
        ∀ x ∈ u.tn.sent, x.2.take 6 = [0x01, 0x15, 0x4E, 0, 0x01, 0] ∧ slice x.2 6 6 = s.mac)) ∧
  (∀ (fr : List Byte) (seq k : Nat), k < 2 → seq < 65536 → fr.length ≤ 1518 →
    prpTrailer (prpFrame seq k fr) = some (seq, 0xA + k) ∧ (prpFrame seq k fr).take fr.length = fr) ∧
  (∀ (s : State) (k : Fin 2), s.sys.inReset = false → s.sys.hlrefOk = true →
    ∃ u : State, exec (.ethLinkChange k false) s = .next (s.after u) ∧
      u.isSet (Reg.TN_Pk_STAT k.val) F.TN_Pk_STAT_LINK = false ∧
      (s.isSet (Reg.TN_Pk_STAT k.val) F.TN_Pk_STAT_LINK = true →
        u.isSet (Reg.TN_Pk_STAT k.val) F.TN_Pk_STAT_LINK_LOST = true ∧ u.isSet Reg.TN_STAT F.TN_STAT_ETH_LINK = true)) ∧
  (∀ (s : State) (k : Fin 2), s.sys.inReset = false → s.sys.hlrefOk = true →
    exec (.ethLinkChange k true) s = .next (s.after ((s.setFld (Reg.TN_Pk_STAT k.val) F.TN_Pk_STAT_LINK 1).setFld
      (Reg.TN_Pk_STAT k.val) F.TN_Pk_STAT_AN_DONE (s.fld (Reg.TN_Pk_CFG k.val) F.TN_Pk_CFG_AN_EN)))))

/-! ## Audit and security -/

/-- R390, R391, R394: what the key commands answer and hold. GEN_DEV fills DEVICE SIGN once; GEN_EPH draws a new pair under the
next EPH_ID and needs DEVICE SIGN; a pair unused for 60 s is erased; UNWRAP drops the pair whatever comes of it and fills a
slot only with a blob that opens under it; SET_PUB needs the key in slot 3 and AU_PUB_CTR once slot 3 is filled. -/
def Obligations.KeyCommands : Prop :=
  (∀ (s : State) (m : Master) (w : Word), s.takes m Reg.AU_KEY_CMD →
    let k := F.AU_KEY_CMD_SLOT.get (cmdWord Reg.AU_KEY_CMD w [(F.AU_KEY_CMD_OP, 1)])
    ∃ u : State, exec (.genDev m w) s = .next (s.wrote u m) ∧
      (k ≠ 2 → u = s.keyEnd 2) ∧ (k = 2 → (s.slot 2).isSome = true → u = s.keyEnd 4) ∧
      (k = 2 → s.slot 2 = none → s.au.zgen < 64 → ∃ v, u.slot 2 = some v ∧ v.length = 48 ∧
        u.fld Reg.AU_KEY_STAT F.AU_KEY_STAT_ERR = 0 ∧ ∀ j, j ≠ 2 → u.slot j = s.slot j)) ∧
  (∀ (s : State) (m : Master) (w : Word), s.takes m Reg.AU_KEY_CMD →
    F.AU_KEY_CMD_SLOT.get (cmdWord Reg.AU_KEY_CMD w [(F.AU_KEY_CMD_OP, 2)]) < 8 →
    ∃ u : State, exec (.genEph m w) s = .next (s.wrote u m) ∧ u.au.slots = s.au.slots ∧
      (s.slot 2 = none → u = s.keyEnd 2) ∧
      ((s.slot 2).isSome = true → u.au.ephId = (s.au.ephId + 1) % 2 ^ 32 ∧
        ∃ v, u.au.eph = some (v, u.au.ephId, s.now) ∧ v.length = 48)) ∧
  (∀ (s : State) (m : Master) (w : Word), s.takes m Reg.AU_KEY_CMD →
    let k := F.AU_KEY_CMD_SLOT.get (cmdWord Reg.AU_KEY_CMD w [(F.AU_KEY_CMD_OP, 3)])
    let r := s.readAs 6 s.keyArg 72
    ∃ u : State, exec (.unwrap m w) s = .next (s.wrote u m) ∧
      (k ≠ 0 → k ≠ 1 → k ≠ 7 → u = s.keyEnd 2) ∧
      (k = 0 ∨ k = 1 ∨ k = 7 → s.slotWritable k = false → u = s.keyEnd 3) ∧
      (k = 0 ∨ k = 1 ∨ k = 7 → s.slotWritable k = true → s.au.zgen < 64 → u.au.eph = none ∧
        (s.unwrapKey k (r.1.getD []) = none → u.au.slots = s.au.slots ∧ u.fld Reg.AU_KEY_STAT F.AU_KEY_STAT_ERR = 5) ∧
        (∀ v, s.unwrapKey k (r.1.getD []) = some v → u.slot k = some v ∧ u.fld Reg.AU_KEY_STAT F.AU_KEY_STAT_ERR = 0))) ∧
  (∀ (s : State) (m : Master) (w : Word), s.takes m Reg.AU_KEY_CMD →
    F.AU_KEY_CMD_SLOT.get (cmdWord Reg.AU_KEY_CMD w [(F.AU_KEY_CMD_OP, 4)]) < 8 →
    let b := ((s.readAs 6 s.keyArg 208).1).getD []
    let k := leAt b 4 1
    let form := leAt b 0 4 = 0x4B50594A ∧ leAt b 5 3 = 0 ∧ 3 ≤ k ∧ k ≤ 6
    let signed := match s.slot 3 with
      | none => k = 3
      | some pub => leAt b 8 8 = s.au.pubCtr ∧ P384.verify pub (sha384 (slice b 0 112)) (slice b 112 96) = true
    ∃ u : State, exec (.setPub m w) s = .next (s.wrote u m) ∧
      (form ∧ signed → u.slot k = some (slice b 0x10 96) ∧ u.au.pubCtr = s.au.pubCtr + 1 ∧
        ∀ j, j ≠ k → u.slot j = s.slot j) ∧
      (¬(form ∧ signed) → u.au.slots = s.au.slots ∧ u.au.pubCtr = s.au.pubCtr)) ∧
  (∀ (s : State) (m : Master) (w : Word), s.takes m Reg.AU_KEY_CMD →
    F.AU_KEY_CMD_SLOT.get (cmdWord Reg.AU_KEY_CMD w [(F.AU_KEY_CMD_OP, 5)]) < 8 →
    ∃ u : State, exec (.exportPub m w) s = .next (s.wrote u m) ∧
      (s.slot 2 = none → u = s.keyEnd 2) ∧
      (∀ priv, s.slot 2 = some priv →
        u = (s.keyOut (leBytes 4 0x5044594A ++ leBytes 4 0 ++ chipIdBytes ++ P384.publicKey priv)).keyEnd 0)) ∧
  (∀ (s : State) (priv : List Byte) (id t : Nat), s.sys.inReset = false → s.au.eph = some (priv, id, t) →
    (t + 60000000000 ≤ s.now → exec .ephKeyExpire s = .next (s.after { s with au := { s.au with eph := none } })) ∧
    (s.now < t + 60000000000 → exec .ephKeyExpire s = .next (s.after s))) ∧
  (∀ s : State, s.sys.inReset = false → s.au.eph = none → exec .ephKeyExpire s = .next (s.after s))

/-- R394, R395: a zeroize by command or by an enabled tamper input empties the PLAY, AUDIT, DEVICE SIGN and LINK slots, the
ephemeral pair, the sealed data and the tile keys, keeps the IMAGE VERIFY keys and blows one generation; an open ticket keeps a
TAG only if it was computed by then; a tamper input acts while reset is held too. R396: ATTEST is refused while DEVICE SIGN is
empty; otherwise the record of 0xC0 bytes, with the nonce it read, is written over the nonce with its signature. -/
def Obligations.ZeroizeAndAttest : Prop :=
  (let clean (s u : State) : Prop :=
    (∀ k, k = 0 ∨ k = 1 ∨ k = 2 ∨ k = 7 → u.slot k = none) ∧ (∀ k, 3 ≤ k → k ≤ 6 → u.slot k = s.slot k) ∧
    u.au.eph = none ∧ u.au.sealed = [] ∧ u.js.job0.tileKey = none ∧ u.js.job1.tileKey = none ∧ u.inn.key = none ∧
    u.au.zgen = min 64 (s.au.zgen + 1) ∧ u.au.chain = s.au.chain ∧ u.au.seq = s.au.seq ∧
    u.au.tickets.length = s.au.tickets.length ∧
    (∀ t ∈ u.au.tickets, (u.tagOf t = none ∧ t.flags.testBit 18 = true) ∨
      ∃ t0 ∈ s.au.tickets, s.digestReady t0 = true ∧ t.tag = s.tagOf t0 ∧ u.tagOf t = s.tagOf t0)
  (∀ (s : State) (m : Master) (w : Word), s.takes m Reg.AU_CTRL →
    ∃ u : State, exec (.zeroize m w) s = .next (s.wrote u m) ∧ clean s u) ∧
  (∀ (s : State) (i : Fin 4), s.sys.inReset = false →
    ∃ u : State, exec (.tamper i) s = .next (s.after u) ∧ u.tampNow = s.tampNow ||| 2 ^ i.val ∧
      ((s.fld Reg.AU_TAMPER_CFG F.AU_TAMPER_CFG_EN).testBit i.val = true → clean s u ∧
        u.isSet Reg.AU_STAT F.AU_STAT_TAMPER = true) ∧
      ((s.fld Reg.AU_TAMPER_CFG F.AU_TAMPER_CFG_EN).testBit i.val = false → u.au.slots = s.au.slots)) ∧
  (∀ (s : State) (i : Fin 4), s.sys.inReset = true → (s.fld Reg.AU_TAMPER_CFG F.AU_TAMPER_CFG_EN).testBit i.val = true →
    ∃ u : State, exec (.tamper i) s = .next { u.serveAll with
      pending := s.pending, sys := { u.serveAll.sys with holdDue := false, zeroDue := false, safeDue := false, pendingReset := none } } ∧ clean s u)) ∧
  (∀ (s : State) (m : Master) (w : Word), s.takes m Reg.AU_CTRL →
    let a := s.rdN Reg.AU_ATT_ADDR * 64
    ∃ u : State, exec (.attest m w) s = .next (s.wrote u m) ∧ (s.slot 2 = none → u = s) ∧
      (∀ priv nonce s1, s.slot 2 = some priv → s.readAs 6 a 32 = (some nonce, s1) → s.bu.fwMeas.length = 48 → s.bu.m.length = 48 →
        ∃ b, u = (s1.lastSeq.2.writeAs 6 a (b ++ P384.sign priv (sha384 b))).2 ∧ b.length = 0xC0 ∧ leAt b 0 4 = 0x5441594A ∧
          leAt b 6 1 = s1.mode.code ∧ slice b 0x10 32 = nonce ∧ slice b 0x30 48 = s1.bu.fwMeas ∧ slice b 0x60 48 = s1.bu.m ∧
          (s1.au.seq ≠ 0 → s1.au.seq ≤ 2 ^ 64 → s1.lastSeq = (s1.au.seq - 1, s1) ∧ leAt b 0x90 8 = s1.au.seq - 1)))

/-- R379, R380: the first open ticket alone is issued, and only with its verdict and a complete digest: SEQ advances by one,
CHAIN becomes the first 16 bytes of SHA-256 over the cairn with TS 0, and the cairn waits for flash behind the earlier records;
a witness issues none. R383 to R385: a batch closes by time with up to 64 of its cairns, outside BOOT and TEST and with DEVICE
SIGN filled; the summit is issued once no witness is awaited, with the next SUMMIT_SEQ, and PREV of the one after it is its
hash. -/
def Obligations.RecordsChain : Prop :=
  ((∀ (s : State) (t : Ticket) (rest : List Ticket), s.sys.inReset = false → s.au.tickets = t :: rest → t.verdict.isSome = true →
    s.digestReady t = true → s.isWitness = false →
    ∃ u : State, exec .cairnIssue s = .next (s.after u) ∧ u.au.tickets = rest ∧ u.au.seq = s.au.seq + 1 ∧
      u.au.chain = (sha256 (s.cairn t (List.replicate 12 0))).take 16 ∧
      u.au.ringq = s.au.ringq ++ [(s.au.seq, s.cairn t (t.ts.getD (List.replicate 12 0)))]) ∧
  (∀ (s : State) (t : Ticket) (rest : List Ticket), s.sys.inReset = false → s.au.tickets = t :: rest → t.verdict.isSome = true →
    s.digestReady t = true → s.isWitness = true →
    exec .cairnIssue s = .next (s.after { s with au := { s.au with tickets := rest } })) ∧
  (∀ (s : State), s.sys.inReset = false → (∀ t ∈ s.au.tickets.head?, t.verdict = none ∨ s.digestReady t = false) →
    exec .cairnIssue s = .next (s.after s)) ∧
  (∀ (s : State) (t : Ticket) (ts : List Byte), s.au.seq < 2 ^ 64 → leAt (s.cairn t ts) 0 4 = 0x4E43594A ∧
    leAt (s.cairn t ts) 8 8 = s.au.seq)) ∧
  ((∀ (s : State), s.sys.inReset = false →
    ∃ u : State, exec .summitTimer s = .next (s.after u) ∧
      (s.slot 2 = none ∨ s.mode = .boot ∨ s.mode = .test ∨ s.summitDue = false → u = s) ∧
      ((s.slot 2).isSome = true → s.summitDue = true → s.au.closing = none → s.mode ≠ .boot → s.mode ≠ .test →
        u.au.batch = s.au.batch.drop 64 ∧ ∃ c, u.au.closing = some c ∧ c.cairns = s.au.batch.take 64 ∧ c.answer = none ∧
          c.waiting = decide (s.witRole = 1) ∧ c.seqEnd = s.au.batchFirst + c.cairns.length ∧ bit (leAt c.bytes 6 2) 2 = true)) ∧
  (∀ (s : State) (c : Summit) (priv : List Byte), s.sys.inReset = false → s.au.closing = some c → s.slot 2 = some priv →
    ∃ u : State, exec .summitIssue s = .next (s.after u) ∧ (c.waiting = true → u = s) ∧
      (c.waiting = false → u.au.sumSeq = s.au.sumSeq + 1 ∧ u.au.sumPrev = sha384 (c.record priv) ∧
        u.au.ringq = s.au.ringq ++ [(c.seqEnd - 1, c.record priv)])))

/-- R386 to R388: a record is programmed into the units that follow, in order, only into sectors whose records are all
acknowledged; with none it is held and AUDIT_RING_FULL raised; a device that fails keeps it. The acknowledged SEQ never falls;
the audit frame timer sends what waits. -/
def Obligations.AuditRing : Prop :=
  (∀ (s : State) (ok : Bool) (seq : Nat) (rec : List Byte) (rest : List (Nat × List Byte)), s.sys.inReset = false →
    s.au.ringq = (seq, rec) :: rest → s.ringRegion.2 ≠ 0 →
    let n := if rec.length = 128 then 1 else 4
    let us := (List.range n).map fun i => (s.au.ringPos + i) % s.ringRegion.2
    let free := ∀ u ∈ us, u % 32 = 0 → ∀ i < 32, s.unitAcked (u + i) = true
    ∃ u : State, exec (.auditRingWrite ok) s = .next (s.after u) ∧
      (free → ok = true → u.au.ringq = rest ∧ u.au.ringPos = (s.au.ringPos + n) % s.ringRegion.2 ∧ u.au.ringHeld = false) ∧
      (free → ok = false → u.au = s.au ∧ u.flash = s.flash ∧ u.isSet Reg.AU_STAT F.AU_STAT_FLASH_ERR = true) ∧
      (¬free → u.au.ringq = s.au.ringq ∧ u.flash = s.flash ∧ u.au.ringHeld = true)) ∧
  (∀ (s : State) (m : Master) (w : Word), s.takes m Reg.AU_RING_ACK_LO →
    ∃ u : State, exec (.auditRingAckWrite m false w) s = .next (s.wrote u m) ∧ s.au.ack ≤ u.au.ack ∧
      u = { s with au := { s.au with ack := max s.au.ack (s.au.ackHi * 2 ^ 32 + (cmdWord Reg.AU_RING_ACK_LO w []).toNat) } }) ∧
  (∀ (s : State) (m : Master) (w : Word), s.takes m Reg.AU_RING_ACK_HI →
    exec (.auditRingAckWrite m true w) s =
      .next (s.wrote { s with au := { s.au with ackHi := (cmdWord Reg.AU_RING_ACK_HI w []).toNat } } m)) ∧
  (∀ (s : State), s.sys.inReset = false → ∃ u : State, exec .auditFrameTimer s = .next (s.after u) ∧
    u.au.netq = s.au.netq.drop 8 ∧ u.tn.audq.length = s.tn.audq.length + (if s.au.netq.isEmpty then 0 else 1)) ∧
  (∀ (s : State) (m : Master) (w : Word), s.takes m Reg.AU_CTRL →
    exec (.replay m w) s = .next (s.wrote s.replayRing m))

/-- R397, R398: what a witness does with the records it receives: it compares a LINE with its own tag and reports a difference
as a mismatch, marks a BLANK, queues the entries of a COMMIT at their position, and answers a co-sign request only for lines
compared without mismatch (or marked BLANK, log entry 66) under its own structure; a LINE record not answered within WIT_TMO is
a mismatch. A controller of another role discards them. R397, R398: what a primary does: a STATUS raises the highest line
compared and brings a new mismatch; an answer counts only with a valid signature of the witness; without one after its time the
summit goes on alone, and a silent witness is WITNESS_LOST. -/
def Obligations.WitnessMode : Prop :=
  ((∀ (s : State) (bs : List Byte) (c : Instr), s.sys.inReset = false → s.witRole ≠ 2 →
    c ∈ [Instr.lineRecord bs, .blankRecord bs, .commitRecord bs, .cosignReq bs] → exec c s = .next (s.after s)) ∧
  (∀ (s : State) (bs : List Byte) (ct : Nat), s.sys.inReset = false → s.witRole = 2 →
    let l := leAt bs 4 4
    (s.bar l).ct = some ct → s.au.wit.blanks.contains l = false → (∀ r ∈ s.au.wit.recv, r.line ≠ l) →
    ∃ u : State, exec (.lineRecord bs) s = .next (s.after u) ∧ u.au.wit.compared = max s.au.wit.compared l ∧
      u.au.wit.recv = s.au.wit.recv ∧ u.au.wit.done = s.au.wit.done ++ [(l, decide (beNat (slice bs 8 16) = ct))] ∧
      (beNat (slice bs 8 16) = ct → u.au.wit.mismatch = s.au.wit.mismatch ∧ u.au.tickets = s.au.tickets) ∧
      (beNat (slice bs 8 16) ≠ ct → u.au.wit.mismatch = some l ∧ u.isSet Reg.AU_STAT F.AU_STAT_WIT_MISMATCH = true)) ∧
  (∀ (s : State) (bs : List Byte), s.sys.inReset = false → s.witRole = 2 → exec (.blankRecord bs) s =
    .next (s.after { s with au := { s.au with wit := { s.au.wit with blanks := s.au.wit.blanks ++ [leAt bs 4 4] } } })) ∧
  (∀ (s : State) (bs : List Byte), s.sys.inReset = false → s.witRole = 2 → exec (.commitRecord bs) s =
    .next (s.after { s with nh := { s.nh with queue := s.nh.queue ++
      ((List.range (leAt bs 8 2)).filterMap fun i => commitReq (leAt bs (12 + 4 * i) 4)).map fun r => ⟨leAt bs 4 4, r⟩ } })) ∧
  (∀ (s : State) (bs : List Byte) (priv : List Byte), s.sys.inReset = false → s.witRole = 2 → s.slot 2 = some priv →
    let r := slice bs 4 0x110
    let lo := leAt r 0x34 4
    let hi := leAt r 0x38 4
    let good := (hi ≠ 0 → ∀ l, lo ≤ l → l ≤ hi →
      ((l, true) ∈ s.au.wit.done ∧ (l, false) ∉ s.au.wit.done) ∨ l ∈ s.au.wit.blanks) ∧ slice r 0xD0 48 = s.bu.m
    (good → exec (.cosignReq bs) s = .next (s.after
      (s.sendWit (witKind 5 ++ chipIdBytes ++ P384.sign priv (sha384 (putBytes r 0x100 chipIdBytes)))))) ∧
    (¬good → exec (.cosignReq bs) s = .next (s.after s))) ∧
  (∀ (s : State), s.sys.inReset = false → s.witRole = 2 → exec .witnessStatusSend s = .next (s.after s.sendStatus)) ∧
  (∀ (s : State) (r : WitLine), s.sys.inReset = false → s.witRole = 2 → s.au.wit.recv.find? s.witOverdue = some r →
    ∃ u : State, exec .witnessLate s = .next (s.after u) ∧ u.au.wit.mismatch = some r.line ∧
      u.au.wit.recv = s.au.wit.recv.erase r) ∧
  (∀ (s : State), s.sys.inReset = false → (∀ r ∈ s.au.wit.recv, s.witOverdue r = false) →
    exec .witnessLate s = .next (s.after s)) ∧
  (∀ (s : State) (r : WitLine), s.witOverdue r = true ↔ (s.bar r.line).ct = none ∧ r.line ∉ s.au.wit.blanks ∧
    r.time + max 1 (s.fld Reg.AU_WIT_CFG F.AU_WIT_CFG_WIT_TMO) * 1000 ≤ s.now)) ∧
  ((∀ (s : State) (bs : List Byte), s.sys.inReset = false → s.witRole = 1 →
    ∃ u : State, exec (.statusRecord bs) s = .next (s.after u) ∧ u.au.wit.compared = max s.au.wit.compared (leAt bs 4 4) ∧
      u.au.wit.statusAt = some s.now ∧
      (leAt bs 8 4 = 0xFFFFFFFF → u.au.wit.mismatch = s.au.wit.mismatch) ∧
      (leAt bs 8 4 ≠ 0xFFFFFFFF → u.au.wit.mismatch = some (leAt bs 8 4))) ∧
  (∀ (s : State) (bs : List Byte) (c : Summit), s.sys.inReset = false → s.au.closing = some c →
    let id := slice bs 4 8
    let sig := slice bs 12 96
    let good := c.waiting = true ∧ P384.verify (beBytes 96 (Config.witnessKey (BitVec.ofNat 64 (leNat id))).toNat)
      (sha384 (putBytes c.bytes 0x100 id)) sig = true
    (good → exec (.cosignRsp bs) s = .next (s.after { s with au := { s.au with
      closing := some { c with waiting := false, answer := some (id, sig) } } })) ∧
    (¬good → exec (.cosignRsp bs) s = .next (s.after s))) ∧
  (∀ (s : State) (c : Summit) (t : Nat), s.sys.inReset = false → s.au.closing = some c → s.au.closedAt = some t →
    (t + 10000000 ≤ s.now → exec .cosignTimeout s = .next (s.after { s with au := { s.au with closing := some { c with waiting := false } } })) ∧
    (s.now < t + 10000000 → exec .cosignTimeout s = .next (s.after s))) ∧
  (∀ (s : State) (t : Nat), s.sys.inReset = false → s.witRole = 1 → s.au.wit.statusAt = some t → t ≤ s.now →
    let loss := max 1 (s.fld Reg.AU_WIT_CFG F.AU_WIT_CFG_WIT_LOSS) * 1000000
    (t + loss < s.now → exec .witnessLost s = .next (s.after ((s.flag Reg.AU_STAT F.AU_STAT_WIT_LOST).raise Ev.WITNESS_LOST))) ∧
    (s.now ≤ t + loss → exec .witnessLost s = .next (s.after s))))

/-! ## Compression, update and settings -/

/-- R403, R404, R410: a decompressor job begins only on an idle engine outside BOOT and TEST with a good header for its blocks;
ABORT ends it with ERR 9; a block that fails ends it with its ERR and writes nothing, and one that decodes is written to DST +
b × BLOCK_OUT. R405, R410: nothing a decompressor reads changes DRAM, and a decoded block has the length and the CRC-32 its
block header names and is no longer than OUT_LIMIT. R406, R408, R410: the compressor takes a job only while idle and outside
BOOT and TEST; ABORT ends it with ERR 3; the end of a job sets DONE and lets an export that waits begin. R251: an export of
lines that the camera ring holds begins, ahead of or behind a compressor job; one out of the ring has ERR RANGE and one while
another runs ERR BUSY; none begins in BOOT or TEST (R410). -/
def Obligations.Compression : Prop :=
  ((∀ (s : State) (m : Master) (d : Fin 4) (w : Word), s.takes m (Reg.CZ_Dd_CTRL d.val) →
    let src := s.rdN (Reg.CZ_Dd_SRC d.val) * 64
    let first := s.fld (Reg.CZ_Dd_FIRST d.val) F.CZ_Dd_FIRST_VALUE
    let count := s.fld (Reg.CZ_Dd_COUNT d.val) F.CZ_Dd_COUNT_VALUE
    let t := (s.decErr d.val 0).wrN (Reg.CZ_Dd_BLOCK d.val) first
    ∃ u : State, exec (.dcmpStart m d w) s = .next (s.wrote u m) ∧
      ((s.dec d.val).isSome = true → u = s.decErr d.val 0xA) ∧
      (s.dec d.val = none → s.czMode = false → u = (s.decErr d.val 0xB).flag (Reg.CZ_Dd_STAT d.val) F.CZ_Dd_STAT_DONE) ∧
      (s.dec d.val = none → s.czMode = true → d.val < s.cz.dec.length → t.fabricCheck 0 3 src 32 false = none →
        let h := t.fabricCipher 3 src (t.dramRead src 32)
        (headerOk h first count = true → count ≠ 0 → ∃ j, u.dec d.val = some j ∧ j.src = src ∧ j.block = first ∧ j.left = count ∧
          j.dst = s.rdN (Reg.CZ_Dd_DST d.val) * 64 ∧ j.blockOut = leAt h 8 4) ∧
        (headerOk h first count = false → u.dec d.val = none ∧
          u.fld (Reg.CZ_Dd_STAT d.val) F.CZ_Dd_STAT_ERR = 1))) ∧
  (∀ (s : State) (m : Master) (d : Fin 4) (w : Word), s.takes m (Reg.CZ_Dd_CTRL d.val) →
    exec (.dcmpAbort m d w) s = .next (s.wrote (if (s.dec d.val).isSome then s.decEnd d.val 9 else s) m)) ∧
  (∀ (s : State) (d : Fin 4) (j : DecJob) (e : Nat) (t : State), s.sys.inReset = false → s.dec d.val = some j →
    s.decBlock j = (.error e, t) →
    exec (.dcmpBlockDone d) s = .next (s.after (t.decEnd d.val e)) ∧ (t.decEnd d.val e).dram = s.dram) ∧
  (∀ (s : State) (d : Fin 4) (j : DecJob) (bs : List Byte) (t v : State), s.sys.inReset = false → s.dec d.val = some j →
    s.decBlock j = (.ok bs, t) → t.decWrite (bs.length / 64 + 1) (j.dst + j.block * j.blockOut) bs = (true, v) →
    exec (.dcmpBlockDone d) s = .next (s.after (if j.left = 1 then v.decEnd d.val 0
      else (v.setDec d.val (some { j with block := j.block + 1, left := j.left - 1 })).wrN (Reg.CZ_Dd_BLOCK d.val) (j.block + 1))))) ∧
  (∀ (s t : State) (j : DecJob) (bs : List Byte), s.decBlock j = (.ok bs, t) →
    t.dram = s.dram ∧ bs.length ≤ j.blockOut ∧ 0 < bs.length ∧
      ∃ e h, leAt h 0 4 = j.block ∧ bs.length = leAt h 4 4 ∧ crc32 bs = leAt h 0x0C 4 ∧ 16 + leAt h 8 4 = leAt e 4 4) ∧
  ((∀ (s : State) (m : Master) (w : Word), s.takes m Reg.CZ_C_CTRL →
    ∃ u : State, exec (.czStart m w) s = .next (s.wrote u m) ∧
      (s.cz.comp.isSome = true → u = s.compErr 4) ∧
      (s.cz.comp = none → s.czMode = false → u = (s.compErr 6).flag Reg.CZ_C_STAT F.CZ_C_STAT_DONE) ∧
      (s.cz.comp = none → s.czMode = true →
        u.cz.comp = some ⟨false, s.rdN Reg.CZ_C_SRC * 64, s.rdN Reg.CZ_C_LEN, s.rdN Reg.CZ_C_DESC * 64⟩)) ∧
  (∀ (s : State) (m : Master) (w : Word), s.takes m Reg.CZ_C_CTRL →
    ∃ u : State, exec (.czAbort m w) s = .next (s.wrote u m) ∧ (s.cz.comp = none → u = s) ∧
      (s.cz.comp.isSome = true → u = s.compEnd 3 ∧ u.cz.comp = s.cz.waitExport ∧ u.dram = s.dram)) ∧
  (∀ (s : State) (j : CompJob), s.sys.inReset = false → s.cz.comp = some j →
    ∃ u : State, exec .czJobDone s = .next (s.after u) ∧ u.cz.comp = s.cz.waitExport ∧ u.cz.waitExport = none ∧
      u.isSet Reg.CZ_C_STAT F.CZ_C_STAT_DONE = true ∧
      (j.isExport = false → s.fabricCheck 0 9 j.src j.len false ≠ none → s.cz.waitExport = none →
        u.fld Reg.CZ_C_STAT F.CZ_C_STAT_ERR = 5 ∧ u.dram = s.dram))) ∧
  (∀ (s : State) (m : Master) (w : Word), s.takes m Reg.IN_XP_CTRL →
    let first := s.rdN Reg.IN_XP_FIRST
    let n := s.rdN Reg.IN_XP_COUNT
    (s.inn.exporting.isSome = true →
      exec (.inExportStart m w) s = .next (s.wrote (s.setFld Reg.IN_XP_STAT F.IN_XP_STAT_ERR 3) m)) ∧
    (s.inn.exporting = none → n ≤ s.rdN Reg.IN_IMG_LINES → (∀ i < n, s.inRing (first + i) = true) → s.cz.comp = none →
      s.mode ≠ .boot → s.mode ≠ .test →
      exec (.inExportStart m w) s = .next (s.wrote
        (({ s with inn := { s.inn with exporting := some (first, first + n) } }.setFld Reg.IN_XP_STAT F.IN_XP_STAT_ERR 0).compBegin
          ⟨true, first, n, s.rdN Reg.IN_XP_DESC * 64⟩) m)) ∧
    (s.inn.exporting = none → s.mode ≠ .boot → s.mode ≠ .test → (∃ i < n, i ≤ s.rdN Reg.IN_IMG_LINES ∧ s.inRing (first + i) = false) →
      exec (.inExportStart m w) s = .next (s.wrote (s.setFld Reg.IN_XP_STAT F.IN_XP_STAT_ERR 1) m)) ∧
    (s.inn.exporting = none → s.mode = .boot ∨ s.mode = .test →
      exec (.inExportStart m w) s = .next (s.wrote ((s.compErr 6).flag Reg.CZ_C_STAT F.CZ_C_STAT_DONE) m)))

/-- R406: a block the compressor writes decodes to its input on the controller's own decompressors and is at most 5 bytes
longer, and the header of its container passes their check for every block. -/
def Obligations.ContainersDecode : Prop :=
  (∀ (level : Nat) (bs : List Byte), bs.length ≤ blockIn →
    inflate bs.length (deflateBlock level bs) = .ok bs ∧ (deflateBlock level bs).length ≤ bs.length + 5) ∧
  (∀ (level : Nat) (bs : List Byte), bs.length < 2 ^ 32 →
    headerOk (container level bs).1 0 ((bs.length + blockIn - 1) / blockIn) = true ∧ (container level bs).1.length = 32 ∧
    (container level bs).2.length ≤ bs.length + 29 * ((bs.length + blockIn - 1) / blockIn))

/-- R428: CONFIRM in FIRST_START ends it and raises SVN_FLOOR to the SVN of ACTIVE, and has no effect otherwise; without it in
time the controller takes a cold reset, in PRINT once PRINT is left. R424, R426: a piece that fails a check ends with its ERR
and changes no flash, one already present is counted; a good one is programmed, read back and marked. ARM needs READY, DISARM
ARMED, and DISCARD any state but ARMED; otherwise they end with ERR 9. -/
def Obligations.FieldUpdate : Prop :=
  ((∀ (s : State) (m : Master) (w : Word), s.takes m Reg.BU_CTRL →
    ∃ u : State, exec (.confirm m w) s = .next (s.wrote u m) ∧ (s.bu.log.phase ≠ 3 → u = s) ∧
      (s.bu.log.phase = 3 → u.bu.log.phase = 0 ∧ u.bu.log.tries = 0 ∧ u.bu.log.floor = s.rdN Reg.BU_SVN)) ∧
  (∀ (s : State), s.sys.inReset = false →
    ∃ u : State, exec .confirmTimeout s = .next (s.after u) ∧ (s.confirmDue = false → u = s) ∧
      (s.confirmDue = true → s.sys.refOk = true → s.mode = .print → u = { s with sys := { s.sys with pendingReset := some 4 } }) ∧
      (s.confirmDue = true → s.sys.refOk = true → s.mode ≠ .print → u = s.afterReset .cold 4))) ∧
  ((∀ (s : State) (m : Master) (w : Word), s.takes m Reg.BU_UP_CTRL →
    let p := s.piece
    let kind := leAt p 6 1
    let index := leAt p 0x10 4
    let num := if kind = 1 then 64 + index else index
    let a := if kind = 1 then s.campBundle + 4096 * index else s.campBase + 0x3000 + 4096 * index
    ∃ u : State, exec (.submit m w) s = .next (s.wrote u m) ∧
      (∀ e, s.pieceCheck p = some e → u.flash = s.flash ∧ u.bu.camp = s.bu.camp ∧ (e ≠ 0 → u = s.upEnd e) ∧
        (e = 0 → u = (s.bump Reg.BU_UP_PROG F.BU_UP_PROG_DUP).upEnd 0)) ∧
      (s.pieceCheck p = none → (s.region 2).2 ≠ 0 → (s.flashProgram a (slice p 64 4096)).flashRead a 4096 = slice p 64 4096 →
        let t := (s.flashProgram a (slice p 64 4096)).flashProgram (s.campBase + 0x2000 + num / 8) (leBytes 1 (255 - 2 ^ (num % 8)))
        u = ({ t with bu := { t.bu with campId := leAt p 8 8 } } : State).pieceLast kind)) ∧
  (∀ (s : State) (m : Master) (w : Word), s.takes m Reg.BU_UP_CTRL →
    (∃ u : State, exec (.buArm m w) s = .next (s.wrote u m) ∧ (s.bu.camp ≠ .ready → u = s.upEnd 9) ∧
      (s.bu.camp = .ready → u.bu.camp = .armed ∧ u.bu.log.armed = true ∧ u.bu.log.id = s.bu.campId)) ∧
    (∃ u : State, exec (.disarm m w) s = .next (s.wrote u m) ∧ (s.bu.camp ≠ .armed → u = s.upEnd 9) ∧
      (s.bu.camp = .armed → u.bu.camp = .ready ∧ u.bu.log.armed = false)) ∧
    (∃ u : State, exec (.discard m w) s = .next (s.wrote u m) ∧ (s.bu.camp = .armed → u = s.upEnd 9) ∧
      (s.bu.camp ≠ .armed → u.bu.camp = .empty ∧ u.bu.log.rejected = false ∧
        ((∀ o ∈ s.bu.logAt, o < 0x2000) → ∀ k < 4160, u.pieceIn k = false)))))

/-- R431, R432: READ gives the firmware records of the set selected at BOOT and their length; COMMIT refuses bytes that are no
firmware records and otherwise writes the copy that rule R432 names, the other copy untouched. -/
def Obligations.SettingsSets : Prop :=
  (∀ (s : State) (m : Master) (w : Word), s.takes m Reg.BU_SET_CTRL →
    ∃ u : State, exec (.settingsRead m w) s = .next (s.wrote u m) ∧ u.flash = s.flash ∧
      u.fld Reg.BU_SET_STAT F.BU_SET_STAT_ERR = 0 ∧
      (s.bu.setCopy = none → u.rdN Reg.BU_SET_LEN = 0 ∧ u.dram = s.dram) ∧
      (∀ c x, s.bu.setCopy = some c → s.setIn c = some x → (x.firmware.flatMap (·.2)).length < 2 ^ 32 →
        u.rdN Reg.BU_SET_LEN = (x.firmware.flatMap (·.2)).length)) ∧
  (∀ (s : State) (m : Master) (w : Word), s.takes m Reg.BU_SET_CTRL →
    let n := s.rdN Reg.BU_SET_LEN
    let a := s.rdN Reg.BU_SET_ADDR * 64
    s.fabricCheck 0 8 a n false = none →
    let b := s.fabricCipher 8 a (s.dramRead a n)
    let c := match s.bu.log.phase, s.bu.setCopy with
      | 3, some c => 1 - c
      | _, _ => s.lowCopy
    ∃ u : State, exec (.settingsCommit m w) s = .next (s.wrote u m) ∧
      (setRecords (n + 1) b = none → u = s.setEnd 4) ∧
      (∀ rs, setRecords (n + 1) b = some rs → (∃ r ∈ rs, r.1 < 0x100 ∨ 0xFFFE < r.1) → u = s.setEnd 4) ∧
      (∀ rs, setRecords (n + 1) b = some rs → (∀ r ∈ rs, 0x100 ≤ r.1 ∧ r.1 ≤ 0xFFFE) →
        let x := s.writeSet c (s.rdN Reg.BU_SET_VER) rs
        u = x.2.setEnd (if x.1 then 0 else 1)))

/-! ## Faults, clocks, sense and test -/

/-- R443, R444, R445: the collector takes the oldest occurrence of the lowest EVENT_ID; one of class WARN or above whose event
and unit stand in the queue adds to REPEAT there, and another becomes an entry with the next SEQ behind those of its class. -/
def Obligations.EventsCollected : Prop :=
  (∀ s : State, s.sys.inReset = false → s.fl.bufs = [] → exec .eventCollect s = .next (s.after s)) ∧
  (∀ (s : State) (o : Occ), s.sys.inReset = false → nextOcc s.fl.bufs = some o → 1 ≤ o.cls → o.id ≠ Ev.ERRQ_OVERFLOW →
    let h := s.cascade o.unit
    ∃ u : State, exec .eventCollect s = .next (s.after u) ∧
      ((∃ e ∈ s.fl.queue, e.id = o.id ∧ e.unit = h) → u.fl.bufs = s.fl.bufs.erase o ∧ u.fl.queue = s.fl.queue.map fun e =>
        if e.id = o.id ∧ e.unit = h then { e with rep := min 255 (e.rep + 1) } else e) ∧
      ((∀ e ∈ s.fl.queue, ¬(e.id = o.id ∧ e.unit = h)) → s.fl.queue.length < 32 →
        u.fl.bufs = s.fl.bufs.erase o ∧ u.fl.queue = queueInsert ⟨s.fl.nextSeq, o.id, o.cls, o.irq, h, false, o.detail, o.ts, 0⟩ s.fl.queue ∧
        u.fl.nextSeq = nextSeqOf s.fl.nextSeq)) ∧
  (∀ (l : List Occ) (o : Occ), nextOcc l = some o → o ∈ l ∧ ∀ x ∈ l, o.id ≤ x.id) ∧
  (∀ n : Nat, nextSeqOf n ≠ 0 ∧ (n ≤ 0xFFFF → nextSeqOf n ≤ 0xFFFF))

/-- R444, R447: entering an occurrence keeps the queue in descending class and within 32 entries, and a full queue loses its
newest entry of the lowest class to a higher one, or the newcomer, with OVERFLOW set. -/
def Obligations.QueueKeepsOrder : Prop :=
  ∀ (s : State) (id cls unit detail : Nat) (chip : Bool) (irq : Option Nat) (ts : Stamp),
    s.fl.queue.Pairwise (fun a b => b.cls ≤ a.cls) → s.fl.queue.length ≤ 32 →
    let t := s.enqueue id cls unit detail chip irq ts
    t.fl.queue.Pairwise (fun a b => b.cls ≤ a.cls) ∧ t.fl.queue.length ≤ 32 ∧
    (s.fl.queue.length = 32 → (∀ e ∈ s.fl.queue, ¬(e.id = id ∧ e.unit = unit)) → t.fl.overflow = true ∧
      ((∀ e ∈ s.fl.queue, cls ≤ e.cls) → t.fl.queue = s.fl.queue) ∧
      (∀ e q, s.fl.queue = q ++ [e] → e.cls < cls →
        t.fl.queue = queueInsert ⟨s.fl.nextSeq, id, cls, irq, unit, chip, detail, ts, 0⟩ q))

/-- R446: a write of FL_EQ_ACK removes the entry with that SEQ wherever it stands; one that names no entry is ignored and sets
ACK_STALE. A change of head by removal leaves PREEMPT. -/
def Obligations.QueueAcknowledged : Prop :=
  ∀ (s : State) (m : Master) (w : Word), s.takes m Reg.FL_EQ_ACK →
    let q := F.FL_EQ_ACK_SEQ.get (cmdWord Reg.FL_EQ_ACK w [])
    ∃ u : State, exec (.flEqAck m w) s = .next (s.wrote u m) ∧
      ((∃ e ∈ s.fl.queue, e.seq = q) → u = { s with fl := { s.fl with queue := s.fl.queue.filter fun e => e.seq ≠ q } }) ∧
      ((∀ e ∈ s.fl.queue, e.seq ≠ q) → u = s.flag Reg.FL_EQ_STAT F.FL_EQ_STAT_ACK_STALE ∧ u.fl = s.fl) ∧
      u.fld Reg.FL_EQ_STAT F.FL_EQ_STAT_PREEMPT = s.fld Reg.FL_EQ_STAT F.FL_EQ_STAT_PREEMPT

/-- R447, R452: OVF_CLEAR ends OVERFLOW only while the queue has room; CSR_CLEAR clears the causes EVENT and CLOCK of
CHIP_SERVICE_REQ and leaves FALLBACK and KEYSTORE. R454: a pulse raised within 4 T_src + 3 T_dst of the one before on its relay
is merged with it: it raises no event of its own, is counted, and its block is recorded; one raised later crosses, and the
relays of other events stand. R460, R461: loss of REFCLK or of a core PLL ends the pulses of every port, moves SYSCLK to the
oscillator and brings HOLD; its return changes no more than REF_OK. Loss of HL_REFCLK stops the lanes and leaves the print path
as it is. R458: the watchdog ends the oldest overdue access with an error and the word 0 and holds its crossing in reset; where
nothing is overdue it does nothing. A clock that returns lets the crossing leave reset and performs the access that waited for
it. -/
def Obligations.ClocksAndControls : Prop :=
  ((∀ (s : State) (m : Master) (w : Word), s.takes m Reg.FL_CTRL →
    exec (.ovfClear m w) s = .next (s.wrote
      (if s.fl.queue.length < 32 then { s with fl := { s.fl with overflow := false } } else s) m)) ∧
  (∀ (s : State) (m : Master) (w : Word), s.takes m Reg.FL_CTRL →
    ∃ u : State, exec (.csrClear m w) s = .next (s.wrote u m) ∧ u.isSet Reg.FL_CSR F.FL_CSR_EVENT = false ∧
      u.isSet Reg.FL_CSR F.FL_CSR_CLOCK = false ∧ u.fld Reg.FL_CSR F.FL_CSR_FALLBACK = s.fld Reg.FL_CSR F.FL_CSR_FALLBACK ∧
      u.fld Reg.FL_CSR F.FL_CSR_KEYSTORE = s.fld Reg.FL_CSR F.FL_CSR_KEYSTORE)) ∧
  ((∀ (s : State) (id k t : Nat), id < 65536 → s.now < AMap.get (fun _ => 0) s.fl.relays (relayKey id k) →
    let u := s.relayRaise id k t
    u = s.relayOverrun (id / 256) ∧ u.fl.relays = s.fl.relays ∧ u.isSet Reg.FL_STAT F.FL_STAT_RELAY_OVERRUN = true ∧
      u.fld Reg.FL_XING_SRC F.FL_XING_SRC_OVERRUN_BLK = id / 256 ∧
      u.fld Reg.FL_XING_CNT F.FL_XING_CNT_OVERRUN = min F.FL_XING_CNT_OVERRUN.top (s.fld Reg.FL_XING_CNT F.FL_XING_CNT_OVERRUN + 1) ∧
      ∀ o ∈ u.fl.bufs, o ∈ s.fl.bufs ∨ o.id = Ev.RELAY_OVERRUN ∨ o.id = Ev.CHIP_SERVICE) ∧
  (∀ (s : State) (id k t : Nat), AMap.get (fun _ => 0) s.fl.relays (relayKey id k) ≤ s.now →
    let m := AMap.set (fun _ => 0) s.fl.relays (relayKey id k) (s.now + relayBusy t)
    s.relayRaise id k t = ({ s with fl := { s.fl with relays := m } } : State).raise id ∧
      (∀ n, n ≠ relayKey id k → AMap.get (fun _ => 0) m n = AMap.get (fun _ => 0) s.fl.relays n) ∧
      AMap.get (fun _ => 0) m (relayKey id k) = s.now + relayBusy t)) ∧
  ((∀ (s : State) (src : Fin 6), s.sys.inReset = false → s.mode ≠ .boot →
    (if src.val < 2 then s.sys.refOk = true else s.sys.pllLock.testBit (src.val - 2) = true) →
    ∃ u : State, exec (.clockLoss src) s = .next (s.after u) ∧ u.sys.onOsc = true ∧ u.sys.holdDue = true ∧
      (src.val < 2 → u.sys.refOk = false) ∧ u.isSet Reg.FL_CSR F.FL_CSR_CLOCK = true ∧
      (∀ p < 64, p < s.hp.ports.length → s.now < (s.port p).waveEnd → (u.port p).pulses = cutPulses s.now (s.port p).pulses)) ∧
  (∀ s : State, s.sys.inReset = false → exec .refclkReturn s = .next (s.after { s with sys := { s.sys with refOk := true } })) ∧
  (∀ s : State, s.sys.inReset = false → s.sys.hlrefOk = true → ∃ u : State, exec .hlrefLoss s = .next (s.after u) ∧
    u.sys.hlrefOk = false ∧ u.hp = s.hp ∧ u.js = s.js ∧ u.wp = s.wp ∧
    (∀ g < 3, (s.grp g).st = .active → (u.grp g).st = .train)) ∧
  (∀ s : State, s.sys.inReset = false →
    exec .hlrefReturn s = .next (s.after { s with sys := { s.sys with hlrefOk := true } }))) ∧
  ((∀ s : State, s.sys.inReset = false → s.overdue = none → exec .fabricWdogExpire s = .next (s.after s)) ∧
  (∀ (s : State) (w : WaitAccess), s.sys.inReset = false → s.overdue = some w → w.series = none →
    ∃ u : State, exec .fabricWdogExpire s = .next (s.after u) ∧ u.bus = ⟨w.master, 0, true, true⟩ ∧
      u.fl.waits = s.fl.waits.erase w ∧ w.dom ∈ u.fl.resetDomains ∧ u.rdN Reg.FL_WDOG_ADDR = w.addr % 2 ^ 32 ∧ u.dram = s.dram) ∧
  (∀ (s : State) (d : Fin 12), s.sys.inReset = false → (∀ w ∈ s.fl.waits, w.dom ≠ Domain.ofNum d.val) →
    ∃ u : State, exec (.stoppedClockRestart d) s = .next (s.after u) ∧ Domain.ofNum d.val ∉ u.sys.stopped ∧
      u.fl.waits = s.fl.waits ∧ u.fl.resetDomains = s.fl.resetDomains.erase (Domain.ofNum d.val)) ∧
  (∀ (s : State) (d : Fin 12) (w : WaitAccess), s.sys.inReset = false →
    s.fl.waits.filter (fun w => w.dom = Domain.ofNum d.val) = [w] → w.series = none →
    ∃ t : State, t.fl.waits = s.fl.waits.filter (fun w => w.dom ≠ Domain.ofNum d.val) ∧ t.dram = s.dram ∧
      exec (.stoppedClockRestart d) s = .next (s.after
        ((t.perform w.master w.addr w.data).2.2.complete w.master (t.perform w.master w.addr w.data).1
          (t.perform w.master w.addr w.data).2.1 false))) ∧
  (∀ s : State, s.sys.inReset = false → ∃ u : State, exec .ropeWposAdvance s = .next (s.after u) ∧
    (s.hl.rope = none ∨ s.wp.src ≠ 2 → u = s) ∧ (∀ r, s.hl.rope = some r → s.wp.src = 2 → u = s.ropeSet (r.at s.now))))

/-- R466 to R469: a slot that waited 2,000 ns is marked LOADED and counted; a conversion gives the delivered VH of its bank by
R467 and the round goes on. R470 to R472, R476: CAL_START is refused while a calibration runs, in BOOT and TEST and for a
channel above 16; it begins with the pre-check against the spare, and a spare that has never passed rejects the channel; a full
pass is due CAL_INT s after the last. R473, R474: MZERO sets the offsets of the fitted axes to the means, only while each of
them is DISABLED; a crossing is kept with its time, and PD_BRIGHT is raised. -/
def Obligations.AnalogSense : Prop :=
  ((∀ (s : State) (delay : Nat), s.sys.inReset = false → ∃ u : State, exec (.senseSlotStart delay) s = .next (s.after u) ∧
    (s.slotBank = none → u = s) ∧
    (∀ b, s.slotBank = some b → b < 17 →
      (u.isSet (Reg.AN_CHk_VAL b) F.AN_CHk_VAL_LOADED = true ↔ s.isSet Reg.AN_CFG F.AN_CFG_QUIET = true ∧ 2000 ≤ delay))) ∧
  (∀ (s : State) (code : Fin 65536), s.sys.inReset = false → s.an.slot < 16 → s.an.slot < s.an.chs.length → s.an.cal = none →
    s.isSet (Reg.AN_CHk_VAL s.an.slot) F.AN_CHk_VAL_SRC = false →
    let c := s.an.slot
    ∃ u : State, exec (.senseConversionDone code) s = .next (s.after u) ∧ u.an.slot = c + 1 ∧ (u.supply c).code = code.val ∧
      u.fld (Reg.AN_CHk_VAL c) F.AN_CHk_VAL_MV = supplyMv (s.supply c).off (s.supply c).gcal (s.divOf c) code.val ∧
      (supplyMv (s.supply c).off (s.supply c).gcal (s.divOf c) code.val < s.fld (Reg.AN_CHk_LIM c) F.AN_CHk_LIM_LO →
        (s.supply c).armed = true → (s.supply c).outside = 3 → ∀ p ∈ bankPorts c, p < s.hp.ports.length →
        (u.port p).bankFault = true)) ∧
  (∀ (off : Int) (gcal div code : Nat), supplyMv off gcal div code ≤ 65535)) ∧
  ((∀ (s : State) (m : Master) (w : Word), s.takes m Reg.AN_CTRL →
    let k := F.AN_CTRL_CH.get (cmdWord Reg.AN_CTRL w [(F.AN_CTRL_CAL_START, 1), (F.AN_CTRL_MZERO, 0)])
    let no := s.an.cal.isSome = true ∨ 16 < k ∨ s.mode = .boot ∨ s.mode = .test
    ∃ u : State, exec (.calStart m w) s = .next (s.wrote u m) ∧
      (no → u = s.flag Reg.AN_STAT F.AN_STAT_CFG_REFUSED) ∧
      (¬no → k < 16 → (s.supply 16).calok = true → u.an.cal = some ⟨k, 2, 2, [], [], 0, 0, false⟩ ∧
        u.fld Reg.AN_STAT F.AN_STAT_CAL_CH = k) ∧
      (¬no → k = 16 → u.an.cal = some ⟨16, 4, 2, [], [], 0, 0, false⟩)) ∧
  (∀ (s : State) (k : Nat), k < 16 → (s.supply 16).calok = false → s.an.cal = none → s.mode ≠ .boot →
    s.mode ≠ .test → s.an.pass = [k] → (State.calNext 18 s).an.cal = none ∧
    (State.calNext 18 s).fld Reg.AN_STAT F.AN_STAT_REJECT = 6) ∧
  (∀ (s : State), s.sys.inReset = false →
    let int := s.fld Reg.AN_CFG F.AN_CFG_CAL_INT
    ∃ u : State, exec .calPassTimer s = .next (s.after u) ∧
      (int = 0 ∨ s.mode = .boot ∨ s.mode = .test ∨ s.now - s.an.passAt < int * 1000000000 → u = s) ∧
      (int ≠ 0 → s.mode ≠ .boot → s.mode ≠ .test → int * 1000000000 ≤ s.now - s.an.passAt → u = s.passBegin ∧ u.an.passAt = s.now)) ∧
  (∀ (s : State) (x : Cal) (cause : Nat), s.an.cal = some x →
    ((s.calReject x cause).supply x.ch).off = (s.supply x.ch).off ∧
    ((s.calReject x cause).supply x.ch).gcal = (s.supply x.ch).gcal)) ∧
  ((∀ (s : State) (m : Master) (w : Word) (means : List Nat), s.takes m Reg.AN_CTRL →
    ∃ u : State, exec (.mzero m w means) s = .next (s.wrote u m) ∧
      ((∃ a < 4, s.fitted a = true ∧ (s.axis a).st ≠ .disabled) → u = s.flag Reg.AN_STAT F.AN_STAT_CFG_REFUSED) ∧
      ((∀ a < 4, s.fitted a = true → (s.axis a).st = .disabled) → ∀ i < 8,
        u.fld (Reg.AN_MOFFi i) F.AN_MOFFi_MOFF =
          if s.fitted (i / 2) then means.getD i 0 % 4096 else s.fld (Reg.AN_MOFFi i) F.AN_MOFFi_MOFF)) ∧
  (∀ (s : State) (i : Fin 2) (t : Nat), s.sys.inReset = false → exec (.pdCrossing i t) s =
    .next (s.after { s with an := { s.an with cross := s.an.cross.set i.val (some t) } })) ∧
  (∀ (s : State) (i : Fin 2), s.sys.inReset = false →
    exec (.pdBright i) s = .next (s.after ((s.flag Reg.AN_STAT F.AN_STAT_PD_BRIGHT).raise Ev.PD_BRIGHT))))

/-- R508, R510: START is refused with its ERR while a loop runs, outside TEST, for an interface, instance or depth that does
not exist, for the path of the master that asks, and for a port with a head; otherwise the loop begins with its counts cleared.
STOP and the end of the time judge it by lock and errors; the other loops end on their pass. R511, R513, R514: the self-test is
refused like START and counts its runs; of the TAP, EXTEST, CLAMP and HIGHZ act as BYPASS outside TEST and FAILED, and a TAP in
reset holds IDCODE. -/
def Obligations.TestModes : Prop :=
  ((∀ (s : State) (m : Master) (w : Word), s.takes m Reg.TS_CTRL →
    let ifc := s.fld Reg.TS_CFG F.TS_CFG_IF
    let depth := s.fld Reg.TS_CFG F.TS_CFG_DEPTH
    let inst := s.fld Reg.TS_CFG F.TS_CFG_INST
    let busy := s.ts.run.isSome = true ∨ s.ts.selfRun = true
    let gone := testInsts ifc ≤ inst ∨ testDepths ifc ≤ depth
    let head := ifc = 1 ∧ depth = 1 ∧ (s.port inst).st ≠ .absent
    ∃ u : State, exec (.tsStart m w) s = .next (s.wrote u m) ∧
      (busy → u = s.testRefuse 4) ∧ (¬busy → s.mode ≠ .test → u = s.testRefuse 1) ∧
      (¬busy → s.mode = .test → gone → u = s.testRefuse 5) ∧
      (¬busy → s.mode = .test → ¬gone → s.testBreaks m.val ifc inst = true → u = s.testRefuse 2) ∧
      (¬busy → s.mode = .test → ¬gone → s.testBreaks m.val ifc inst = false → head → u = s.testRefuse 3) ∧
      (¬busy → s.mode = .test → ¬gone → s.testBreaks m.val ifc inst = false → ¬head →
        u.ts.run = some ⟨ifc, depth, inst, none, s.now⟩ ∧ u.rdN Reg.TS_ERRCNT = 0 ∧ u.ts.bits = 0 ∧ u.isSet Reg.TS_STAT F.TS_STAT_BUSY = true)) ∧
  (∀ (s : State) (m : Master) (w : Word), s.takes m Reg.TS_CTRL →
    ∃ u : State, exec (.tsStop m w) s = .next (s.wrote u m) ∧ (s.ts.run = none → u = s) ∧
      (∀ r, s.ts.run = some r → r.item = none → u.ts.run = none ∧ u.isSet Reg.TS_STAT F.TS_STAT_PASS = s.testLocked r ∧
        u.isSet Reg.TS_STAT F.TS_STAT_DONE = true ∧ u.isSet Reg.TS_STAT F.TS_STAT_BUSY = false)) ∧
  (∀ (s : State) (errs bits : Nat) (r : TestRun), s.sys.inReset = false → s.ts.run = some r → r.serial = true → s.testOver r = true →
    r.item = none → r.depth ≠ 2 → ∃ u : State, exec (.testLoopDurationEnd errs bits) s = .next (s.after u) ∧ u.ts.run = none ∧
      (u.isSet Reg.TS_STAT F.TS_STAT_PASS = true ↔ s.isSet Reg.TS_STAT F.TS_STAT_LOCK = true ∧ s.rdN Reg.TS_ERRCNT = 0 ∧ errs = 0)) ∧
  (∀ (s : State) (crc : Word) (ok : Bool) (r : TestRun), s.sys.inReset = false → s.ts.run = some r → r.item = none →
    r.ifc = 2 ∨ r.ifc = 6 → ∃ u : State, exec (.testLoopPassComplete crc ok) s = .next (s.after u) ∧ u.ts.run = none ∧
      (u.isSet Reg.TS_STAT F.TS_STAT_PASS = true ↔ if r.ifc = 2 then crc = s.rd Reg.TS_CAM_CRC else ok = true)) ∧
  (∀ (s : State) (gained : Bool) (r : TestRun), s.sys.inReset = false → s.ts.run = some r → r.serial = true →
    ∃ u : State, exec (.checkerLockChange gained) s = .next (s.after u) ∧ u.isSet Reg.TS_STAT F.TS_STAT_LOCK = gained ∧
      (gained = true → u.rdN Reg.TS_ERRCNT = 0 ∧ u.ts.bits = 0)) ∧
  (∀ s : State, s.regView Reg.TS_BITS_LO = BitVec.ofNat 32 s.ts.bits ∧
    (s.readCapture Reg.TS_BITS_LO).rdN Reg.TS_BITS_HI = s.ts.bits / 2 ^ 32 % 2 ^ 32)) ∧
  ((∀ (s : State) (m : Master) (w : Word), s.takes m Reg.TS_CTRL →
    let busy := s.ts.run.isSome = true ∨ s.ts.selfRun = true
    ∃ u : State, exec (.selftest m w) s = .next (s.wrote u m) ∧
      (busy → u = s.testRefuse 4) ∧ (¬busy → s.mode ≠ .test → u = s.testRefuse 1) ∧
      (¬busy → s.mode = .test → u.fld Reg.TS_SELF_RUN F.TS_SELF_RUN_RUNS =
          min F.TS_SELF_RUN_RUNS.top (s.fld Reg.TS_SELF_RUN F.TS_SELF_RUN_RUNS + 1) ∧
        (∀ r, u.ts.run = some r → s.testBreaks m.val r.ifc r.inst = false))) ∧
  (∀ (s : State) (c : Fin 6), s.sys.inReset = false →
    let act := c.val < 3 ∨ s.mode = .test ∨ (s.mode = .boot ∧ s.bu.bootState = 2)
    ∃ u : State, exec (.tapInstruction c) s = .next (s.after u) ∧ u.ts.tapReset = false ∧
      (act → u.tapActs = c.val) ∧ (¬act → u.tapActs = 0)) ∧
  (∀ (s : State) (r : TestRun), s.ts.run = some r → r.item = none → s.tapActs = 3 → (r.ifc = 1 ∧ r.depth = 1) ∨ r.ifc = 5 →
    s.testGate.ts.run = none ∧ s.testGate.isSet Reg.TS_STAT F.TS_STAT_PASS = false) ∧
  (∀ s : State, s.sys.inReset = false → exec .tapReset s = .next (s.after (s.setTs { s.ts with tap := 1, tapReset := true }))))
end

