-- ==== Sys2Proof/Laws/Map.lean ====
section
/-! SUPPORT. Finite maps: what a key reads as after a write, and that every write keeps the canonical form; the same for the
memories and the register map. Fields of a register word. -/

namespace Sys2Proof.Machine

variable {β : Type}

/-- The keys of a map. -/
def AMap.keys (m : AMap β) : List Nat := m.map Prod.fst

/-- The canonical form said of the whole list: keys strictly rising, no entry equal to its default. -/
def AMap.Canon (d : Nat → β) (m : AMap β) : Prop := (m.map Prod.fst).Pairwise (· < ·) ∧ ∀ e ∈ m, e.2 ≠ d e.1

theorem AMap.wf_iff [DecidableEq β] (d : Nat → β) (m : AMap β) : AMap.wf d m = true ↔ AMap.Canon d m := by
  induction m with
  | nil => simp [AMap.wf, AMap.Canon]
  | cons e m ih =>
    obtain ⟨k, v⟩ := e
    cases m with
    | nil => simp [AMap.wf, AMap.Canon]
    | cons e' m =>
      obtain ⟨k', v'⟩ := e'
      simp only [AMap.wf, Bool.and_eq_true, decide_eq_true_eq, ih, AMap.Canon, List.map_cons, List.pairwise_cons,
        List.mem_cons, forall_eq_or_imp]
      constructor
      · rintro ⟨⟨h1, h2⟩, ⟨h3, h4⟩, h5, h6⟩
        refine ⟨⟨⟨h2, fun a ha => lt_trans h2 (h3 a ha)⟩, h3, h4⟩, h1, h5, h6⟩
      · rintro ⟨⟨⟨h2, _⟩, h3, h4⟩, h1, h5, h6⟩
        exact ⟨⟨h1, h2⟩, ⟨h3, h4⟩, h5, h6⟩

theorem AMap.mem_erase {m : AMap β} {a : Nat} {e : Nat × β} : e ∈ AMap.erase m a ↔ e ∈ m ∧ e.1 ≠ a := by
  induction m with
  | nil => simp [AMap.erase]
  | cons f m ih =>
    obtain ⟨k, v⟩ := f
    by_cases h : k = a
    · subst h
      simp only [AMap.erase, if_true, ih, List.mem_cons]
      constructor
      · rintro ⟨h1, h2⟩; exact ⟨Or.inr h1, h2⟩
      · rintro ⟨rfl | h1, h2⟩
        · exact absurd rfl h2
        · exact ⟨h1, h2⟩
    · simp only [AMap.erase, if_neg h, List.mem_cons, ih]
      constructor
      · rintro (rfl | ⟨h1, h2⟩)
        · exact ⟨Or.inl rfl, h⟩
        · exact ⟨Or.inr h1, h2⟩
      · rintro ⟨rfl | h1, h2⟩
        · exact Or.inl rfl
        · exact Or.inr ⟨h1, h2⟩

theorem AMap.mem_place {m : AMap β} {a : Nat} {v : β} {e : Nat × β} : e ∈ AMap.place m a v ↔ e = (a, v) ∨ e ∈ m := by
  induction m with
  | nil => simp [AMap.place]
  | cons f m ih =>
    obtain ⟨k, w⟩ := f
    by_cases h : a < k
    · simp [AMap.place, h]
    · simp only [AMap.place, if_neg h, List.mem_cons, ih]
      tauto

theorem AMap.Canon.erase {d : Nat → β} {m : AMap β} (h : AMap.Canon d m) (a : Nat) : AMap.Canon d (AMap.erase m a) := by
  induction m with
  | nil => simpa [AMap.erase] using h
  | cons f m ih =>
    obtain ⟨k, v⟩ := f
    obtain ⟨h1, h2⟩ := h
    rw [List.map_cons, List.pairwise_cons] at h1
    have ht : AMap.Canon d m := ⟨h1.2, fun e he => h2 e (List.mem_cons_of_mem _ he)⟩
    by_cases hk : k = a
    · simpa [AMap.erase, hk] using ih ht
    · rw [AMap.erase, if_neg hk]
      refine ⟨?_, fun e he => ?_⟩
      · rw [List.map_cons, List.pairwise_cons]
        refine ⟨fun x hx => ?_, (ih ht).1⟩
        obtain ⟨e, he, rfl⟩ := List.mem_map.1 hx
        exact h1.1 _ (List.mem_map_of_mem (AMap.mem_erase.1 he).1)
      · rcases List.mem_cons.1 he with rfl | he
        · exact h2 _ (List.mem_cons_self ..)
        · exact h2 e (List.mem_cons_of_mem _ (AMap.mem_erase.1 he).1)

theorem AMap.Canon.place {d : Nat → β} {m : AMap β} {a : Nat} {v : β} (h : AMap.Canon d m) (ha : ∀ e ∈ m, e.1 ≠ a)
    (hv : v ≠ d a) : AMap.Canon d (AMap.place m a v) := by
  refine ⟨?_, fun e he => ?_⟩
  · induction m with
    | nil => simp [AMap.place]
    | cons f m ih =>
      obtain ⟨k, w⟩ := f
      obtain ⟨h1, h2⟩ := h
      have h1' := h1
      rw [List.map_cons, List.pairwise_cons] at h1
      have hk : k ≠ a := ha (k, w) (List.mem_cons_self ..)
      have ih' := ih ⟨h1.2, fun e he => h2 e (List.mem_cons_of_mem _ he)⟩ (fun e he => ha e (List.mem_cons_of_mem _ he))
      by_cases hlt : a < k
      · rw [AMap.place, if_pos hlt, List.map_cons, List.pairwise_cons]
        refine ⟨fun x hx => ?_, h1'⟩
        rw [List.map_cons, List.mem_cons] at hx
        rcases hx with rfl | hx
        · exact hlt
        · exact lt_trans hlt (h1.1 x hx)
      · rw [AMap.place, if_neg hlt, List.map_cons, List.pairwise_cons]
        refine ⟨fun x hx => ?_, ih'⟩
        obtain ⟨e, he, rfl⟩ := List.mem_map.1 hx
        rcases AMap.mem_place.1 he with rfl | he
        · show k < a
          omega
        · exact h1.1 _ (List.mem_map_of_mem he)
  · rcases AMap.mem_place.1 he with rfl | he
    · exact hv
    · exact h.2 e he

/-- A write keeps the canonical form. -/
theorem AMap.Canon.set [DecidableEq β] {d : Nat → β} {m : AMap β} (h : AMap.Canon d m) (a : Nat) (v : β) :
    AMap.Canon d (AMap.set d m a v) := by
  unfold AMap.set
  split
  · exact h.erase a
  · rename_i hv
    exact (h.erase a).place (fun e he => (AMap.mem_erase.1 he).2) hv

theorem AMap.wf_set [DecidableEq β] {d : Nat → β} {m : AMap β} (h : AMap.wf d m = true) (a : Nat) (v : β) :
    AMap.wf d (AMap.set d m a v) = true := (AMap.wf_iff d _).2 (((AMap.wf_iff d m).1 h).set a v)

@[simp] theorem AMap.find?_erase_self (m : AMap β) (a : Nat) : AMap.find? (AMap.erase m a) a = none := by
  induction m with
  | nil => rfl
  | cons f m ih =>
    obtain ⟨k, v⟩ := f
    by_cases h : k = a
    · simp [AMap.erase, h, ih]
    · simp [AMap.erase, h, AMap.find?, ih]

theorem AMap.find?_erase_ne (m : AMap β) {a b : Nat} (h : b ≠ a) : AMap.find? (AMap.erase m a) b = AMap.find? m b := by
  induction m with
  | nil => rfl
  | cons f m ih =>
    obtain ⟨k, v⟩ := f
    by_cases hk : k = a
    · subst hk
      simp [AMap.erase, AMap.find?, ih, Ne.symm h]
    · by_cases hb : k = b
      · subst hb; simp [AMap.erase, AMap.find?, hk]
      · simp [AMap.erase, AMap.find?, hk, hb, ih]

theorem AMap.find?_place_self {m : AMap β} {a : Nat} (v : β) (h : AMap.find? m a = none) :
    AMap.find? (AMap.place m a v) a = some v := by
  induction m with
  | nil => simp [AMap.place, AMap.find?]
  | cons f m ih =>
    obtain ⟨k, w⟩ := f
    have hk : k ≠ a := by
      rintro rfl
      simp [AMap.find?] at h
    have h' : AMap.find? m a = none := by simpa [AMap.find?, hk] using h
    by_cases hlt : a < k
    · simp [AMap.place, hlt, AMap.find?]
    · simp [AMap.place, hlt, AMap.find?, hk, ih h']

theorem AMap.find?_place_ne (m : AMap β) {a b : Nat} (v : β) (h : b ≠ a) :
    AMap.find? (AMap.place m a v) b = AMap.find? m b := by
  induction m with
  | nil => simp [AMap.place, AMap.find?, Ne.symm h]
  | cons f m ih =>
    obtain ⟨k, w⟩ := f
    by_cases hlt : a < k
    · simp [AMap.place, hlt, AMap.find?, Ne.symm h]
    · by_cases hk : k = b
      · subst hk; simp [AMap.place, hlt, AMap.find?]
      · simp [AMap.place, hlt, AMap.find?, hk, ih]

/-- A read after a write to the same key gives what was written. -/
@[simp] theorem AMap.get_set_self [DecidableEq β] (d : Nat → β) (m : AMap β) (a : Nat) (v : β) :
    AMap.get d (AMap.set d m a v) a = v := by
  unfold AMap.set AMap.get
  split
  · rename_i h
    simp [h]
  · simp [AMap.find?_place_self]

/-- A write leaves every other key alone. -/
theorem AMap.get_set_ne [DecidableEq β] (d : Nat → β) (m : AMap β) {a b : Nat} (v : β) (h : b ≠ a) :
    AMap.get d (AMap.set d m a v) b = AMap.get d m b := by
  unfold AMap.set AMap.get
  split
  · simp [AMap.find?_erase_ne m h]
  · simp [AMap.find?_place_ne _ v h, AMap.find?_erase_ne m h]

/-- A write of bytes keeps the canonical form of a memory. -/
theorem Mem.wf_put (d : Byte) (bs : List Byte) : ∀ (m : Mem) (a : Nat), AMap.wf (fun _ => d) m = true →
    AMap.wf (fun _ => d) (Mem.put d m a bs) = true := by
  induction bs with
  | nil => intro m a h; exact h
  | cons b bs ih => intro m a h; exact ih _ _ (AMap.wf_set h a b)

/-- A byte outside the bytes written reads as before. -/
theorem Mem.get_put_of_not_mem (d : Byte) (bs : List Byte) : ∀ (m : Mem) (a x : Nat), (x < a ∨ a + bs.length ≤ x) →
    AMap.get (fun _ => d) (Mem.put d m a bs) x = AMap.get (fun _ => d) m x := by
  induction bs with
  | nil => intro m a x _; rfl
  | cons b bs ih =>
    intro m a x h
    have hx : x ≠ a := by
      rcases h with h | h
      · omega
      · simp only [List.length_cons] at h; omega
    rw [Mem.put, ih _ _ _ (by simp only [List.length_cons] at h; omega), AMap.get_set_ne _ _ _ hx]

/-- A byte written reads as what was written. -/
theorem Mem.get_put_of_mem (d : Byte) (bs : List Byte) : ∀ (m : Mem) (a i : Nat) (h : i < bs.length),
    AMap.get (fun _ => d) (Mem.put d m a bs) (a + i) = bs[i] := by
  induction bs with
  | nil => intro m a i h; simp at h
  | cons b bs ih =>
    intro m a i h
    cases i with
    | zero =>
      rw [Mem.put, Mem.get_put_of_not_mem _ _ _ _ _ (by omega)]
      simp
    | succ i =>
      have := ih (AMap.set (fun _ => d) m a b) (a + 1) i (by simpa using h)
      rw [Mem.put]
      simpa [Nat.add_assoc, Nat.add_comm 1 i] using this

/-! ## Fields -/

theorem BitField.get_ofNat_lt (f : BitField) (w : Word) : f.get w < 2 ^ (f.hi + 1 - f.lo) := Nat.mod_lt _ (by positivity)

/-- A register read after a write to it, and to another. -/
@[simp] theorem State.rd_wr_self (s : State) (a : Nat) (w : Word) : (s.wr a w).rd a = w := by
  simp [State.rd, State.wr]

theorem State.rd_wr_ne (s : State) {a b : Nat} (w : Word) (h : b ≠ a) : (s.wr a w).rd b = s.rd b := by
  simp [State.rd, State.wr, AMap.get_set_ne _ _ _ h]

theorem State.rd_setFld_ne (s : State) {a b : Nat} (f : BitField) (v : Nat) (h : b ≠ a) : (s.setFld a f v).rd b = s.rd b :=
  State.rd_wr_ne s _ h

end Sys2Proof.Machine
end

