-- ==== Sys2Proof/Laws/State.lean ====
section
/-! SUPPORT. One lemma per field for each named update of the state: what the update leaves as it was. -/

namespace Sys2Proof.Machine

/-! wr changes `regs`. -/

@[simp] theorem State.wr_pending (s : State) (a : Nat) (w : Word) : (s.wr a w).pending = s.pending := rfl
@[simp] theorem State.wr_now (s : State) (a : Nat) (w : Word) : (s.wr a w).now = s.now := rfl
@[simp] theorem State.wr_free (s : State) (a : Nat) (w : Word) : (s.wr a w).free = s.free := rfl
@[simp] theorem State.wr_bus (s : State) (a : Nat) (w : Word) : (s.wr a w).bus = s.bus := rfl
@[simp] theorem State.wr_dram (s : State) (a : Nat) (w : Word) : (s.wr a w).dram = s.dram := rfl
@[simp] theorem State.wr_flash (s : State) (a : Nat) (w : Word) : (s.wr a w).flash = s.flash := rfl
@[simp] theorem State.wr_sys (s : State) (a : Nat) (w : Word) : (s.wr a w).sys = s.sys := rfl
@[simp] theorem State.wr_ut (s : State) (a : Nat) (w : Word) : (s.wr a w).ut = s.ut := rfl
@[simp] theorem State.wr_si (s : State) (a : Nat) (w : Word) : (s.wr a w).si = s.si := rfl
@[simp] theorem State.wr_wp (s : State) (a : Nat) (w : Word) : (s.wr a w).wp = s.wp := rfl
@[simp] theorem State.wr_js (s : State) (a : Nat) (w : Word) : (s.wr a w).js = s.js := rfl
@[simp] theorem State.wr_bu (s : State) (a : Nat) (w : Word) : (s.wr a w).bu = s.bu := rfl
@[simp] theorem State.wr_fl (s : State) (a : Nat) (w : Word) : (s.wr a w).fl = s.fl := rfl
@[simp] theorem State.wr_hp (s : State) (a : Nat) (w : Word) : (s.wr a w).hp = s.hp := rfl
@[simp] theorem State.wr_nh (s : State) (a : Nat) (w : Word) : (s.wr a w).nh = s.nh := rfl
@[simp] theorem State.wr_inn (s : State) (a : Nat) (w : Word) : (s.wr a w).inn = s.inn := rfl
@[simp] theorem State.wr_le (s : State) (a : Nat) (w : Word) : (s.wr a w).le = s.le := rfl
@[simp] theorem State.wr_mo (s : State) (a : Nat) (w : Word) : (s.wr a w).mo = s.mo := rfl
@[simp] theorem State.wr_mf (s : State) (a : Nat) (w : Word) : (s.wr a w).mf = s.mf := rfl
@[simp] theorem State.wr_hl (s : State) (a : Nat) (w : Word) : (s.wr a w).hl = s.hl := rfl
@[simp] theorem State.wr_tn (s : State) (a : Nat) (w : Word) : (s.wr a w).tn = s.tn := rfl
@[simp] theorem State.wr_au (s : State) (a : Nat) (w : Word) : (s.wr a w).au = s.au := rfl
@[simp] theorem State.wr_cz (s : State) (a : Nat) (w : Word) : (s.wr a w).cz = s.cz := rfl
@[simp] theorem State.wr_an (s : State) (a : Nat) (w : Word) : (s.wr a w).an = s.an := rfl
@[simp] theorem State.wr_ts (s : State) (a : Nat) (w : Word) : (s.wr a w).ts = s.ts := rfl

/-! wrN changes `regs`. -/

@[simp] theorem State.wrN_pending (s : State) (a v : Nat) : (s.wrN a v).pending = s.pending := rfl
@[simp] theorem State.wrN_now (s : State) (a v : Nat) : (s.wrN a v).now = s.now := rfl
@[simp] theorem State.wrN_free (s : State) (a v : Nat) : (s.wrN a v).free = s.free := rfl
@[simp] theorem State.wrN_bus (s : State) (a v : Nat) : (s.wrN a v).bus = s.bus := rfl
@[simp] theorem State.wrN_dram (s : State) (a v : Nat) : (s.wrN a v).dram = s.dram := rfl
@[simp] theorem State.wrN_flash (s : State) (a v : Nat) : (s.wrN a v).flash = s.flash := rfl
@[simp] theorem State.wrN_sys (s : State) (a v : Nat) : (s.wrN a v).sys = s.sys := rfl
@[simp] theorem State.wrN_ut (s : State) (a v : Nat) : (s.wrN a v).ut = s.ut := rfl
@[simp] theorem State.wrN_si (s : State) (a v : Nat) : (s.wrN a v).si = s.si := rfl
@[simp] theorem State.wrN_wp (s : State) (a v : Nat) : (s.wrN a v).wp = s.wp := rfl
@[simp] theorem State.wrN_js (s : State) (a v : Nat) : (s.wrN a v).js = s.js := rfl
@[simp] theorem State.wrN_bu (s : State) (a v : Nat) : (s.wrN a v).bu = s.bu := rfl
@[simp] theorem State.wrN_fl (s : State) (a v : Nat) : (s.wrN a v).fl = s.fl := rfl
@[simp] theorem State.wrN_hp (s : State) (a v : Nat) : (s.wrN a v).hp = s.hp := rfl
@[simp] theorem State.wrN_nh (s : State) (a v : Nat) : (s.wrN a v).nh = s.nh := rfl
@[simp] theorem State.wrN_inn (s : State) (a v : Nat) : (s.wrN a v).inn = s.inn := rfl
@[simp] theorem State.wrN_le (s : State) (a v : Nat) : (s.wrN a v).le = s.le := rfl
@[simp] theorem State.wrN_mo (s : State) (a v : Nat) : (s.wrN a v).mo = s.mo := rfl
@[simp] theorem State.wrN_mf (s : State) (a v : Nat) : (s.wrN a v).mf = s.mf := rfl
@[simp] theorem State.wrN_hl (s : State) (a v : Nat) : (s.wrN a v).hl = s.hl := rfl
@[simp] theorem State.wrN_tn (s : State) (a v : Nat) : (s.wrN a v).tn = s.tn := rfl
@[simp] theorem State.wrN_au (s : State) (a v : Nat) : (s.wrN a v).au = s.au := rfl
@[simp] theorem State.wrN_cz (s : State) (a v : Nat) : (s.wrN a v).cz = s.cz := rfl
@[simp] theorem State.wrN_an (s : State) (a v : Nat) : (s.wrN a v).an = s.an := rfl
@[simp] theorem State.wrN_ts (s : State) (a v : Nat) : (s.wrN a v).ts = s.ts := rfl

/-! setFld changes `regs`. -/

@[simp] theorem State.setFld_pending (s : State) (a : Nat) (f : BitField) (v : Nat) : (s.setFld a f v).pending = s.pending := rfl
@[simp] theorem State.setFld_now (s : State) (a : Nat) (f : BitField) (v : Nat) : (s.setFld a f v).now = s.now := rfl
@[simp] theorem State.setFld_free (s : State) (a : Nat) (f : BitField) (v : Nat) : (s.setFld a f v).free = s.free := rfl
@[simp] theorem State.setFld_bus (s : State) (a : Nat) (f : BitField) (v : Nat) : (s.setFld a f v).bus = s.bus := rfl
@[simp] theorem State.setFld_dram (s : State) (a : Nat) (f : BitField) (v : Nat) : (s.setFld a f v).dram = s.dram := rfl
@[simp] theorem State.setFld_flash (s : State) (a : Nat) (f : BitField) (v : Nat) : (s.setFld a f v).flash = s.flash := rfl
@[simp] theorem State.setFld_sys (s : State) (a : Nat) (f : BitField) (v : Nat) : (s.setFld a f v).sys = s.sys := rfl
@[simp] theorem State.setFld_ut (s : State) (a : Nat) (f : BitField) (v : Nat) : (s.setFld a f v).ut = s.ut := rfl
@[simp] theorem State.setFld_si (s : State) (a : Nat) (f : BitField) (v : Nat) : (s.setFld a f v).si = s.si := rfl
@[simp] theorem State.setFld_wp (s : State) (a : Nat) (f : BitField) (v : Nat) : (s.setFld a f v).wp = s.wp := rfl
@[simp] theorem State.setFld_js (s : State) (a : Nat) (f : BitField) (v : Nat) : (s.setFld a f v).js = s.js := rfl
@[simp] theorem State.setFld_bu (s : State) (a : Nat) (f : BitField) (v : Nat) : (s.setFld a f v).bu = s.bu := rfl
@[simp] theorem State.setFld_fl (s : State) (a : Nat) (f : BitField) (v : Nat) : (s.setFld a f v).fl = s.fl := rfl
@[simp] theorem State.setFld_hp (s : State) (a : Nat) (f : BitField) (v : Nat) : (s.setFld a f v).hp = s.hp := rfl
@[simp] theorem State.setFld_nh (s : State) (a : Nat) (f : BitField) (v : Nat) : (s.setFld a f v).nh = s.nh := rfl
@[simp] theorem State.setFld_inn (s : State) (a : Nat) (f : BitField) (v : Nat) : (s.setFld a f v).inn = s.inn := rfl
@[simp] theorem State.setFld_le (s : State) (a : Nat) (f : BitField) (v : Nat) : (s.setFld a f v).le = s.le := rfl
@[simp] theorem State.setFld_mo (s : State) (a : Nat) (f : BitField) (v : Nat) : (s.setFld a f v).mo = s.mo := rfl
@[simp] theorem State.setFld_mf (s : State) (a : Nat) (f : BitField) (v : Nat) : (s.setFld a f v).mf = s.mf := rfl
@[simp] theorem State.setFld_hl (s : State) (a : Nat) (f : BitField) (v : Nat) : (s.setFld a f v).hl = s.hl := rfl
@[simp] theorem State.setFld_tn (s : State) (a : Nat) (f : BitField) (v : Nat) : (s.setFld a f v).tn = s.tn := rfl
@[simp] theorem State.setFld_au (s : State) (a : Nat) (f : BitField) (v : Nat) : (s.setFld a f v).au = s.au := rfl
@[simp] theorem State.setFld_cz (s : State) (a : Nat) (f : BitField) (v : Nat) : (s.setFld a f v).cz = s.cz := rfl
@[simp] theorem State.setFld_an (s : State) (a : Nat) (f : BitField) (v : Nat) : (s.setFld a f v).an = s.an := rfl
@[simp] theorem State.setFld_ts (s : State) (a : Nat) (f : BitField) (v : Nat) : (s.setFld a f v).ts = s.ts := rfl

/-! flag changes `regs`. -/

@[simp] theorem State.flag_pending (s : State) (a : Nat) (f : BitField) : (s.flag a f).pending = s.pending := rfl
@[simp] theorem State.flag_now (s : State) (a : Nat) (f : BitField) : (s.flag a f).now = s.now := rfl
@[simp] theorem State.flag_free (s : State) (a : Nat) (f : BitField) : (s.flag a f).free = s.free := rfl
@[simp] theorem State.flag_bus (s : State) (a : Nat) (f : BitField) : (s.flag a f).bus = s.bus := rfl
@[simp] theorem State.flag_dram (s : State) (a : Nat) (f : BitField) : (s.flag a f).dram = s.dram := rfl
@[simp] theorem State.flag_flash (s : State) (a : Nat) (f : BitField) : (s.flag a f).flash = s.flash := rfl
@[simp] theorem State.flag_sys (s : State) (a : Nat) (f : BitField) : (s.flag a f).sys = s.sys := rfl
@[simp] theorem State.flag_ut (s : State) (a : Nat) (f : BitField) : (s.flag a f).ut = s.ut := rfl
@[simp] theorem State.flag_si (s : State) (a : Nat) (f : BitField) : (s.flag a f).si = s.si := rfl
@[simp] theorem State.flag_wp (s : State) (a : Nat) (f : BitField) : (s.flag a f).wp = s.wp := rfl
@[simp] theorem State.flag_js (s : State) (a : Nat) (f : BitField) : (s.flag a f).js = s.js := rfl
@[simp] theorem State.flag_bu (s : State) (a : Nat) (f : BitField) : (s.flag a f).bu = s.bu := rfl
@[simp] theorem State.flag_fl (s : State) (a : Nat) (f : BitField) : (s.flag a f).fl = s.fl := rfl
@[simp] theorem State.flag_hp (s : State) (a : Nat) (f : BitField) : (s.flag a f).hp = s.hp := rfl
@[simp] theorem State.flag_nh (s : State) (a : Nat) (f : BitField) : (s.flag a f).nh = s.nh := rfl
@[simp] theorem State.flag_inn (s : State) (a : Nat) (f : BitField) : (s.flag a f).inn = s.inn := rfl
@[simp] theorem State.flag_le (s : State) (a : Nat) (f : BitField) : (s.flag a f).le = s.le := rfl
@[simp] theorem State.flag_mo (s : State) (a : Nat) (f : BitField) : (s.flag a f).mo = s.mo := rfl
@[simp] theorem State.flag_mf (s : State) (a : Nat) (f : BitField) : (s.flag a f).mf = s.mf := rfl
@[simp] theorem State.flag_hl (s : State) (a : Nat) (f : BitField) : (s.flag a f).hl = s.hl := rfl
@[simp] theorem State.flag_tn (s : State) (a : Nat) (f : BitField) : (s.flag a f).tn = s.tn := rfl
@[simp] theorem State.flag_au (s : State) (a : Nat) (f : BitField) : (s.flag a f).au = s.au := rfl
@[simp] theorem State.flag_cz (s : State) (a : Nat) (f : BitField) : (s.flag a f).cz = s.cz := rfl
@[simp] theorem State.flag_an (s : State) (a : Nat) (f : BitField) : (s.flag a f).an = s.an := rfl
@[simp] theorem State.flag_ts (s : State) (a : Nat) (f : BitField) : (s.flag a f).ts = s.ts := rfl

/-! bump changes `regs`. -/

@[simp] theorem State.bump_pending (s : State) (a : Nat) (f : BitField) (n : Nat) : (s.bump a f n).pending = s.pending := rfl
@[simp] theorem State.bump_now (s : State) (a : Nat) (f : BitField) (n : Nat) : (s.bump a f n).now = s.now := rfl
@[simp] theorem State.bump_free (s : State) (a : Nat) (f : BitField) (n : Nat) : (s.bump a f n).free = s.free := rfl
@[simp] theorem State.bump_bus (s : State) (a : Nat) (f : BitField) (n : Nat) : (s.bump a f n).bus = s.bus := rfl
@[simp] theorem State.bump_dram (s : State) (a : Nat) (f : BitField) (n : Nat) : (s.bump a f n).dram = s.dram := rfl
@[simp] theorem State.bump_flash (s : State) (a : Nat) (f : BitField) (n : Nat) : (s.bump a f n).flash = s.flash := rfl
@[simp] theorem State.bump_sys (s : State) (a : Nat) (f : BitField) (n : Nat) : (s.bump a f n).sys = s.sys := rfl
@[simp] theorem State.bump_ut (s : State) (a : Nat) (f : BitField) (n : Nat) : (s.bump a f n).ut = s.ut := rfl
@[simp] theorem State.bump_si (s : State) (a : Nat) (f : BitField) (n : Nat) : (s.bump a f n).si = s.si := rfl
@[simp] theorem State.bump_wp (s : State) (a : Nat) (f : BitField) (n : Nat) : (s.bump a f n).wp = s.wp := rfl
@[simp] theorem State.bump_js (s : State) (a : Nat) (f : BitField) (n : Nat) : (s.bump a f n).js = s.js := rfl
@[simp] theorem State.bump_bu (s : State) (a : Nat) (f : BitField) (n : Nat) : (s.bump a f n).bu = s.bu := rfl
@[simp] theorem State.bump_fl (s : State) (a : Nat) (f : BitField) (n : Nat) : (s.bump a f n).fl = s.fl := rfl
@[simp] theorem State.bump_hp (s : State) (a : Nat) (f : BitField) (n : Nat) : (s.bump a f n).hp = s.hp := rfl
@[simp] theorem State.bump_nh (s : State) (a : Nat) (f : BitField) (n : Nat) : (s.bump a f n).nh = s.nh := rfl
@[simp] theorem State.bump_inn (s : State) (a : Nat) (f : BitField) (n : Nat) : (s.bump a f n).inn = s.inn := rfl
@[simp] theorem State.bump_le (s : State) (a : Nat) (f : BitField) (n : Nat) : (s.bump a f n).le = s.le := rfl
@[simp] theorem State.bump_mo (s : State) (a : Nat) (f : BitField) (n : Nat) : (s.bump a f n).mo = s.mo := rfl
@[simp] theorem State.bump_mf (s : State) (a : Nat) (f : BitField) (n : Nat) : (s.bump a f n).mf = s.mf := rfl
@[simp] theorem State.bump_hl (s : State) (a : Nat) (f : BitField) (n : Nat) : (s.bump a f n).hl = s.hl := rfl
@[simp] theorem State.bump_tn (s : State) (a : Nat) (f : BitField) (n : Nat) : (s.bump a f n).tn = s.tn := rfl
@[simp] theorem State.bump_au (s : State) (a : Nat) (f : BitField) (n : Nat) : (s.bump a f n).au = s.au := rfl
@[simp] theorem State.bump_cz (s : State) (a : Nat) (f : BitField) (n : Nat) : (s.bump a f n).cz = s.cz := rfl
@[simp] theorem State.bump_an (s : State) (a : Nat) (f : BitField) (n : Nat) : (s.bump a f n).an = s.an := rfl
@[simp] theorem State.bump_ts (s : State) (a : Nat) (f : BitField) (n : Nat) : (s.bump a f n).ts = s.ts := rfl

/-! raiseTo changes `regs`. -/

@[simp] theorem State.raiseTo_pending (s : State) (a : Nat) (f : BitField) (v : Nat) : (s.raiseTo a f v).pending = s.pending := rfl
@[simp] theorem State.raiseTo_now (s : State) (a : Nat) (f : BitField) (v : Nat) : (s.raiseTo a f v).now = s.now := rfl
@[simp] theorem State.raiseTo_free (s : State) (a : Nat) (f : BitField) (v : Nat) : (s.raiseTo a f v).free = s.free := rfl
@[simp] theorem State.raiseTo_bus (s : State) (a : Nat) (f : BitField) (v : Nat) : (s.raiseTo a f v).bus = s.bus := rfl
@[simp] theorem State.raiseTo_dram (s : State) (a : Nat) (f : BitField) (v : Nat) : (s.raiseTo a f v).dram = s.dram := rfl
@[simp] theorem State.raiseTo_flash (s : State) (a : Nat) (f : BitField) (v : Nat) : (s.raiseTo a f v).flash = s.flash := rfl
@[simp] theorem State.raiseTo_sys (s : State) (a : Nat) (f : BitField) (v : Nat) : (s.raiseTo a f v).sys = s.sys := rfl
@[simp] theorem State.raiseTo_ut (s : State) (a : Nat) (f : BitField) (v : Nat) : (s.raiseTo a f v).ut = s.ut := rfl
@[simp] theorem State.raiseTo_si (s : State) (a : Nat) (f : BitField) (v : Nat) : (s.raiseTo a f v).si = s.si := rfl
@[simp] theorem State.raiseTo_wp (s : State) (a : Nat) (f : BitField) (v : Nat) : (s.raiseTo a f v).wp = s.wp := rfl
@[simp] theorem State.raiseTo_js (s : State) (a : Nat) (f : BitField) (v : Nat) : (s.raiseTo a f v).js = s.js := rfl
@[simp] theorem State.raiseTo_bu (s : State) (a : Nat) (f : BitField) (v : Nat) : (s.raiseTo a f v).bu = s.bu := rfl
@[simp] theorem State.raiseTo_fl (s : State) (a : Nat) (f : BitField) (v : Nat) : (s.raiseTo a f v).fl = s.fl := rfl
@[simp] theorem State.raiseTo_hp (s : State) (a : Nat) (f : BitField) (v : Nat) : (s.raiseTo a f v).hp = s.hp := rfl
@[simp] theorem State.raiseTo_nh (s : State) (a : Nat) (f : BitField) (v : Nat) : (s.raiseTo a f v).nh = s.nh := rfl
@[simp] theorem State.raiseTo_inn (s : State) (a : Nat) (f : BitField) (v : Nat) : (s.raiseTo a f v).inn = s.inn := rfl
@[simp] theorem State.raiseTo_le (s : State) (a : Nat) (f : BitField) (v : Nat) : (s.raiseTo a f v).le = s.le := rfl
@[simp] theorem State.raiseTo_mo (s : State) (a : Nat) (f : BitField) (v : Nat) : (s.raiseTo a f v).mo = s.mo := rfl
@[simp] theorem State.raiseTo_mf (s : State) (a : Nat) (f : BitField) (v : Nat) : (s.raiseTo a f v).mf = s.mf := rfl
@[simp] theorem State.raiseTo_hl (s : State) (a : Nat) (f : BitField) (v : Nat) : (s.raiseTo a f v).hl = s.hl := rfl
@[simp] theorem State.raiseTo_tn (s : State) (a : Nat) (f : BitField) (v : Nat) : (s.raiseTo a f v).tn = s.tn := rfl
@[simp] theorem State.raiseTo_au (s : State) (a : Nat) (f : BitField) (v : Nat) : (s.raiseTo a f v).au = s.au := rfl
@[simp] theorem State.raiseTo_cz (s : State) (a : Nat) (f : BitField) (v : Nat) : (s.raiseTo a f v).cz = s.cz := rfl
@[simp] theorem State.raiseTo_an (s : State) (a : Nat) (f : BitField) (v : Nat) : (s.raiseTo a f v).an = s.an := rfl
@[simp] theorem State.raiseTo_ts (s : State) (a : Nat) (f : BitField) (v : Nat) : (s.raiseTo a f v).ts = s.ts := rfl

/-! setBit changes `regs`. -/

@[simp] theorem State.setBit_pending (s : State) (a : Nat) (f : BitField) (i : Nat) : (s.setBit a f i).pending = s.pending := rfl
@[simp] theorem State.setBit_now (s : State) (a : Nat) (f : BitField) (i : Nat) : (s.setBit a f i).now = s.now := rfl
@[simp] theorem State.setBit_free (s : State) (a : Nat) (f : BitField) (i : Nat) : (s.setBit a f i).free = s.free := rfl
@[simp] theorem State.setBit_bus (s : State) (a : Nat) (f : BitField) (i : Nat) : (s.setBit a f i).bus = s.bus := rfl
@[simp] theorem State.setBit_dram (s : State) (a : Nat) (f : BitField) (i : Nat) : (s.setBit a f i).dram = s.dram := rfl
@[simp] theorem State.setBit_flash (s : State) (a : Nat) (f : BitField) (i : Nat) : (s.setBit a f i).flash = s.flash := rfl
@[simp] theorem State.setBit_sys (s : State) (a : Nat) (f : BitField) (i : Nat) : (s.setBit a f i).sys = s.sys := rfl
@[simp] theorem State.setBit_ut (s : State) (a : Nat) (f : BitField) (i : Nat) : (s.setBit a f i).ut = s.ut := rfl
@[simp] theorem State.setBit_si (s : State) (a : Nat) (f : BitField) (i : Nat) : (s.setBit a f i).si = s.si := rfl
@[simp] theorem State.setBit_wp (s : State) (a : Nat) (f : BitField) (i : Nat) : (s.setBit a f i).wp = s.wp := rfl
@[simp] theorem State.setBit_js (s : State) (a : Nat) (f : BitField) (i : Nat) : (s.setBit a f i).js = s.js := rfl
@[simp] theorem State.setBit_bu (s : State) (a : Nat) (f : BitField) (i : Nat) : (s.setBit a f i).bu = s.bu := rfl
@[simp] theorem State.setBit_fl (s : State) (a : Nat) (f : BitField) (i : Nat) : (s.setBit a f i).fl = s.fl := rfl
@[simp] theorem State.setBit_hp (s : State) (a : Nat) (f : BitField) (i : Nat) : (s.setBit a f i).hp = s.hp := rfl
@[simp] theorem State.setBit_nh (s : State) (a : Nat) (f : BitField) (i : Nat) : (s.setBit a f i).nh = s.nh := rfl
@[simp] theorem State.setBit_inn (s : State) (a : Nat) (f : BitField) (i : Nat) : (s.setBit a f i).inn = s.inn := rfl
@[simp] theorem State.setBit_le (s : State) (a : Nat) (f : BitField) (i : Nat) : (s.setBit a f i).le = s.le := rfl
@[simp] theorem State.setBit_mo (s : State) (a : Nat) (f : BitField) (i : Nat) : (s.setBit a f i).mo = s.mo := rfl
@[simp] theorem State.setBit_mf (s : State) (a : Nat) (f : BitField) (i : Nat) : (s.setBit a f i).mf = s.mf := rfl
@[simp] theorem State.setBit_hl (s : State) (a : Nat) (f : BitField) (i : Nat) : (s.setBit a f i).hl = s.hl := rfl
@[simp] theorem State.setBit_tn (s : State) (a : Nat) (f : BitField) (i : Nat) : (s.setBit a f i).tn = s.tn := rfl
@[simp] theorem State.setBit_au (s : State) (a : Nat) (f : BitField) (i : Nat) : (s.setBit a f i).au = s.au := rfl
@[simp] theorem State.setBit_cz (s : State) (a : Nat) (f : BitField) (i : Nat) : (s.setBit a f i).cz = s.cz := rfl
@[simp] theorem State.setBit_an (s : State) (a : Nat) (f : BitField) (i : Nat) : (s.setBit a f i).an = s.an := rfl
@[simp] theorem State.setBit_ts (s : State) (a : Nat) (f : BitField) (i : Nat) : (s.setBit a f i).ts = s.ts := rfl

/-! complete changes `bus`. -/

@[simp] theorem State.complete_pending (s : State) (m : Nat) (v : Word) (e o : Bool) : (s.complete m v e o).pending = s.pending := rfl
@[simp] theorem State.complete_now (s : State) (m : Nat) (v : Word) (e o : Bool) : (s.complete m v e o).now = s.now := rfl
@[simp] theorem State.complete_free (s : State) (m : Nat) (v : Word) (e o : Bool) : (s.complete m v e o).free = s.free := rfl
@[simp] theorem State.complete_regs (s : State) (m : Nat) (v : Word) (e o : Bool) : (s.complete m v e o).regs = s.regs := rfl
@[simp] theorem State.complete_dram (s : State) (m : Nat) (v : Word) (e o : Bool) : (s.complete m v e o).dram = s.dram := rfl
@[simp] theorem State.complete_flash (s : State) (m : Nat) (v : Word) (e o : Bool) : (s.complete m v e o).flash = s.flash := rfl
@[simp] theorem State.complete_sys (s : State) (m : Nat) (v : Word) (e o : Bool) : (s.complete m v e o).sys = s.sys := rfl
@[simp] theorem State.complete_ut (s : State) (m : Nat) (v : Word) (e o : Bool) : (s.complete m v e o).ut = s.ut := rfl
@[simp] theorem State.complete_si (s : State) (m : Nat) (v : Word) (e o : Bool) : (s.complete m v e o).si = s.si := rfl
@[simp] theorem State.complete_wp (s : State) (m : Nat) (v : Word) (e o : Bool) : (s.complete m v e o).wp = s.wp := rfl
@[simp] theorem State.complete_js (s : State) (m : Nat) (v : Word) (e o : Bool) : (s.complete m v e o).js = s.js := rfl
@[simp] theorem State.complete_bu (s : State) (m : Nat) (v : Word) (e o : Bool) : (s.complete m v e o).bu = s.bu := rfl
@[simp] theorem State.complete_fl (s : State) (m : Nat) (v : Word) (e o : Bool) : (s.complete m v e o).fl = s.fl := rfl
@[simp] theorem State.complete_hp (s : State) (m : Nat) (v : Word) (e o : Bool) : (s.complete m v e o).hp = s.hp := rfl
@[simp] theorem State.complete_nh (s : State) (m : Nat) (v : Word) (e o : Bool) : (s.complete m v e o).nh = s.nh := rfl
@[simp] theorem State.complete_inn (s : State) (m : Nat) (v : Word) (e o : Bool) : (s.complete m v e o).inn = s.inn := rfl
@[simp] theorem State.complete_le (s : State) (m : Nat) (v : Word) (e o : Bool) : (s.complete m v e o).le = s.le := rfl
@[simp] theorem State.complete_mo (s : State) (m : Nat) (v : Word) (e o : Bool) : (s.complete m v e o).mo = s.mo := rfl
@[simp] theorem State.complete_mf (s : State) (m : Nat) (v : Word) (e o : Bool) : (s.complete m v e o).mf = s.mf := rfl
@[simp] theorem State.complete_hl (s : State) (m : Nat) (v : Word) (e o : Bool) : (s.complete m v e o).hl = s.hl := rfl
@[simp] theorem State.complete_tn (s : State) (m : Nat) (v : Word) (e o : Bool) : (s.complete m v e o).tn = s.tn := rfl
@[simp] theorem State.complete_au (s : State) (m : Nat) (v : Word) (e o : Bool) : (s.complete m v e o).au = s.au := rfl
@[simp] theorem State.complete_cz (s : State) (m : Nat) (v : Word) (e o : Bool) : (s.complete m v e o).cz = s.cz := rfl
@[simp] theorem State.complete_an (s : State) (m : Nat) (v : Word) (e o : Bool) : (s.complete m v e o).an = s.an := rfl
@[simp] theorem State.complete_ts (s : State) (m : Nat) (v : Word) (e o : Bool) : (s.complete m v e o).ts = s.ts := rfl

/-! dramWrite changes `dram`. -/

@[simp] theorem State.dramWrite_pending (s : State) (a : Nat) (bs : List Byte) : (s.dramWrite a bs).pending = s.pending := rfl
@[simp] theorem State.dramWrite_now (s : State) (a : Nat) (bs : List Byte) : (s.dramWrite a bs).now = s.now := rfl
@[simp] theorem State.dramWrite_free (s : State) (a : Nat) (bs : List Byte) : (s.dramWrite a bs).free = s.free := rfl
@[simp] theorem State.dramWrite_bus (s : State) (a : Nat) (bs : List Byte) : (s.dramWrite a bs).bus = s.bus := rfl
@[simp] theorem State.dramWrite_regs (s : State) (a : Nat) (bs : List Byte) : (s.dramWrite a bs).regs = s.regs := rfl
@[simp] theorem State.dramWrite_flash (s : State) (a : Nat) (bs : List Byte) : (s.dramWrite a bs).flash = s.flash := rfl
@[simp] theorem State.dramWrite_sys (s : State) (a : Nat) (bs : List Byte) : (s.dramWrite a bs).sys = s.sys := rfl
@[simp] theorem State.dramWrite_ut (s : State) (a : Nat) (bs : List Byte) : (s.dramWrite a bs).ut = s.ut := rfl
@[simp] theorem State.dramWrite_si (s : State) (a : Nat) (bs : List Byte) : (s.dramWrite a bs).si = s.si := rfl
@[simp] theorem State.dramWrite_wp (s : State) (a : Nat) (bs : List Byte) : (s.dramWrite a bs).wp = s.wp := rfl
@[simp] theorem State.dramWrite_js (s : State) (a : Nat) (bs : List Byte) : (s.dramWrite a bs).js = s.js := rfl
@[simp] theorem State.dramWrite_bu (s : State) (a : Nat) (bs : List Byte) : (s.dramWrite a bs).bu = s.bu := rfl
@[simp] theorem State.dramWrite_fl (s : State) (a : Nat) (bs : List Byte) : (s.dramWrite a bs).fl = s.fl := rfl
@[simp] theorem State.dramWrite_hp (s : State) (a : Nat) (bs : List Byte) : (s.dramWrite a bs).hp = s.hp := rfl
@[simp] theorem State.dramWrite_nh (s : State) (a : Nat) (bs : List Byte) : (s.dramWrite a bs).nh = s.nh := rfl
@[simp] theorem State.dramWrite_inn (s : State) (a : Nat) (bs : List Byte) : (s.dramWrite a bs).inn = s.inn := rfl
@[simp] theorem State.dramWrite_le (s : State) (a : Nat) (bs : List Byte) : (s.dramWrite a bs).le = s.le := rfl
@[simp] theorem State.dramWrite_mo (s : State) (a : Nat) (bs : List Byte) : (s.dramWrite a bs).mo = s.mo := rfl
@[simp] theorem State.dramWrite_mf (s : State) (a : Nat) (bs : List Byte) : (s.dramWrite a bs).mf = s.mf := rfl
@[simp] theorem State.dramWrite_hl (s : State) (a : Nat) (bs : List Byte) : (s.dramWrite a bs).hl = s.hl := rfl
@[simp] theorem State.dramWrite_tn (s : State) (a : Nat) (bs : List Byte) : (s.dramWrite a bs).tn = s.tn := rfl
@[simp] theorem State.dramWrite_au (s : State) (a : Nat) (bs : List Byte) : (s.dramWrite a bs).au = s.au := rfl
@[simp] theorem State.dramWrite_cz (s : State) (a : Nat) (bs : List Byte) : (s.dramWrite a bs).cz = s.cz := rfl
@[simp] theorem State.dramWrite_an (s : State) (a : Nat) (bs : List Byte) : (s.dramWrite a bs).an = s.an := rfl
@[simp] theorem State.dramWrite_ts (s : State) (a : Nat) (bs : List Byte) : (s.dramWrite a bs).ts = s.ts := rfl

/-! flashProgram changes `flash`. -/

@[simp] theorem State.flashProgram_pending (s : State) (a : Nat) (bs : List Byte) : (s.flashProgram a bs).pending = s.pending := rfl
@[simp] theorem State.flashProgram_now (s : State) (a : Nat) (bs : List Byte) : (s.flashProgram a bs).now = s.now := rfl
@[simp] theorem State.flashProgram_free (s : State) (a : Nat) (bs : List Byte) : (s.flashProgram a bs).free = s.free := rfl
@[simp] theorem State.flashProgram_bus (s : State) (a : Nat) (bs : List Byte) : (s.flashProgram a bs).bus = s.bus := rfl
@[simp] theorem State.flashProgram_regs (s : State) (a : Nat) (bs : List Byte) : (s.flashProgram a bs).regs = s.regs := rfl
@[simp] theorem State.flashProgram_dram (s : State) (a : Nat) (bs : List Byte) : (s.flashProgram a bs).dram = s.dram := rfl
@[simp] theorem State.flashProgram_sys (s : State) (a : Nat) (bs : List Byte) : (s.flashProgram a bs).sys = s.sys := rfl
@[simp] theorem State.flashProgram_ut (s : State) (a : Nat) (bs : List Byte) : (s.flashProgram a bs).ut = s.ut := rfl
@[simp] theorem State.flashProgram_si (s : State) (a : Nat) (bs : List Byte) : (s.flashProgram a bs).si = s.si := rfl
@[simp] theorem State.flashProgram_wp (s : State) (a : Nat) (bs : List Byte) : (s.flashProgram a bs).wp = s.wp := rfl
@[simp] theorem State.flashProgram_js (s : State) (a : Nat) (bs : List Byte) : (s.flashProgram a bs).js = s.js := rfl
@[simp] theorem State.flashProgram_bu (s : State) (a : Nat) (bs : List Byte) : (s.flashProgram a bs).bu = s.bu := rfl
@[simp] theorem State.flashProgram_fl (s : State) (a : Nat) (bs : List Byte) : (s.flashProgram a bs).fl = s.fl := rfl
@[simp] theorem State.flashProgram_hp (s : State) (a : Nat) (bs : List Byte) : (s.flashProgram a bs).hp = s.hp := rfl
@[simp] theorem State.flashProgram_nh (s : State) (a : Nat) (bs : List Byte) : (s.flashProgram a bs).nh = s.nh := rfl
@[simp] theorem State.flashProgram_inn (s : State) (a : Nat) (bs : List Byte) : (s.flashProgram a bs).inn = s.inn := rfl
@[simp] theorem State.flashProgram_le (s : State) (a : Nat) (bs : List Byte) : (s.flashProgram a bs).le = s.le := rfl
@[simp] theorem State.flashProgram_mo (s : State) (a : Nat) (bs : List Byte) : (s.flashProgram a bs).mo = s.mo := rfl
@[simp] theorem State.flashProgram_mf (s : State) (a : Nat) (bs : List Byte) : (s.flashProgram a bs).mf = s.mf := rfl
@[simp] theorem State.flashProgram_hl (s : State) (a : Nat) (bs : List Byte) : (s.flashProgram a bs).hl = s.hl := rfl
@[simp] theorem State.flashProgram_tn (s : State) (a : Nat) (bs : List Byte) : (s.flashProgram a bs).tn = s.tn := rfl
@[simp] theorem State.flashProgram_au (s : State) (a : Nat) (bs : List Byte) : (s.flashProgram a bs).au = s.au := rfl
@[simp] theorem State.flashProgram_cz (s : State) (a : Nat) (bs : List Byte) : (s.flashProgram a bs).cz = s.cz := rfl
@[simp] theorem State.flashProgram_an (s : State) (a : Nat) (bs : List Byte) : (s.flashProgram a bs).an = s.an := rfl
@[simp] theorem State.flashProgram_ts (s : State) (a : Nat) (bs : List Byte) : (s.flashProgram a bs).ts = s.ts := rfl

/-! flashErase changes `flash`. -/

@[simp] theorem State.flashErase_pending (s : State) (a n : Nat) : (s.flashErase a n).pending = s.pending := rfl
@[simp] theorem State.flashErase_now (s : State) (a n : Nat) : (s.flashErase a n).now = s.now := rfl
@[simp] theorem State.flashErase_free (s : State) (a n : Nat) : (s.flashErase a n).free = s.free := rfl
@[simp] theorem State.flashErase_bus (s : State) (a n : Nat) : (s.flashErase a n).bus = s.bus := rfl
@[simp] theorem State.flashErase_regs (s : State) (a n : Nat) : (s.flashErase a n).regs = s.regs := rfl
@[simp] theorem State.flashErase_dram (s : State) (a n : Nat) : (s.flashErase a n).dram = s.dram := rfl
@[simp] theorem State.flashErase_sys (s : State) (a n : Nat) : (s.flashErase a n).sys = s.sys := rfl
@[simp] theorem State.flashErase_ut (s : State) (a n : Nat) : (s.flashErase a n).ut = s.ut := rfl
@[simp] theorem State.flashErase_si (s : State) (a n : Nat) : (s.flashErase a n).si = s.si := rfl
@[simp] theorem State.flashErase_wp (s : State) (a n : Nat) : (s.flashErase a n).wp = s.wp := rfl
@[simp] theorem State.flashErase_js (s : State) (a n : Nat) : (s.flashErase a n).js = s.js := rfl
@[simp] theorem State.flashErase_bu (s : State) (a n : Nat) : (s.flashErase a n).bu = s.bu := rfl
@[simp] theorem State.flashErase_fl (s : State) (a n : Nat) : (s.flashErase a n).fl = s.fl := rfl
@[simp] theorem State.flashErase_hp (s : State) (a n : Nat) : (s.flashErase a n).hp = s.hp := rfl
@[simp] theorem State.flashErase_nh (s : State) (a n : Nat) : (s.flashErase a n).nh = s.nh := rfl
@[simp] theorem State.flashErase_inn (s : State) (a n : Nat) : (s.flashErase a n).inn = s.inn := rfl
@[simp] theorem State.flashErase_le (s : State) (a n : Nat) : (s.flashErase a n).le = s.le := rfl
@[simp] theorem State.flashErase_mo (s : State) (a n : Nat) : (s.flashErase a n).mo = s.mo := rfl
@[simp] theorem State.flashErase_mf (s : State) (a n : Nat) : (s.flashErase a n).mf = s.mf := rfl
@[simp] theorem State.flashErase_hl (s : State) (a n : Nat) : (s.flashErase a n).hl = s.hl := rfl
@[simp] theorem State.flashErase_tn (s : State) (a n : Nat) : (s.flashErase a n).tn = s.tn := rfl
@[simp] theorem State.flashErase_au (s : State) (a n : Nat) : (s.flashErase a n).au = s.au := rfl
@[simp] theorem State.flashErase_cz (s : State) (a n : Nat) : (s.flashErase a n).cz = s.cz := rfl
@[simp] theorem State.flashErase_an (s : State) (a n : Nat) : (s.flashErase a n).an = s.an := rfl
@[simp] theorem State.flashErase_ts (s : State) (a n : Nat) : (s.flashErase a n).ts = s.ts := rfl

/-! setMode changes `sys`. -/

@[simp] theorem State.setMode_pending (s : State) (m : Mode) : (s.setMode m).pending = s.pending := rfl
@[simp] theorem State.setMode_now (s : State) (m : Mode) : (s.setMode m).now = s.now := rfl
@[simp] theorem State.setMode_free (s : State) (m : Mode) : (s.setMode m).free = s.free := rfl
@[simp] theorem State.setMode_bus (s : State) (m : Mode) : (s.setMode m).bus = s.bus := rfl
@[simp] theorem State.setMode_regs (s : State) (m : Mode) : (s.setMode m).regs = s.regs := rfl
@[simp] theorem State.setMode_dram (s : State) (m : Mode) : (s.setMode m).dram = s.dram := rfl
@[simp] theorem State.setMode_flash (s : State) (m : Mode) : (s.setMode m).flash = s.flash := rfl
@[simp] theorem State.setMode_ut (s : State) (m : Mode) : (s.setMode m).ut = s.ut := rfl
@[simp] theorem State.setMode_si (s : State) (m : Mode) : (s.setMode m).si = s.si := rfl
@[simp] theorem State.setMode_wp (s : State) (m : Mode) : (s.setMode m).wp = s.wp := rfl
@[simp] theorem State.setMode_js (s : State) (m : Mode) : (s.setMode m).js = s.js := rfl
@[simp] theorem State.setMode_bu (s : State) (m : Mode) : (s.setMode m).bu = s.bu := rfl
@[simp] theorem State.setMode_fl (s : State) (m : Mode) : (s.setMode m).fl = s.fl := rfl
@[simp] theorem State.setMode_hp (s : State) (m : Mode) : (s.setMode m).hp = s.hp := rfl
@[simp] theorem State.setMode_nh (s : State) (m : Mode) : (s.setMode m).nh = s.nh := rfl
@[simp] theorem State.setMode_inn (s : State) (m : Mode) : (s.setMode m).inn = s.inn := rfl
@[simp] theorem State.setMode_le (s : State) (m : Mode) : (s.setMode m).le = s.le := rfl
@[simp] theorem State.setMode_mo (s : State) (m : Mode) : (s.setMode m).mo = s.mo := rfl
@[simp] theorem State.setMode_mf (s : State) (m : Mode) : (s.setMode m).mf = s.mf := rfl
@[simp] theorem State.setMode_hl (s : State) (m : Mode) : (s.setMode m).hl = s.hl := rfl
@[simp] theorem State.setMode_tn (s : State) (m : Mode) : (s.setMode m).tn = s.tn := rfl
@[simp] theorem State.setMode_au (s : State) (m : Mode) : (s.setMode m).au = s.au := rfl
@[simp] theorem State.setMode_cz (s : State) (m : Mode) : (s.setMode m).cz = s.cz := rfl
@[simp] theorem State.setMode_an (s : State) (m : Mode) : (s.setMode m).an = s.an := rfl
@[simp] theorem State.setMode_ts (s : State) (m : Mode) : (s.setMode m).ts = s.ts := rfl

/-! setDyn changes `ut`. -/

@[simp] theorem State.setDyn_pending (s : State) (h : Nat) (d : UnitDyn) : (s.setDyn h d).pending = s.pending := rfl
@[simp] theorem State.setDyn_now (s : State) (h : Nat) (d : UnitDyn) : (s.setDyn h d).now = s.now := rfl
@[simp] theorem State.setDyn_free (s : State) (h : Nat) (d : UnitDyn) : (s.setDyn h d).free = s.free := rfl
@[simp] theorem State.setDyn_bus (s : State) (h : Nat) (d : UnitDyn) : (s.setDyn h d).bus = s.bus := rfl
@[simp] theorem State.setDyn_regs (s : State) (h : Nat) (d : UnitDyn) : (s.setDyn h d).regs = s.regs := rfl
@[simp] theorem State.setDyn_dram (s : State) (h : Nat) (d : UnitDyn) : (s.setDyn h d).dram = s.dram := rfl
@[simp] theorem State.setDyn_flash (s : State) (h : Nat) (d : UnitDyn) : (s.setDyn h d).flash = s.flash := rfl
@[simp] theorem State.setDyn_sys (s : State) (h : Nat) (d : UnitDyn) : (s.setDyn h d).sys = s.sys := rfl
@[simp] theorem State.setDyn_si (s : State) (h : Nat) (d : UnitDyn) : (s.setDyn h d).si = s.si := rfl
@[simp] theorem State.setDyn_wp (s : State) (h : Nat) (d : UnitDyn) : (s.setDyn h d).wp = s.wp := rfl
@[simp] theorem State.setDyn_js (s : State) (h : Nat) (d : UnitDyn) : (s.setDyn h d).js = s.js := rfl
@[simp] theorem State.setDyn_bu (s : State) (h : Nat) (d : UnitDyn) : (s.setDyn h d).bu = s.bu := rfl
@[simp] theorem State.setDyn_fl (s : State) (h : Nat) (d : UnitDyn) : (s.setDyn h d).fl = s.fl := rfl
@[simp] theorem State.setDyn_hp (s : State) (h : Nat) (d : UnitDyn) : (s.setDyn h d).hp = s.hp := rfl
@[simp] theorem State.setDyn_nh (s : State) (h : Nat) (d : UnitDyn) : (s.setDyn h d).nh = s.nh := rfl
@[simp] theorem State.setDyn_inn (s : State) (h : Nat) (d : UnitDyn) : (s.setDyn h d).inn = s.inn := rfl
@[simp] theorem State.setDyn_le (s : State) (h : Nat) (d : UnitDyn) : (s.setDyn h d).le = s.le := rfl
@[simp] theorem State.setDyn_mo (s : State) (h : Nat) (d : UnitDyn) : (s.setDyn h d).mo = s.mo := rfl
@[simp] theorem State.setDyn_mf (s : State) (h : Nat) (d : UnitDyn) : (s.setDyn h d).mf = s.mf := rfl
@[simp] theorem State.setDyn_hl (s : State) (h : Nat) (d : UnitDyn) : (s.setDyn h d).hl = s.hl := rfl
@[simp] theorem State.setDyn_tn (s : State) (h : Nat) (d : UnitDyn) : (s.setDyn h d).tn = s.tn := rfl
@[simp] theorem State.setDyn_au (s : State) (h : Nat) (d : UnitDyn) : (s.setDyn h d).au = s.au := rfl
@[simp] theorem State.setDyn_cz (s : State) (h : Nat) (d : UnitDyn) : (s.setDyn h d).cz = s.cz := rfl
@[simp] theorem State.setDyn_an (s : State) (h : Nat) (d : UnitDyn) : (s.setDyn h d).an = s.an := rfl
@[simp] theorem State.setDyn_ts (s : State) (h : Nat) (d : UnitDyn) : (s.setDyn h d).ts = s.ts := rfl

/-! setCmd changes `ut`. -/

@[simp] theorem State.setCmd_pending (s : State) (c : Option UtCmd) : (s.setCmd c).pending = s.pending := rfl
@[simp] theorem State.setCmd_now (s : State) (c : Option UtCmd) : (s.setCmd c).now = s.now := rfl
@[simp] theorem State.setCmd_free (s : State) (c : Option UtCmd) : (s.setCmd c).free = s.free := rfl
@[simp] theorem State.setCmd_bus (s : State) (c : Option UtCmd) : (s.setCmd c).bus = s.bus := rfl
@[simp] theorem State.setCmd_regs (s : State) (c : Option UtCmd) : (s.setCmd c).regs = s.regs := rfl
@[simp] theorem State.setCmd_dram (s : State) (c : Option UtCmd) : (s.setCmd c).dram = s.dram := rfl
@[simp] theorem State.setCmd_flash (s : State) (c : Option UtCmd) : (s.setCmd c).flash = s.flash := rfl
@[simp] theorem State.setCmd_sys (s : State) (c : Option UtCmd) : (s.setCmd c).sys = s.sys := rfl
@[simp] theorem State.setCmd_si (s : State) (c : Option UtCmd) : (s.setCmd c).si = s.si := rfl
@[simp] theorem State.setCmd_wp (s : State) (c : Option UtCmd) : (s.setCmd c).wp = s.wp := rfl
@[simp] theorem State.setCmd_js (s : State) (c : Option UtCmd) : (s.setCmd c).js = s.js := rfl
@[simp] theorem State.setCmd_bu (s : State) (c : Option UtCmd) : (s.setCmd c).bu = s.bu := rfl
@[simp] theorem State.setCmd_fl (s : State) (c : Option UtCmd) : (s.setCmd c).fl = s.fl := rfl
@[simp] theorem State.setCmd_hp (s : State) (c : Option UtCmd) : (s.setCmd c).hp = s.hp := rfl
@[simp] theorem State.setCmd_nh (s : State) (c : Option UtCmd) : (s.setCmd c).nh = s.nh := rfl
@[simp] theorem State.setCmd_inn (s : State) (c : Option UtCmd) : (s.setCmd c).inn = s.inn := rfl
@[simp] theorem State.setCmd_le (s : State) (c : Option UtCmd) : (s.setCmd c).le = s.le := rfl
@[simp] theorem State.setCmd_mo (s : State) (c : Option UtCmd) : (s.setCmd c).mo = s.mo := rfl
@[simp] theorem State.setCmd_mf (s : State) (c : Option UtCmd) : (s.setCmd c).mf = s.mf := rfl
@[simp] theorem State.setCmd_hl (s : State) (c : Option UtCmd) : (s.setCmd c).hl = s.hl := rfl
@[simp] theorem State.setCmd_tn (s : State) (c : Option UtCmd) : (s.setCmd c).tn = s.tn := rfl
@[simp] theorem State.setCmd_au (s : State) (c : Option UtCmd) : (s.setCmd c).au = s.au := rfl
@[simp] theorem State.setCmd_cz (s : State) (c : Option UtCmd) : (s.setCmd c).cz = s.cz := rfl
@[simp] theorem State.setCmd_an (s : State) (c : Option UtCmd) : (s.setCmd c).an = s.an := rfl
@[simp] theorem State.setCmd_ts (s : State) (c : Option UtCmd) : (s.setCmd c).ts = s.ts := rfl

/-! setEnc changes `wp`. -/

@[simp] theorem State.setEnc_pending (s : State) (k : Nat) (c : EncCh) : (s.setEnc k c).pending = s.pending := rfl
@[simp] theorem State.setEnc_now (s : State) (k : Nat) (c : EncCh) : (s.setEnc k c).now = s.now := rfl
@[simp] theorem State.setEnc_free (s : State) (k : Nat) (c : EncCh) : (s.setEnc k c).free = s.free := rfl
@[simp] theorem State.setEnc_bus (s : State) (k : Nat) (c : EncCh) : (s.setEnc k c).bus = s.bus := rfl
@[simp] theorem State.setEnc_regs (s : State) (k : Nat) (c : EncCh) : (s.setEnc k c).regs = s.regs := rfl
@[simp] theorem State.setEnc_dram (s : State) (k : Nat) (c : EncCh) : (s.setEnc k c).dram = s.dram := rfl
@[simp] theorem State.setEnc_flash (s : State) (k : Nat) (c : EncCh) : (s.setEnc k c).flash = s.flash := rfl
@[simp] theorem State.setEnc_sys (s : State) (k : Nat) (c : EncCh) : (s.setEnc k c).sys = s.sys := rfl
@[simp] theorem State.setEnc_ut (s : State) (k : Nat) (c : EncCh) : (s.setEnc k c).ut = s.ut := rfl
@[simp] theorem State.setEnc_si (s : State) (k : Nat) (c : EncCh) : (s.setEnc k c).si = s.si := rfl
@[simp] theorem State.setEnc_js (s : State) (k : Nat) (c : EncCh) : (s.setEnc k c).js = s.js := rfl
@[simp] theorem State.setEnc_bu (s : State) (k : Nat) (c : EncCh) : (s.setEnc k c).bu = s.bu := rfl
@[simp] theorem State.setEnc_fl (s : State) (k : Nat) (c : EncCh) : (s.setEnc k c).fl = s.fl := rfl
@[simp] theorem State.setEnc_hp (s : State) (k : Nat) (c : EncCh) : (s.setEnc k c).hp = s.hp := rfl
@[simp] theorem State.setEnc_nh (s : State) (k : Nat) (c : EncCh) : (s.setEnc k c).nh = s.nh := rfl
@[simp] theorem State.setEnc_inn (s : State) (k : Nat) (c : EncCh) : (s.setEnc k c).inn = s.inn := rfl
@[simp] theorem State.setEnc_le (s : State) (k : Nat) (c : EncCh) : (s.setEnc k c).le = s.le := rfl
@[simp] theorem State.setEnc_mo (s : State) (k : Nat) (c : EncCh) : (s.setEnc k c).mo = s.mo := rfl
@[simp] theorem State.setEnc_mf (s : State) (k : Nat) (c : EncCh) : (s.setEnc k c).mf = s.mf := rfl
@[simp] theorem State.setEnc_hl (s : State) (k : Nat) (c : EncCh) : (s.setEnc k c).hl = s.hl := rfl
@[simp] theorem State.setEnc_tn (s : State) (k : Nat) (c : EncCh) : (s.setEnc k c).tn = s.tn := rfl
@[simp] theorem State.setEnc_au (s : State) (k : Nat) (c : EncCh) : (s.setEnc k c).au = s.au := rfl
@[simp] theorem State.setEnc_cz (s : State) (k : Nat) (c : EncCh) : (s.setEnc k c).cz = s.cz := rfl
@[simp] theorem State.setEnc_an (s : State) (k : Nat) (c : EncCh) : (s.setEnc k c).an = s.an := rfl
@[simp] theorem State.setEnc_ts (s : State) (k : Nat) (c : EncCh) : (s.setEnc k c).ts = s.ts := rfl

/-! setWpCmp changes `wp`. -/

@[simp] theorem State.setWpCmp_pending (s : State) (k : Nat) (c : Cmp) : (s.setWpCmp k c).pending = s.pending := rfl
@[simp] theorem State.setWpCmp_now (s : State) (k : Nat) (c : Cmp) : (s.setWpCmp k c).now = s.now := rfl
@[simp] theorem State.setWpCmp_free (s : State) (k : Nat) (c : Cmp) : (s.setWpCmp k c).free = s.free := rfl
@[simp] theorem State.setWpCmp_bus (s : State) (k : Nat) (c : Cmp) : (s.setWpCmp k c).bus = s.bus := rfl
@[simp] theorem State.setWpCmp_regs (s : State) (k : Nat) (c : Cmp) : (s.setWpCmp k c).regs = s.regs := rfl
@[simp] theorem State.setWpCmp_dram (s : State) (k : Nat) (c : Cmp) : (s.setWpCmp k c).dram = s.dram := rfl
@[simp] theorem State.setWpCmp_flash (s : State) (k : Nat) (c : Cmp) : (s.setWpCmp k c).flash = s.flash := rfl
@[simp] theorem State.setWpCmp_sys (s : State) (k : Nat) (c : Cmp) : (s.setWpCmp k c).sys = s.sys := rfl
@[simp] theorem State.setWpCmp_ut (s : State) (k : Nat) (c : Cmp) : (s.setWpCmp k c).ut = s.ut := rfl
@[simp] theorem State.setWpCmp_si (s : State) (k : Nat) (c : Cmp) : (s.setWpCmp k c).si = s.si := rfl
@[simp] theorem State.setWpCmp_js (s : State) (k : Nat) (c : Cmp) : (s.setWpCmp k c).js = s.js := rfl
@[simp] theorem State.setWpCmp_bu (s : State) (k : Nat) (c : Cmp) : (s.setWpCmp k c).bu = s.bu := rfl
@[simp] theorem State.setWpCmp_fl (s : State) (k : Nat) (c : Cmp) : (s.setWpCmp k c).fl = s.fl := rfl
@[simp] theorem State.setWpCmp_hp (s : State) (k : Nat) (c : Cmp) : (s.setWpCmp k c).hp = s.hp := rfl
@[simp] theorem State.setWpCmp_nh (s : State) (k : Nat) (c : Cmp) : (s.setWpCmp k c).nh = s.nh := rfl
@[simp] theorem State.setWpCmp_inn (s : State) (k : Nat) (c : Cmp) : (s.setWpCmp k c).inn = s.inn := rfl
@[simp] theorem State.setWpCmp_le (s : State) (k : Nat) (c : Cmp) : (s.setWpCmp k c).le = s.le := rfl
@[simp] theorem State.setWpCmp_mo (s : State) (k : Nat) (c : Cmp) : (s.setWpCmp k c).mo = s.mo := rfl
@[simp] theorem State.setWpCmp_mf (s : State) (k : Nat) (c : Cmp) : (s.setWpCmp k c).mf = s.mf := rfl
@[simp] theorem State.setWpCmp_hl (s : State) (k : Nat) (c : Cmp) : (s.setWpCmp k c).hl = s.hl := rfl
@[simp] theorem State.setWpCmp_tn (s : State) (k : Nat) (c : Cmp) : (s.setWpCmp k c).tn = s.tn := rfl
@[simp] theorem State.setWpCmp_au (s : State) (k : Nat) (c : Cmp) : (s.setWpCmp k c).au = s.au := rfl
@[simp] theorem State.setWpCmp_cz (s : State) (k : Nat) (c : Cmp) : (s.setWpCmp k c).cz = s.cz := rfl
@[simp] theorem State.setWpCmp_an (s : State) (k : Nat) (c : Cmp) : (s.setWpCmp k c).an = s.an := rfl
@[simp] theorem State.setWpCmp_ts (s : State) (k : Nat) (c : Cmp) : (s.setWpCmp k c).ts = s.ts := rfl

/-! setPtOut changes `wp`. -/

@[simp] theorem State.setPtOut_pending (s : State) (k : Nat) (o : PtOut) : (s.setPtOut k o).pending = s.pending := rfl
@[simp] theorem State.setPtOut_now (s : State) (k : Nat) (o : PtOut) : (s.setPtOut k o).now = s.now := rfl
@[simp] theorem State.setPtOut_free (s : State) (k : Nat) (o : PtOut) : (s.setPtOut k o).free = s.free := rfl
@[simp] theorem State.setPtOut_bus (s : State) (k : Nat) (o : PtOut) : (s.setPtOut k o).bus = s.bus := rfl
@[simp] theorem State.setPtOut_regs (s : State) (k : Nat) (o : PtOut) : (s.setPtOut k o).regs = s.regs := rfl
@[simp] theorem State.setPtOut_dram (s : State) (k : Nat) (o : PtOut) : (s.setPtOut k o).dram = s.dram := rfl
@[simp] theorem State.setPtOut_flash (s : State) (k : Nat) (o : PtOut) : (s.setPtOut k o).flash = s.flash := rfl
@[simp] theorem State.setPtOut_sys (s : State) (k : Nat) (o : PtOut) : (s.setPtOut k o).sys = s.sys := rfl
@[simp] theorem State.setPtOut_ut (s : State) (k : Nat) (o : PtOut) : (s.setPtOut k o).ut = s.ut := rfl
@[simp] theorem State.setPtOut_si (s : State) (k : Nat) (o : PtOut) : (s.setPtOut k o).si = s.si := rfl
@[simp] theorem State.setPtOut_js (s : State) (k : Nat) (o : PtOut) : (s.setPtOut k o).js = s.js := rfl
@[simp] theorem State.setPtOut_bu (s : State) (k : Nat) (o : PtOut) : (s.setPtOut k o).bu = s.bu := rfl
@[simp] theorem State.setPtOut_fl (s : State) (k : Nat) (o : PtOut) : (s.setPtOut k o).fl = s.fl := rfl
@[simp] theorem State.setPtOut_hp (s : State) (k : Nat) (o : PtOut) : (s.setPtOut k o).hp = s.hp := rfl
@[simp] theorem State.setPtOut_nh (s : State) (k : Nat) (o : PtOut) : (s.setPtOut k o).nh = s.nh := rfl
@[simp] theorem State.setPtOut_inn (s : State) (k : Nat) (o : PtOut) : (s.setPtOut k o).inn = s.inn := rfl
@[simp] theorem State.setPtOut_le (s : State) (k : Nat) (o : PtOut) : (s.setPtOut k o).le = s.le := rfl
@[simp] theorem State.setPtOut_mo (s : State) (k : Nat) (o : PtOut) : (s.setPtOut k o).mo = s.mo := rfl
@[simp] theorem State.setPtOut_mf (s : State) (k : Nat) (o : PtOut) : (s.setPtOut k o).mf = s.mf := rfl
@[simp] theorem State.setPtOut_hl (s : State) (k : Nat) (o : PtOut) : (s.setPtOut k o).hl = s.hl := rfl
@[simp] theorem State.setPtOut_tn (s : State) (k : Nat) (o : PtOut) : (s.setPtOut k o).tn = s.tn := rfl
@[simp] theorem State.setPtOut_au (s : State) (k : Nat) (o : PtOut) : (s.setPtOut k o).au = s.au := rfl
@[simp] theorem State.setPtOut_cz (s : State) (k : Nat) (o : PtOut) : (s.setPtOut k o).cz = s.cz := rfl
@[simp] theorem State.setPtOut_an (s : State) (k : Nat) (o : PtOut) : (s.setPtOut k o).an = s.an := rfl
@[simp] theorem State.setPtOut_ts (s : State) (k : Nat) (o : PtOut) : (s.setPtOut k o).ts = s.ts := rfl

/-! setJob changes `js`. -/

@[simp] theorem State.setJob_pending (s : State) (k : Nat) (j : JobSlot) : (s.setJob k j).pending = s.pending := rfl
@[simp] theorem State.setJob_now (s : State) (k : Nat) (j : JobSlot) : (s.setJob k j).now = s.now := rfl
@[simp] theorem State.setJob_free (s : State) (k : Nat) (j : JobSlot) : (s.setJob k j).free = s.free := rfl
@[simp] theorem State.setJob_bus (s : State) (k : Nat) (j : JobSlot) : (s.setJob k j).bus = s.bus := rfl
@[simp] theorem State.setJob_regs (s : State) (k : Nat) (j : JobSlot) : (s.setJob k j).regs = s.regs := rfl
@[simp] theorem State.setJob_dram (s : State) (k : Nat) (j : JobSlot) : (s.setJob k j).dram = s.dram := rfl
@[simp] theorem State.setJob_flash (s : State) (k : Nat) (j : JobSlot) : (s.setJob k j).flash = s.flash := rfl
@[simp] theorem State.setJob_sys (s : State) (k : Nat) (j : JobSlot) : (s.setJob k j).sys = s.sys := rfl
@[simp] theorem State.setJob_ut (s : State) (k : Nat) (j : JobSlot) : (s.setJob k j).ut = s.ut := rfl
@[simp] theorem State.setJob_si (s : State) (k : Nat) (j : JobSlot) : (s.setJob k j).si = s.si := rfl
@[simp] theorem State.setJob_wp (s : State) (k : Nat) (j : JobSlot) : (s.setJob k j).wp = s.wp := rfl
@[simp] theorem State.setJob_bu (s : State) (k : Nat) (j : JobSlot) : (s.setJob k j).bu = s.bu := rfl
@[simp] theorem State.setJob_fl (s : State) (k : Nat) (j : JobSlot) : (s.setJob k j).fl = s.fl := rfl
@[simp] theorem State.setJob_hp (s : State) (k : Nat) (j : JobSlot) : (s.setJob k j).hp = s.hp := rfl
@[simp] theorem State.setJob_nh (s : State) (k : Nat) (j : JobSlot) : (s.setJob k j).nh = s.nh := rfl
@[simp] theorem State.setJob_inn (s : State) (k : Nat) (j : JobSlot) : (s.setJob k j).inn = s.inn := rfl
@[simp] theorem State.setJob_le (s : State) (k : Nat) (j : JobSlot) : (s.setJob k j).le = s.le := rfl
@[simp] theorem State.setJob_mo (s : State) (k : Nat) (j : JobSlot) : (s.setJob k j).mo = s.mo := rfl
@[simp] theorem State.setJob_mf (s : State) (k : Nat) (j : JobSlot) : (s.setJob k j).mf = s.mf := rfl
@[simp] theorem State.setJob_hl (s : State) (k : Nat) (j : JobSlot) : (s.setJob k j).hl = s.hl := rfl
@[simp] theorem State.setJob_tn (s : State) (k : Nat) (j : JobSlot) : (s.setJob k j).tn = s.tn := rfl
@[simp] theorem State.setJob_au (s : State) (k : Nat) (j : JobSlot) : (s.setJob k j).au = s.au := rfl
@[simp] theorem State.setJob_cz (s : State) (k : Nat) (j : JobSlot) : (s.setJob k j).cz = s.cz := rfl
@[simp] theorem State.setJob_an (s : State) (k : Nat) (j : JobSlot) : (s.setJob k j).an = s.an := rfl
@[simp] theorem State.setJob_ts (s : State) (k : Nat) (j : JobSlot) : (s.setJob k j).ts = s.ts := rfl

/-! setPlate changes `js`. -/

@[simp] theorem State.setPlate_pending (s : State) (k : Nat) (p : PlateSlot) : (s.setPlate k p).pending = s.pending := rfl
@[simp] theorem State.setPlate_now (s : State) (k : Nat) (p : PlateSlot) : (s.setPlate k p).now = s.now := rfl
@[simp] theorem State.setPlate_free (s : State) (k : Nat) (p : PlateSlot) : (s.setPlate k p).free = s.free := rfl
@[simp] theorem State.setPlate_bus (s : State) (k : Nat) (p : PlateSlot) : (s.setPlate k p).bus = s.bus := rfl
@[simp] theorem State.setPlate_regs (s : State) (k : Nat) (p : PlateSlot) : (s.setPlate k p).regs = s.regs := rfl
@[simp] theorem State.setPlate_dram (s : State) (k : Nat) (p : PlateSlot) : (s.setPlate k p).dram = s.dram := rfl
@[simp] theorem State.setPlate_flash (s : State) (k : Nat) (p : PlateSlot) : (s.setPlate k p).flash = s.flash := rfl
@[simp] theorem State.setPlate_sys (s : State) (k : Nat) (p : PlateSlot) : (s.setPlate k p).sys = s.sys := rfl
@[simp] theorem State.setPlate_ut (s : State) (k : Nat) (p : PlateSlot) : (s.setPlate k p).ut = s.ut := rfl
@[simp] theorem State.setPlate_si (s : State) (k : Nat) (p : PlateSlot) : (s.setPlate k p).si = s.si := rfl
@[simp] theorem State.setPlate_wp (s : State) (k : Nat) (p : PlateSlot) : (s.setPlate k p).wp = s.wp := rfl
@[simp] theorem State.setPlate_bu (s : State) (k : Nat) (p : PlateSlot) : (s.setPlate k p).bu = s.bu := rfl
@[simp] theorem State.setPlate_fl (s : State) (k : Nat) (p : PlateSlot) : (s.setPlate k p).fl = s.fl := rfl
@[simp] theorem State.setPlate_hp (s : State) (k : Nat) (p : PlateSlot) : (s.setPlate k p).hp = s.hp := rfl
@[simp] theorem State.setPlate_nh (s : State) (k : Nat) (p : PlateSlot) : (s.setPlate k p).nh = s.nh := rfl
@[simp] theorem State.setPlate_inn (s : State) (k : Nat) (p : PlateSlot) : (s.setPlate k p).inn = s.inn := rfl
@[simp] theorem State.setPlate_le (s : State) (k : Nat) (p : PlateSlot) : (s.setPlate k p).le = s.le := rfl
@[simp] theorem State.setPlate_mo (s : State) (k : Nat) (p : PlateSlot) : (s.setPlate k p).mo = s.mo := rfl
@[simp] theorem State.setPlate_mf (s : State) (k : Nat) (p : PlateSlot) : (s.setPlate k p).mf = s.mf := rfl
@[simp] theorem State.setPlate_hl (s : State) (k : Nat) (p : PlateSlot) : (s.setPlate k p).hl = s.hl := rfl
@[simp] theorem State.setPlate_tn (s : State) (k : Nat) (p : PlateSlot) : (s.setPlate k p).tn = s.tn := rfl
@[simp] theorem State.setPlate_au (s : State) (k : Nat) (p : PlateSlot) : (s.setPlate k p).au = s.au := rfl
@[simp] theorem State.setPlate_cz (s : State) (k : Nat) (p : PlateSlot) : (s.setPlate k p).cz = s.cz := rfl
@[simp] theorem State.setPlate_an (s : State) (k : Nat) (p : PlateSlot) : (s.setPlate k p).an = s.an := rfl
@[simp] theorem State.setPlate_ts (s : State) (k : Nat) (p : PlateSlot) : (s.setPlate k p).ts = s.ts := rfl

/-! setCamp changes `bu`. -/

@[simp] theorem State.setCamp_pending (s : State) (c : CampState) : (s.setCamp c).pending = s.pending := rfl
@[simp] theorem State.setCamp_now (s : State) (c : CampState) : (s.setCamp c).now = s.now := rfl
@[simp] theorem State.setCamp_free (s : State) (c : CampState) : (s.setCamp c).free = s.free := rfl
@[simp] theorem State.setCamp_bus (s : State) (c : CampState) : (s.setCamp c).bus = s.bus := rfl
@[simp] theorem State.setCamp_regs (s : State) (c : CampState) : (s.setCamp c).regs = s.regs := rfl
@[simp] theorem State.setCamp_dram (s : State) (c : CampState) : (s.setCamp c).dram = s.dram := rfl
@[simp] theorem State.setCamp_flash (s : State) (c : CampState) : (s.setCamp c).flash = s.flash := rfl
@[simp] theorem State.setCamp_sys (s : State) (c : CampState) : (s.setCamp c).sys = s.sys := rfl
@[simp] theorem State.setCamp_ut (s : State) (c : CampState) : (s.setCamp c).ut = s.ut := rfl
@[simp] theorem State.setCamp_si (s : State) (c : CampState) : (s.setCamp c).si = s.si := rfl
@[simp] theorem State.setCamp_wp (s : State) (c : CampState) : (s.setCamp c).wp = s.wp := rfl
@[simp] theorem State.setCamp_js (s : State) (c : CampState) : (s.setCamp c).js = s.js := rfl
@[simp] theorem State.setCamp_fl (s : State) (c : CampState) : (s.setCamp c).fl = s.fl := rfl
@[simp] theorem State.setCamp_hp (s : State) (c : CampState) : (s.setCamp c).hp = s.hp := rfl
@[simp] theorem State.setCamp_nh (s : State) (c : CampState) : (s.setCamp c).nh = s.nh := rfl
@[simp] theorem State.setCamp_inn (s : State) (c : CampState) : (s.setCamp c).inn = s.inn := rfl
@[simp] theorem State.setCamp_le (s : State) (c : CampState) : (s.setCamp c).le = s.le := rfl
@[simp] theorem State.setCamp_mo (s : State) (c : CampState) : (s.setCamp c).mo = s.mo := rfl
@[simp] theorem State.setCamp_mf (s : State) (c : CampState) : (s.setCamp c).mf = s.mf := rfl
@[simp] theorem State.setCamp_hl (s : State) (c : CampState) : (s.setCamp c).hl = s.hl := rfl
@[simp] theorem State.setCamp_tn (s : State) (c : CampState) : (s.setCamp c).tn = s.tn := rfl
@[simp] theorem State.setCamp_au (s : State) (c : CampState) : (s.setCamp c).au = s.au := rfl
@[simp] theorem State.setCamp_cz (s : State) (c : CampState) : (s.setCamp c).cz = s.cz := rfl
@[simp] theorem State.setCamp_an (s : State) (c : CampState) : (s.setCamp c).an = s.an := rfl
@[simp] theorem State.setCamp_ts (s : State) (c : CampState) : (s.setCamp c).ts = s.ts := rfl

/-! setReload changes `bu`. -/

@[simp] theorem State.setReload_pending (s : State) (r : Reload) : (s.setReload r).pending = s.pending := rfl
@[simp] theorem State.setReload_now (s : State) (r : Reload) : (s.setReload r).now = s.now := rfl
@[simp] theorem State.setReload_free (s : State) (r : Reload) : (s.setReload r).free = s.free := rfl
@[simp] theorem State.setReload_bus (s : State) (r : Reload) : (s.setReload r).bus = s.bus := rfl
@[simp] theorem State.setReload_regs (s : State) (r : Reload) : (s.setReload r).regs = s.regs := rfl
@[simp] theorem State.setReload_dram (s : State) (r : Reload) : (s.setReload r).dram = s.dram := rfl
@[simp] theorem State.setReload_flash (s : State) (r : Reload) : (s.setReload r).flash = s.flash := rfl
@[simp] theorem State.setReload_sys (s : State) (r : Reload) : (s.setReload r).sys = s.sys := rfl
@[simp] theorem State.setReload_ut (s : State) (r : Reload) : (s.setReload r).ut = s.ut := rfl
@[simp] theorem State.setReload_si (s : State) (r : Reload) : (s.setReload r).si = s.si := rfl
@[simp] theorem State.setReload_wp (s : State) (r : Reload) : (s.setReload r).wp = s.wp := rfl
@[simp] theorem State.setReload_js (s : State) (r : Reload) : (s.setReload r).js = s.js := rfl
@[simp] theorem State.setReload_fl (s : State) (r : Reload) : (s.setReload r).fl = s.fl := rfl
@[simp] theorem State.setReload_hp (s : State) (r : Reload) : (s.setReload r).hp = s.hp := rfl
@[simp] theorem State.setReload_nh (s : State) (r : Reload) : (s.setReload r).nh = s.nh := rfl
@[simp] theorem State.setReload_inn (s : State) (r : Reload) : (s.setReload r).inn = s.inn := rfl
@[simp] theorem State.setReload_le (s : State) (r : Reload) : (s.setReload r).le = s.le := rfl
@[simp] theorem State.setReload_mo (s : State) (r : Reload) : (s.setReload r).mo = s.mo := rfl
@[simp] theorem State.setReload_mf (s : State) (r : Reload) : (s.setReload r).mf = s.mf := rfl
@[simp] theorem State.setReload_hl (s : State) (r : Reload) : (s.setReload r).hl = s.hl := rfl
@[simp] theorem State.setReload_tn (s : State) (r : Reload) : (s.setReload r).tn = s.tn := rfl
@[simp] theorem State.setReload_au (s : State) (r : Reload) : (s.setReload r).au = s.au := rfl
@[simp] theorem State.setReload_cz (s : State) (r : Reload) : (s.setReload r).cz = s.cz := rfl
@[simp] theorem State.setReload_an (s : State) (r : Reload) : (s.setReload r).an = s.an := rfl
@[simp] theorem State.setReload_ts (s : State) (r : Reload) : (s.setReload r).ts = s.ts := rfl

/-! setBank changes `hp`. -/

@[simp] theorem State.setBank_pending (s : State) (b : Nat) (k : BankState) : (s.setBank b k).pending = s.pending := rfl
@[simp] theorem State.setBank_now (s : State) (b : Nat) (k : BankState) : (s.setBank b k).now = s.now := rfl
@[simp] theorem State.setBank_free (s : State) (b : Nat) (k : BankState) : (s.setBank b k).free = s.free := rfl
@[simp] theorem State.setBank_bus (s : State) (b : Nat) (k : BankState) : (s.setBank b k).bus = s.bus := rfl
@[simp] theorem State.setBank_regs (s : State) (b : Nat) (k : BankState) : (s.setBank b k).regs = s.regs := rfl
@[simp] theorem State.setBank_dram (s : State) (b : Nat) (k : BankState) : (s.setBank b k).dram = s.dram := rfl
@[simp] theorem State.setBank_flash (s : State) (b : Nat) (k : BankState) : (s.setBank b k).flash = s.flash := rfl
@[simp] theorem State.setBank_sys (s : State) (b : Nat) (k : BankState) : (s.setBank b k).sys = s.sys := rfl
@[simp] theorem State.setBank_ut (s : State) (b : Nat) (k : BankState) : (s.setBank b k).ut = s.ut := rfl
@[simp] theorem State.setBank_si (s : State) (b : Nat) (k : BankState) : (s.setBank b k).si = s.si := rfl
@[simp] theorem State.setBank_wp (s : State) (b : Nat) (k : BankState) : (s.setBank b k).wp = s.wp := rfl
@[simp] theorem State.setBank_js (s : State) (b : Nat) (k : BankState) : (s.setBank b k).js = s.js := rfl
@[simp] theorem State.setBank_bu (s : State) (b : Nat) (k : BankState) : (s.setBank b k).bu = s.bu := rfl
@[simp] theorem State.setBank_fl (s : State) (b : Nat) (k : BankState) : (s.setBank b k).fl = s.fl := rfl
@[simp] theorem State.setBank_nh (s : State) (b : Nat) (k : BankState) : (s.setBank b k).nh = s.nh := rfl
@[simp] theorem State.setBank_inn (s : State) (b : Nat) (k : BankState) : (s.setBank b k).inn = s.inn := rfl
@[simp] theorem State.setBank_le (s : State) (b : Nat) (k : BankState) : (s.setBank b k).le = s.le := rfl
@[simp] theorem State.setBank_mo (s : State) (b : Nat) (k : BankState) : (s.setBank b k).mo = s.mo := rfl
@[simp] theorem State.setBank_mf (s : State) (b : Nat) (k : BankState) : (s.setBank b k).mf = s.mf := rfl
@[simp] theorem State.setBank_hl (s : State) (b : Nat) (k : BankState) : (s.setBank b k).hl = s.hl := rfl
@[simp] theorem State.setBank_tn (s : State) (b : Nat) (k : BankState) : (s.setBank b k).tn = s.tn := rfl
@[simp] theorem State.setBank_au (s : State) (b : Nat) (k : BankState) : (s.setBank b k).au = s.au := rfl
@[simp] theorem State.setBank_cz (s : State) (b : Nat) (k : BankState) : (s.setBank b k).cz = s.cz := rfl
@[simp] theorem State.setBank_an (s : State) (b : Nat) (k : BankState) : (s.setBank b k).an = s.an := rfl
@[simp] theorem State.setBank_ts (s : State) (b : Nat) (k : BankState) : (s.setBank b k).ts = s.ts := rfl

/-! setPort changes `hp`. -/

@[simp] theorem State.setPort_pending (s : State) (p : Nat) (q : HeadPort) : (s.setPort p q).pending = s.pending := rfl
@[simp] theorem State.setPort_now (s : State) (p : Nat) (q : HeadPort) : (s.setPort p q).now = s.now := rfl
@[simp] theorem State.setPort_free (s : State) (p : Nat) (q : HeadPort) : (s.setPort p q).free = s.free := rfl
@[simp] theorem State.setPort_bus (s : State) (p : Nat) (q : HeadPort) : (s.setPort p q).bus = s.bus := rfl
@[simp] theorem State.setPort_regs (s : State) (p : Nat) (q : HeadPort) : (s.setPort p q).regs = s.regs := rfl
@[simp] theorem State.setPort_dram (s : State) (p : Nat) (q : HeadPort) : (s.setPort p q).dram = s.dram := rfl
@[simp] theorem State.setPort_flash (s : State) (p : Nat) (q : HeadPort) : (s.setPort p q).flash = s.flash := rfl
@[simp] theorem State.setPort_sys (s : State) (p : Nat) (q : HeadPort) : (s.setPort p q).sys = s.sys := rfl
@[simp] theorem State.setPort_ut (s : State) (p : Nat) (q : HeadPort) : (s.setPort p q).ut = s.ut := rfl
@[simp] theorem State.setPort_si (s : State) (p : Nat) (q : HeadPort) : (s.setPort p q).si = s.si := rfl
@[simp] theorem State.setPort_wp (s : State) (p : Nat) (q : HeadPort) : (s.setPort p q).wp = s.wp := rfl
@[simp] theorem State.setPort_js (s : State) (p : Nat) (q : HeadPort) : (s.setPort p q).js = s.js := rfl
@[simp] theorem State.setPort_bu (s : State) (p : Nat) (q : HeadPort) : (s.setPort p q).bu = s.bu := rfl
@[simp] theorem State.setPort_fl (s : State) (p : Nat) (q : HeadPort) : (s.setPort p q).fl = s.fl := rfl
@[simp] theorem State.setPort_nh (s : State) (p : Nat) (q : HeadPort) : (s.setPort p q).nh = s.nh := rfl
@[simp] theorem State.setPort_inn (s : State) (p : Nat) (q : HeadPort) : (s.setPort p q).inn = s.inn := rfl
@[simp] theorem State.setPort_le (s : State) (p : Nat) (q : HeadPort) : (s.setPort p q).le = s.le := rfl
@[simp] theorem State.setPort_mo (s : State) (p : Nat) (q : HeadPort) : (s.setPort p q).mo = s.mo := rfl
@[simp] theorem State.setPort_mf (s : State) (p : Nat) (q : HeadPort) : (s.setPort p q).mf = s.mf := rfl
@[simp] theorem State.setPort_hl (s : State) (p : Nat) (q : HeadPort) : (s.setPort p q).hl = s.hl := rfl
@[simp] theorem State.setPort_tn (s : State) (p : Nat) (q : HeadPort) : (s.setPort p q).tn = s.tn := rfl
@[simp] theorem State.setPort_au (s : State) (p : Nat) (q : HeadPort) : (s.setPort p q).au = s.au := rfl
@[simp] theorem State.setPort_cz (s : State) (p : Nat) (q : HeadPort) : (s.setPort p q).cz = s.cz := rfl
@[simp] theorem State.setPort_an (s : State) (p : Nat) (q : HeadPort) : (s.setPort p q).an = s.an := rfl
@[simp] theorem State.setPort_ts (s : State) (p : Nat) (q : HeadPort) : (s.setPort p q).ts = s.ts := rfl

/-! setGate changes `nh`. -/

@[simp] theorem State.setGate_pending (s : State) (g : GateScan) : (s.setGate g).pending = s.pending := rfl
@[simp] theorem State.setGate_now (s : State) (g : GateScan) : (s.setGate g).now = s.now := rfl
@[simp] theorem State.setGate_free (s : State) (g : GateScan) : (s.setGate g).free = s.free := rfl
@[simp] theorem State.setGate_bus (s : State) (g : GateScan) : (s.setGate g).bus = s.bus := rfl
@[simp] theorem State.setGate_regs (s : State) (g : GateScan) : (s.setGate g).regs = s.regs := rfl
@[simp] theorem State.setGate_dram (s : State) (g : GateScan) : (s.setGate g).dram = s.dram := rfl
@[simp] theorem State.setGate_flash (s : State) (g : GateScan) : (s.setGate g).flash = s.flash := rfl
@[simp] theorem State.setGate_sys (s : State) (g : GateScan) : (s.setGate g).sys = s.sys := rfl
@[simp] theorem State.setGate_ut (s : State) (g : GateScan) : (s.setGate g).ut = s.ut := rfl
@[simp] theorem State.setGate_si (s : State) (g : GateScan) : (s.setGate g).si = s.si := rfl
@[simp] theorem State.setGate_wp (s : State) (g : GateScan) : (s.setGate g).wp = s.wp := rfl
@[simp] theorem State.setGate_js (s : State) (g : GateScan) : (s.setGate g).js = s.js := rfl
@[simp] theorem State.setGate_bu (s : State) (g : GateScan) : (s.setGate g).bu = s.bu := rfl
@[simp] theorem State.setGate_fl (s : State) (g : GateScan) : (s.setGate g).fl = s.fl := rfl
@[simp] theorem State.setGate_hp (s : State) (g : GateScan) : (s.setGate g).hp = s.hp := rfl
@[simp] theorem State.setGate_inn (s : State) (g : GateScan) : (s.setGate g).inn = s.inn := rfl
@[simp] theorem State.setGate_le (s : State) (g : GateScan) : (s.setGate g).le = s.le := rfl
@[simp] theorem State.setGate_mo (s : State) (g : GateScan) : (s.setGate g).mo = s.mo := rfl
@[simp] theorem State.setGate_mf (s : State) (g : GateScan) : (s.setGate g).mf = s.mf := rfl
@[simp] theorem State.setGate_hl (s : State) (g : GateScan) : (s.setGate g).hl = s.hl := rfl
@[simp] theorem State.setGate_tn (s : State) (g : GateScan) : (s.setGate g).tn = s.tn := rfl
@[simp] theorem State.setGate_au (s : State) (g : GateScan) : (s.setGate g).au = s.au := rfl
@[simp] theorem State.setGate_cz (s : State) (g : GateScan) : (s.setGate g).cz = s.cz := rfl
@[simp] theorem State.setGate_an (s : State) (g : GateScan) : (s.setGate g).an = s.an := rfl
@[simp] theorem State.setGate_ts (s : State) (g : GateScan) : (s.setGate g).ts = s.ts := rfl

/-! setSeg changes `inn`. -/

@[simp] theorem State.setSeg_pending (s : State) (k : Nat) (g : SegState) : (s.setSeg k g).pending = s.pending := rfl
@[simp] theorem State.setSeg_now (s : State) (k : Nat) (g : SegState) : (s.setSeg k g).now = s.now := rfl
@[simp] theorem State.setSeg_free (s : State) (k : Nat) (g : SegState) : (s.setSeg k g).free = s.free := rfl
@[simp] theorem State.setSeg_bus (s : State) (k : Nat) (g : SegState) : (s.setSeg k g).bus = s.bus := rfl
@[simp] theorem State.setSeg_regs (s : State) (k : Nat) (g : SegState) : (s.setSeg k g).regs = s.regs := rfl
@[simp] theorem State.setSeg_dram (s : State) (k : Nat) (g : SegState) : (s.setSeg k g).dram = s.dram := rfl
@[simp] theorem State.setSeg_flash (s : State) (k : Nat) (g : SegState) : (s.setSeg k g).flash = s.flash := rfl
@[simp] theorem State.setSeg_sys (s : State) (k : Nat) (g : SegState) : (s.setSeg k g).sys = s.sys := rfl
@[simp] theorem State.setSeg_ut (s : State) (k : Nat) (g : SegState) : (s.setSeg k g).ut = s.ut := rfl
@[simp] theorem State.setSeg_si (s : State) (k : Nat) (g : SegState) : (s.setSeg k g).si = s.si := rfl
@[simp] theorem State.setSeg_wp (s : State) (k : Nat) (g : SegState) : (s.setSeg k g).wp = s.wp := rfl
@[simp] theorem State.setSeg_js (s : State) (k : Nat) (g : SegState) : (s.setSeg k g).js = s.js := rfl
@[simp] theorem State.setSeg_bu (s : State) (k : Nat) (g : SegState) : (s.setSeg k g).bu = s.bu := rfl
@[simp] theorem State.setSeg_fl (s : State) (k : Nat) (g : SegState) : (s.setSeg k g).fl = s.fl := rfl
@[simp] theorem State.setSeg_hp (s : State) (k : Nat) (g : SegState) : (s.setSeg k g).hp = s.hp := rfl
@[simp] theorem State.setSeg_nh (s : State) (k : Nat) (g : SegState) : (s.setSeg k g).nh = s.nh := rfl
@[simp] theorem State.setSeg_le (s : State) (k : Nat) (g : SegState) : (s.setSeg k g).le = s.le := rfl
@[simp] theorem State.setSeg_mo (s : State) (k : Nat) (g : SegState) : (s.setSeg k g).mo = s.mo := rfl
@[simp] theorem State.setSeg_mf (s : State) (k : Nat) (g : SegState) : (s.setSeg k g).mf = s.mf := rfl
@[simp] theorem State.setSeg_hl (s : State) (k : Nat) (g : SegState) : (s.setSeg k g).hl = s.hl := rfl
@[simp] theorem State.setSeg_tn (s : State) (k : Nat) (g : SegState) : (s.setSeg k g).tn = s.tn := rfl
@[simp] theorem State.setSeg_au (s : State) (k : Nat) (g : SegState) : (s.setSeg k g).au = s.au := rfl
@[simp] theorem State.setSeg_cz (s : State) (k : Nat) (g : SegState) : (s.setSeg k g).cz = s.cz := rfl
@[simp] theorem State.setSeg_an (s : State) (k : Nat) (g : SegState) : (s.setSeg k g).an = s.an := rfl
@[simp] theorem State.setSeg_ts (s : State) (k : Nat) (g : SegState) : (s.setSeg k g).ts = s.ts := rfl

/-! setCtx changes `le`. -/

@[simp] theorem State.setCtx_pending (s : State) (c : Nat) (x : LoopCtx) : (s.setCtx c x).pending = s.pending := rfl
@[simp] theorem State.setCtx_now (s : State) (c : Nat) (x : LoopCtx) : (s.setCtx c x).now = s.now := rfl
@[simp] theorem State.setCtx_free (s : State) (c : Nat) (x : LoopCtx) : (s.setCtx c x).free = s.free := rfl
@[simp] theorem State.setCtx_bus (s : State) (c : Nat) (x : LoopCtx) : (s.setCtx c x).bus = s.bus := rfl
@[simp] theorem State.setCtx_regs (s : State) (c : Nat) (x : LoopCtx) : (s.setCtx c x).regs = s.regs := rfl
@[simp] theorem State.setCtx_dram (s : State) (c : Nat) (x : LoopCtx) : (s.setCtx c x).dram = s.dram := rfl
@[simp] theorem State.setCtx_flash (s : State) (c : Nat) (x : LoopCtx) : (s.setCtx c x).flash = s.flash := rfl
@[simp] theorem State.setCtx_sys (s : State) (c : Nat) (x : LoopCtx) : (s.setCtx c x).sys = s.sys := rfl
@[simp] theorem State.setCtx_ut (s : State) (c : Nat) (x : LoopCtx) : (s.setCtx c x).ut = s.ut := rfl
@[simp] theorem State.setCtx_si (s : State) (c : Nat) (x : LoopCtx) : (s.setCtx c x).si = s.si := rfl
@[simp] theorem State.setCtx_wp (s : State) (c : Nat) (x : LoopCtx) : (s.setCtx c x).wp = s.wp := rfl
@[simp] theorem State.setCtx_js (s : State) (c : Nat) (x : LoopCtx) : (s.setCtx c x).js = s.js := rfl
@[simp] theorem State.setCtx_bu (s : State) (c : Nat) (x : LoopCtx) : (s.setCtx c x).bu = s.bu := rfl
@[simp] theorem State.setCtx_fl (s : State) (c : Nat) (x : LoopCtx) : (s.setCtx c x).fl = s.fl := rfl
@[simp] theorem State.setCtx_hp (s : State) (c : Nat) (x : LoopCtx) : (s.setCtx c x).hp = s.hp := rfl
@[simp] theorem State.setCtx_nh (s : State) (c : Nat) (x : LoopCtx) : (s.setCtx c x).nh = s.nh := rfl
@[simp] theorem State.setCtx_inn (s : State) (c : Nat) (x : LoopCtx) : (s.setCtx c x).inn = s.inn := rfl
@[simp] theorem State.setCtx_mo (s : State) (c : Nat) (x : LoopCtx) : (s.setCtx c x).mo = s.mo := rfl
@[simp] theorem State.setCtx_mf (s : State) (c : Nat) (x : LoopCtx) : (s.setCtx c x).mf = s.mf := rfl
@[simp] theorem State.setCtx_hl (s : State) (c : Nat) (x : LoopCtx) : (s.setCtx c x).hl = s.hl := rfl
@[simp] theorem State.setCtx_tn (s : State) (c : Nat) (x : LoopCtx) : (s.setCtx c x).tn = s.tn := rfl
@[simp] theorem State.setCtx_au (s : State) (c : Nat) (x : LoopCtx) : (s.setCtx c x).au = s.au := rfl
@[simp] theorem State.setCtx_cz (s : State) (c : Nat) (x : LoopCtx) : (s.setCtx c x).cz = s.cz := rfl
@[simp] theorem State.setCtx_an (s : State) (c : Nat) (x : LoopCtx) : (s.setCtx c x).an = s.an := rfl
@[simp] theorem State.setCtx_ts (s : State) (c : Nat) (x : LoopCtx) : (s.setCtx c x).ts = s.ts := rfl

/-! setAxis changes `mo`. -/

@[simp] theorem State.setAxis_pending (s : State) (a : Nat) (x : Axis) : (s.setAxis a x).pending = s.pending := rfl
@[simp] theorem State.setAxis_now (s : State) (a : Nat) (x : Axis) : (s.setAxis a x).now = s.now := rfl
@[simp] theorem State.setAxis_free (s : State) (a : Nat) (x : Axis) : (s.setAxis a x).free = s.free := rfl
@[simp] theorem State.setAxis_bus (s : State) (a : Nat) (x : Axis) : (s.setAxis a x).bus = s.bus := rfl
@[simp] theorem State.setAxis_regs (s : State) (a : Nat) (x : Axis) : (s.setAxis a x).regs = s.regs := rfl
@[simp] theorem State.setAxis_dram (s : State) (a : Nat) (x : Axis) : (s.setAxis a x).dram = s.dram := rfl
@[simp] theorem State.setAxis_flash (s : State) (a : Nat) (x : Axis) : (s.setAxis a x).flash = s.flash := rfl
@[simp] theorem State.setAxis_sys (s : State) (a : Nat) (x : Axis) : (s.setAxis a x).sys = s.sys := rfl
@[simp] theorem State.setAxis_ut (s : State) (a : Nat) (x : Axis) : (s.setAxis a x).ut = s.ut := rfl
@[simp] theorem State.setAxis_si (s : State) (a : Nat) (x : Axis) : (s.setAxis a x).si = s.si := rfl
@[simp] theorem State.setAxis_wp (s : State) (a : Nat) (x : Axis) : (s.setAxis a x).wp = s.wp := rfl
@[simp] theorem State.setAxis_js (s : State) (a : Nat) (x : Axis) : (s.setAxis a x).js = s.js := rfl
@[simp] theorem State.setAxis_bu (s : State) (a : Nat) (x : Axis) : (s.setAxis a x).bu = s.bu := rfl
@[simp] theorem State.setAxis_fl (s : State) (a : Nat) (x : Axis) : (s.setAxis a x).fl = s.fl := rfl
@[simp] theorem State.setAxis_hp (s : State) (a : Nat) (x : Axis) : (s.setAxis a x).hp = s.hp := rfl
@[simp] theorem State.setAxis_nh (s : State) (a : Nat) (x : Axis) : (s.setAxis a x).nh = s.nh := rfl
@[simp] theorem State.setAxis_inn (s : State) (a : Nat) (x : Axis) : (s.setAxis a x).inn = s.inn := rfl
@[simp] theorem State.setAxis_le (s : State) (a : Nat) (x : Axis) : (s.setAxis a x).le = s.le := rfl
@[simp] theorem State.setAxis_mf (s : State) (a : Nat) (x : Axis) : (s.setAxis a x).mf = s.mf := rfl
@[simp] theorem State.setAxis_hl (s : State) (a : Nat) (x : Axis) : (s.setAxis a x).hl = s.hl := rfl
@[simp] theorem State.setAxis_tn (s : State) (a : Nat) (x : Axis) : (s.setAxis a x).tn = s.tn := rfl
@[simp] theorem State.setAxis_au (s : State) (a : Nat) (x : Axis) : (s.setAxis a x).au = s.au := rfl
@[simp] theorem State.setAxis_cz (s : State) (a : Nat) (x : Axis) : (s.setAxis a x).cz = s.cz := rfl
@[simp] theorem State.setAxis_an (s : State) (a : Nat) (x : Axis) : (s.setAxis a x).an = s.an := rfl
@[simp] theorem State.setAxis_ts (s : State) (a : Nat) (x : Axis) : (s.setAxis a x).ts = s.ts := rfl

/-! setMoCmp changes `mo`. -/

@[simp] theorem State.setMoCmp_pending (s : State) (k : Nat) (c : Cmp) : (s.setMoCmp k c).pending = s.pending := rfl
@[simp] theorem State.setMoCmp_now (s : State) (k : Nat) (c : Cmp) : (s.setMoCmp k c).now = s.now := rfl
@[simp] theorem State.setMoCmp_free (s : State) (k : Nat) (c : Cmp) : (s.setMoCmp k c).free = s.free := rfl
@[simp] theorem State.setMoCmp_bus (s : State) (k : Nat) (c : Cmp) : (s.setMoCmp k c).bus = s.bus := rfl
@[simp] theorem State.setMoCmp_regs (s : State) (k : Nat) (c : Cmp) : (s.setMoCmp k c).regs = s.regs := rfl
@[simp] theorem State.setMoCmp_dram (s : State) (k : Nat) (c : Cmp) : (s.setMoCmp k c).dram = s.dram := rfl
@[simp] theorem State.setMoCmp_flash (s : State) (k : Nat) (c : Cmp) : (s.setMoCmp k c).flash = s.flash := rfl
@[simp] theorem State.setMoCmp_sys (s : State) (k : Nat) (c : Cmp) : (s.setMoCmp k c).sys = s.sys := rfl
@[simp] theorem State.setMoCmp_ut (s : State) (k : Nat) (c : Cmp) : (s.setMoCmp k c).ut = s.ut := rfl
@[simp] theorem State.setMoCmp_si (s : State) (k : Nat) (c : Cmp) : (s.setMoCmp k c).si = s.si := rfl
@[simp] theorem State.setMoCmp_wp (s : State) (k : Nat) (c : Cmp) : (s.setMoCmp k c).wp = s.wp := rfl
@[simp] theorem State.setMoCmp_js (s : State) (k : Nat) (c : Cmp) : (s.setMoCmp k c).js = s.js := rfl
@[simp] theorem State.setMoCmp_bu (s : State) (k : Nat) (c : Cmp) : (s.setMoCmp k c).bu = s.bu := rfl
@[simp] theorem State.setMoCmp_fl (s : State) (k : Nat) (c : Cmp) : (s.setMoCmp k c).fl = s.fl := rfl
@[simp] theorem State.setMoCmp_hp (s : State) (k : Nat) (c : Cmp) : (s.setMoCmp k c).hp = s.hp := rfl
@[simp] theorem State.setMoCmp_nh (s : State) (k : Nat) (c : Cmp) : (s.setMoCmp k c).nh = s.nh := rfl
@[simp] theorem State.setMoCmp_inn (s : State) (k : Nat) (c : Cmp) : (s.setMoCmp k c).inn = s.inn := rfl
@[simp] theorem State.setMoCmp_le (s : State) (k : Nat) (c : Cmp) : (s.setMoCmp k c).le = s.le := rfl
@[simp] theorem State.setMoCmp_mf (s : State) (k : Nat) (c : Cmp) : (s.setMoCmp k c).mf = s.mf := rfl
@[simp] theorem State.setMoCmp_hl (s : State) (k : Nat) (c : Cmp) : (s.setMoCmp k c).hl = s.hl := rfl
@[simp] theorem State.setMoCmp_tn (s : State) (k : Nat) (c : Cmp) : (s.setMoCmp k c).tn = s.tn := rfl
@[simp] theorem State.setMoCmp_au (s : State) (k : Nat) (c : Cmp) : (s.setMoCmp k c).au = s.au := rfl
@[simp] theorem State.setMoCmp_cz (s : State) (k : Nat) (c : Cmp) : (s.setMoCmp k c).cz = s.cz := rfl
@[simp] theorem State.setMoCmp_an (s : State) (k : Nat) (c : Cmp) : (s.setMoCmp k c).an = s.an := rfl
@[simp] theorem State.setMoCmp_ts (s : State) (k : Nat) (c : Cmp) : (s.setMoCmp k c).ts = s.ts := rfl

/-! setArb changes `mf`. -/

@[simp] theorem State.setArb_pending (s : State) (a : Nat) (x : ArbState) : (s.setArb a x).pending = s.pending := rfl
@[simp] theorem State.setArb_now (s : State) (a : Nat) (x : ArbState) : (s.setArb a x).now = s.now := rfl
@[simp] theorem State.setArb_free (s : State) (a : Nat) (x : ArbState) : (s.setArb a x).free = s.free := rfl
@[simp] theorem State.setArb_bus (s : State) (a : Nat) (x : ArbState) : (s.setArb a x).bus = s.bus := rfl
@[simp] theorem State.setArb_regs (s : State) (a : Nat) (x : ArbState) : (s.setArb a x).regs = s.regs := rfl
@[simp] theorem State.setArb_dram (s : State) (a : Nat) (x : ArbState) : (s.setArb a x).dram = s.dram := rfl
@[simp] theorem State.setArb_flash (s : State) (a : Nat) (x : ArbState) : (s.setArb a x).flash = s.flash := rfl
@[simp] theorem State.setArb_sys (s : State) (a : Nat) (x : ArbState) : (s.setArb a x).sys = s.sys := rfl
@[simp] theorem State.setArb_ut (s : State) (a : Nat) (x : ArbState) : (s.setArb a x).ut = s.ut := rfl
@[simp] theorem State.setArb_si (s : State) (a : Nat) (x : ArbState) : (s.setArb a x).si = s.si := rfl
@[simp] theorem State.setArb_wp (s : State) (a : Nat) (x : ArbState) : (s.setArb a x).wp = s.wp := rfl
@[simp] theorem State.setArb_js (s : State) (a : Nat) (x : ArbState) : (s.setArb a x).js = s.js := rfl
@[simp] theorem State.setArb_bu (s : State) (a : Nat) (x : ArbState) : (s.setArb a x).bu = s.bu := rfl
@[simp] theorem State.setArb_fl (s : State) (a : Nat) (x : ArbState) : (s.setArb a x).fl = s.fl := rfl
@[simp] theorem State.setArb_hp (s : State) (a : Nat) (x : ArbState) : (s.setArb a x).hp = s.hp := rfl
@[simp] theorem State.setArb_nh (s : State) (a : Nat) (x : ArbState) : (s.setArb a x).nh = s.nh := rfl
@[simp] theorem State.setArb_inn (s : State) (a : Nat) (x : ArbState) : (s.setArb a x).inn = s.inn := rfl
@[simp] theorem State.setArb_le (s : State) (a : Nat) (x : ArbState) : (s.setArb a x).le = s.le := rfl
@[simp] theorem State.setArb_mo (s : State) (a : Nat) (x : ArbState) : (s.setArb a x).mo = s.mo := rfl
@[simp] theorem State.setArb_hl (s : State) (a : Nat) (x : ArbState) : (s.setArb a x).hl = s.hl := rfl
@[simp] theorem State.setArb_tn (s : State) (a : Nat) (x : ArbState) : (s.setArb a x).tn = s.tn := rfl
@[simp] theorem State.setArb_au (s : State) (a : Nat) (x : ArbState) : (s.setArb a x).au = s.au := rfl
@[simp] theorem State.setArb_cz (s : State) (a : Nat) (x : ArbState) : (s.setArb a x).cz = s.cz := rfl
@[simp] theorem State.setArb_an (s : State) (a : Nat) (x : ArbState) : (s.setArb a x).an = s.an := rfl
@[simp] theorem State.setArb_ts (s : State) (a : Nat) (x : ArbState) : (s.setArb a x).ts = s.ts := rfl

/-! setDch changes `mf`. -/

@[simp] theorem State.setDch_pending (s : State) (c : Nat) (x : DramCh) : (s.setDch c x).pending = s.pending := rfl
@[simp] theorem State.setDch_now (s : State) (c : Nat) (x : DramCh) : (s.setDch c x).now = s.now := rfl
@[simp] theorem State.setDch_free (s : State) (c : Nat) (x : DramCh) : (s.setDch c x).free = s.free := rfl
@[simp] theorem State.setDch_bus (s : State) (c : Nat) (x : DramCh) : (s.setDch c x).bus = s.bus := rfl
@[simp] theorem State.setDch_regs (s : State) (c : Nat) (x : DramCh) : (s.setDch c x).regs = s.regs := rfl
@[simp] theorem State.setDch_dram (s : State) (c : Nat) (x : DramCh) : (s.setDch c x).dram = s.dram := rfl
@[simp] theorem State.setDch_flash (s : State) (c : Nat) (x : DramCh) : (s.setDch c x).flash = s.flash := rfl
@[simp] theorem State.setDch_sys (s : State) (c : Nat) (x : DramCh) : (s.setDch c x).sys = s.sys := rfl
@[simp] theorem State.setDch_ut (s : State) (c : Nat) (x : DramCh) : (s.setDch c x).ut = s.ut := rfl
@[simp] theorem State.setDch_si (s : State) (c : Nat) (x : DramCh) : (s.setDch c x).si = s.si := rfl
@[simp] theorem State.setDch_wp (s : State) (c : Nat) (x : DramCh) : (s.setDch c x).wp = s.wp := rfl
@[simp] theorem State.setDch_js (s : State) (c : Nat) (x : DramCh) : (s.setDch c x).js = s.js := rfl
@[simp] theorem State.setDch_bu (s : State) (c : Nat) (x : DramCh) : (s.setDch c x).bu = s.bu := rfl
@[simp] theorem State.setDch_fl (s : State) (c : Nat) (x : DramCh) : (s.setDch c x).fl = s.fl := rfl
@[simp] theorem State.setDch_hp (s : State) (c : Nat) (x : DramCh) : (s.setDch c x).hp = s.hp := rfl
@[simp] theorem State.setDch_nh (s : State) (c : Nat) (x : DramCh) : (s.setDch c x).nh = s.nh := rfl
@[simp] theorem State.setDch_inn (s : State) (c : Nat) (x : DramCh) : (s.setDch c x).inn = s.inn := rfl
@[simp] theorem State.setDch_le (s : State) (c : Nat) (x : DramCh) : (s.setDch c x).le = s.le := rfl
@[simp] theorem State.setDch_mo (s : State) (c : Nat) (x : DramCh) : (s.setDch c x).mo = s.mo := rfl
@[simp] theorem State.setDch_hl (s : State) (c : Nat) (x : DramCh) : (s.setDch c x).hl = s.hl := rfl
@[simp] theorem State.setDch_tn (s : State) (c : Nat) (x : DramCh) : (s.setDch c x).tn = s.tn := rfl
@[simp] theorem State.setDch_au (s : State) (c : Nat) (x : DramCh) : (s.setDch c x).au = s.au := rfl
@[simp] theorem State.setDch_cz (s : State) (c : Nat) (x : DramCh) : (s.setDch c x).cz = s.cz := rfl
@[simp] theorem State.setDch_an (s : State) (c : Nat) (x : DramCh) : (s.setDch c x).an = s.an := rfl
@[simp] theorem State.setDch_ts (s : State) (c : Nat) (x : DramCh) : (s.setDch c x).ts = s.ts := rfl

/-! setGrp changes `hl`. -/

@[simp] theorem State.setGrp_pending (s : State) (g : Nat) (x : LinkGroup) : (s.setGrp g x).pending = s.pending := rfl
@[simp] theorem State.setGrp_now (s : State) (g : Nat) (x : LinkGroup) : (s.setGrp g x).now = s.now := rfl
@[simp] theorem State.setGrp_free (s : State) (g : Nat) (x : LinkGroup) : (s.setGrp g x).free = s.free := rfl
@[simp] theorem State.setGrp_bus (s : State) (g : Nat) (x : LinkGroup) : (s.setGrp g x).bus = s.bus := rfl
@[simp] theorem State.setGrp_regs (s : State) (g : Nat) (x : LinkGroup) : (s.setGrp g x).regs = s.regs := rfl
@[simp] theorem State.setGrp_dram (s : State) (g : Nat) (x : LinkGroup) : (s.setGrp g x).dram = s.dram := rfl
@[simp] theorem State.setGrp_flash (s : State) (g : Nat) (x : LinkGroup) : (s.setGrp g x).flash = s.flash := rfl
@[simp] theorem State.setGrp_sys (s : State) (g : Nat) (x : LinkGroup) : (s.setGrp g x).sys = s.sys := rfl
@[simp] theorem State.setGrp_ut (s : State) (g : Nat) (x : LinkGroup) : (s.setGrp g x).ut = s.ut := rfl
@[simp] theorem State.setGrp_si (s : State) (g : Nat) (x : LinkGroup) : (s.setGrp g x).si = s.si := rfl
@[simp] theorem State.setGrp_wp (s : State) (g : Nat) (x : LinkGroup) : (s.setGrp g x).wp = s.wp := rfl
@[simp] theorem State.setGrp_js (s : State) (g : Nat) (x : LinkGroup) : (s.setGrp g x).js = s.js := rfl
@[simp] theorem State.setGrp_bu (s : State) (g : Nat) (x : LinkGroup) : (s.setGrp g x).bu = s.bu := rfl
@[simp] theorem State.setGrp_fl (s : State) (g : Nat) (x : LinkGroup) : (s.setGrp g x).fl = s.fl := rfl
@[simp] theorem State.setGrp_hp (s : State) (g : Nat) (x : LinkGroup) : (s.setGrp g x).hp = s.hp := rfl
@[simp] theorem State.setGrp_nh (s : State) (g : Nat) (x : LinkGroup) : (s.setGrp g x).nh = s.nh := rfl
@[simp] theorem State.setGrp_inn (s : State) (g : Nat) (x : LinkGroup) : (s.setGrp g x).inn = s.inn := rfl
@[simp] theorem State.setGrp_le (s : State) (g : Nat) (x : LinkGroup) : (s.setGrp g x).le = s.le := rfl
@[simp] theorem State.setGrp_mo (s : State) (g : Nat) (x : LinkGroup) : (s.setGrp g x).mo = s.mo := rfl
@[simp] theorem State.setGrp_mf (s : State) (g : Nat) (x : LinkGroup) : (s.setGrp g x).mf = s.mf := rfl
@[simp] theorem State.setGrp_tn (s : State) (g : Nat) (x : LinkGroup) : (s.setGrp g x).tn = s.tn := rfl
@[simp] theorem State.setGrp_au (s : State) (g : Nat) (x : LinkGroup) : (s.setGrp g x).au = s.au := rfl
@[simp] theorem State.setGrp_cz (s : State) (g : Nat) (x : LinkGroup) : (s.setGrp g x).cz = s.cz := rfl
@[simp] theorem State.setGrp_an (s : State) (g : Nat) (x : LinkGroup) : (s.setGrp g x).an = s.an := rfl
@[simp] theorem State.setGrp_ts (s : State) (g : Nat) (x : LinkGroup) : (s.setGrp g x).ts = s.ts := rfl

/-! setLane changes `hl`. -/

@[simp] theorem State.setLane_pending (s : State) (k : Nat) (x : LaneState) : (s.setLane k x).pending = s.pending := rfl
@[simp] theorem State.setLane_now (s : State) (k : Nat) (x : LaneState) : (s.setLane k x).now = s.now := rfl
@[simp] theorem State.setLane_free (s : State) (k : Nat) (x : LaneState) : (s.setLane k x).free = s.free := rfl
@[simp] theorem State.setLane_bus (s : State) (k : Nat) (x : LaneState) : (s.setLane k x).bus = s.bus := rfl
@[simp] theorem State.setLane_regs (s : State) (k : Nat) (x : LaneState) : (s.setLane k x).regs = s.regs := rfl
@[simp] theorem State.setLane_dram (s : State) (k : Nat) (x : LaneState) : (s.setLane k x).dram = s.dram := rfl
@[simp] theorem State.setLane_flash (s : State) (k : Nat) (x : LaneState) : (s.setLane k x).flash = s.flash := rfl
@[simp] theorem State.setLane_sys (s : State) (k : Nat) (x : LaneState) : (s.setLane k x).sys = s.sys := rfl
@[simp] theorem State.setLane_ut (s : State) (k : Nat) (x : LaneState) : (s.setLane k x).ut = s.ut := rfl
@[simp] theorem State.setLane_si (s : State) (k : Nat) (x : LaneState) : (s.setLane k x).si = s.si := rfl
@[simp] theorem State.setLane_wp (s : State) (k : Nat) (x : LaneState) : (s.setLane k x).wp = s.wp := rfl
@[simp] theorem State.setLane_js (s : State) (k : Nat) (x : LaneState) : (s.setLane k x).js = s.js := rfl
@[simp] theorem State.setLane_bu (s : State) (k : Nat) (x : LaneState) : (s.setLane k x).bu = s.bu := rfl
@[simp] theorem State.setLane_fl (s : State) (k : Nat) (x : LaneState) : (s.setLane k x).fl = s.fl := rfl
@[simp] theorem State.setLane_hp (s : State) (k : Nat) (x : LaneState) : (s.setLane k x).hp = s.hp := rfl
@[simp] theorem State.setLane_nh (s : State) (k : Nat) (x : LaneState) : (s.setLane k x).nh = s.nh := rfl
@[simp] theorem State.setLane_inn (s : State) (k : Nat) (x : LaneState) : (s.setLane k x).inn = s.inn := rfl
@[simp] theorem State.setLane_le (s : State) (k : Nat) (x : LaneState) : (s.setLane k x).le = s.le := rfl
@[simp] theorem State.setLane_mo (s : State) (k : Nat) (x : LaneState) : (s.setLane k x).mo = s.mo := rfl
@[simp] theorem State.setLane_mf (s : State) (k : Nat) (x : LaneState) : (s.setLane k x).mf = s.mf := rfl
@[simp] theorem State.setLane_tn (s : State) (k : Nat) (x : LaneState) : (s.setLane k x).tn = s.tn := rfl
@[simp] theorem State.setLane_au (s : State) (k : Nat) (x : LaneState) : (s.setLane k x).au = s.au := rfl
@[simp] theorem State.setLane_cz (s : State) (k : Nat) (x : LaneState) : (s.setLane k x).cz = s.cz := rfl
@[simp] theorem State.setLane_an (s : State) (k : Nat) (x : LaneState) : (s.setLane k x).an = s.an := rfl
@[simp] theorem State.setLane_ts (s : State) (k : Nat) (x : LaneState) : (s.setLane k x).ts = s.ts := rfl

/-! setDom changes `tn`. -/

@[simp] theorem State.setDom_pending (s : State) (b : Bool) (d : TimeDom) : (s.setDom b d).pending = s.pending := rfl
@[simp] theorem State.setDom_now (s : State) (b : Bool) (d : TimeDom) : (s.setDom b d).now = s.now := rfl
@[simp] theorem State.setDom_free (s : State) (b : Bool) (d : TimeDom) : (s.setDom b d).free = s.free := rfl
@[simp] theorem State.setDom_bus (s : State) (b : Bool) (d : TimeDom) : (s.setDom b d).bus = s.bus := rfl
@[simp] theorem State.setDom_regs (s : State) (b : Bool) (d : TimeDom) : (s.setDom b d).regs = s.regs := rfl
@[simp] theorem State.setDom_dram (s : State) (b : Bool) (d : TimeDom) : (s.setDom b d).dram = s.dram := rfl
@[simp] theorem State.setDom_flash (s : State) (b : Bool) (d : TimeDom) : (s.setDom b d).flash = s.flash := rfl
@[simp] theorem State.setDom_sys (s : State) (b : Bool) (d : TimeDom) : (s.setDom b d).sys = s.sys := rfl
@[simp] theorem State.setDom_ut (s : State) (b : Bool) (d : TimeDom) : (s.setDom b d).ut = s.ut := rfl
@[simp] theorem State.setDom_si (s : State) (b : Bool) (d : TimeDom) : (s.setDom b d).si = s.si := rfl
@[simp] theorem State.setDom_wp (s : State) (b : Bool) (d : TimeDom) : (s.setDom b d).wp = s.wp := rfl
@[simp] theorem State.setDom_js (s : State) (b : Bool) (d : TimeDom) : (s.setDom b d).js = s.js := rfl
@[simp] theorem State.setDom_bu (s : State) (b : Bool) (d : TimeDom) : (s.setDom b d).bu = s.bu := rfl
@[simp] theorem State.setDom_fl (s : State) (b : Bool) (d : TimeDom) : (s.setDom b d).fl = s.fl := rfl
@[simp] theorem State.setDom_hp (s : State) (b : Bool) (d : TimeDom) : (s.setDom b d).hp = s.hp := rfl
@[simp] theorem State.setDom_nh (s : State) (b : Bool) (d : TimeDom) : (s.setDom b d).nh = s.nh := rfl
@[simp] theorem State.setDom_inn (s : State) (b : Bool) (d : TimeDom) : (s.setDom b d).inn = s.inn := rfl
@[simp] theorem State.setDom_le (s : State) (b : Bool) (d : TimeDom) : (s.setDom b d).le = s.le := rfl
@[simp] theorem State.setDom_mo (s : State) (b : Bool) (d : TimeDom) : (s.setDom b d).mo = s.mo := rfl
@[simp] theorem State.setDom_mf (s : State) (b : Bool) (d : TimeDom) : (s.setDom b d).mf = s.mf := rfl
@[simp] theorem State.setDom_hl (s : State) (b : Bool) (d : TimeDom) : (s.setDom b d).hl = s.hl := rfl
@[simp] theorem State.setDom_au (s : State) (b : Bool) (d : TimeDom) : (s.setDom b d).au = s.au := rfl
@[simp] theorem State.setDom_cz (s : State) (b : Bool) (d : TimeDom) : (s.setDom b d).cz = s.cz := rfl
@[simp] theorem State.setDom_an (s : State) (b : Bool) (d : TimeDom) : (s.setDom b d).an = s.an := rfl
@[simp] theorem State.setDom_ts (s : State) (b : Bool) (d : TimeDom) : (s.setDom b d).ts = s.ts := rfl

/-! setBar changes `au`. -/

@[simp] theorem State.setBar_pending (s : State) (l : Nat) (b : BarLine) : (s.setBar l b).pending = s.pending := rfl
@[simp] theorem State.setBar_now (s : State) (l : Nat) (b : BarLine) : (s.setBar l b).now = s.now := rfl
@[simp] theorem State.setBar_free (s : State) (l : Nat) (b : BarLine) : (s.setBar l b).free = s.free := rfl
@[simp] theorem State.setBar_bus (s : State) (l : Nat) (b : BarLine) : (s.setBar l b).bus = s.bus := rfl
@[simp] theorem State.setBar_regs (s : State) (l : Nat) (b : BarLine) : (s.setBar l b).regs = s.regs := rfl
@[simp] theorem State.setBar_dram (s : State) (l : Nat) (b : BarLine) : (s.setBar l b).dram = s.dram := rfl
@[simp] theorem State.setBar_flash (s : State) (l : Nat) (b : BarLine) : (s.setBar l b).flash = s.flash := rfl
@[simp] theorem State.setBar_sys (s : State) (l : Nat) (b : BarLine) : (s.setBar l b).sys = s.sys := rfl
@[simp] theorem State.setBar_ut (s : State) (l : Nat) (b : BarLine) : (s.setBar l b).ut = s.ut := rfl
@[simp] theorem State.setBar_si (s : State) (l : Nat) (b : BarLine) : (s.setBar l b).si = s.si := rfl
@[simp] theorem State.setBar_wp (s : State) (l : Nat) (b : BarLine) : (s.setBar l b).wp = s.wp := rfl
@[simp] theorem State.setBar_js (s : State) (l : Nat) (b : BarLine) : (s.setBar l b).js = s.js := rfl
@[simp] theorem State.setBar_bu (s : State) (l : Nat) (b : BarLine) : (s.setBar l b).bu = s.bu := rfl
@[simp] theorem State.setBar_fl (s : State) (l : Nat) (b : BarLine) : (s.setBar l b).fl = s.fl := rfl
@[simp] theorem State.setBar_hp (s : State) (l : Nat) (b : BarLine) : (s.setBar l b).hp = s.hp := rfl
@[simp] theorem State.setBar_nh (s : State) (l : Nat) (b : BarLine) : (s.setBar l b).nh = s.nh := rfl
@[simp] theorem State.setBar_inn (s : State) (l : Nat) (b : BarLine) : (s.setBar l b).inn = s.inn := rfl
@[simp] theorem State.setBar_le (s : State) (l : Nat) (b : BarLine) : (s.setBar l b).le = s.le := rfl
@[simp] theorem State.setBar_mo (s : State) (l : Nat) (b : BarLine) : (s.setBar l b).mo = s.mo := rfl
@[simp] theorem State.setBar_mf (s : State) (l : Nat) (b : BarLine) : (s.setBar l b).mf = s.mf := rfl
@[simp] theorem State.setBar_hl (s : State) (l : Nat) (b : BarLine) : (s.setBar l b).hl = s.hl := rfl
@[simp] theorem State.setBar_tn (s : State) (l : Nat) (b : BarLine) : (s.setBar l b).tn = s.tn := rfl
@[simp] theorem State.setBar_cz (s : State) (l : Nat) (b : BarLine) : (s.setBar l b).cz = s.cz := rfl
@[simp] theorem State.setBar_an (s : State) (l : Nat) (b : BarLine) : (s.setBar l b).an = s.an := rfl
@[simp] theorem State.setBar_ts (s : State) (l : Nat) (b : BarLine) : (s.setBar l b).ts = s.ts := rfl

/-! setDec changes `cz`. -/

@[simp] theorem State.setDec_pending (s : State) (d : Nat) (j : Option DecJob) : (s.setDec d j).pending = s.pending := rfl
@[simp] theorem State.setDec_now (s : State) (d : Nat) (j : Option DecJob) : (s.setDec d j).now = s.now := rfl
@[simp] theorem State.setDec_free (s : State) (d : Nat) (j : Option DecJob) : (s.setDec d j).free = s.free := rfl
@[simp] theorem State.setDec_bus (s : State) (d : Nat) (j : Option DecJob) : (s.setDec d j).bus = s.bus := rfl
@[simp] theorem State.setDec_regs (s : State) (d : Nat) (j : Option DecJob) : (s.setDec d j).regs = s.regs := rfl
@[simp] theorem State.setDec_dram (s : State) (d : Nat) (j : Option DecJob) : (s.setDec d j).dram = s.dram := rfl
@[simp] theorem State.setDec_flash (s : State) (d : Nat) (j : Option DecJob) : (s.setDec d j).flash = s.flash := rfl
@[simp] theorem State.setDec_sys (s : State) (d : Nat) (j : Option DecJob) : (s.setDec d j).sys = s.sys := rfl
@[simp] theorem State.setDec_ut (s : State) (d : Nat) (j : Option DecJob) : (s.setDec d j).ut = s.ut := rfl
@[simp] theorem State.setDec_si (s : State) (d : Nat) (j : Option DecJob) : (s.setDec d j).si = s.si := rfl
@[simp] theorem State.setDec_wp (s : State) (d : Nat) (j : Option DecJob) : (s.setDec d j).wp = s.wp := rfl
@[simp] theorem State.setDec_js (s : State) (d : Nat) (j : Option DecJob) : (s.setDec d j).js = s.js := rfl
@[simp] theorem State.setDec_bu (s : State) (d : Nat) (j : Option DecJob) : (s.setDec d j).bu = s.bu := rfl
@[simp] theorem State.setDec_fl (s : State) (d : Nat) (j : Option DecJob) : (s.setDec d j).fl = s.fl := rfl
@[simp] theorem State.setDec_hp (s : State) (d : Nat) (j : Option DecJob) : (s.setDec d j).hp = s.hp := rfl
@[simp] theorem State.setDec_nh (s : State) (d : Nat) (j : Option DecJob) : (s.setDec d j).nh = s.nh := rfl
@[simp] theorem State.setDec_inn (s : State) (d : Nat) (j : Option DecJob) : (s.setDec d j).inn = s.inn := rfl
@[simp] theorem State.setDec_le (s : State) (d : Nat) (j : Option DecJob) : (s.setDec d j).le = s.le := rfl
@[simp] theorem State.setDec_mo (s : State) (d : Nat) (j : Option DecJob) : (s.setDec d j).mo = s.mo := rfl
@[simp] theorem State.setDec_mf (s : State) (d : Nat) (j : Option DecJob) : (s.setDec d j).mf = s.mf := rfl
@[simp] theorem State.setDec_hl (s : State) (d : Nat) (j : Option DecJob) : (s.setDec d j).hl = s.hl := rfl
@[simp] theorem State.setDec_tn (s : State) (d : Nat) (j : Option DecJob) : (s.setDec d j).tn = s.tn := rfl
@[simp] theorem State.setDec_au (s : State) (d : Nat) (j : Option DecJob) : (s.setDec d j).au = s.au := rfl
@[simp] theorem State.setDec_an (s : State) (d : Nat) (j : Option DecJob) : (s.setDec d j).an = s.an := rfl
@[simp] theorem State.setDec_ts (s : State) (d : Nat) (j : Option DecJob) : (s.setDec d j).ts = s.ts := rfl

/-! setSupply changes `an`. -/

@[simp] theorem State.setSupply_pending (s : State) (c : Nat) (x : SupplyCh) : (s.setSupply c x).pending = s.pending := rfl
@[simp] theorem State.setSupply_now (s : State) (c : Nat) (x : SupplyCh) : (s.setSupply c x).now = s.now := rfl
@[simp] theorem State.setSupply_free (s : State) (c : Nat) (x : SupplyCh) : (s.setSupply c x).free = s.free := rfl
@[simp] theorem State.setSupply_bus (s : State) (c : Nat) (x : SupplyCh) : (s.setSupply c x).bus = s.bus := rfl
@[simp] theorem State.setSupply_regs (s : State) (c : Nat) (x : SupplyCh) : (s.setSupply c x).regs = s.regs := rfl
@[simp] theorem State.setSupply_dram (s : State) (c : Nat) (x : SupplyCh) : (s.setSupply c x).dram = s.dram := rfl
@[simp] theorem State.setSupply_flash (s : State) (c : Nat) (x : SupplyCh) : (s.setSupply c x).flash = s.flash := rfl
@[simp] theorem State.setSupply_sys (s : State) (c : Nat) (x : SupplyCh) : (s.setSupply c x).sys = s.sys := rfl
@[simp] theorem State.setSupply_ut (s : State) (c : Nat) (x : SupplyCh) : (s.setSupply c x).ut = s.ut := rfl
@[simp] theorem State.setSupply_si (s : State) (c : Nat) (x : SupplyCh) : (s.setSupply c x).si = s.si := rfl
@[simp] theorem State.setSupply_wp (s : State) (c : Nat) (x : SupplyCh) : (s.setSupply c x).wp = s.wp := rfl
@[simp] theorem State.setSupply_js (s : State) (c : Nat) (x : SupplyCh) : (s.setSupply c x).js = s.js := rfl
@[simp] theorem State.setSupply_bu (s : State) (c : Nat) (x : SupplyCh) : (s.setSupply c x).bu = s.bu := rfl
@[simp] theorem State.setSupply_fl (s : State) (c : Nat) (x : SupplyCh) : (s.setSupply c x).fl = s.fl := rfl
@[simp] theorem State.setSupply_hp (s : State) (c : Nat) (x : SupplyCh) : (s.setSupply c x).hp = s.hp := rfl
@[simp] theorem State.setSupply_nh (s : State) (c : Nat) (x : SupplyCh) : (s.setSupply c x).nh = s.nh := rfl
@[simp] theorem State.setSupply_inn (s : State) (c : Nat) (x : SupplyCh) : (s.setSupply c x).inn = s.inn := rfl
@[simp] theorem State.setSupply_le (s : State) (c : Nat) (x : SupplyCh) : (s.setSupply c x).le = s.le := rfl
@[simp] theorem State.setSupply_mo (s : State) (c : Nat) (x : SupplyCh) : (s.setSupply c x).mo = s.mo := rfl
@[simp] theorem State.setSupply_mf (s : State) (c : Nat) (x : SupplyCh) : (s.setSupply c x).mf = s.mf := rfl
@[simp] theorem State.setSupply_hl (s : State) (c : Nat) (x : SupplyCh) : (s.setSupply c x).hl = s.hl := rfl
@[simp] theorem State.setSupply_tn (s : State) (c : Nat) (x : SupplyCh) : (s.setSupply c x).tn = s.tn := rfl
@[simp] theorem State.setSupply_au (s : State) (c : Nat) (x : SupplyCh) : (s.setSupply c x).au = s.au := rfl
@[simp] theorem State.setSupply_cz (s : State) (c : Nat) (x : SupplyCh) : (s.setSupply c x).cz = s.cz := rfl
@[simp] theorem State.setSupply_ts (s : State) (c : Nat) (x : SupplyCh) : (s.setSupply c x).ts = s.ts := rfl

/-! setCal changes `an`. -/

@[simp] theorem State.setCal_pending (s : State) (c : Option Cal) : (s.setCal c).pending = s.pending := rfl
@[simp] theorem State.setCal_now (s : State) (c : Option Cal) : (s.setCal c).now = s.now := rfl
@[simp] theorem State.setCal_free (s : State) (c : Option Cal) : (s.setCal c).free = s.free := rfl
@[simp] theorem State.setCal_bus (s : State) (c : Option Cal) : (s.setCal c).bus = s.bus := rfl
@[simp] theorem State.setCal_regs (s : State) (c : Option Cal) : (s.setCal c).regs = s.regs := rfl
@[simp] theorem State.setCal_dram (s : State) (c : Option Cal) : (s.setCal c).dram = s.dram := rfl
@[simp] theorem State.setCal_flash (s : State) (c : Option Cal) : (s.setCal c).flash = s.flash := rfl
@[simp] theorem State.setCal_sys (s : State) (c : Option Cal) : (s.setCal c).sys = s.sys := rfl
@[simp] theorem State.setCal_ut (s : State) (c : Option Cal) : (s.setCal c).ut = s.ut := rfl
@[simp] theorem State.setCal_si (s : State) (c : Option Cal) : (s.setCal c).si = s.si := rfl
@[simp] theorem State.setCal_wp (s : State) (c : Option Cal) : (s.setCal c).wp = s.wp := rfl
@[simp] theorem State.setCal_js (s : State) (c : Option Cal) : (s.setCal c).js = s.js := rfl
@[simp] theorem State.setCal_bu (s : State) (c : Option Cal) : (s.setCal c).bu = s.bu := rfl
@[simp] theorem State.setCal_fl (s : State) (c : Option Cal) : (s.setCal c).fl = s.fl := rfl
@[simp] theorem State.setCal_hp (s : State) (c : Option Cal) : (s.setCal c).hp = s.hp := rfl
@[simp] theorem State.setCal_nh (s : State) (c : Option Cal) : (s.setCal c).nh = s.nh := rfl
@[simp] theorem State.setCal_inn (s : State) (c : Option Cal) : (s.setCal c).inn = s.inn := rfl
@[simp] theorem State.setCal_le (s : State) (c : Option Cal) : (s.setCal c).le = s.le := rfl
@[simp] theorem State.setCal_mo (s : State) (c : Option Cal) : (s.setCal c).mo = s.mo := rfl
@[simp] theorem State.setCal_mf (s : State) (c : Option Cal) : (s.setCal c).mf = s.mf := rfl
@[simp] theorem State.setCal_hl (s : State) (c : Option Cal) : (s.setCal c).hl = s.hl := rfl
@[simp] theorem State.setCal_tn (s : State) (c : Option Cal) : (s.setCal c).tn = s.tn := rfl
@[simp] theorem State.setCal_au (s : State) (c : Option Cal) : (s.setCal c).au = s.au := rfl
@[simp] theorem State.setCal_cz (s : State) (c : Option Cal) : (s.setCal c).cz = s.cz := rfl
@[simp] theorem State.setCal_ts (s : State) (c : Option Cal) : (s.setCal c).ts = s.ts := rfl

/-! setTs changes `ts`. -/

@[simp] theorem State.setTs_pending (s : State) (t : TsState) : (s.setTs t).pending = s.pending := rfl
@[simp] theorem State.setTs_now (s : State) (t : TsState) : (s.setTs t).now = s.now := rfl
@[simp] theorem State.setTs_free (s : State) (t : TsState) : (s.setTs t).free = s.free := rfl
@[simp] theorem State.setTs_bus (s : State) (t : TsState) : (s.setTs t).bus = s.bus := rfl
@[simp] theorem State.setTs_regs (s : State) (t : TsState) : (s.setTs t).regs = s.regs := rfl
@[simp] theorem State.setTs_dram (s : State) (t : TsState) : (s.setTs t).dram = s.dram := rfl
@[simp] theorem State.setTs_flash (s : State) (t : TsState) : (s.setTs t).flash = s.flash := rfl
@[simp] theorem State.setTs_sys (s : State) (t : TsState) : (s.setTs t).sys = s.sys := rfl
@[simp] theorem State.setTs_ut (s : State) (t : TsState) : (s.setTs t).ut = s.ut := rfl
@[simp] theorem State.setTs_si (s : State) (t : TsState) : (s.setTs t).si = s.si := rfl
@[simp] theorem State.setTs_wp (s : State) (t : TsState) : (s.setTs t).wp = s.wp := rfl
@[simp] theorem State.setTs_js (s : State) (t : TsState) : (s.setTs t).js = s.js := rfl
@[simp] theorem State.setTs_bu (s : State) (t : TsState) : (s.setTs t).bu = s.bu := rfl
@[simp] theorem State.setTs_fl (s : State) (t : TsState) : (s.setTs t).fl = s.fl := rfl
@[simp] theorem State.setTs_hp (s : State) (t : TsState) : (s.setTs t).hp = s.hp := rfl
@[simp] theorem State.setTs_nh (s : State) (t : TsState) : (s.setTs t).nh = s.nh := rfl
@[simp] theorem State.setTs_inn (s : State) (t : TsState) : (s.setTs t).inn = s.inn := rfl
@[simp] theorem State.setTs_le (s : State) (t : TsState) : (s.setTs t).le = s.le := rfl
@[simp] theorem State.setTs_mo (s : State) (t : TsState) : (s.setTs t).mo = s.mo := rfl
@[simp] theorem State.setTs_mf (s : State) (t : TsState) : (s.setTs t).mf = s.mf := rfl
@[simp] theorem State.setTs_hl (s : State) (t : TsState) : (s.setTs t).hl = s.hl := rfl
@[simp] theorem State.setTs_tn (s : State) (t : TsState) : (s.setTs t).tn = s.tn := rfl
@[simp] theorem State.setTs_au (s : State) (t : TsState) : (s.setTs t).au = s.au := rfl
@[simp] theorem State.setTs_cz (s : State) (t : TsState) : (s.setTs t).cz = s.cz := rfl
@[simp] theorem State.setTs_an (s : State) (t : TsState) : (s.setTs t).an = s.an := rfl

end Sys2Proof.Machine
end

