-- ==== Sys2Proof/Laws/Bits.lean ====
section
/-! SUPPORT. Fields of a word: what a field reads as after it, or another of the same word, has been written; and what registers,
flags and counters read as after an update. -/

namespace Sys2Proof.Machine

theorem bits_setBits_same (v hi lo x : Nat) (h : lo ≤ hi) : bits (setBits v hi lo x) hi lo = x % 2 ^ (hi + 1 - lo) := by
  have e : hi + 1 = (hi + 1 - lo) + lo := by omega
  generalize hk : hi + 1 - lo = k at *
  unfold bits setBits
  rw [hk, e]
  simp only [Nat.shiftRight_eq_div_pow, Nat.shiftLeft_eq]
  have hp : 0 < 2 ^ lo := by positivity
  have : (v / 2 ^ (k + lo) * 2 ^ (k + lo) + x % 2 ^ k * 2 ^ lo + v % 2 ^ lo) / 2 ^ lo = v / 2 ^ (k + lo) * 2 ^ k + x % 2 ^ k := by
    rw [show v / 2 ^ (k + lo) * 2 ^ (k + lo) + x % 2 ^ k * 2 ^ lo + v % 2 ^ lo
      = v % 2 ^ lo + 2 ^ lo * (v / 2 ^ (k + lo) * 2 ^ k + x % 2 ^ k) by rw [pow_add]; ring, Nat.add_mul_div_left _ _ hp,
      Nat.div_eq_of_lt (Nat.mod_lt _ hp), Nat.zero_add]
  rw [this, Nat.mul_comm, Nat.mul_add_mod, Nat.mod_mod]

theorem setBits_lt (v hi lo x : Nat) (hv : v < 2 ^ 32) (h : lo ≤ hi) (h32 : hi < 32) : setBits v hi lo x < 2 ^ 32 := by
  unfold setBits
  simp only [Nat.shiftRight_eq_div_pow, Nat.shiftLeft_eq]
  have hp : 0 < 2 ^ lo := by positivity
  have a1 : v % 2 ^ lo < 2 ^ lo := Nat.mod_lt _ hp
  have a2 : x % 2 ^ (hi + 1 - lo) + 1 ≤ 2 ^ (hi + 1 - lo) := Nat.mod_lt _ (by positivity)
  have a3 : x % 2 ^ (hi + 1 - lo) * 2 ^ lo + 2 ^ lo ≤ 2 ^ (hi + 1) := by
    calc x % 2 ^ (hi + 1 - lo) * 2 ^ lo + 2 ^ lo = (x % 2 ^ (hi + 1 - lo) + 1) * 2 ^ lo := by ring
      _ ≤ 2 ^ (hi + 1 - lo) * 2 ^ lo := Nat.mul_le_mul_right _ a2
      _ = 2 ^ (hi + 1) := by rw [← pow_add]; congr 1; omega
  have a4 : v / 2 ^ (hi + 1) + 1 ≤ 2 ^ (31 - hi) := by
    have : v / 2 ^ (hi + 1) < 2 ^ (31 - hi) := by
      rw [Nat.div_lt_iff_lt_mul (by positivity), ← pow_add]
      rwa [show 31 - hi + (hi + 1) = 32 by omega]
    omega
  have a5 : v / 2 ^ (hi + 1) * 2 ^ (hi + 1) + 2 ^ (hi + 1) ≤ 2 ^ 32 := by
    calc v / 2 ^ (hi + 1) * 2 ^ (hi + 1) + 2 ^ (hi + 1) = (v / 2 ^ (hi + 1) + 1) * 2 ^ (hi + 1) := by ring
      _ ≤ 2 ^ (31 - hi) * 2 ^ (hi + 1) := Nat.mul_le_mul_right _ a4
      _ = 2 ^ 32 := by rw [← pow_add]; congr 1; omega
  omega

/-- Bits outside a field that has been replaced. -/
theorem testBit_setBits (v hi lo x i : Nat) (h : lo ≤ hi) (hi' : i < lo ∨ hi < i) :
    (setBits v hi lo x).testBit i = v.testBit i := by
  have hp : 0 < 2 ^ lo := by positivity
  have hx : x % 2 ^ (hi + 1 - lo) * 2 ^ lo + v % 2 ^ lo < 2 ^ (hi + 1) := by
    have a1 : v % 2 ^ lo < 2 ^ lo := Nat.mod_lt _ hp
    have a2 : x % 2 ^ (hi + 1 - lo) + 1 ≤ 2 ^ (hi + 1 - lo) := Nat.mod_lt _ (by positivity)
    have a3 : (x % 2 ^ (hi + 1 - lo) + 1) * 2 ^ lo ≤ 2 ^ (hi + 1 - lo) * 2 ^ lo := Nat.mul_le_mul_right _ a2
    have a4 : 2 ^ (hi + 1 - lo) * 2 ^ lo = 2 ^ (hi + 1) := by rw [← pow_add]; congr 1; omega
    have a5 : (x % 2 ^ (hi + 1 - lo) + 1) * 2 ^ lo = x % 2 ^ (hi + 1 - lo) * 2 ^ lo + 2 ^ lo := by ring
    omega
  unfold setBits
  simp only [Nat.shiftRight_eq_div_pow, Nat.shiftLeft_eq]
  rcases hi' with hl | hh
  · rw [show v / 2 ^ (hi + 1) * 2 ^ (hi + 1) + x % 2 ^ (hi + 1 - lo) * 2 ^ lo + v % 2 ^ lo
      = 2 ^ lo * (v / 2 ^ (hi + 1) * 2 ^ (hi + 1 - lo) + x % 2 ^ (hi + 1 - lo)) + v % 2 ^ lo by
        have e : 2 ^ (hi + 1) = 2 ^ (hi + 1 - lo) * 2 ^ lo := by rw [← pow_add]; congr 1; omega
        generalize v / 2 ^ (hi + 1) = q
        rw [e]; ring]
    rw [Nat.testBit_two_pow_mul_add _ (Nat.mod_lt _ hp), if_pos hl, Nat.testBit_mod_two_pow]
    simp [hl]
  · rw [show v / 2 ^ (hi + 1) * 2 ^ (hi + 1) + x % 2 ^ (hi + 1 - lo) * 2 ^ lo + v % 2 ^ lo
      = 2 ^ (hi + 1) * (v / 2 ^ (hi + 1)) + (x % 2 ^ (hi + 1 - lo) * 2 ^ lo + v % 2 ^ lo) by ring]
    rw [Nat.testBit_two_pow_mul_add _ hx, if_neg (by omega), Nat.testBit_div_two_pow]
    congr 1; omega

theorem bits_setBits_ne (v hi lo x hi2 lo2 : Nat) (h : lo ≤ hi) (hd : hi < lo2 ∨ hi2 < lo) :
    bits (setBits v hi lo x) hi2 lo2 = bits v hi2 lo2 := by
  unfold bits
  apply Nat.eq_of_testBit_eq
  intro i
  simp only [Nat.testBit_mod_two_pow, Nat.testBit_shiftRight]
  by_cases c : i < hi2 + 1 - lo2
  · simp only [c, decide_true, Bool.true_and]
    exact testBit_setBits v hi lo x _ h (by omega)
  · simp [c]

/-- A field just written. -/
theorem BitField.get_put (f : BitField) (w : Word) (x : Nat) (h : f.lo ≤ f.hi) (h32 : f.hi < 32) :
    f.get (f.put w x) = x % 2 ^ (f.hi + 1 - f.lo) := by
  unfold BitField.get BitField.put
  rw [BitVec.toNat_ofNat, Nat.mod_eq_of_lt (setBits_lt _ _ _ _ w.isLt h h32), bits_setBits_same _ _ _ _ h]

/-- Another field of the same word. -/
theorem BitField.get_put_ne (f g : BitField) (w : Word) (x : Nat) (h : f.lo ≤ f.hi) (h32 : f.hi < 32)
    (hd : f.hi < g.lo ∨ g.hi < f.lo) : g.get (f.put w x) = g.get w := by
  unfold BitField.get BitField.put
  rw [BitVec.toNat_ofNat, Nat.mod_eq_of_lt (setBits_lt _ _ _ _ w.isLt h h32), bits_setBits_ne _ _ _ _ _ _ h hd]

/-! ## Registers -/

theorem State.rd_flag_ne (s : State) {a b : Nat} (f : BitField) (h : b ≠ a) : (s.flag a f).rd b = s.rd b := s.rd_wr_ne _ h

theorem State.rd_bump_ne (s : State) {a b : Nat} (f : BitField) (n : Nat) (h : b ≠ a) : (s.bump a f n).rd b = s.rd b :=
  s.rd_wr_ne _ h

theorem State.rd_wrN_ne (s : State) {a b : Nat} (v : Nat) (h : b ≠ a) : (s.wrN a v).rd b = s.rd b := s.rd_wr_ne _ h

@[simp] theorem State.rd_wrN_self (s : State) (a v : Nat) : (s.wrN a v).rd a = BitVec.ofNat 32 v := s.rd_wr_self _ _

theorem State.fld_wr_ne (s : State) {a b : Nat} (g : BitField) (w : Word) (h : b ≠ a) : (s.wr a w).fld b g = s.fld b g := by
  simp only [State.fld, s.rd_wr_ne w h]

theorem State.fld_setFld (s : State) (a : Nat) (f : BitField) (v : Nat) (h : f.lo ≤ f.hi) (h32 : f.hi < 32) :
    (s.setFld a f v).fld a f = v % 2 ^ (f.hi + 1 - f.lo) := by
  simp only [State.fld, State.setFld, State.rd_wr_self, BitField.get_put f _ _ h h32]

theorem State.fld_setFld_other (s : State) (a : Nat) (f g : BitField) (v : Nat) (h : f.lo ≤ f.hi) (h32 : f.hi < 32)
    (hd : f.hi < g.lo ∨ g.hi < f.lo) : (s.setFld a f v).fld a g = s.fld a g := by
  simp only [State.fld, State.setFld, State.rd_wr_self, BitField.get_put_ne f g _ _ h h32 hd]

/-- A flag of one bit just latched reads as set. -/
theorem State.isSet_flag (s : State) (a : Nat) (f : BitField) (h : f.lo = f.hi) (h32 : f.hi < 32) : (s.flag a f).isSet a f = true := by
  simp [State.isSet, State.flag, State.fld_setFld s a f 1 (by omega) h32, h]

/-- A counter saturates at the largest value of its field. -/
theorem State.fld_bump (s : State) (a : Nat) (f : BitField) (n : Nat) (h : f.lo ≤ f.hi) (h32 : f.hi < 32) :
    (s.bump a f n).fld a f = min f.top (s.fld a f + n) := by
  rw [State.bump, State.fld_setFld s a f _ h h32, Nat.mod_eq_of_lt]
  have : 0 < 2 ^ (f.hi + 1 - f.lo) := by positivity
  have h2 : min f.top (s.fld a f + n) ≤ 2 ^ (f.hi + 1 - f.lo) - 1 := min_le_left _ _
  omega

end Sys2Proof.Machine
end

