-- ==== Sys2Proof/Laws/Raise.lean ====
section
/-! SUPPORT. What raising an event can change: the fault block and its registers FL_STAT, FL_CSR and FL_LOST, the status and
counters of units, and HOLD or zeroize that fall due. -/

namespace Sys2Proof.Machine

/-- Everything that raising an event leaves as it was. -/
structure RaiseKeeps (s t : State) : Prop where
  now : t.now = s.now
  free : t.free = s.free
  bus : t.bus = s.bus
  pending : t.pending = s.pending
  dram : t.dram = s.dram
  flash : t.flash = s.flash
  sys : t.sys = { s.sys with holdDue := t.sys.holdDue, zeroDue := t.sys.zeroDue, safeDue := t.sys.safeDue }
  ut : t.ut = { s.ut with dyn := t.ut.dyn }
  si : t.si = s.si
  wp : t.wp = s.wp
  js : t.js = s.js
  bu : t.bu = s.bu
  queue : t.fl.queue = s.fl.queue
  waits : t.fl.waits = s.fl.waits
  resetDomains : t.fl.resetDomains = s.fl.resetDomains
  hp : t.hp = s.hp
  nh : t.nh = s.nh
  inn : t.inn = s.inn
  le : t.le = s.le
  mo : t.mo = s.mo
  mf : t.mf = s.mf
  hl : t.hl = s.hl
  tn : t.tn = s.tn
  au : t.au = s.au
  cz : t.cz = s.cz
  an : t.an = s.an
  ts : t.ts = s.ts
  rd : ∀ a, a ≠ Reg.FL_STAT → a ≠ Reg.FL_CSR → a ≠ Reg.FL_LOST → t.rd a = s.rd a

theorem RaiseKeeps.refl (s : State) : RaiseKeeps s s :=
  ⟨rfl, rfl, rfl, rfl, rfl, rfl, rfl, rfl, rfl, rfl, rfl, rfl, rfl, rfl, rfl, rfl, rfl, rfl, rfl, rfl, rfl, rfl, rfl, rfl, rfl, rfl,
    rfl, fun _ _ _ _ => rfl⟩

theorem RaiseKeeps.trans {s t u : State} (h : RaiseKeeps s t) (k : RaiseKeeps t u) : RaiseKeeps s u where
  now := k.now.trans h.now
  free := k.free.trans h.free
  bus := k.bus.trans h.bus
  pending := k.pending.trans h.pending
  dram := k.dram.trans h.dram
  flash := k.flash.trans h.flash
  sys := by rw [k.sys, h.sys]
  ut := by rw [k.ut, h.ut]
  si := k.si.trans h.si
  wp := k.wp.trans h.wp
  js := k.js.trans h.js
  bu := k.bu.trans h.bu
  queue := k.queue.trans h.queue
  waits := k.waits.trans h.waits
  resetDomains := k.resetDomains.trans h.resetDomains
  hp := k.hp.trans h.hp
  nh := k.nh.trans h.nh
  inn := k.inn.trans h.inn
  le := k.le.trans h.le
  mo := k.mo.trans h.mo
  mf := k.mf.trans h.mf
  hl := k.hl.trans h.hl
  tn := k.tn.trans h.tn
  au := k.au.trans h.au
  cz := k.cz.trans h.cz
  an := k.an.trans h.an
  ts := k.ts.trans h.ts
  rd := fun a h1 h2 h3 => (k.rd a h1 h2 h3).trans (h.rd a h1 h2 h3)

/-- A fold of updates each of which keeps it. -/
theorem RaiseKeeps.foldl {α : Type} (l : List α) (f : State → α → State) (h : ∀ s x, RaiseKeeps s (f s x)) (s : State) :
    RaiseKeeps s (l.foldl f s) := by
  induction l generalizing s with
  | nil => exact RaiseKeeps.refl s
  | cons a l ih => exact (h s a).trans (ih _)

theorem State.setDyn_keeps (s : State) (h : Nat) (d : UnitDyn) : RaiseKeeps s (s.setDyn h d) :=
  ⟨rfl, rfl, rfl, rfl, rfl, rfl, rfl, rfl, rfl, rfl, rfl, rfl, rfl, rfl, rfl, rfl, rfl, rfl, rfl, rfl, rfl, rfl, rfl, rfl, rfl, rfl,
    rfl, fun _ _ _ _ => rfl⟩

theorem State.countUp_keeps (s : State) (h k : Nat) : RaiseKeeps s (s.countUp h k) :=
  RaiseKeeps.foldl _ _ (fun s u => s.setDyn_keeps u _) s

/-- A write of one of the three registers keeps the rest. -/
theorem State.setFld_keeps (s : State) (a : Nat) (f : BitField) (v : Nat) (h : a = Reg.FL_STAT ∨ a = Reg.FL_CSR ∨ a = Reg.FL_LOST) :
    RaiseKeeps s (s.setFld a f v) :=
  ⟨rfl, rfl, rfl, rfl, rfl, rfl, rfl, rfl, rfl, rfl, rfl, rfl, rfl, rfl, rfl, rfl, rfl, rfl, rfl, rfl, rfl, rfl, rfl, rfl, rfl, rfl,
    rfl, fun b h1 h2 h3 => s.rd_setFld_ne f v (by rcases h with h | h | h <;> (rw [h]; assumption))⟩

/-- Counting an event and marking its class on a unit keep it. -/
theorem State.markUnit_keeps (s : State) (u cls : Nat) (d e : UnitDyn) :
    RaiseKeeps s (if cls = 1 then (s.countUp u 0).setDyn u d else if cls = 2 then (s.countUp u 0).setDyn u e else s.countUp u 0) := by
  split
  · exact (s.countUp_keeps u 0).trans (State.setDyn_keeps _ _ _)
  · split
    · exact (s.countUp_keeps u 0).trans (State.setDyn_keeps _ _ _)
    · exact s.countUp_keeps u 0

theorem State.raiseCore_keeps (s : State) (id minc unit detail : Nat) : RaiseKeeps s (s.raiseCore id minc unit detail) := by
  unfold State.raiseCore
  split
  · exact ⟨rfl, rfl, rfl, rfl, rfl, rfl, rfl, rfl, rfl, rfl, rfl, rfl, rfl, rfl, rfl, rfl, rfl, rfl, rfl, rfl, rfl, rfl, rfl, rfl,
      rfl, rfl, rfl, fun _ _ _ _ => rfl⟩
  · dsimp only
    generalize max minc _ = cls
    generalize hX : (if cls = 1 then State.setDyn _ _ _ else if cls = 2 then State.setDyn _ _ _ else State.countUp _ _ _) = x
    have hx : RaiseKeeps s x := by
      rw [← hX]
      exact s.markUnit_keeps _ _ _ _
    have key : ∀ (h z f : Bool) (q : FlState), q.queue = x.fl.queue → q.waits = x.fl.waits → q.resetDomains = x.fl.resetDomains →
        RaiseKeeps s { x with sys := { x.sys with holdDue := h, zeroDue := z, safeDue := f }, fl := q } := by
      intro h z f q h1 h2 h3
      exact hx.trans ⟨rfl, rfl, rfl, rfl, rfl, rfl, rfl, rfl, rfl, rfl, rfl, rfl, h1, h2, h3, rfl, rfl, rfl, rfl, rfl, rfl, rfl, rfl, rfl,
        rfl, rfl, rfl, fun _ _ _ _ => rfl⟩
    split
    · exact key _ _ _ _ rfl rfl rfl
    · refine RaiseKeeps.trans (key (x.sys.holdDue || decide (3 ≤ cls)) (x.sys.zeroDue || (decide (cls = 4) && (x.eventFlags id).testBit 0))
        (x.sys.safeDue || decide (cls = 4)) { x.fl with safe := x.fl.safe || decide (cls = 4) } rfl rfl rfl) ?_
      exact State.setFld_keeps _ Reg.FL_LOST _ _ (Or.inr (Or.inr rfl))

theorem State.csrSet_keeps (s : State) (f : BitField) : RaiseKeeps s (s.csrSet f) := by
  have h := State.setFld_keeps s Reg.FL_CSR f 1 (Or.inr (Or.inl rfl))
  unfold State.csrSet
  dsimp only
  split
  · exact (h.trans (State.setFld_keeps _ _ _ _ (Or.inl rfl))).trans (State.raiseCore_keeps _ _ _ _ _)
  · exact h

/-- Raising an event keeps everything but what `RaiseKeeps` leaves out. -/
theorem State.raiseWith_keeps (s : State) (id minc unit detail : Nat) : RaiseKeeps s (s.raiseWith id minc unit detail) := by
  unfold State.raiseWith
  dsimp only
  split
  · exact (s.raiseCore_keeps _ _ _ _).trans (State.csrSet_keeps _ _)
  · exact s.raiseCore_keeps _ _ _ _

theorem State.raise_keeps (s : State) (id unit : Nat) : RaiseKeeps s (s.raise id unit) := s.raiseWith_keeps _ _ _ _

/-- The mode stays. -/
theorem RaiseKeeps.mode {s t : State} (h : RaiseKeeps s t) : t.mode = s.mode := by
  simp only [State.mode]; rw [h.sys]

end Sys2Proof.Machine
end

