-- ==== Sys2Proof/Laws/Run.lean ====
section
/-! SUPPORT. How a command runs: what its end adds to its own effect, and where a granted register access leads. -/

namespace Sys2Proof.Machine

/-- Outside reset a command ends after its own effect. -/
theorem State.act_eq_after (s : State) (f : State → State) (h : s.sys.inReset = false) : s.act f = s.after (f s) := by
  simp [State.act, State.run, h, State.after]

/-- An event on a pin outside reset ends after its own effect. -/
theorem State.actPin_eq_after (s : State) (f : State → State) (h : s.sys.inReset = false) : s.actPin f = s.after (f s) := by
  simp [State.actPin, State.runPin, h, State.after]

theorem Option.filter_eq_none_of_isNone {α : Type} (o : Option α) (p : α → Bool) (h : (o.filter p).isNone = true) :
    o.filter p = none := by
  cases h' : o.filter p with
  | none => rfl
  | some x => simp [h'] at h

/-- A granted write is performed and completes. -/
theorem State.busWrite_of_grants (s : State) (m : Master) (a : Nat) (w : Word) (h : s.grants m a = true) :
    s.busWrite m.val a w = (s.writeWord m.val a w).2.complete m.val 0 (s.writeWord m.val a w).1 false := by
  simp only [State.grants, Bool.and_eq_true, decide_eq_true_eq, Bool.not_eq_true', Bool.and_eq_false_iff,
    decide_eq_false_iff_not] at h
  obtain ⟨⟨⟨⟨⟨h1, h2⟩, h3⟩, h4⟩, h5⟩, h6⟩ := h
  have h6 := Option.filter_eq_none_of_isNone _ _ h6
  have e1 : ¬ ((4 : Nat) ≠ 4 ∨ a % 4 ≠ 0 ∨ mapped a = false) := by simp [h1, h2]
  have e3 : ¬ (0x10000 ≤ a ∧ a < 0x10800 ∧ (a - 0x10000) / 0x100 ≠ m.val) := by
    rintro ⟨x, y, z⟩; simp_all
  have e4 : ¬ (m.val = 6 ∧ s.mspiRefused a = true) := by rintro ⟨x, y⟩; simp_all
  have e5 : ¬ (m.val ≠ 0 ∧ securityOnly a = true) := by rintro ⟨x, y⟩; simp_all
  simp only [State.busWrite, State.busAccess, State.access]
  rw [if_neg (by simpa using e1), if_neg (by simpa [and_assoc] using e3), if_neg (by simpa using e4),
    if_neg (by simpa using e5), h6]
  rfl

/-- A granted write of a block register ends after the effect of the write. -/
theorem State.act_busWrite_of_takes (s : State) (m : Master) (a : Nat) (w : Word) (h : s.takes m a) (ro : readOnlyWindow a = false)
    (lo : a < 0x140000) : s.act (·.busWrite m.val a w) = s.wrote (s.writeReg m.val a (regMask a w)) m := by
  rw [State.act_eq_after _ _ h.1, State.busWrite_of_grants _ _ _ _ h.2]
  simp [State.writeWord, ro, lo, State.wrote]

/-! ## The queue -/

@[simp] theorem State.close_pending (s t : State) : (s.close t).pending = s.pending := rfl

@[simp] theorem State.act_pending (s : State) (f : State → State) : (s.act f).pending = s.pending := by
  unfold State.act State.run
  split
  · rfl
  · exact State.close_pending _ _

@[simp] theorem State.actPin_pending (s : State) (f : State → State) : (s.actPin f).pending = s.pending := by
  unfold State.actPin State.runPin
  split
  · exact rfl
  · exact State.close_pending _ _

end Sys2Proof.Machine
end

