-- ==== Sys2Proof/WellFormed.lean ====
section
/-! DEFINITION. Well-formed commands: operands of fixed size lie within what the wires, blocks and frames that carry them can spell.
A command that is not well-formed is none that the outside can send. -/

namespace Sys2Proof

/-- A little-endian number in a byte string, 0 where the string is too short. -/
def Instr.num (bs : List Byte) (at' n : Nat) : Nat := ((bs.drop at').take n).foldr (fun b a => b.toNat + 256 * a) 0

/-- A command is well-formed: register accesses of a width a bus carries; packets, frames and records of the sizes their
rules give (R224, R292, R321, R327, R353, R397); measured values within their converters' range (R473, R510). -/
def Instr.wellFormed (c : Instr) : Bool :=
  match c with
  | .registerWrite _ _ width _ => width = 1 || width = 2 || width = 4
  | .powerOnReset _ => true
  | .supplyBrownout => true
  | .vddio5Loss => true
  | .resetCold _ _ => true
  | .resetWarm _ _ => true
  | .swi _ _ => true
  | .bootSequence _ => true
  | .modeRequest _ _ => true
  | .modeTransitionEffect _ => true
  | .modeTimeout => true
  | .utSelWrite _ _ => true
  | .utSnapshotTimeout _ => true
  | .setEnable _ => true
  | .setDelay _ => true
  | .setTrim _ => true
  | .clearStatus _ => true
  | .clearCounters _ => true
  | .release _ => true
  | .spit _ => true
  | .identify _ => true
  | .utCmdComplete => true
  | .utForwardTimeout => true
  | .siReloadStart _ => true
  | .siReloadAbort _ => true
  | .siVerifyDone => true
  | .encoderLevelAccept _ _ _ _ => true
  | .encWireTimeout _ _ => true
  | .ssiFrameStart _ => true
  | .ssiFrameDone _ _ => true
  | .ssiCountIssue _ => true
  | .wpCprWrite _ _ _ => true
  | .arm _ _ => true
  | .zlatch _ _ => true
  | .src _ _ => true
  | .pressHoldRelease => true
  | .backupTimeout => true
  | .cmpArm _ _ _ => true
  | .ptOutputStep _ => true
  | .lineComposeDone _ _ => true
  | .composeDeadline => true
  | .frameShift _ => true
  | .shiftComplete _ => true
  | .latIssue _ => true
  | .lineFire _ => true
  | .warmingLine _ => true
  | .spitLine _ => true
  | .cfgSend _ _ => true
  | .gateClear _ _ => true
  | .headReturnFrame _ bytes => bytes.length = 8
  | .headAbsentTimeout _ => true
  | .headStaleTimeout _ => true
  | .gateInputAssert _ => true
  | .gateInputDeassert _ => true
  | .nozzleRecordWrite _ _ _ => true
  | .mapStagingStart => true
  | .mapStagingComplete => true
  | .nhSweep => true
  | .nhShadowWrite _ => true
  | .restore _ _ => true
  | .evidenceRecordApply => true
  | .gateScanStart _ _ => true
  | .gateScanAbort _ _ => true
  | .gateScanSettleDone _ _ => true
  | .gateShot ta tb => (ta.getD 0) < 1000000000 && (tb.getD 0) < 1000000000
  | .decapTimerExpire _ => true
  | .jobLoad _ _ => true
  | .jobArm _ _ => true
  | .jobUnload _ _ => true
  | .plateOpen _ _ => true
  | .plateSeal _ _ => true
  | .plateFree _ _ => true
  | .ringWpWrite _ _ _ => true
  | .renderInstanceBegin _ => true
  | .renderInstanceDone => true
  | .lineRingFill => true
  | .lineRingEntryDone => true
  | .inEnable _ _ => true
  | .inTabDataWrite _ _ => true
  | .inBankWrite _ _ _ _ => true
  | .csiPacket _ _ _ _ payload _ _ => payload.length ≤ 65535
  | .mergedLineClose => true
  | .expectedLineCompute => true
  | .symbolVerify => true
  | .ticketVerdict => true
  | .closeTimeout => true
  | .inExportStart _ _ => true
  | .loopTick => true
  | .auto _ _ _ => true
  | .man _ _ _ => true
  | .move _ _ _ => true
  | .home _ _ _ => true
  | .stop _ _ _ => true
  | .enable _ _ _ => true
  | .disable _ _ _ => true
  | .profileTick => true
  | .pwmPeriod _ _ _ => true
  | .limitSwitchEdge _ _ => true
  | .limitSwitchAccept _ _ _ => true
  | .capSequenceNextAxis => true
  | .moCmpArm _ _ _ => true
  | .fabricTransferRequest _ _ _ addr n write data => 1 ≤ n && n ≤ 4 && addr % 64 = 0 && (!write || data.isEmpty || data.length = 64 * n)
  | .arbSlotDecision _ _ _ => true
  | .fabricTransferComplete _ _ _ => true
  | .dramRefreshDue _ => true
  | .dramMr4Read _ _ _ => true
  | .dramTrackInterval _ _ _ => true
  | .writeDrainBatch _ => true
  | .enumStart _ _ => true
  | .retrain _ _ => true
  | .linkLos _ => true
  | .linkLol _ => true
  | .trainBlock .. => true
  | .amBlock _ _ skew => skew ≤ 31
  | .linkBringupTimeout _ => true
  | .retrainTimeout _ => true
  | .ack _ seq creq cpri => seq < 4096 && creq < 65536 && cpri < 65536
  | .nak _ seq => seq < 4096
  | .ackTimer _ => true
  | .replayTimeout _ => true
  | .packetTransmit _ => true
  | .echoReq _ token turn => token < 2 ^ 32 && turn < 65536
  | .echoRsp _ token turn => token < 2 ^ 32 && turn < 65536
  | .latencyMeasureTimer _ => true
  | .enumBlock _ kind value depth => kind ≤ 2 && value < 65536 && depth < 256
  | .enumTimeout _ => true
  | .regWr _ bytes => bytes.length ≤ 1076
  | .regRd _ bytes => bytes.length ≤ 1076
  | .rdCpl _ bytes => bytes.length ≤ 1076
  | .dmaWr _ bytes => bytes.length ≤ 1076
  | .posPacket _ bytes => bytes.length ≤ 1076
  | .evt _ bytes => bytes.length ≤ 1076
  | .aud _ bytes => bytes.length ≤ 1076
  | .evtPeriodic => true
  | .chipEvtTimeout _ => true
  | .posSample => true
  | .posTimeout => true
  | .mspiFrame bytes _ => 1 ≤ bytes.length
  | .ethFrameReceive _ bytes _ => 14 ≤ bytes.length
  | .ethFrameTransmit => true
  | .prpSupervisionTimer => true
  | .prpEntryExpire _ => true
  | .ethLinkChange _ _ => true
  | .setTime _ _ => true
  | .txKick _ _ => true
  | .rxKick _ _ => true
  | .offsetWrite _ _ _ => true
  | .domainHealthTimeout _ => true
  | .domainRevert => true
  | .biasSlewStep => true
  | .tnCapRead _ => true
  | .tnTxtsRead _ _ => true
  | .zeroize _ _ => true
  | .attest _ _ => true
  | .replay _ _ => true
  | .genDev _ _ => true
  | .genEph _ _ => true
  | .unwrap _ _ => true
  | .setPub _ _ => true
  | .exportPub _ _ => true
  | .ephKeyExpire => true
  | .tamper _ => true
  | .cairnIssue => true
  | .summitTimer => true
  | .summitIssue => true
  | .auditRingWrite _ => true
  | .auditRingAckWrite _ _ _ => true
  | .auditFrameTimer => true
  | .lineRecord bytes => bytes.length = 24 && Instr.num bytes 0 1 = 0
  | .blankRecord bytes => bytes.length = 8 && Instr.num bytes 0 1 = 1
  | .commitRecord bytes => 12 ≤ bytes.length && bytes.length = 12 + 4 * Instr.num bytes 8 2 && Instr.num bytes 0 1 = 2
  | .statusRecord bytes => bytes.length = 12 && Instr.num bytes 0 1 = 3
  | .cosignReq bytes => bytes.length = 276 && Instr.num bytes 0 1 = 4
  | .cosignRsp bytes => bytes.length = 108 && Instr.num bytes 0 1 = 5
  | .witnessStatusSend => true
  | .witnessLate => true
  | .witnessLost => true
  | .cosignTimeout => true
  | .dcmpStart _ _ _ => true
  | .dcmpAbort _ _ _ => true
  | .dcmpBlockDone _ => true
  | .czStart _ _ => true
  | .czAbort _ _ => true
  | .czJobDone => true
  | .confirm _ _ => true
  | .confirmTimeout => true
  | .submit _ _ => true
  | .buArm _ _ => true
  | .disarm _ _ => true
  | .discard _ _ => true
  | .settingsRead _ _ => true
  | .settingsCommit _ _ => true
  | .eventCollect => true
  | .flEqAck _ _ => true
  | .ovfClear _ _ => true
  | .csrClear _ _ => true
  | .fabricWdogExpire => true
  | .clockLoss _ => true
  | .hlrefLoss => true
  | .senseSlotStart _ => true
  | .senseConversionDone _ => true
  | .calStart _ _ => true
  | .calPassTimer => true
  | .mzero _ _ means => means.length = 8 && means.all (· < 4096)
  | .pdCrossing _ _ => true
  | .pdBright _ => true
  | .tsStart _ _ => true
  | .tsStop _ _ => true
  | .selftest _ _ => true
  | .testLoopDurationEnd errs bitsRun => errs < 2 ^ 32 && bitsRun < 2 ^ 64
  | .tapInstruction _ => true
  | .registerRead _ _ => true
  | .ropeWposAdvance => true
  | .stoppedClockRestart _ => true
  | .refclkReturn => true
  | .hlrefReturn => true
  | .vddio5Return => true
  | .checkerLockChange _ => true
  | .testLoopPassComplete _ _ => true
  | .tapReset => true

end Sys2Proof
end

