-- ==== Sys2Proof/Tests/Slice0.lean ====
section
/-! SUPPORT. Tests of the model on small states, and for every statement that has hypotheses a witness that meets them together
(each clause of it, at a boundary of its range where it has one). Expected values come from the spec. -/

namespace Sys2Proof.Tests

open Sys2Proof.Machine

set_option Elab.async false

/-- The machine in a mode, with every clock running. -/
def at' (m : Mode) : State := { State.reset with sys := { State.reset.sys with mode := m, stopped := [] } }

/-- The same at a later cycle. -/
def late (s : State) (t : Nat) : State := { s with now := t }

/-- The same with a mode transition in progress since cycle 0. -/
def moving (s : State) (d : Mode) : State := { s with sys := { s.sys with trans := some ⟨d, 0⟩ } }

/-! ## Commands that are not well-formed, and the decoder -/

theorem test_illformed_access : Instr.wellFormed (.registerWrite 0 0 3 0) = false ∧ Instr.wellFormed (.registerWrite 0 0 4 0) = true := by decide
theorem test_illformed_head : Instr.wellFormed (.headReturnFrame 0 [0]) = false ∧ Instr.wellFormed (.gateShot (some 1000000000) none) = false ∧
    Instr.wellFormed (.gateShot none (some 1000000000)) = false ∧ Instr.wellFormed (.mzero 0 0 [0]) = false ∧
    Instr.wellFormed (.mzero 0 0 [0, 0, 0, 0, 0, 0, 0, 4096]) = false := by decide
theorem test_illformed_csi : Instr.wellFormed (.csiPacket 0 0 0 0 (List.replicate 65536 0) 0 true) = false := by
  simp only [Instr.wellFormed, List.length_replicate]; decide
theorem test_illformed_transfer : Instr.wellFormed (.fabricTransferRequest 0 0 0 0 0 false []) = false ∧
    Instr.wellFormed (.fabricTransferRequest 0 0 0 0 5 false []) = false ∧ Instr.wellFormed (.fabricTransferRequest 0 0 0 32 1 false []) = false ∧
    Instr.wellFormed (.fabricTransferRequest 0 0 0 0 1 true [0]) = false := by decide
theorem test_illformed_link : Instr.wellFormed (.amBlock 0 [] 32) = false ∧ Instr.wellFormed (.ack 0 4096 0 0) = false ∧ Instr.wellFormed (.ack 0 0 65536 0) = false ∧
    Instr.wellFormed (.ack 0 0 0 65536) = false ∧ Instr.wellFormed (.nak 0 4096) = false := by decide
theorem test_illformed_echo : Instr.wellFormed (.echoReq 0 (2 ^ 32) 0) = false ∧ Instr.wellFormed (.echoReq 0 0 65536) = false ∧
    Instr.wellFormed (.echoRsp 0 (2 ^ 32) 0) = false ∧ Instr.wellFormed (.echoRsp 0 0 65536) = false ∧
    Instr.wellFormed (.enumBlock 0 3 0 0) = false ∧ Instr.wellFormed (.enumBlock 0 0 65536 0) = false ∧
    Instr.wellFormed (.enumBlock 0 0 0 256) = false := by decide
theorem test_illformed_packet : ∀ c ∈ [Instr.regWr 0, .regRd 0, .rdCpl 0, .dmaWr 0, .posPacket 0, .evt 0, .aud 0],
    Instr.wellFormed (c (List.replicate 1077 0)) = false := by
  decide +kernel
theorem test_illformed_frame : Instr.wellFormed (.mspiFrame [] true) = false ∧ Instr.wellFormed (.ethFrameReceive 0 [0] true) = false := by decide
theorem test_illformed_record : Instr.wellFormed (.lineRecord [0]) = false ∧ Instr.wellFormed (.lineRecord (List.replicate 24 1)) = false ∧
    Instr.wellFormed (.blankRecord [1]) = false ∧ Instr.wellFormed (.blankRecord (List.replicate 8 0)) = false ∧
    Instr.wellFormed (.commitRecord [2]) = false ∧ Instr.wellFormed (.commitRecord (2 :: List.replicate 12 0)) = false ∧
    Instr.wellFormed (.commitRecord (List.replicate 12 0)) = false ∧ Instr.wellFormed (.statusRecord [3]) = false ∧
    Instr.wellFormed (.statusRecord (List.replicate 12 0)) = false := by decide
theorem test_illformed_cosign : Instr.wellFormed (.cosignReq [4]) = false ∧ Instr.wellFormed (.cosignReq (List.replicate 276 0)) = false ∧
    Instr.wellFormed (.cosignRsp [5]) = false ∧ Instr.wellFormed (.cosignRsp (List.replicate 108 0)) = false := by
  decide +kernel
theorem test_illformed_loop : Instr.wellFormed (.testLoopDurationEnd (2 ^ 32) 0) = false ∧
    Instr.wellFormed (.testLoopDurationEnd 0 (2 ^ 64)) = false := by decide

/-- The table gives no row any bits. -/
theorem test_decode_none : decodeTableWord 32 0 = none ∧ decodeTableWord 0 0 = none := by decide

/-- A step takes the front command; an empty queue is one cycle. -/
theorem test_step_takes_front : (match step { State.reset with pending := [.refclkReturn, .refclkReturn] } with
    | .next t => t.pending == [Instr.refclkReturn]
    | _ => false) = true := by decide +kernel
theorem test_step_idles : (match step State.reset with
    | .next t => t.pending.isEmpty && t.now == 1
    | _ => false) = true := by decide +kernel

/-! ## Witnesses: queue, registers, resets and modes -/

theorem witness_QueueIsKept : (∃ t, exec .refclkReturn State.reset = .next t) ∧
    (∃ t, step { State.reset with pending := [.refclkReturn] } = .next t) ∧ State.reset.pending = [] ∧ State.reset.sys.inReset = false :=
  ⟨⟨_, rfl⟩, ⟨_, rfl⟩, rfl, rfl⟩

theorem witness_StepsLeaveNothingDue : State.reset.Settled ∧ ∃ t, step State.reset = .next t := by
  refine ⟨?_, _, rfl⟩
  unfold State.Settled; decide

theorem witness_QuietEffectsStand : State.reset.Quiet := by
  unfold State.Quiet; decide +kernel

theorem witness_MemoriesKeepForm : State.reset.MapsWf ∧ (0 : Nat) ≠ 1 ∧ 0 + 1 ≤ 1 ∧ 0 + [(0 : Byte)].length ≤ 1 := by
  unfold State.MapsWf; decide

/-- For `LinkFrames` and `BlockFrames`, and for every clause whose only hypothesis is that no reset is held and HL_REFCLK runs. -/
theorem witness_outOfReset : State.reset.sys.inReset = false ∧ State.reset.sys.hlrefOk = true ∧ State.reset.sys.refOk = true := by decide

theorem witness_RegisterAccesses : State.reset.sys.inReset = false ∧ (2 ≠ 4 ∨ 0 % 4 ≠ 0) ∧ 3 % 4 ≠ 0 ∧ mapped 0x150000 = false ∧
    (at' .idle).takes 0 (Reg.SYS_MODE_REQ) ∧ readOnlyWindow Reg.SYS_MODE_REQ = false ∧ Reg.SYS_MODE_REQ < 0x140000 ∧
    (findReg Reg.SYS_RST_STAT).any (fun x => x.1.fields.any fun f => decide (f.ty = .ro) && x.1.fields.all fun g =>
      decide (g = f) || decide (g.hi < f.lo) || decide (f.hi < g.lo)) = true := by
  unfold State.takes; decide +kernel

theorem witness_UtWindowsOwned : State.reset.sys.inReset = false ∧ (1 : Master) ≠ 0 ∧ 0xFC < 0x100 ∧ 0xFC % 4 = 0 ∧ 0x40 ≤ 0x40 ∧ 0x40 % 4 = 0 ∧
    (0 : Master).val ≠ 6 := by decide

theorem witness_Resets : (at' .idle).takes 0 Reg.SYS_RST ∧ (at' .idle).sys.refOk = true ∧
    ¬((at' .idle).sys.mode = .boot ∧ (at' .idle).bu.bootState = 2) ∧ 8 < 9 := by
  unfold State.takes; decide +kernel

/-- A register that a warm reset keeps no field of. -/
theorem witness_ResetLeaves : Reg.WP_BACKUP_TMO ≠ Reg.SYS_RST_STAT ∧ Reg.WP_BACKUP_TMO ≠ Reg.FL_CSR ∧
    (findReg Reg.WP_BACKUP_TMO).all (fun x => x.1.fields.all fun f => !ResetKind.keeps .powerOn x.1 f) = true := by decide +kernel

/-- WARM with a job ARMED, the keys in place and no witness mode. -/
def ready' : State :=
  let s := { at' .warm with js := { JsState.reset with cur := some 0, job0 := { JobSlot.reset with phase := .armed, jobStart := 1 } } }
  { s with au := { s.au with slots := [(1, [0]), (2, [0])] } }

/-- The slide fitted and stopped at CAP_POS, its position 0, with the opening distance 0. -/
def slide (s : State) : State := ((s.setFld Reg.MO_CFG F.MO_CFG_FITTED 2).wrN Reg.MO_OPEN_DIST 0).setAxis 1 { Axis.reset with st := .stopped, lost := false, homed := true }

/-- PRINT whose last line has fired: the job ended at line 0. -/
def printed : State :=
  { at' .print with js := { JsState.reset with cur := some 0, job0 := { JobSlot.reset with phase := .draining, endInst := some 0 } } }

theorem witness_Modes : (at' .idle).takes 0 Reg.SYS_MODE_REQ ∧ (at' .idle).sys.trans = none ∧
    F.SYS_MODE_REQ_MODE.get (cmdWord Reg.SYS_MODE_REQ 4 []) = 4 ∧
    { at' .idle with si := { Structure.reset with testEn := true } }.si.testEn = true ∧ F.SYS_MODE_REQ_MODE.get (cmdWord Reg.SYS_MODE_REQ 6 []) = 6 ∧
    ready'.takes 0 Reg.SYS_MODE_REQ ∧ ready'.printRefuse = 0 ∧ F.SYS_MODE_REQ_MODE.get (cmdWord Reg.SYS_MODE_REQ 3 []) = 3 ∧
    F.SYS_MODE_REQ_MODE.get (cmdWord Reg.SYS_MODE_REQ 1 []) = Mode.idle.code ∧ (moving (at' .idle) .warm).sys.trans.isSome = true ∧
    (moving (at' .idle) .warm).takes 0 Reg.SYS_MODE_REQ ∧ modePath .idle .print = false ∧
    { at' .hold with hp := { HpState.reset with cut := 1 } }.holdCauses ≠ 0 ∧ (at' .hold).takes 0 Reg.SYS_MODE_REQ ∧
    (at' .hold).sys.trans = none := by
  unfold State.takes; decide +kernel

theorem witness_Modes_effects : (slide (moving (at' .idle) .warm)).capOpen = true ∧ (slide (moving (at' .idle) .warm)).loopsInBand = true ∧
    (slide (moving (at' .idle) .warm)).sys.trans = some ⟨.warm, 0⟩ ∧ (slide (moving (at' .idle) .warm)).sys.mode = .idle ∧
    (slide (moving (at' .warm) .idle)).capClosed = true ∧ (slide (moving (at' .service) .idle)).serviceOver = true ∧
    (slide (moving (at' .service) .idle)).capClosed = true ∧ (moving printed .warm).printOver = true ∧
    (slide (moving (at' .hold) .idle)).atCap = true ∧ (slide (moving (at' .hold) .idle)).mo.capSeq = none ∧
    (late (((moving (at' .idle) .warm).wrN Reg.SYS_MODE_TMO 1)) 1000000).rdN Reg.SYS_MODE_TMO = 1 ∧
    1 * 1000000 ≤ (late ((moving (at' .idle) .warm).wrN Reg.SYS_MODE_TMO 1) 1000000).now - 0 := by decide +kernel

/-! ## Witnesses: boot, units and position -/

/-- A flash whose directory keeps the rules of R413, each region as small as it may be. -/
def directory (mhz : Nat) : List Byte :=
  let b := leBytes 4 0x4446594A ++ leBytes 2 1 ++ leBytes 1 mhz ++ leBytes 1 4 ++ leBytes 4 0x964000 ++ leBytes 4 0 ++
    [(0x1000, 0x1000), (0x2000, 0x1000), (0x3000, 0x41000), (0x44000, 0x10000), (0x54000, 0x10000), (0x64000, 0x800000),
      (0x864000, 0x100000)].flatMap fun r => leBytes 4 r.1 ++ leBytes 4 r.2
  b ++ leBytes 4 (crc32 b)

/-- A reload in a state. -/
def reloading (s : State) (r : ReloadState) : State := s.setReload { Reload.reset with state := r }

theorem witness_BootAndReloads : State.reset.sys.mode = .boot ∧ State.reset.bu.bootState = 0 ∧ parseDirectory (State.reset.flashRead 0 0x4C) = none ∧
    (∀ mhz ∈ [100, 101], let s := State.reset.flashProgram 0 (directory mhz);
      (parseDirectory (s.flashRead 0 0x4C)).isSome = true ∧ leAt (s.flashRead 0 0x4C) 6 1 = mhz) ∧
    State.reset.fld Reg.DC_CFG F.DC_CFG_RATE < 5 ∧
    (at' .service).takes 0 Reg.BU_SI_CTRL ∧ (at' .service).bu.reload.state.busy = false ∧ (at' .print).takes 0 Reg.BU_SI_CTRL ∧
    (reloading (at' .print) .pending).takes 0 Reg.BU_SI_CTRL ∧ (reloading (at' .print) .pending).bu.reload.state = .pending ∧
    (reloading (at' .service) .verify).bu.reload.state = .verify ∧ (reloading (at' .service) .verify).bu.reload.inPrint = false := by
  unfold State.takes; decide +kernel

/-- ROOT selected in the window of master 0, with an argument. -/
def selected (m : Mode) (arg : Nat) : State := (at' m).wrN (Reg.UT_ARG 0) arg

theorem witness_UnitSnapshots : (at' .idle).takes 0 (Reg.UT_SEL 0) ∧ F.UT_SEL_CHIP.get (cmdWord (Reg.UT_SEL 0) 0 []) = (at' .idle).index ∧
    F.UT_SEL_CHIP.get (cmdWord (Reg.UT_SEL 0) 0x1000000 []) ≠ (at' .idle).index ∧ (at' .idle).reachable 1 = false ∧
    ((0 : Master).val, 0) ∈ { at' .idle with ut := { UtState.reset with snapWait := [(0, 0)] } }.ut.snapWait ∧
    (at' .idle).si.valid 1 = false := by
  unfold State.takes; decide +kernel

theorem witness_UnitSettings : (selected .idle 1).unitReady 0 1 0 1 ∧ (selected .idle 0x03FF03FF).unitReady 0 2 0 0x03FF03FF ∧
    (selected .idle 15).unitReady 0 3 0 15 ∧ (selected .idle 0).unitReady 0 0x12 0 0 ∧ (selected .idle 0).mode ≠ .print ∧
    (selected .idle 0).ticksRun = false ∧ (selected .print 0).unitReady 0 1 0 0 ∧ ((selected .print 0).queueReq (.enable 0 false)).isSome = true := by
  unfold State.unitReady State.takes; decide +kernel

/-- A command of window 0 in progress on ROOT. -/
def commanded (code : Nat) (applied : Bool) (fwd : List Fwd) : State :=
  { at' .idle with ut := { UtState.reset with cmd := some ⟨0, code, 0, 0, 0, 0, false, applied, none, 0⟩ },
                   hl := { HlState.reset with fwd := fwd } }

theorem witness_UnitBroadcasts : (selected .idle 0).unitReady 0 0x10 0 0 ∧ (selected .idle 0).unitReady 0 0x11 0 0 ∧
    (selected .service 0).unitReady 0 0x13 0 0 ∧ (selected .idle 0).unitReady 0 0x14 0 0 ∧
    (∀ c ∈ [0x10, 0x11, 0x13, 0x14], (commanded c false []).ut.cmd = some ⟨0, c, 0, 0, 0, 0, false, false, none, 0⟩) ∧
    (⟨1, 0, true, 0, 0⟩ : Fwd) ∈ (commanded 0x10 true [⟨1, 0, true, 0, 0⟩]).hl.fwd := by
  unfold State.unitReady State.takes; decide +kernel

/-- Both feedback channels in a mode (1 QUAD, 2 HALL, 3 SSI), with wire check and no edge interval. -/
def encoder (m : Nat) : State :=
  (((late (at' .idle) 100000).setFld (Reg.WP_CHk_CFG 0) F.WP_CHk_CFG_MODE m).setFld (Reg.WP_CHk_CFG 0) F.WP_CHk_CFG_EDGE_MIN 0).setFld
    (Reg.WP_CHk_CFG 0) F.WP_CHk_CFG_WIRE_EN 1

/-- An SSI frame in progress behind one that read 0. -/
def framed : State := (encoder 3).setEnc 0 { EncCh.reset with ssiActive := true, ssiV := some 0 }

theorem witness_EncoderInputs : (0 : Nat) < 1 ∧ -(2 ^ 31) < (0 : Int) ∧ (2 ^ 31 - 2 : Int) < 2 ^ 31 - 1 ∧ 1 ≤ 255 ∧ 255 ≤ 255 ∧
    (encoder 1).encMode 0 = 1 ∧ (encoder 1).idxOn 0 = false ∧ (encoder 1).fld (Reg.WP_CHk_CFG 0) F.WP_CHk_CFG_EDGE_MIN = 0 ∧
    (at' .idle).encMode 0 = 0 ∧ (encoder 2).isSet (Reg.WP_CHk_CFG 0) F.WP_CHk_CFG_WIRE_EN = true ∧ (encoder 3).encMode 0 = 3 ∧
    ((encoder 3).enc 0).ssiActive = false ∧ max ((encoder 3).enc 0).ssiEnd (((encoder 3).enc 0).edgeA.getD 0) +
      max 1 ((encoder 3).fld (Reg.WP_CHk_SSI 0) F.WP_CHk_SSI_MONO) * 1000 ≤ (encoder 3).now ∧
    (framed.enc 0).ssiActive = true ∧ (framed.ssiValue 0 0).isSome = true ∧ (framed.enc 0).ssiV = some 0 ∧ (framed.enc 0).owed = 0 ∧
    (framed.setFld (Reg.WP_CHk_SSI 0) F.WP_CHk_SSI_PAR 2).ssiValue 0 0 = none ∧
    1 < ((framed.setEnc 0 { EncCh.reset with owed := 2 }).enc 0).owed ∧ 40 ≤ 40 ∧ 2 ^ 40 - 1 < 2 ^ 40 := by decide +kernel

/-- Channel 0 as the source, 4 counts a revolution. -/
def wired (m : Mode) : State := (at' m).wrN (Reg.WP_CHk_CPR 0) 4

theorem witness_PositionSetup : (wired .idle).takes 0 (Reg.WP_CHk_CPR 0) ∧ (wired .idle).wpCfgMode = true ∧ (wired .warm).wpCfgMode = false ∧
    (wired .warm).takes 0 (Reg.WP_CHk_CPR 1) ∧ (wired .warm).takes 0 Reg.WP_CTRL ∧ (wired .warm).wp.src < 2 ∧ (wired .warm).armOk = true ∧
    F.WP_CTRL_SRC.get (cmdWord Reg.WP_CTRL 0 [(F.WP_CTRL_ARM, 1), (F.WP_CTRL_ZLATCH, 0)]) = (wired .warm).wp.src ∧
    (wired .print).takes 0 Reg.WP_CTRL ∧ (wired .print).armOk = false ∧
    (∀ k ∈ [1, 2], F.WP_CTRL_SRC.get (cmdWord Reg.WP_CTRL (F.WP_CTRL_SRC.put 0 k) [(F.WP_CTRL_ARM, 0), (F.WP_CTRL_ZLATCH, 0)]) = k) ∧
    (wired .idle).wp.src = 0 ∧ (wired .service).armMode = true ∧ (wired .print).armMode = false := by
  unfold State.takes; decide +kernel

/-- PRESS_HOLD_N low at bar line 0, with the line after HWM complete. -/
def pressed : State :=
  { late (at' .print) 1000000 with wp := { WpState.reset with pinLow := true, pinSince := some 0, hwm := 7, pos := 0 },
                                   js := { JsState.reset with lring := [⟨8, true, []⟩] } }

/-- The output of channel 0 follows the web at 4 counts a line, and stands one step behind. -/
def traced : State := ((late (at' .idle) 20).setFld (Reg.WP_CHk_PT 0) F.WP_CHk_PT_PT_MODE 2).setPtOut 0 ⟨-1, some 0, false⟩

theorem witness_ComparesAndPress : (at' .idle).takes 0 (Reg.WP_CMPk_CTRL 7) ∧
    (∀ x ∈ [(0, 0), (0, 1), (0, 2), (1, 0), (2, 2)],
      let d := cmdWord (Reg.WP_CMPk_CTRL 7) (F.WP_CMPk_CTRL_DIR.put (F.WP_CMPk_CTRL_SRC.put 0 x.1) x.2) [(F.WP_CMPk_CTRL_ARM, 1)]
      F.WP_CMPk_CTRL_SRC.get d = x.1 ∧ F.WP_CMPk_CTRL_DIR.get d = x.2) ∧
    pressed.wp.pinLow = true ∧ pressed.line + pressed.si.limits.runup ≤ pressed.wp.hwm + 1 ∧ pressed.lringComplete (pressed.wp.hwm + 1) = true ∧
    pressed.wp.pinSince = some 0 ∧ (pressed.wrN Reg.WP_BACKUP_TMO 1).rdN Reg.WP_BACKUP_TMO * 1000000 ≤ pressed.now - 0 ∧
    traced.fld (Reg.WP_CHk_PT 0) F.WP_CHk_PT_PT_MODE = 2 ∧ traced.ptQ 0 ≠ (traced.ptOut 0).q ∧ (traced.ptOut 0).last = some 0 ∧
    0 + 20 ≤ traced.now := by
  unfold State.takes; decide +kernel

/-! ## Witnesses: printing, nozzle health and jobs -/

/-- A structure of ROOT, the PORT unit 0 and its bank, with one waveform table whose first slot is warm. -/
def portStructure : Structure :=
  { Structure.reset with
      loaded := true, nodes := [⟨0, 0, 0xFFFFFF⟩, ⟨0x10000, 3, 0⟩], banks := List.replicate 16 ⟨100000, 64, 1, 0, 30000⟩,
      waves := [⟨0, List.replicate 0x120 0 ++ [1, 0, 0, 0, 0, 0, 0, 0, 1] ++ List.replicate 311 0⟩] }

/-- That structure with the head of port 0 READY, and port and bank states of its own; one second in. -/
def press (m : Mode) (q : HeadPort) (b : BankState) : State :=
  let s := { late (at' m) 1000000000 with si := portStructure }
  { s.setPort 0 { q with st := .ready, cfgOk := true } with hp := { (s.setPort 0 { q with st := .ready, cfgOk := true }).hp with
      banks := s.hp.banks.set 0 b } }

/-- A bank at rest. -/
def rest : BankState := BankState.reset

/-- A composed line of no drops. -/
def entry (l : Nat) : FifoEntry := ⟨l, 0, [], [], [], true, false⟩

/-- Line 5 under way in the heads of bank 0: its frame waits since cycle 0 and its tick fired it at cycle t. -/
def line5 (t : Nat) : State :=
  let s := press .print { HeadPort.reset with freeze := [⟨5, t, 0, 0, 0, 0, 0, 0, 0, 0, 0, false⟩] } { rest with waiting := some (.line 5, 0) }
  { s with wp := { s.wp with lastFire := some (5, t), hwm := 5 } }

/-- Line 5 latched at cycle 0, with its readings. -/
def latched5 : State :=
  let s := press .print { HeadPort.reset with latched := some (entry 5), freeze := [⟨5, 0, 0, 0, 0, 0, 0, 0, 0, 0, 0, false⟩] }
    { rest with latLine := some 5, latAt := some 0 }
  { s with wp := { s.wp with hwm := 5 } }

theorem witness_LinesReachTheHeads :
    (0, 1).2.testBit 0 = true ∧ { at' .print with hp := { HpState.reset with composing := some (0, 3) } }.hp.composing = some (0, 3) ∧
    (let s := { late (at' .print) 100 with wp := { WpState.reset with hwm := 7, lastTick := some 7, tickAt := some 0 } };
      s.composeReady 8 = false ∧ (8, false) ∉ s.js.lead ∧ 0 + 100 ≤ s.now ∧ s.wp.pinLow = false ∧ s.wp.lastTick = some s.wp.hwm) ∧
    (let s := press .print { HeadPort.reset with fifo := [entry 5] } rest;
      s.shiftGap 0 = true ∧ s.nextFrame 0 = some 5 ∧ s.witRole ≠ 2 ∧ s.bankOn 5 0 = [0] ∧ s.mode = .print ∧
        (∀ p ∈ s.bankOn 5 0, ∃ e ∈ (s.port p).fifo, e.line = 5 ∧ e.complete = true) ∧ (s.bank 0).shifting = none ∧ (s.bank 0).waiting = none) ∧
    (press .idle { HeadPort.reset with cfgDue := true } rest).configDue 0 ≠ [] ∧
    ((press .print HeadPort.reset { rest with shifting := some (.line 5, 1000000000) }).bank 0).shifting = some (.line 5, 1000000000) ∧
    ((line5 (1000000000 - 40)).bank 0).waiting = some (.line 5, 0) ∧ (line5 (1000000000 - 40)).lineTick 0 5 = some (1000000000 - 40) ∧
    (line5 (1000000000 - 39)).lineTick 0 5 = some (1000000000 - 39) ∧ (line5 (1000000000 - 40)).bankBegun 0 = true ∧
    (1000000000 - 40) + 40 ≤ (line5 (1000000000 - 40)).now ∧ (line5 (1000000000 - 40)).bankEnd 0 + 20 ≤ 1000000000 ∧
    (line5 (1000000000 - 39)).now < max (max ((1000000000 - 39) + 40) (0 + 20)) ((line5 (1000000000 - 39)).bankEnd 0 + 20) := by decide +kernel

theorem witness_LinesFire : (latched5.bank 0).latLine = some 5 ∧ (latched5.bank 0).latAt = some 0 ∧
    ((latched5.port 0).freeze.find? fun f => f.line = 5).isSome = true ∧ latched5.si.portValid 0 = true ∧ latched5.portOn 5 0 = true ∧
    (latched5.bar 5).known.testBit 0 = false ∧ 5 ≤ latched5.wp.hwm ∧
    latched5.lineStart 0 ⟨5, 0, 0, 0, 0, 0, 0, 0, 0, 0, 0, false⟩ 0 ≤ latched5.now ∧ (latched5.port 0).latched = some (entry 5) ∧
    (latched5.waveAt 5 0).isSome = true ∧ latched5.mode = .print ∧ (latched5.port 0).st = .ready ∧ (latched5.port 0).cfgOk = true ∧
    latched5.gateCut 0 = false ∧
    ({ latched5 with si := { portStructure with gating := [⟨1, 2, 0, 0⟩] }, hp := { latched5.hp with cut := 1 } }).gateCut 0 = true ∧
    ((latched5.setPort 0 { latched5.port 0 with st := .present }).port 0).st ≠ .ready ∧ 63 < 64 ∧ 6 < 7 := by decide +kernel

/-- A return frame of a type with its CRC. -/
def frame (ty : Nat) : List Byte :=
  let b := leBytes 7 ty
  b ++ leBytes 1 (crcN 8 0x07 0 (b.map revByte))

/-- Warming of bank 0 at 1 kHz with a width for port 0. -/
def warmer : State :=
  ((press .warm HeadPort.reset rest).setFld (Reg.FE_BANKb_WARM 0) F.FE_BANKb_WARM_HZ 1000).setFld (Reg.FE_Pp_WARM 0) F.FE_Pp_WARM_WIDTH 50

theorem witness_HeadsAndGates : warmer.fld (Reg.FE_BANKb_WARM 0) F.FE_BANKb_WARM_HZ = 1000 ∧ warmer.bankFree 0 = true ∧
    1000000000 / 1000 ≤ warmer.now - (warmer.bank 0).warmAt ∧ (∀ p ∈ bankPorts 0, warmer.spitDue p = false) ∧ warmer.extraPort 0 = true ∧
    0 ∈ bankPorts 0 ∧ warmer.fld (Reg.FE_Pp_WARM 0) F.FE_Pp_WARM_WIDTH ≠ 0 ∧
    (match warmer.waveAt (warmer.wp.hwm + 1) 0 with
      | some t => (t.slots t.activeSet).any WSlot.warm
      | none => false) = true ∧
    (let s := press .service { HeadPort.reset with spit := some (0, 0 + 1) } rest;
      (s.port 0).spit = some (0, 0 + 1) ∧ s.bankFree 0 = true ∧ s.spitDue 0 = true ∧ 0 < s.hp.ports.length) ∧
    (let s := ((late (at' .service) 1000000).setFld (Reg.NH_Pp_CFG 0) F.NH_Pp_CFG_DECAP_MS 1).setFld Reg.NH_CFG F.NH_CFG_AUTO_SPIT 1;
      s.fld (Reg.NH_Pp_CFG 0) F.NH_Pp_CFG_DECAP_MS ≠ 0 ∧ s.fld (Reg.NH_Pp_CFG 0) F.NH_Pp_CFG_DECAP_MS * 1000000 ≤ s.now - (s.port 0).decapAt ∧
      s.isSet Reg.NH_CFG F.NH_CFG_AUTO_SPIT = true ∧
        (s.setFld Reg.NH_CFG F.NH_CFG_AUTO_SPIT 0).isSet Reg.NH_CFG F.NH_CFG_AUTO_SPIT = false) ∧
    (at' .idle).takes 0 Reg.HP_CTRL ∧ (at' .print).takes 0 Reg.HP_CTRL ∧ returnOk (List.replicate 8 0) = false ∧ returnOk (frame 1) = true ∧
    leAt (frame 1) 0 8 % 16 = 1 ∧ returnOk (frame 2) = true ∧ leAt (frame 2) 0 8 % 16 = 2 ∧ (at' .idle).padLoop 0 = false ∧
    (let s := press .idle HeadPort.reset rest;
      (s.port 0).st = .ready ∧ max 60 (s.fld Reg.HP_RET_CFG F.HP_RET_CFG_STALE_US) * 1000 ≤ s.now - (s.port 0).staleAt) ∧
    (at' .idle).sys.vddio5Low = false := by
  unfold State.takes; decide +kernel

theorem witness_NozzleRequests : (at' .idle).takes 0 (0x1000000 + 32 * 131071) ∧ (at' .idle).nozWriteOk 131071 3 = true ∧
    (at' .print).takes 0 (0x1000000 + 32 * 0) ∧ (at' .print).nozWriteOk 0 3 = true ∧ ((at' .print).queueReq ((at' .print).nozAsk 0 3)).isSome = true ∧
    (at' .idle).nozWriteOk 0 1 = false ∧ (at' .idle).fld Reg.AU_WIT_CFG F.AU_WIT_CFG_ROLE ≠ 2 ∧
    ((at' .idle).noz 0).state < 4 ∧ 3 ≠ ((at' .idle).noz 0).state ∧
    { at' .print with nh := { NhState.reset with queue := [⟨9, .noz 0 (some 3) none⟩] } }.nextCommit = some 9 ∧
    { at' .print with nh := { NhState.reset with staging := some (9, false) } }.nh.staging = some (9, false) ∧
    (at' .print).nh.staging = none ∧ (at' .print).nh.mapOld = none := by
  unfold State.takes; decide +kernel

/-- Evidence on line `l` of position 0 of port 0, which nozzle 0 serves. -/
def evidence (l : Nat) : State :=
  { (at' .print).setNoz 0 { (at' .print).noz 0 with serving := true } with inn := { InState.reset with evq := [⟨0, 0, l, l, 2, some 0, 1, 1⟩] } }

/-- The shadow of port 0 with the header of a head of SERIAL 0 and HEAD_TYPE 0. -/
def shadowed : State :=
  (((at' .idle).wrN Reg.NH_SHADOW 1).setPort 0 { HeadPort.reset with identValid := true }).dramWrite (131072 + 65536) ([0, 0, 0, 0, 0, 0, 1] ++
    List.replicate 57 0)

theorem witness_EvidenceAndShadow : (at' .idle).wearLimit 0 = 0 ∧ shadowed.shadowAt 0 = some 131072 ∧ shadowed.takes 0 Reg.NH_CTRL ∧
    F.NH_CTRL_PORT.get (cmdWord Reg.NH_CTRL 0 [(F.NH_CTRL_RESTORE, 1)]) = 0 ∧ (shadowed.port 0).identValid = true ∧
    leAt (shadowed.dramRead (131072 + 65536) 64) 6 1 = 1 ∧ leAt (shadowed.dramRead (131072 + 65536) 64) 0 4 = (shadowed.port 0).serial ∧
    leAt (shadowed.dramRead (131072 + 65536) 64) 4 2 = (shadowed.port 0).headType ∧ (at' .warm).takes 0 Reg.NH_CTRL ∧
    (evidence 0).line - (evidence 0).si.limits.camOffset - (evidence 0).evidWindow ≤ 0 ∧ (evidence 0).epochAt 0 = some 0 ∧
    (evidence 0).servedAt 0 0 0 = some 0 ∧ (evidence 0).fld Reg.AU_WIT_CFG F.AU_WIT_CFG_ROLE ≠ 2 ∧
    (let s := { evidence 0 with wp := { WpState.reset with pos := 10000 * 65536 } };
      0 < s.line - s.si.limits.camOffset - s.evidWindow) ∧
    (((at' .idle).setNoz 0 { (at' .idle).noz 0 with state := 3 }).noz 0).state = 3 ∧ ((at' .idle).noz 0).state ≤ 1 ∧
    (let s := (at' .idle).setFld Reg.NH_CFG F.NH_CFG_MISS_N 1;
      (s.noz 0).missRun < 15 ∧ (s.noz 0).missRun + 1 = max 1 (s.fld Reg.NH_CFG F.NH_CFG_MISS_N)) := by
  unfold State.takes; decide +kernel

/-- SERVICE with the carriage homed and stopped, and a scan in a state with nozzles to fire. -/
def carriage (st : Nat) (todo : List Nat) : State :=
  let s := (at' .service).setAxis 3 { Axis.reset with st := .stopped, homed := true, lost := false }
  { s with nh := { s.nh with gate := { s.nh.gate with st := st, todo := todo } } }

theorem witness_DropGateScan : (carriage 0 []).takes 0 Reg.NH_GATE_CTRL ∧ ((carriage 0 []).axis 3).homed = true ∧
    ((carriage 0 []).axis 3).st = .stopped ∧ (carriage 0 []).nh.gate.running = false ∧
    (carriage 0 []).si.valid ((carriage 0 []).fld Reg.NH_GATE_CFG F.NH_GATE_CFG_UNIT) = true ∧
    (∀ p ∈ ((carriage 0 []).gateList 0).map (· / 2048), ((carriage 0 []).port p).spit = none) ∧
    (carriage 1 [0]).nh.gate.running = true ∧ (carriage 1 [0]).takes 0 Reg.NH_GATE_CTRL ∧ (carriage 2 [0]).nh.gate.st = 2 ∧
    (carriage 2 [0]).nh.gate.todo = 0 :: [] ∧ 1 ≤ 1 ∧ 0 ≤ 1 := by
  unfold State.takes; decide +kernel

/-- A descriptor and imposition of one row and one plain cell at addresses 0 and 64, its ring at 64 KiB. -/
def job : State :=
  let s := (((at' .idle).setFld Reg.DC_CFG F.DC_CFG_SIZE 1).dramWrite 0 (leBytes 4 0x444A594A ++ [0, 2, 0, 0] ++ leBytes 4 7 ++ leBytes 4 0 ++ leBytes 8 0 ++ leBytes 4 1 ++ leBytes 4 56 ++
    leBytes 4 1024 ++ leBytes 4 65536 ++ leBytes 4 4096 ++ leBytes 4 0 ++ leBytes 4 0 ++ leBytes 4 0 ++ leBytes 8 0)).dramWrite 64
      (leBytes 4 0x4D49594A ++ [1, 0] ++ leBytes 2 1 ++ leBytes 2 0 ++ leBytes 2 0 ++ leBytes 4 16 ++ List.replicate 16 0 ++
        (leBytes 4 0 ++ leBytes 2 0 ++ [1, 0]) ++ (leBytes 4 0 ++ leBytes 4 1 ++ leBytes 2 0 ++ leBytes 2 1 ++ leBytes 2 0 ++ [0, 1]))
  { s with si := { Structure.reset with loaded := true } }

/-- A plate slot 0 in a state. -/
def plated (p : PlatePhase) : State := { at' .idle with js := { JsState.reset with plates := [⟨p, 0⟩] } }

/-- A job slot 0 in a state. -/
def slotted (p : JobPhase) : State := { at' .warm with js := { JsState.reset with job0 := { JobSlot.reset with phase := p, imp := ⟨[⟨0, 0, 1⟩], [], [], 16⟩ } } }

theorem witness_JobsAndPlates : (at' .idle).takes 0 Reg.JS_PLATE_CMD ∧
    (∀ k ∈ [0, 15], F.JS_PLATE_CMD_SLOT.get (cmdWord Reg.JS_PLATE_CMD (F.JS_PLATE_CMD_SLOT.put 0 k) [(F.JS_PLATE_CMD_OP, 1)]) = k) ∧
    ((plated .empty).plate 0).phase = .empty ∧ ((plated .loading).plate 0).phase = .loading ∧ ((plated .ready).plate 0).phase = .ready ∧
    job.takes 0 Reg.JS_CTRL ∧
    F.JS_CTRL_SLOT.get (cmdWord Reg.JS_CTRL 0 [(F.JS_CTRL_LOAD, 1), (F.JS_CTRL_ARM, 0), (F.JS_CTRL_UNLOAD, 0)]) = 0 ∧
    (job.job 0).phase ∈ [JobPhase.empty, .done, .failed] ∧ job.si.loaded = true ∧ job.rdN (Reg.JS_JOBs_DESC 0) * 64 = 0 ∧ job.loadErr 0 = 0 ∧
    job.loadErr 64 ≠ 0 ∧ ((slotted .loaded).job 0).phase = .loaded ∧ ((slotted .loaded).job (1 - 0)).phase ∉ [JobPhase.armed, .running, .draining] ∧
    ((slotted .armed).job 0).phase ≠ .loaded ∧ (slotted .loaded).takes 0 (Reg.JS_JOBs_RING_WP 1) ∧ ((slotted .loaded).job 1).stopped = false := by
  unfold State.takes; decide +kernel

theorem witness_RendererAndRing : (slotted .loaded).renderable 0 = true ∧
    ((slotted .loaded).job 0).bound ((slotted .loaded).job 0).nextInst ≤ (slotted .loaded).line + (slotted .loaded).si.limits.renderAhead ∧
    (let s := (slotted .loaded).setJob 0 { (slotted .loaded).job 0 with tileBufs := 1 };
      s.renderable 0 = true ∧ (s.job 0).nextInst < (s.job 0).released + (s.job 0).tileBufs) ∧
    ((slotted .loaded).job 0).released + ((slotted .loaded).job 0).tileBufs ≤ ((slotted .loaded).job 0).nextInst ∧
    (slotted .empty).renderable 0 = false ∧
    (let s := (slotted .running).setJob 0 { (slotted .running).job 0 with rendering := some ⟨0, 0, []⟩ };
      s.js.job0.rendering = some ⟨0, 0, []⟩ ∧ s.ticketRoom 4096 = true ∧ s.js.job0.endInst = none) ∧
    (let s := { at' .idle with js := { JsState.reset with cur := some 0, job0 := { JobSlot.reset with jobStart := 100 } }, si := { portStructure with limits := { Structure.reset.limits with lead := 8 } } };
      s.entryFreed (s.lringNext - s.si.limits.lead - 8) = true ∧ s.lineRendered s.lringNext = true ∧ s.js.cur.isSome = true ∧
        s.imagesAt s.lringNext = []) ∧
    (let s := { at' .idle with js := { JsState.reset with cur := some 0, job0 := { JobSlot.reset with imp := ⟨[⟨0, 0, 1⟩], [], [], 16⟩, nextInst := 1 } }, si := { portStructure with limits := { Structure.reset.limits with lead := 8 } } };
      s.entryFreed (s.lringNext - s.si.limits.lead - 8) = true ∧ s.lineRendered s.lringNext = true ∧ s.js.cur.isSome = true ∧
        s.imagesAt s.lringNext ≠ []) ∧
    (let s := { at' .idle with js := { JsState.reset with lring := [⟨1, true, []⟩, ⟨2, false, []⟩] } };
      s.js.lring = [⟨1, true, []⟩] ++ ⟨2, false, []⟩ :: [] ∧ (∀ e ∈ [LineEntry.mk 1 true []], e.complete = true ∧ e.line ≠ 2) ∧
        (∀ x ∈ s.imagesAt 2, s.tileRefused x = none)) := by decide +kernel

/-! ## Witnesses: inspection, loops, motion and memory -/

/-- Inspection enabled with a key, HWM and position far along. -/
def inspecting (m : Mode) : State :=
  let s := (at' m).setFld Reg.IN_CTRL F.IN_CTRL_EN 1
  { s with inn := { s.inn with key := some [] }, wp := { s.wp with hwm := 1000, pos := 4000 * 65536 } }

/-- A set-up that passes every check of R227 at the least sizes it allows. -/
def checked : State :=
  let s := (((at' .idle).setFld (Reg.WP_CHk_PT 0) F.WP_CHk_PT_PT_MODE 2).setFld (Reg.WP_CHk_PT 1) F.WP_CHk_PT_PT_MODE 2).setFld Reg.DC_CFG
    F.DC_CFG_SIZE 1
  let s := (((s.wrN Reg.IN_EXP_LINES 516).wrN Reg.IN_IMG_LINES 512).wrN Reg.IN_IMG_ADDR 0).wrN Reg.IN_EXP_ADDR 256
  let s := (((s.setFld Reg.IN_EVID_CFG F.IN_EVID_CFG_EVID_LINES 64).wrN (Reg.IN_KERNr 0) 511).wrN (Reg.IN_KERNr 1) 0).wrN (Reg.IN_KERNr 2) 0
  { s with si := { Structure.reset with limits := { Structure.reset.limits with camOffset := 8 } } }

theorem witness_InspectionInput : (at' .idle).takes 0 Reg.IN_CTRL ∧ F.IN_CTRL_EN.get (cmdWord Reg.IN_CTRL 1 []) = 1 ∧
    F.IN_CTRL_EN.get (cmdWord Reg.IN_CTRL 0 []) = 0 ∧ (at' .idle).inEn = false ∧ ((at' .idle).enCheck).isSome = true ∧ checked.enCheck = none ∧
    checked.takes 0 Reg.IN_CTRL ∧ checked.inEn = false ∧ checked.isWitness = false ∧
    (checked.setFld Reg.AU_WIT_CFG F.AU_WIT_CFG_ROLE 2).isWitness = true ∧ (checked.setFld Reg.AU_WIT_CFG F.AU_WIT_CFG_ROLE 2).takes 0 Reg.IN_CTRL ∧
    (inspecting .idle).inEn = true ∧ (inspecting .idle).takes 0 Reg.IN_CTRL ∧ (at' .print).takes 0 Reg.IN_CTRL ∧
    (at' .idle).takes 0 Reg.IN_TAB_DATA ∧ (at' .idle).tabSelected.isSome = true ∧
    (at' .idle).fld Reg.IN_TAB_SEL F.IN_TAB_SEL_TABLE < 3 ∧ (at' .idle).bankInUse 0 0 = false ∧
    { at' .idle with inn := { InState.reset with segs := [⟨none, 0, false, none, none, some 0, []⟩] } }.bankInUse 0 0 = true ∧
    (at' .idle).takes 0 (bankReg 15 1) ∧ (let d := cmdWord (bankReg 15 1) (F.IN_SEGk_BANK0_SET_ID.put 0 1) []
      F.IN_SEGk_BANK0_SET_ID.get d ≠ (at' .idle).fld (bankReg 15 1) F.IN_SEGk_BANK0_SET_ID) ∧
    (inspecting .print).inn.key = some [] ∧ (inspecting .print).mayClose ((inspecting .print).rdN Reg.IN_IHWM + 1) = true ∧
    (inspecting .print).mergedReady ((inspecting .print).inn.expNext + 1) = true ∧ (at' .idle).inn.key = none := by
  unfold State.takes; decide +kernel

/-- A ticket of one instance, and AU holding it. -/
def ticket : Ticket := ⟨0, 0, 0, 0, [], 0, 1, 0, 0, 0, 0, none, none, 0, 0, false, false, false, none, none, none⟩
def ticketed (t : Ticket) : State := { inspecting .print with au := { AuState.reset with tickets := [t] } }

/-- Headers with their ECC as CSI-2 gives them: Frame Start of channel 0, and the 16-byte packet of its own example; one bit wrong, two bits wrong. -/
theorem witness_CameraPackets : csiHeader 0 = some (0, false) ∧ csiHeader 0x3F01F037 = some (0x01F037, false) ∧
    csiHeader 0x3F01F036 = some (0x01F037, true) ∧ csiHeader 0x3F01F034 = none ∧ ((0 : Nat) < 2 ^ 26 ∧ (25 : Nat) < 26 ∧ (0 : Nat) < 64) ∧
    (at' .idle).fld (Reg.IN_PORTn_CFG 1) F.IN_PORTn_CFG_POL = 0 ∧ (inspecting .idle).sys.inReset = false := by decide +kernel

/-- A sent zero-length payload, and a payload with its CRC-16 from CSI-2 (FF 00 00 02 B9 DC F3 72 BB D4 B8 5A C8 75 C2 7C 81 F8 05 DF FF 00 00 01 gives 0x00F0). -/
theorem test_csi_crc : csiCrc [] = 0xFFFF ∧ csiCrc [0xFF, 0, 0, 2, 0xB9, 0xDC, 0xF3, 0x72, 0xBB, 0xD4, 0xB8, 0x5A, 0xC8, 0x75, 0xC2, 0x7C, 0x81, 0xF8,
    0x05, 0xDF, 0xFF, 0, 0, 1] = 0x00F0 := by decide +kernel

theorem witness_Verdicts :
    (let s := { inspecting .print with inn := { (inspecting .print).inn with syms := [⟨0, 0, 0, 0, 0, 1, 1, [], none, some []⟩] } };
      s.inn.syms.findIdx? (fun d => d.judged.isNone && decide (d.lastMerged ≤ s.rdN Reg.IN_IHWM)) = some 0) ∧
    (ticketed ticket).au.tickets.findIdx? (ticketed ticket).verdictDue = some 0 ∧ (ticketed ticket).au.tickets[0]? = some ticket ∧
    outsideCauses ({ ticket with flags := 255 }).flags = true ∧ outsideCauses ticket.flags = false ∧ ({ ticket with enOff := true }).enOff = true ∧
    (at' .idle).fld Reg.IN_CNT_CFG F.IN_CNT_CFG_DEFECT_MAX < ({ ticket with defects := 65536 }).defects ∧
    ticket.defects ≤ (at' .idle).fld Reg.IN_CNT_CFG F.IN_CNT_CFG_DEFECT_MAX ∧ (at' .idle).symsOf ticket = [] ∧
    (let s := { late (at' .warm) 1000000000000 with inn := { InState.reset with exitAt := some 0 } };
      s.inn.exitAt = some 0 ∧ s.mode ≠ .print ∧ s.fld Reg.IN_CFG F.IN_CFG_CLOSE_TMO * 1000000 ≤ s.now - 0) := by decide +kernel

/-- Context 0 in a state. -/
def context (l : LoopState) : State := (at' .idle).setCtx 0 { LoopCtx.reset with st := l }

theorem witness_LoopEngine : (at' .idle).mode ≠ .boot ∧ (List.range 64).filter ((at' .idle).loopDue 1) = [] ∧ State.reset.mode = .boot ∧
    (context .man).takes 0 (Reg.LE_Cc_CTRL 63) ∧ ((context .man).ctx 0).st = .man ∧
    (context .man).isSet (Reg.LE_Cc_STAT 0) F.LE_Cc_STAT_LATE = false ∧ (context .man).isSet (Reg.LE_Cc_STAT 0) F.LE_Cc_STAT_FAULT = false ∧
    ((context .auto).ctx 0).st ≠ .man ∧ ((context .man).ctx 0).tripped = false ∧
    (let s := ((context .man).setCtx 0 { (context .man).ctx 0 with tripped := true }).flag (Reg.LE_Cc_STAT 0) F.LE_Cc_STAT_FROZEN;
      s.takes 0 (Reg.LE_Cc_CTRL 0) ∧ (s.ctx 0).tripped = true ∧ s.isSet (Reg.LE_Cc_STAT 0) F.LE_Cc_STAT_FROZEN = true) := by
  unfold State.takes; decide +kernel

/-- Axis 0 fitted, with limits and a target of one step, in a state of its own. -/
def fit (x : Axis) : State :=
  let s := ((at' .service).setFld Reg.MO_CFG F.MO_CFG_FITTED 1).wrN (Reg.MO_Aa_TARGET 0) 256
  let s := ((s.wrN (Reg.MO_Aa_VMAX 0) 1).wrN (Reg.MO_Aa_AMAX 0) 1).wrN (Reg.MO_Aa_JMAX 0) 1
  (late s 1000000).setAxis 0 x

/-- An axis that may be moved, and one in motion at full speed. -/
def still : Axis := { Axis.reset with st := .stopped, homed := true, lost := false }
def going : Axis := { Axis.reset with st := .moving, homed := true, lost := false, target := some 0, vm := 1, am := 1, jm := 1, v := 1 }

/-- The cap sequence about to begin with axis 0. -/
def capping (x : Axis) : State := { fit x with mo := { (fit x).mo with capSeq := some [0] } }

theorem witness_Axes : (fit still).takes 0 (Reg.MO_Aa_CMD 0) ∧ (fit still).fitted 0 = true ∧
    (fit still).moveErr 0 false ((fit still).rdI (Reg.MO_Aa_TARGET 0)) = 0 ∧
    (∀ k ∈ [0, 1], F.MO_Aa_CMD_TRIG.get (cmdWord (Reg.MO_Aa_CMD 0) (F.MO_Aa_CMD_TRIG.put 0 k) [(F.MO_Aa_CMD_OP, 1)]) = k) ∧
    ((fit still).axis 0).st = .stopped ∧ ((fit going).axis 0).st ≠ .stopped ∧
    (fit Axis.reset).moveErr 0 false ((fit Axis.reset).rdI (Reg.MO_Aa_TARGET 0)) ≠ 0 ∧
    (let s := (fit still).setFld (Reg.MO_Aa_HOME 0) F.MO_Aa_HOME_HOME_V 65535;
      s.moveErr 0 true (s.rdI (Reg.MO_Aa_TARGET 0)) = 0) ∧
    (fit Axis.reset).mode ≠ .boot ∧ (fit Axis.reset).mode ≠ .test ∧ (fit Axis.reset).estopped = false ∧ ((fit Axis.reset).axis 0).st = .disabled ∧
    (fit still).takes 0 (Reg.MO_Aa_CMD 3) ∧ (fit still).fitted 3 = false := by
  unfold State.takes; decide +kernel

theorem witness_Axes_events : ((fit still).axis 0).endAt = none ∧ ((fit still).wrN Reg.MO_VM 24000).rdN Reg.MO_VM ≠ 0 ∧ 0 < (fit still).mo.axes.length ∧
    (((if false then ((fit still).axis 0).edgesHi else ((fit still).axis 0).edgesLo) ++ [(fit still).now]).length < 3) ∧
    { fit still with mo := { (fit still).mo with capSeq := some [] } }.mo.capSeq = some [] ∧
    (capping still).mo.capSeq = some (0 :: []) ∧ (capping still).mo.capPhase = 0 ∧ (capping still).estopped = false ∧
    ((capping still).axis 0).st ≠ .moving ∧ ((capping still).axis 0).st ≠ .homing ∧ (capping still).limitsZero 0 = false ∧
    ((capping still).axis 0).lost = false ∧ (capping still).limitToward 0 ((capping still).rdI (Reg.MO_Aa_CAP_POS 0)) = false ∧
    (let s := (((capping { still with lost := true }).setFld Reg.MO_CFG F.MO_CFG_CAP_HOME 1).setFld (Reg.MO_Aa_HOME 0) F.MO_Aa_HOME_HOME_V 65535).setFld
        (Reg.MO_Aa_STALL 0) F.MO_Aa_STALL_STALL_VMIN 1;
      (s.axis 0).lost = true ∧ s.isSet Reg.MO_CFG F.MO_CFG_CAP_HOME = true ∧
        s.fld (Reg.MO_Aa_STALL 0) F.MO_Aa_STALL_STALL_VMIN * 64 ≤ s.fld (Reg.MO_Aa_HOME 0) F.MO_Aa_HOME_HOME_V) ∧
    (fit still).takes 0 (Reg.MO_CMPm_CTRL 7) ∧ ((fit still).axis (0 / 2)).lost = false ∧
    (∀ k ∈ [0, 1, 2], F.MO_CMPm_CTRL_DIR.get (cmdWord (Reg.MO_CMPm_CTRL 0) (F.MO_CMPm_CTRL_DIR.put 0 k) [(F.MO_CMPm_CTRL_ARM, 1)]) = k) ∧
    behind 0 0 0 false = true ∧ behind 0 1 0 false = false := by
  unfold State.takes; decide +kernel

theorem witness_ProfileTick : ((fit still).axis 0).st ≠ .moving ∧ ((fit still).axis 0).st ≠ .homing ∧
    (let x := { going with v := 0 };
      x.st = .moving ∧ x.target = some 0 ∧ x.p = 0 ∧ x.v = 0 ∧ x.a = 0 ∧ x.queued = none ∧ x.lost = false) ∧
    ((0 : Int) < 1 ∧ stopDistance 1 10 1 1 ≤ 1000 - 1 ∧ jerkChoice 1 10 10 0 0 1000 = 1 ∧ jerkChoice 1 10 10 5 0 3 = -1) ∧
    ((fit going).axis 0).st = .moving ∧ ((fit going).axis 0).target.isSome = true ∧ ((fit going).axis 0).queued = none ∧
    0 ≤ ((fit going).axis 0).vm ∧ 0 ≤ ((fit going).axis 0).am ∧ (∀ c ∈ (fit going).mo.cmps, c.armed = false) := by decide +kernel

/-- A transfer of HSTR, and arbiter 0 with a transfer pending or done. -/
def xfer : Xfer := ⟨0, 0, 0, 1, false, [], 0, false, [(0, List.replicate 64 0)], 0, false⟩
def arbiter (pend done : List Xfer) : State := (at' .idle).setArb 0 { ArbState.reset with pend := pend, done := done }

/-- A held job whose two tile buffers begin at 0, and a plate slot of one line at 64 KiB, in the least DRAM. -/
def sealed : State :=
  let s := ((at' .idle).setFld Reg.DC_CFG F.DC_CFG_SIZE 1).wrN (Reg.JS_PLATEk_BASE 0) 1
  { s.setFld (Reg.JS_PLATEk_CFG 0) F.JS_PLATEk_CFG_LINES 1 with js := { JsState.reset with
      job0 := { JobSlot.reset with phase := .loaded, tileSize := 64, tileBufs := 2 }, plates := [⟨.loading, 0⟩] } }

theorem witness_FabricTransfers : 0 % 64 = 0 ∧ (0 / 4096 % 2 = 0 ∧ (0 + 64 * 4 - 1) / 4096 = 0 / 4096) ∧
    (4096 - 64) % 64 = 0 ∧ ((4096 - 64) + 64 * 1 - 1) / 4096 = (4096 - 64) / 4096 ∧
    ((arbiter [] []).arb 0).presents 0 0 = false ∧ (AMap.get (fun _ => []) (at' .idle).mf.stage (16 * 9 + 0)).length < 64 * 1 ∧
    ((arbiter [] [xfer]).arb 0).done.find? (fun t => t.isOf 0 0 && t.ended) = some xfer ∧
    ((arbiter [] [{ xfer with got := [] }]).arb 0).done.find? (fun t => t.isOf 0 0 && t.ended) = none ∧ (at' .idle).dramSize < 0 + 64 ∧
    0 + 64 ≤ sealed.dramSize ∧ sealed.tileOwner (64, 64) = some 0 ∧ sealed.tileOwner (128, 64) = none ∧ ¬(0 = 2 ∧ true = true) ∧ ¬(0 = 1 ∧ true = false) ∧
    sealed.fabricCheck 0 3 65536 64 true = none ∧ sealed.ringHit (65536, 64) = none ∧ (sealed.plate 0).phase ≠ .empty ∧
    rangesMeet (65536, 64) (sealed.plateRegion 0) = true := by decide +kernel

theorem witness_ArbiterAndDram : 0 < (at' .idle).mf.arbs.length ∧
    (let s := arbiter [xfer] [];
      let t := { s.slotTab 0 with slots := List.replicate 256 0 };
      (s.arb 0).run = none ∧ (s.arb 0).grant = none ∧ (s.arb 0).setNext = none ∧ (s.arb 0).floorCarry = false ∧ t.floors.contains 1 = false ∧
      claimant t 1 (pendingIds (s.arb 0).pend) (s.arb 0).parked false false = some 0) ∧
    (let s := { arbiter [xfer] [] with si := { Structure.reset with slots := [⟨0, 1, 0, 0, 0, 0, List.replicate 256 0⟩] } };
      (s.slotTab 0).floors.contains 1 = false ∧ claimant (s.slotTab 0) 1 (pendingIds (s.arb 0).pend) (s.arb 0).parked
        (s.slotPanic 0 s.hstrLevel).1 (s.slotPanic 0 s.hstrLevel).2 = some 0) ∧
    (let s := (at' .idle).setArb 0 { ArbState.reset with grant := some (0, 0, true), stale := true };
      (s.arb 0).run = none ∧ (s.arb 0).grant = some (0, 0, true) ∧ (s.arb 0).stale = true) ∧
    (let s := (at' .idle).setArb 0 { ArbState.reset with grant := some (0, 0, false), revoke := true, pend := [xfer],
                                                         run := some ([{ xfer with req := 2, n := 4 }], 2, false) };
      (s.arb 0).run = some ([{ xfer with req := 2, n := 4 }], 2, false) ∧ (s.arb 0).revoke = true ∧ (s.arb 0).grant = some (0, 0, false) ∧
      ({ xfer with req := 2, n := 4 } : Xfer).req ≠ 0) ∧
    (let s := (at' .idle).setDch 0 { (at' .idle).dch 0 with rq := List.replicate 64 ⟨0, 0, 0, 0, true⟩ };
      0 < s.mf.chs.length ∧ (s.dch 0).drain = false ∧ (s.dch 0).rq ≠ [] ∧ 64 ≤ (s.dch 0).rq.length ∧ (s.dch 0).wq = []) ∧
    (at' .idle).chPanic 0 = false ∧ ((at' .idle).setArb 0 { ArbState.reset with hstrPanic := true }).chPanic 0 = true ∧
    ((at' .idle).dch 0).postponed < 8 ∧ 8 ≤ (((at' .idle).setDch 0 { (at' .idle).dch 0 with postponed := 8 }).dch 0).postponed ∧
    0 < (at' .idle).mf.chs.length ∧ (((at' .idle).setDch 0 { (at' .idle).dch 0 with drain := true }).dch 0).drain = true := by decide +kernel

/-! ## Witnesses: links, time and network -/

/-- Group `g` (0 UP, 1 DOWN0) in a state of its own. -/
def linked (g : Nat) (x : LinkGroup) : State := (at' .idle).setGrp g x

/-- A link in a bring-up state with a partner controller locked on lane 0 and able to run at every speed. -/
def link (p : GroupPhase) : LinkGroup :=
  { LinkGroup.reset with st := p, lanes := 1, speed := 3, partner := 2, cap := 15, theirs := 15, creditReq := 1, creditPri := 1, width := 4 }

/-- A summit with two DOWN groups of no lanes. -/
def summit (m : Mode) : State := (at' m).setFld Reg.HL_INDEX F.HL_INDEX_SUMMIT 1

theorem witness_LanesBringUp : State.reset.sys.hlrefOk = true ∧ (linked 0 (link .active)).groupOf 0 = 0 ∧ 0 < 3 ∧
    ((linked 0 (link .active)).grp 0).st = .active ∧ 0 < (linked 0 (link .active)).laneBase 0 + ((linked 0 (link .active)).grp 0).lanes ∧
    (linked 0 (link .active)).takes 0 Reg.HL_CTRL ∧
    (∀ k ∈ [0, 7], (F.HL_CTRL_RETRAIN.get (cmdWord Reg.HL_CTRL (F.HL_CTRL_RETRAIN.put 0 k) [(F.HL_CTRL_ENUM, 0)])).testBit 0 = decide (k = 7)) ∧
    0 < (linked 0 (link .detect)).hl.groups.length ∧ ((linked 0 (link .detect)).grp 0).st = .detect ∧
    ((0 = 0 ∧ (2 = 0 ∨ 2 = 2)) ∨ (0 ≠ 0 ∧ 2 = 1)) ∧ ¬((0 = 0 ∧ (1 = 0 ∨ 1 = 2)) ∨ (0 ≠ 0 ∧ 1 = 1)) ∧
    (linked 0 (link .negotiate)).speedCodes 0 ≠ [] ∧
    (let s := { linked 0 (link .negotiate) with hl := { (linked 0 (link .negotiate)).hl with lanes := List.replicate 8 { LaneState.reset with cdr := true, blockLock := true } } };
      ([4, 2, 1].find? (fun n => decide (n ≤ s.cfgLanes 0) &&
        (List.range n).all fun i => (s.lockedMask 0 &&& (s.grp 0).theirs).testBit i)).isSome = true ∧
      (s.lockedMask 0 &&& (s.grp 0).theirs).testBit 0 = true) ∧
    ((linked 0 (link .train)).grp 0).retrain = false ∧ ((linked 0 (link .train)).grp 0).st = .train ∧
    ((linked 0 (link .negotiate)).grp 0).st = .negotiate ∧ ((linked 0 (link .stepUp)).grp 0).st = .stepUp ∧
    ((linked 0 (link .stepUp)).speedCodes 0).find? (decide <| · < ((linked 0 (link .stepUp)).grp 0).speed) ≠ none ∧
    ((linked 0 { link .stepUp with speed := 0 }).speedCodes 0).find? (decide <| · < 0) = none ∧
    ((linked 0 { link .train with retrain := true }).grp 0).retrain = true ∧ 7 < (at' .idle).hl.lanes.length := by
  unfold State.takes; decide +kernel

/-- A TRAIN block of a controller's DOWN group as its first block on lane 0 carries it, scrambled from state 0, and a marker of lane 0. -/
def trainOf (st : Nat) : Block := ⟨controlHeader, BitVec.ofNat 64 (scramble 0 (leNat [0x2D, BitVec.ofNat 8 st, 15, 2, 1, 0, 0xFF, 0])).1⟩
def markerOf : Block := ⟨controlHeader, BitVec.ofNat 64 (leNat [0x4B, 0, 0xFF, 1, 3, 0xB4, 0x4B, 0xB4])⟩

/-- A group in a state of its own on a configured lane in block lock. -/
def onLane (x : LinkGroup) : State :=
  (linked 0 x).setLane 0 { LaneState.reset with cdr := true, blockLock := true, amGood := 1 }

theorem witness_LanesBringUp_blocks : 0 < (onLane (link .detect)).cfgLanes 0 ∧ (onLane (link .detect)).laneBase 0 = 0 ∧
    (((onLane (link .detect)).laneBlocks 0 []).1.laneBlock 0 (trainOf 0)).1.bind (readTrain 0) = some (0, 15, 2, 1) ∧
    (((onLane (link .active)).laneBlocks 0 []).1.laneBlock 0 (trainOf 1)).1.bind (readTrain 0) = some (1, 15, 2, 1) ∧
    ((onLane (link .active)).lane 0).blockLock = true ∧ (State.reset.lane 0).blockLock = false ∧
    (onLane (link .active)).isMarker 0 markerOf = true ∧ ((onLane (link .active)).syncHeader 0 true).2 = false := by decide +kernel

/-- A request of 4 bytes, as a partner sends it. -/
def pkt : Pkt := ⟨1, 0, 0, 0, 1, 5, 0, 0, 4, [1, 2, 3, 4], none, true, 0⟩

theorem witness_PacketsAreKept : (link .active).nextPkt = none ∧ ({ link .active with waitq := [pkt] }).nextPkt = some pkt ∧
    pkt.flags.testBit 2 = false ∧ pkt.ty ≠ 5 ∧
    (link .active).held + ({ (linked 0 (link .active)).fillPkt pkt with seq := (link .active).txSeq }).bytes.length ≤ 65536 ∧
    ({ link .active with replay := [pkt] }).replay ≠ [] ∧
    ((linked 0 { link .active with replay := [pkt], resends := 3 }).grp 0).resends < 4 ∧
    4 ≤ ((linked 0 { link .active with replay := [pkt], resends := 4 }).grp 0).resends ∧
    ({ link .active with replay := [pkt] }).replay = [] ++ pkt :: [] ∧ pkt.seq = 0 ∧ (∀ p ∈ [pkt], p.seq ≠ 1) := by decide +kernel

theorem witness_PacketsParse : 1 ≤ pkt.ty ∧ pkt.ty ≤ 7 ∧ pkt.flags < 8 ∧ pkt.len ≤ 1024 ∧ pkt.len % 4 = 0 ∧ pkt.ty ≠ 2 ∧
    pkt.payload.length = pkt.len ∧ pkt.seq < 4096 ∧ pkt.flags.testBit 2 = false ∧ pkt.dest < 256 ∧ pkt.src < 256 ∧ pkt.tag < 65536 ∧ pkt.status < 65536 ∧
    pkt.addr < 2 ^ 64 ∧ pkt.status = 0 ∧ pkt.ty ≠ 5 ∧ pkt.ty ≠ 6 ∧ pkt.flags.testBit 0 = pkt.auth.isSome ∧ (∀ a ∈ pkt.auth, a.1 < 2 ^ 64 ∧ a.2.length = 16) := by
  decide +kernel

/-- The LINK key in its slot, and a packet whose trailer was made with it. -/
def trailed : State := { at' .idle with au := { AuState.reset with slots := [(7, List.replicate 32 0)] } }
def signedPkt : Pkt :=
  let p := { pkt with flags := 1 }
  { p with auth := some (1, (hmac256 (List.replicate 32 0) (p.header ++ p.payload ++ leBytes 8 1)).take 16) }

/-- A link with this controller at index 0. -/
def indexed (g : Nat) : State := ((linked g (link .active)).setFld Reg.HL_INDEX F.HL_INDEX_VALID 1).setFld Reg.HL_INDEX F.HL_INDEX_SUMMIT 0

theorem witness_PacketsReceived : ((indexed 0).grp 0).st = .active ∧ pktCrcOk pkt.bytes = true ∧ parsePkt pkt.bytes 0 = some pkt ∧
    pkt.seq = ((indexed 0).grp 0).rxSeq ∧
    (({ link .active with rxSeq := 2047 }).rxSeq + 4096 - pkt.seq) % 4096 < 2048 ∧ pkt.seq ≠ ({ link .active with rxSeq := 2047 }).rxSeq ∧
    2048 ≤ (({ link .active with rxSeq := 2048 }).rxSeq + 4096 - pkt.seq) % 4096 ∧ (link .active).nakSent = false ∧ pktCrcOk [] = false ∧
    ((indexed 0).receive 0 1 pkt.bytes).1 = some pkt ∧ (indexed 0).routeOf pkt true = .here ∧ (∀ w ∈ (indexed 0).fl.waits, w.source ≠ some pkt.source) ∧
    (linked 0 (link .active)).routeOf { pkt with dest := 1 } true = .refused ∧ (indexed 0).routeOf { pkt with dest := 1 } true = .group 0 ∧
    ({ pkt with flags := 2 }).host = true ∧ pkt.host = false ∧ (indexed 0).indexValid = true ∧ pkt.dest = (indexed 0).index ∧
    ((indexed 0).receive 0 3 ({ pkt with ty := 3 }).bytes).1.isSome = true ∧ ((indexed 0).receive 0 7 ({ pkt with ty := 7 }).bytes).1.isSome = true ∧
    leAt ({ pkt with payload := [2, 0, 0, 0] }).payload 0 1 = 2 := by decide +kernel

theorem witness_PacketsReceived_dma :
    (let p := { pkt with ty := 4, len := 64, payload := List.replicate 64 0 };
      let s := (at' .idle).setFld Reg.DC_CFG F.DC_CFG_SIZE 1;
      ¬(p.len < 64 ∨ p.len % 64 ≠ 0 ∨ p.addr % 64 ≠ 0) ∧ (s.writeAs 7 p.addr p.payload).1 = true ∧ ((at' .idle).writeAs 7 p.addr p.payload).1 = false) ∧
    (pkt.len < 64 ∨ pkt.len % 64 ≠ 0 ∨ pkt.addr % 64 ≠ 0) ∧
    (let p := { pkt with addr := 0xE0000 };
      let s := trailed.setFld Reg.HL_CFG F.HL_CFG_AUTH_REQ 1;
      p.ty = 1 ∧ 4 ≤ p.len ∧ p.len ≤ 256 ∧ p.addr % 2 ^ 32 % 4 = 0 ∧ s.isSet Reg.HL_CFG F.HL_CFG_AUTH_REQ = true ∧
        guarded (p.addr % 2 ^ 32) p.len = true ∧ s.trailerOk p = none ∧ p.auth = none) ∧
    trailed.trailerOk signedPkt = some 1 := by decide +kernel

theorem witness_RopeReports : (at' .idle).takes 0 Reg.HL_CTRL ∧ (indexed 0).isSummit = false ∧ (indexed 0).takes 0 Reg.HL_CTRL ∧ (summit .warm).isSummit = true ∧
    (summit .warm).takes 0 Reg.HL_CTRL ∧ (summit .idle).hl.enum = none ∧ ((summit .idle).grp 1).st = .disabled ∧ ((summit .idle).grp 2).st = .disabled ∧
    256 < 1 + 255 + 1 ∧ 16 < max 17 0 ∧ ¬(256 < 1 + 254 + 1 ∨ 16 < max 16 16) ∧
    { summit .idle with hl := { HlState.reset with enum := some ⟨none, some (0, 0)⟩ } }.hl.enum = some ⟨none, some (0, 0)⟩ ∧
    { indexed 0 with hl := { (indexed 0).hl with enum := some ⟨some (0, 0), some (0, 0)⟩ } }.isSummit = false ∧
    ((linked 1 (link .active)).grp 1).st = .active ∧ 1 < (linked 1 (link .active)).hl.groups.length ∧
    (linked 1 { link .active with echoSent := [(9, 0)] } |>.grp 1).echoSent.find? (fun e => e.1 = 9) = some (9, 0) ∧
    (let p := { pkt with ty := 6, flags := 2, len := 40, payload := [1, 0, 3] ++ List.replicate 37 0 };
      let s := { (indexed 1).setFld Reg.FL_CFG F.FL_CFG_CASCADE_HOLD 1 with si := { Structure.reset with nodes := [⟨0, 0, 0xFFFFFF⟩, ⟨0x11001, 4, 0⟩] } };
      (s.receive 1 6 p.bytes).1 = some { p with since := s.now } ∧ s.si.valid (chipH p.src) = true ∧ leAt p.payload 0 2 ≠ 0 ∧ 3 ≤ leAt p.payload 2 1 ∧
        s.isSet Reg.FL_CFG F.FL_CFG_CASCADE_HOLD = true) := by
  unfold State.takes; decide +kernel

theorem witness_PositionBroadcast : (summit .idle).isSummit = true ∧
    ((summit .idle).setFld Reg.HL_POS_CFG F.HL_POS_CFG_EN 1).isSet Reg.HL_POS_CFG F.HL_POS_CFG_EN = true ∧
    (let p := { pkt with ty := 5, flags := 4, len := 48, payload := List.replicate 48 0 };
      ((indexed 0).receive 0 5 p.bytes).1.isSome = true) ∧
    { at' .idle with now := 64000, wp := { WpState.reset with src := 2 } }.wp.src = 2 ∧
    { at' .idle with now := 64000, wp := { WpState.reset with src := 2 } }.posOver = true ∧ (at' .idle).posOver = false ∧ (at' .idle).hl.rope = none ∧
    0 < (⟨0, 0, 0, 0, 1⟩ : RopePos).period := by decide +kernel

/-- An MSPI WRITE of one word to address 0 with its CRC-8. -/
def mspiWrite : List Byte := let b := [2, 0, 0, 0, 0, 0, 1, 2, 3, 4]; b ++ [mspiCrc b]

theorem witness_MspiFrames : [(2 : Byte)].length < 6 ∧ 6 + 4 * 1 + 1 ≤ mspiWrite.length ∧ leAt mspiWrite 0 1 = 2 ∧ leAt mspiWrite 5 1 + 1 = 1 ∧
    mspiCrc (mspiWrite.take (6 + 4 * 1)) = mspiWrite.getD (6 + 4 * 1) 0 ∧
    mspiCrc (((mspiWrite.take 10) ++ [0]).take 10) ≠ ((mspiWrite.take 10) ++ [0]).getD 10 0 ∧ leAt mspiWrite 1 4 % 4 = 0 ∧
    leAt ([3, 0, 0, 0, 0, 63] : List Byte) 0 1 = 3 ∧ leAt ([3, 0, 0, 0, 0, 63] : List Byte) 5 1 + 1 ≤ 64 ∧
    64 < leAt ([3, 0, 0, 0, 0, 64] : List Byte) 5 1 + 1 ∧ leAt ([3, 1, 0, 0, 0, 0] : List Byte) 1 4 % 4 ≠ 0 ∧
    ((at' .idle).setFld Reg.HL_MSPI_CFG F.HL_MSPI_CFG_RO 1).isSet Reg.HL_MSPI_CFG F.HL_MSPI_CFG_RO = true := by decide +kernel

/-- The time block in a state of its own. -/
def timed (m : Mode) (t : TnState) : State := { at' m with tn := t }

theorem witness_Timebase : (at' .idle).takes 0 Reg.TN_CTRL ∧ (at' .print).takes 0 Reg.TN_CTRL ∧
    1000000000 ≤ ((at' .idle).wrN Reg.TN_SET_NS 1000000000).rdN Reg.TN_SET_NS ∧ ((at' .idle).wrN Reg.TN_SET_NS 999999999).rdN Reg.TN_SET_NS < 1000000000 ∧
    (timed .idle { TnState.reset with load := some (1, 2) }).tn.load = some (1, 2) ∧ (at' .idle).tn.load = none ∧
    (timed .idle { TnState.reset with ns := 999999999, frac := 2 ^ 32 - 1 }).tn.frac < 2 ^ 32 ∧
    0 ≤ ((at' .idle).tn.ns : Int) * 2 ^ 32 + (at' .idle).tn.frac + 4 * 2 ^ 32 + (at' .idle).addend ∧ (at' .idle).takes 0 Reg.TN_CAP ∧
    (timed .idle { TnState.reset with cap := [(1, List.replicate 12 0)] }).tn.cap = (1, List.replicate 12 0) :: [] ∧
    (at' .idle).takes 0 (Reg.TN_Pk_TXTS 1) ∧
    (timed .idle { TnState.reset with txts := [[(1, List.replicate 12 0)], []] }).tn.txts.getD 0 [] = (1, List.replicate 12 0) :: [] := by
  unfold State.takes; decide +kernel

theorem witness_Servo : (at' .idle).takes 0 Reg.TN_OFS_A ∧ (at' .idle).takes 0 Reg.TN_OFS_B ∧ (at' .idle).isSet Reg.TN_CFG F.TN_CFG_TSRC = false ∧
    (at' .idle).stepAllowed = false ∧
    (let s := timed .print { TnState.reset with dom := 0, domA := ⟨0, true, 0, 0⟩, domB := ⟨0, true, 0, 0⟩ };
      s.tn.dom = 0 ∧ s.tn.domA.healthy = true ∧ s.tn.domB.healthy = true ∧ s.mode = .print ∧ s.healthOver false = false ∧
        { s with now := 3000000000 }.healthOver false = true ∧ { s with now := 3000000000 }.healthOver true = true) ∧
    (let s := timed .idle { TnState.reset with dom := 1, domA := ⟨0, true, 0, 0⟩, domB := ⟨0, true, 0, 0⟩ };
      s.tn.dom = 1 ∧ s.tn.domA.healthy = true ∧ s.tn.domB.healthy = true ∧ { s with now := 2 ^ 40 }.revertOver = true) ∧
    (let d : Int := 16 * max 1 (min 10000 ((at' .idle).fld Reg.TN_DOMAIN_CFG F.TN_DOMAIN_CFG_SLEW)); d < d + 1 ∧ -d - 1 < -d ∧ d.natAbs ≤ d.natAbs) := by
  unfold State.takes; decide +kernel

/-- A broadcast frame of 60 bytes; port 0 enabled with its link up. -/
def broadcast : List Byte := List.replicate 6 255 ++ List.replicate 54 0
def ether : State := ((at' .idle).setFld (Reg.TN_Pk_CFG 0) F.TN_Pk_CFG_EN 1).setFld (Reg.TN_Pk_STAT 0) F.TN_Pk_STAT_LINK 1

theorem witness_EthernetFrames : (broadcast.drop 1).length < 60 ∧ 60 ≤ broadcast.length ∧ broadcast.length ≤ 1518 ∧
    ether.isSet (Reg.TN_Pk_CFG 0) F.TN_Pk_CFG_EN = true ∧ ether.macAccepts (broadcast.take 6) = true ∧
    slice broadcast 12 2 ≠ [0x88, 0x08] ∧ prpTrailer broadcast = none ∧ prpTrailer (prpFrame 7 0 broadcast) = some (7, 0xA + 0) ∧
    (prpFrame 7 0 broadcast).length ≤ 1524 ∧ ¬((prpFrame 7 0 broadcast).take 6 = [0x01, 0x15, 0x4E, 0, 0x01, 0]) ∧
    (dupCheck [] (beNat (slice broadcast 6 6)) 7 0).isSome = true ∧ dupCheck [⟨0, 7, 0, 0⟩] 0 7 0 = none ∧ 65535 < 65536 ∧
    (∀ d ∈ [(⟨0, 7, 0, 0⟩ : DupEnt)], (8 + 65536 - d.high) % 65536 < 32768) ∧ ether.tn.txRun = false ∧ ether.tn.audq = [] ∧
    { ether with tn := { TnState.reset with audq := [broadcast] } }.tn.audq = broadcast :: [] ∧
    ((at' .idle).setFld Reg.TN_PRP_CFG F.TN_PRP_CFG_LIFE_MS 0).fld Reg.TN_PRP_CFG F.TN_PRP_CFG_LIFE_MS = 0 ∧
    ((at' .idle).setFld Reg.TN_PRP_CFG F.TN_PRP_CFG_LIFE_MS 1).fld Reg.TN_PRP_CFG F.TN_PRP_CFG_LIFE_MS ≠ 0 ∧
    ether.isSet (Reg.TN_Pk_STAT 0) F.TN_Pk_STAT_LINK = true := by decide +kernel

/-! ## Witnesses: audit, compression and update -/

/-- Keys in slots, in a mode. -/
def keyed (m : Mode) (ks : List (Nat × List Byte)) : State := { at' m with au := { AuState.reset with slots := ks } }

/-- A SET_PUB record for slot 3 at address 0, in the least DRAM. -/
def setPubRecord : State := ((at' .idle).setFld Reg.DC_CFG F.DC_CFG_SIZE 1).dramWrite 0 (leBytes 4 0x4B50594A ++ [3, 0, 0, 0] ++ List.replicate 200 0)

theorem witness_KeyCommands : (at' .idle).takes 0 Reg.AU_KEY_CMD ∧
    (∀ k ∈ [0, 2, 7], F.AU_KEY_CMD_SLOT.get (cmdWord Reg.AU_KEY_CMD (F.AU_KEY_CMD_SLOT.put 0 k) [(F.AU_KEY_CMD_OP, 1)]) = k ∧
      F.AU_KEY_CMD_SLOT.get (cmdWord Reg.AU_KEY_CMD (F.AU_KEY_CMD_SLOT.put 0 k) [(F.AU_KEY_CMD_OP, 2)]) < 8) ∧
    (at' .idle).slot 2 = none ∧ (at' .idle).au.zgen < 64 ∧ ((keyed .idle [(2, [0])]).slot 2).isSome = true ∧
    (at' .idle).slotWritable 0 = true ∧ (at' .idle).slotWritable 1 = true ∧ (at' .idle).slotWritable 7 = true ∧ (at' .warm).slotWritable 1 = false ∧
    (at' .idle).unwrapKey 0 [] = none ∧
    (let b := ((setPubRecord.readAs 6 setPubRecord.keyArg 208).1).getD [];
      leAt b 0 4 = 0x4B50594A ∧ leAt b 5 3 = 0 ∧ 3 ≤ leAt b 4 1 ∧ leAt b 4 1 ≤ 6 ∧ setPubRecord.slot 3 = none ∧ leAt b 4 1 = 3) ∧
    ((at' .idle).readAs 6 0 208).1 = none ∧
    { at' .idle with au := { AuState.reset with eph := some ([], 1, 0) } }.au.eph = some ([], 1, 0) := by
  unfold State.takes; decide +kernel

theorem witness_ZeroizeAndAttest : (at' .print).takes 0 Reg.AU_CTRL ∧
    (((at' .idle).setFld Reg.AU_TAMPER_CFG F.AU_TAMPER_CFG_EN 8).fld Reg.AU_TAMPER_CFG F.AU_TAMPER_CFG_EN).testBit 3 = true ∧
    (((at' .idle).setFld Reg.AU_TAMPER_CFG F.AU_TAMPER_CFG_EN 7).fld Reg.AU_TAMPER_CFG F.AU_TAMPER_CFG_EN).testBit 3 = false ∧
    { at' .idle with sys := { (at' .idle).sys with inReset := true } }.sys.inReset = true ∧
    (let s := (keyed .idle [(2, [0])]).setFld Reg.DC_CFG F.DC_CFG_SIZE 1;
      s.slot 2 = some [0] ∧ (s.readAs 6 (s.rdN Reg.AU_ATT_ADDR * 64) 32).1.isSome = true ∧ s.bu.fwMeas.length = 48 ∧ s.bu.m.length = 48) := by
  unfold State.takes; decide +kernel

/-- The first ticket with its verdict, its last bar line final in every port. -/
def issued : State :=
  let t := { ticket with verdict := some 0 }
  { at' .idle with au := { AuState.reset with tickets := [t], lines := [((at' .idle).spanEnd t, ⟨none, none, 0, 2 ^ 64 - 1, 2 ^ 64 - 1, 0⟩)] } }

/-- A summit that has closed. -/
def closed (w : Bool) : Summit := ⟨List.replicate 0x110 0, [], 1, w, none⟩

theorem witness_RecordsChain : issued.isWitness = false ∧ (issued.setFld Reg.AU_WIT_CFG F.AU_WIT_CFG_ROLE 2).isWitness = true ∧
    (issued.setFld Reg.AU_WIT_CFG F.AU_WIT_CFG_ROLE 2).digestReady { ticket with verdict := some 0 } = true ∧ issued.au.tickets = { ticket with verdict := some 0 } :: [] ∧ ({ ticket with verdict := some 0 }).verdict.isSome = true ∧
    issued.digestReady { ticket with verdict := some 0 } = true ∧
    (∀ t ∈ (ticketed ticket).au.tickets.head?, t.verdict = none ∨ (ticketed ticket).digestReady t = false) ∧ 2 ^ 64 - 1 < 2 ^ 64 ∧
    (keyed .print []).slot 2 = none ∧ ((keyed .print [(2, [0])]).slot 2).isSome = true ∧ (keyed .print [(2, [0])]).au.closing = none ∧ (keyed .print [(2, [0])]).summitDue = true ∧
    ({ keyed .print [(2, [0])] with au := { (keyed .print [(2, [0])]).au with closing := some (closed false) } }).au.closing = some (closed false) := by
  decide +kernel

/-- A record of one unit waits for an audit ring of 32 units; the unit of the first sector still holds record SEQ 5. -/
def ringed (held : Bool) : State :=
  { at' .idle with au := { AuState.reset with ringq := [(0, List.replicate 128 0)], ringSeq := if held then [(31, 6)] else [] },
                   bu := { BuState.reset with regions := List.replicate 6 (0, 0) ++ [(0, 4096)] } }

theorem witness_AuditRing : (ringed false).au.ringq = (0, List.replicate 128 0) :: [] ∧ (ringed false).ringRegion.2 = 32 ∧
    (∀ u ∈ [0], u % 32 = 0 → ∀ i < 32, (ringed false).unitAcked (u + i) = true) ∧
    ¬(∀ u ∈ [0], u % 32 = 0 → ∀ i < 32, (ringed true).unitAcked (u + i) = true) ∧ (at' .idle).takes 0 Reg.AU_RING_ACK_LO ∧
    (at' .idle).takes 0 Reg.AU_RING_ACK_HI ∧ (at' .idle).takes 0 Reg.AU_CTRL := by
  unfold State.takes; decide +kernel

/-- A controller of a witness role (1 primary, 2 witness), with a co-sign request outstanding and a line composed with CT 0. -/
def witness (r : Nat) (w : WitState) : State :=
  let s := (at' .print).setFld Reg.AU_WIT_CFG F.AU_WIT_CFG_ROLE r
  { s with au := { AuState.reset with slots := [(2, [0])], wit := w, lines := [(0, ⟨some 0, none, 0, 0, 0, 0⟩)], closing := some (closed true) } }

def noWit : WitState := ⟨[], [], [], 0, none, none, none⟩

theorem witness_WitnessMode : (at' .print).witRole ≠ 2 ∧ (witness 2 noWit).witRole = 2 ∧ ((witness 2 noWit).bar (leAt (List.replicate 24 0) 4 4)).ct = some 0 ∧
    (witness 2 noWit).au.wit.blanks.contains 0 = false ∧ (∀ r ∈ (witness 2 noWit).au.wit.recv, r.line ≠ 0) ∧
    beNat (slice (List.replicate 24 0) 8 16) = 0 ∧ beNat (slice (List.replicate 24 1) 8 16) ≠ 0 ∧ (witness 2 noWit).slot 2 = some [0] ∧
    (let r := slice (List.replicate 276 0) 4 0x110;
      leAt r 0x38 4 = 0 ∧ slice r 0xD0 48 = (witness 2 noWit).bu.m) ∧
    (leAt (slice (List.replicate 276 1) 4 0x110) 0x38 4 ≠ 0 ∧ (witness 2 noWit).au.wit.done = [] ∧ (witness 2 noWit).au.wit.blanks = []) ∧
    (let s := { witness 2 { noWit with recv := [⟨1, 0, 0⟩] } with now := 1000 };
      s.au.wit.recv.find? s.witOverdue = some ⟨1, 0, 0⟩ ∧ { s with now := 999 }.witOverdue ⟨1, 0, 0⟩ = false) ∧
    (let s := { witness 1 { noWit with statusAt := some 0 } with now := 1000001 };
      s.witRole = 1 ∧ 0 + max 1 (s.fld Reg.AU_WIT_CFG F.AU_WIT_CFG_WIT_LOSS) * 1000000 < s.now) ∧
    (witness 1 noWit).witRole = 1 ∧ (witness 1 noWit).au.closing = some (closed true) ∧
    leAt (List.replicate 12 255) 8 4 = 0xFFFFFFFF ∧ leAt (List.replicate 12 0) 8 4 ≠ 0xFFFFFFFF ∧ (closed false).waiting ≠ true := by decide +kernel

/-- A container of one block of one byte (a stored block), with its index behind it, at address 0 of the least DRAM. -/
def contained : State :=
  ((at' .idle).setFld Reg.DC_CFG F.DC_CFG_SIZE 1).dramWrite 0 (leBytes 4 0x5A43594A ++ leBytes 2 1 ++ leBytes 2 0 ++ leBytes 4 64 ++ leBytes 4 1 ++
    leBytes 8 1 ++ leBytes 4 54 ++ leBytes 4 0 ++ (leBytes 4 0 ++ leBytes 4 1 ++ leBytes 4 6 ++ leBytes 4 (crc32 [7])) ++ [1, 1, 0, 254, 255, 7] ++
    (leBytes 4 32 ++ leBytes 4 22))

/-- Its decompressor job, and decompressor 0 with a job. -/
def decJob : DecJob := ⟨0, 1024, 0, 1, 1024, 64, 1, 54⟩
def decompressing (s : State) (j : DecJob) : State := s.setDec 0 (some j)

theorem witness_Compression : (at' .idle).takes 0 (Reg.CZ_Dd_CTRL 3) ∧ ((decompressing contained decJob).dec 0).isSome = true ∧ contained.dec 0 = none ∧
    contained.czMode = true ∧ (at' .test).czMode = false ∧ (at' .test).dec 0 = none ∧ 0 < contained.cz.dec.length ∧ contained.fabricCheck 0 3 0 32 false = none ∧
    headerOk (contained.fabricCipher 3 0 (contained.dramRead 0 32)) 0 1 = true ∧ headerOk (contained.fabricCipher 3 0 (contained.dramRead 0 32)) 0 2 = false ∧
    (match (contained.decBlock decJob).1 with
      | .ok b => decide (b = [7])
      | .error _ => false) = true ∧
    ((contained.decBlock decJob).2.decWrite (1 / 64 + 1) (decJob.dst + decJob.block * decJob.blockOut) [7]).1 = true ∧
    (match (contained.decBlock { decJob with block := 1 }).1 with
      | .ok _ => false
      | .error _ => true) = true ∧
    (at' .idle).takes 0 Reg.CZ_C_CTRL ∧ (at' .idle).cz.comp = none ∧
    { at' .idle with cz := { (at' .idle).cz with comp := some ⟨false, 0, 1, 0⟩ } }.cz.comp = some ⟨false, 0, 1, 0⟩ ∧
    (at' .idle).fabricCheck 0 9 0 1 false ≠ none ∧ (at' .idle).takes 0 Reg.IN_XP_CTRL ∧
    { at' .idle with inn := { InState.reset with exporting := some (1, 1) } }.inn.exporting.isSome = true ∧ (at' .idle).inn.exporting = none ∧
    0 ≤ (at' .idle).rdN Reg.IN_IMG_LINES ∧
    (let s := ((inspecting .idle).wrN Reg.IN_IMG_LINES 512).wrN Reg.IN_IHWM 1;
      1 ≤ s.rdN Reg.IN_IMG_LINES ∧ s.inRing (1 + 0) = true ∧ s.inRing (2 + 0) = false ∧ s.cz.comp = none) := by
  unfold State.takes; decide +kernel

theorem witness_ContainersDecode : ([] : List Byte).length ≤ blockIn ∧ (List.replicate blockIn (0 : Byte)).length ≤ blockIn ∧ blockIn < 2 ^ 32 := by
  refine ⟨by decide, by simp, by decide⟩

/-- FIRST_START since IDLE at cycle 0, long past its time. -/
def firstStart (m : Mode) : State :=
  { late (at' m) (2 ^ 60) with bu := { BuState.reset with log := ⟨1, 3, 0, 0, 0, 0⟩ } }

/-- Piece 0 of a manifest in the piece buffer, in a base camp of four sectors. -/
def pieceBytes : List Byte :=
  let h := leBytes 4 0x5055594A ++ leBytes 2 1 ++ [0, 0] ++ leBytes 8 9 ++ leBytes 4 0 ++ leBytes 2 4096 ++ List.replicate 38 0
  h ++ leBytes 4 (crc32 (h ++ List.replicate 4096 0)) ++ List.replicate 4096 0

def submitted (bs : List Byte) : State :=
  { at' .idle with bu := { BuState.reset with
      buf := ((List.range 1040).map fun k => (k, BitVec.ofNat 32 (leAt bs (4 * k) 4))).filter fun e => e.2 ≠ 0,
      regions := [(0x1000, 0x1000), (0x2000, 0x1000), (0x3000, 0x41000)] } }

theorem witness_FieldUpdate : (at' .idle).takes 0 Reg.BU_CTRL ∧ (at' .idle).bu.log.phase ≠ 3 ∧ (firstStart .idle).bu.log.phase = 3 ∧
    (at' .idle).confirmDue = false ∧ (firstStart .print).confirmDue = true ∧ (firstStart .idle).confirmDue = true ∧ (at' .idle).takes 0 Reg.BU_UP_CTRL ∧
    (at' .idle).pieceCheck (at' .idle).piece = some 2 ∧ (at' .idle).bu.camp ≠ .ready ∧ (at' .idle).bu.camp ≠ .armed ∧
    { at' .idle with bu := { BuState.reset with camp := .ready } }.bu.camp = .ready ∧
    { at' .idle with bu := { BuState.reset with camp := .armed } }.bu.camp = .armed ∧ ((submitted []).region 2).2 ≠ 0 := by
  unfold State.takes; decide +kernel

set_option maxRecDepth 100000 in
theorem witness_FieldUpdate_piece : (submitted pieceBytes).pieceCheck pieceBytes = none := by decide +kernel

/-- One firmware record of 8 bytes. -/
def setRecord (tag : Nat) : List Byte := leBytes 4 tag ++ leBytes 4 0

theorem witness_SettingsSets : (at' .idle).takes 0 Reg.BU_SET_CTRL ∧ (at' .idle).bu.setCopy = none ∧
    ((at' .idle).setFld Reg.DC_CFG F.DC_CFG_SIZE 1).fabricCheck 0 8 0 8 false = none ∧ setRecords 9 [0] = none ∧
    (setRecords 9 (setRecord 0xFF)).isSome = true ∧ (∃ r ∈ [(0xFF, setRecord 0xFF)], r.1 < 0x100 ∨ 0xFFFE < r.1) ∧
    setRecords 9 (setRecord 0x100) = some [(0x100, setRecord 0x100)] ∧ (∀ r ∈ [(0x100, setRecord 0x100), (0xFFFE, setRecord 0xFFFE)], 0x100 ≤ r.1 ∧ r.1 ≤ 0xFFFE) := by
  unfold State.takes; decide +kernel

/-! ## Witnesses: faults, clocks, sense and test -/

/-- An occurrence of event 7 at ROOT, and an entry of it in the queue. -/
def occ (cls : Nat) : Occ := ⟨7, cls, 0, 0, ⟨0, 0, 0⟩, none, false⟩
def inQueue (n : Nat) (cls : Nat) : State :=
  { at' .idle with fl := { FlState.reset with bufs := [occ cls], queue := List.replicate n ⟨1, 7, cls, none, 0, false, 0, ⟨0, 0, 0⟩, 0⟩ } }

theorem witness_EventsCollected : (at' .idle).fl.bufs = [] ∧ nextOcc (inQueue 0 1).fl.bufs = some (occ 1) ∧ 1 ≤ (occ 1).cls ∧ (occ 1).id ≠ Ev.ERRQ_OVERFLOW ∧
    (∃ e ∈ (inQueue 1 1).fl.queue, e.id = (occ 1).id ∧ e.unit = (inQueue 1 1).cascade (occ 1).unit) ∧
    (∀ e ∈ (inQueue 0 1).fl.queue, ¬(e.id = (occ 1).id ∧ e.unit = (inQueue 0 1).cascade (occ 1).unit)) ∧ (inQueue 0 1).fl.queue.length < 32 ∧
    0xFFFF ≤ 0xFFFF := by decide +kernel

theorem witness_QueueKeepsOrder : (inQueue 32 1).fl.queue.Pairwise (fun a b => b.cls ≤ a.cls) ∧ (inQueue 32 1).fl.queue.length = 32 ∧
    (∀ e ∈ (inQueue 32 1).fl.queue, ¬(e.id = 8 ∧ e.unit = 0)) ∧ (∀ e ∈ (inQueue 32 1).fl.queue, 1 ≤ e.cls) ∧
    (inQueue 32 1).fl.queue = List.replicate 31 ⟨1, 7, 1, none, 0, false, 0, ⟨0, 0, 0⟩, 0⟩ ++ [⟨1, 7, 1, none, 0, false, 0, ⟨0, 0, 0⟩, 0⟩] ∧ 1 < 2 := by
  decide +kernel

theorem witness_QueueAcknowledged : (inQueue 1 1).takes 0 Reg.FL_EQ_ACK ∧
    (∃ e ∈ (inQueue 1 1).fl.queue, e.seq = F.FL_EQ_ACK_SEQ.get (cmdWord Reg.FL_EQ_ACK 1 [])) ∧
    (∀ e ∈ (inQueue 1 1).fl.queue, e.seq ≠ F.FL_EQ_ACK_SEQ.get (cmdWord Reg.FL_EQ_ACK 2 [])) := by
  unfold State.takes; decide +kernel

/-- An access of master 1 that waits for the clock of DOWN lane 4 since cycle 0, long overdue. -/
def waiting' : State :=
  { late (at' .idle) (2 ^ 40) with fl := { FlState.reset with waits := [⟨.lane 4, 1, 0, none, 0, none⟩] },
                                   sys := { (at' .idle).sys with stopped := [.lane 4] } }

theorem witness_ClocksAndControls : (at' .idle).takes 0 Reg.FL_CTRL ∧ (at' .idle).mode ≠ .boot ∧ (at' .idle).sys.refOk = true ∧
    (∀ i < 4, (at' .idle).sys.pllLock.testBit i = true) ∧ (at' .idle).sys.hlrefOk = true ∧ ((linked 0 (link .active)).grp 0).st = .active ∧
    0 < (at' .print).hp.ports.length ∧ (late (at' .print) 0).now < ((at' .print).setPort 0 { HeadPort.reset with waveEnd := 1 } |>.port 0).waveEnd ∧
    (at' .idle).overdue = none ∧ waiting'.overdue = some ⟨.lane 4, 1, 0, none, 0, none⟩ ∧ (∀ w ∈ (at' .idle).fl.waits, w.dom ≠ Domain.ofNum 4) ∧
    waiting'.fl.waits.filter (fun w => w.dom = Domain.ofNum 4) = [⟨.lane 4, 1, 0, none, 0, none⟩] ∧ (at' .idle).hl.rope = none ∧
    { at' .idle with wp := { WpState.reset with src := 2 }, hl := { HlState.reset with rope := some ⟨0, 0, 0, 0, 1⟩ } }.hl.rope = some ⟨0, 0, 0, 0, 1⟩ := by
  unfold State.takes; decide +kernel

theorem witness_ClocksAndControls_relays : Ev.FRAME_LEN < 65536 ∧
    (let s := (at' .idle).relayRaise Ev.FRAME_LEN 0 pixPeriod;
      s.now < AMap.get (fun _ => 0) s.fl.relays (relayKey Ev.FRAME_LEN 0) ∧ relayBusy pixPeriod = 10 ∧
      AMap.get (fun _ => 0) s.fl.relays (relayKey Ev.LINE_LEN 0) ≤ s.now) := by decide +kernel

/-- A calibration of channel 0 in hand; a supply below its range for the third time. -/
def calibrating : State := { at' .idle with an := { (at' .idle).an with cal := some ⟨0, 2, 2, [], [], 0, 0, false⟩ } }
def lowSupply : State :=
  let s := ((at' .idle).setFld (Reg.AN_CHk_LIM 0) F.AN_CHk_LIM_LO 65535).setFld (Reg.AN_CHk_VAL 0) F.AN_CHk_VAL_SRC 0
  { s with an := { s.an with chs := { SupplyCh.reset with outside := 3 } :: List.replicate 16 { SupplyCh.reset with calok := true } } }

theorem witness_AnalogSense : (at' .idle).slotBank = some 0 ∧ 0 < 17 ∧ { at' .idle with an := { (at' .idle).an with slot := 16 } }.slotBank = none ∧
    2000 ≤ 2000 ∧ lowSupply.an.slot < 16 ∧ lowSupply.an.slot < lowSupply.an.chs.length ∧ lowSupply.an.cal = none ∧
    lowSupply.isSet (Reg.AN_CHk_VAL lowSupply.an.slot) F.AN_CHk_VAL_SRC = false ∧
    supplyMv (lowSupply.supply 0).off (lowSupply.supply 0).gcal (lowSupply.divOf 0) 0 < lowSupply.fld (Reg.AN_CHk_LIM 0) F.AN_CHk_LIM_LO ∧
    (lowSupply.supply 0).armed = true ∧ (lowSupply.supply 0).outside = 3 ∧ 0 ∈ bankPorts 0 ∧ (at' .idle).takes 0 Reg.AN_CTRL ∧
    (∀ k ∈ [0, 15, 16, 17], F.AN_CTRL_CH.get (cmdWord Reg.AN_CTRL (F.AN_CTRL_CH.put 0 k) [(F.AN_CTRL_CAL_START, 1), (F.AN_CTRL_MZERO, 0)]) = k) ∧
    (lowSupply.supply 16).calok = true ∧ ((at' .idle).supply 16).calok = false ∧
    { at' .idle with an := { (at' .idle).an with pass := [0] } }.an.pass = [0] ∧ calibrating.an.cal.isSome = true ∧
    (let s := late ((at' .idle).setFld Reg.AN_CFG F.AN_CFG_CAL_INT 1) 1000000000;
      s.fld Reg.AN_CFG F.AN_CFG_CAL_INT * 1000000000 ≤ s.now - s.an.passAt) ∧
    (fit still).fitted 0 = true ∧ ((fit still).axis 0).st ≠ .disabled ∧ (∀ a < 4, (fit Axis.reset).fitted a = true → ((fit Axis.reset).axis a).st = .disabled) := by
  unfold State.takes; decide +kernel

/-- TEST with a loop-back running, or set up on an interface. -/
def testing (ifc depth inst : Nat) : State :=
  (((at' .test).setFld Reg.TS_CFG F.TS_CFG_IF ifc).setFld Reg.TS_CFG F.TS_CFG_DEPTH depth).setFld Reg.TS_CFG F.TS_CFG_INST inst
def looping (ifc depth : Nat) : State := { at' .test with ts := ⟨some ⟨ifc, depth, 0, none, 0⟩, [], false, false, 0, 1, false⟩ }

theorem witness_TestModes : (at' .idle).takes 0 Reg.TS_CTRL ∧ (looping 0 0).ts.run.isSome = true ∧ (at' .idle).mode ≠ .test ∧
    testInsts ((testing 7 0 0).fld Reg.TS_CFG F.TS_CFG_IF) ≤ 0 ∧ testDepths ((testing 1 2 0).fld Reg.TS_CFG F.TS_CFG_IF) ≤ 2 ∧
    (testing 0 0 0).testBreaks 5 0 0 = true ∧ (testing 0 0 0).testBreaks 0 0 0 = false ∧
    (((testing 1 1 63).setPort 63 { HeadPort.reset with st := .present }).port 63).st ≠ .absent ∧ (testing 1 1 63).takes 0 Reg.TS_CTRL ∧
    ((testing 1 1 63).port 63).st = .absent ∧ (at' .test).ts.run = none ∧ (looping 0 0).ts.run = some ⟨0, 0, 0, none, 0⟩ ∧
    (⟨0, 0, 0, none, 0⟩ : TestRun).serial = true ∧ { looping 0 0 with now := 100000000 }.testOver ⟨0, 0, 0, none, 0⟩ = true ∧
    { looping 5 0 with ts := { (looping 5 0).ts with tap := 3 } }.tapActs = 3 ∧ (looping 2 0).ts.run = some ⟨2, 0, 0, none, 0⟩ ∧ (looping 6 0).ts.run = some ⟨6, 0, 0, none, 0⟩ ∧
    (at' .boot).sys.mode = .boot ∧ { at' .boot with bu := { BuState.reset with bootState := 2 } }.bu.bootState = 2 := by
  unfold State.takes; decide +kernel

/-! ## Worked examples of the spec -/

/-- 04, example under R90: 20,000 counts a revolution, LINE_RATIO 0x972E_5CB9, REV 1,693 and CNT 4,012. -/
def encoded (cnt : Nat) : State :=
  let s := ((at' .idle).wrN (Reg.WP_CHk_CPR 0) 20000).wrN Reg.WP_RATIO_FRAC 0x972E5CB9
  { s.setEnc 0 { EncCh.reset with rev := 1693, cnt := cnt } with wp := { (s.setEnc 0 { EncCh.reset with rev := 1693, cnt := cnt }).wp with
      arm := some (0, 0, 0, s.lineRatio) } }

theorem test_wpos_of_count : (encoded 4012).lineRatio = 2536398009 ∧ (encoded 4012).encU 0 = 33864012 ∧
    ((encoded 4011).count 0 true).wp.pos = 19998432 * 65536 + 18345 := by decide +kernel

/-- 08, example under R188: counts of phase 5 on four ports, BANK_MAX 6,144, F 8, O 2. -/
theorem test_overflow_slot :
    let pl := placeBank 8 2 6144 ([1900, 1700, 1600, 1300].map fun c => [0, 0, 0, 0, 0, c, 0, 0]);
    pl.load = [0, 0, 0, 0, 0, 4600, 0, 0, 1900, 0] ∧ pl.defer = [32, 0, 0, 0] ∧ pl.slotOf 0 5 = 8 ∧ 4600 / 512 = 8 ∧ 1900 / 512 = 3 := by decide +kernel

/-- 08, example under R191: a table with the entries the example gives. -/
def exampleTable : WaveTab :=
  ⟨0, (List.range 608).map fun i =>
    if i = 0x0A then 0x00 else if i = 0x0B then 0x02 else if i = 0x28 then 0x00 else if i = 0x29 then 0x3C else
    if i = 0x8A then 0x1C else if i = 0x8B then 0x43 else if i = 0x8C then 0x0C else if i = 0x8D then 0x42 else
    if i = 0xE2 then 0x00 else if i = 0xE3 then 0x42 else 0⟩

theorem test_width_factors : exampleTable.fT 992 = 15360 ∧ voltU 31400 32000 = 8038 ∧ exampleTable.fV 8038 = 17019 ∧ exampleTable.fL 4884 = 16896 ∧
    exampleTable.fD 992 1120 = 16384 := by decide +kernel
theorem test_width : pulseWidth 1200 1400 15360 17019 16896 16384 16384 = 1205 ∧ pulseWidth 180 250 15360 17019 16896 16384 16384 = 181 := by
  decide +kernel

/-- 06, Data Matrix example: the digits 2419603852177043906218345076 in 18 data codewords, and a symbol of 18 by 18. -/
def digits : List Byte := [2, 4, 1, 9, 6, 0, 3, 8, 5, 2, 1, 7, 7, 0, 4, 3, 9, 0, 6, 2, 1, 8, 3, 4, 5, 0, 7, 6].map fun d => BitVec.ofNat 8 (48 + d)

theorem test_datamatrix_codewords : (dmPad 18 (dmEncode false false digits)).take 3 = [154, 149, 190] ∧
    (dmPad 18 (dmEncode false false digits)).drop 14 = [129, 237, 133, 28] := by decide +kernel
theorem test_datamatrix_size : ((dmSymbol 0 false false digits).map List.length) = some 18 := by decide +kernel

/-- 14, example under R347: the compensation of a POS, the correction spread over the period and the cycle of the next tick. -/
theorem test_rope_tick :
    let r : RopePos := ⟨0, 65536030000 + 17207, 12, 507297, 4000⟩;
    r.at 0 = 1000000 * 65536 + 47195 ∧ 507297 * 2223 / 65536 = 17207 ∧ (r.at 2368) / 65536 = 1000000 ∧ (r.at 2369) / 65536 = 1000001 := by decide +kernel

/-- 15, example under R367: A fails with o_A = +14 ns in PRINT and B at +4,214 ns steers with BIAS 4,200 ns, which moves at 10 ns a
millisecond. -/
def steered : State :=
  ((at' .print).setFld Reg.TN_DOMAIN_CFG F.TN_DOMAIN_CFG_SLEW 10000)

theorem test_domain_switch :
    (let s := { steered with now := 3000000000, tn := { TnState.reset with dom := 0, xPrev := 14 * 16000, domA := ⟨14 * 16000, true, 0, 0⟩, domB := ⟨4214 * 16000, true, 0, 0⟩ } };
      match exec (.domainHealthTimeout false) s with
      | .next t => decide (t.tn.dom = 1) && decide (t.tn.bias = 4200 * 16000)
      | _ => false) = true ∧
    (match exec .biasSlewStep { steered with tn := { TnState.reset with bias := 4200 * 16000 } } with
      | .next t => decide (t.tn.bias = 4190 * 16000)
      | _ => false) = true := by decide +kernel

/-- 20, calibration example: one code under the old and the new corrections, DIV 30. -/
theorem test_supply_millivolts : supplyMv 38 1250310 0x1E0000 55940 = 31995 ∧ supplyMv 41 1249775 0x1E0000 55940 = 31980 := by decide +kernel

/-- 10, example: the pixel position of grid pixel 7,080 in segment 7. -/
theorem test_resampling :
    (((at' .idle).wrN (Reg.IN_SEGk_X0 7) 14438400).wrN (Reg.IN_SEGk_PITCH 7) 524288).jq 7 7080 = 1994752 ∧
    1994752 / 65536 = 30 ∧ 1994752 / 256 % 256 = 112 ∧ (560 * 144 + 480 * 112 + 128) / 256 = 525 := by decide +kernel

/-- 17, example: at most 29 bytes for each of 513 blocks and 32 for the header. -/
theorem test_container_bound : (33554432 + blockIn - 1) / blockIn = 513 ∧ 33554432 + 29 * 513 + 32 = 33569341 := by decide

/-- CRC-32 of the nine digits 1 to 9 is the check value of IEEE 802.3 (R327 names that CRC). -/
theorem test_crc32 : crc32 ((List.range 9).map fun i => BitVec.ofNat 8 (49 + i)) = 0xCBF43926 := by decide +kernel

/-- RFC 1951: a literal "a" alone, and "abcabcabcabc" as four literals and a match of length 8 at distance 3, in the static code (worked by hand from
its tables). -/
theorem test_static_form : staticForm [.lit 97] = [0x4B, 0x04, 0x00] ∧
    staticForm [.lit 97, .lit 98, .lit 99, .lit 97, .ref 8 3] = [0x4B, 0x4C, 0x4A, 0x4E, 0x84, 0x21, 0x00] := by decide +kernel

end Sys2Proof.Tests
end

section
/-! SUPPORT and PROOFS of the scope statements, first part: how every command runs, what a command's end leaves, and the memories. -/

namespace Sys2Proof.Machine

/-! ## How every command runs -/

/-- Every command but the two resets by the supplies acts outside reset (`act`) or on a pin (`actPin`). -/
theorem exec_runs (c : Instr) (s : State) :
    (∃ f, exec c s = .next (s.act f)) ∨ (∃ f, exec c s = .next (s.actPin f)) ∨
      (∃ pin, c = .powerOnReset pin) ∨ c = .supplyBrownout := by
  cases c
  case powerOnReset pin => exact .inr (.inr (.inl ⟨pin, rfl⟩))
  case supplyBrownout => exact .inr (.inr (.inr rfl))
  case vddio5Loss | encoderLevelAccept | tapInstruction | gateInputAssert | gateInputDeassert | tamper | refclkReturn |
      hlrefReturn | vddio5Return | tapReset => exact .inr (.inl ⟨_, rfl⟩)
  all_goals exact .inl ⟨_, rfl⟩

/-! ## What resets by the supplies leave -/

/-- From BOOT, an update that leaves the queue, mode logic and what is due as they were. -/
structure State.BootKeeps (s t : State) : Prop where
  keeps : s.sys.mode = .boot → t.pending = s.pending ∧ t.sys = s.sys

theorem State.BootKeeps.of_eq {s t : State} (queue : t.pending = s.pending) (sys : t.sys = s.sys) : s.BootKeeps t :=
  ⟨fun _ => ⟨queue, sys⟩⟩

theorem State.BootKeeps.refl (s : State) : s.BootKeeps s := .of_eq rfl rfl

theorem State.BootKeeps.trans {s t u : State} (h : s.BootKeeps t) (k : t.BootKeeps u) : s.BootKeeps u := ⟨fun boot => by
  obtain ⟨queue, sys⟩ := h.keeps boot
  obtain ⟨queue', sys'⟩ := k.keeps (by rw [sys, boot])
  exact ⟨queue'.trans queue, sys'.trans sys⟩⟩

theorem State.BootKeeps.ite {c : Prop} [Decidable c] {s t u : State} (ht : s.BootKeeps t) (hu : s.BootKeeps u) :
    s.BootKeeps (if c then t else u) := by
  split
  · exact ht
  · exact hu

theorem State.BootKeeps.foldl {α : Type} {f : State → α → State} (h : ∀ s x, State.BootKeeps s (f s x)) (l : List α) (s : State) :
    s.BootKeeps (l.foldl f s) := by
  induction l generalizing s with
  | nil => exact .refl s
  | cons x l ih => exact (h s x).trans (ih _)

/-- The units' counters are no part of mode logic. -/
theorem State.countUp_bootKeeps (s : State) (h k : Nat) : s.BootKeeps (s.countUp h k) :=
  State.BootKeeps.foldl (fun s u => .of_eq (State.setDyn_pending s u _) (State.setDyn_sys s u _)) _ s

theorem State.outcome_bootKeeps (s : State) (l p code : Nat) (flag : Option Nat) (final : Bool) :
    s.BootKeeps (s.outcome l p code flag final) := by
  unfold State.outcome
  extract_lets b declined s₁ s₂ s₃ unfired
  have bar : s.BootKeeps s₁ := .of_eq rfl rfl
  have spans : s₁.BootKeeps s₂ := .ite (.of_eq rfl rfl) (.ite (.of_eq rfl rfl) (.refl _))
  have lines : s₂.BootKeeps s₃ := by cases flag <;> exact .of_eq rfl rfl
  exact bar.trans (spans.trans (lines.trans (.ite (State.countUp_bootKeeps ..) (.refl _))))

theorem State.cutPort_bootKeeps (s : State) (p : Nat) (flag : Option Nat) : s.BootKeeps (s.cutPort p flag) := by
  unfold State.cutPort
  extract_lets q kept s₁
  have cut : s.BootKeeps s₁ := .of_eq rfl rfl
  refine .ite (.refl s) (cut.trans ?_)
  split
  · exact .ite (State.outcome_bootKeeps ..) (.refl _)
  · exact .refl _

/-- Events of BOOT are held for IDLE (R437): none leaves anything due. -/
theorem State.raiseWith_bootKeeps (s : State) (id minc unit detail : Nat) : s.BootKeeps (s.raiseWith id minc unit detail) := by
  refine ⟨fun boot => ?_⟩
  simp [State.raiseWith, State.raiseCore, State.mode, boot]

theorem State.disableAxis_bootKeeps (s : State) (a : Nat) : s.BootKeeps (s.disableAxis a) :=
  .of_eq rfl rfl

theorem State.estopHalt_bootKeeps (s : State) : s.BootKeeps s.estopHalt := by
  unfold State.estopHalt
  extract_lets s₁
  have disabled : s.BootKeeps s₁ := .foldl State.disableAxis_bootKeeps _ s
  exact .ite (disabled.trans (.of_eq rfl rfl)) (.refl s)

theorem State.gateLatch_bootKeeps (s : State) (g : Nat) : s.BootKeeps (s.gateLatch g) := by
  unfold State.gateLatch
  extract_lets e hp s₁ s₂ s₃
  have latched : s.BootKeeps s₁ := .of_eq rfl rfl
  have cut : s₁.BootKeeps s₂ := .foldl (fun s p => s.cutPort_bootKeeps p (some 4)) _ s₁
  have flagged : s₂.BootKeeps (s₂.flag Reg.HP_STAT F.HP_STAT_GATE_CUT) := .of_eq rfl rfl
  have raised := latched.trans (cut.trans (flagged.trans (State.raiseWith_bootKeeps _ Ev.GATE_CUT e.cls e.unit g)))
  exact .ite (.refl s) (.ite (raised.trans (State.estopHalt_bootKeeps _)) raised)

/-- Mode logic after a reset is that of BOOT but for the clocks and VDDIO5, which come from outside. -/
theorem State.afterReset_sys (s : State) (k : ResetKind) (cause : Nat) :
    (s.afterReset k cause).sys = { SysState.reset with
      refOk := s.sys.refOk, hlrefOk := s.sys.hlrefOk, onOsc := !s.sys.refOk, vddio5Low := s.sys.vddio5Low,
      stopped := Domain.dram :: s.sys.stopped.filter fun d => d = Domain.csi 0 || d = Domain.csi 1 } := by
  unfold State.afterReset
  dsimp only
  split <;> rfl

@[simp] theorem State.afterReset_pending (s : State) (k : ResetKind) (cause : Nat) :
    (s.afterReset k cause).pending = s.pending := by
  unfold State.afterReset
  dsimp only
  split <;> rfl

theorem State.afterReset_settled (s : State) (k : ResetKind) (cause : Nat) : (s.afterReset k cause).Settled := by
  simp [State.Settled, State.afterReset_sys, SysState.reset]

/-- Settled speaks of mode logic alone. -/
theorem State.Settled.of_sys {s t : State} (h : s.Settled) (e : t.sys = s.sys) : t.Settled := by
  unfold State.Settled
  rw [e]
  exact h

theorem State.powerOn_keeps (s : State) (cause : Nat) :
    (s.powerOn cause).pending = s.pending ∧ (s.powerOn cause).Settled := by
  have boot : (s.afterReset .powerOn cause).sys.mode = .boot := by rw [State.afterReset_sys]; rfl
  obtain ⟨queue, sys⟩ := (State.BootKeeps.foldl State.gateLatch_bootKeeps
    ((List.range 9).filter fun g => (s.afterReset .powerOn cause).hp.gateLevel.testBit g) _).keeps boot
  exact ⟨queue.trans (State.afterReset_pending s .powerOn cause), (State.afterReset_settled s .powerOn cause).of_sys sys⟩

theorem State.powerOnReset_pending (s : State) (pin : Bool) : (s.powerOnReset pin).pending = s.pending := by
  unfold State.powerOnReset
  split
  · split
    · exact (State.powerOn_keeps ..).1
    · rfl
  · exact (State.powerOn_keeps ..).1

theorem State.powerOnReset_settled {s : State} (h : s.Settled) (pin : Bool) : (s.powerOnReset pin).Settled := by
  unfold State.powerOnReset
  split
  · split
    · exact (State.powerOn_keeps ..).2
    · exact h
  · exact (State.powerOn_keeps ..).2

theorem State.supplyBrownout_pending (s : State) : s.supplyBrownout.pending = s.pending :=
  State.afterReset_pending s .powerOn 0

theorem State.supplyBrownout_settled (s : State) : s.supplyBrownout.Settled := State.afterReset_settled s .powerOn 0

/-! ## What a command's end leaves -/

/-- A deferred reset leaves nothing due where nothing else was. -/
theorem State.resetDue_settled {s : State} (hold : s.sys.holdDue = false) (zero : s.sys.zeroDue = false)
    (safe : s.sys.safeDue = false) : s.resetDue.Settled := by
  unfold State.resetDue
  split
  · split
    · rename_i waits
      simp only [Bool.or_eq_true, decide_eq_true_eq, Bool.not_eq_true'] at waits
      exact ⟨hold, zero, safe, fun _ => waits⟩
    · exact State.afterReset_settled ..
  · rename_i none
    exact ⟨hold, zero, safe, by simp [none]⟩

/-- Whatever the effect of a command, its end leaves nothing due. -/
theorem State.close_settled (s t : State) : (s.close t).Settled :=
  (State.resetDue_settled (s := t.settle) rfl rfl rfl).of_sys rfl

theorem State.act_settled {s : State} (h : s.Settled) (f : State → State) : (s.act f).Settled := by
  unfold State.act State.run
  split
  · exact h
  · exact State.close_settled ..

theorem State.actPin_settled (s : State) (f : State → State) : (s.actPin f).Settled := by
  unfold State.actPin State.runPin
  split
  · exact ⟨rfl, rfl, rfl, by simp⟩
  · exact State.close_settled ..

/-- Every command answers a next state; it leaves the queue alone, and nothing due where nothing was. -/
theorem exec_next (c : Instr) (s : State) : ∃ t, exec c s = .next t ∧ t.pending = s.pending ∧ (s.Settled → t.Settled) := by
  obtain ⟨f, h⟩ | ⟨f, h⟩ | ⟨pin, rfl⟩ | rfl := exec_runs c s
  · exact ⟨_, h, State.act_pending .., (State.act_settled · f)⟩
  · exact ⟨_, h, State.actPin_pending .., fun _ => State.actPin_settled ..⟩
  · exact ⟨_, rfl, State.powerOnReset_pending .., (State.powerOnReset_settled · pin)⟩
  · exact ⟨_, rfl, State.supplyBrownout_pending .., fun _ => State.supplyBrownout_settled _⟩

/-- A cycle of SYSCLK leaves the queue alone, and nothing due where nothing was. -/
theorem State.cycle_pending (s : State) : s.cycle.pending = s.pending := by
  unfold State.cycle
  exact State.act_pending ..

theorem State.cycle_settled {s : State} (h : s.Settled) : s.cycle.Settled := by
  unfold State.cycle
  exact State.act_settled (s := { s with now := s.now + 1 }) (h.of_sys rfl) _

/-- Outside reset a cycle ends after its own effect. -/
theorem State.cycle_eq_after (s : State) (out : s.sys.inReset = false) :
    s.cycle = ({ s with now := s.now + 1 } : State).after
      (if (s.now + 1) % 4 = 0 then ({ s with now := s.now + 1 } : State).tbCycle else { s with now := s.now + 1 }) := by
  unfold State.cycle
  exact State.act_eq_after { s with now := s.now + 1 } (fun s => if s.now % 4 = 0 then s.tbCycle else s) out

theorem step_cons (c : Instr) (s : State) (rest : List Instr) (h : s.pending = c :: rest) :
    step s = exec c { s with pending := rest } := by
  unfold step
  rw [h]

theorem step_nil (s : State) (h : s.pending = []) : step s = .next s.cycle := by
  unfold step
  rw [h]

/-- Settles O1: the definition of a step. -/
theorem stepRunsFront : Obligations.StepRunsFront := fun c s => step_cons c { s with pending := c :: s.pending } s.pending rfl

/-- Settles O2: every command leaves the queue alone, and an empty queue runs a cycle. -/
theorem queueIsKept : Obligations.QueueIsKept := by
  have kept (c : Instr) (s t : State) (h : exec c s = .next t) : t.pending = s.pending := by
    obtain ⟨t', h', queue, -⟩ := exec_next c s
    rw [h] at h'
    cases h'
    exact queue
  refine ⟨kept, fun c s t h => ?_, fun s empty out => ?_⟩
  · rw [step_cons c _ s.pending rfl] at h
    exact kept c _ t h
  · exact ⟨s.cycle, step_nil s empty, s.cycle_pending.trans empty, s.cycle_eq_after out⟩

/-- Settles O3: what each command's end leaves (`exec_next`), and the cycle of an empty queue. -/
theorem stepsLeaveNothingDue : Obligations.StepsLeaveNothingDue := by
  have next (s : State) : ∃ t, step s = .next t ∧ (s.Settled → t.Settled) := by
    cases queue : s.pending with
    | nil => exact ⟨s.cycle, step_nil s queue, fun h => State.cycle_settled h⟩
    | cons c rest =>
      obtain ⟨t, run, -, settled⟩ := exec_next c { s with pending := rest }
      exact ⟨t, (step_cons c s rest queue).trans run, fun h => settled (h.of_sys rfl)⟩
  refine ⟨fun s t settled run => ?_, fun s => ?_⟩
  · obtain ⟨t', run', keeps⟩ := next s
    rw [run] at run'
    cases run'
    exact keeps settled
  · obtain ⟨t, run, -⟩ := next s
    exact ⟨t, run⟩

/-- Settles O4: by computation, and the reset value of each heading for the registers. -/
theorem resetState : Obligations.ResetState := by
  refine ⟨⟨rfl, rfl, rfl, by simp [State.reset, SysState.reset]⟩, ?_, ⟨rfl, rfl, rfl⟩, rfl, rfl, rfl, rfl, rfl, rfl, fun a => rfl⟩
  exact ⟨rfl, rfl, rfl, rfl, rfl, rfl, rfl, rfl, by decide, rfl, rfl, by decide, by decide, rfl, .inl rfl⟩

/-! ## Quiet effects -/

theorem State.Quiet.serveAll {u : State} (h : u.Quiet) : u.serveAll = u := by
  obtain ⟨-, -, -, -, -, waits, domains, fwd, up, -, -, -, -, -, composes⟩ := h
  have back : u.domainsBack = u := by simp [State.domainsBack, domains]
  have down : u.linkDownCmd = u := by simp [State.linkDownCmd, fwd]
  have next : u.composeNext = u := by
    unfold State.composeNext
    rcases composes with h | h
    · simp [h]
    · simp [Option.isSome_iff_ne_none.1 h]
  have report : u.reportRoot = u := by simp [State.reportRoot, up]
  simp [State.serveAll, waits, State.serveWaits, back, down, next, report]

theorem State.Quiet.settle {u : State} (h : u.Quiet) : u.settle = u := by
  obtain ⟨-, -, hold, zero, safe, -, -, -, -, scan, loop, job0, job1, reached, -⟩ := h
  have watch : u.gateWatch = u := by simp [State.gateWatch, scan]
  have test : u.testGate = u := by simp [State.testGate, loop]
  have jobs : u.jobsDone = u := by simp [State.jobsDone, job0, job1]
  have reload : u.reloadSettle = u := by simp [State.reloadSettle, reached]
  have dues : { u with sys := { u.sys with holdDue := false, zeroDue := false, safeDue := false } } = u := by
    conv_rhs => rw [show u = { u with sys := { u.sys with
      holdDue := u.sys.holdDue, zeroDue := u.sys.zeroDue, safeDue := u.sys.safeDue } } from rfl, hold, zero, safe]
  simp only [State.settle, watch, test, jobs, reload, zero, hold, dues, Bool.false_eq_true, if_false]

/-- A command whose effect is quiet ends with that effect. -/
theorem State.Quiet.after {u : State} (h : u.Quiet) (s : State) : s.after u = { u with pending := s.pending } := by
  have reset : u.resetDue = u := by
    obtain ⟨-, none, -⟩ := h
    simp [State.resetDue, none]
  simp [State.after, State.close, h.serveAll, h.settle, reset]

/-- Settles O5. -/
theorem quietEffectsStand : Obligations.QuietEffectsStand := by
  refine ⟨fun s u h => h.after s, fun s u => State.close_settled .., fun s u m h => ?_⟩
  have completed : (u.complete m.val 0 false false).Quiet := h
  exact completed.after s

end Sys2Proof.Machine
end

section
/-! PROOFS of the scope statements, second part: the canonical form of the memories, and register accesses. -/

namespace Sys2Proof.Machine

/-! ## Reads of memories after writes -/

variable {β : Type}

/-- Removing entries by their keys. -/
theorem AMap.find?_filter (p : Nat → Bool) (m : AMap β) (a : Nat) :
    AMap.find? (m.filter fun e => p e.1) a = if p a then AMap.find? m a else none := by
  induction m with
  | nil => simp [AMap.find?]
  | cons e m ih =>
    obtain ⟨k, v⟩ := e
    by_cases here : k = a
    · subst here
      by_cases keep : p k <;> simp [AMap.find?, keep, ih]
    · by_cases keep : p k <;> simp [AMap.find?, keep, here, ih]

theorem AMap.wf_filter [DecidableEq β] {d : Nat → β} {m : AMap β} (h : AMap.wf d m = true) (p : Nat × β → Bool) :
    AMap.wf d (m.filter p) = true := by
  obtain ⟨rising, listed⟩ := (AMap.wf_iff d m).1 h
  exact (AMap.wf_iff d _).2
    ⟨rising.sublist (List.filter_sublist.map Prod.fst), fun e he => listed e (List.mem_of_mem_filter he)⟩

theorem Mem.bytes_put_self (d : Byte) (m : Mem) (a : Nat) (bs : List Byte) :
    Mem.bytes d (Mem.put d m a bs) a bs.length = bs := by
  refine List.ext_getElem (by simp [Mem.bytes]) fun i _ h => ?_
  simp [Mem.bytes, Mem.get_put_of_mem d bs m a i h]

theorem Mem.bytes_put_apart (d : Byte) (m : Mem) {a b n : Nat} {bs : List Byte} (apart : b + n ≤ a ∨ a + bs.length ≤ b) :
    Mem.bytes d (Mem.put d m a bs) b n = Mem.bytes d m b n := by
  refine List.map_congr_left fun i hi => Mem.get_put_of_not_mem d bs m a (b + i) ?_
  have := List.mem_range.1 hi
  omega

/-- Erased bytes of a memory, and those apart from them. -/
theorem Mem.bytes_erased (d : Byte) (m : Mem) (a n : Nat) :
    Mem.bytes d (m.filter fun c => !(a ≤ c.1 && c.1 < a + n)) a n = List.replicate n d := by
  refine List.eq_replicate_iff.2 ⟨by simp [Mem.bytes], fun x hx => ?_⟩
  obtain ⟨i, hi, rfl⟩ := List.mem_map.1 hx
  have := List.mem_range.1 hi
  rw [AMap.get, AMap.find?_filter fun k => !(a ≤ k && k < a + n)]
  simp [this]

theorem Mem.bytes_erased_apart (d : Byte) (m : Mem) {a n b k : Nat} (apart : b + k ≤ a ∨ a + n ≤ b) :
    Mem.bytes d (m.filter fun c => !(a ≤ c.1 && c.1 < a + n)) b k = Mem.bytes d m b k := by
  refine List.map_congr_left fun i hi => ?_
  have := List.mem_range.1 hi
  rw [AMap.get, AMap.find?_filter fun k => !(a ≤ k && k < a + n), if_pos, AMap.get]
  simp only [Bool.not_eq_true', Bool.and_eq_false_iff, decide_eq_false_iff_not]
  omega

/-- Settles O6. -/
theorem memoriesKeepForm : Obligations.MemoriesKeepForm := by
  refine ⟨fun s a w ⟨regs, dram, flash⟩ => ⟨⟨AMap.wf_set regs a w, dram, flash⟩, State.rd_wr_self .., fun b h => State.rd_wr_ne s w h⟩,
    fun s a bs ⟨regs, dram, flash⟩ => ⟨⟨regs, Mem.wf_put _ bs _ a dram, flash⟩, Mem.bytes_put_self .., fun b n h =>
      Mem.bytes_put_apart _ _ h⟩,
    fun s a bs ⟨regs, dram, flash⟩ => ?_,
    fun s a n ⟨regs, dram, flash⟩ => ⟨⟨regs, dram, AMap.wf_filter flash _⟩, Mem.bytes_erased .., fun b k h =>
      Mem.bytes_erased_apart _ _ h⟩⟩
  have length : (((s.flashRead a bs.length).zip bs).map fun p => p.1 &&& p.2).length = bs.length := by
    simp [State.flashRead, Mem.bytes]
  refine ⟨⟨regs, dram, Mem.wf_put _ _ _ a flash⟩, ?_, fun b n h => Mem.bytes_put_apart _ _ (by rwa [length])⟩
  have programmed := Mem.bytes_put_self flashDefault s.flash a (((s.flashRead a bs.length).zip bs).map fun p => p.1 &&& p.2)
  rwa [length] at programmed

/-! ## Accesses refused and granted -/

/-- R480: an access of a wrong width, alignment or address changes the two registers that record it alone. -/
theorem State.busAccess_of_unmapped (s : State) (m a width : Nat) (data : Option Word)
    (h : width ≠ 4 ∨ a % 4 ≠ 0 ∨ mapped a = false) :
    s.busAccess m a width data = (s.busFault m a).complete m 0 true false := by
  have refused : (width ≠ 4 || a % 4 ≠ 0 || !mapped a) = true := by simpa [or_assoc] using h
  simp only [State.busAccess, State.access]
  rw [if_pos refused]

theorem State.rd_busFault_addr (s : State) (m a : Nat) : (s.busFault m a).rd Reg.SYS_BUS_ERR = BitVec.ofNat 32 a :=
  (State.rd_wrN_ne _ m (by decide)).trans (State.rd_wrN_self s Reg.SYS_BUS_ERR a)

theorem State.rd_busFault_master (s : State) (m a : Nat) : (s.busFault m a).rd Reg.SYS_BUS_MST = BitVec.ofNat 32 m :=
  State.rd_wrN_self _ Reg.SYS_BUS_MST m

theorem State.rd_busFault_ne (s : State) (m a : Nat) {b : Nat} (h : b ≠ Reg.SYS_BUS_ERR) (h' : b ≠ Reg.SYS_BUS_MST) :
    (s.busFault m a).rd b = s.rd b := (State.rd_wrN_ne _ m h').trans (State.rd_wrN_ne s a h)

/-- A granted read is performed and completes. -/
theorem State.busRead_of_grants (s : State) (m : Master) (a : Nat) (h : s.grants m a = true) :
    s.busRead m.val a = (s.readWord a).2.complete m.val (s.readWord a).1 false false := by
  simp only [State.grants, Bool.and_eq_true, decide_eq_true_eq, Bool.not_eq_true', Bool.and_eq_false_iff,
    decide_eq_false_iff_not] at h
  obtain ⟨⟨⟨⟨⟨aligned, maps⟩, window⟩, -⟩, -⟩, runs⟩ := h
  have ownWindow : (0x10000 ≤ a && a < 0x10800 && (a - 0x10000) / 0x100 ≠ m.val) = false := by
    simp only [Bool.and_eq_false_iff, decide_eq_false_iff_not]
    tauto
  simp only [State.busRead, State.busAccess, State.access, Option.isSome_none, Bool.false_and]
  rw [if_neg (by simp [aligned, maps]), if_neg (by simpa using ownWindow), Option.filter_eq_none_of_isNone _ _ runs]
  rfl

/-! ## Fields of a register that a write leaves -/

/-- A field reads the same of two words that agree on its bits. -/
theorem BitField.get_congr (f : BitField) {v w : Word} (h : ∀ i, f.lo ≤ i → i ≤ f.hi → v.getLsbD i = w.getLsbD i) :
    f.get v = f.get w := by
  refine Nat.eq_of_testBit_eq fun i => ?_
  simp only [BitField.get, bits, Nat.testBit_mod_two_pow, Nat.testBit_shiftRight]
  by_cases inside : i < f.hi + 1 - f.lo
  · simp only [inside, decide_true, Bool.true_and]
    exact h _ (by omega) (by omega)
  · simp [inside]

/-- Flags that a write of 1 clears are cleared in their own bits alone. -/
theorem BitField.get_cleared_ne (f g : BitField) (v : Word) (x : Nat) (h : f.lo ≤ f.hi)
    (apart : f.hi < g.lo ∨ g.hi < f.lo) : g.get (v &&& ~~~(f.put 0 x)) = g.get v := by
  refine g.get_congr fun i lo hi => ?_
  have unset : (f.put 0 x).getLsbD i = false := by
    simp only [BitField.put, BitVec.getLsbD_ofNat, Bool.and_eq_false_iff]
    exact .inr ((testBit_setBits 0 f.hi f.lo x i h (by omega)).trans (Nat.zero_testBit i))
  simp only [BitVec.getLsbD_and, BitVec.getLsbD_not, unset, Bool.not_false, Bool.and_true]
  by_cases inside : i < 32
  · simp [inside]
  · simp [BitVec.getLsbD_of_ge v i (by omega)]

/-- A field lies in its register. -/
def FieldRow.inWord (f : FieldRow) : Bool := f.lo ≤ f.hi && f.hi < 32

/-- Every field of the register map lies in its register. -/
theorem blockRows_inWord (k : Nat) : (blockRows k).all (fun r => r.fields.all FieldRow.inWord) = true := by
  unfold blockRows
  split <;> decide +kernel

theorem mem_of_findRow {l : List RegRow} {a : Nat} {r : RegRow} {i : Nat} (h : findRow l a = some (r, i)) : r ∈ l := by
  induction l with
  | nil => simp [findRow] at h
  | cons x l ih =>
    unfold findRow at h
    split at h
    · cases h
      exact List.mem_cons_self
    · exact List.mem_cons_of_mem x (ih h)

theorem findReg_inWord {a : Nat} {r : RegRow} {i : Nat} (h : findReg a = some (r, i)) {f : FieldRow} (hf : f ∈ r.fields) :
    f.lo ≤ f.hi ∧ f.hi < 32 := by
  have all := List.all_eq_true.1 (List.all_eq_true.1 (blockRows_inWord (a / 0x10000)) r (mem_of_findRow h)) f hf
  simpa [FieldRow.inWord] using all

/-- The write of one field of a register, by its type (R5): `State.fieldWrite` makes it of each in turn. -/
def State.writeField (s : State) (a : Nat) (w : Word) (f : FieldRow) : State :=
  let b : BitField := ⟨f.hi, f.lo⟩
  match f.ty with
  | .rw | .rws => s.setFld a b (b.get w)
  | .w1c => s.wr a (s.rd a &&& ~~~(b.put 0 (b.get w)))
  | _ => s

theorem State.fieldWrite_of_findReg (s : State) (a : Nat) (w : Word) {r : RegRow} {i : Nat} (h : findReg a = some (r, i)) :
    s.fieldWrite a w = r.fields.foldl (fun s f => s.writeField a w f) s := by
  simp only [State.fieldWrite, h]
  rfl

/-- A field that firmware cannot write is left alone. -/
theorem State.writeField_ro (s : State) (a : Nat) (w : Word) {f : FieldRow} (ro : f.ty = .ro) : s.writeField a w f = s := by
  simp [State.writeField, ro]

/-- The write of a field leaves the fields beside it alone. -/
theorem State.get_writeField_ne (s : State) (a : Nat) (w : Word) {f : FieldRow} (g : BitField) (h : f.lo ≤ f.hi)
    (h32 : f.hi < 32) (apart : f.hi < g.lo ∨ g.hi < f.lo) : g.get ((s.writeField a w f).rd a) = g.get (s.rd a) := by
  unfold State.writeField
  extract_lets b
  split
  · exact (congrArg g.get (State.rd_wr_self ..)).trans (BitField.get_put_ne b g _ _ h h32 apart)
  · exact (congrArg g.get (State.rd_wr_self ..)).trans (BitField.get_put_ne b g _ _ h h32 apart)
  · exact (congrArg g.get (State.rd_wr_self ..)).trans (BitField.get_cleared_ne b g _ _ h apart)
  · rfl

/-- A write of a register leaves a read-only field alone that no other field overlaps. -/
theorem State.get_fieldWrite_ro (s : State) (a : Nat) (w : Word) {r : RegRow} {i : Nat} (h : findReg a = some (r, i))
    {f : FieldRow} (ro : f.ty = .ro) (apart : ∀ g ∈ r.fields, g = f ∨ g.hi < f.lo ∨ f.hi < g.lo) :
    (⟨f.hi, f.lo⟩ : BitField).get ((s.fieldWrite a w).rd a) = (⟨f.hi, f.lo⟩ : BitField).get (s.rd a) := by
  rw [State.fieldWrite_of_findReg s a w h]
  have inWord : ∀ g ∈ r.fields, g.lo ≤ g.hi ∧ g.hi < 32 := fun g hg => findReg_inWord h hg
  generalize r.fields = l at apart inWord
  induction l generalizing s with
  | nil => rfl
  | cons g l ih =>
    refine (ih (s.writeField a w g) (fun x hx => apart x (List.mem_cons_of_mem g hx))
      fun x hx => inWord x (List.mem_cons_of_mem g hx)).trans ?_
    obtain ⟨order, top⟩ := inWord g List.mem_cons_self
    obtain rfl | beside := apart g List.mem_cons_self
    · rw [State.writeField_ro s a w ro]
    · exact State.get_writeField_ne s a w _ order top beside

/-- Settles O9: a refused access is a bus fault, a granted one is performed, and read-only fields stay. -/
theorem registerAccesses : Obligations.RegisterAccesses := by
  refine ⟨fun s m a width d out refused => ?_, fun s m a out refused => ?_, fun s m a d takes ro low => ?_,
    fun s m a takes => ?_, fun s a w r i row f _ ro apart => State.get_fieldWrite_ro s a w row ro apart⟩
  · refine ⟨(s.busFault m.val a.toNat).complete m.val 0 true false, ?_, rfl, ?_, ?_, ?_, rfl⟩
    · rw [← State.busAccess_of_unmapped s m.val a.toNat width (some d) refused]
      exact congrArg _ (State.act_eq_after s _ out)
    · exact (State.rd_busFault_addr s m.val a.toNat).trans ((BitVec.ofNat_toNat 32 a).trans (BitVec.setWidth_eq a))
    · have small : m.val < 2 ^ 32 := by omega
      exact (congrArg BitVec.toNat (State.rd_busFault_master s m.val a.toNat)).trans (Nat.mod_eq_of_lt small)
    · exact fun b err mst => State.rd_busFault_ne s m.val a.toNat err mst
  · refine ⟨(s.busFault m.val a.toNat).complete m.val 0 true false, ?_, rfl, rfl⟩
    rw [← State.busAccess_of_unmapped s m.val a.toNat 4 none (.inr refused)]
    exact congrArg _ (State.act_eq_after s _ out)
  · exact congrArg _ (State.act_busWrite_of_takes s m a.toNat d takes ro low)
  · rw [← State.busRead_of_grants s m a.toNat takes.2]
    exact congrArg _ (State.act_eq_after s _ takes.1)

end Sys2Proof.Machine
end

section
/-! PROOFS of the scope statements, third part: the frames of O7 and O8 fail. The model numbers lanes and interrupt lines by unbounded
naturals, and the statements range over every state: where a group's first lane, or the line of a buffered occurrence, lies far
beyond those there are, an event writes the register that would stand at that number, outside the blocks its frame names. No
other effect within the frame leads to the same end, for what ends a command writes no address beyond the blocks. -/

namespace Sys2Proof.Machine

/-! ## States whose commands end quietly -/

/-- A state in HOLD, its cap sequence in hand, in which no access, unit command, reset, scan, loop-back, job or reload waits for the
end of a command. -/
def State.Calm (s : State) : Prop :=
  s.sys.mode = .hold ∧ s.mo.capSeq.isSome = true ∧ s.ut.cmd = none ∧ s.fl.waits = [] ∧ s.sys.pendingReset = none ∧
  s.nh.gate.running = false ∧ s.ts.run = none ∧ (s.job 0).phase ≠ .closing ∧ (s.job 1).phase ≠ .closing ∧
  s.bu.reload.reached = false

/-- From a calm state, an update to a calm state that writes no address beyond the blocks of registers. -/
structure State.CalmStep (s t : State) : Prop where
  keeps : s.Calm → t.Calm ∧ ∀ a, 0x140000 ≤ a → t.rd a = s.rd a

namespace State.CalmStep

theorem refl (s : State) : s.CalmStep s := ⟨fun h => ⟨h, fun _ _ => rfl⟩⟩

theorem trans {s t u : State} (h : s.CalmStep t) (k : t.CalmStep u) : s.CalmStep u := ⟨fun calm => by
  obtain ⟨calm', rd⟩ := h.keeps calm
  obtain ⟨calm'', rd'⟩ := k.keeps calm'
  exact ⟨calm'', fun a ha => (rd' a ha).trans (rd a ha)⟩⟩

theorem ite {c : Prop} [Decidable c] {s t u : State} (ht : s.CalmStep t) (hu : s.CalmStep u) :
    s.CalmStep (if c then t else u) := by
  split
  · exact ht
  · exact hu

theorem foldl {α : Type} {f : State → α → State} (h : ∀ s x, State.CalmStep s (f s x)) (l : List α) (s : State) :
    s.CalmStep (l.foldl f s) := by
  induction l generalizing s with
  | nil => exact .refl s
  | cons x l ih => exact (h s x).trans (ih _)

/-- An update of what neither the registers nor `Calm` speak of. -/
theorem of_eq {s t : State} (calm : s.Calm → t.Calm) (regs : t.regs = s.regs) : s.CalmStep t :=
  ⟨fun h => ⟨calm h, fun a _ => by simp only [State.rd, regs]⟩⟩

/-- A register of the blocks written. -/
theorem wr (s : State) {a : Nat} (w : Word) (low : a < 0x140000) : s.CalmStep (s.wr a w) :=
  ⟨fun h => ⟨h, fun _ hb => State.rd_wr_ne s w (by omega)⟩⟩

theorem flag (s : State) {a : Nat} (f : BitField) (low : a < 0x140000) : s.CalmStep (s.flag a f) := wr s _ low

theorem setFld (s : State) {a : Nat} (f : BitField) (v : Nat) (low : a < 0x140000) : s.CalmStep (s.setFld a f v) := wr s _ low

theorem bump (s : State) {a : Nat} (f : BitField) (low : a < 0x140000) : s.CalmStep (s.bump a f) := wr s _ low

theorem of_raiseKeeps {s t : State} (h : RaiseKeeps s t) : s.CalmStep t := ⟨fun calm => by
  refine ⟨?_, fun a ha => h.rd a ?_ ?_ ?_⟩
  · unfold State.Calm State.job at *
    rwa [h.sys, h.mo, h.ut, h.waits, h.nh, h.ts, h.js, h.bu]
  all_goals
    rintro rfl
    revert ha
    decide⟩

theorem raise (s : State) (id : Nat) : s.CalmStep (s.raise id) := of_raiseKeeps (State.raise_keeps s id 0)

theorem xingReset (s : State) (blk : Nat) (keys : List Nat) : s.CalmStep (s.xingReset blk keys) := by
  unfold State.xingReset
  extract_lets s₁
  have free : s.CalmStep (s.relaysFree keys) := of_eq id rfl
  have record : s.CalmStep s₁ := (free.trans (bump _ _ (by decide))).trans (setFld _ _ _ (by decide))
  exact record.trans ((flag _ _ (by decide)).trans (of_raiseKeeps (State.raiseWith_keeps ..)))

theorem domainsBack (s : State) : s.CalmStep s.domainsBack := by
  unfold State.domainsBack
  refine foldl (fun s d => ?_) _ s
  have back : s.CalmStep { s with fl := { s.fl with resetDomains := s.fl.resetDomains.erase d } } := of_eq id rfl
  exact back.trans (xingReset _ _ _)

theorem linkDownCmd (s : State) : s.CalmStep s.linkDownCmd := ⟨fun calm => by
  obtain ⟨-, -, cmd, -⟩ := id calm
  have none : s.linkDownCmd = s := by simp [State.linkDownCmd, State.forwardLost, cmd]
  rw [none]
  exact (refl s).keeps calm⟩

theorem composeNext (s : State) : s.CalmStep s.composeNext := ⟨fun calm => by
  obtain ⟨mode, -⟩ := id calm
  have none : s.composeNext = s := by simp [State.composeNext, State.composes, State.mode, mode]
  rw [none]
  exact (refl s).keeps calm⟩

theorem emit (s : State) (p : Pkt) : s.CalmStep (s.emit p) := by
  unfold State.emit
  split
  · exact ite (refl s) (of_eq id rfl)
  · exact refl s
  · exact (flag s _ (by decide)).trans (raise _ _)

theorem reportRoot (s : State) : s.CalmStep s.reportRoot := by
  have timed : s.CalmStep { s with hl := { s.hl with evtAt := s.now } } := of_eq id rfl
  exact ite (timed.trans (emit _ _)) (refl s)

theorem serveAll (s : State) : s.CalmStep s.serveAll := ⟨fun calm => by
  have served : s.serveAll = s.domainsBack.linkDownCmd.composeNext.reportRoot := by
    obtain ⟨-, -, -, waits, -⟩ := id calm
    simp [State.serveAll, waits, State.serveWaits]
  rw [served]
  exact ((((domainsBack s).trans (linkDownCmd _)).trans (composeNext _)).trans (reportRoot _)).keeps calm⟩

theorem writeSet (s : State) (c sver : Nat) (fw : List (Nat × List Byte)) : s.CalmStep (s.writeSet c sver fw).2 := by
  unfold State.writeSet
  extract_lets r b
  split
  · exact refl s
  · exact of_eq id rfl

theorem rewriteSet (s : State) (c : Nat) : s.CalmStep (s.rewriteSet c) := by
  unfold State.rewriteSet
  split <;> exact writeSet ..

theorem keySave (s : State) : s.CalmStep s.keySave := by
  have stored : s.CalmStep { s with au := { s.au with store := (s.au.slots, s.au.zgen) } } := of_eq id rfl
  unfold State.keySave
  extract_lets c
  generalize c = c at *
  exact stored.trans ((rewriteSet _ c).trans (rewriteSet _ (1 - c)))

theorem keysErased (s : State) : s.CalmStep s.eraseTiles.inKeyErase := of_eq id rfl

theorem zeroize (s : State) : s.CalmStep s.zeroize := by
  unfold State.zeroize
  extract_lets s₁ slots back gen last au s₂ s₃
  have cleared : s.CalmStep s₂ := of_eq id rfl
  have erased : s₂.CalmStep s₃ :=
    (keySave s₂).trans ((keysErased _).trans
      ((bump _ F.AU_TAMPER_CNT_COUNT (by decide)).trans (flag _ F.AU_STAT_ZEROIZED (by decide))))
  have exhausted : s₃.CalmStep (((s₃.flag Reg.AU_STAT F.AU_STAT_KEYSTORE_EXH).raise Ev.KEYSTORE_EXHAUSTED).csrSet F.FL_CSR_KEYSTORE) :=
    ((flag s₃ _ (by decide)).trans (raise _ _)).trans (of_raiseKeeps (State.csrSet_keeps _ _))
  exact (cleared.trans erased).trans (ite exhausted (refl s₃))

/-- In HOLD, entry to HOLD gives up a transition; the cap sequence runs already. -/
theorem enterHold (s : State) : s.CalmStep s.enterHold := ⟨fun calm => by
  obtain ⟨mode, cap, -⟩ := id calm
  have given : s.CalmStep { s with sys := { s.sys with trans := none } } := of_eq id rfl
  have there : s.enterHold = { s with sys := { s.sys with trans := none } } := by
    have runs : State.capStart { s with sys := { s.sys with trans := none } } = { s with sys := { s.sys with trans := none } } :=
      if_pos cap
    unfold State.enterHold
    rw [if_pos (show s.mode = .hold from mode)]
    simp only [runs, ite_self]
  rw [there]
  exact given.keeps calm⟩

theorem reloadSettle (s : State) : s.CalmStep s.reloadSettle := ⟨fun calm => by
  obtain ⟨-, -, -, -, -, -, -, -, -, reached⟩ := id calm
  have none : s.reloadSettle = s := by simp [State.reloadSettle, reached]
  rw [none]
  exact (refl s).keeps calm⟩

theorem settle (s : State) : s.CalmStep s.settle := ⟨fun calm => by
  have idle : s.gateWatch.testGate.jobsDone = s := by
    obtain ⟨-, -, -, -, -, scan, loop, job0, job1, -⟩ := id calm
    have watch : s.gateWatch = s := by simp [State.gateWatch, scan]
    have test : s.testGate = s := by simp [State.testGate, loop]
    rw [watch, test]
    simp [State.jobsDone, job0, job1]
  have step : s.CalmStep s.settle := by
    unfold State.settle
    rw [idle]
    extract_lets s₁ s₂ s₃
    have zeroed : s.CalmStep s₂ := ite (zeroize s) (refl s)
    have held : s₂.CalmStep s₃ := ite (enterHold s₂) (reloadSettle s₂)
    exact (zeroed.trans held).trans (of_eq id rfl)
  exact step.keeps calm⟩

theorem resetDue (s : State) : s.CalmStep s.resetDue := ⟨fun calm => by
  obtain ⟨-, -, -, -, pending, -⟩ := id calm
  have none : s.resetDue = s := by simp [State.resetDue, pending]
  rw [none]
  exact (refl s).keeps calm⟩

theorem requeued (s : State) (l : List Instr) : s.CalmStep { s with pending := l } := of_eq id rfl

/-- A command whose effect is calm ends in a calm state, with every address beyond the blocks as the effect left it. -/
theorem after (s u : State) : u.CalmStep (s.after u) :=
  (serveAll u).trans ((settle u.serveAll).trans ((resetDue u.serveAll.settle).trans (requeued _ s.pending)))

end State.CalmStep

/-- An effect framed by HL alone of a calm state is calm. -/
theorem State.Frame.calm {s u : State} (h : s.Frame [0x0C] u) (calm : s.Calm) : u.Calm := by
  obtain ⟨-, -, -, -, -, cmd, waits, mode, -, reset, -, -, -, js, -, nh, -, -, mo, -, -, -, -, -, bu, -, ts⟩ := h
  unfold State.Calm State.job at *
  rwa [mode, mo (by decide), cmd, waits, reset, nh (by decide), ts (by decide), js (by decide), bu (by decide)]

/-- Where a calm command's effect writes an address beyond the blocks, no effect framed by HL leads to the same end. -/
theorem State.not_frame_of_write_beyond {s v : State} {a : Nat} (calm : s.Calm) (calm' : v.Calm) (beyond : 0x140000 ≤ a)
    (written : v.rd a ≠ s.rd a) {o : Host.Outcome State Fault Refusal} (ends : o = .next (s.after v)) :
    ¬ ∃ u : State, o = .next (s.after u) ∧ s.Frame [0x0C] u := by
  rintro ⟨u, ends', frame⟩
  have same : s.after v = s.after u := by
    rw [ends] at ends'
    exact Host.Outcome.next.inj ends'
  refine written ?_
  calc v.rd a = (s.after v).rd a := (((State.CalmStep.after s v).keeps calm').2 a beyond).symm
    _ = (s.after u).rd a := by rw [same]
    _ = u.rd a := ((State.CalmStep.after s u).keeps (frame.calm calm)).2 a beyond
    _ = s.rd a := by
      obtain ⟨rd, -⟩ := frame
      refine rd a ?_ ?_
      · simp only [List.mem_singleton]
        omega
      · omega

/-! ## Two events whose registers lie beyond the blocks -/

/-- The effect of TRAIN_BLOCK while HL_REFCLK is there. -/
theorem exec_trainBlock (s : State) (g : Fin 3) (i : Fin 4) (before : List Block) (hdr : Fin 4) (lo hi : BitVec 32) (cdr : Bool)
    (out : s.sys.inReset = false) (ref : s.sys.hlrefOk = true) :
    exec (.trainBlock g i before hdr lo hi cdr) s = .next (s.after (s.trainBlock g.val i.val before ⟨hdr, hi ++ lo⟩ cdr)) := by
  have lanes : s.onLanes (·.trainBlock g.val i.val before ⟨hdr, hi ++ lo⟩ cdr) =
      s.trainBlock g.val i.val before ⟨hdr, hi ++ lo⟩ cdr := if_pos ref
  rw [← lanes]
  exact congrArg _ (State.act_eq_after s _ out)

/-- The effect of EVENT_COLLECT. -/
theorem exec_eventCollect (s : State) (out : s.sys.inReset = false) :
    exec .eventCollect s = .next (s.after s.eventCollect) := congrArg _ (State.act_eq_after s _ out)

/-- HOLD with the cap sequence in hand, all else as after reset. -/
def heldReset : State :=
  { State.reset with sys := { SysState.reset with mode := .hold }, mo := { MoState.reset with capSeq := some [] } }

/-- UP as one lane, numbered 2^20. -/
def farLane : State :=
  { heldReset with hl := { HlState.reset with groups := [{ LinkGroup.reset with base := 2 ^ 20, width := 1 }] } }

/-- `farLane` once a block with an invalid header has come on its lane. -/
def farLaneHit : State := farLane.trainBlock 0 0 [] ⟨0, 0#32 ++ 0#32⟩ true

/-- A buffered occurrence with interrupt line 2^20. -/
def farLine : State :=
  { heldReset with fl := { FlState.reset with bufs := [⟨0, 0, 0, 0, ⟨0, 0, 0⟩, some (2 ^ 20), false⟩] } }

theorem farLane_calm : farLane.Calm ∧ farLaneHit.Calm := by
  unfold State.Calm
  decide +kernel

theorem farLine_calm : farLine.Calm ∧ farLine.eventCollect.Calm := by
  unfold State.Calm
  decide +kernel

/-- The invalid header counts in the register HL_Lk_ERR of that number. -/
theorem rd_farLaneHit : farLaneHit.rd (Reg.HL_Lk_ERR (2 ^ 20)) ≠ farLane.rd (Reg.HL_Lk_ERR (2 ^ 20)) := by
  decide +kernel

/-- The occurrence sets its bit in the register FL_IRQm_STAT of that number. -/
theorem rd_farLine_eventCollect :
    farLine.eventCollect.rd (Reg.FL_IRQm_STAT (2 ^ 20)) ≠ farLine.rd (Reg.FL_IRQm_STAT (2 ^ 20)) := by
  decide +kernel

/-- Refutes O7: a TRAIN block on a lane that the state numbers 2^20 writes outside HL. -/
theorem not_linkFrames : ¬ Obligations.LinkFrames := by
  intro h
  obtain ⟨calm, calm'⟩ := farLane_calm
  exact State.not_frame_of_write_beyond calm calm' (by decide) rd_farLaneHit (exec_trainBlock farLane 0 0 [] 0 0 0 true rfl rfl)
    (h farLane (.trainBlock 0 0 [] 0 0 0 true) 0x0C rfl rfl)

/-- Refutes O8: the collection of an occurrence whose interrupt line is 2^20 writes outside HL and FL. -/
theorem not_blockFrames : ¬ Obligations.BlockFrames := by
  intro h
  obtain ⟨calm, calm'⟩ := farLine_calm
  exact State.not_frame_of_write_beyond calm calm' (by decide) rd_farLine_eventCollect (exec_eventCollect farLine rfl)
    (h farLine .eventCollect [0x0C] rfl rfl)

end Sys2Proof.Machine
end

section
/-! SUPPORT of O35: what each stage of a slot can do to the arbiters. -/

namespace Sys2Proof.Machine

/-! ## Arbiters after an update -/

theorem State.arb_setArb_self (s : State) {a : Nat} (x : ArbState) (h : a < s.mf.arbs.length) : (s.setArb a x).arb a = x := by
  simp [State.arb, State.setArb, List.getD, h]

theorem State.arb_setArb_ne (s : State) {a b : Nat} (x : ArbState) (h : b ≠ a) : (s.setArb a x).arb b = s.arb b := by
  simp [State.arb, State.setArb, List.getD, Ne.symm h]

/-- An arbiter that is not there cannot be replaced. -/
theorem State.setArb_eq_self (s : State) {a : Nat} (x : ArbState) (h : ¬ a < s.mf.arbs.length) : s.setArb a x = s := by
  simp [State.setArb, List.set_eq_of_length_le (Nat.le_of_not_lt h)]

/-- An update of a slot of arbiter `a`: the image and every other arbiter stay, and `R` holds of arbiter `a` before and after. -/
structure State.ArbStep (a : Nat) (R : ArbState → ArbState → Prop) (s t : State) : Prop where
  si : t.si = s.si
  length : t.mf.arbs.length = s.mf.arbs.length
  others : ∀ b, b ≠ a → t.arb b = s.arb b
  own : R (s.arb a) (t.arb a)

namespace State.ArbStep

variable {a : Nat} {R Q P : ArbState → ArbState → Prop} {s t u : State}

theorem mono (h : s.ArbStep a R t) (le : ∀ x y, R x y → Q x y) : s.ArbStep a Q t := ⟨h.si, h.length, h.others, le _ _ h.own⟩

theorem comp (h : s.ArbStep a R t) (k : t.ArbStep a Q u) (rel : ∀ x y z, R x y → Q y z → P x z) : s.ArbStep a P u :=
  ⟨k.si.trans h.si, k.length.trans h.length, fun b hb => (k.others b hb).trans (h.others b hb), rel _ _ _ h.own k.own⟩

/-- Updates that reach no arbiter. -/
theorem same (si : t.si = s.si) (arbs : t.mf.arbs = s.mf.arbs) : s.ArbStep a Eq t :=
  ⟨si, by rw [arbs], fun b _ => by simp only [State.arb, arbs], by simp only [State.arb, arbs]⟩

theorem same_trans (h : s.ArbStep a Eq t) (k : t.ArbStep a R u) : s.ArbStep a R u := h.comp k fun _ _ _ e r => e ▸ r

theorem trans_same (h : s.ArbStep a R t) (k : t.ArbStep a Eq u) : s.ArbStep a R u := h.comp k fun _ _ _ r e => e ▸ r

theorem refl (s : State) : s.ArbStep a Eq s := same rfl rfl

theorem setFld (s : State) (r : Nat) (f : BitField) (v : Nat) : s.ArbStep a Eq (s.setFld r f v) := same rfl rfl

theorem flag (s : State) (r : Nat) (f : BitField) : s.ArbStep a Eq (s.flag r f) := same rfl rfl

theorem bump (s : State) (r : Nat) (f : BitField) : s.ArbStep a Eq (s.bump r f) := same rfl rfl

theorem raise (s : State) (id : Nat) : s.ArbStep a Eq (s.raise id) :=
  same (State.raise_keeps s id 0).si (by rw [(State.raise_keeps s id 0).mf])

/-- Where nothing of arbiter `a` changes, what holds of it and itself holds. -/
theorem of_refl (h : s.ArbStep a Eq t) (refl' : ∀ x, R x x) : s.ArbStep a R t := h.mono fun x _ e => e ▸ refl' x

theorem setArb (h : ∀ x, R x x) {x : ArbState} (own : R (s.arb a) x) : s.ArbStep a R (s.setArb a x) := by
  by_cases there : a < s.mf.arbs.length
  · exact ⟨rfl, List.length_set .., fun b hb => s.arb_setArb_ne x hb, by rwa [s.arb_setArb_self x there]⟩
  · rw [s.setArb_eq_self x there]
    exact (refl s).of_refl h

theorem foldl {α : Type} {f : State → α → State} (refl' : ∀ x, R x x) (trans' : ∀ x y z, R x y → R y z → R x z)
    (h : ∀ s x, State.ArbStep a R s (f s x)) (l : List α) (s : State) : s.ArbStep a R (l.foldl f s) := by
  induction l generalizing s with
  | nil => exact (refl s).of_refl refl'
  | cons x l ih => exact (h s x).comp (ih _) trans'

end State.ArbStep

/-! ## What each stage may change of an arbiter -/

namespace ArbState

/-- At most the parked queue changes. -/
def ParkedBut (x y : ArbState) : Prop := y = { x with parked := y.parked }

/-- At most the bursts of the run and of the transfers done change; no run begins. -/
def RunBut (x y : ArbState) : Prop := y = { x with run := y.run, done := y.done } ∧ (x.run = none → y.run = none)

/-- At most the decision for the next slot changes. -/
def DecisionBut (x y : ArbState) : Prop :=
  y = { x with grant := y.grant, stale := y.stale, revoke := y.revoke, floorCarry := y.floorCarry, parked := y.parked }

/-- At most the mark that a pending transfer has starved changes. -/
def StarvedBut (x y : ArbState) : Prop :=
  ∃ f : Xfer → Xfer, (∀ t, f t = t ∨ f t = { t with starved := true }) ∧ y = { x with pend := x.pend.map f }

/-- The slot and the panics stay. -/
def SlotKept (x y : ArbState) : Prop := y.slot = x.slot ∧ y.hstrPanic = x.hstrPanic ∧ y.camwPanic = x.camwPanic

theorem ParkedBut.refl (x : ArbState) : ParkedBut x x := rfl

theorem DecisionBut.refl (x : ArbState) : DecisionBut x x := rfl

theorem RunBut.refl (x : ArbState) : RunBut x x := ⟨rfl, id⟩

theorem StarvedBut.refl (x : ArbState) : StarvedBut x x := ⟨id, fun _ => .inl rfl, by simp⟩

theorem ParkedBut.trans (x y z : ArbState) (h : ParkedBut x y) (k : ParkedBut y z) : ParkedBut x z := by
  unfold ParkedBut at *
  rw [k, h]

theorem RunBut.trans (x y z : ArbState) (h : RunBut x y) (k : RunBut y z) : RunBut x z := by
  obtain ⟨h, none⟩ := h
  obtain ⟨k, none'⟩ := k
  refine ⟨?_, fun e => none' (none e)⟩
  rw [k, h]

theorem DecisionBut.trans (x y z : ArbState) (h : DecisionBut x y) (k : DecisionBut y z) : DecisionBut x z := by
  unfold DecisionBut at *
  rw [k, h]

theorem DecisionBut.of_parked (x y : ArbState) (h : ParkedBut x y) : DecisionBut x y := by
  unfold DecisionBut
  unfold ParkedBut at h
  rw [h]

theorem SlotKept.trans (x y z : ArbState) (h : SlotKept x y) (k : SlotKept y z) : SlotKept x z :=
  ⟨k.1.trans h.1, k.2.1.trans h.2.1, k.2.2.trans h.2.2⟩

theorem SlotKept.of_run (x y : ArbState) (h : RunBut x y) : SlotKept x y := by
  rw [h.1]
  exact ⟨rfl, rfl, rfl⟩

theorem SlotKept.of_decision (x y : ArbState) (h : DecisionBut x y) : SlotKept x y := by
  rw [h]
  exact ⟨rfl, rfl, rfl⟩

theorem SlotKept.of_starved (x y : ArbState) (h : StarvedBut x y) : SlotKept x y := by
  obtain ⟨f, -, rfl⟩ := h
  exact ⟨rfl, rfl, rfl⟩

end ArbState

/-! ## The end of a slot: the decision and the watchdog -/

theorem State.passedOver_arbStep (s : State) (a i r : Nat) : s.ArbStep a ArbState.ParkedBut (s.passedOver a i r) := by
  unfold State.passedOver
  extract_lets hint cnt s₁ x thr
  have counted : s.ArbStep a Eq s₁ := .same rfl rfl
  refine counted.same_trans ?_
  split
  · exact (State.ArbStep.refl s₁).of_refl ArbState.ParkedBut.refl
  · split
    · exact .setArb ArbState.ParkedBut.refl rfl
    · exact ((State.ArbStep.flag s₁ _ _).same_trans (.raise _ Ev.PARK_FULL)).of_refl ArbState.ParkedBut.refl

theorem State.passedOver_staged (s : State) (a i r : Nat) : (s.passedOver a i r).mf.staged = s.mf.staged := by
  unfold State.passedOver
  extract_lets hint cnt s₁ x thr
  split
  · rfl
  · split
    · rfl
    · rw [(State.raise_keeps ..).mf]
      rfl

theorem State.fabricWatch_arbStep (s : State) (a : Nat) (holder : Option (Nat × Nat)) :
    s.ArbStep a ArbState.StarvedBut (s.fabricWatch a holder) := by
  unfold State.fabricWatch
  extract_lets viol s₁ lim
  have violated (s : State) (kind r : Nat) (f : BitField) (id : Nat) : s.ArbStep a Eq (((viol s kind r).flag Reg.MF_STAT f).raise id) := by
    have noted : s.ArbStep a Eq (viol s kind r) :=
      ((State.ArbStep.setFld s _ _ _).same_trans (.setFld _ _ _ _)).same_trans (.setFld _ _ _ _)
    exact noted.same_trans ((State.ArbStep.flag _ _ f).same_trans (.raise _ id))
  have cycle : s.ArbStep a Eq s₁ := by
    unfold s₁
    split
    · split
      · exact violated _ 1 _ F.MF_STAT_CYCLE Ev.FABRIC_CYCLE
      · exact .refl s
    · exact .refl s
  refine cycle.same_trans ?_
  split
  · rename_i t _
    extract_lets s₂
    have marked : s₁.ArbStep a ArbState.StarvedBut s₂ := by
      refine .setArb ArbState.StarvedBut.refl ⟨fun u => if u = t then { u with starved := true } else u, fun u => ?_, rfl⟩
      by_cases e : u = t
      · exact .inr (if_pos e)
      · exact .inl (if_neg e)
    exact marked.trans_same (violated s₂ 0 t.req F.MF_STAT_STARVE Ev.FABRIC_STARVE)
  · exact (State.ArbStep.refl s₁).of_refl ArbState.StarvedBut.refl

theorem State.fabricWatch_staged (s : State) (a : Nat) (holder : Option (Nat × Nat)) :
    (s.fabricWatch a holder).mf.staged = s.mf.staged := by
  unfold State.fabricWatch
  extract_lets viol s₁ lim
  have violated (s : State) (kind r : Nat) (f : BitField) (id : Nat) :
      (((viol s kind r).flag Reg.MF_STAT f).raise id).mf.staged = s.mf.staged := by
    rw [(State.raise_keeps _ id 0).mf]
    rfl
  have cycle : s₁.mf.staged = s.mf.staged := by
    unfold s₁
    split
    · split
      · exact violated _ 1 _ F.MF_STAT_CYCLE Ev.FABRIC_CYCLE
      · rfl
    · rfl
  split
  · rename_i t _
    exact (violated _ 0 t.req F.MF_STAT_STARVE Ev.FABRIC_STARVE).trans cycle
  · exact cycle

theorem State.slotDecide_arbStep (s : State) (a : Nat) (pend0 : List Xfer) (parked0 : List Nat) :
    s.ArbStep a ArbState.DecisionBut (s.slotDecide a pend0 parked0) := by
  unfold State.slotDecide
  extract_lets x i t ids static choose waiting pass s₁ w₁ floor s₂ w₂
  have chosen (s : State) (r : Nat) (floor rev : Bool) : s.ArbStep a ArbState.DecisionBut (choose s r floor rev) := .setArb ArbState.DecisionBut.refl rfl
  have passed (s : State) (w : Option Nat) : s.ArbStep a ArbState.DecisionBut (pass s w) :=
    .foldl ArbState.DecisionBut.refl ArbState.DecisionBut.trans (fun s r => (s.passedOver_arbStep a i r).mono ArbState.DecisionBut.of_parked) _ s
  have both (s : State) (r : Nat) (floor rev : Bool) (w : Option Nat) :
      s.ArbStep a ArbState.DecisionBut (pass (choose s r floor rev) w) :=
    (chosen s r floor rev).comp (passed _ w) ArbState.DecisionBut.trans
  split
  · rename_i ts k began _
    extract_lets u
    have carried : s.ArbStep a ArbState.DecisionBut s₁ := .setArb ArbState.DecisionBut.refl rfl
    refine carried.comp ?_ ArbState.DecisionBut.trans
    clear_value w₁
    cases w₁ with
    | none => exact passed s₁ none
    | some r =>
      dsimp only
      split
      · exact passed s₁ none
      · exact both s₁ r false true _
  · have carried : s.ArbStep a ArbState.DecisionBut s₂ := .setArb ArbState.DecisionBut.refl rfl
    refine carried.comp ?_ ArbState.DecisionBut.trans
    clear_value w₂
    cases w₂ with
    | none => exact passed s₂ none
    | some r => exact both s₂ r floor false _

theorem State.slotDecide_staged (s : State) (a : Nat) (pend0 : List Xfer) (parked0 : List Nat) :
    (s.slotDecide a pend0 parked0).mf.staged = s.mf.staged := by
  unfold State.slotDecide
  extract_lets x i t ids static choose waiting pass s₁ w₁ floor s₂ w₂
  have passed (s : State) (w : Option Nat) : (pass s w).mf.staged = s.mf.staged := by
    refine List.foldlRecOn (motive := fun u : State => u.mf.staged = s.mf.staged) _ _ rfl fun u h r _ => ?_
    exact (u.passedOver_staged a i r).trans h
  clear_value w₁ w₂
  split
  · cases w₁ with
    | none => exact passed s₁ none
    | some r =>
      dsimp only
      split
      · exact passed s₁ none
      · exact passed (choose s₁ r false true) _
  · cases w₂ with
    | none => exact passed s₂ none
    | some r => exact passed (choose s₂ r floor false) _

/-- R296: where the arbiter has no run, an unoccupied slot that is no floor slot goes to its claimant. -/
theorem State.slotDecide_grant (s : State) {a : Nat} (pend0 : List Xfer) (parked0 : List Nat) {r : Nat}
    (there : a < s.mf.arbs.length) (run : (s.arb a).run = none) (carry : (s.arb a).floorCarry = false)
    (free : (s.slotTabFor a (((s.arb a).slot + 1) % 256)).floors.contains (((s.arb a).slot + 1) % 256) = false)
    (claim : claimant (s.slotTabFor a (((s.arb a).slot + 1) % 256)) (((s.arb a).slot + 1) % 256) (pendingIds pend0) parked0
      (s.arb a).hstrPanic (s.arb a).camwPanic = some r) :
    ∃ lane, ((s.slotDecide a pend0 parked0).arb a).grant = some (r, lane, false) := by
  unfold State.slotDecide
  extract_lets x i t ids static choose waiting pass s₁ w₁ floor s₂ w₂
  have passed (s : State) (w : Option Nat) : ((pass s w).arb a).grant = (s.arb a).grant := by
    have kept : s.ArbStep a ArbState.ParkedBut (pass s w) :=
      .foldl ArbState.ParkedBut.refl ArbState.ParkedBut.trans (fun s r => s.passedOver_arbStep a i r) _ s
    rw [kept.own]
  split
  · rename_i busy
    exact absurd (busy.symm.trans run) (by simp)
  · have unheld : floor = false := by simp only [floor, static, t, i, x, free, carry, Bool.or_self]
    have claimed : w₂ = some r := by
      simp only [w₂, unheld, Bool.false_eq_true, if_false]
      exact claim
    have here : a < s₂.mf.arbs.length := there.trans_eq (List.length_set ..).symm
    rw [claimed, unheld]
    exact ⟨_, (passed _ _).trans (congrArg ArbState.grant (State.arb_setArb_self s₂ _ here))⟩

/-! ## The bursts of a slot -/

theorem State.setJob_arbStep (s : State) {a : Nat} (k : Nat) (j : JobSlot) : s.ArbStep a Eq (s.setJob k j) := .same rfl rfl

theorem State.rasterFill_arbStep (s : State) {a : Nat} (addr n : Nat) : s.ArbStep a Eq (s.rasterFill addr n) := by
  unfold State.rasterFill
  split
  · exact .refl s
  · rename_i k _
    extract_lets j free f
    split
    · exact s.setJob_arbStep k _
    · have failed : s.ArbStep a Eq (s.jobToFailed k 0xD) := .same rfl rfl
      exact failed.same_trans ((State.ArbStep.flag _ _ _).same_trans (.raise _ Ev.RASTER_ORDER))

theorem State.plateFill_arbStep (s : State) {a : Nat} (addr n : Nat) : s.ArbStep a Eq (s.plateFill addr n) := by
  unfold State.plateFill
  split
  · exact .same rfl rfl
  · exact .refl s

theorem State.firstAdmitted_arbStep (s : State) {a : Nat} (r addr : Nat) : s.ArbStep a Eq (s.firstAdmitted r addr) := by
  unfold State.firstAdmitted
  split
  · exact (s.plateFill_arbStep addr 64).same_trans (State.rasterFill_arbStep _ addr 64)
  · split
    · exact .same rfl rfl
    · exact .refl s

theorem State.setNoz_arbStep (s : State) {a : Nat} (i : Nat) (r : NozRec) : s.ArbStep a Eq (s.setNoz i r) := .same rfl rfl

theorem State.sramPut_arbStep (s : State) {a : Nat} (g off : Nat) (b : List Byte) : s.ArbStep a Eq (s.sramPut g off b) := by
  unfold State.sramPut
  split
  · exact (s.setNoz_arbStep _ _).same_trans (State.setNoz_arbStep _ _ _)
  · exact .same rfl rfl

/-- The admission of a burst reaches no arbiter. -/
theorem State.admitBurst_arbStep {s s' : State} {a i c : Nat} {t t' : Xfer} (h : s.admitBurst c t i = some (s', t')) :
    s.ArbStep a Eq s' := by
  unfold State.admitBurst at h
  extract_lets addr t₁ x s₁ s₂ wq at h
  clear_value t₁
  split at h
  · split at h
    · cases h
      exact s.sramPut_arbStep _ _ _
    · cases h
      exact .refl s
  · split at h
    · split at h
      · cases h
      · cases h
        have written : s.ArbStep a Eq s₁ := .same rfl rfl
        have first : s₁.ArbStep a Eq s₂ := by
          unfold s₂
          split
          · exact s₁.firstAdmitted_arbStep _ _
          · exact .refl s₁
        exact (written.same_trans first).same_trans (.same rfl rfl)
    · split at h
      · cases h
        exact .bump s _ _
      · split at h
        · cases h
        · cases h
          exact .same rfl rfl

/-- The admission of a burst of each transfer of a run reaches no arbiter. -/
theorem State.admitBursts_arbStep {a c k : Nat} (ts : List Xfer) {s s' : State} {l l' : List Xfer}
    (h : ts.foldl (fun (q : Option (State × List Xfer)) t => q.bind fun q => (q.1.admitBurst c t k).map fun e => (e.1, q.2 ++ [e.2]))
      (some (s, l)) = some (s', l')) : s.ArbStep a Eq s' := by
  induction ts generalizing s l with
  | nil =>
    cases h
    exact .refl _
  | cons t ts ih =>
    simp only [List.foldl_cons, Option.bind_some] at h
    cases admitted : s.admitBurst c t k with
    | none =>
      rw [admitted, Option.map_none] at h
      have stuck (ts : List Xfer) : ts.foldl (fun (q : Option (State × List Xfer)) t =>
          q.bind fun q => (q.1.admitBurst c t k).map fun e => (e.1, q.2 ++ [e.2])) none = none := by
        induction ts with
        | nil => rfl
        | cons t ts ih => exact ih
      simp [stuck] at h
    | some e =>
      rw [admitted, Option.map_some] at h
      exact (State.admitBurst_arbStep admitted).same_trans (ih h)

theorem State.slotAdmit_of_idle (s : State) (a : Nat) (run : (s.arb a).run = none) : s.slotAdmit a = s := by
  unfold State.slotAdmit
  rw [run]

theorem State.slotAdmit_arbStep (s : State) (a : Nat) : s.ArbStep a ArbState.RunBut (s.slotAdmit a) := by
  cases run : (s.arb a).run with
  | none =>
    rw [s.slotAdmit_of_idle a run]
    exact (State.ArbStep.refl s).of_refl ArbState.RunBut.refl
  | some r =>
    obtain ⟨ts, k, f⟩ := r
    unfold State.slotAdmit
    rw [run]
    dsimp only
    split
    · exact (State.ArbStep.bump s _ _).of_refl ArbState.RunBut.refl
    · rename_i s' ts' admitted
      have same : s.ArbStep a Eq s' := State.admitBursts_arbStep ts admitted
      refine same.same_trans (.setArb ArbState.RunBut.refl ⟨rfl, fun none => ?_⟩)
      rw [← same.own, run] at none
      cases none

theorem State.dramIssue_arbStep (s : State) {a : Nat} (c addr r : Nat) : s.ArbStep a Eq (s.dramIssue c addr r) := by
  unfold State.dramIssue
  extract_lets rank k row x hit s₁
  have moved : s.ArbStep a Eq s₁ := .same rfl rfl
  split <;> exact moved.same_trans (.bump s₁ _ _)

theorem State.dramServe_arbStep (c n : Nat) (s : State) : s.ArbStep c ArbState.RunBut (State.dramServe c n s) := by
  induction n generalizing s with
  | zero => exact (State.ArbStep.refl s).of_refl ArbState.RunBut.refl
  | succ n ih =>
    unfold State.dramServe
    extract_lets x
    split
    · exact (State.ArbStep.refl s).of_refl ArbState.RunBut.refl
    · rename_i b rest _
      split
      · exact (State.ArbStep.refl s).of_refl ArbState.RunBut.refl
      · extract_lets bs s₁ ch s₂
        have issued : s.ArbStep c Eq s₁ := by
          unfold s₁
          split
          · exact .bump s _ _
          · exact s.dramIssue_arbStep _ _ _
        have served : s₁.ArbStep c Eq s₂ := .same rfl rfl
        have arrived : s₂.ArbStep c ArbState.RunBut (s₂.setArb c ((s₂.arb c).arrive b bs)) :=
          .setArb ArbState.RunBut.refl ⟨rfl, fun none => by simp [ArbState.arrive, none]⟩
        exact (issued.same_trans (served.same_trans arrived)).comp (ih _) ArbState.RunBut.trans

theorem State.refresh_arbStep (s : State) {a : Nat} (c : Nat) : s.ArbStep a Eq (s.refresh c) := by
  unfold State.refresh
  extract_lets x s₁
  have closed : s.ArbStep a Eq s₁ := .same rfl rfl
  refine closed.same_trans ?_
  split
  · exact .refl s₁
  · rename_i osc shift _
    extract_lets s₂
    have shifted : s₁.ArbStep a Eq s₂ := .setFld s₁ _ _ _
    refine shifted.same_trans ?_
    split
    · exact (State.ArbStep.flag s₂ _ _).same_trans (.raise _ Ev.DRAM_DRIFT)
    · exact .refl s₂

end Sys2Proof.Machine
end

section
/-! SUPPORT of O35: a slot of an arbiter from its start to its decision. -/

namespace Sys2Proof.Machine

theorem State.ArbStep.setCnt (s : State) {a : Nat} (b r : Nat) (c : ArbCnt) : s.ArbStep a Eq (s.setCnt b r c) := .same rfl rfl

theorem State.ArbStep.setDch (s : State) {a : Nat} (c : Nat) (x : DramCh) : s.ArbStep a Eq (s.setDch c x) := .same rfl rfl

/-! ## The start of a slot -/

/-- R304: the table in force after the switch is the one that applies to the slot. -/
theorem State.slotSwitch_slotTab (s : State) (a : Nat) : (s.slotSwitch a).slotTab a = s.slotTabFor a (s.arb a).slot := by
  unfold State.slotSwitch State.slotTabFor
  extract_lets x
  cases next : (s.arb a).setNext with
  | none => rfl
  | some k =>
    by_cases there : a < s.mf.arbs.length
    · simp only [x]
      split
      · simp only [State.slotTab, s.arb_setArb_self _ there]
        rfl
      · rfl
    · simp only [x, s.setArb_eq_self _ there, ite_self]

/-- A switch changes the table set of the arbiter alone. -/
def ArbState.SetBut (x y : ArbState) : Prop := y = { x with set := y.set, setNext := y.setNext }

theorem State.slotSwitch_arbStep (s : State) (a : Nat) : s.ArbStep a ArbState.SetBut (s.slotSwitch a) := by
  have refl (x : ArbState) : x.SetBut x := rfl
  unfold State.slotSwitch
  extract_lets x
  split
  · split
    · exact .setArb refl rfl
    · exact (State.ArbStep.refl s).of_refl refl
  · exact (State.ArbStep.refl s).of_refl refl

theorem State.slotSwitch_mf (s : State) (a : Nat) :
    (s.slotSwitch a).now = s.now ∧ (s.slotSwitch a).mf.staged = s.mf.staged := by
  unfold State.slotSwitch
  extract_lets x
  split
  · split <;> exact ⟨rfl, rfl⟩
  · exact ⟨rfl, rfl⟩

theorem State.slotRevoke_of_idle (s : State) (a : Nat) (idle : ∀ t ts q, (s.arb a).run ≠ some (t :: ts, q)) :
    s.slotRevoke a = s := by
  unfold State.slotRevoke
  extract_lets x r
  split
  · rename_i t ts q run
    exact absurd run (idle t ts q)
  · rfl

theorem State.slotRevoke_of_kept (s : State) (a : Nat) (revoke : (s.arb a).revoke = false) : s.slotRevoke a = s := by
  unfold State.slotRevoke
  extract_lets x r
  split
  · exact if_neg (by simp [x, revoke])
  · rfl

/-- R300: the transfer of a revoked run is pending again from now on, none of its bursts delivered. -/
def ArbState.requeue (x : ArbState) (t : Xfer) (now : Nat) : ArbState :=
  { x with run := none, revoke := false, pend := x.pend ++ [{ t with got := [], since := now, starved := false }] }

/-- A revocation only counts and marks the bursts that wait before the transfer is pending again. -/
theorem State.slotRevoke_eq (s : State) {a : Nat} {t : Xfer} {ts : List Xfer} {k : Nat} {f : Bool}
    (run : (s.arb a).run = some (t :: ts, k, f)) (revoke : (s.arb a).revoke = true) :
    ∃ u : State, s.ArbStep a Eq u ∧ u.mf.staged = s.mf.staged ∧ s.slotRevoke a = u.setArb a ((s.arb a).requeue t s.now) := by
  unfold State.slotRevoke
  extract_lets x r
  split
  · rename_i t' ts' r' same
    rw [if_pos revoke]
    extract_lets c s₁ d s₂ y s₃
    obtain ⟨⟨rfl, -⟩, -⟩ : (t = t' ∧ ts = ts') ∧ (k, f) = r' := by simpa [x, run] using same
    have counted : s.ArbStep a Eq s₃ := ((State.ArbStep.setCnt s _ _ _).same_trans (.setCnt s₁ _ _ _)).same_trans (.setDch s₂ _ _)
    have now : s₃.now = s.now := by simp only [s₃, s₂, s₁, State.setDch, State.setCnt]
    have staged : s₃.mf.staged = s.mf.staged := by simp only [s₃, s₂, s₁, State.setDch, State.setCnt]
    refine ⟨s₃, counted, staged, ?_⟩
    rw [now]
    rfl
  · rename_i other
    exact absurd run (other t ts (k, f))

/-- A revocation changes the run and the pending transfers of the arbiter alone. -/
def ArbState.RevokedBut (x y : ArbState) : Prop := y = { x with run := y.run, revoke := y.revoke, pend := y.pend }

theorem State.slotRevoke_frame (s : State) (a : Nat) :
    s.ArbStep a ArbState.RevokedBut (s.slotRevoke a) ∧ (s.slotRevoke a).mf.staged = s.mf.staged := by
  have refl (x : ArbState) : x.RevokedBut x := rfl
  have still (h : s.slotRevoke a = s) : s.ArbStep a ArbState.RevokedBut (s.slotRevoke a) ∧ (s.slotRevoke a).mf.staged = s.mf.staged := by
    rw [h]
    exact ⟨(State.ArbStep.refl s).of_refl refl, rfl⟩
  match run : (s.arb a).run, revoke : (s.arb a).revoke with
  | none, _ => exact still (s.slotRevoke_of_idle a (by simp [run]))
  | some ([], _), _ => exact still (s.slotRevoke_of_idle a (by simp [run]))
  | some (_ :: _, _), false => exact still (s.slotRevoke_of_kept a revoke)
  | some (t :: ts, k, f), true =>
    obtain ⟨u, counted, staged, eq⟩ := s.slotRevoke_eq run revoke
    rw [eq]
    exact ⟨counted.same_trans (.setArb refl (by rw [← counted.own]; rfl)), staged⟩

/-- The state of a slot's arbiter once switch and revocation have taken effect. -/
def State.slotOpened (s : State) (a : Nat) : State := (s.slotSwitch a).slotRevoke a

/-- The state once the panics of the slot are noted, and postponed refreshes made up for. -/
def State.slotNoted (s : State) (a level : Nat) : State :=
  let o := s.slotOpened a
  let p := o.slotPanic a level
  let n := o.setArb a { o.arb a with hstrPanic := p.1, camwPanic := p.2 }
  if a < 2 && !p.1 && !p.2 && (n.dch a).postponed ≠ 0 then (n.setDch a { n.dch a with postponed := 0 }).refresh a else n

/-- The state once the bursts of the slot have been admitted and served. -/
def State.slotServed (s : State) (a reads camera : Nat) : State :=
  let s := s.slotAdmit a
  let s := if a < 2 then State.dramServe a reads s else s
  { s with mf := { s.mf with staged := min 1024 (s.mf.staged + camera) } }

/-- The state once the next slot has been decided, and the watchdog has looked. -/
def State.slotDecided (s : State) (a level reads camera : Nat) : State :=
  let o := s.slotOpened a
  let g := (s.slotNoted a level).slotGrant a
  let holder := (g.arb a).run.map fun u => ((u.1.headD xferDefault).req, (u.1.headD xferDefault).lane)
  ((g.slotServed a reads camera).slotDecide a (o.arb a).pend (o.arb a).parked).fabricWatch a holder

/-- A slot in its stages: the decision, and on to the next slot. -/
theorem State.arbSlot_eq (s : State) (a level reads camera : Nat) :
    s.arbSlot a level reads camera = (s.slotDecided a level reads camera).setArb a
      { (s.slotDecided a level reads camera).arb a with slot := (((s.slotDecided a level reads camera).arb a).slot + 1) % 256 } := rfl

end Sys2Proof.Machine
end

section
/-! SUPPORT of O35: what a slot does to its arbiter. -/

namespace Sys2Proof.Machine

/-! ## The stages of a slot -/

/-- The slot as it opens: at most the table set, the run and the pending transfers of the arbiter change. -/
def ArbState.OpenedBut (x y : ArbState) : Prop :=
  y = { x with set := y.set, setNext := y.setNext, run := y.run, revoke := y.revoke, pend := y.pend }

theorem State.slotOpened_arbStep (s : State) (a : Nat) : s.ArbStep a ArbState.OpenedBut (s.slotOpened a) :=
  (s.slotSwitch_arbStep a).comp ((s.slotSwitch a).slotRevoke_frame a).1 fun x y z h k => by
    unfold ArbState.OpenedBut
    rw [k, h]

theorem State.slotOpened_staged (s : State) (a : Nat) : (s.slotOpened a).mf.staged = s.mf.staged :=
  ((s.slotSwitch a).slotRevoke_frame a).2.trans (s.slotSwitch_mf a).2

/-- R304: the panics are judged by the table that applies to the slot. -/
theorem State.slotOpened_slotTab (s : State) (a : Nat) : (s.slotOpened a).slotTab a = s.slotTabFor a (s.arb a).slot := by
  have revoked := ((s.slotSwitch a).slotRevoke_frame a).1
  have set : (((s.slotSwitch a).slotRevoke a).arb a).set = ((s.slotSwitch a).arb a).set := by rw [revoked.own]
  rw [← s.slotSwitch_slotTab a]
  simp only [State.slotTab, State.slotOpened, revoked.si, set]

theorem State.slotOpened_of_idle (s : State) (a : Nat) (run : (s.arb a).run = none) : s.slotOpened a = s.slotSwitch a := by
  refine (s.slotSwitch a).slotRevoke_of_idle a fun t ts q busy => ?_
  rw [(s.slotSwitch_arbStep a).own] at busy
  exact absurd (busy.symm.trans run) (by simp)

/-- The panics of a slot, noted in its arbiter. -/
def ArbState.inPanic (x : ArbState) (p : Bool × Bool) : ArbState := { x with hstrPanic := p.1, camwPanic := p.2 }

theorem State.slotNoted_arbStep (s : State) (a level : Nat) :
    ((s.slotOpened a).setArb a (((s.slotOpened a).arb a).inPanic ((s.slotOpened a).slotPanic a level))).ArbStep a Eq (s.slotNoted a level) := by
  unfold State.slotNoted
  extract_lets o p x n y
  have refreshed : n.ArbStep a Eq ((n.setDch a { y with postponed := 0 }).refresh a) :=
    (State.ArbStep.setDch n _ _).same_trans (State.refresh_arbStep _ _)
  split
  · exact refreshed
  · exact .refl n

theorem State.slotNoted_arb (s : State) {a : Nat} (level : Nat) (there : a < s.mf.arbs.length) :
    (s.slotNoted a level).arb a = ((s.slotOpened a).arb a).inPanic ((s.slotOpened a).slotPanic a level) := by
  have here : a < (s.slotOpened a).mf.arbs.length := (s.slotOpened_arbStep a).length ▸ there
  rw [← (s.slotNoted_arbStep a level).own, State.arb_setArb_self _ _ here]

/-- The stages before the grant, seen from outside the arbiter of the slot. -/
theorem State.slotNoted_frame (s : State) (a level : Nat) : s.ArbStep a (fun _ _ => True) (s.slotNoted a level) :=
  (s.slotOpened_arbStep a).comp
    ((State.ArbStep.setArb (R := fun _ _ => True) (fun _ => trivial) trivial).trans_same (s.slotNoted_arbStep a level)) fun _ _ _ _ _ => trivial

/-! ## The grant of a slot -/

/-- A grant changes the run, the parked queue and the floor turn, and takes from the pending transfers only those of `r`. -/
def ArbState.GrantBut (r : Nat) (x y : ArbState) : Prop :=
  y = { x with grant := y.grant, stale := y.stale, revoke := y.revoke, floorLast := y.floorLast, run := y.run, pend := y.pend, parked := y.parked } ∧
  ∀ t ∈ x.pend, t.req ≠ r → t ∈ y.pend

theorem ArbState.GrantBut.refl (r : Nat) (x : ArbState) : x.GrantBut r x := ⟨rfl, fun _ h _ => h⟩

theorem ArbState.GrantBut.trans (r : Nat) (x y z : ArbState) (h : x.GrantBut r y) (k : y.GrantBut r z) : x.GrantBut r z := by
  obtain ⟨h, kept⟩ := h
  obtain ⟨k, kept'⟩ := k
  exact ⟨by rw [k, h], fun t ht ne => kept' t (kept t ht ne) ne⟩

theorem ArbState.SlotKept.of_grant (r : Nat) (x y : ArbState) (h : x.GrantBut r y) : x.SlotKept y := by
  rw [h.1]
  exact ⟨rfl, rfl, rfl⟩

theorem State.takeGrant_arbStep (s : State) (a r lane : Nat) (floor : Bool) :
    s.ArbStep a (ArbState.GrantBut r) (s.takeGrant a r lane floor) := by
  unfold State.takeGrant
  extract_lets x c
  split
  · exact (State.ArbStep.refl s).of_refl (ArbState.GrantBut.refl r)
  · rename_i t found
    extract_lets ts waited longest s₁
    have first : t.req = r := by simpa using And.left (by simpa using List.find?_some found)
    have taken : ∀ v ∈ ts, v.req = r := by
      intro v hv
      unfold ts at hv
      split at hv
      · rename_i hstr
        have zero : r = 0 := by simp at hstr; exact hstr.1
        rcases List.mem_cons.mp hv with rfl | hv
        · exact first
        · rw [zero]
          simpa using And.left (by simpa using (List.mem_filter.mp hv).2)
      · rwa [List.mem_singleton.mp hv]
    have counted : s.ArbStep a Eq s₁ := .setCnt s _ _ _
    refine counted.same_trans (.setArb (ArbState.GrantBut.refl r) ?_)
    rw [← counted.own]
    exact ⟨rfl, fun u hu ne => List.mem_filter.mpr ⟨hu, by simpa using fun h => ne (taken u h)⟩⟩

/-- What a slot does of a decided grant to `r`, after the grant has been taken off the arbiter. -/
def State.slotGrantTo (s : State) (a r lane : Nat) (floor stale : Bool) : State :=
  let s := if floor then s.setArb a { s.arb a with floorLast := r } else s
  if stale then s.bump (Reg.MF_ARBa_STAT a) F.MF_ARBa_STAT_STALE else s.takeGrant a r lane floor

/-- The arbiter as a slot takes up its decision. -/
def ArbState.undecided (x : ArbState) : ArbState := { x with grant := none, stale := false, revoke := false }

theorem State.slotGrant_of_none (s : State) (a : Nat) (grant : (s.arb a).grant = none) :
    s.slotGrant a = s.setArb a (s.arb a).undecided := by
  unfold State.slotGrant
  extract_lets x s₁
  split
  · rfl
  · rename_i decided
    exact absurd (decided.symm.trans grant) (by simp)

theorem State.slotGrant_of_some (s : State) (a : Nat) {r lane : Nat} {floor : Bool} (grant : (s.arb a).grant = some (r, lane, floor)) :
    s.slotGrant a = (s.setArb a (s.arb a).undecided).slotGrantTo a r lane floor (s.arb a).stale := by
  unfold State.slotGrant
  extract_lets x s₁
  split
  · rename_i undecided
    exact absurd (undecided.symm.trans grant) (by simp)
  · rename_i r' lane' floor' decided
    obtain ⟨rfl, rfl, rfl⟩ : r = r' ∧ lane = lane' ∧ floor = floor' := by simpa [x, grant] using decided
    rfl

theorem State.slotGrantTo_arbStep (s : State) (a r lane : Nat) (floor stale : Bool) :
    s.ArbStep a (ArbState.GrantBut r) (s.slotGrantTo a r lane floor stale) := by
  unfold State.slotGrantTo
  extract_lets x s₁
  have turned : s.ArbStep a (ArbState.GrantBut r) s₁ := by
    unfold s₁
    split
    · exact .setArb (ArbState.GrantBut.refl r) ⟨rfl, fun _ h _ => h⟩
    · exact (State.ArbStep.refl s).of_refl (ArbState.GrantBut.refl r)
  split
  · exact turned.trans_same (.bump s₁ _ _)
  · exact turned.comp (s₁.takeGrant_arbStep a r lane floor) (ArbState.GrantBut.trans r)

/-- The grant of a slot: it takes from the pending transfers only those of the requester decided for, where there is one. -/
def ArbState.Granted (x y : ArbState) : Prop := ∀ r, (∀ q lane floor, x.grant = some (q, lane, floor) → q = r) → x.GrantBut r y

theorem State.slotGrant_arbStep (s : State) (a : Nat) : s.ArbStep a ArbState.Granted (s.slotGrant a) := by
  have cleared (r : Nat) : s.ArbStep a (ArbState.GrantBut r) (s.setArb a (s.arb a).undecided) :=
    .setArb (ArbState.GrantBut.refl r) ⟨rfl, fun _ h _ => h⟩
  match grant : (s.arb a).grant with
  | none =>
    rw [s.slotGrant_of_none a grant]
    exact ⟨(cleared 0).si, (cleared 0).length, (cleared 0).others, fun r _ => (cleared r).own⟩
  | some (q, lane, floor) =>
    rw [s.slotGrant_of_some a grant]
    have step := (cleared q).comp (State.slotGrantTo_arbStep _ a q lane floor (s.arb a).stale) (ArbState.GrantBut.trans q)
    exact ⟨step.si, step.length, step.others, fun r only => only q lane floor grant ▸ step.own⟩

theorem ArbState.SlotKept.of_granted (x y : ArbState) (h : x.Granted y) : x.SlotKept y := by
  match grant : x.grant with
  | none => exact .of_grant 0 x y (h 0 fun q lane floor e => absurd (grant.symm.trans e) (by simp))
  | some (q, lane, floor) => exact .of_grant q x y (h q fun q' lane' floor' e => by simpa using congrArg (·.1) (Option.some.inj (e.symm.trans grant)))

/-- R297: a stale grant of a floor slot leaves the slot idle, and the floor turn goes on. -/
theorem State.slotGrant_stale (s : State) {a r lane : Nat} (there : a < s.mf.arbs.length)
    (grant : (s.arb a).grant = some (r, lane, true)) (stale : (s.arb a).stale = true) :
    (s.slotGrant a).arb a = { (s.arb a).undecided with floorLast := r } := by
  rw [s.slotGrant_of_some a grant, stale]
  have here : a < (s.setArb a (s.arb a).undecided).mf.arbs.length := there.trans_eq (List.length_set ..).symm
  have turned := State.arb_setArb_self _ { (s.setArb a (s.arb a).undecided).arb a with floorLast := r } here
  refine Eq.trans turned ?_
  rw [s.arb_setArb_self _ there]

/-! ## From the grant to the end of the slot -/

theorem State.slotServed_arbStep (s : State) (a reads camera : Nat) : s.ArbStep a ArbState.RunBut (s.slotServed a reads camera) := by
  unfold State.slotServed
  extract_lets s₁ s₂
  have served : s₁.ArbStep a ArbState.RunBut s₂ := by
    unfold s₂
    split
    · exact s₁.dramServe_arbStep a reads
    · exact (State.ArbStep.refl s₁).of_refl ArbState.RunBut.refl
  exact ((s.slotAdmit_arbStep a).comp served ArbState.RunBut.trans).trans_same (.same rfl rfl)

theorem State.slotServed_staged (s : State) (a reads camera : Nat) : (s.slotServed a reads camera).mf.staged ≤ 1024 := by
  unfold State.slotServed
  extract_lets s₁ s₂
  exact Nat.min_le_left ..

/-- After the grant the slot, the panics, the table set and the floor turn stay, no run begins, and no pending transfer goes. -/
def ArbState.EndedBut (x y : ArbState) : Prop :=
  y = { x with run := y.run, done := y.done, grant := y.grant, stale := y.stale, revoke := y.revoke, floorCarry := y.floorCarry,
               parked := y.parked, pend := y.pend } ∧
  (x.run = none → y.run = none) ∧ ∀ t ∈ x.pend, ∃ v ∈ y.pend, v = t ∨ v = { t with starved := true }

theorem ArbState.EndedBut.of_stages (w x y z : ArbState) (h : w.RunBut x) (k : x.DecisionBut y) (l : y.StarvedBut z) : w.EndedBut z := by
  obtain ⟨h, none⟩ := h
  obtain ⟨f, marked, l⟩ := l
  have run : z.run = x.run := by rw [l, k]
  have pend : z.pend = w.pend.map f := by rw [l, k, h]
  refine ⟨by rw [l, k, h], fun e => run ▸ none e, fun t ht => ⟨f t, pend ▸ List.mem_map_of_mem ht, marked t⟩⟩

theorem ArbState.EndedBut.slotKept (x y : ArbState) (h : x.EndedBut y) : x.SlotKept y := by
  rw [h.1]
  exact ⟨rfl, rfl, rfl⟩

theorem State.slotDecided_arbStep (s : State) (a level reads camera : Nat) :
    ((s.slotNoted a level).slotGrant a).ArbStep a ArbState.EndedBut (s.slotDecided a level reads camera) := by
  unfold State.slotDecided
  extract_lets o g holder
  have served := g.slotServed_arbStep a reads camera
  have decided := (g.slotServed a reads camera).slotDecide_arbStep a (o.arb a).pend (o.arb a).parked
  have watched := ((g.slotServed a reads camera).slotDecide a (o.arb a).pend (o.arb a).parked).fabricWatch_arbStep a holder
  exact (served.comp decided fun _ y _ h k => ⟨y, h, k⟩ : g.ArbStep a (fun x z => ∃ y, x.RunBut y ∧ y.DecisionBut z) _).comp watched
    fun _ _ _ ⟨_, h, k⟩ l => .of_stages _ _ _ _ h k l

theorem State.slotDecided_staged (s : State) (a level reads camera : Nat) : (s.slotDecided a level reads camera).mf.staged ≤ 1024 := by
  unfold State.slotDecided
  extract_lets o g holder
  rw [State.fabricWatch_staged, State.slotDecide_staged]
  exact g.slotServed_staged a reads camera

end Sys2Proof.Machine
end

section
/-! SUPPORT of O35: the clauses of the arbiters, R296 to R300 and R303. -/

namespace Sys2Proof.Machine

theorem State.setArb_staged (s : State) (a : Nat) (x : ArbState) : (s.setArb a x).mf.staged = s.mf.staged := rfl

theorem exec_arbSlotDecision (s : State) (a : Fin 10) (reads : Fin 65) (camera : Fin 1025) (out : s.sys.inReset = false) :
    exec (.arbSlotDecision a reads camera) s = .next (s.after (s.arbSlot a.val s.hstrLevel reads.val camera.val)) :=
  congrArg Host.Outcome.next (s.act_eq_after (fun s => s.arbSlot a.val s.hstrLevel reads.val camera.val) out)

section
variable (s : State) {a : Nat} (level reads camera : Nat)

/-- The stages up to the decision, seen from outside the arbiter of the slot. -/
theorem State.slotDecided_frame : s.ArbStep a (fun _ _ => True) (s.slotDecided a level reads camera) :=
  ((s.slotNoted_frame a level).comp (State.slotGrant_arbStep _ a) fun _ _ _ _ _ => trivial).comp
    (s.slotDecided_arbStep a level reads camera) fun _ _ _ _ _ => trivial

theorem State.arbSlot_others {b : Nat} (other : b ≠ a) : (s.arbSlot a level reads camera).arb b = s.arb b := by
  rw [s.arbSlot_eq, State.arb_setArb_ne _ _ other]
  exact (s.slotDecided_frame level reads camera).others b other

theorem State.arbSlot_staged : (s.arbSlot a level reads camera).mf.staged ≤ 1024 := by
  rw [s.arbSlot_eq, State.setArb_staged]
  exact s.slotDecided_staged a level reads camera

variable (there : a < s.mf.arbs.length)
include there

theorem State.arbSlot_arb : (s.arbSlot a level reads camera).arb a = { (s.slotDecided a level reads camera).arb a with
    slot := (((s.slotDecided a level reads camera).arb a).slot + 1) % 256 } := by
  rw [s.arbSlot_eq]
  exact State.arb_setArb_self _ _ (there.trans_eq (s.slotDecided_frame level reads camera).length.symm)

/-- The slot and the panics noted stand from the start of a slot to its end. -/
theorem State.slotDecided_slotKept :
    (((s.slotOpened a).arb a).inPanic ((s.slotOpened a).slotPanic a level)).SlotKept ((s.slotDecided a level reads camera).arb a) := by
  rw [← s.slotNoted_arb level there]
  exact ArbState.SlotKept.trans _ _ _ (.of_granted _ _ (State.slotGrant_arbStep _ a).own) (s.slotDecided_arbStep a level reads camera).own.slotKept

/-- R298: each slot moves on by one, with the panics judged as it opened. -/
theorem State.arbSlot_slot : ((s.arbSlot a level reads camera).arb a).slot = ((s.arb a).slot + 1) % 256 := by
  obtain ⟨slot, -, -⟩ := s.slotDecided_slotKept level reads camera there
  rw [s.arbSlot_arb level reads camera there]
  simp only [slot, ArbState.inPanic]
  rw [(s.slotOpened_arbStep a).own]

theorem State.arbSlot_panics :
    ((s.arbSlot a level reads camera).arb a).hstrPanic = ((s.slotOpened a).slotPanic a level).1 ∧
    ((s.arbSlot a level reads camera).arb a).camwPanic = ((s.slotOpened a).slotPanic a level).2 := by
  obtain ⟨-, hstr, camw⟩ := s.slotDecided_slotKept level reads camera there
  rw [s.arbSlot_arb level reads camera there]
  exact ⟨hstr, camw⟩

end

/-- R298: HSTR panics below its level of the table that applies, CAMW where the staging buffer holds less room than its level. -/
theorem State.slotOpened_slotPanic (s : State) (a level : Nat) :
    let t := s.slotTabFor a (s.arb a).slot
    (((s.slotOpened a).slotPanic a level).1 = true ↔ t.panicHstr ≠ 0 ∧ level < t.panicHstr) ∧
    (((s.slotOpened a).slotPanic a level).2 = true ↔ t.panicCamw ≠ 0 ∧ 1024 - s.mf.staged < t.panicCamw) := by
  simp [State.slotPanic, s.slotOpened_slotTab, s.slotOpened_staged]

/-! ## The claimant of a slot -/

/-- Where nothing waits to be switched, the table in force applies to every slot. -/
theorem State.slotTabFor_of_kept {s t : State} {a : Nat} (i : Nat) (si : t.si = s.si) (set : (t.arb a).set = (s.arb a).set)
    (next : (t.arb a).setNext = none) : t.slotTabFor a i = s.slotTab a := by
  unfold State.slotTabFor
  rw [next]
  unfold State.slotTab
  dsimp only
  rw [si, set]

/-- R296: an unoccupied slot that is no floor slot goes to its claimant. -/
theorem State.arbSlot_claimant (s : State) {a r : Nat} (level reads camera : Nat) (there : a < s.mf.arbs.length)
    (run : (s.arb a).run = none) (grant : (s.arb a).grant = none) (next : (s.arb a).setNext = none) (carry : (s.arb a).floorCarry = false)
    (free : (s.slotTab a).floors.contains (((s.arb a).slot + 1) % 256) = false)
    (claim : claimant (s.slotTab a) (((s.arb a).slot + 1) % 256) (pendingIds (s.arb a).pend) (s.arb a).parked
      (s.slotPanic a level).1 (s.slotPanic a level).2 = some r) :
    ∃ lane, ((s.arbSlot a level reads camera).arb a).grant = some (r, lane, false) := by
  have opened : s.slotOpened a = s := by
    rw [s.slotOpened_of_idle a run]
    simp only [State.slotSwitch, next]
  have noted : (s.slotNoted a level).arb a = (s.arb a).inPanic (s.slotPanic a level) := by
    rw [s.slotNoted_arb level there, opened]
  have granted : ((s.slotNoted a level).slotGrant a).arb a = ((s.arb a).inPanic (s.slotPanic a level)).undecided := by
    have here : a < (s.slotNoted a level).mf.arbs.length := there.trans_eq (s.slotNoted_frame a level).length.symm
    rw [State.slotGrant_of_none _ a (by rw [noted]; exact grant), State.arb_setArb_self _ _ here, noted]
  let v := ((s.slotNoted a level).slotGrant a).slotServed a reads camera
  have served : ((s.slotNoted a level).slotGrant a).ArbStep a ArbState.RunBut v := State.slotServed_arbStep _ a reads camera
  have frame : s.ArbStep a (fun _ _ => True) v :=
    ((s.slotNoted_frame a level).comp (State.slotGrant_arbStep _ a) fun _ _ _ _ _ => trivial).comp served fun _ _ _ _ _ => trivial
  obtain ⟨kept, idle⟩ := granted ▸ served.own
  have slot : (v.arb a).slot = (s.arb a).slot := by rw [kept]; rfl
  have tab (i : Nat) : v.slotTabFor a i = s.slotTab a := State.slotTabFor_of_kept i frame.si (by rw [kept]; rfl) (by rw [kept]; exact next)
  obtain ⟨lane, decided⟩ := v.slotDecide_grant (s.arb a).pend (s.arb a).parked (r := r) (there.trans_eq frame.length.symm) (idle run)
    (by rw [kept]; exact carry) (by rw [tab, slot]; exact free) (by rw [tab, slot, kept]; exact claim)
  have watched : ((s.slotDecided a level reads camera).arb a).grant = ((v.slotDecide a (s.arb a).pend (s.arb a).parked).arb a).grant := by
    unfold State.slotDecided
    rw [opened]
    extract_lets o g holder
    obtain ⟨f, -, eq⟩ := (State.fabricWatch_arbStep ((g.slotServed a reads camera).slotDecide a (o.arb a).pend (o.arb a).parked) a holder).own
    rw [eq]
  rw [s.arbSlot_arb level reads camera there]
  exact ⟨lane, watched.trans decided⟩

/-- R297: a floor slot left idle by a stale grant has had its turn. -/
theorem State.arbSlot_staleFloor (s : State) {a r lane : Nat} (level reads camera : Nat) (there : a < s.mf.arbs.length)
    (run : (s.arb a).run = none) (grant : (s.arb a).grant = some (r, lane, true)) (stale : (s.arb a).stale = true) :
    ((s.arbSlot a level reads camera).arb a).floorLast = r ∧ ((s.arbSlot a level reads camera).arb a).run = none := by
  have switched := (s.slotSwitch_arbStep a).own
  have noted := s.slotNoted_arb level there
  rw [s.slotOpened_of_idle a run, switched] at noted
  have here : a < (s.slotNoted a level).mf.arbs.length := there.trans_eq (s.slotNoted_frame a level).length.symm
  have granted := State.slotGrant_stale _ here (by rw [noted]; exact grant) (by rw [noted]; exact stale)
  obtain ⟨kept, idle, -⟩ := (s.slotDecided_arbStep a level reads camera).own
  rw [s.arbSlot_arb level reads camera there]
  refine ⟨?_, idle (by rw [granted, noted]; exact run)⟩
  rw [kept, granted]

/-- R300: a revoked transfer is pending again from this slot on. -/
theorem State.arbSlot_revoked (s : State) {a k r lane : Nat} {t : Xfer} (level reads camera : Nat) (there : a < s.mf.arbs.length)
    (run : (s.arb a).run = some ([t], k, false)) (revoke : (s.arb a).revoke = true) (grant : (s.arb a).grant = some (r, lane, false))
    (other : t.req ≠ r) :
    ∃ v ∈ ((s.arbSlot a level reads camera).arb a).pend, v = { t with got := [], since := s.now, starved := v.starved } := by
  have switched := (s.slotSwitch_arbStep a).own
  obtain ⟨u, counted, -, requeued⟩ := (s.slotSwitch a).slotRevoke_eq (a := a) (t := t) (by rw [switched]; exact run) (by rw [switched]; exact revoke)
  have here : a < u.mf.arbs.length := there.trans_eq ((s.slotSwitch_arbStep a).length.symm.trans counted.length.symm)
  have opened : (s.slotOpened a).arb a = ((s.slotSwitch a).arb a).requeue t (s.slotSwitch a).now := by
    unfold State.slotOpened
    rw [requeued, State.arb_setArb_self _ _ here]
  have noted := s.slotNoted_arb level there
  rw [opened, switched, (s.slotSwitch_mf a).1] at noted
  have waits : { t with got := [], since := s.now, starved := false } ∈ ((s.slotNoted a level).arb a).pend := by
    rw [noted]
    exact List.mem_append_right _ (List.mem_singleton_self _)
  have granted := (State.slotGrant_arbStep (s.slotNoted a level) a).own r fun q lane' floor decided => by
    rw [noted] at decided
    simpa using congrArg (·.1) (Option.some.inj (decided.symm.trans grant))
  obtain ⟨-, -, kept⟩ := (s.slotDecided_arbStep a level reads camera).own
  obtain ⟨v, hv, same⟩ := kept _ (granted.2 _ waits other)
  rw [s.arbSlot_arb level reads camera there]
  refine ⟨v, hv, ?_⟩
  rcases same with rfl | rfl <;> rfl

end Sys2Proof.Machine
end

section
/-! SUPPORT of O35: claimants, R296; training, read queues, refreshes and drain batches of DRAM, R311 to R314. -/

namespace Sys2Proof.Machine

/-! ## The claimant of a slot -/

theorem claimant_hstr (t : SlotTab) (i : Nat) {ids : List Nat} (parked : List Nat) (cp : Bool) (waits : 0 ∈ ids) :
    claimant t i ids parked true cp = some 0 := by
  simp [claimant, waits]

theorem claimant_camw (t : SlotTab) (i : Nat) {ids : List Nat} (parked : List Nat) (waits : 4 ∈ ids) :
    claimant t i ids parked false true = some 4 := by
  simp [claimant, waits]

theorem claimant_owner (t : SlotTab) (i : Nat) {ids : List Nat} (parked : List Nat) (waits : t.owner i ∈ ids) :
    claimant t i ids parked false false = some (t.owner i) := by
  simp [claimant, waits]

/-- The search for the lowest rank ends with a requester of its list. -/
theorem mem_of_lowestRank (rank : Nat → Nat) {l : List Nat} {r : Nat}
    (best : l.foldl (fun b r => match b with
      | some q => if rank r < rank q then some r else b
      | none => some r) none = some r) : r ∈ l := by
  refine List.foldlRecOn (motive := fun b => ∀ r, b = some r → r ∈ l) l _ (by simp) (fun b ih x hx r h => ?_) r best
  match b, h with
  | none, h => exact Option.some.inj h ▸ hx
  | some q, h =>
    dsimp only at h
    split at h
    · exact Option.some.inj h ▸ hx
    · exact ih r h

/-- R296: only a requester that waits is a claimant. -/
theorem mem_of_claimant {t : SlotTab} {i : Nat} {ids parked : List Nat} {hp cp : Bool} {r : Nat}
    (claim : claimant t i ids parked hp cp = some r) : r ∈ ids := by
  unfold claimant at claim
  extract_lets has at claim
  split at claim
  · rename_i panic
    cases claim
    have both : hp = true ∧ 0 ∈ ids := by simpa [has] using panic
    exact both.2
  · split at claim
    · rename_i panic
      cases claim
      have both : cp = true ∧ 4 ∈ ids := by simpa [has] using panic
      exact both.2
    · split at claim
      · rename_i owner
        cases claim
        simpa [has] using owner
      · split at claim
        · rename_i q parks
          cases claim
          simpa [has] using List.find?_some parks
        · exact List.mem_of_mem_filter (mem_of_lowestRank t.rankOf claim)

/-! ## Training -/

/-- Training is going on, with DRAM and the fabric as they were. -/
def State.TrainsOn (s : State) (p : Bool × State) : Prop := p.1 = true ∧ p.2.dram = s.dram ∧ p.2.mf = s.mf

theorem State.trainChannel_passes (s : State) {env : BootEnv} (c : Nat) (passes : ∀ f ∈ env.fails, f.val < 4) :
    s.TrainsOn (s.trainChannel env c) := by
  have fails (k : Nat) : (env.fails.getD k 0).val ≠ 4 := by
    rw [List.getD_eq_getElem?_getD]
    cases at_k : env.fails[k]? with
    | none => simp
    | some f => exact Nat.ne_of_lt (passes f (List.mem_of_getElem? at_k))
  unfold State.trainChannel
  extract_lets a ranks
  refine List.foldlRecOn (motive := s.TrainsOn) _ _ ⟨rfl, rfl, rfl⟩ fun p h i _ => ?_
  obtain ⟨on, dram, mf⟩ := h
  dsimp only
  rw [on, if_neg (by decide), if_neg (fails _)]
  refine ⟨rfl, ?_, ?_⟩
  · split <;> split <;> simp only [State.setFld_dram, dram]
  · split <;> split <;> simp only [State.setFld_mf, mf]

theorem State.train_passes (s : State) {env : BootEnv} (rate : s.fld Reg.DC_CFG F.DC_CFG_RATE < 5) (passes : ∀ f ∈ env.fails, f.val < 4) :
    s.TrainsOn (s.train env) := by
  unfold State.train
  extract_lets p
  obtain ⟨on, dram, mf⟩ := s.trainChannel_passes 0 passes
  obtain ⟨on', dram', mf'⟩ := (s.trainChannel env 0).2.trainChannel_passes 1 passes
  rw [if_neg (Nat.not_le.mpr rate), if_pos on]
  exact ⟨on', dram'.trans dram, mf'.trans mf⟩

/-- A step that fails four times ends the training of channel 0. -/
theorem State.trainChannel_fails (s : State) {env : BootEnv} (fails : env.fails.getD 0 0 = 4) : (s.trainChannel env 0).1 = false := by
  unfold State.trainChannel
  extract_lets a ranks
  obtain ⟨n, steps⟩ : ∃ n, 5 * ranks = n + 1 := by
    unfold ranks
    split
    · exact ⟨9, rfl⟩
    · exact ⟨4, rfl⟩
  rw [steps, List.range_succ_eq_map, List.foldl_cons]
  refine List.foldlRecOn (motive := fun p : Bool × State => p.1 = false) _ _ ?_ fun p h i _ => ?_
  · dsimp only
    rw [if_neg (by decide), if_pos (by simp only [Nat.mul_zero, Nat.add_zero, fails]; rfl)]
  · dsimp only
    rw [if_pos (by rw [h]; rfl), h]

theorem State.train_fails (s : State) {env : BootEnv} (fails : env.fails.getD 0 0 = 4) : (s.train env).1 = false := by
  unfold State.train
  extract_lets p
  split
  · rfl
  · rw [if_neg (by simp [p, s.trainChannel_fails fails])]
    exact s.trainChannel_fails fails

/-! ## Channels -/

theorem State.dch_setDch_self (s : State) {c : Nat} (x : DramCh) (there : c < s.mf.chs.length) : (s.setDch c x).dch c = x := by
  simp [State.dch, State.setDch, List.getD, there]

/-- A burst issued changes no byte, and no channel goes. -/
theorem State.dramIssue_kept (s : State) (c addr r : Nat) :
    (s.dramIssue c addr r).dram = s.dram ∧ (s.dramIssue c addr r).mf.chs.length = s.mf.chs.length := by
  unfold State.dramIssue
  extract_lets rank k row x hit s₁
  have kept : s₁.dram = s.dram ∧ s₁.mf.chs.length = s.mf.chs.length := ⟨rfl, List.length_set ..⟩
  split <;> exact kept

/-- R311: no read is served while a drain batch runs. -/
theorem State.dramServe_of_drain (s : State) (c n : Nat) (drain : (s.dch c).drain = true) : State.dramServe c n s = s := by
  cases n with
  | zero => rfl
  | succ n =>
    unfold State.dramServe
    extract_lets x
    split
    · rfl
    · exact if_pos drain

/-- R311: the front of the read queue is served. -/
theorem State.dramServe_front (s : State) {c : Nat} {b : ReadBurst} {rest : List ReadBurst} (there : c < s.mf.chs.length)
    (drain : (s.dch c).drain = false) (reads : (s.dch c).rq = b :: rest) :
    ((State.dramServe c 1 s).dch c).rq = rest ∧ (State.dramServe c 1 s).dram = s.dram := by
  unfold State.dramServe
  extract_lets x
  split
  · rename_i none
    exact absurd (none.symm.trans reads) (by simp)
  · rename_i b' rest' same
    obtain ⟨rfl, rfl⟩ : b = b' ∧ rest = rest' := by simpa [x, reads] using same
    rw [if_neg (by simp [x, drain])]
    extract_lets bs s₁ ch s₂
    have issued : s₁.dram = s.dram ∧ s₁.mf.chs.length = s.mf.chs.length := by
      unfold s₁
      split
      · exact ⟨rfl, rfl⟩
      · exact s.dramIssue_kept _ _ _
    have popped : (s₂.dch c).rq = rest := by
      unfold s₂
      rw [s₁.dch_setDch_self _ (there.trans_eq issued.2.symm)]
    exact ⟨popped, issued.1⟩

/-- R311: a full read queue admits no burst that must come from it. -/
theorem State.admitBurst_full (s : State) {c : Nat} {t : Xfer} {i : Nat} (channel : c < 2) (read : t.write = false)
    (full : 64 ≤ (s.dch c).rq.length) (fresh : ∀ w ∈ (s.dch c).wq, w.1 ≠ t.addr + 64 * i) : s.admitBurst c t i = none := by
  have missed : ((s.dch c).wq.any fun w => decide (w.1 = t.addr + 64 * i)) = false := by simpa using fresh
  simp [State.admitBurst, Nat.not_le.mpr channel, read, full, missed]

/-- R312, R314: a refresh closes the rows and brings in the tracking result that waits, and changes nothing else of DRAM. -/
theorem State.refresh_kept (s : State) (c : Nat) :
    (s.refresh c).dram = s.dram ∧ (s.refresh c).mf = (s.setDch c { s.dch c with rows := [], track := none }).mf := by
  unfold State.refresh
  extract_lets x s₁
  split
  · exact ⟨rfl, rfl⟩
  · rename_i osc shift _
    extract_lets s₂
    split
    · have raised := State.raise_keeps (s₂.flag Reg.DC_STAT F.DC_STAT_DRIFT) Ev.DRAM_DRIFT 0
      exact ⟨raised.dram, raised.mf⟩
    · exact ⟨rfl, rfl⟩

theorem State.refresh_rows (s : State) {c : Nat} (there : c < s.mf.chs.length) :
    ((s.refresh c).dch c).rows = [] ∧ ((s.refresh c).dch c).track = none := by
  have closed : (s.refresh c).dch c = (s.setDch c { s.dch c with rows := [], track := none }).dch c := by
    unfold State.dch
    rw [(s.refresh_kept c).2]
    rfl
  rw [closed, s.dch_setDch_self _ there]
  exact ⟨rfl, rfl⟩

/-- R311: a drain batch issues writes until 16 remain. -/
theorem State.drainBatch_drains (s : State) {c : Nat} (there : c < s.mf.chs.length) (drain : (s.dch c).drain = true) :
    (s.drainBatch c).dram = s.dram ∧
    ((s.drainBatch c).dch c).wq = (s.dch c).wq.drop ((s.dch c).wq.length - 16) ∧ ((s.drainBatch c).dch c).drain = false := by
  unfold State.drainBatch
  extract_lets x n s₁
  rw [if_neg (by simp [x, drain])]
  have issued : s₁.dram = s.dram ∧ s₁.mf.chs.length = s.mf.chs.length := by
    refine List.foldlRecOn (motive := fun t : State => t.dram = s.dram ∧ t.mf.chs.length = s.mf.chs.length) _ _ ⟨rfl, rfl⟩ fun t h w _ => ?_
    obtain ⟨dram, length⟩ := t.dramIssue_kept c w.1 w.2
    exact ⟨dram.trans h.1, length.trans h.2⟩
  rw [s₁.dch_setDch_self _ (there.trans_eq issued.2.symm)]
  exact ⟨issued.1, rfl, rfl⟩

/-! ## The commands of the channels -/

section
variable (s : State) (c : Fin 2) (out : s.sys.inReset = false)
include out

theorem exec_dramRefreshDue : exec (.dramRefreshDue c) s = .next (s.after (s.refreshDue c.val)) :=
  congrArg Host.Outcome.next (s.act_eq_after (·.refreshDue c.val) out)

theorem exec_writeDrainBatch : exec (.writeDrainBatch c) s = .next (s.after (s.drainBatch c.val)) :=
  congrArg Host.Outcome.next (s.act_eq_after (·.drainBatch c.val) out)

theorem exec_dramMr4Read (rate : Fin 8) (hot : Bool) :
    exec (.dramMr4Read c rate hot) s = .next (s.after (s.mr4Read c.val rate.val hot)) :=
  congrArg Host.Outcome.next (s.act_eq_after (·.mr4Read c.val rate.val hot) out)

theorem exec_dramTrackInterval (osc : Fin 65536) (shift : Int) :
    exec (.dramTrackInterval c osc shift) s = .next (s.after (s.trackInterval c.val osc.val shift)) :=
  congrArg Host.Outcome.next (s.act_eq_after (·.trackInterval c.val osc.val shift) out)

end

/-! R312: a refresh that is due is carried out, postponed in panic up to eight times, and then forced. -/

theorem State.refreshDue_calm (s : State) (c : Nat) (calm : s.chPanic c = false) :
    s.refreshDue c = (s.setDch c { s.dch c with postponed := 0 }).refresh c := by
  simp only [State.refreshDue, calm, Bool.not_false, if_true]

theorem State.refreshDue_postponed (s : State) (c : Nat) (panic : s.chPanic c = true) (room : (s.dch c).postponed < 8) :
    s.refreshDue c = (s.setDch c { s.dch c with postponed := (s.dch c).postponed + 1 }).raiseTo (Reg.DC_CHc_REF c) F.DC_CHc_REF_MAXPOST
      ((s.dch c).postponed + 1) := by
  simp only [State.refreshDue, panic, Bool.not_true, Bool.false_eq_true, if_false, room, if_true]

theorem State.refreshDue_forced (s : State) (c : Nat) (panic : s.chPanic c = true) (full : 8 ≤ (s.dch c).postponed) :
    s.refreshDue c = (((s.bump (Reg.DC_CHc_REF c) F.DC_CHc_REF_FORCED).flag Reg.DC_STAT F.DC_STAT_REFRESH_FORCED).relayRaise
      Ev.REFRESH_FORCED c dramPeriod).refresh c := by
  simp only [State.refreshDue, panic, Bool.not_true, Bool.false_eq_true, if_false, Nat.not_lt.mpr full]

/-! ## O35 -/

/-- Settles O35, stage by stage: each stage of a slot changes only its own part of the arbiter, and each upkeep of a channel only
its own part of the channel. -/
theorem arbiterAndDram : Obligations.ArbiterAndDram := by
  unfold Obligations.ArbiterAndDram
  refine ⟨⟨?slot, ?claimant, ?floor, ?revoked, ?claims⟩, ?trains, ?fails, ?drained, ?served, ?fullQueue, ?calm, ?postponed, ?forced, ?refreshed,
    ?mr4, ?track, ?batch⟩
  case slot =>
    intro s a reads camera out there t
    obtain ⟨hstr, camw⟩ := s.arbSlot_panics s.hstrLevel reads.val camera.val there
    obtain ⟨hstr', camw'⟩ := s.slotOpened_slotPanic a.val s.hstrLevel
    exact ⟨_, exec_arbSlotDecision s a reads camera out, s.arbSlot_slot s.hstrLevel reads.val camera.val there, hstr ▸ hstr', camw ▸ camw',
      s.arbSlot_staged s.hstrLevel reads.val camera.val, fun b other => s.arbSlot_others s.hstrLevel reads.val camera.val other⟩
  case claimant =>
    intro s a reads camera r out there run grant next carry t i free claim
    obtain ⟨lane, granted⟩ := s.arbSlot_claimant s.hstrLevel reads.val camera.val there run grant next carry free claim
    exact ⟨_, lane, exec_arbSlotDecision s a reads camera out, granted⟩
  case floor =>
    intro s a reads camera r lane out there run grant stale
    exact ⟨_, exec_arbSlotDecision s a reads camera out, s.arbSlot_staleFloor s.hstrLevel reads.val camera.val there run grant stale⟩
  case revoked =>
    intro s a reads camera t k r lane out there run revoke grant other
    obtain ⟨v, waits, same⟩ := s.arbSlot_revoked s.hstrLevel reads.val camera.val there run revoke grant other
    refine ⟨_, exec_arbSlotDecision s a reads camera out, v, waits, ?_⟩
    rw [same]
    exact ⟨rfl, rfl, rfl, rfl, rfl, rfl, rfl⟩
  case claims =>
    intro t i ids parked hp cp
    refine ⟨?_, ?_, ?_, fun r claim => mem_of_claimant claim⟩
    · rintro rfl waits
      exact claimant_hstr t i parked cp waits
    · rintro rfl rfl waits
      exact claimant_camw t i parked waits
    · rintro rfl rfl waits
      exact claimant_owner t i parked waits
  case trains => exact fun s env rate passes => s.train_passes rate passes
  case fails => exact fun s env rest fails => s.train_fails (by rw [fails]; rfl)
  case drained => exact fun s c n drain => s.dramServe_of_drain c n drain
  case served => exact fun s c b rest there drain reads => s.dramServe_front there drain reads
  case fullQueue => exact fun s c t i channel read full fresh => s.admitBurst_full channel read full fresh
  case calm => exact fun s c out calm => s.refreshDue_calm c.val calm ▸ exec_dramRefreshDue s c out
  case postponed => exact fun s c out panic room => s.refreshDue_postponed c.val panic room ▸ exec_dramRefreshDue s c out
  case forced => exact fun s c out panic full => s.refreshDue_forced c.val panic full ▸ exec_dramRefreshDue s c out
  case refreshed =>
    intro s c there
    obtain ⟨rows, track⟩ := s.refresh_rows there
    exact ⟨rows, track, (s.refresh_kept c).1⟩
  case mr4 => exact fun s c rate hot out => exec_dramMr4Read s c out rate hot
  case track => exact fun s c osc shift out => exec_dramTrackInterval s c out osc shift
  case batch =>
    intro s c out there drain
    obtain ⟨dram, wq, idle⟩ := s.drainBatch_drains there drain
    have left : ((s.drainBatch c.val).dch c.val).wq.length ≤ 16 := by
      rw [wq, List.length_drop]
      omega
    exact ⟨_, exec_writeDrainBatch s c out, wq, left, idle, dram⟩

end Sys2Proof.Machine
end

section
/-! PROOFS of O13: what a mode request does, row by row of R29, and how a transition in progress ends. -/

namespace Sys2Proof.Machine

/-! ## Requests -/

theorem Mode.ofCode_code (d : Mode) : Mode.ofCode d.code = some d := by cases d <;> rfl

/-- A granted write of SYS_MODE_REQ ends after the request. -/
theorem exec_modeRequest {s : State} {m : Master} (takes : s.takes m Reg.SYS_MODE_REQ) (w : Word) :
    exec (.modeRequest m w) s = .next (s.wrote (s.modeRequest (cmdWord Reg.SYS_MODE_REQ w [])) m) :=
  congrArg Host.Outcome.next (State.act_busWrite_of_takes s m _ w takes (by decide) (by decide))

/-- A granted write of SYS_SWI ends after the interrupts it sets. -/
theorem exec_swi {s : State} {m : Master} (takes : s.takes m Reg.SYS_SWI) (w : Word) :
    exec (.swi m w) s = .next (s.wrote (s.swiSet (cmdWord Reg.SYS_SWI w [])) m) :=
  congrArg Host.Outcome.next (State.act_busWrite_of_takes s m _ w takes (by decide) (by decide))

section
variable {s : State} {w : Word} {d : Mode} (asks : F.SYS_MODE_REQ_MODE.get w = d.code)
include asks

theorem State.modeRequest_busy (busy : s.sys.trans.isSome = true) : s.modeRequest w = s.modeRefuse 1 := by
  simp only [State.modeRequest, asks, Mode.ofCode_code, busy, if_true]

theorem State.modeRequest_noPath (free : s.sys.trans = none) (other : s.sys.mode ≠ d) (path : modePath s.sys.mode d = false) :
    s.modeRequest w = s.modeRefuse 2 := by
  simp only [State.modeRequest, State.mode, asks, Mode.ofCode_code, free, Option.isSome_none, other, path, Bool.not_false,
    Bool.false_eq_true, if_false, if_true]

/-- R29: the rows whose transition takes effect later, with no condition on the request. -/
theorem State.modeRequest_accepted (free : s.sys.trans = none)
    (row : (s.sys.mode, d) ∈ [(Mode.idle, Mode.warm), (.warm, .idle), (.service, .warm), (.service, .idle)]) :
    s.modeRequest w = s.modeAccept d := by
  simp only [List.mem_cons, Prod.mk.injEq, List.not_mem_nil, or_false] at row
  obtain ⟨mode, rfl⟩ | ⟨mode, rfl⟩ | ⟨mode, rfl⟩ | ⟨mode, rfl⟩ := row
  all_goals simp [State.modeRequest, State.mode, asks, Mode.ofCode_code, free, mode, modePath]

end

section
variable {s : State} {w : Word} (free : s.sys.trans = none)
include free

theorem State.modeRequest_service (mode : s.sys.mode = .idle ∨ s.sys.mode = .warm) (asks : F.SYS_MODE_REQ_MODE.get w = Mode.service.code) :
    s.modeRequest w = s.enterService := by
  obtain mode | mode := mode
  all_goals simp [State.modeRequest, State.mode, asks, Mode.ofCode_code, free, mode, modePath]

theorem State.modeRequest_test (mode : s.sys.mode = .idle) (asks : F.SYS_MODE_REQ_MODE.get w = Mode.test.code) :
    s.modeRequest w = if s.si.testEn then s.enterTest else s.modeRefuse 6 := by
  simp [State.modeRequest, State.mode, asks, Mode.ofCode_code, free, mode, modePath]

theorem State.modeRequest_print (mode : s.sys.mode = .warm) (ready : s.printRefuse = 0)
    (asks : F.SYS_MODE_REQ_MODE.get w = Mode.print.code) : s.modeRequest w = s.modeAccept .print := by
  simp [State.modeRequest, State.mode, asks, Mode.ofCode_code, free, mode, modePath, ready]

theorem State.modeRequest_held (mode : s.sys.mode = .hold) (cause : s.holdCauses ≠ 0)
    (asks : F.SYS_MODE_REQ_MODE.get w = Mode.idle.code) : s.modeRequest w = s.modeRefuse 7 := by
  simp [State.modeRequest, State.mode, asks, Mode.ofCode_code, free, mode, modePath, cause]

end

/-! ## Transitions in progress -/

section
variable {s : State} (out : s.sys.inReset = false)
include out

theorem exec_modeTransitionEffect (ended : Bool) :
    exec (.modeTransitionEffect ended) s = .next (s.after (s.modeEffect ended)) :=
  congrArg Host.Outcome.next (s.act_eq_after (·.modeEffect ended) out)

theorem exec_modeTimeout : exec .modeTimeout s = .next (s.after s.modeTimeout) :=
  congrArg Host.Outcome.next (s.act_eq_after (·.modeTimeout) out)

end

section
variable {s : State} {c : Nat} (ended : Bool)

theorem State.modeEffect_idle_warm (mode : s.sys.mode = .idle) (trans : s.sys.trans = some ⟨.warm, c⟩) (opened : s.capOpen = true)
    (loops : s.loopsInBand = true) : s.modeEffect ended = s.enterWarm := by
  simp [State.modeEffect, State.mode, mode, trans, opened, loops]

theorem State.modeEffect_warm_idle (mode : s.sys.mode = .warm) (trans : s.sys.trans = some ⟨.idle, c⟩) (closed : s.capClosed = true) :
    s.modeEffect ended = s.enterIdle := by
  simp [State.modeEffect, State.mode, mode, trans, closed]

/-- R76, R214: the sequences of SERVICE that have ended include the scan and the reload that hold a request for IDLE. -/
theorem State.serviceHeld_of_serviceOver (finished : s.serviceOver = true) : s.serviceHeld = false := by
  simp only [State.serviceOver, Bool.and_eq_true, Bool.not_eq_true'] at finished
  exact finished.1

theorem State.modeEffect_service_idle (mode : s.sys.mode = .service) (trans : s.sys.trans = some ⟨.idle, c⟩)
    (closed : s.capClosed = true) (finished : s.serviceOver = true) : s.modeEffect ended = s.enterIdle := by
  simp [State.modeEffect, State.mode, mode, trans, closed, State.serviceHeld_of_serviceOver finished]

theorem State.modeEffect_service_warm (mode : s.sys.mode = .service) (trans : s.sys.trans = some ⟨.warm, c⟩)
    (finished : s.serviceOver = true) : s.modeEffect true = s.enterWarm := by
  simp [State.modeEffect, State.mode, mode, trans, finished]

theorem State.modeEffect_print_warm (mode : s.sys.mode = .print) (trans : s.sys.trans = some ⟨.warm, c⟩) (finished : s.printOver = true) :
    s.modeEffect ended = s.enterWarm := by
  simp [State.modeEffect, State.mode, mode, trans, finished]

theorem State.modeEffect_hold_idle (mode : s.sys.mode = .hold) (trans : s.sys.trans = some ⟨.idle, c⟩) (cap : s.atCap = true) :
    s.modeEffect ended = s.enterIdle := by
  simp [State.modeEffect, State.mode, mode, trans, cap]

end

/-- R435: the rows that wait for the cap slide, the loops or the axes, given up once SYS_MODE_TMO has passed. -/
theorem State.modeTimeout_expired {s : State} {d : Mode} {c : Nat} (trans : s.sys.trans = some ⟨d, c⟩)
    (row : (s.sys.mode, d) ∈ [(Mode.idle, Mode.warm), (.warm, .idle), (.service, .idle), (.hold, .idle)])
    (limit : s.rdN Reg.SYS_MODE_TMO ≠ 0) (late : s.rdN Reg.SYS_MODE_TMO * 1000000 ≤ s.now - c) :
    s.modeTimeout =
      ({ s with sys := { s.sys with trans := none } }.flag Reg.SYS_MODE_STAT F.SYS_MODE_STAT_TIMEOUT).raise Ev.MODE_TIMEOUT := by
  simp only [List.mem_cons, Prod.mk.injEq, List.not_mem_nil, or_false] at row
  obtain ⟨mode, rfl⟩ | ⟨mode, rfl⟩ | ⟨mode, rfl⟩ | ⟨mode, rfl⟩ := row
  all_goals simp [State.modeTimeout, State.mode, mode, trans, limit, late]

/-- Settles O13: the requests and the effects, row by row of R29. -/
theorem modes : Obligations.Modes := by
  unfold Obligations.Modes
  refine ⟨⟨?service, ?test, ?accepted, ?print, fun s m w takes => exec_swi takes w⟩, ?refused,
    ?idleWarm, ?warmIdle, ?serviceIdle, ?serviceWarm, ?printWarm, ?holdIdle, ?timeout⟩
  case service => exact fun s m w takes free mode asks => State.modeRequest_service free mode asks ▸ exec_modeRequest takes w
  case test =>
    intro s m w takes free mode testEn asks
    rw [exec_modeRequest takes, State.modeRequest_test free mode asks, if_pos testEn]
  case accepted =>
    intro s m w d takes free row asks
    rw [exec_modeRequest takes, State.modeRequest_accepted asks free row]
    rfl
  case print =>
    intro s m w takes free mode ready asks
    rw [exec_modeRequest takes, State.modeRequest_print free mode ready asks]
    rfl
  case refused =>
    intro s m w d takes asks
    refine ⟨_, exec_modeRequest takes w, State.modeRequest_busy asks, State.modeRequest_noPath asks, ?_, ?_⟩
    · rintro free mode rfl closed
      rw [State.modeRequest_test free mode asks, if_neg (by simp [closed])]
    · rintro free mode rfl cause
      exact State.modeRequest_held free mode cause asks
  case idleWarm =>
    exact fun s b c out mode trans opened loops =>
      State.modeEffect_idle_warm b mode trans opened loops ▸ exec_modeTransitionEffect out b
  case warmIdle =>
    exact fun s b c out mode trans closed => State.modeEffect_warm_idle b mode trans closed ▸ exec_modeTransitionEffect out b
  case serviceIdle =>
    exact fun s b c out mode trans closed finished =>
      State.modeEffect_service_idle b mode trans closed finished ▸ exec_modeTransitionEffect out b
  case serviceWarm =>
    exact fun s c out mode trans finished => State.modeEffect_service_warm mode trans finished ▸ exec_modeTransitionEffect out true
  case printWarm =>
    exact fun s b c out mode trans finished => State.modeEffect_print_warm b mode trans finished ▸ exec_modeTransitionEffect out b
  case holdIdle =>
    exact fun s b c out mode trans cap _ => State.modeEffect_hold_idle b mode trans cap ▸ exec_modeTransitionEffect out b
  case timeout =>
    exact fun s c d out trans row limit late => State.modeTimeout_expired trans row limit late ▸ exec_modeTimeout out

end Sys2Proof.Machine
end

section
/-! PROOFS of O22: what the outcome of a port leaves of its bar line, and what the frame latched on a port does at s_p(L). -/

namespace Sys2Proof.Machine

/-! ## Bar lines -/

@[simp] theorem State.bar_setBar_self (s : State) (l : Nat) (b : BarLine) : (s.setBar l b).bar l = b :=
  AMap.get_set_self barDefault s.au.lines l b

/-- R374: the code of a port just written among the outcomes of a line. -/
theorem bits_setBits_outcome (out p : Nat) {c : Nat} (small : c < 8) :
    bits (setBits out (3 * p + 2) (3 * p) c) (3 * p + 2) (3 * p) = c := by
  have width : 3 * p + 2 + 1 - 3 * p = 3 := by omega
  rw [bits_setBits_same _ _ _ _ (by omega), width]
  exact Nat.mod_eq_of_lt small

/-- R170: a STATUS frame has declined the line on a port that has not begun it. -/
def BarLine.declined (b : BarLine) (p : Nat) : Bool := b.final.testBit p && !b.known.testBit p && b.code p = 5

/-- A bar line once a port has its outcome (R374). -/
def BarLine.settled (b : BarLine) (p code : Nat) (final : Bool) : BarLine :=
  { b with out := if b.declined p then b.out else setBits b.out (3 * p + 2) (3 * p) code, known := b.known ||| 2 ^ p,
           final := if final then b.final ||| 2 ^ p else b.final }

theorem BarLine.known_settled (b : BarLine) (p code : Nat) (final : Bool) : (b.settled p code final).known.testBit p = true := by
  simp [BarLine.settled, Nat.testBit_two_pow_self]

theorem BarLine.final_settled (b : BarLine) (p code : Nat) : (b.settled p code true).final.testBit p = true := by
  simp [BarLine.settled, Nat.testBit_two_pow_self]

/-- A port whose line is not declined has the code of its outcome. -/
theorem BarLine.code_settled {b : BarLine} {p : Nat} (taken : b.declined p = false) {code : Nat} (small : code < 8) (final : Bool) :
    (b.settled p code final).code p = code := by
  have written : (b.settled p code final).out = setBits b.out (3 * p + 2) (3 * p) code := by simp [BarLine.settled, taken]
  rw [BarLine.code, written, bits_setBits_outcome b.out p small]

/-- A declined line stays DECLINED whatever the outcome the port comes with. -/
theorem BarLine.code_settled_of_declined {b : BarLine} {p : Nat} (gone : b.declined p = true) (code : Nat) (final : Bool) :
    (b.settled p code final).code p = 5 := by
  have kept : (b.settled p code final).out = b.out := by simp [BarLine.settled, gone]
  have five : b.code p = 5 := by
    simp only [BarLine.declined, Bool.and_eq_true, decide_eq_true_eq] at gone
    exact gone.2
  rwa [BarLine.code, kept]

theorem BarLine.code_settled_five (b : BarLine) (p : Nat) (final : Bool) : (b.settled p 5 final).code p = 5 := by
  cases declined : b.declined p with
  | true => exact BarLine.code_settled_of_declined declined 5 final
  | false => exact BarLine.code_settled declined (by decide) final

/-! ## Outcomes -/

/-- Beside the bar line, an outcome reaches the flags of tickets and the counts of units alone. -/
theorem State.outcome_keeps (s : State) (l p code : Nat) (flag : Option Nat) (final : Bool) :
    (s.outcome l p code flag final).hp = s.hp ∧
    (s.outcome l p code flag final).au.lines = (s.setBar l ((s.bar l).settled p code final)).au.lines := by
  unfold State.outcome
  extract_lets b declined s₁ s₂ s₃ unfired
  have spans : s₂.hp = s₁.hp ∧ s₂.au.lines = s₁.au.lines := by
    unfold s₂
    split
    · exact ⟨rfl, rfl⟩
    · split
      · exact ⟨rfl, rfl⟩
      · exact ⟨rfl, rfl⟩
  have lines : s₃.hp = s₁.hp ∧ s₃.au.lines = s₁.au.lines := by
    obtain ⟨hp, au⟩ := spans
    cases flag <;> exact ⟨hp, au⟩
  have counted := s₃.countUp_keeps (portH p) 1
  split
  · rw [counted.hp, counted.au]
    exact lines
  · exact lines

theorem State.outcome_hp (s : State) (l p code : Nat) (flag : Option Nat) (final : Bool) : (s.outcome l p code flag final).hp = s.hp :=
  (s.outcome_keeps l p code flag final).1

@[simp] theorem State.bar_outcome (s : State) (l p code : Nat) (flag : Option Nat) (final : Bool) :
    (s.outcome l p code flag final).bar l = (s.bar l).settled p code final :=
  (congrArg (AMap.get barDefault · l) (s.outcome_keeps l p code flag final).2).trans (s.bar_setBar_self l _)

/-- R170: a line declined before the port begins it is settled as DECLINED, and not yet begun. -/
theorem State.bar_decline (s : State) (l p : Nat) (ahead : (s.bar l).known.testBit p = false) :
    (s.decline l p).bar l = { (s.bar l).settled p 5 true with known := (s.bar l).known } := by
  simp only [State.decline, ahead, Bool.false_eq_true, if_false, State.bar_setBar_self, State.bar_outcome]

theorem State.declined_decline (s : State) (l p : Nat) (ahead : (s.bar l).known.testBit p = false) :
    ((s.decline l p).bar l).declined p = true := by
  have code : ((s.decline l p).bar l).code p = 5 := by
    rw [s.bar_decline l p ahead]
    exact (s.bar l).code_settled_five p true
  have final := (s.bar l).final_settled p 5
  simp only [BarLine.declined, code]
  simp [s.bar_decline l p ahead, ahead, final]

/-! ## The frame latched on a port -/

theorem exec_lineFire (s : State) (p : Fin 64) (out : s.sys.inReset = false) : exec (.lineFire p) s = .next (s.after (s.lineFire p.val)) :=
  congrArg Host.Outcome.next (s.act_eq_after (·.lineFire p.val) out)

/-- R183, R185: from s_p(L) on a port that takes part and has not begun the line fires it, and the first port begins it. -/
theorem State.lineFire_due {s : State} {p l lat : Nat} {f : Freeze} (line : (s.bank (p / 4)).latLine = some l)
    (latAt : (s.bank (p / 4)).latAt = some lat) (frozen : (s.port p).freeze.find? (fun f => f.line = l) = some f)
    (valid : s.si.portValid p = true) (on : s.portOn l p = true) (ahead : (s.bar l).known.testBit p = false)
    (begun : l ≤ s.wp.hwm ∨ s.wp.ticking = some l) (start : s.lineStart p f lat ≤ s.now) :
    let t := ((s.lineCount p).firePort l p f).idleCheck p
    s.lineFire p = if t.wp.hwm < l then t.lineBegin l else t := by
  have due : (s.si.portValid p && s.portOn l p && !(s.bar l).known.testBit p &&
      (decide (l ≤ s.wp.hwm) || s.wp.ticking = some l)) = true := by
    simp [valid, on, ahead, begun]
  simp [State.lineFire, line, latAt, frozen, due, Nat.not_lt.mpr start]

section
variable {s : State} {l p : Nat} {f : Freeze}

/-- R174: HARD_T inhibits a port whatever is latched on it. -/
theorem State.firePort_hot (hot : f.hot = true) : s.firePort l p f = s.outcome l p 1 (some 3) true := by
  simp only [State.firePort, hot, if_true]
  split <;> rfl

/-- R174, R176: a gate cut inhibits a port whatever is latched on it. -/
theorem State.firePort_cut (cool : f.hot = false) (cut : s.gateCut p = true) : s.firePort l p f = s.outcome l p 1 (some 4) true := by
  simp only [State.firePort, cool, cut, Bool.false_eq_true, if_false, if_true]
  split <;> rfl

/-- R183, R191: a port with a frame of the line latched emits its pulses now; its drops, its image and its placement follow. -/
def State.emitted (s : State) (l p : Nat) (f : Freeze) (e : FifoEntry) (t : WaveTab) : Bool × State :=
  (((s.emitPulses p s.now t e f).countDrops p t e).inTap p l (drivenValues t e)).placed l p f

variable {e : FifoEntry} {t : WaveTab} (latched : (s.port p).latched = some e) (line : e.line = l) (wave : s.waveAt l p = some t)
  (cool : f.hot = false) (uncut : s.gateCut p = false)
include latched line wave cool uncut

/-- A port with a frame of the line latched that nothing inhibits fires where it is READY and configured in PRINT. -/
theorem State.firePort_uninhibited : s.firePort l p f =
    if (s.port p).st ≠ .ready || !(s.port p).cfgOk || s.mode ≠ .print then s.unfired l p
    else if e.blanked then (s.emitted l p f e t).2.outcome l p 3 none true
    else if (s.emitted l p f e t).1 then (s.emitted l p f e t).2.outcome l p 6 none false
    else (s.emitted l p f e t).2.outcome l p 0 none false := by
  have ofLine : ((s.port p).latched.filter fun e => decide (e.line = l)) = some e := by simp [latched, Option.filter_some, line]
  simp only [State.firePort, ofLine, wave, cool, uncut, Bool.false_eq_true, if_false]
  rfl

theorem State.firePort_unready (unready : (s.port p).st ≠ .ready) : s.firePort l p f = s.unfired l p := by
  rw [State.firePort_uninhibited latched line wave cool uncut, if_pos (by simp [unready])]

theorem State.firePort_fires (mode : s.mode = .print) (ready : (s.port p).st = .ready) (cfg : (s.port p).cfgOk = true) :
    s.firePort l p f =
      if e.blanked then (s.emitted l p f e t).2.outcome l p 3 none true
      else if (s.emitted l p f e t).1 then (s.emitted l p f e t).2.outcome l p 6 none false
      else (s.emitted l p f e t).2.outcome l p 0 none false := by
  rw [State.firePort_uninhibited latched line wave cool uncut, if_neg (by simp [mode, ready, cfg])]

end

/-- Settles O22: the frame that fires, the ports that stay blank, and what their outcomes leave of the line. -/
theorem linesFire : Obligations.LinesFire := by
  unfold Obligations.LinesFire
  refine ⟨?due, ?fires, ?blank, ?outcome, ?declined⟩
  case due =>
    intro s p l lat f out line latAt frozen valid on ahead begun start t
    rw [exec_lineFire s p out, State.lineFire_due line latAt frozen valid on ahead begun start]
  case fires =>
    exact fun s p l f e t latched line wave mode ready cfg cool uncut =>
      State.firePort_fires latched line wave cool uncut mode ready cfg
  case blank =>
    exact fun s p l f e t latched line wave => ⟨State.firePort_hot, State.firePort_cut,
      fun cool uncut unready => State.firePort_unready latched line wave cool uncut unready⟩
  case outcome =>
    intro s l p c final _ small undeclined
    have taken : (s.bar l).declined p = false := by
      obtain known | pending := undeclined
      · simp [BarLine.declined, known]
      · simp [BarLine.declined, pending]
    rw [s.bar_outcome]
    exact ⟨s.outcome_hp l p c none final, (s.bar l).known_settled p c final, BarLine.code_settled taken (by omega) final⟩
  case declined =>
    intro s l p c flag final _ ahead
    refine ⟨?_, ?_, ?_⟩
    · rw [s.bar_decline l p ahead]
    · rw [s.bar_decline l p ahead]
      exact (s.bar l).final_settled p 5
    · rw [State.bar_outcome]
      exact BarLine.code_settled_of_declined (s.declined_decline l p ahead) c final

end Sys2Proof.Machine
end

section
/-! PROOFS of O30: the judgement of symbols, and how tickets close. -/

namespace Sys2Proof.Machine

/-! ## The commands of verdicts -/

section
variable {s : State} (out : s.sys.inReset = false)
include out

theorem exec_symbolVerify : exec .symbolVerify s = .next (s.after s.symbolVerify) :=
  congrArg Host.Outcome.next (s.act_eq_after (·.symbolVerify) out)

theorem exec_ticketVerdict : exec .ticketVerdict s = .next (s.after s.ticketVerdict) :=
  congrArg Host.Outcome.next (s.act_eq_after (·.ticketVerdict) out)

theorem exec_closeTimeout : exec .closeTimeout s = .next (s.after s.closeTimeout) :=
  congrArg Host.Outcome.next (s.act_eq_after (·.closeTimeout) out)

end

/-! ## Symbols -/

section
variable {s : State} {i : Nat} {d : SymDesc}
  (first : s.inn.syms.findIdx? (fun d => d.judged.isNone && decide (d.lastMerged ≤ s.rdN Reg.IN_IHWM)) = some i)
  (there : s.inn.syms[i]? = some d)
include first there

/-- R250: a symbol whose descriptor cannot be read is UNREAD. -/
theorem State.symbolVerify_unreadable (gone : s.readable d.key = false) :
    s.symbolVerify = { s with inn := { s.inn with syms := s.inn.syms.set i { d with judged := some (false, false, true) } } } := by
  simp only [State.symbolVerify, first, there, gone, Bool.not_false, if_true]

/-- R243: the first symbol whose last line has closed is judged; beside its judgement only the counter of open values moves. -/
theorem State.symbolVerify_judges : ∃ (v : Bool × Bool × Bool) (n : Nat),
    s.symbolVerify = { s with free := n, inn := { s.inn with syms := s.inn.syms.set i { d with judged := some v } } } := by
  cases readable : s.readable d.key with
  | false => exact ⟨(false, false, true), s.free, State.symbolVerify_unreadable first there readable⟩
  | true =>
    simp only [State.symbolVerify, first, there, readable, Bool.not_true, Bool.false_eq_true, if_false]
    exact ⟨_, s.free + 1, rfl⟩

end

/-! ## The rows of R246 -/

section
variable (s : State) {t : Ticket} (late : Bool)

/-- Row 1: a cause from outside inspection, or a port that left its line unfired (R22, log entry 42). -/
theorem State.judge_outside (cause : outsideCauses t.flags = true ∨ t.unfired = true) :
    (s.judge t late).1 = 1 ∧ (s.judge t late).2.1 = 1 := by
  have row : (outsideCauses t.flags || t.unfired) = true := by simpa using cause
  simp only [State.judge, row, if_true, and_self]

variable (inside : outsideCauses t.flags = false) (fired : t.unfired = false)
include inside fired

/-- Row 2: inspection was off while the ticket printed. -/
theorem State.judge_enOff (off : t.enOff = true) : (s.judge t late).1 = 2 ∧ (s.judge t late).2.1 = 2 := by
  simp only [State.judge, inside, fired, off, Bool.or_self, Bool.false_eq_true, if_false, if_true, and_self]

variable (on : t.enOff = false)
include on

/-- Row 3: too many defects. -/
theorem State.judge_defects (many : s.fld Reg.IN_CNT_CFG F.IN_CNT_CFG_DEFECT_MAX < t.defects) :
    (s.judge t late).1 = 1 ∧ (s.judge t late).2.1 = 3 := by
  simp only [State.judge, inside, fired, on, many, Bool.or_self, Bool.false_eq_true, if_false, decide_true, if_true, and_self]

/-- Rows 5 and 6 for a ticket without symbols, to which row 4 never applies. -/
theorem State.judge_plain (few : t.defects ≤ s.fld Reg.IN_CNT_CFG F.IN_CNT_CFG_DEFECT_MAX) (plain : s.symsOf t = []) :
    (s.judge t late).1 = if late ∨ t.bad then 2 else 0 := by
  simp only [State.judge, inside, fired, on, plain, Nat.not_lt.mpr few, List.filterMap_nil, List.filter_nil, List.any_nil,
    Bool.or_self, Bool.or_false, Bool.false_eq_true, decide_false, if_false, Bool.or_eq_true]
  split <;> rfl

end

/-! ## Tickets closed -/

/-- A ticket as its verdict leaves it (R246): recorded as VOID where UNVER_POLICY does not keep UNVERIFIED. -/
def State.ticketClosed (s : State) (t : Ticket) (late : Bool) : Ticket :=
  let d := s.judge t late
  if d.1 = 2 ∧ s.isSet Reg.IN_CFG F.IN_CFG_UNVER_POLICY = false then { t with verdict := some 1, flags := d.2.2 ||| 2 ^ 14 }
  else { t with verdict := some d.1, flags := d.2.2 }

theorem State.ticketClosed_verdict (s : State) (t : Ticket) (late : Bool) : (s.ticketClosed t late).verdict =
    some (if (s.judge t late).1 = 2 ∧ s.isSet Reg.IN_CFG F.IN_CFG_UNVER_POLICY = false then 1 else (s.judge t late).1) := by
  unfold State.ticketClosed
  dsimp only
  split <;> rfl

theorem State.ticketClosed_serial (s : State) (t : Ticket) (late : Bool) : (s.ticketClosed t late).serial = t.serial := by
  unfold State.ticketClosed
  dsimp only
  split <;> rfl

/-- An open ticket that closes is the only one that changes; what is counted and raised leaves tickets alone. -/
theorem State.closeTicket_tickets {s : State} {i : Nat} {t : Ticket} (there : s.au.tickets[i]? = some t) (opened : t.verdict = none)
    (late : Bool) : (s.closeTicket i late).au.tickets = s.au.tickets.set i (s.ticketClosed t late) := by
  unfold State.closeTicket
  split
  case h_1 missing => simp [missing] at there
  case h_2 t' there' =>
    obtain rfl : t' = t := Option.some.inj (there'.symm.trans there)
    rw [if_neg (by simp [opened])]
    extract_lets d keep s₁ verdict flags au inn s₂
    have counted : s₁.au = s.au := by
      unfold s₁
      split <;> rfl
    have recorded : s₂.au.tickets = s.au.tickets.set i (s.ticketClosed t' late) := by
      have closed : s.ticketClosed t' late = { t' with verdict := some verdict, flags := flags } := by
        unfold State.ticketClosed verdict flags keep d
        simp only [Bool.and_eq_true, decide_eq_true_eq, Bool.not_eq_true']
        split <;> rfl
      rw [closed]
      exact congrArg (fun au : AuState => au.tickets.set i { t' with verdict := some verdict, flags := flags }) counted
    have voided := State.raise_keeps (s₂.flag Reg.IN_STAT F.IN_STAT_INSPECT_VOID) Ev.INSPECT_VOID 0
    have unverified := State.raiseWith_keeps (s₂.flag Reg.IN_STAT F.IN_STAT_TICKET_UNVER) Ev.TICKET_UNVER (if keep then 0 else 2) 0
      (s₂.line % 2 ^ 32)
    split
    · exact (congrArg AuState.tickets voided.au).trans recorded
    · split
      · exact (congrArg AuState.tickets unverified.au).trans recorded
      · exact recorded

/-- R247: the first ticket whose verdict is due closes. -/
theorem State.ticketVerdict_due {s : State} {i : Nat} (due : s.au.tickets.findIdx? s.verdictDue = some i) :
    s.ticketVerdict = s.closeTicket i false := by
  simp only [State.ticketVerdict, due]

/-- R248: CLOSE_TMO after PRINT every ticket still open closes. -/
theorem State.closeTimeout_expired {s : State} {t : Nat} (exit : s.inn.exitAt = some t) (left : s.mode ≠ .print)
    (late : s.fld Reg.IN_CFG F.IN_CFG_CLOSE_TMO * 1000000 ≤ s.now - t) :
    s.closeTimeout = { s with inn := { s.inn with exitAt := none } }.closeAll := by
  simp [State.closeTimeout, exit, left, late]

/-- Settles O30: symbols judged once, tickets closed by the rows of R246 under UNVER_POLICY, and CLOSE_TMO. -/
theorem verdicts : Obligations.Verdicts := by
  unfold Obligations.Verdicts
  refine ⟨?symbols, ?due, ?closes, ?rows, ?timeout⟩
  case symbols =>
    intro s i d out first there
    refine ⟨fun gone => State.symbolVerify_unreadable first there gone ▸ exec_symbolVerify out, ?_⟩
    obtain ⟨v, n, judged⟩ := State.symbolVerify_judges first there
    refine ⟨_, v, exec_symbolVerify out, ?_⟩
    rw [judged]
    exact ⟨rfl, rfl, rfl, rfl⟩
  case due => exact fun s i out due => State.ticketVerdict_due due ▸ exec_ticketVerdict out
  case closes =>
    intro s i t late there opened d keep
    rw [State.closeTicket_tickets there opened late]
    have inside : i < s.au.tickets.length := (List.getElem?_eq_some_iff.mp there).1
    exact ⟨s.ticketClosed t late, List.getElem?_set_self inside, s.ticketClosed_verdict t late, s.ticketClosed_serial t late,
      fun j other => List.getElem?_set_ne other.symm⟩
  case rows =>
    exact fun s t late => ⟨s.judge_outside late, s.judge_enOff late, s.judge_defects late, s.judge_plain late⟩
  case timeout =>
    exact fun s t out exit left late => State.closeTimeout_expired exit left late ▸ exec_closeTimeout out

end Sys2Proof.Machine
end

section
/-! PROOFS of O10: the UT windows, whose registers end at offset 0x3F, and their owners. -/

namespace Sys2Proof.Machine

/-! ## Addresses of UT windows -/

/-- The address at offset `off` of UT window `win` (R54). -/
def utAddr (win : Master) (off : Nat) : Nat := 0x10000 + 0x100 * win.val + off

section
variable (win : Master) {off : Nat} (inside : off < 0x100)
include inside

theorem utAddr_bounds : 0x10000 ≤ utAddr win off ∧ utAddr win off < 0x10800 := by
  unfold utAddr
  omega

theorem utAddr_window : (utAddr win off - 0x10000) / 0x100 = win.val := by
  unfold utAddr
  omega

theorem toNat_utAddr : (BitVec.ofNat 32 (utAddr win off)).toNat = utAddr win off := by
  obtain ⟨-, high⟩ := utAddr_bounds win inside
  rw [BitVec.toNat_ofNat]
  omega

theorem mapped_utAddr : mapped (utAddr win off) = true := by
  obtain ⟨-, high⟩ := utAddr_bounds win inside
  have low : utAddr win off < 0x140000 := by omega
  simp [mapped, low]

/-- Registers of the blocks behind UT stand elsewhere. -/
theorem utAddr_ne {r : Nat} (h : 0x20000 ≤ r) : utAddr win off ≠ r := by
  obtain ⟨-, high⟩ := utAddr_bounds win inside
  omega

end

theorem utAddr_aligned (win : Master) {off : Nat} (aligned : off % 4 = 0) : utAddr win off % 4 = 0 := by
  unfold utAddr
  omega

/-! ## A window of another master -/

/-- R54: an access to the window of another master completes with an error and does nothing else. -/
theorem State.busAccess_of_foreignWindow (s : State) {m win : Master} {off : Nat} (data : Option Word) (foreign : win ≠ m)
    (inside : off < 0x100) (aligned : off % 4 = 0) :
    s.busAccess m.val (utAddr win off) 4 data = s.complete m.val 0 true false := by
  have other : win.val ≠ m.val := fun same => foreign (Fin.ext same)
  obtain ⟨low, high⟩ := utAddr_bounds win inside
  simp [State.busAccess, State.access, utAddr_aligned win aligned, mapped_utAddr win inside, low, high,
    utAddr_window win inside, other]

/-! ## Offsets without a register -/

theorem findRow_eq_none {l : List RegRow} {a : Nat} (h : ∀ r ∈ l, r.index? a = none) : findRow l a = none := by
  induction l with
  | nil => rfl
  | cons r l ih =>
    rw [findRow, h r List.mem_cons_self]
    exact ih fun x hx => h x (List.mem_cons_of_mem r hx)

/-- Every heading of UT has a register in each window, below offset 0x40. -/
theorem regsUT_rows : ∀ r ∈ regsUT, r.dims = [(8, 0x100)] ∧ 0x10000 ≤ r.base ∧ r.base < 0x10040 := by decide

section
variable (win : Master) {off : Nat} (beyond : 0x40 ≤ off) (inside : off < 0x100)
include beyond inside

theorem findReg_utAddr : findReg (utAddr win off) = none := by
  have block : utAddr win off / 0x10000 = 1 := by
    obtain ⟨low, high⟩ := utAddr_bounds win inside
    omega
  rw [findReg, block]
  refine findRow_eq_none fun r hr => ?_
  obtain ⟨dims, low, high⟩ := regsUT_rows r hr
  have apart : (utAddr win off - r.base) % 0x100 ≠ 0 := by
    unfold utAddr
    omega
  simp [RegRow.index?, dims, apart]

theorem regReset_utAddr : regReset (utAddr win off) = 0 := by simp [regReset, findReg_utAddr win beyond inside]

theorem regMask_utAddr (w : Word) : regMask (utAddr win off) w = 0 := by simp [regMask, findReg_utAddr win beyond inside]

/-- R480: a write where no register stands changes nothing. -/
theorem State.writeUt_utAddr (s : State) (w : Word) : s.writeUt (utAddr win off) w = s := by
  have sel : utAddr win off ≠ Reg.UT_SEL win.val := by unfold utAddr Reg.UT_SEL; omega
  have cmd : utAddr win off ≠ Reg.UT_CMD win.val := by unfold utAddr Reg.UT_CMD; omega
  simp [State.writeUt, utAddr_window win inside, sel, cmd, State.fieldWrite, findReg_utAddr win beyond inside]

/-- No register there is held in a domain whose clock can stop, or filled by a snapshot. -/
theorem regDomain_utAddr : regDomain (utAddr win off) = none := by
  have window : (List.range 8).find? (fun w => Reg.UT_INFO w ≤ utAddr win off && utAddr win off < Reg.UT_INFO w + 36) = none := by
    refine List.find?_eq_none.2 fun w _ => ?_
    simp only [Bool.and_eq_true, decide_eq_true_eq]
    unfold utAddr Reg.UT_INFO
    omega
  have lane : (List.range 8).find? (fun k => utAddr win off = Reg.HL_Lk_STAT k || utAddr win off = Reg.HL_Lk_ERR k) = none := by
    refine List.find?_eq_none.2 fun k _ => ?_
    simp [utAddr_ne win inside (r := Reg.HL_Lk_STAT k) (by unfold Reg.HL_Lk_STAT; omega),
      utAddr_ne win inside (r := Reg.HL_Lk_ERR k) (by unfold Reg.HL_Lk_ERR; omega)]
  have csi : [0, 1].find? (fun n => utAddr win off = Reg.IN_PORTn_ERR n) = none := by
    refine List.find?_eq_none.2 fun n _ => ?_
    simp [utAddr_ne win inside (r := Reg.IN_PORTn_ERR n) (by unfold Reg.IN_PORTn_ERR; omega)]
  simp (disch := decide) [regDomain, window, lane, csi, utAddr_ne win inside]

/-- An owner's access there is granted. -/
theorem State.grants_utAddr (s : State) (aligned : off % 4 = 0) (noMspi : win.val ≠ 6) : s.grants win (utAddr win off) = true := by
  simp (disch := decide) [State.grants, utAddr_aligned win aligned, mapped_utAddr win inside, utAddr_window win inside, noMspi,
    securityOnly, utAddr_ne win inside, regDomain_utAddr win beyond inside]

/-- R480: a read where no register stands answers the word of an empty place, and changes nothing. -/
theorem State.readWord_utAddr (s : State) : s.readWord (utAddr win off) = (s.rd (utAddr win off), s) := by
  obtain ⟨low, high⟩ := utAddr_bounds win inside
  have blocks : utAddr win off < 0x140000 := by omega
  have block : utAddr win off / 0x10000 = 1 := by omega
  have child : (List.range 8).findSome? (fun w => if utAddr win off = Reg.UT_CHILD w then some (s.utChild w) else none) = none := by
    refine List.findSome?_eq_none_iff.2 fun w _ => if_neg ?_
    unfold utAddr Reg.UT_CHILD
    omega
  simp (disch := decide) [State.readWord, State.readCapture, State.wpReadCapture, State.tnReadCapture, State.readClear,
    State.mfReadClear, State.wordAt, State.regView, State.utView, findReg_utAddr win beyond inside, utAddr_ne win inside, blocks,
    block, child]

end

/-! ## Accesses by command -/

section
variable {s : State} (out : s.sys.inReset = false)
include out

/-- A write by command, at an address of a window. -/
theorem exec_registerWrite_utAddr (m win : Master) {off : Nat} (inside : off < 0x100) (d : Word) :
    exec (.registerWrite m (BitVec.ofNat 32 (utAddr win off)) 4 d) s =
      .next (s.after (s.busAccess m.val (utAddr win off) 4 (some d))) := by
  have run : exec (.registerWrite m (BitVec.ofNat 32 (utAddr win off)) 4 d) s =
      .next (s.after (s.busAccess m.val (BitVec.ofNat 32 (utAddr win off)).toNat 4 (some d))) :=
    congrArg Host.Outcome.next (s.act_eq_after _ out)
  rwa [toNat_utAddr win inside] at run

/-- A read by command, at an address of a window. -/
theorem exec_registerRead_utAddr (m win : Master) {off : Nat} (inside : off < 0x100) :
    exec (.registerRead m (BitVec.ofNat 32 (utAddr win off))) s =
      .next (s.after (s.busAccess m.val (utAddr win off) 4 none)) := by
  have run : exec (.registerRead m (BitVec.ofNat 32 (utAddr win off))) s =
      .next (s.after (s.busAccess m.val (BitVec.ofNat 32 (utAddr win off)).toNat 4 none)) :=
    congrArg Host.Outcome.next (s.act_eq_after _ out)
  rwa [toNat_utAddr win inside] at run

end

section
variable (s : State) (m : Master) {off : Nat} (beyond : 0x40 ≤ off) (inside : off < 0x100) (aligned : off % 4 = 0)
  (noMspi : m.val ≠ 6)
include beyond inside aligned noMspi

/-- An owner's write where no register stands completes and does nothing else. -/
theorem State.busAccess_write_empty (d : Word) : s.busAccess m.val (utAddr m off) 4 (some d) = s.complete m.val 0 false false := by
  obtain ⟨low, high⟩ := utAddr_bounds m inside
  have blocks : utAddr m off < 0x140000 := by omega
  have block : utAddr m off / 0x10000 = 1 := by omega
  have writable : readOnlyWindow (utAddr m off) = false := by
    simp only [readOnlyWindow, Bool.or_eq_false_iff, Bool.and_eq_false_iff, decide_eq_false_iff_not]
    omega
  have written : s.writeWord m.val (utAddr m off) d = (false, s) := by
    simp [State.writeWord, writable, blocks, State.writeReg, block, s.writeUt_utAddr m beyond inside]
  have access := s.busWrite_of_grants m _ d (s.grants_utAddr m beyond inside aligned noMspi)
  rwa [written] at access

/-- An owner's read there answers the word of an empty place. -/
theorem State.busAccess_read_empty :
    s.busAccess m.val (utAddr m off) 4 none = s.complete m.val (s.rd (utAddr m off)) false false := by
  have access := s.busRead_of_grants m _ (s.grants_utAddr m beyond inside aligned noMspi)
  rwa [s.readWord_utAddr m beyond inside] at access

end

/-- Settles O10: other masters' accesses, and offsets without a register. -/
theorem utWindowsOwned : Obligations.UtWindowsOwned := by
  unfold Obligations.UtWindowsOwned
  refine ⟨?foreign, ?owner, ?mspi⟩
  case foreign =>
    intro s m win off d out foreign inside aligned
    exact ⟨s.busAccess_of_foreignWindow (some d) foreign inside aligned ▸ exec_registerWrite_utAddr out m win inside d,
      s.busAccess_of_foreignWindow none foreign inside aligned ▸ exec_registerRead_utAddr out m win inside⟩
  case owner =>
    intro s m off d out beyond inside aligned other
    have noMspi : m.val ≠ 6 := other
    have place := toNat_utAddr m inside
    refine ⟨(congrArg findReg place).trans (findReg_utAddr m beyond inside),
      s.busAccess_write_empty m beyond inside aligned noMspi d ▸ exec_registerWrite_utAddr out m m inside d, ?_,
      (congrArg regReset place).trans (regReset_utAddr m beyond inside)⟩
    have read := s.busAccess_read_empty m beyond inside aligned noMspi ▸ exec_registerRead_utAddr out m m inside
    exact read.trans (congrArg (fun a => Host.Outcome.next (s.after (s.complete m.val (s.rd a) false false))) place.symm)
  case mspi =>
    intro s off _ beyond inside _
    have place := toNat_utAddr 6 inside
    exact ⟨(congrArg findReg place).trans (findReg_utAddr 6 beyond inside),
      fun w => (congrArg (s.writeUt · w) place).trans (s.writeUt_utAddr 6 beyond inside w)⟩

end Sys2Proof.Machine
end

section
/-! PROOFS of O15: what a write of UT_SEL starts, and how a snapshot ends that no controller answers. -/

namespace Sys2Proof.Machine

/-! ## Writes of UT registers -/

/-- A granted write of a register of UT ends after the effect of the window. -/
theorem State.act_busWrite_ut (s : State) {m : Master} {a : Nat} (w : Word) (takes : s.takes m a) (ut : a / 0x10000 = 1) :
    s.act (·.busWrite m.val a w) = s.wrote (s.writeUt a (regMask a w)) m := by
  have low : a < 0x20000 := by omega
  have writable : readOnlyWindow a = false := by
    simp only [readOnlyWindow, Bool.or_eq_false_iff, Bool.and_eq_false_iff, decide_eq_false_iff_not]
    omega
  rw [s.act_busWrite_of_takes m a w takes writable (by omega)]
  simp [State.writeReg, ut]

theorem State.writeUt_sel (s : State) (win : Nat) (w : Word) : s.writeUt (Reg.UT_SEL win) w = s.utSelect win w := by
  have window : (Reg.UT_SEL win - 0x10000) / 0x100 = win := by unfold Reg.UT_SEL; omega
  simp [State.writeUt, window]

theorem exec_utSelWrite {s : State} {m : Master} (takes : s.takes m (Reg.UT_SEL m.val)) (w : Word) :
    exec (.utSelWrite m w) s = .next (s.wrote (s.utSelect m.val (cmdWord (Reg.UT_SEL m.val) w [])) m) := by
  have block : Reg.UT_SEL m.val / 0x10000 = 1 := by unfold Reg.UT_SEL; omega
  rw [← State.writeUt_sel]
  exact congrArg Host.Outcome.next (s.act_busWrite_ut w takes block)

/-! ## Snapshots stored -/

/-- UT_SEL of a window taken: SNAP_READY falls, and what an earlier snapshot of the window waited for is dropped. -/
def State.selected (s : State) (win : Nat) (d : Word) : State :=
  let t := (s.wr (Reg.UT_SEL win) d).setFld (Reg.UT_INFO win) F.UT_INFO_SNAP_READY 0
  { t with ut := { t.ut with snapWait := t.ut.snapWait.filter fun p => p.1 ≠ win },
           hl := { t.hl with fwd := t.hl.fwd.filter fun f => f.cmd || f.win ≠ win } }

theorem State.utSelect_here {s : State} {win : Nat} {d : Word} (here : F.UT_SEL_CHIP.get d = (s.selected win d).index) :
    s.utSelect win d = (s.selected win d).storeSnap win ((s.selected win d).snapshot (F.UT_SEL_HANDLE.get d)) :=
  if_pos here

theorem State.utSelect_noRoute {s : State} {win : Nat} {d : Word} (away : F.UT_SEL_CHIP.get d ≠ (s.selected win d).index)
    (unreached : (s.selected win d).reachable (F.UT_SEL_CHIP.get d) = false) :
    s.utSelect win d = (s.selected win d).snapFail win :=
  (if_neg away).trans (if_pos (congrArg not unreached))

/-- The words behind UT_INFO are stored behind it. -/
theorem State.storeSnap_behind (win : Nat) (ws : List Nat) (n : Nat) (s : State) :
    let t := (ws.zipIdx (n + 1)).foldl (fun s p => s.wrN (Reg.UT_INFO win + 4 * p.2) p.1) s
    t.rd (Reg.UT_INFO win) = s.rd (Reg.UT_INFO win) ∧ t.ut = s.ut := by
  induction ws generalizing n s with
  | nil => exact ⟨rfl, rfl⟩
  | cons x ws ih =>
    obtain ⟨rd, ut⟩ := ih (n + 1) (s.wrN (Reg.UT_INFO win + 4 * (n + 1)) x)
    exact ⟨rd.trans (State.rd_wrN_ne s x (by omega)), ut⟩

/-- A snapshot stored shows its first word in UT_INFO. -/
theorem State.rd_storeSnap_info (s : State) (win x : Nat) (ws : List Nat) :
    (s.storeSnap win (x :: ws)).rd (Reg.UT_INFO win) = BitVec.ofNat 32 x :=
  (State.storeSnap_behind win ws 0 (s.wrN (Reg.UT_INFO win) x)).1.trans (s.rd_wrN_self (Reg.UT_INFO win) x)

theorem State.storeSnap_ut (s : State) (win x : Nat) (ws : List Nat) : (s.storeSnap win (x :: ws)).ut = s.ut :=
  (State.storeSnap_behind win ws 0 (s.wrN (Reg.UT_INFO win) x)).2

/-! ## Snapshots that fail -/

/-- R55: VALID 0 with SNAP_READY. -/
theorem State.rd_snapFail_info (s : State) (win : Nat) : (s.snapFail win).rd (Reg.UT_INFO win) = BitVec.ofNat 32 (2 ^ 30) :=
  State.rd_storeSnap_info ..

/-- The window waits for no snapshot any more. -/
theorem State.snapFail_snapWait (s : State) (win : Nat) : (s.snapFail win).ut.snapWait = s.ut.snapWait.filter fun p => p.1 ≠ win :=
  congrArg UtState.snapWait (State.storeSnap_ut ..)

theorem State.snapTimeout_waiting {s : State} {win t : Nat} (waits : (win, t) ∈ s.ut.snapWait) :
    s.snapTimeout win = { s with hl := { s.hl with fwd := s.hl.fwd.filter fun f => f.cmd || f.win ≠ win } }.snapFail win :=
  if_pos (List.any_eq_true.2 ⟨(win, t), waits, decide_eq_true rfl⟩)

theorem State.snapshot_invalid {s : State} {h : Nat} (invalid : s.si.valid h = false) :
    s.snapshot h = [2 ^ 30, 0, 0, 0, 0, 0, 0, 0, 0] := by
  simp [State.snapshot, invalid]

/-- Settles O15: snapshots of this controller, of one out of reach, of one that does not answer, and of no unit. -/
theorem unitSnapshots : Obligations.UnitSnapshots := by
  unfold Obligations.UnitSnapshots
  refine ⟨?select, ?timeout, fun s h invalid => State.snapshot_invalid invalid⟩
  case select =>
    intro s m w takes
    exact ⟨fun here => State.utSelect_here here ▸ exec_utSelWrite takes w,
      fun away unreached => State.utSelect_noRoute away unreached ▸ exec_utSelWrite takes w⟩
  case timeout =>
    intro s win t out waits
    refine ⟨s.snapTimeout win.val, congrArg Host.Outcome.next (s.act_eq_after (·.snapTimeout win.val) out), ?_⟩
    rw [State.snapTimeout_waiting waits]
    simp only [State.fld, State.rd_snapFail_info, State.snapFail_snapWait]
    exact ⟨by decide, by decide, fun q left => of_decide_eq_true (List.mem_filter.1 left).2⟩

end Sys2Proof.Machine
end

section
/-! SUPPORT of O16 and O17: what an accepted unit command counts and becomes. -/

namespace Sys2Proof.Machine

/-! ## Counts -/

/-- R43: a command counted changes nothing but the units' counters. -/
theorem State.countCmd_keeps (s : State) (code h : Nat) : RaiseKeeps s (s.countCmd code h) := by
  unfold State.countCmd
  split
  · exact RaiseKeeps.foldl _ _ (fun s u => s.countUp_keeps u 2) s
  · exact s.countUp_keeps h 2

/-- Whether ticks run depends on the last one and the time alone (R47). -/
theorem State.ticksRun_congr {s t : State} (wp : t.wp = s.wp) (now : t.now = s.now) : t.ticksRun = s.ticksRun := by
  unfold State.ticksRun
  rw [wp, now]

/-! ## Delays of other controllers -/

/-- Own settings of another unit reach no path that it does not lie on. -/
theorem ownOf_set_of_not_below {si : Structure} {h u v : Nat} (own : AMap UnitCfg) (c : UnitCfg) (apart : si.below h u = false)
    (on : v ∈ si.path u) : ownOf (AMap.set unitCfgDefault own h c) v = ownOf own v := by
  have other : v ≠ h := by
    rintro rfl
    simp [Structure.below, on] at apart
  exact AMap.get_set_ne _ _ _ other

theorem effLd_set_of_not_below {si : Structure} {h u : Nat} (own : AMap UnitCfg) (c : UnitCfg) (apart : si.below h u = false) :
    effLd si (AMap.set unitCfgDefault own h c) u = effLd si own u :=
  List.foldl_ext _ _ 0 fun _ _ on => by rw [ownOf_set_of_not_below own c apart on]

theorem effSd_set_of_not_below {si : Structure} {h u : Nat} (own : AMap UnitCfg) (c : UnitCfg) (apart : si.below h u = false) :
    effSd si (AMap.set unitCfgDefault own h c) u = effSd si own u :=
  List.foldl_ext _ _ 0 fun _ _ on => by rw [ownOf_set_of_not_below own c apart on]

/-- The handle of a CHIP unit in the tree is valid (R32). -/
theorem Structure.valid_of_chip {si : Structure} {n : TreeNode} (there : n ∈ si.nodes) (chip : kindOf n.handle = some .chip) :
    si.valid n.handle = true := by
  simp only [Structure.valid, chip, Structure.node?, List.find?_isSome]
  exact ⟨n, there, decide_eq_true rfl⟩

/-- R53: delays set where no CHIP unit lies below carry no unit of a child out of its range. -/
theorem State.childrenOver_ownDelay {s : State} {h : Nat} (arg : Nat) (none : s.chipsBelow h = []) :
    s.childrenOver s.si (s.ownDelay h arg) = (false, s) := by
  refine List.foldlRecOn (motive := fun a => a = (false, s)) _ _ rfl fun a same u mem => ?_
  obtain ⟨handle, chip⟩ := List.mem_filter.1 mem
  obtain ⟨n, there, rfl⟩ := List.mem_map.1 handle
  have kind : kindOf n.handle = some .chip := of_decide_eq_true chip
  have apart : s.si.below h n.handle = false := by
    simpa [kind] using List.filter_eq_nil_iff.1 (List.map_eq_nil_iff.1 none) n.handle handle
  subst same
  simp [State.childOver, Structure.valid_of_chip there kind, State.lineDelay, State.subDelay, State.ownDelay,
    effLd_set_of_not_below _ _ apart, effSd_set_of_not_below _ _ apart]

/-! ## Commands accepted -/

/-- The codes of R45. -/
def utCodes : List Nat := [0x01, 0x02, 0x03, 0x10, 0x11, 0x12, 0x13, 0x14]

/-- Those whose effect no walk brings (R47). -/
def utAtOnce : List Nat := [0x01, 0x02, 0x03, 0x12]

/-- Those whose effect comes with the walk of the subtree (R47). -/
def utWalks : List Nat := [0x10, 0x11, 0x13, 0x14]

/-- UT_CMD_STAT of a window while its command is in progress (R50). -/
def State.utBusy (s : State) (win : Nat) : State :=
  (s.setFld (Reg.UT_CMD_STAT win) F.UT_CMD_STAT_ERR 0).setFld (Reg.UT_CMD_STAT win) F.UT_CMD_STAT_BUSY 1

/-- An accepted command with no part to forward and no commit position (R50): BUSY, in progress, and counted, but for CLEAR_STATUS
and CLEAR_COUNTERS, which count with their effect (log entry 26). -/
def State.utBegin (s : State) (m : Master) (code h arg : Nat) (applied : Bool) : State :=
  ((if code = 0x10 || code = 0x11 then s else s.countCmd code h).utBusy m.val).setCmd (some (s.unitCmd m code h arg applied))

theorem State.utBegin_ticksRun (s : State) (m : Master) (code h arg : Nat) (applied : Bool) :
    (s.utBegin m code h arg applied).ticksRun = s.ticksRun := by
  have begun (t : State) (c : Option UtCmd) : ((t.utBusy m.val).setCmd c).ticksRun = t.ticksRun :=
    State.ticksRun_congr (by simp [State.utBusy]) (by simp [State.utBusy])
  unfold State.utBegin
  rw [begun]
  split
  · rfl
  · exact State.ticksRun_congr (s.countCmd_keeps code h).wp (s.countCmd_keeps code h).now

theorem State.writeUt_cmd (s : State) (win : Nat) (w : Word) :
    s.writeUt (Reg.UT_CMD win) w = s.utCommand win (F.UT_CMD_CODE.get w) := by
  have window : (Reg.UT_CMD win - 0x10000) / 0x100 = win := by unfold Reg.UT_CMD; omega
  have sel : Reg.UT_CMD win ≠ Reg.UT_SEL win := by unfold Reg.UT_CMD Reg.UT_SEL; omega
  simp [State.writeUt, window, sel]

/-- The code a write of UT_CMD carries. -/
theorem get_code_regMask (m : Master) : ∀ code ∈ utCodes,
    F.UT_CMD_CODE.get (regMask (Reg.UT_CMD m.val) (BitVec.ofNat 32 code)) = code := by
  revert m
  decide

/-- A code without a mode that accepts it is none of R45; the checks of R46 refuse it. -/
theorem State.utModes_of_utCheck {s : State} {code h arg : Nat} (passes : s.utCheck code h arg = 0) :
    (utModes code).isEmpty = false := by
  by_contra refused
  have nowhere : utModes code = [] := by simpa using refused
  simp only [State.utCheck, nowhere, List.contains_nil, Bool.not_false, Bool.true_or, if_true] at passes
  split at passes <;> exact absurd passes (by decide)

/-- R46: a command that passes the checks on this controller is accepted. -/
theorem State.utCommand_ready {s : State} {m : Master} {code h arg : Nat} (ready : s.unitReady m code h arg) :
    s.utCommand m.val code = s.utAccept m.val code h arg := by
  obtain ⟨-, free, here, rfl, kind, rfl, passes, none⟩ := ready
  have modes := State.utModes_of_utCheck passes
  have inRange : (if code = 2 then s.childrenOver s.si (s.ownDelay (s.fld (Reg.UT_SEL m.val) F.UT_SEL_HANDLE)
      (s.rdN (Reg.UT_ARG m.val))) else (false, s)) = (false, s) := by
    rw [State.childrenOver_ownDelay _ none, ite_self]
  simp [State.utCommand, free, here, kind, modes, passes, inRange]

/-- A write of UT_CMD ends with the command accepted. -/
theorem State.act_utCommand {s : State} {m : Master} {code h arg : Nat} (ready : s.unitReady m code h arg)
    (listed : code ∈ utCodes) :
    s.act (·.busWrite m.val (Reg.UT_CMD m.val) (BitVec.ofNat 32 code)) = s.wrote (s.utAccept m.val code h arg) m := by
  have block : Reg.UT_CMD m.val / 0x10000 = 1 := by unfold Reg.UT_CMD; omega
  rw [s.act_busWrite_ut _ ready.1 block, State.writeUt_cmd, get_code_regMask m code listed, State.utCommand_ready ready]

/-- R45, R51: a broadcast that walks the subtree takes effect with the walk. -/
theorem State.utAccept_walk {s : State} {h : Nat} (m : Master) (code arg : Nat) (walks : utBroadcast code = true)
    (notRelease : code ≠ 0x12) (none : s.chipsBelow h = []) :
    s.utAccept m.val code h arg = s.utBegin m code h arg false := by
  have notEnable : code ≠ 0x01 := by
    rintro rfl
    cases walks
  simp [State.utAccept, walks, notRelease, notEnable, none, State.utBegin, State.utBusy, State.unitCmd]

/-- R47: outside PRINT a setting or RELEASE takes effect with the next tick, or at once where no ticks run. -/
theorem State.utAccept_waits {s : State} {h : Nat} (m : Master) (code arg : Nat) (waits : utBroadcast code = true → code = 0x12)
    (noCommit : ¬(s.mode = .print ∧ (code = 0x01 ∨ code = 0x12))) (none : s.chipsBelow h = []) :
    s.utAccept m.val code h arg =
      if s.ticksRun then s.utBegin m code h arg false else (s.utBegin m code h arg false).utApply 0 := by
  have noWalk : ¬(utBroadcast code = true ∧ ¬code = 0x12) := fun ⟨walk, other⟩ => other (waits walk)
  have noForward : (if utBroadcast code = true then s.chipsBelow h else []) = [] := by rw [none, ite_self]
  rw [← s.utBegin_ticksRun m code h arg false]
  simp [State.utAccept, noForward, noCommit, noWalk, State.utBegin, State.utBusy, State.unitCmd]

/-- The effect of a setting or RELEASE, which no walk brings (R47). -/
theorem State.utApply_waits {s : State} {c : UtCmd} (l : Nat) (cmd : s.ut.cmd = some c) (fresh : c.applied = false)
    (waits : utBroadcast c.code = true → c.code = 0x12) :
    s.utApply l = ((s.setCmd (some { c with applied := true })).utEffect c.code c.handle c.arg).wrN (Reg.UT_CMD_LINE c.win)
      (l % 2 ^ 32) := by
  have noWalk : ¬(utBroadcast c.code = true ∧ ¬c.code = 0x12) := fun ⟨walk, other⟩ => other (waits walk)
  have counted : ¬(c.code = 0x10 ∨ c.code = 0x11) := by
    rintro (code | code) <;> exact absurd (waits (by rw [code]; rfl)) (by rw [code]; decide)
  simp [State.utApply, cmd, fresh, noWalk, counted]

/-- R47: with neither PRINT nor ticks it takes effect at once. -/
theorem State.utAccept_atOnce {s : State} {h : Nat} (m : Master) (code arg : Nat) (waits : utBroadcast code = true → code = 0x12)
    (noCommit : ¬(s.mode = .print ∧ (code = 0x01 ∨ code = 0x12))) (none : s.chipsBelow h = []) (still : s.ticksRun = false) :
    s.utAccept m.val code h arg = ((s.utBegin m code h arg true).utEffect code h arg).wrN (Reg.UT_CMD_LINE m.val) 0 := by
  rw [State.utAccept_waits m code arg waits noCommit none, still, if_neg Bool.false_ne_true, State.utApply_waits 0 rfl rfl waits]
  rfl

end Sys2Proof.Machine
end

section
/-! PROOFS of O16: unit settings and RELEASE outside PRINT, and SET_ENABLE in PRINT. -/

namespace Sys2Proof.Machine

/-- R45, R47: outside PRINT and without ticks, a write of UT_CMD with a setting or RELEASE ends with its effect. -/
theorem State.act_atOnce {s : State} {m : Master} {code h arg : Nat} (ready : s.unitReady m code h arg)
    (listed : code ∈ utAtOnce) (noCommit : ¬(s.mode = .print ∧ (code = 0x01 ∨ code = 0x12)))
    (still : s.ticksRun = false) :
    s.act (·.busWrite m.val (Reg.UT_CMD m.val) (BitVec.ofNat 32 code)) =
      s.wrote (((((s.countCmd code h).utBusy m.val).setCmd (some (s.unitCmd m code h arg true))).utEffect code h arg).wrN
        (Reg.UT_CMD_LINE m.val) 0) m := by
  have codes : ∀ c ∈ utAtOnce, c ∈ utCodes ∧
      (utBroadcast c = true → c = 0x12) ∧ ¬(c = 0x10 || c = 0x11) = true := by decide
  obtain ⟨known, waits, counted⟩ := codes code listed
  have accepted := State.act_utCommand ready known
  obtain ⟨-, -, -, -, -, -, -, none⟩ := ready
  rw [accepted, State.utAccept_atOnce m code arg waits noCommit none still, State.utBegin, if_neg counted]

/-- R37, R47: SET_DELAY changes the own delays and drops what has been composed above HWM, from the line ring first. -/
theorem State.utEffect_delay (s : State) (c : Option UtCmd) (h arg : Nat) :
    (s.setCmd c).utEffect 0x02 h arg =
      { s with ut := { s.ut with cmd := c, own := s.ownDelay h arg },
               js := s.js.keepLines fun l => decide (l ≤ s.wp.hwm) }.dropAbove s.wp.hwm := rfl

/-- R47: SET_TRIM changes the own trim class. -/
theorem State.utEffect_trim (s : State) (c : Option UtCmd) (h arg : Nat) :
    (s.setCmd c).utEffect 0x03 h arg =
      { s with ut := { s.ut with
        cmd := c, own := AMap.set unitCfgDefault s.ut.own h { ownOf s.ut.own h with trim := arg % 16 } } } := rfl

/-- R47, R206: a command in progress whose commit position is `p`, shown in UT_CMD_LINE with PENDING. -/
def State.utQueued (s : State) (win p : Nat) (c : UtCmd) : State :=
  (((s.utBusy win).setFld (Reg.UT_CMD_STAT win) F.UT_CMD_STAT_PENDING 1).setCmd (some { c with commit := some p })).wrN
    (Reg.UT_CMD_LINE win) p

theorem State.utAccept_queued {s s' : State} {h arg : Nat} (m : Master) (mode : s.mode = .print)
    (queued : s.queueReq (.enable h (arg.testBit 0)) = some s') :
    s.utAccept m.val 0x01 h arg = (s'.countCmd 0x01 h).utQueued m.val ((s'.nh.queue.getLast?.map (·.c)).getD 0)
      (s.unitCmd m 0x01 h arg true) := by
  simp [State.utAccept, mode, State.request, queued, utBroadcast, State.utQueued, State.utBusy, State.unitCmd, -Nat.testBit_zero]

/-- A command that waits for its commit position has changed no own setting, and its entry stands in the queue. -/
theorem State.utQueued_keeps (s : State) (win p : Nat) (c : UtCmd) :
    (s.utQueued win p c).nh = s.nh ∧ (s.utQueued win p c).ut.own = s.ut.own := by
  simp [State.utQueued, State.utBusy, State.setCmd]

theorem State.rd_setCmd (s : State) (c : Option UtCmd) (a : Nat) : (s.setCmd c).rd a = s.rd a := rfl

theorem State.rdN_utQueued_line (s : State) (win p : Nat) (c : UtCmd) :
    (s.utQueued win p c).rdN (Reg.UT_CMD_LINE win) = p % 2 ^ 32 := congrArg BitVec.toNat (State.rd_wrN_self ..)

/-- UT_CMD_STAT of a command that waits for its commit position (R50). -/
theorem State.utQueued_status (s : State) (win p : Nat) (c : UtCmd) :
    (s.utQueued win p c).fld (Reg.UT_CMD_STAT win) F.UT_CMD_STAT_PENDING = 1 ∧
      (s.utQueued win p c).fld (Reg.UT_CMD_STAT win) F.UT_CMD_STAT_BUSY = 1 := by
  have apart : Reg.UT_CMD_STAT win ≠ Reg.UT_CMD_LINE win := by unfold Reg.UT_CMD_STAT Reg.UT_CMD_LINE; omega
  have shown (f : BitField) : (s.utQueued win p c).fld (Reg.UT_CMD_STAT win) f =
      ((s.utBusy win).setFld (Reg.UT_CMD_STAT win) F.UT_CMD_STAT_PENDING 1).fld (Reg.UT_CMD_STAT win) f := by
    simp only [State.fld, State.utQueued, State.rd_wrN_ne _ p apart, State.rd_setCmd]
  rw [shown, shown, State.fld_setFld _ _ F.UT_CMD_STAT_PENDING _ (by decide) (by decide),
    State.fld_setFld_other _ _ F.UT_CMD_STAT_PENDING _ _ (by decide) (by decide) (by decide), State.utBusy,
    State.fld_setFld _ _ F.UT_CMD_STAT_BUSY _ (by decide) (by decide)]
  decide

/-- Settles O16: settings and RELEASE that take effect at once, and SET_ENABLE that waits in the commit queue. -/
theorem unitSettings : Obligations.UnitSettings := by
  unfold Obligations.UnitSettings
  refine ⟨?enable, ?delay, ?trim, ?release, ?print⟩
  case enable =>
    intro s m h arg ready mode still
    exact congrArg Host.Outcome.next (State.act_atOnce ready (by decide) (fun c => mode c.1) still)
  case delay =>
    intro s m h arg ready mode still
    have ends := State.act_atOnce ready (by decide) (fun c => mode c.1) still
    rw [State.utEffect_delay, State.utBusy] at ends
    exact congrArg Host.Outcome.next ends
  case trim =>
    intro s m h arg ready still
    have ends := State.act_atOnce ready (by decide) (fun c => absurd c.2 (by decide)) still
    rw [State.utEffect_trim, State.utBusy] at ends
    exact congrArg Host.Outcome.next ends
  case release =>
    intro s m h arg ready mode still
    exact congrArg Host.Outcome.next (State.act_atOnce ready (by decide) (fun c => mode c.1) still)
  case print =>
    intro s s' m h arg ready mode queued
    have ends := State.utAccept_queued m mode queued ▸ State.act_utCommand ready (by decide)
    have counted := s'.countCmd_keeps 0x01 h
    obtain ⟨nh, own⟩ := State.utQueued_keeps (s'.countCmd 0x01 h) m.val _ (s.unitCmd m 0x01 h arg true)
    exact ⟨_, congrArg Host.Outcome.next ends, by rw [nh, counted.nh], by rw [own, counted.ut], State.rdN_utQueued_line ..,
      State.utQueued_status ..⟩

end Sys2Proof.Machine
end

section
/-! PROOFS of O17: broadcasts accepted, their completion, and a forwarded command without an answer. -/

namespace Sys2Proof.Machine

/-! ## Broadcasts accepted -/

/-- R45, R50: a write of UT_CMD with a broadcast that walks the subtree ends with it in progress. -/
theorem State.act_walk {s : State} {m : Master} {code h arg : Nat} (ready : s.unitReady m code h arg)
    (listed : code ∈ utWalks) :
    s.act (·.busWrite m.val (Reg.UT_CMD m.val) (BitVec.ofNat 32 code)) = s.wrote (s.utBegin m code h arg false) m := by
  have codes : ∀ c ∈ utWalks, c ∈ utCodes ∧ utBroadcast c = true ∧
      c ≠ 0x12 := by decide
  obtain ⟨known, walks, notRelease⟩ := codes code listed
  have accepted := State.act_utCommand ready known
  obtain ⟨-, -, -, -, -, -, -, none⟩ := ready
  rw [accepted, State.utAccept_walk m code arg walks notRelease none]

/-! ## The walk -/

/-- An update that leaves the command in progress and the requests to other controllers as they were. -/
def State.CmdKeeps (s t : State) : Prop := t.ut.cmd = s.ut.cmd ∧ t.hl = s.hl

theorem State.CmdKeeps.trans {s t u : State} (h : s.CmdKeeps t) (k : t.CmdKeeps u) : s.CmdKeeps u :=
  ⟨k.1.trans h.1, k.2.trans h.2⟩

theorem State.CmdKeeps.foldl {α : Type} {f : State → α → State} (h : ∀ s x, State.CmdKeeps s (f s x)) (l : List α) (s : State) :
    s.CmdKeeps (l.foldl f s) := by
  induction l generalizing s with
  | nil => exact ⟨rfl, rfl⟩
  | cons x l ih => exact (h s x).trans (ih _)

theorem RaiseKeeps.cmdKeeps {s t : State} (h : RaiseKeeps s t) : s.CmdKeeps t := ⟨by rw [h.ut], h.hl⟩

theorem State.setPort_cmdKeeps (s : State) (p : Nat) (q : HeadPort) : s.CmdKeeps (s.setPort p q) := ⟨rfl, rfl⟩

theorem State.startSpit_cmdKeeps (s : State) (p k : Nat) : s.CmdKeeps (s.startSpit p k) := by
  unfold State.startSpit
  split
  · exact ⟨rfl, rfl⟩
  · exact s.setPort_cmdKeeps p _

/-- The effect of a walk reaches neither the command nor what it has forwarded. -/
theorem State.utEffect_walk_cmdKeeps (s : State) {code : Nat} (h arg : Nat) (listed : code ∈ utWalks) :
    s.CmdKeeps (s.utEffect code h arg) := by
  simp only [utWalks, List.mem_cons, List.not_mem_nil, or_false] at listed
  obtain rfl | rfl | rfl | rfl := listed
  · exact .foldl (fun s u => (s.setDyn_keeps u _).cmdKeeps) _ s
  · exact .foldl (fun s u => (s.setDyn_keeps u _).cmdKeeps) _ s
  · exact .foldl (fun s u => s.startSpit_cmdKeeps _ _) _ s
  · exact .foldl (fun s u => s.setPort_cmdKeeps _ _) _ s

/-- What a walk leaves when it has reached its units: its effect, and the counts of CLEAR_STATUS and CLEAR_COUNTERS. -/
def State.walked (s : State) (code h arg : Nat) : State :=
  if code = 0x10 || code = 0x11 then (s.utEffect code h arg).countCmd code h else s.utEffect code h arg

theorem State.walked_cmdKeeps (s : State) {code : Nat} (h arg : Nat) (listed : code ∈ utWalks) :
    s.CmdKeeps (s.walked code h arg) := by
  have effect := s.utEffect_walk_cmdKeeps h arg listed
  unfold State.walked
  split
  · exact effect.trans (State.countCmd_keeps ..).cmdKeeps
  · exact effect

theorem State.utApply_walk {s : State} {c : UtCmd} (l : Nat) (cmd : s.ut.cmd = some c) (fresh : c.applied = false)
    (walks : utBroadcast c.code = true) (notRelease : c.code ≠ 0x12) :
    s.utApply l = ((s.setCmd (some { c with applied := true })).walked c.code c.handle c.arg).wrN (Reg.UT_CMD_LINE c.win) 0 := by
  simp [State.utApply, cmd, fresh, walks, notRelease, State.walked]

/-! ## The end of a command -/

/-- R50: a command whose effect stands, with no commit position to wait for and no answer open, ends. -/
theorem State.utComplete_applied {s : State} {c : UtCmd} (cmd : s.ut.cmd = some c) (applied : c.applied = true)
    (noCommit : c.commit = none) (answered : s.hl.fwd.any (·.cmd) = false) :
    s.utComplete = (s.setCmd none).utDone c.win c.err := by
  simp only [State.utComplete, cmd, applied, noCommit, answered, Bool.not_true, Bool.false_and, Bool.false_eq_true, if_false,
    Bool.not_false, Bool.and_self, if_true]

/-- R50: a broadcast with no answer open ends with its walk. -/
theorem State.utComplete_walk {s : State} {c : UtCmd} (cmd : s.ut.cmd = some c) (fresh : c.applied = false)
    (noCommit : c.commit = none) (answered : s.hl.fwd.any (·.cmd) = false) (listed : c.code ∈ utWalks) :
    s.utComplete = ((((s.setCmd (some { c with applied := true })).walked c.code c.handle c.arg).wrN (Reg.UT_CMD_LINE c.win) 0).setCmd
      none).utDone c.win c.err := by
  have codes : ∀ k ∈ utWalks, utBroadcast k = true ∧ k ≠ 0x12 := by decide
  obtain ⟨walks, notRelease⟩ := codes c.code listed
  have walk := State.utApply_walk 0 cmd fresh walks notRelease
  obtain ⟨cmd', hl⟩ := (s.setCmd (some { c with applied := true })).walked_cmdKeeps c.handle c.arg listed
  have inProgress : (s.utApply 0).ut.cmd = some { c with applied := true } := by rw [walk]; exact cmd'
  have noneOpen : (s.utApply 0).hl.fwd.any (·.cmd) = false := by rw [walk, State.wrN_hl, hl]; exact answered
  have reached : s.utComplete = (s.utApply 0).utComplete := by
    simp [State.utComplete, cmd, fresh, walks, notRelease, inProgress]
  rw [reached, State.utComplete_applied inProgress rfl noCommit noneOpen, walk]

/-- R45, R50: a forwarded command whose answer is lost ends with LINK. -/
theorem State.forwardTimeout_applied {s : State} {c : UtCmd} {f : Fwd} (cmd : s.ut.cmd = some c) (there : f ∈ s.hl.fwd)
    (forwarded : f.cmd = true) (applied : c.applied = true) (noCommit : c.commit = none) :
    s.forwardTimeout =
      ({ s with ut := { s.ut with cmd := none }, hl := { s.hl with fwd := s.hl.fwd.filter fun f => !f.cmd } } : State).utDone c.win 7 := by
  have waits : (s.hl.fwd.any fun f => f.cmd) = true := List.any_eq_true.2 ⟨f, there, forwarded⟩
  have answered : ((s.hl.fwd.filter fun f => !f.cmd).any (·.cmd)) = false := by simp
  simp only [State.forwardTimeout, State.forwardLost, cmd, waits, if_true]
  exact State.utComplete_applied (c := { c with err := 7 }) rfl applied noCommit answered

/-- Settles O17: what the broadcasts become, what their walks reach, and the answer that does not come. -/
theorem unitBroadcasts : Obligations.UnitBroadcasts := by
  unfold Obligations.UnitBroadcasts
  refine ⟨?clearStatus, ?clearCounters, ?spit, ?identify, ?completes, ?unanswered⟩
  case clearStatus => exact fun s m h arg ready => congrArg Host.Outcome.next (State.act_walk ready (by decide))
  case clearCounters => exact fun s m h arg ready => congrArg Host.Outcome.next (State.act_walk ready (by decide))
  case spit => exact fun s m h arg ready => congrArg Host.Outcome.next (State.act_walk ready (by decide))
  case identify => exact fun s m h arg ready => congrArg Host.Outcome.next (State.act_walk ready (by decide))
  case completes =>
    intro s c out cmd fresh noCommit unanswered listed
    have answered : s.hl.fwd.any (·.cmd) = false := List.any_eq_false.2 fun f there => by simp [unanswered f there]
    have ends := (s.act_eq_after (·.utComplete) out).trans
      (congrArg s.after (State.utComplete_walk cmd fresh noCommit answered listed))
    obtain ⟨win, code, chip, h, arg, start, forwarded, applied, commit, err⟩ := c
    simp only [List.mem_cons, List.not_mem_nil, or_false] at listed
    obtain rfl | rfl | rfl | rfl := listed
    all_goals exact congrArg Host.Outcome.next ends
  case unanswered =>
    intro s c f out cmd there forwarded applied noCommit
    exact congrArg Host.Outcome.next ((s.act_eq_after (·.forwardTimeout) out).trans
      (congrArg s.after (State.forwardTimeout_applied cmd there forwarded applied noCommit)))

end Sys2Proof.Machine
end

section
/-! PROOFS of O14: the ends of the boot sequence, and reloads started, aborted and verified. -/

namespace Sys2Proof.Machine

/-! ## The boot sequence -/

section
variable {s : State} {env : BootEnv}

/-- R418: what BOOT has read before it takes the directory, the core voltage code and the level of VDDIO0. -/
def State.bootSensed (s : State) (env : BootEnv) : State :=
  { s with sys := { s.sys with coreVsel := Config.coreVsel.val, io0High := env.io0High } }

theorem State.flashRead_setSys (s : State) (y : SysState) (a n : Nat) : { s with sys := y }.flashRead a n = s.flashRead a n := rfl

/-- XSPI_MHZ as the directory gives it. -/
def State.directoryMhz (s : State) : Nat := leAt (s.flashRead 0 0x4C) 6 1

/-- The directory taken, with its regions and XSPI_MHZ. -/
def State.directoryTaken (s : State) (env : BootEnv) (rs : List (Nat × Nat)) : State :=
  { s.bootSensed env with bu := { s.bu with regions := rs, xspiMhz := s.directoryMhz } }

/-- R418: with a directory and a flash that can be read, the slots decide; then base camp is looked at again, where they may have
changed it, and the audit ring resumes. -/
def State.bootBySlots (s : State) (env : BootEnv) : State :=
  let b := State.bootList env 16 s.keyLoad.logLoad.campRebuild
  (if b.bu.log.armed || b.bu.camp = .rejected then b else b.campRebuild).ringResume

variable (boot : s.sys.mode = .boot) (fresh : s.bu.bootState = 0)
include boot fresh

theorem State.bootSequence_runs : ¬ (decide (s.mode ≠ .boot) || decide (s.bu.bootState ≠ 0)) = true := by
  simp [State.mode, boot, fresh]

theorem State.bootSequence_noDirectory (missing : parseDirectory (s.flashRead 0 0x4C) = none) :
    s.bootSequence env = (s.bootSensed env).bootFail 1 := by
  simp only [State.bootSequence, if_neg (State.bootSequence_runs boot fresh), State.flashRead_setSys, missing]
  rfl

/-- R498: above 100 MHz with VDDIO0 above 1.95 V no read of the flash succeeds any more. -/
theorem State.bootSequence_unreadable {rs : List (Nat × Nat)} (found : parseDirectory (s.flashRead 0 0x4C) = some rs)
    (high : env.io0High = true) (fast : 100 < s.directoryMhz) :
    s.bootSequence env = (s.directoryTaken env rs).bootFail 2 := by
  simp only [State.bootSequence, if_neg (State.bootSequence_runs boot fresh), State.flashRead_setSys, found]
  exact if_pos (Bool.and_eq_true_iff.2 ⟨high, decide_eq_true fast⟩)

theorem State.bootSequence_readable {rs : List (Nat × Nat)} (found : parseDirectory (s.flashRead 0 0x4C) = some rs)
    (readable : env.io0High = false ∨ s.directoryMhz ≤ 100) :
    s.bootSequence env = (s.directoryTaken env rs).bootBySlots env := by
  have reads : ¬ (env.io0High && decide (100 < s.directoryMhz)) = true := by
    rcases readable with low | slow
    · simp [low]
    · simp [slow]
  simp only [State.bootSequence, if_neg (State.bootSequence_runs boot fresh), State.flashRead_setSys, found]
  exact if_neg reads

end

theorem exec_bootSequence {s : State} (env : BootEnv) (out : s.sys.inReset = false) :
    exec (.bootSequence env) s = .next (s.after (s.bootSequence env)) :=
  congrArg Host.Outcome.next (s.act_eq_after (·.bootSequence env) out)

/-! ## Reloads started and aborted -/

section
variable {s : State}

/-- R73: a write of BU_SI_CTRL with START alone begins a reload. -/
theorem exec_siReloadStart {m : Master} (takes : s.takes m Reg.BU_SI_CTRL) :
    exec (.siReloadStart m) s = .next (s.wrote s.reloadStart m) :=
  congrArg Host.Outcome.next (State.act_busWrite_of_takes s m _ _ takes (by decide) (by decide))

/-- R76: a write of BU_SI_CTRL with ABORT alone aborts a reload, with ERR ABORT. -/
theorem exec_siReloadAbort {m : Master} (takes : s.takes m Reg.BU_SI_CTRL) :
    exec (.siReloadAbort m) s = .next (s.wrote (s.reloadAbort 0xE) m) :=
  congrArg Host.Outcome.next (State.act_busWrite_of_takes s m _ _ takes (by decide) (by decide))

/-- R73: in SERVICE and PRINT, with none in progress, the staged image goes to VERIFY. -/
theorem State.reloadStart_accepted (idle : s.bu.reload.state.busy = false)
    (mode : s.sys.mode = .service ∨ s.sys.mode = .print) :
    s.reloadStart = (s.wrN Reg.BU_SI_ACT_LINE 0).setReload
      { Reload.reset with
        state := .verify, addr := s.rdN Reg.BU_SI_STAGE * 64, size := s.fld Reg.BU_SI_SIZE F.BU_SI_SIZE_SIZE,
        root := leNat (s.dramRead (s.rdN Reg.BU_SI_STAGE * 64 + 0x28) 4), inPrint := decide (s.sys.mode = .print) } := by
  have allowed : ¬ (decide (s.mode ≠ .service) && decide (s.mode ≠ .print)) = true := by
    rcases mode with service | print
    · simp [State.mode, service]
    · simp [State.mode, print]
  have ended : ¬ s.bu.reload.state.busy = true := by simp [idle]
  exact (if_neg ended).trans (if_neg allowed)

/-- R76: in VERIFY and PENDING an abort ends the reload, and loop parameters it had put in force are those before it. -/
theorem State.reloadAbort_waiting (err : Nat) (waits : s.bu.reload.state = .verify ∨ s.bu.reload.state = .pending) :
    s.reloadAbort err = { s with si := { s.si with params := s.bu.reload.paramsWere.getD s.si.params } }.setReload
      { s.bu.reload with state := .aborted, err := err, shadow := none, shadowOwn := [], reached := false, paramsWere := none } :=
  if_pos (by simpa using waits)

end

/-! ## Reloads verified -/

section
variable {s : State}

/-- The image a reload verifies. -/
def State.stagedImage (s : State) : List Byte := s.dramRead s.bu.reload.addr (max 128 s.bu.reload.size)

/-- Its check against the structure in force (R72, R73). -/
def State.stagedLoad (s : State) : Except SiRefusal Loaded :=
  loadPartial s.stagedImage s.imageKey s.bu.reload.inPrint s.bu.m s.si s.ut.own s.ut.parent.ld s.ut.parent.sd

/-- How the verification of a reload begun in SERVICE ends: refused by the check, refused for the delays of a child (R53), or
activated (R74). -/
def State.verifiedInService (s : State) : State := match s.stagedLoad with
  | .error e => s.setReload { s.bu.reload with state := .refused, err := e.err.code, failSection := e.sect }
  | .ok l =>
    let c := s.childrenOver l.si l.own
    if c.1 then
      c.2.setReload { s.bu.reload with
        state := .refused, err := SiErr.structure.code, failSection := sectIdx (sectTable s.stagedImage) 1 }
    else (c.2.setReload { s.bu.reload with shadow := some l.si, shadowOwn := l.own, digest := l.digest }).activateService l.si

theorem State.verifyDone_service (verify : s.bu.reload.state = .verify) (service : s.bu.reload.inPrint = false) :
    s.verifyDone = s.verifiedInService := by
  unfold State.verifyDone
  rw [if_neg (not_not.2 verify)]
  change (match s.stagedLoad with | .error _ => _ | .ok _ => _) = _
  unfold State.verifiedInService
  cases s.stagedLoad with
  | error e => rfl
  | ok l =>
    refine ite_congr rfl (fun _ => rfl) fun _ => ?_
    exact if_pos (congrArg not service)

theorem exec_siVerifyDone (out : s.sys.inReset = false) : exec .siVerifyDone s = .next (s.after s.verifyDone) :=
  congrArg Host.Outcome.next (s.act_eq_after (·.verifyDone) out)

end

/-- Settles O14: the three ends of the boot sequence by its directory, and reloads started, aborted and verified in SERVICE. -/
theorem bootAndReloads : Obligations.BootAndReloads := by
  unfold Obligations.BootAndReloads
  refine ⟨?boot, ?start, ?abort, ?verified⟩
  case boot =>
    intro s env out boot fresh
    have ends {t : State} (h : s.bootSequence env = t) : exec (.bootSequence env) s = .next (s.after t) :=
      h ▸ exec_bootSequence env out
    refine ⟨fun missing => ends (State.bootSequence_noDirectory boot fresh missing),
      fun rs found => ⟨fun high fast => ?_, fun readable => ?_⟩⟩
    · exact ends (State.bootSequence_unreadable boot fresh found high fast)
    · exact ends (State.bootSequence_readable boot fresh found readable)
  case start =>
    intro s m takes idle mode
    exact (exec_siReloadStart takes).trans
      (congrArg (fun t => Host.Outcome.next (s.wrote t m)) (State.reloadStart_accepted idle mode))
  case abort =>
    intro s m takes waits
    exact (exec_siReloadAbort takes).trans
      (congrArg (fun t => Host.Outcome.next (s.wrote t m)) (State.reloadAbort_waiting 0xE waits))
  case verified =>
    intro s out verify r img x service
    exact (exec_siVerifyDone out).trans
      (congrArg (fun t => Host.Outcome.next (s.after t)) (State.verifyDone_service verify service))

end Sys2Proof.Machine
end

section
/-! PROOFS of O18: counts and steps of the feedback inputs, accepted levels, and SSI frames. -/

namespace Sys2Proof.Machine

/-- Outside reset a command ends after what its effect comes to. -/
theorem State.next_act {s t : State} {f : State → State} (out : s.sys.inReset = false) (effect : f s = t) :
    (Host.Outcome.next (s.act f) : Host.Outcome State Fault Refusal) = .next (s.after t) := by rw [s.act_eq_after f out, effect]

/-! ## A feedback channel replaced -/

@[simp] theorem State.enc_setEnc_self (s : State) (k : Nat) (c : EncCh) : (s.setEnc k c).enc k = c := by
  unfold State.enc State.setEnc
  split <;> rfl

@[simp] theorem State.setEnc_setEnc (s : State) (k : Nat) (c d : EncCh) : (s.setEnc k c).setEnc k d = s.setEnc k d := by
  unfold State.setEnc
  split <;> rfl

@[simp] theorem State.fld_setEnc (s : State) (k : Nat) (c : EncCh) (a : Nat) (f : BitField) :
    (s.setEnc k c).fld a f = s.fld a f := rfl

@[simp] theorem State.isSet_setEnc (s : State) (k : Nat) (c : EncCh) (a : Nat) (f : BitField) :
    (s.setEnc k c).isSet a f = s.isSet a f := rfl

@[simp] theorem State.ssiValue_setEnc (s : State) (k : Nat) (c : EncCh) (j bits : Nat) :
    (s.setEnc k c).ssiValue j bits = s.ssiValue j bits := rfl

@[simp] theorem State.ssiPeriod_setEnc (s : State) (k : Nat) (c : EncCh) (j : Nat) :
    (s.setEnc k c).ssiPeriod j = s.ssiPeriod j := rfl

/-! ## Counts and direction -/

/-- A value within 32 bits is what its two's-complement bits read as. -/
theorem toSigned_ofSigned_32 {v : Int} (low : -(2 ^ 31) ≤ v) (high : v < 2 ^ 31) : toSigned 32 (ofSigned 32 v) = v := by
  unfold toSigned ofSigned
  norm_num at low high ⊢
  split <;> omega

namespace EncCh

variable {c : EncCh} {cpr : Nat}

theorem step_up_inside (inside : c.cnt + 1 < cpr) : c.step cpr true = { c with cnt := c.cnt + 1 } := by simp [step, inside]

theorem step_up_wraps (last : c.cnt + 1 = cpr) :
    c.step cpr true = { c with cnt := 0, rev := toSigned 32 (ofSigned 32 (c.rev + 1)) } := by simp [step, last]

theorem step_down_inside (inside : 0 < c.cnt) : c.step cpr false = { c with cnt := c.cnt - 1 } := by simp [step, inside]

theorem step_down_wraps (first : c.cnt = 0) :
    c.step cpr false = { c with cnt := cpr - 1, rev := toSigned 32 (ofSigned 32 (c.rev - 1)) } := by simp [step, first]

/-- R88: a count up moves U by one, past the end of a revolution too. -/
theorem step_up_unwrapped (below : c.cnt < cpr) (low : -(2 ^ 31) < c.rev) (high : c.rev < 2 ^ 31 - 1) :
    (c.step cpr true).cnt < cpr ∧ (c.step cpr true).rev * cpr + (c.step cpr true).cnt = c.rev * cpr + c.cnt + 1 := by
  rcases Nat.lt_or_eq_of_le (show c.cnt + 1 ≤ cpr from below) with inside | last
  · rw [step_up_inside inside]
    exact ⟨inside, by push_cast; ring⟩
  · rw [step_up_wraps last, toSigned_ofSigned_32 (by omega) (by omega)]
    refine ⟨Nat.zero_lt_of_lt below, ?_⟩
    subst last
    push_cast
    ring

/-- R88: a count down moves U by one, past the start of a revolution too. -/
theorem step_down_unwrapped (below : c.cnt < cpr) (low : -(2 ^ 31) < c.rev) (high : c.rev < 2 ^ 31 - 1) :
    (c.step cpr false).cnt < cpr ∧ (c.step cpr false).rev * cpr + (c.step cpr false).cnt = c.rev * cpr + c.cnt + -1 := by
  rcases Nat.eq_zero_or_pos c.cnt with first | inside
  · rw [step_down_wraps first, toSigned_ofSigned_32 (by omega) (by omega), first]
    refine ⟨Nat.sub_lt (Nat.zero_lt_of_lt below) Nat.one_pos, ?_⟩
    rw [Nat.cast_sub (by omega : 1 ≤ cpr)]
    push_cast
    ring
  · rw [step_down_inside inside]
    refine ⟨lt_of_le_of_lt (Nat.sub_le _ _) below, ?_⟩
    rw [Nat.cast_sub (by omega : 1 ≤ c.cnt)]
    push_cast
    ring

/-- A count down undoes a count up. -/
theorem cnt_step_up_down (below : c.cnt < cpr) : ((c.step cpr true).step cpr false).cnt = c.cnt := by
  rcases Nat.lt_or_eq_of_le (show c.cnt + 1 ≤ cpr from below) with inside | last
  · rw [step_up_inside inside, step_down_inside (Nat.succ_pos _)]
    rfl
  · rw [step_up_wraps last, step_down_wraps rfl]
    exact (Nat.eq_sub_of_add_eq last).symm

/-- R94: after `n` counts of one sign the run of that sign is at least `n` long, and DIR has the sign once the run has reached
DIR_HYST. -/
theorem foldl_turn (c : EncCh) {hyst : Nat} (neg : Bool) (pos : 1 ≤ hyst) : ∀ n ≤ 255,
    let d := (List.range n).foldl (fun c _ => c.turn hyst neg) c
    n ≤ d.runLen ∧ (0 < n → d.runNeg = neg) ∧ (hyst ≤ n → d.dirRev = neg) := by
  intro n
  induction n with
  | zero => exact fun _ => ⟨Nat.zero_le _, by omega, by omega⟩
  | succ n ih =>
    intro small
    obtain ⟨long, sign, -⟩ := ih (by omega)
    rw [List.range_succ, List.foldl_append]
    set d := (List.range n).foldl (fun c _ => c.turn hyst neg) c
    have grown : n + 1 ≤ (d.turn hyst neg).runLen := by
      show n + 1 ≤ if d.runNeg = neg then min 255 (d.runLen + 1) else 1
      split
      · omega
      · rename_i other
        have : ¬ 0 < n := fun h => other (sign h)
        omega
    exact ⟨grown, fun _ => rfl, fun reached => if_pos (le_trans reached grown)⟩

end EncCh

/-! ## Steps of accepted levels -/

/-- R81: a pair steps one place on, one place back, or illegally in both bits at once. -/
theorem cycleStep_quad : ∀ x y a b : Bool,
    (cycleStep 4 (quadPlace x y) (quadPlace a b) = .same ↔ (a, b) = (x, y)) ∧
    (cycleStep 4 (quadPlace x y) (quadPlace a b) = .count true ↔ ((x, y), (a, b)) ∈
      [((false, false), (true, false)), ((true, false), (true, true)), ((true, true), (false, true)), ((false, true), (false, false))]) ∧
    (cycleStep 4 (quadPlace x y) (quadPlace a b) = .illegal ↔ a ≠ x ∧ b ≠ y) := by decide

/-- The order of the Hall states (W, V, U) in R82. -/
def hallOrder : List (Bool × Bool × Bool) :=
  [(false, false, true), (false, true, true), (false, true, false), (true, true, false), (true, false, false), (true, false, true)]

theorem hallPlace_of_order : ∀ i < 6, ∀ u v w : Bool, hallOrder[i]? = some (w, v, u) → hallPlace u v w = some i := by decide

theorem hallPlace_of_not_mem : ∀ u v w : Bool, (w, v, u) ∉ hallOrder → hallPlace u v w = none := by decide

theorem cycleStep_next : ∀ i < 6, cycleStep 6 i ((i + 1) % 6) = .count true := by decide

theorem cycleStep_back : ∀ i < 6, cycleStep 6 ((i + 1) % 6) i = .count false := by decide

namespace EncCh

variable {c : EncCh} {u' v' w' : Bool}

/-- The step between two Hall states at different places of the order is that of the cycle. -/
theorem stepTo_hall {x y : Nat} (old : hallPlace c.a c.b c.z = some x) (new : hallPlace u' v' w' = some y) (moved : x ≠ y) :
    c.stepTo 2 u' v' w' = cycleStep 6 x y := by
  have changed : ¬ (c.a = u' && c.b = v' && c.z = w') = true := by
    simp only [Bool.and_eq_true, decide_eq_true_eq]
    rintro ⟨⟨rfl, rfl⟩, rfl⟩
    exact moved (Option.some.inj (old.symm.trans new))
  simp only [stepTo, if_neg changed, old, new]

theorem stepTo_hall_illegal (changed : (u', v', w') ≠ (c.a, c.b, c.z)) (outside : hallPlace u' v' w' = none) :
    c.stepTo 2 u' v' w' = .illegal := by
  have changed : ¬ (c.a = u' && c.b = v' && c.z = w') = true := by
    simp only [Bool.and_eq_true, decide_eq_true_eq]
    rintro ⟨⟨rfl, rfl⟩, rfl⟩
    exact changed rfl
  simp only [stepTo, if_neg changed, outside]
  cases hallPlace c.a c.b c.z <;> rfl

end EncCh

/-! ## Accepted levels -/

section
variable {s : State} {k : Nat}

/-- R80: no edge is too close to another where EDGE_MIN is 0. -/
theorem edgeClose_zero (last : Option Nat) (now : Nat) : edgeClose last now 0 = false := by cases last <;> simp [edgeClose]

theorem exec_encoderLevelAccept (ch : Fin 2) (a b z : Bool) (out : s.sys.inReset = false) :
    exec (.encoderLevelAccept ch a b z) s = .next (s.after (s.levels ch.val a b z)) :=
  congrArg Host.Outcome.next (s.actPin_eq_after (·.levels ch.val a b z) out)

theorem State.levels_off {a b z : Bool} (off : s.encMode k = 0) :
    s.levels k a b z = s.setEnc k { s.enc k with a := a, b := b, z := z } := by
  simp [State.levels, off]

/-- The channel with new levels, their edges timed. -/
def EncCh.levelled (c : EncCh) (now : Nat) (a b z : Bool) : EncCh :=
  { c with
      a := a, b := b, z := z, edgeA := if c.a != a then some now else c.edgeA, edgeB := if c.b != b then some now else c.edgeB,
      edgeZ := if c.z != z then some now else c.edgeZ }

/-- R81, R82: with an encoder of levels, the step the new levels make is counted, or raises ENC_ILLEGAL. -/
theorem State.levels_step {a b z : Bool} (on : s.encMode k ≠ 0) (noIndex : s.idxOn k = false)
    (free : s.fld (Reg.WP_CHk_CFG k) F.WP_CHk_CFG_EDGE_MIN = 0) :
    s.levels k a b z =
      let t := s.setEnc k ((s.enc k).levelled s.now a b z)
      match (s.enc k).stepTo (s.encMode k) a b z with
      | .same => t
      | .illegal => t.encIllegal k
      | .count up => t.count k (up != s.isSet (Reg.WP_CHk_CFG k) F.WP_CHk_CFG_INV_DIR) := by
  have apart : ([((s.enc k).a != a, (s.enc k).edgeA), ((s.enc k).b != b, (s.enc k).edgeB), ((s.enc k).z != z, (s.enc k).edgeZ)].filter
      fun e => e.1 && edgeClose e.2 s.now (s.fld (Reg.WP_CHk_CFG k) F.WP_CHk_CFG_EDGE_MIN)) = [] := by
    simp [free, edgeClose_zero]
  unfold State.levels
  extract_lets c mode ea eb ez c' lim close s₁ s₂ inv s₃
  have accepted : s₂ = s.setEnc k (c.levelled s.now a b z) := by
    show close.foldl _ s₁ = _
    rw [show close = [] from apart]
    rfl
  rw [if_neg on, if_neg (by simp [noIndex])]
  show (match c.stepTo mode a b z with | .same => _ | .illegal => _ | .count up => _) = _
  rw [accepted]

/-- R79: alike legs of a signal of a QUAD or HALL input raise ENC_WIRE where the check is enabled. -/
theorem State.wireFault_pair {sig : Nat} (pair : s.encMode k = 1 ∨ s.encMode k = 2)
    (checked : s.isSet (Reg.WP_CHk_CFG k) F.WP_CHk_CFG_WIRE_EN = true) :
    s.wireFault k sig = s.encFault k (match sig with
      | 0 => F.WP_CHk_STAT_WIRE_A
      | 1 => F.WP_CHk_STAT_WIRE_B
      | _ => F.WP_CHk_STAT_WIRE_Z) Ev.ENC_WIRE := by
  unfold State.wireFault
  extract_lets used
  have use : used = true := by
    rcases pair with quad | hall
    · simp [used, quad]
    · simp [used, hall]
  exact if_pos (Bool.and_eq_true_iff.2 ⟨use, checked⟩)

/-! ## SSI frames -/

/-- R83: a frame starts once the line has been idle for MONO. -/
theorem State.ssiStart_idle (ssi : s.encMode k = 3) (free : (s.enc k).ssiActive = false)
    (idle : max (s.enc k).ssiEnd ((s.enc k).edgeA.getD 0) + max 1 (s.fld (Reg.WP_CHk_SSI k) F.WP_CHk_SSI_MONO) * 1000 ≤ s.now) :
    s.ssiStart k = s.setEnc k { s.enc k with ssiActive := true, ssiFrom := s.now } := by
  unfold State.ssiStart
  extract_lets c mono quiet fresh
  have late : decide (s.now < quiet + mono) = false := decide_eq_false (Nat.not_lt.2 idle)
  rw [if_neg (not_not.2 ssi), if_neg (by simp [c, free, late])]

theorem State.ssiStart_active (ssi : s.encMode k = 3) (active : (s.enc k).ssiActive = true) :
    s.ssiStart k = s.encFault k F.WP_CHk_STAT_OVERRATE Ev.ENC_OVERRATE := by
  unfold State.ssiStart
  extract_lets c mono quiet fresh
  rw [if_neg (not_not.2 ssi), if_pos (by simp [c, active])]

/-- R84, R85: the change of a good frame behind another is owed, or is a jump. -/
theorem State.ssiDone_good {bits v m v0 : Nat} (active : (s.enc k).ssiActive = true) (good : s.ssiValue k bits = some (v, m))
    (before : (s.enc k).ssiV = some v0) (settled : (s.enc k).owed = 0) :
    s.ssiDone k bits =
      let d := toSigned m (ofSigned m ((v : Int) - v0))
      let c := { s.enc k with ssiActive := false, ssiEnd := s.now, ssiV := some v, ssiMiss := 0 }
      if 2 ^ (s.fld (Reg.WP_CHk_SSI k) F.WP_CHk_SSI_ST_BITS - 1) ≤ d.natAbs || s.ssiPeriod k < d.natAbs then
        (s.setEnc k c).encFault k F.WP_CHk_STAT_SSI_JUMP Ev.SSI_JUMP
      else s.setEnc k { c with owed := d } := by
  simp [State.ssiDone, State.ssiGood, active, good, before, settled]

/-- R83, R84: a frame that parity or the error bit discards counts towards SSI_LOST. -/
theorem State.ssiDone_bad {bits : Nat} (active : (s.enc k).ssiActive = true) (bad : s.ssiValue k bits = none) :
    s.ssiDone k bits =
      let t := (s.setEnc k { s.enc k with
        ssiActive := false, ssiEnd := s.now, ssiMiss := (s.enc k).ssiMiss + 1 }).encFault k F.WP_CHk_STAT_SSI_PARITY Ev.SSI_PARITY
      if (s.enc k).ssiMiss + 1 = max 1 (s.fld (Reg.WP_CHk_SSI k) F.WP_CHk_SSI_MISS_MAX) then
        t.encFault k F.WP_CHk_STAT_SSI_LOST Ev.SSI_LOST else t := by
  simp [State.ssiDone, active, bad]

/-- R85: of several counts owed upwards one is issued, in the direction of INV_DIR. -/
theorem State.ssiIssue_up (owed : 1 < (s.enc k).owed) :
    s.ssiIssue k = (s.setEnc k { s.enc k with owed := (s.enc k).owed - 1 }).count k
      (!s.isSet (Reg.WP_CHk_CFG k) F.WP_CHk_CFG_INV_DIR) := by
  have owes : (s.enc k).owed ≠ 0 := by omega
  have up : 0 < (s.enc k).owed := by omega
  have left : (s.enc k).owed - 1 ≠ 0 := by omega
  simp [State.ssiIssue, owes, up, left]

end

/-- The bits of a Gray code folded together leave the number, and what lies above the bits folded. -/
theorem foldl_gray (v n : Nat) :
    (List.range n).foldl (fun a i => a ^^^ ((v ^^^ (v >>> 1)) >>> i)) 0 = v ^^^ (v >>> n) := by
  induction n with
  | zero => simp
  | succ n ih =>
    rw [List.range_succ, List.foldl_append, ih]
    show v ^^^ (v >>> n) ^^^ ((v ^^^ (v >>> 1)) >>> n) = v ^^^ (v >>> (n + 1))
    rw [Nat.shiftRight_xor_distrib, ← Nat.shiftRight_add, Nat.add_comm 1 n, Nat.xor_assoc, ← Nat.xor_assoc (v >>> n), Nat.xor_self,
      Nat.zero_xor]

/-- R83: Gray code decodes to the number it codes. -/
theorem grayToBin_gray {n v : Nat} (inside : v < 2 ^ n) : grayToBin n (v ^^^ (v >>> 1)) = v := by
  rw [grayToBin, foldl_gray, Nat.shiftRight_eq_div_pow, Nat.div_eq_of_lt inside, Nat.xor_zero]

/-- Settles O18: counts, steps of pairs and Hall states, accepted levels, and SSI frames with their Gray code. -/
theorem encoderInputs : Obligations.EncoderInputs := by
  unfold Obligations.EncoderInputs
  refine ⟨⟨?unwrapped, fun c cpr below => EncCh.cnt_step_up_down below, ?direction⟩, ⟨?quad, ?hall⟩, ⟨?levels, ?off, ?wire⟩,
    ?start, ?overrate, ?good, ?bad, ?issue, fun n v _ inside => grayToBin_gray inside⟩
  case unwrapped =>
    intro c cpr up below low high
    cases up
    · exact EncCh.step_down_unwrapped below low high
    · exact EncCh.step_up_unwrapped below low high
  case direction =>
    intro c hyst n neg pos reached small
    obtain ⟨-, -, dir⟩ := EncCh.foldl_turn c neg pos n small
    exact dir reached
  case quad =>
    rintro c x y z a b rfl rfl
    exact cycleStep_quad c.a c.b a b
  case hall =>
    rintro c u v w u' v' w' rfl rfl rfl order
    refine ⟨fun i hi old new => ?_, fun i hi new old => ?_, fun changed outside => ?_⟩
    · have next : (i + 1) % 6 < 6 := Nat.mod_lt _ (by decide)
      rw [EncCh.stepTo_hall (hallPlace_of_order i hi _ _ _ old) (hallPlace_of_order _ next _ _ _ new) (by omega)]
      exact cycleStep_next i hi
    · have next : (i + 1) % 6 < 6 := Nat.mod_lt _ (by decide)
      rw [EncCh.stepTo_hall (hallPlace_of_order _ next _ _ _ old) (hallPlace_of_order i hi _ _ _ new) (by omega)]
      exact cycleStep_back i hi
    · exact EncCh.stepTo_hall_illegal changed (hallPlace_of_not_mem _ _ _ outside)
  case levels =>
    intro s ch a b z out on noIndex free
    rw [exec_encoderLevelAccept ch a b z out, State.levels_step on noIndex free]
    rfl
  case off =>
    intro s ch a b z out off
    rw [exec_encoderLevelAccept ch a b z out, State.levels_off off]
  case wire =>
    intro s ch sig out pair checked
    exact State.next_act out (State.wireFault_pair pair checked)
  case start =>
    intro s ch out ssi free idle
    exact State.next_act out (State.ssiStart_idle ssi free idle)
  case overrate =>
    intro s ch out ssi active
    exact State.next_act out (State.ssiStart_active ssi active)
  case good =>
    intro s ch bits v m v0 out active good before settled
    exact State.next_act out (State.ssiDone_good active good before settled)
  case bad =>
    intro s ch bits out active bad
    exact State.next_act out (State.ssiDone_bad active bad)
  case issue =>
    intro s ch out owed
    exact State.next_act out (State.ssiIssue_up owed)

end Sys2Proof.Machine
end

section
/-! PROOFS of O19: writes of the position registers, ARM, and what judging compares and outputs leaves of the web position. -/

namespace Sys2Proof.Machine

/-! ## Fields of a command's word -/

/-- A field of the register at an address that no other field of it overlaps. -/
def holdsField (a : Nat) (f : BitField) : Bool := match findReg a with
  | some (r, _) => r.fields.any (fun g => (⟨g.hi, g.lo⟩ : BitField) = f) &&
      r.fields.all fun g => (⟨g.hi, g.lo⟩ : BitField) = f || g.hi < f.lo || f.hi < g.lo
  | none => false

/-- Fields copied one after another leave a field as they copy it, or as it was before. -/
theorem BitField.get_foldl_put (f : BitField) (w : Word) : ∀ (l : List FieldRow) (x : Word),
    (∀ g ∈ l, g.lo ≤ g.hi ∧ g.hi < 32) → (∀ g ∈ l, (⟨g.hi, g.lo⟩ : BitField) = f ∨ g.hi < f.lo ∨ f.hi < g.lo) →
    ((∃ g ∈ l, (⟨g.hi, g.lo⟩ : BitField) = f) ∨ f.get x = f.get w) →
    f.get (l.foldl (fun x g => (BitField.mk g.hi g.lo).put x ((BitField.mk g.hi g.lo).get w)) x) = f.get w := by
  intro l
  induction l with
  | nil => exact fun x _ _ there => there.elim (fun ⟨_, mem, _⟩ => absurd mem List.not_mem_nil) id
  | cons g l ih =>
    intro x inWord apart there
    obtain ⟨order, top⟩ := inWord g List.mem_cons_self
    refine ih _ (fun y hy => inWord y (List.mem_cons_of_mem g hy)) (fun y hy => apart y (List.mem_cons_of_mem g hy)) ?_
    obtain rfl | beside := apart g List.mem_cons_self
    · exact .inr ((BitField.get_put _ x _ order top).trans (Nat.mod_eq_of_lt (BitField.get_ofNat_lt _ w)))
    · have kept : f.get ((BitField.mk g.hi g.lo).put x ((BitField.mk g.hi g.lo).get w)) = f.get x :=
        BitField.get_put_ne _ f x _ order top beside
      rcases there with ⟨y, mem, rfl⟩ | here
      · rcases List.mem_cons.1 mem with rfl | later
        · simp only at beside
          omega
        · exact .inl ⟨y, later, rfl⟩
      · exact .inr (kept.trans here)

/-- R6: a word written keeps its fields. -/
theorem get_regMask {a : Nat} {f : BitField} (held : holdsField a f = true) (w : Word) : f.get (regMask a w) = f.get w := by
  unfold holdsField at held
  unfold regMask
  cases row : findReg a with
  | none => simp [row] at held
  | some x =>
    obtain ⟨r, i⟩ := x
    simp only [row, Bool.and_eq_true, List.any_eq_true, List.all_eq_true, Bool.or_eq_true, decide_eq_true_eq, or_assoc] at held
    obtain ⟨listed, apart⟩ := held
    exact f.get_foldl_put w r.fields 0 (fun g hg => findReg_inWord row hg) apart (.inl listed)

/-- Of two fields a command puts in place, the second, and the first where the second does not overlap it. -/
theorem get_cmdWord_second {a : Nat} {g : BitField} (held : holdsField a g = true) (w : Word) (f : BitField) (x y : Nat)
    (order : g.lo ≤ g.hi) (top : g.hi < 32) : g.get (cmdWord a w [(f, x), (g, y)]) = y % 2 ^ (g.hi + 1 - g.lo) :=
  (get_regMask held _).trans (g.get_put _ y order top)

theorem get_cmdWord_first {a : Nat} {f : BitField} (held : holdsField a f = true) (w : Word) {g : BitField} (x y : Nat)
    (order : f.lo ≤ f.hi) (top : f.hi < 32) (order' : g.lo ≤ g.hi) (top' : g.hi < 32) (apart : g.hi < f.lo ∨ f.hi < g.lo) :
    f.get (cmdWord a w [(f, x), (g, y)]) = x % 2 ^ (f.hi + 1 - f.lo) :=
  (get_regMask held _).trans ((g.get_put_ne f _ y order' top' apart).trans (f.get_put w x order top))

/-- ARM and ZLATCH in words of WP_CTRL that put one in place, then the other. -/
theorem get_wpCtrl_arm_zlatch (w : Word) (x y : Nat) :
    let d := cmdWord Reg.WP_CTRL w [(F.WP_CTRL_ARM, x), (F.WP_CTRL_ZLATCH, y)]
    F.WP_CTRL_ARM.get d = x % 2 ∧ F.WP_CTRL_ZLATCH.get d = y % 2 :=
  ⟨get_cmdWord_first (by decide) w x y (by decide) (by decide) (by decide) (by decide) (by decide),
    get_cmdWord_second (by decide) w _ x y (by decide) (by decide)⟩

theorem get_wpCtrl_zlatch_arm (w : Word) (x y : Nat) :
    let d := cmdWord Reg.WP_CTRL w [(F.WP_CTRL_ZLATCH, x), (F.WP_CTRL_ARM, y)]
    F.WP_CTRL_ZLATCH.get d = x % 2 ∧ F.WP_CTRL_ARM.get d = y % 2 :=
  ⟨get_cmdWord_first (by decide) w x y (by decide) (by decide) (by decide) (by decide) (by decide),
    get_cmdWord_second (by decide) w _ x y (by decide) (by decide)⟩

/-! ## Writes of the position registers -/

section
variable {s : State} {m : Master} (w : Word)

theorem State.writeWp_cpr (s : State) (ch : Fin 2) (w : Word) : s.writeWp (Reg.WP_CHk_CPR ch.val) w = s.cprWrite ch.val w := by
  fin_cases ch <;> rfl

theorem State.act_busWrite_wp {a : Nat} (takes : s.takes m a) (wp : a / 0x10000 = 2) :
    s.act (·.busWrite m.val a w) = s.wrote (s.writeWp a (regMask a w)) m := by
  have low : a < 0x30000 := by omega
  have writable : readOnlyWindow a = false := by
    simp only [readOnlyWindow, Bool.or_eq_false_iff, Bool.and_eq_false_iff, decide_eq_false_iff_not]
    omega
  rw [State.act_busWrite_of_takes s m a w takes writable (by omega)]
  simp [State.writeReg, wp]

/-- WP_CPR_WRITE is a write of the register. -/
theorem exec_wpCprWrite {ch : Fin 2} (takes : s.takes m (Reg.WP_CHk_CPR ch.val)) :
    exec (.wpCprWrite m ch w) s = .next (s.wrote (s.cprWrite ch.val (cmdWord (Reg.WP_CHk_CPR ch.val) w [])) m) := by
  have wp : Reg.WP_CHk_CPR ch.val / 0x10000 = 2 := by
    unfold Reg.WP_CHk_CPR
    omega
  rw [← State.writeWp_cpr]
  exact congrArg Host.Outcome.next (State.act_busWrite_wp w takes wp)

variable (takes : s.takes m Reg.WP_CTRL)
include takes

theorem exec_arm : exec (.arm m w) s =
    .next (s.wrote (s.wpCtrl (cmdWord Reg.WP_CTRL w [(F.WP_CTRL_ARM, 1), (F.WP_CTRL_ZLATCH, 0)])) m) :=
  congrArg Host.Outcome.next (State.act_busWrite_wp _ takes (by decide))

theorem exec_zlatch : exec (.zlatch m w) s =
    .next (s.wrote (s.wpCtrl (cmdWord Reg.WP_CTRL w [(F.WP_CTRL_ZLATCH, 1), (F.WP_CTRL_ARM, 0)])) m) :=
  congrArg Host.Outcome.next (State.act_busWrite_wp _ takes (by decide))

theorem exec_src : exec (.src m w) s =
    .next (s.wrote (s.wpCtrl (cmdWord Reg.WP_CTRL w [(F.WP_CTRL_ARM, 0), (F.WP_CTRL_ZLATCH, 0)])) m) :=
  congrArg Host.Outcome.next (State.act_busWrite_wp _ takes (by decide))

end

/-! ## Writes of WP_CTRL -/

section
variable {s : State} {d : Word}

/-- ARM alone, with SRC as it stands. -/
theorem State.wpCtrl_arm (arm : F.WP_CTRL_ARM.get d = 1) (zlatch : F.WP_CTRL_ZLATCH.get d = 0) (src : F.WP_CTRL_SRC.get d = s.wp.src) :
    s.wpCtrl d = s.armWrite := by
  simp [State.wpCtrl, arm, zlatch, src]

/-- R87: ZLATCH alone leaves SRC. -/
theorem State.wpCtrl_zlatch (arm : F.WP_CTRL_ARM.get d = 0) (zlatch : F.WP_CTRL_ZLATCH.get d = 1) : s.wpCtrl d = s.zlatchWrite := by
  simp [State.wpCtrl, arm, zlatch]

/-- R91: in IDLE and SERVICE another source is taken. -/
theorem State.wpCtrl_src (arm : F.WP_CTRL_ARM.get d = 0) (zlatch : F.WP_CTRL_ZLATCH.get d = 0) (mode : s.mode = .idle ∨ s.mode = .service)
    (other : F.WP_CTRL_SRC.get d ≠ s.wp.src) (valid : F.WP_CTRL_SRC.get d ≠ 3) :
    s.wpCtrl d = { s with wp := { s.wp with src := F.WP_CTRL_SRC.get d, arm := none }, hl := { s.hl with rope := none, posAt := s.now } } := by
  rcases mode with idle | service
  · simp [State.wpCtrl, arm, zlatch, other, valid, idle]
  · simp [State.wpCtrl, arm, zlatch, other, valid, service]

theorem State.zlatchWrite_accepted (mode : s.armMode = true) (src : s.wp.src < 2) :
    s.zlatchWrite = s.setEnc s.wp.src { s.enc s.wp.src with zlatch := true } := by simp [State.zlatchWrite, mode, src]

theorem State.zlatchWrite_refused (mode : s.armMode = false) : s.zlatchWrite = s.wpRefuse := by simp [State.zlatchWrite, mode]

theorem State.armWrite_refused (src : s.wp.src < 2) (refused : s.armOk = false) : s.armWrite = s.wpRefuse := by
  simp [State.armWrite, show s.wp.src ≠ 2 by omega, refused]

end

/-! ## What judging compares and outputs leaves -/

/-- An update of the web position in its compares, and in whether its outputs lag, at most; plates, DRAM and flash stay. -/
structure State.WebKeeps (s t : State) : Prop where
  wp : t.wp = { s.wp with cmps := t.wp.cmps, pt0 := { s.wp.pt0 with lagging := t.wp.pt0.lagging },
                          pt1 := { s.wp.pt1 with lagging := t.wp.pt1.lagging } }
  js : t.js = s.js
  dram : t.dram = s.dram
  flash : t.flash = s.flash

namespace State.WebKeeps

variable {s t u : State}

theorem of_eq (wp : t.wp = s.wp) (js : t.js = s.js) (dram : t.dram = s.dram) (flash : t.flash = s.flash) : s.WebKeeps t :=
  ⟨by rw [wp], js, dram, flash⟩

theorem refl (s : State) : s.WebKeeps s := of_eq rfl rfl rfl rfl

theorem trans (h : s.WebKeeps t) (k : t.WebKeeps u) : s.WebKeeps u :=
  ⟨by rw [k.wp, h.wp], k.js.trans h.js, k.dram.trans h.dram, k.flash.trans h.flash⟩

theorem ite {c : Prop} [Decidable c] (ht : s.WebKeeps t) (hu : s.WebKeeps u) : s.WebKeeps (if c then t else u) := by
  split
  · exact ht
  · exact hu

theorem foldl {α : Type} {f : State → α → State} (h : ∀ s x, State.WebKeeps s (f s x)) (l : List α) (s : State) :
    s.WebKeeps (l.foldl f s) := by
  induction l generalizing s with
  | nil => exact refl s
  | cons x l ih => exact (h s x).trans (ih _)

theorem flag (s : State) (a : Nat) (f : BitField) : s.WebKeeps (s.flag a f) := of_eq rfl rfl rfl rfl

theorem bump (s : State) (a : Nat) (f : BitField) : s.WebKeeps (s.bump a f) := of_eq rfl rfl rfl rfl

theorem raise (s : State) (id : Nat) : s.WebKeeps (s.raise id) := by
  have h := State.raise_keeps s id 0
  exact of_eq h.wp h.js h.dram h.flash

theorem setWpCmp (s : State) (k : Nat) (c : Cmp) : s.WebKeeps (s.setWpCmp k c) := ⟨rfl, rfl, rfl, rfl⟩

theorem triggerAxis (s : State) (a : Nat) : s.WebKeeps (s.triggerAxis a) := by
  unfold State.triggerAxis
  extract_lets x
  split
  · exact ite (of_eq rfl rfl rfl rfl) (of_eq rfl rfl rfl rfl)
  · exact flag ..

theorem capture (s : State) (src : Nat) : s.WebKeeps (s.capture src) :=
  ite (of_eq rfl rfl rfl rfl) (((bump ..).trans (flag ..)).trans (raise ..))

theorem wpCmpFire (s : State) (k : Nat) : s.WebKeeps (s.wpCmpFire k) := by
  unfold State.wpCmpFire
  extract_lets a act c s₁ s₂ s₃
  have fired : s.WebKeeps s₁ := (setWpCmp ..).trans (flag ..)
  have hit : s₁.WebKeeps s₂ := ite (raise ..) (refl _)
  have triggered : s₂.WebKeeps s₃ := ite (triggerAxis ..) (refl _)
  exact (fired.trans (hit.trans triggered)).trans (ite (capture ..) (refl _))

theorem wpCompare (s : State) (src : Nat) (old new : Int) : s.WebKeeps (s.wpCompare src old new) :=
  foldl (fun s k => ite (wpCmpFire s k) (refl s)) _ s

theorem ptWatch (s : State) (k : Nat) : s.WebKeeps (s.ptWatch k) := by
  unfold State.ptWatch
  extract_lets o put d
  have lagging (l : Bool) : s.WebKeeps (put s { o with lagging := l }) := by
    simp only [put, o]
    split <;> exact ⟨rfl, rfl, rfl, rfl⟩
  exact ite (refl s) (ite (((lagging true).trans (flag ..)).trans (raise ..)) (ite (lagging false) (refl s)))

end State.WebKeeps

/-! ## ARM -/

/-- R90: ARM latches u0, b and LINE_RATIO, sets WPOS to b and HWM to its line, and empties what was made for the lines above. -/
def State.armedAt (s : State) (b : Nat) : State :=
  { s with
      wp := { s.wp with arm := some (s.wp.src, s.encU s.wp.src, b, s.lineRatio), pos := b, hwm := b / 65536, holdLine := 0,
                        lastFire := none, ticking := none },
      js := { s.js with lring := [], slices := [], lead := [] } }.dropAbove (min s.wp.hwm (b / 65536))

/-- R90: beyond what ARM latches, the compares of WPOS and the outputs are judged. -/
theorem State.armWrite_accepted {s : State} (src : s.wp.src < 2) (accepted : s.armOk = true) :
    (s.armedAt s.armPos).WebKeeps s.armWrite := by
  unfold State.armWrite
  rw [if_neg (by omega), if_neg (by simp [accepted])]
  extract_lets b old h w s₁ j s₂
  have armed : s.armedAt s.armPos = s₂ := rfl
  rw [armed]
  have judged : s₂.WebKeeps (if b = old then s₂ else s₂.wpCompare 0 old b) := .ite (.refl s₂) (.wpCompare ..)
  exact judged.trans ((State.WebKeeps.ptWatch _ 0).trans (State.WebKeeps.ptWatch _ 1))

/-- Settles O19: writes of COUNTS_PER_REV, and of WP_CTRL with ARM, SRC or ZLATCH, accepted and refused. -/
theorem positionSetup : Obligations.PositionSetup := by
  unfold Obligations.PositionSetup
  refine ⟨?cpr, ?cprRefused, ?arm, ?armRefused, ?src, ?zlatch, ?zlatchRefused⟩
  case cpr =>
    intro s m ch w takes mode
    rw [exec_wpCprWrite w takes, State.cprWrite, if_pos mode]
    rfl
  case cprRefused =>
    intro s m ch w takes mode
    rw [exec_wpCprWrite w takes, State.cprWrite, if_neg (by simp [mode])]
    rfl
  case arm =>
    intro s m w takes src accepted same
    obtain ⟨arm, zlatch⟩ := get_wpCtrl_arm_zlatch w 1 0
    have keeps : (s.armedAt s.armPos).WebKeeps s.armWrite := State.armWrite_accepted src accepted
    refine ⟨s.armWrite, ?_, congrArg WpState.arm keeps.wp, congrArg WpState.pos keeps.wp, congrArg WpState.hwm keeps.wp,
      congrArg WpState.holdLine keeps.wp, (congrArg WpState.ch0 keeps.wp :), (congrArg WpState.ch1 keeps.wp :),
      congrArg JsState.lring keeps.js, keeps.dram, keeps.flash⟩
    rw [exec_arm w takes, State.wpCtrl_arm arm zlatch same]
  case armRefused =>
    intro s m w takes src refused same
    obtain ⟨arm, zlatch⟩ := get_wpCtrl_arm_zlatch w 1 0
    rw [exec_arm w takes, State.wpCtrl_arm arm zlatch same, State.armWrite_refused src refused]
    rfl
  case src =>
    rintro s m w k takes mode rfl other valid
    obtain ⟨arm, zlatch⟩ := get_wpCtrl_arm_zlatch w 0 0
    rw [exec_src w takes, State.wpCtrl_src arm zlatch mode other valid]
  case zlatch =>
    intro s m w takes mode src
    obtain ⟨zlatch, arm⟩ := get_wpCtrl_zlatch_arm w 1 0
    rw [exec_zlatch w takes, State.wpCtrl_zlatch arm zlatch, State.zlatchWrite_accepted mode src]
  case zlatchRefused =>
    intro s m w takes mode
    obtain ⟨zlatch, arm⟩ := get_wpCtrl_zlatch_arm w 1 0
    rw [exec_zlatch w takes, State.wpCtrl_zlatch arm zlatch, State.zlatchWrite_refused mode]
    rfl

end Sys2Proof.Machine
end

section
/-! PROOFS of O20: compares armed, the press held and released, and resynthesised outputs. -/

namespace Sys2Proof.Machine

/-! ## One register written -/

/-- An update of one register. -/
structure State.WritesOnly (a : Nat) (s t : State) : Prop where
  eq : t = { s with regs := t.regs }
  rd : ∀ b, b ≠ a → t.rd b = s.rd b

namespace State.WritesOnly

variable {a : Nat} {s t u : State}

theorem refl (s : State) : s.WritesOnly a s := ⟨rfl, fun _ _ => rfl⟩

theorem trans (h : s.WritesOnly a t) (k : t.WritesOnly a u) : s.WritesOnly a u :=
  ⟨by rw [k.eq, h.eq], fun b hb => (k.rd b hb).trans (h.rd b hb)⟩

theorem setFld (s : State) (f : BitField) (v : Nat) : s.WritesOnly a (s.setFld a f v) := ⟨rfl, fun _ hb => s.rd_setFld_ne f v hb⟩

theorem ite {c : Prop} [Decidable c] (ht : s.WritesOnly a t) (hu : s.WritesOnly a u) : s.WritesOnly a (if c then t else u) := by
  split
  · exact ht
  · exact hu

theorem foldl {α : Type} {f : State → α → State} (h : ∀ s x, State.WritesOnly a s (f s x)) (l : List α) (s : State) :
    s.WritesOnly a (l.foldl f s) := by
  induction l generalizing s with
  | nil => exact refl s
  | cons x l ih => exact (h s x).trans (ih _)

theorem wp (h : s.WritesOnly a t) : t.wp = s.wp := by rw [h.eq]

theorem dram (h : s.WritesOnly a t) : t.dram = s.dram := by rw [h.eq]

theorem flash (h : s.WritesOnly a t) : t.flash = s.flash := by rw [h.eq]

theorem fld (h : s.WritesOnly a t) {b : Nat} (f : BitField) (other : b ≠ a) : t.fld b f = s.fld b f := by
  simp only [State.fld, h.rd b other]

theorem rdN (h : s.WritesOnly a t) {b : Nat} (other : b ≠ a) : t.rdN b = s.rdN b := by simp only [State.rdN, h.rd b other]

theorem encU (h : s.WritesOnly a t) (k : Nat) (other : Reg.WP_CHk_CPR k ≠ a) : t.encU k = s.encU k := by
  simp only [State.encU, State.enc, State.encCpr, h.rdN other, h.wp]

/-- A compare's source is no matter of the registers beyond COUNTS_PER_REV. -/
theorem cmpSource (h : s.WritesOnly a t) {src : Nat} (other : Reg.WP_CHk_CPR (src - 1) ≠ a) : t.cmpSource src = s.cmpSource src := by
  cases src with
  | zero => rw [h.eq]; rfl
  | succ k =>
    show (t.encU k, (t.enc k).dirRev) = (s.encU k, (s.enc k).dirRev)
    rw [h.encU k other, State.enc, h.wp]
    rfl

end State.WritesOnly

/-! ## Compares -/

/-- The target a compare is armed with: of WPOS without a sign, of U with one (R100, R102). -/
def State.cmpTarget (s : State) (k src : Nat) : Int :=
  let t : Nat := s.fld (Reg.WP_CMPk_HI k) F.WP_CMPk_HI_TARGET * 2 ^ 32 + s.rdN (Reg.WP_CMPk_LO k)
  if src = 0 then t else toSigned 48 t

/-- The fields of WP_CMPk_CTRL stored, and its flags cleared, before ARM acts. -/
def State.cmpStored (s : State) (k : Nat) (w : Word) : State :=
  forEach [F.WP_CMPk_CTRL_BEHIND, F.WP_CMPk_CTRL_FIRED] (fun s f => if f.get w = 1 then s.setFld (Reg.WP_CMPk_CTRL k) f 0 else s)
    (forEach [F.WP_CMPk_CTRL_AXIS, F.WP_CMPk_CTRL_ACTION, F.WP_CMPk_CTRL_SRC, F.WP_CMPk_CTRL_DIR]
      (fun s f => s.setFld (Reg.WP_CMPk_CTRL k) f (f.get w)) s)

theorem State.cmpStored_writes (s : State) (k : Nat) (w : Word) : s.WritesOnly (Reg.WP_CMPk_CTRL k) (s.cmpStored k w) := by
  unfold State.cmpStored forEach
  exact (State.WritesOnly.foldl (fun s f => .setFld s f _) _ s).trans (.foldl (fun s f => .ite (.setFld s f 0) (.refl s)) _ _)

/-- A compare that is behind: it does not fire, and is reported (R101). -/
def State.cmpBehind (s : State) (k : Nat) (c : Cmp) : State :=
  (((s.setWpCmp k c).flag (Reg.WP_CMPk_CTRL k) F.WP_CMPk_CTRL_BEHIND).flag Reg.WP_STAT F.WP_STAT_COMPARE_BEHIND).raise Ev.COMPARE_BEHIND

/-- R100 to R102: ARM with a source and a direction judges the compare by its target and source as they stood. -/
theorem State.wpCmpCtrl_arm {s : State} {k : Nat} {w : Word} (arm : F.WP_CMPk_CTRL_ARM.get w = 1) {src dir : Nat}
    (isSrc : F.WP_CMPk_CTRL_SRC.get w = src) (isDir : F.WP_CMPk_CTRL_DIR.get w = dir) (valid : src ≠ 3) (valid' : dir ≠ 3) :
    s.wpCmpCtrl k w =
      if behind dir (s.cmpTarget k src) (s.cmpSource src).1 (s.cmpSource src).2 then
        (s.cmpStored k w).cmpBehind k ⟨false, s.cmpTarget k src, src, dir⟩
      else (s.cmpStored k w).setWpCmp k ⟨true, s.cmpTarget k src, src, dir⟩ := by
  subst isSrc isDir
  have stored := s.cmpStored_writes k w
  have target (x : Nat) : (s.cmpStored k w).cmpTarget k x = s.cmpTarget k x := by
    unfold State.cmpTarget
    rw [stored.fld _ (by unfold Reg.WP_CMPk_HI Reg.WP_CMPk_CTRL; omega), stored.rdN (by unfold Reg.WP_CMPk_LO Reg.WP_CMPk_CTRL; omega)]
  have source : (s.cmpStored k w).cmpSource (F.WP_CMPk_CTRL_SRC.get w) = s.cmpSource (F.WP_CMPk_CTRL_SRC.get w) := by
    refine stored.cmpSource ?_
    have : F.WP_CMPk_CTRL_SRC.get w < 4 := BitField.get_ofNat_lt _ w
    unfold Reg.WP_CHk_CPR Reg.WP_CMPk_CTRL
    omega
  have acts : ¬ (decide (F.WP_CMPk_CTRL_ARM.get w = 0) || decide (F.WP_CMPk_CTRL_SRC.get w = 3) ||
      decide (F.WP_CMPk_CTRL_DIR.get w = 3)) = true := by simp [arm, valid, valid']
  rw [← target, ← source]
  exact if_neg acts

/-- R101: at or past the target in the compare's direction, and moving that way. -/
theorem behind_eq (dir : Nat) (target pos : Int) (reverse : Bool) :
    behind dir target pos reverse =
      decide ((dir = 0 ∧ target ≤ pos ∧ reverse = false) ∨ (dir = 1 ∧ pos ≤ target ∧ reverse = true)) := by
  simp [behind, Bool.decide_or, Bool.decide_and, Bool.and_assoc]

/-- R100: FWD and REV are crossed in their direction, EITHER in both. -/
theorem crosses_eq (dir : Nat) (target old new : Int) :
    crosses dir target old new = decide ((dir ≠ 1 ∧ old < target ∧ target ≤ new) ∨ (dir ≠ 0 ∧ target < old ∧ new ≤ target)) := by
  match dir with
  | 0 => simp [crosses]
  | 1 => simp [crosses]
  | d + 2 => simp [crosses, Bool.decide_or]

theorem State.cmpBehind_flagged (s : State) {k : Nat} (c : Cmp) (ofUnit : k < 8) :
    (s.cmpBehind k c).fld (Reg.WP_CMPk_CTRL k) F.WP_CMPk_CTRL_BEHIND = 1 := by
  have low : Reg.WP_CMPk_CTRL k < 0x20300 := by unfold Reg.WP_CMPk_CTRL; omega
  have other : Reg.WP_CMPk_CTRL k ≠ Reg.WP_STAT := by unfold Reg.WP_CMPk_CTRL Reg.WP_STAT; omega
  have far {a : Nat} (h : 0x20300 ≤ a) : Reg.WP_CMPk_CTRL k ≠ a := by omega
  unfold State.cmpBehind State.fld
  rw [(State.raise_keeps _ Ev.COMPARE_BEHIND 0).rd _ (far (by decide)) (far (by decide)) (far (by decide)), State.rd_flag_ne _ _ other]
  exact State.fld_setFld _ _ F.WP_CMPk_CTRL_BEHIND 1 (by decide) (by decide)

/-- An update of a compare that leaves the rest of the web position, DRAM and flash alone. -/
structure State.CmpReplaced (s : State) (k : Nat) (c : Cmp) (u : State) : Prop where
  wp : u.wp = { s.wp with cmps := s.wp.cmps.set k c }
  dram : u.dram = s.dram
  flash : u.flash = s.flash

theorem State.WritesOnly.cmpReplaced {a : Nat} {s t : State} (h : s.WritesOnly a t) (k : Nat) (c : Cmp) :
    s.CmpReplaced k c (t.setWpCmp k c) := ⟨by rw [State.setWpCmp, h.wp], h.dram, h.flash⟩

theorem State.CmpReplaced.cmpBehind {s t : State} {k : Nat} {c : Cmp} (h : s.CmpReplaced k c (t.setWpCmp k c)) :
    s.CmpReplaced k c (t.cmpBehind k c) :=
  have raised := State.raise_keeps _ Ev.COMPARE_BEHIND 0
  ⟨raised.wp.trans h.wp, raised.dram.trans h.dram, raised.flash.trans h.flash⟩

/-- R100, R101: what ARM leaves: the compare armed unless it is behind, and BEHIND set where it is. -/
theorem State.wpCmpCtrl_replaces {s : State} {k : Nat} {w : Word} (ofUnit : k < 8) (arm : F.WP_CMPk_CTRL_ARM.get w = 1) {src dir : Nat}
    (isSrc : F.WP_CMPk_CTRL_SRC.get w = src) (isDir : F.WP_CMPk_CTRL_DIR.get w = dir) (valid : src ≠ 3) (valid' : dir ≠ 3) {late : Bool}
    (isLate : behind dir (s.cmpTarget k src) (s.cmpSource src).1 (s.cmpSource src).2 = late) :
    s.CmpReplaced k ⟨!late, s.cmpTarget k src, src, dir⟩ (s.wpCmpCtrl k w) ∧
      (late = true → (s.wpCmpCtrl k w).fld (Reg.WP_CMPk_CTRL k) F.WP_CMPk_CTRL_BEHIND = 1) := by
  have replaced (c : Cmp) := (s.cmpStored_writes k w).cmpReplaced k c
  rw [State.wpCmpCtrl_arm arm isSrc isDir valid valid', isLate]
  cases late
  · exact ⟨replaced _, fun h => absurd h Bool.false_ne_true⟩
  · exact ⟨(replaced _).cmpBehind, fun _ => State.cmpBehind_flagged _ _ ofUnit⟩

/-- CMP_ARM writes WP_CMPk_CTRL with ARM. -/
theorem exec_cmpArm {s : State} {m : Master} {k : Fin 8} (w : Word) (takes : s.takes m (Reg.WP_CMPk_CTRL k.val)) :
    exec (.cmpArm m k w) s =
      .next (s.wrote (s.wpCmpCtrl k.val (cmdWord (Reg.WP_CMPk_CTRL k.val) w [(F.WP_CMPk_CTRL_ARM, 1)])) m) := by
  have wp : Reg.WP_CMPk_CTRL k.val / 0x10000 = 2 := by
    unfold Reg.WP_CMPk_CTRL
    omega
  have written (d : Word) : s.writeWp (Reg.WP_CMPk_CTRL k.val) d = s.wpCmpCtrl k.val d := by fin_cases k <;> rfl
  rw [← written]
  exact congrArg Host.Outcome.next (State.act_busWrite_wp _ takes wp)

theorem get_cmpCtrl_arm (k : Fin 8) (w : Word) :
    F.WP_CMPk_CTRL_ARM.get (cmdWord (Reg.WP_CMPk_CTRL k.val) w [(F.WP_CMPk_CTRL_ARM, 1)]) = 1 := by
  have held : ∀ k : Fin 8, holdsField (Reg.WP_CMPk_CTRL k.val) F.WP_CMPk_CTRL_ARM = true := by decide
  exact (get_regMask (held k) _).trans (F.WP_CMPk_CTRL_ARM.get_put w 1 (by decide) (by decide))

/-! ## The press held -/

section
variable {s : State}

theorem State.pressRelease_ready (low : s.wp.pinLow = true) (back : s.line + s.si.limits.runup ≤ s.wp.hwm + 1)
    (complete : s.lringComplete (s.wp.hwm + 1) = true) : s.pressRelease = { s with wp := { s.wp with pinLow := false } } := by
  simp [State.pressRelease, low, back, complete]

theorem State.backupTimeout_expired {t : Nat} (low : s.wp.pinLow = true) (since : s.wp.pinSince = some t)
    (limited : s.rdN Reg.WP_BACKUP_TMO ≠ 0) (expired : s.rdN Reg.WP_BACKUP_TMO * 1000000 ≤ s.now - t) :
    s.backupTimeout =
      ({ s with wp := { s.wp with pinSince := none } }.flag Reg.WP_STAT F.WP_STAT_BACKUP_TIMEOUT).raise Ev.BACKUP_TIMEOUT := by
  simp [State.backupTimeout, low, since, limited, expired]

/-! ## Resynthesised outputs -/

theorem State.ptOut_setPtOut_self (s : State) (k : Nat) (o : PtOut) : (s.setPtOut k o).ptOut k = o := by
  unfold State.ptOut State.setPtOut
  split <;> rfl

theorem State.setPtOut_pos (s : State) (k : Nat) (o : PtOut) : (s.setPtOut k o).wp.pos = s.wp.pos := by
  unfold State.setPtOut
  split <;> rfl

/-- Whether it lags is all of an output that judging changes. -/
theorem State.WebKeeps.ptOut {t : State} (h : s.WebKeeps t) (k : Nat) :
    t.ptOut k = { s.ptOut k with lagging := (t.ptOut k).lagging } := by
  unfold State.ptOut
  split
  · exact (congrArg WpState.pt0 h.wp :)
  · exact (congrArg WpState.pt1 h.wp :)

/-- R104: an output one count on towards Q. -/
def PtOut.towards (o : PtOut) (q : Int) (now : Nat) : PtOut := { o with q := if o.q < q then o.q + 1 else o.q - 1, last := some now }

/-- R104: an output away from Q steps towards it, 20 ns or more after it last did. -/
theorem State.ptStep_due {k : Nat} (resynth : s.fld (Reg.WP_CHk_PT k) F.WP_CHk_PT_PT_MODE = 2) (away : s.ptQ k ≠ (s.ptOut k).q)
    (rested : ∀ t, (s.ptOut k).last = some t → t + 20 ≤ s.now) :
    s.ptStep k = (s.setPtOut k ((s.ptOut k).towards (s.ptQ k) s.now)).ptWatch k := by
  unfold State.ptStep
  extract_lets o q due
  have ready : due = true := by
    cases last : o.last with
    | none => simp [due, last]
    | some t => simp [due, last, rested t last]
  exact if_neg (by simp [resynth, q, o, away, ready])

end

/-- Settles O20: compares armed and crossed, the press released or held too long, and the step of an output. -/
theorem comparesAndPress : Obligations.ComparesAndPress := by
  unfold Obligations.ComparesAndPress
  refine ⟨⟨?arm, crosses_eq⟩, ?release, ?timeout, ?output⟩
  case arm =>
    intro s m k w takes a d src dir t target pos rev isBehind valid valid'
    have judged : behind dir target pos rev = decide isBehind := behind_eq dir target pos rev
    obtain ⟨replaced, flagged⟩ := State.wpCmpCtrl_replaces k.isLt (get_cmpCtrl_arm k w) rfl rfl valid valid' judged
    refine ⟨s.wpCmpCtrl k.val d, exec_cmpArm w takes, ?_, fun late => flagged (decide_eq_true late), (congrArg WpState.pos replaced.wp :),
      (congrArg WpState.hwm replaced.wp :), replaced.dram, replaced.flash⟩
    rw [decide_not]
    exact congrArg WpState.cmps replaced.wp
  case release =>
    intro s out low back complete
    exact State.next_act out (State.pressRelease_ready low back complete)
  case timeout =>
    intro s t out low since limited expired
    exact State.next_act out (State.backupTimeout_expired low since limited expired)
  case output =>
    intro s ch out resynth away rested
    have watched := State.WebKeeps.ptWatch (s.setPtOut ch.val ((s.ptOut ch.val).towards (s.ptQ ch.val) s.now)) ch.val
    have shown := watched.ptOut ch.val
    rw [State.ptOut_setPtOut_self] at shown
    refine ⟨_, State.next_act out (State.ptStep_due resynth away rested), ?_, ?_, ?_⟩
    · rw [shown]
      rfl
    · rw [shown, PtOut.towards]
      split <;> rfl
    · exact (congrArg WpState.pos watched.wp).trans (State.setPtOut_pos ..)

end Sys2Proof.Machine
end

section
/-! SUPPORT of O27 and O28: what updates of the job stream leave of the job slots, the web position and DRAM. -/

namespace Sys2Proof.Machine

/-! ## A job slot replaced -/

@[simp] theorem State.job_setJob_self (s : State) (k : Nat) (j : JobSlot) : (s.setJob k j).job k = j := by
  unfold State.job State.setJob
  split <;> rfl

@[simp] theorem State.job_setJob_other (s : State) (k : Nat) (j : JobSlot) : (s.setJob k j).job (1 - k) = s.job (1 - k) := by
  cases k with
  | zero => rfl
  | succ k => simp [State.job, State.setJob]

/-- An update that leaves the job stream, the web position and DRAM alone. -/
structure State.StreamKeeps (s t : State) : Prop where
  js : t.js = s.js
  wp : t.wp = s.wp
  dram : t.dram = s.dram

namespace State.StreamKeeps

variable {s t u : State}

theorem refl (s : State) : s.StreamKeeps s := ⟨rfl, rfl, rfl⟩

theorem trans (h : s.StreamKeeps t) (k : t.StreamKeeps u) : s.StreamKeeps u :=
  ⟨k.js.trans h.js, k.wp.trans h.wp, k.dram.trans h.dram⟩

theorem ite {c : Prop} [Decidable c] (ht : s.StreamKeeps t) (hu : s.StreamKeeps u) : s.StreamKeeps (if c then t else u) := by
  split
  · exact ht
  · exact hu

theorem foldl {α : Type} {f : State → α → State} (h : ∀ s x, State.StreamKeeps s (f s x)) (l : List α) (s : State) :
    s.StreamKeeps (l.foldl f s) := by
  induction l generalizing s with
  | nil => exact refl s
  | cons x l ih => exact (h s x).trans (ih _)

theorem setFld (s : State) (a : Nat) (f : BitField) (v : Nat) : s.StreamKeeps (s.setFld a f v) := ⟨rfl, rfl, rfl⟩

theorem flag (s : State) (a : Nat) (f : BitField) : s.StreamKeeps (s.flag a f) := ⟨rfl, rfl, rfl⟩

theorem raise (s : State) (id : Nat) : s.StreamKeeps (s.raise id) :=
  have raised := State.raise_keeps s id 0
  ⟨raised.js, raised.wp, raised.dram⟩

theorem erasePayload (s : State) (b : Nat) : s.StreamKeeps (s.erasePayload b) := ⟨rfl, rfl, rfl⟩

theorem dropTickets (s : State) (pick : Ticket → Bool) : s.StreamKeeps (s.dropTickets pick) := ⟨rfl, rfl, rfl⟩

theorem dropTiles (s : State) (k : Nat) : s.StreamKeeps (s.dropTiles k) := foldl (fun s _ => erasePayload s _) _ s

theorem drawRandom (s : State) (n : Nat) : s.StreamKeeps (s.drawRandom n).2 := ⟨rfl, rfl, rfl⟩

/-- R293: a refusal is recorded in registers and raised. -/
theorem fabricRefuse (s : State) (r : Nat) (e : Refused) : s.StreamKeeps (s.fabricRefuse r e) := by
  have recorded (a b : Nat) (f g h : BitField) (x y id : Nat) :
      s.StreamKeeps ((((s.setFld a f x).setFld a g y).flag b h).raise id) :=
    ((setFld s a f x).trans (setFld _ a g y)).trans ((flag _ b h).trans (raise _ id))
  cases e with
  | tile g => exact recorded ..
  | ring g => exact recorded ..
  | rights => exact recorded ..
  | range => exact recorded ..
  | plate => exact recorded ..

end State.StreamKeeps

/-- An update of the job slots that replaces slot `k` alone and leaves the web position and DRAM alone. -/
structure State.JobReplaced (s : State) (k : Nat) (j : JobSlot) (u : State) : Prop where
  own : u.job k = j
  other : u.job (1 - k) = s.job (1 - k)
  wp : u.wp = s.wp
  dram : u.dram = s.dram

namespace State.JobReplaced

variable {s t u : State} {k : Nat} {i j : JobSlot}

theorem setJob (s : State) (k : Nat) (j : JobSlot) : s.JobReplaced k j (s.setJob k j) :=
  ⟨s.job_setJob_self k j, s.job_setJob_other k j, rfl, rfl⟩

theorem trans (h : s.JobReplaced k i t) (h' : t.JobReplaced k j u) : s.JobReplaced k j u :=
  ⟨h'.own, h'.other.trans h.other, h'.wp.trans h.wp, h'.dram.trans h.dram⟩

/-- What is no part of the slots may change before a slot is replaced, and after. -/
theorem after_keeps (h : s.StreamKeeps t) (h' : t.JobReplaced k j u) : s.JobReplaced k j u :=
  ⟨h'.own, h'.other.trans (by simp only [State.job, h.js]), h'.wp.trans h.wp, h'.dram.trans h.dram⟩

theorem then_slots (h : s.JobReplaced k j t) (job0 : u.js.job0 = t.js.job0) (job1 : u.js.job1 = t.js.job1) (wp : u.wp = t.wp)
    (dram : u.dram = t.dram) : s.JobReplaced k j u :=
  ⟨(by simp only [State.job, job0, job1] : u.job k = t.job k).trans h.own,
    (by simp only [State.job, job0, job1] : u.job (1 - k) = t.job (1 - k)).trans h.other, wp.trans h.wp, dram.trans h.dram⟩

theorem then_keeps (h : s.JobReplaced k j t) (h' : t.StreamKeeps u) : s.JobReplaced k j u :=
  h.then_slots (by rw [h'.js]) (by rw [h'.js]) h'.wp h'.dram

theorem dropFromLine (h : s.JobReplaced k j t) (start : Nat) : s.JobReplaced k j (t.dropFromLine start) :=
  h.then_slots rfl rfl rfl rfl

theorem jobLeave (h : s.JobReplaced k j t) (i : Nat) : s.JobReplaced k j (t.jobLeave i) := by
  unfold State.jobLeave
  dsimp only
  split <;> exact h.then_slots rfl rfl rfl rfl

end State.JobReplaced

end Sys2Proof.Machine
end

section
/-! PROOFS of O27: plate commands, LOAD, ARM and UNLOAD of job slots, and RING_WP. -/

namespace Sys2Proof.Machine

/-! ## Words of commands -/

/-- A command puts 1 in place of one bit of its register and 0 in place of two others. -/
theorem get_cmdWord_bits {a : Nat} {f g h : BitField} (held : ∀ e ∈ [f, g, h], holdsField a e = true)
    (bit : ∀ e ∈ [f, g, h], e.lo = e.hi ∧ e.hi < 32) (distinct : [f.hi, g.hi, h.hi].Nodup) (w : Word) :
    let d := cmdWord a w [(f, 1), (g, 0), (h, 0)]
    f.get d = 1 ∧ g.get d = 0 ∧ h.get d = 0 := by
  simp only [List.forall_mem_cons, List.not_mem_nil, false_imp_iff, implies_true, and_true] at held bit
  obtain ⟨heldF, heldG, heldH⟩ := held
  obtain ⟨⟨oneF, topF⟩, ⟨oneG, topG⟩, ⟨oneH, topH⟩⟩ := bit
  simp only [List.nodup_cons, List.mem_cons, List.not_mem_nil, or_false, not_or] at distinct
  obtain ⟨⟨fg, fh⟩, gh, -⟩ := distinct
  refine ⟨(get_regMask heldF _).trans ?_, (get_regMask heldG _).trans ?_, (get_regMask heldH _).trans ?_⟩
  · exact (h.get_put_ne f _ 0 (by omega) topH (by omega)).trans ((g.get_put_ne f _ 0 (by omega) topG (by omega)).trans
      ((f.get_put w 1 (by omega) topF).trans (by simp [oneF])))
  · exact (h.get_put_ne g _ 0 (by omega) topH (by omega)).trans ((g.get_put _ 0 (by omega) topG).trans (Nat.zero_mod _))
  · exact (h.get_put _ 0 (by omega) topH).trans (Nat.zero_mod _)

theorem get_plateCmd_op (w : Word) (x : Nat) :
    F.JS_PLATE_CMD_OP.get (cmdWord Reg.JS_PLATE_CMD w [(F.JS_PLATE_CMD_OP, x)]) = x % 4 :=
  (get_regMask (by decide) _).trans (F.JS_PLATE_CMD_OP.get_put w x (by decide) (by decide))

/-- A granted write of a register of JS ends after what the block makes of it. -/
theorem State.act_busWrite_js {s : State} {m : Master} {a : Nat} (w : Word) (takes : s.takes m a) (js : a / 0x10000 = 3) :
    s.act (·.busWrite m.val a w) = s.wrote (s.writeJs a (regMask a w)) m := by
  have low : a < 0x40000 := by omega
  have writable : readOnlyWindow a = false := by
    simp only [readOnlyWindow, Bool.or_eq_false_iff, Bool.and_eq_false_iff, decide_eq_false_iff_not]
    omega
  rw [State.act_busWrite_of_takes s m a w takes writable (by omega)]
  simp [State.writeReg, js]

/-! ## Plate commands -/

section
variable {s : State} {m : Master} {w : Word} {k : Nat} (takes : s.takes m Reg.JS_PLATE_CMD)
include takes

theorem State.act_plateCmd (d : Word) :
    s.act (·.busWrite m.val Reg.JS_PLATE_CMD d) = s.wrote (s.plateCmd (regMask Reg.JS_PLATE_CMD d)) m :=
  State.act_busWrite_js d takes (by decide)

theorem exec_plateOpen (slot : F.JS_PLATE_CMD_SLOT.get (cmdWord Reg.JS_PLATE_CMD w [(F.JS_PLATE_CMD_OP, 1)]) = k) :
    exec (.plateOpen m w) s = .next (s.wrote (s.plateOpen k) m) := by
  have command : s.plateCmd (cmdWord Reg.JS_PLATE_CMD w [(F.JS_PLATE_CMD_OP, 1)]) = s.plateOpen k := by
    simp [State.plateCmd, get_plateCmd_op, slot]
  exact congrArg Host.Outcome.next ((State.act_plateCmd takes _).trans (congrArg (s.wrote · m) command))

theorem exec_plateSeal (slot : F.JS_PLATE_CMD_SLOT.get (cmdWord Reg.JS_PLATE_CMD w [(F.JS_PLATE_CMD_OP, 2)]) = k) :
    exec (.plateSeal m w) s = .next (s.wrote (s.plateSeal k) m) := by
  have command : s.plateCmd (cmdWord Reg.JS_PLATE_CMD w [(F.JS_PLATE_CMD_OP, 2)]) = s.plateSeal k := by
    simp [State.plateCmd, get_plateCmd_op, slot]
  exact congrArg Host.Outcome.next ((State.act_plateCmd takes _).trans (congrArg (s.wrote · m) command))

theorem exec_plateFree (slot : F.JS_PLATE_CMD_SLOT.get (cmdWord Reg.JS_PLATE_CMD w [(F.JS_PLATE_CMD_OP, 3)]) = k) :
    exec (.plateFree m w) s = .next (s.wrote (s.plateFree k) m) := by
  have command : s.plateCmd (cmdWord Reg.JS_PLATE_CMD w [(F.JS_PLATE_CMD_OP, 3)]) = s.plateFree k := by
    simp [State.plateCmd, get_plateCmd_op, slot]
  exact congrArg Host.Outcome.next ((State.act_plateCmd takes _).trans (congrArg (s.wrote · m) command))

end

/-- R110: OPEN is refused in its two checks, in this order. -/
theorem State.plateOpen_eq (s : State) (k : Nat) : s.plateOpen k =
    if (s.plate k).phase ≠ .empty then s.plateErr 1
    else if s.inDram (s.plateRegion k) = false ∨ s.meetsPlate (s.plateRegion k) = true then s.plateErr 2
    else (s.setPlate k ⟨.loading, 0⟩).plateErr 0 := by
  simp only [State.plateOpen, Bool.or_eq_true, Bool.not_eq_true']

theorem JobPhase.held_iff (p : JobPhase) : p.held = true ↔ p ∈ [JobPhase.loaded, .armed, .running, .draining, .closing] := by
  cases p <;> decide

/-- R110: a slot is mapped by a nibble of PLANE_MAP of a job from LOADED to CLOSING. -/
theorem State.plateMapped_iff (s : State) (k : Nat) : s.plateMapped k = true ↔
    ∃ j ∈ [s.js.job0, s.js.job1], j.phase ∈ [JobPhase.loaded, .armed, .running, .draining, .closing] ∧
      ∃ i < 16, j.planeMap / 16 ^ i % 16 = k := by
  simp only [State.plateMapped, List.any_eq_true, Bool.and_eq_true, JobPhase.held_iff, List.mem_range, decide_eq_true_eq]

/-! ## Commands of job slots -/

section
variable {s : State} {k : Nat} {d : Word} (slot : F.JS_CTRL_SLOT.get d = k)
include slot

theorem State.jobCtrl_load (command : F.JS_CTRL_LOAD.get d = 1 ∧ F.JS_CTRL_ARM.get d = 0 ∧ F.JS_CTRL_UNLOAD.get d = 0) :
    s.jobCtrl d = s.jobLoad k := by
  simp [State.jobCtrl, command, slot]

theorem State.jobCtrl_arm (command : F.JS_CTRL_ARM.get d = 1 ∧ F.JS_CTRL_LOAD.get d = 0 ∧ F.JS_CTRL_UNLOAD.get d = 0) :
    s.jobCtrl d = s.jobArm k := by
  simp [State.jobCtrl, command, slot]

theorem State.jobCtrl_unload (command : F.JS_CTRL_UNLOAD.get d = 1 ∧ F.JS_CTRL_LOAD.get d = 0 ∧ F.JS_CTRL_ARM.get d = 0) :
    s.jobCtrl d = s.jobUnload k := by
  simp [State.jobCtrl, command, slot]

end

section
variable {s : State} {m : Master} {w : Word} {k : Nat} (takes : s.takes m Reg.JS_CTRL)
include takes

theorem State.act_jobCtrl (d : Word) :
    s.act (·.busWrite m.val Reg.JS_CTRL d) = s.wrote (s.jobCtrl (regMask Reg.JS_CTRL d)) m :=
  State.act_busWrite_js d takes (by decide)

theorem exec_jobLoad
    (slot : F.JS_CTRL_SLOT.get (cmdWord Reg.JS_CTRL w [(F.JS_CTRL_LOAD, 1), (F.JS_CTRL_ARM, 0), (F.JS_CTRL_UNLOAD, 0)]) = k) :
    exec (.jobLoad m w) s = .next (s.wrote (s.jobLoad k) m) :=
  congrArg Host.Outcome.next ((State.act_jobCtrl takes _).trans (congrArg (s.wrote · m)
    (State.jobCtrl_load slot (get_cmdWord_bits (by decide) (by decide) (by decide) w))))

theorem exec_jobArm
    (slot : F.JS_CTRL_SLOT.get (cmdWord Reg.JS_CTRL w [(F.JS_CTRL_ARM, 1), (F.JS_CTRL_LOAD, 0), (F.JS_CTRL_UNLOAD, 0)]) = k) :
    exec (.jobArm m w) s = .next (s.wrote (s.jobArm k) m) :=
  congrArg Host.Outcome.next ((State.act_jobCtrl takes _).trans (congrArg (s.wrote · m)
    (State.jobCtrl_arm slot (get_cmdWord_bits (by decide) (by decide) (by decide) w))))

theorem exec_jobUnload
    (slot : F.JS_CTRL_SLOT.get (cmdWord Reg.JS_CTRL w [(F.JS_CTRL_UNLOAD, 1), (F.JS_CTRL_LOAD, 0), (F.JS_CTRL_ARM, 0)]) = k) :
    exec (.jobUnload m w) s = .next (s.wrote (s.jobUnload k) m) :=
  congrArg Host.Outcome.next ((State.act_jobCtrl takes _).trans (congrArg (s.wrote · m)
    (State.jobCtrl_unload slot (get_cmdWord_bits (by decide) (by decide) (by decide) w))))

end

/-! ## LOAD -/

/-- The slot as the descriptor at an address and the imposition it names give it (R105). -/
def State.described (s : State) (at' : Nat) : JobSlot :=
  let d := s.dramRead at' 64
  JobSlot.ofDesc d (Imposition.parse (s.dramRead (leAt d 0x18 4 * 64) (max 32 (min (leAt d 0x1C 4) 540832)))).1

/-- R106, R114: LOAD in a state that lists it copies the job if every check passes, and else fails with the error of the first that
does not; either after updates that leave the job stream alone. -/
theorem State.jobLoad_checked {s : State} {k : Nat} (lists : (s.job k).phase ∈ [JobPhase.empty, .done, .failed])
    (image : s.si.loaded = true) :
    let e := s.loadErr (s.rdN (Reg.JS_JOBs_DESC k) * 64)
    ∃ t key, s.StreamKeeps t ∧ s.jobLoad k =
      if e = 0 then t.setJob k { s.described (s.rdN (Reg.JS_JOBs_DESC k) * 64) with tileKey := key } else t.loadFail k e := by
  intro e
  have may : ¬ ((!(decide ((s.job k).phase = .empty) || decide ((s.job k).phase = .done) || decide ((s.job k).phase = .failed)) ||
      !s.si.loaded) = true) := by
    simpa [image, or_iff_not_imp_left] using lists
  unfold State.jobLoad
  extract_lets phase a d imp e' s₁ s₂ r
  have refused : s.StreamKeeps s₁ := by
    have tiles := State.StreamKeeps.dropTiles s k
    cases shut : s.loadRefused a with
    | some x => simpa only [s₁, shut] using tiles.trans (.fabricRefuse _ 2 x)
    | none => simpa only [s₁, shut] using tiles
  have shown : s.StreamKeeps s₂ := refused.trans (.ite (.setFld ..) (.refl _))
  rw [if_neg may]
  by_cases passes : e = 0
  · exact ⟨r.2, some r.1, shown.trans (.drawRandom s₂ 32), by rw [if_pos passes, if_pos passes]; rfl⟩
  · exact ⟨s₂, none, shown, by rw [if_neg passes, if_neg passes]⟩

theorem State.JobReplaced.loadFail (s : State) (k e : Nat) :
    s.JobReplaced k { JobSlot.reset with phase := .failed, err := e } (s.loadFail k e) :=
  (State.JobReplaced.setJob s k _).then_keeps ((State.StreamKeeps.flag ..).trans (.raise ..))

/-! ## ARM and UNLOAD -/

/-- R107: a LOADED job becomes the current one where no other is active. -/
theorem State.jobArm_current {s : State} {k : Nat} (loaded : (s.job k).phase = .loaded)
    (alone : (s.job (1 - k)).phase ∉ [JobPhase.armed, .running, .draining]) :
    s.jobArm k = (let t := s.setJob k { s.job k with phase := .armed, err := 0 }
      { t with js := { t.js with cur := some k, next := none } }.dropFromLine (s.job k).jobStart) := by
  unfold State.jobArm
  extract_lets j active s₁ c s₂ s₃
  have free : active (1 - k) = false := by
    revert alone
    simp only [active]
    cases (s.job (1 - k)).phase <;> simp
  rw [if_neg (not_not.2 loaded), free]
  rfl

theorem State.jobArm_refused {s : State} {k : Nat} (unlisted : (s.job k).phase ≠ .loaded) :
    s.jobArm k = s.setJob k { s.job k with err := 0xC } := by
  simp [State.jobArm, unlisted, State.jobErr]

/-- R106: a job that is not ARMED is unloaded with no line made anew. -/
theorem State.jobUnload_idle {s : State} {k : Nat} (lists : (s.job k).phase ∈ [JobPhase.loaded, .done, .failed]) :
    s.jobUnload k =
      (((s.dropTickets fun t => t.job = k && decide (s.wp.hwm < t.first)).dropTiles k).setJob k JobSlot.reset).jobLeave k := by
  simp only [List.mem_cons, List.not_mem_nil, or_false] at lists
  obtain phase | phase | phase := lists
  all_goals simp [State.jobUnload, phase]

theorem State.jobLeave_cur (s : State) (k : Nat) : (s.jobLeave k).js.cur ≠ some k := by
  unfold State.jobLeave
  extract_lets cur next src js
  have left (o : Option Nat) : o.filter (· ≠ k) ≠ some k := fun h => by simpa using Option.filter_eq_some_iff.1 h
  show js.cur ≠ some k
  simp only [js]
  split
  · exact left _
  · exact left _

/-! ## RING_WP -/

theorem State.writeJs_ringWp (s : State) (j : Fin 2) (w : Word) : s.writeJs (Reg.JS_JOBs_RING_WP j.val) w = s.ringWp j.val w := by
  fin_cases j <;> rfl

/-- R117: while the renderer still takes records, a write of RING_WP names them and does nothing else. -/
theorem State.ringWp_running {s : State} {k : Nat} (w : Word) (runs : (s.job k).stopped = false) :
    s.ringWp k w = s.setJob k { s.job k with wp := w.toNat / 64 * 64 } := by
  simp [State.ringWp, runs]

theorem exec_ringWpWrite {s : State} {m : Master} {j : Fin 2} (w : Word) (takes : s.takes m (Reg.JS_JOBs_RING_WP j.val)) :
    exec (.ringWpWrite m j w) s = .next (s.wrote (s.ringWp j.val (cmdWord (Reg.JS_JOBs_RING_WP j.val) w [])) m) := by
  rw [← State.writeJs_ringWp]
  exact congrArg Host.Outcome.next (State.act_busWrite_js w takes (by unfold Reg.JS_JOBs_RING_WP; omega))

/-- Settles O27: plate commands by their checks, job slots replaced by LOAD, ARM and UNLOAD, and RING_WP. -/
theorem jobsAndPlates : Obligations.JobsAndPlates := by
  unfold Obligations.JobsAndPlates
  refine ⟨⟨?opened, ?sealed, ?freed, State.plateMapped_iff⟩, ?load, ?arm, ?unload, ?refused, ?ring⟩
  case opened =>
    intro s m w k takes slot
    rw [exec_plateOpen takes slot, State.plateOpen_eq]
    rfl
  case sealed => exact fun s m w k takes slot => exec_plateSeal takes slot
  case freed => exact fun s m w k takes slot => exec_plateFree takes slot
  case load =>
    intro s m w k takes slot lists image at'
    obtain ⟨t, key, kept, loaded⟩ := State.jobLoad_checked lists image
    refine ⟨_, exec_jobLoad takes slot, ?_⟩
    rw [loaded]
    by_cases passes : s.loadErr at' = 0
    · rw [if_pos passes]
      obtain ⟨own, other, wp, dram⟩ := State.JobReplaced.after_keeps kept (.setJob t k { s.described at' with tileKey := key })
      exact ⟨dram, wp, fun _ => ⟨by rw [own]; rfl, by rw [own]; rfl, by rw [own]; rfl, by rw [own]; rfl, by rw [own]; rfl, other⟩,
        fun fails => absurd passes fails⟩
    · rw [if_neg passes]
      obtain ⟨own, other, wp, dram⟩ := State.JobReplaced.after_keeps kept (.loadFail t k (s.loadErr at'))
      exact ⟨dram, wp, fun done => absurd done passes, fun _ => ⟨by rw [own], by rw [own], other⟩⟩
  case arm =>
    intro s m w k takes slot loaded alone
    obtain ⟨own, other, wp, dram⟩ :=
      (State.JobReplaced.setJob s k { s.job k with phase := .armed, err := 0 }).then_slots rfl rfl rfl rfl |>.dropFromLine (s.job k).jobStart
    refine ⟨_, exec_jobArm takes slot, ?_⟩
    rw [State.jobArm_current loaded alone]
    exact ⟨rfl, rfl, own, other, wp, dram⟩
  case unload =>
    intro s m w k takes slot lists
    refine ⟨_, exec_jobUnload takes slot, ?_⟩
    rw [State.jobUnload_idle lists]
    obtain ⟨own, other, wp, dram⟩ := State.JobReplaced.after_keeps ((State.StreamKeeps.dropTickets ..).trans (.dropTiles ..))
      ((State.JobReplaced.setJob _ k JobSlot.reset).jobLeave k)
    exact ⟨own, other, State.jobLeave_cur _ k, wp, dram⟩
  case refused =>
    intro s m w k takes slot unlisted
    rw [exec_jobArm takes slot, State.jobArm_refused unlisted]
  case ring =>
    intro s m j w takes runs
    rw [exec_ringWpWrite w takes, State.ringWp_running _ runs]

end Sys2Proof.Machine
end

section
/-! PROOFS of O28: instances begun and finished by the renderer, tile buffers released, and lines that enter and complete the line ring. -/

namespace Sys2Proof.Machine

/-! ## Instances begun -/

/-- A fold whose every step adds 1 to a measure adds the length of its list. -/
theorem foldl_measure {α β : Type} {f : β → α → β} {size : β → Nat} (adds : ∀ b a, size (f b a) = size b + 1) (l : List α) (b : β) :
    size (l.foldl f b) = size b + l.length := by
  induction l generalizing b with
  | nil => rfl
  | cons a l ih => rw [List.foldl_cons, ih, adds, List.length_cons, Nat.add_assoc, Nat.add_comm 1]

/-- R119, R376: what the renderer takes in hand holds a ticket for each record drawn. -/
theorem State.renderAll_rendering (s : State) (k i rp : Nat) (rs : List CellRec) :
    ∃ r : Rendering, ((s.renderAll k i rp rs).job k).rendering = some r ∧ r.inst = i ∧ r.rp = rp ∧
      r.tickets.length = min ((s.job k).ticketCells i).length rs.length := by
  unfold State.renderAll
  extract_lets j r s₁ s₂
  refine ⟨⟨i, rp, r.2.1⟩, congrArg JobSlot.rendering (s₂.job_setJob_self k _), rfl, rfl, ?_⟩
  have counted : r.2.1.length = 0 + ((j.ticketCells i).zip rs).length :=
    foldl_measure (size := fun a : List Byte × List Ticket × State => a.2.1.length) (fun _ _ => List.length_append) _ _
  simpa only [Nat.zero_add, List.length_zip] using counted

section
variable {s : State} {k : Nat}

theorem State.renderBegin_waits
    (waits : s.renderable k = false ∨ s.line + s.si.limits.renderAhead < (s.job k).bound (s.job k).nextInst ∨
      (s.job k).released + (s.job k).tileBufs ≤ (s.job k).nextInst) : s.renderBegin k = s :=
  if_pos (by simpa [or_assoc] using waits)

/-- R119: with its conditions met the renderer does what the records say; a record the fabric refuses breaks the order (log entry
38). -/
theorem State.renderBegin_due (renderable : s.renderable k = true)
    (near : (s.job k).bound (s.job k).nextInst ≤ s.line + s.si.limits.renderAhead)
    (room : (s.job k).nextInst < (s.job k).released + (s.job k).tileBufs) :
    s.renderBegin k = match s.readInst (s.job k) (s.job k).nextInst with
      | .wait => s
      | .order rs => (s.renderAll k (s.job k).nextInst (s.job k).rp rs).jobOrder k F.JS_STAT_RECORD_ORDER Ev.RECORD_ORDER
      | .refused e rs =>
        ((s.renderAll k (s.job k).nextInst (s.job k).rp rs).fabricRefuse 2 e).jobOrder k F.JS_STAT_RECORD_ORDER Ev.RECORD_ORDER
      | .ends => (((s.fixEnd k (s.job k).nextInst).setJob k { (s.fixEnd k (s.job k).nextInst).job k with
          rp := ((s.job k).rp + 64) % (s.job k).ringSize }).jobDiscard k).jobsNow
      | .recs rs rp => s.renderAll k (s.job k).nextInst rp rs :=
  if_neg (by simp [renderable, near, room])

/-! ## Instances finished -/

/-- R124: a job whose end is not fixed goes on. -/
theorem State.stopAtEnd_open (endless : (s.job k).endInst = none) : s.stopAtEnd k = s := by
  simp [State.stopAtEnd, endless]

theorem State.addTickets_tickets (s : State) (ts : List Ticket) : (s.addTickets ts).au.tickets = s.au.tickets ++ ts := rfl

theorem State.renderDone_finished {r : Rendering} (inHand : s.js.job0.rendering = some r) (room : s.ticketRoom r.tickets.length = true)
    (endless : s.js.job0.endInst = none) :
    s.renderDone =
      ((s.setJob 0 { s.js.job0 with rendering := none, rp := r.rp, nextInst := r.inst + 1 }).addTickets r.tickets).releaseTiles s.wp.hwm 0 := by
  have first : ([0, 1].find? fun k => (s.job k).rendering.isSome) = some 0 := by simp [State.job, inHand]
  have job0 : (s.job 0).rendering = some r := inHand
  have effect : s.renderDone = (((s.setJob 0 { s.js.job0 with rendering := none, rp := r.rp, nextInst := r.inst + 1 }).addTickets
      r.tickets).stopAtEnd 0).releaseTiles s.wp.hwm 0 := by
    simp only [State.renderDone, first, job0, room, Bool.not_true, Bool.false_eq_true, if_false]
    rfl
  exact effect.trans (congrArg (·.releaseTiles s.wp.hwm 0) (State.stopAtEnd_open (by exact endless)))

/-! ## Tile buffers released -/

/-- What the release of tile buffers of a job leaves: `n` more of them counted. -/
structure State.TilesReleased (s : State) (k n : Nat) (u : State) : Prop where
  job : s.JobReplaced k { s.job k with released := (s.job k).released + n } u
  tickets : u.au.tickets = s.au.tickets

theorem State.releaseTile_releases (s : State) (l k : Nat) : ∃ n ≤ 1, s.TilesReleased k n (s.releaseTile l k) := by
  unfold State.releaseTile
  extract_lets j
  split
  · exact ⟨0, by omega, ⟨rfl, rfl, rfl, rfl⟩, rfl⟩
  · exact ⟨1, le_rfl, .after_keeps (.erasePayload s _) (.setJob _ k _), rfl⟩

theorem State.TilesReleased.trans {s t u : State} {k n m : Nat} (h : s.TilesReleased k n t) (h' : t.TilesReleased k m u) :
    s.TilesReleased k (n + m) u := by
  refine ⟨?_, h'.tickets.trans h.tickets⟩
  have both := h.job.trans h'.job
  rw [h.job.own] at both
  rwa [Nat.add_assoc] at both

/-- At most one buffer is released for each time the oldest is looked at. -/
theorem State.foldl_releaseTile {α : Type} (l k : Nat) (xs : List α) (s : State) :
    ∃ n ≤ xs.length, s.TilesReleased k n (xs.foldl (fun s _ => s.releaseTile l k) s) := by
  induction xs generalizing s with
  | nil => exact ⟨0, le_rfl, ⟨rfl, rfl, rfl, rfl⟩, rfl⟩
  | cons x xs ih =>
    obtain ⟨n, one, first⟩ := s.releaseTile_releases l k
    obtain ⟨m, rest, others⟩ := ih (s.releaseTile l k)
    exact ⟨n + m, by rw [List.length_cons]; omega, first.trans others⟩

/-! ## Slices read -/

theorem State.StreamKeeps.of_readAs {s t : State} {r addr n : Nat} {b : Option (List Byte)} (read : s.readAs r addr n = (b, t)) :
    s.StreamKeeps t := by
  unfold State.readAs at read
  split at read
  · exact (Prod.mk.inj read).2 ▸ .fabricRefuse ..
  · exact (Prod.mk.inj read).2 ▸ .refl s

theorem State.StreamKeeps.sliceRead (s : State) (g : LineProg) (l p r : Nat) : s.StreamKeeps (s.sliceRead g l p r).2 := by
  unfold State.sliceRead
  extract_lets d zero
  split
  · split
    · rename_i refused
      exact .of_readAs refused
    · rename_i taken
      exact .of_readAs taken
  · exact .refl s

/-- HSTR reads the slices of a line with its copy (log entry 40): no read changes the job stream, and the slices are entered last, if
all were read. -/
theorem State.hstrRead_slices (s : State) (l : Nat) : ∃ t, s.StreamKeeps t ∧
    (s.hstrRead l = t ∨ ∃ rows, s.hstrRead l = { t with js := { t.js with slices := t.js.slices ++ [⟨l, rows⟩] } }) := by
  unfold State.hstrRead
  extract_lets r
  have kept : s.StreamKeeps r.2 := by
    refine List.foldlRecOn (motive := fun a : Option (List (Nat × List Byte)) × State => s.StreamKeeps a.2) _ _ (.refl s) fun a before x _ => ?_
    split
    · rename_i rows g _ _
      have read := before.trans (.sliceRead a.2 g l x.1 x.2)
      split
      · rename_i taken
        rwa [taken] at read
      · rename_i refused
        rwa [refused] at read
    · exact before
  refine ⟨r.2, kept, ?_⟩
  split
  · exact .inr ⟨_, rfl⟩
  · exact .inl rfl

/-! ## The line ring -/

/-- R121: the entry of the next line is taken; a line that needs no tile data is complete at once. -/
theorem State.lringFill_taken (current : s.js.cur.isSome = true) (free : s.entryFreed (s.lringNext - s.si.limits.lead - 8) = true)
    (rendered : s.lineRendered s.lringNext = true) :
    s.lringFill = (let b := (s.imagesAt s.lringNext).isEmpty
      let t := { s with js := { s.js with lring := s.js.lring ++ [LineEntry.mk s.lringNext b []] } }
      if b then t.hstrRead s.lringNext else t) :=
  if_neg (by simp [Option.isNone_iff_eq_none, Option.isSome_iff_ne_none.1 current, free, rendered])

/-- R121: the oldest copy under way completes its own entry alone. -/
theorem State.lringDone_copied {l : Nat} {before after : List LineEntry} (ring : s.js.lring = before ++ LineEntry.mk l false [] :: after)
    (older : ∀ e ∈ before, e.complete = true ∧ e.line ≠ l) (newer : ∀ e ∈ after, e.line ≠ l)
    (granted : ∀ x ∈ s.imagesAt l, s.tileRefused x = none) :
    s.lringDone = { s with js := { s.js with lring := before ++ LineEntry.mk l true (s.lineWords l) :: after } }.hstrRead l := by
  have oldest : (s.js.lring.find? fun e => !e.complete) = some (LineEntry.mk l false []) := by
    have done : (before.find? fun e => !e.complete) = none := List.find?_eq_none.2 fun e mem => by simp [(older e mem).1]
    rw [ring, List.find?_append, done]
    rfl
  have unrefused : (s.imagesAt l).findSome? s.tileRefused = none := List.findSome?_eq_none_iff.2 granted
  have entered : (s.js.lring.map fun x => if x.line = l then LineEntry.mk x.line true (s.lineWords l) else x) =
      before ++ LineEntry.mk l true (s.lineWords l) :: after := by
    have others (es : List LineEntry) (apart : ∀ e ∈ es, e.line ≠ l) :
        (es.map fun x => if x.line = l then LineEntry.mk x.line true (s.lineWords l) else x) = es :=
      (List.map_congr_left fun e mem => if_neg (apart e mem)).trans (List.map_id' es)
    rw [ring, List.map_append, List.map_cons, others before fun e mem => (older e mem).2, others after newer, if_pos rfl]
  simp only [State.lringDone, oldest, unrefused, entered]

end

/-- Settles O28: the renderer's instances and tile buffers, and the entries of the line ring. -/
theorem rendererAndRing : Obligations.RendererAndRing := by
  unfold Obligations.RendererAndRing
  refine ⟨⟨?begins, ?waits, ?drawn, ?done, ?tiles⟩, ?fill, ?blank, ?copied, ?slices, ?next⟩
  case begins =>
    intro s j out renderable near room i
    refine State.next_act out ((State.renderBegin_due renderable near room).trans ?_)
    cases s.readInst (s.job j.val) i <;> rfl
  case waits => exact fun s j out waits => State.next_act out (State.renderBegin_waits waits)
  case drawn => exact fun s k i rp rs _ => State.renderAll_rendering s k i rp rs
  case done =>
    intro s r out inHand room endless
    exact ⟨State.next_act out (State.renderDone_finished inHand room endless), s.addTickets_tickets r.tickets⟩
  case tiles =>
    intro s l k _ u
    obtain ⟨n, eight, ⟨own, other, wp, dram⟩, tickets⟩ := State.foldl_releaseTile l k (List.range 8) s
    exact ⟨⟨_, Nat.le_add_right _ n, by simpa using eight, own⟩, other, tickets, dram, wp⟩
  case fill =>
    intro s out current free rendered images
    refine State.next_act out ((State.lringFill_taken current free rendered).trans ?_)
    simp [images]
  case blank =>
    intro s out current free rendered images
    refine State.next_act out ((State.lringFill_taken current free rendered).trans ?_)
    simp [images]
  case copied =>
    intro s l before after out ring older newer granted
    exact State.next_act out (State.lringDone_copied ring older newer granted)
  case slices =>
    intro s l
    obtain ⟨t, ⟨js, wp, dram⟩, read | ⟨rows, read⟩⟩ := s.hstrRead_slices l
    · rw [read, js]
      exact ⟨rfl, dram, wp, .inl rfl⟩
    · rw [read, ← js]
      exact ⟨rfl, dram, wp, .inr ⟨rows, rfl⟩⟩
  case next => exact fun s => rfl

end Sys2Proof.Machine
end

section
/-! PROOFS of O34: what the fabric refuses, and a transfer from its request to its completion. -/

namespace Sys2Proof.Machine

/-! ## What the check at address decode refuses -/

/-- R293: a range that is not wholly in DRAM. -/
theorem State.fabricCheck_outside {s : State} {a addr len : Nat} (channel : a < 2) (beyond : s.dramSize < addr + len) (r : Nat) (write : Bool) :
    s.fabricCheck a r addr len write = some .range := by
  have outside : s.inDram (addr, len) = false := by simpa [State.inDram] using beyond
  simp [State.fabricCheck, Nat.not_le.2 channel, outside]

/-- R150: the tile buffers of a held job, but for writes of RNDR and reads of CMPS. -/
theorem State.fabricCheck_tile {s : State} {a r addr len k : Nat} {write : Bool} (channel : a < 2) (within : addr + len ≤ s.dramSize)
    (owner : s.tileOwner (addr, len) = some k) (rendersNot : ¬(r = 2 ∧ write = true)) (composesNot : ¬(r = 1 ∧ write = false)) :
    s.fabricCheck a r addr len write = some (.tile 0) := by
  have inside : s.inDram (addr, len) = true := decide_eq_true within
  have sealed : (r = 2 && write || r = 1 && !write) = false := by simpa using And.intro rendersNot composesNot
  simp [State.fabricCheck, Nat.not_le.2 channel, inside, owner, sealed]

/-- R293: a write that is granted meets plate slots only as DCMP's while they are LOADING. -/
theorem State.fabricCheck_plate {s : State} {a r addr len k : Nat} (channel : a < 2) (granted : s.fabricCheck a r addr len true = none)
    (slot : k < 16) (taken : (s.plate k).phase ≠ .empty) (meets : rangesMeet (addr, len) (s.plateRegion k) = true) :
    r = 3 ∧ (s.plate k).phase = .loading := by
  by_contra other
  have barred : ((List.range 16).any fun k => (s.plate k).phase ≠ .empty && rangesMeet (addr, len) (s.plateRegion k) &&
      !(r = 3 && (s.plate k).phase = .loading)) = true :=
    List.any_eq_true.2 ⟨k, List.mem_range.2 slot, by simpa [taken, meets, imp_iff_not_or] using other⟩
  simp only [State.fabricCheck, if_neg (Nat.not_le.2 channel), barred, Bool.and_self, if_true] at granted
  -- Every branch of the check now refuses: the last one was the only grant.
  repeat' split at granted
  all_goals cases granted

/-- R290: the line ring group admits writes by CMPS and reads by HSTR. -/
theorem sramGranted_lineRing (r off : Nat) (write : Bool) :
    sramGranted 0 r off write = none ↔ (r = 1 ∧ write = true) ∨ (r = 0 ∧ write = false) := by
  by_cases named : r = 0 ∨ r = 1
  · have row : sramGranted 0 r off write = if r = 1 && write || r = 0 && !write then none else some .rights :=
      if_pos (by simpa using named)
    simp [row, or_iff_not_imp_left]
  · have other : ¬r = 0 ∧ ¬r = 1 := not_or.1 named
    simp [sramGranted, other]

/-! ## Requests -/

/-- R293: a refusal is recorded in registers alone. -/
theorem State.fabricRefuse_mf (s : State) (r : Nat) (e : Refused) : (s.fabricRefuse r e).mf = s.mf := by
  have recorded (a b : Nat) (f g h : BitField) (x y id : Nat) :
      ((((s.setFld a f x).setFld a g y).flag b h).raise id).mf = s.mf :=
    (State.raise_keeps _ id 0).mf
  cases e with
  | tile g => exact recorded ..
  | ring g => exact recorded ..
  | rights => exact recorded ..
  | range => exact recorded ..
  | plate => exact recorded ..

/-- The transfer a requester presents now. -/
def State.presented (s : State) (r lane addr n : Nat) (write : Bool) (data : List Byte) : Xfer :=
  { req := r, lane := position r lane, addr := addr, n := n, write := write,
    data := if write then slice (s.writeData r (position r lane) data) 0 (64 * n) else [],
    since := s.now, starved := false, got := [], counted := 0, failed := false }

/-- R292, R293: a transfer of 1 to 4 bursts in one page of its channel, with all it is to write. -/
structure State.OneTransfer (s : State) (a r lane addr n : Nat) (write : Bool) (data : List Byte) : Prop where
  aligned : addr % 64 = 0
  least : 1 ≤ n
  most : n ≤ 4
  carried : write = true → 64 * n ≤ (s.writeData r (position r lane) data).length
  page : 2 ≤ a ∨ (addr / 4096 % 2 = a ∧ (addr + 64 * n - 1) / 4096 = addr / 4096)

section

variable {s : State} {a r lane addr n : Nat} {write : Bool} {data : List Byte}

/-- R292: what a requester with nothing in hand presents is checked, and answered as the check says. -/
theorem State.fabricRequest_presented (one : s.OneTransfer a r lane addr n write data) (free : (s.arb a).presents r (position r lane) = false) :
    s.fabricRequest a r lane addr n write data =
      let t := s.presented r lane addr n write data
      ((s.fabricCheck a r addr (64 * n) write).elim (s.setArb a { s.arb a with pend := (s.arb a).pend ++ [t] })
        fun e => (s.fabricRefuse r e).setArb a { s.arb a with done := (s.arb a).done ++ [{ t with failed := true }] }) := by
  obtain ⟨aligned, least, most, carried, page⟩ := one
  have ready : (!write || decide (64 * n ≤ (s.writeData r (position r lane) data).length)) = true := by simpa [imp_iff_not_or] using carried
  have paged : (decide (2 ≤ a) || decide (addr / 4096 % 2 = a) && decide ((addr + 64 * n - 1) / 4096 = addr / 4096)) = true := by
    simpa using page
  simp only [State.fabricRequest, aligned, least, most, ready, paged, free]
  cases s.fabricCheck a r addr (64 * n) write <;> rfl

/-- R307: what its requester has not yet read is not presented. -/
theorem State.fabricRequest_unread (short : (AMap.get (fun _ => []) s.mf.stage (16 * r + position r lane)).length < 64 * n) :
    s.fabricRequest a r lane addr n true [] = s := by
  have unready : ¬ 64 * n ≤ (s.writeData r (position r lane) []).length := Nat.not_le.2 short
  simp [State.fabricRequest, unready]

end

/-- The data given with a write are what it carries. -/
theorem State.writeData_given (s : State) (r lane : Nat) {data : List Byte} (given : 0 < data.length) : s.writeData r lane data = data := by
  simp [State.writeData, List.ne_nil_of_length_pos given]

/-! ## Completions -/

section

variable {s : State} {a r lane : Nat} {t : Xfer}

/-- R293, R299: a write or a refused transfer leaves the arbiter and nothing else changes. -/
theorem State.fabricDone_noRead (ended : ((s.arb a).done.find? fun t => t.isOf r (position r lane) && t.ended) = some t)
    (noRead : (t.write || t.failed) = true) :
    s.fabricDone a r lane = s.setArb a { s.arb a with done := (s.arb a).done.erase t, last := some t } := by
  have no : (!t.write && !t.failed) = false := by simpa [imp_iff_not_or] using noRead
  simp [State.fabricDone, ended, no]

/-- R299, R307: a read leaves the arbiter, and its data are in its requester's own buffer. -/
theorem State.fabricDone_read (ended : ((s.arb a).done.find? fun t => t.isOf r (position r lane) && t.ended) = some t)
    (read : (t.write || t.failed) = false) :
    s.fabricDone a r lane =
      let u := s.setArb a { s.arb a with done := (s.arb a).done.erase t, last := some { t with data := t.readData } }
      { u with mf := { u.mf with stage := AMap.set (fun _ => []) s.mf.stage (16 * r + position r lane) t.readData } } := by
  have yes : (!t.write && !t.failed) = true := by simpa using read
  simp [State.fabricDone, ended, yes, State.setArb]

/-- A requester with no ended transfer at the arbiter completes nothing. -/
theorem State.fabricDone_waits (waits : ((s.arb a).done.find? fun t => t.isOf r (position r lane) && t.ended) = none) :
    s.fabricDone a r lane = s := by
  simp only [State.fabricDone, waits]

end

/-- Settles O34: transfers of the memory fabric and their rights. What a write without data carries is staged as log entry 54 says. -/
theorem fabricTransfers : Obligations.FabricTransfers := by
  unfold Obligations.FabricTransfers
  refine ⟨⟨?request, ?unread, ?done, ?early, ?refused⟩, ?range, ?tile, ?plate, sramGranted_lineRing⟩
  case request =>
    intro s a r lane addr n write data out aligned least most page carried p free t
    have given (w : write = true) : s.writeData r.val (position r.val lane.val) data = data := s.writeData_given _ _ (by have := carried w; omega)
    have one : s.OneTransfer a.val r.val lane.val addr n write data :=
      ⟨aligned, least, most, fun w => by rw [given w, carried w], page⟩
    have same : s.presented r.val lane.val addr n write data = t := by
      cases write with
      | true => rw [State.presented, given rfl]; rfl
      | false => rfl
    refine State.next_act out ((State.fabricRequest_presented one free).trans ?_)
    rw [same]
    cases s.fabricCheck a.val r.val addr (64 * n) write <;> rfl
  case unread => exact fun s a r lane addr n out short => State.next_act out (State.fabricRequest_unread short)
  case done =>
    intro s a r lane t out p ended u
    refine State.next_act out ?_
    split
    case isTrue noRead => exact State.fabricDone_noRead ended noRead
    case isFalse read => exact State.fabricDone_read ended (Bool.not_eq_true _ ▸ read)
  case early => exact fun s a r lane out waits => State.next_act out (State.fabricDone_waits waits)
  case refused => exact fun s r e => ⟨(State.StreamKeeps.fabricRefuse s r e).dram, s.fabricRefuse_mf r e⟩
  case range => exact fun s a r addr len write channel beyond => State.fabricCheck_outside channel beyond r write
  case tile => exact fun s a r addr len k write channel within owner => State.fabricCheck_tile channel within owner
  case plate => exact fun s a r addr len k channel granted _ _ slot taken meets => (State.fabricCheck_plate channel granted slot taken meets).1

end Sys2Proof.Machine
end

section
/-! SUPPORT and PROOFS of O21: head ports and banks replaced, the entries of a composed line, shifts and LAT of a bank. -/

namespace Sys2Proof.Machine

/-! ## Ports and banks replaced -/

theorem mem_bankPorts {b p : Nat} : p ∈ bankPorts b ↔ p / 4 = b := by
  simp only [bankPorts, List.mem_map, List.mem_range]
  constructor
  · rintro ⟨q, small, rfl⟩
    omega
  · rintro rfl
    exact ⟨p % 4, by omega, by omega⟩

theorem bankPorts_nodup (b : Nat) : (bankPorts b).Nodup := by
  simp [bankPorts, List.range_succ]

theorem State.port_of_length_le {s : State} {p : Nat} (beyond : s.hp.ports.length ≤ p) : s.port p = HeadPort.reset := by
  simp [State.port, beyond]

theorem State.port_setPort_self {s : State} {p : Nat} (there : p < s.hp.ports.length) (q : HeadPort) : (s.setPort p q).port p = q := by
  simp [State.port, State.setPort, there]

theorem State.port_setPort_ne (s : State) {p r : Nat} (q : HeadPort) (other : r ≠ p) : (s.setPort p q).port r = s.port r := by
  simp [State.port, State.setPort, other.symm]

@[simp] theorem State.length_setPort (s : State) (p : Nat) (q : HeadPort) : (s.setPort p q).hp.ports.length = s.hp.ports.length :=
  List.length_set

@[simp] theorem State.port_setBank (s : State) (b : Nat) (k : BankState) (p : Nat) : (s.setBank b k).port p = s.port p := rfl

theorem State.banks_setBank (s : State) (b : Nat) (k : BankState) : (s.setBank b k).hp.banks = s.hp.banks.set b k := rfl

theorem State.length_setBank (s : State) (b : Nat) (k : BankState) : (s.setBank b k).hp.ports.length = s.hp.ports.length := rfl

/-- A bank replaced, then changed again. -/
theorem State.banks_setBank_update (s : State) (b : Nat) (k : BankState) (f : BankState → BankState) :
    (s.setBank b k).hp.banks.set b (f ((s.setBank b k).bank b)) = s.hp.banks.set b (f k) := by
  by_cases there : b < s.hp.banks.length
  · simp [State.setBank, State.bank, there]
  · have beyond : s.hp.banks.length ≤ b := by omega
    simp [State.setBank, List.set_eq_of_length_le beyond]

/-- An update of head ports, banks and registers at most, and of what follows from them: time, structure, web position, DRAM and
tests stay. -/
structure State.HeadStep (s t : State) : Prop where
  now : t.now = s.now
  si : t.si = s.si
  wp : t.wp = s.wp
  dram : t.dram = s.dram
  ts : t.ts = s.ts

theorem State.HeadStep.trans {s t u : State} (h : s.HeadStep t) (k : t.HeadStep u) : s.HeadStep u :=
  ⟨k.now.trans h.now, k.si.trans h.si, k.wp.trans h.wp, k.dram.trans h.dram, k.ts.trans h.ts⟩

/-- Such an update that leaves the registers alone as well. -/
structure State.HeadsOnly (s t : State) : Prop extends s.HeadStep t where
  regs : t.regs = s.regs

namespace State.HeadsOnly

variable {s t u : State}

theorem of_eq (regs : t.regs = s.regs) (now : t.now = s.now) (si : t.si = s.si) (wp : t.wp = s.wp) (dram : t.dram = s.dram)
    (ts : t.ts = s.ts) : s.HeadsOnly t := ⟨⟨now, si, wp, dram, ts⟩, regs⟩

theorem refl (s : State) : s.HeadsOnly s := of_eq rfl rfl rfl rfl rfl rfl

theorem trans (h : s.HeadsOnly t) (k : t.HeadsOnly u) : s.HeadsOnly u :=
  ⟨h.toHeadStep.trans k.toHeadStep, k.regs.trans h.regs⟩

theorem setPort (s : State) (p : Nat) (q : HeadPort) : s.HeadsOnly (s.setPort p q) := of_eq rfl rfl rfl rfl rfl rfl

theorem setBank (s : State) (b : Nat) (k : BankState) : s.HeadsOnly (s.setBank b k) := of_eq rfl rfl rfl rfl rfl rfl

end State.HeadsOnly

/-- Each of some ports replaced by what a function makes of it. -/
def State.eachPort (s : State) (ps : List Nat) (f : Nat → HeadPort → HeadPort) : State :=
  ps.foldl (fun s p => s.setPort p (f p (s.port p))) s

section
variable (s : State) (ps : List Nat) (f : Nat → HeadPort → HeadPort)

theorem State.HeadsOnly.eachPort : s.HeadsOnly (s.eachPort ps f) := by
  induction ps generalizing s with
  | nil => exact .refl s
  | cons p ps ih => exact (HeadsOnly.setPort s p _).trans (ih _)

/-- Beside the ports nothing of their block changes. -/
theorem State.hp_eachPort : (s.eachPort ps f).hp = { s.hp with ports := (s.eachPort ps f).hp.ports } := by
  induction ps generalizing s with
  | nil => rfl
  | cons p ps ih => exact ih (s.setPort p _)

@[simp] theorem State.banks_eachPort : (s.eachPort ps f).hp.banks = s.hp.banks := by rw [s.hp_eachPort]

@[simp] theorem State.bank_eachPort (b : Nat) : (s.eachPort ps f).bank b = s.bank b := by
  simp only [State.bank, State.banks_eachPort]

@[simp] theorem State.length_eachPort : (s.eachPort ps f).hp.ports.length = s.hp.ports.length := by
  induction ps generalizing s with
  | nil => rfl
  | cons p ps ih => exact (ih (s.setPort p _)).trans (s.length_setPort p _)

/-- Replacing ports takes no time: what the function makes of the time is made of the time before. -/
theorem State.foldl_setPort_now (g : Nat → Nat → HeadPort → HeadPort) :
    ps.foldl (fun s p => s.setPort p (g s.now p (s.port p))) s = s.eachPort ps (g s.now) := by
  induction ps generalizing s with
  | nil => rfl
  | cons p ps ih => exact ih (s.setPort p _)

theorem State.shiftTime_eachPort (b : Nat) : (s.eachPort ps f).shiftTime b = s.shiftTime b := by
  rw [State.shiftTime, (State.HeadsOnly.eachPort s ps f).si, State.shiftTime]

variable {ps} {p : Nat}

theorem State.port_eachPort_of_not_mem (out : p ∉ ps) : (s.eachPort ps f).port p = s.port p := by
  induction ps generalizing s with
  | nil => rfl
  | cons r ps ih =>
    obtain ⟨other, later⟩ := not_or.mp (mt List.mem_cons.mpr out)
    exact (ih (s.setPort r _) later).trans (s.port_setPort_ne _ other)

theorem State.port_eachPort_of_mem (distinct : ps.Nodup) (mem : p ∈ ps) (there : p < s.hp.ports.length) :
    (s.eachPort ps f).port p = f p (s.port p) := by
  induction ps generalizing s with
  | nil => exact absurd mem List.not_mem_nil
  | cons r ps ih =>
    obtain ⟨once, rest⟩ := List.nodup_cons.mp distinct
    rcases List.mem_cons.mp mem with rfl | later
    · exact ((s.setPort p _).port_eachPort_of_not_mem f once).trans (State.port_setPort_self there _)
    · have other : p ≠ r := fun same => once (same ▸ later)
      refine (ih (s.setPort r _) rest later (by simpa using there)).trans ?_
      rw [s.port_setPort_ne _ other]

/-- What the function gives every port, a port that does not exist has as its reset state has it. -/
theorem State.port_eachPort_has {P : HeadPort → Prop} (distinct : ps.Nodup) (mem : p ∈ ps) (reset : P HeadPort.reset)
    (given : ∀ q, P (f p q)) : P ((s.eachPort ps f).port p) := by
  by_cases there : p < s.hp.ports.length
  · rw [s.port_eachPort_of_mem f distinct mem there]
    exact given _
  · rw [State.port_of_length_le (by simpa using there)]
    exact reset

end

/-! ## Entries complete -/

/-- R162: the entries of a line in the FIFO of a port are complete. -/
def HeadPort.completed (q : HeadPort) (l : Nat) : HeadPort :=
  { q with fifo := q.fifo.map fun x => if x.line = l then { x with complete := true } else x }

theorem HeadPort.complete_completed (q : HeadPort) (l : Nat) : ∀ x ∈ (q.completed l).fifo, x.line = l → x.complete = true := by
  intro x mem line
  obtain ⟨y, -, rfl⟩ := List.mem_map.mp mem
  by_cases same : y.line = l
  · rw [if_pos same]
  · rw [if_neg same] at line
    exact absurd line same

theorem State.composeDone_busy {s : State} {e l m : Nat} (cycles : Nat) (composing : s.hp.composing = some (l, m))
    (busy : m.testBit e = true) :
    s.composeDone e cycles =
      let t := (s.raiseTo (Reg.HP_LEe e) F.HP_LEe_MAX_CYCLES cycles).eachPort (bankPorts e) fun _ q => q.completed l
      { t with hp := { t.hp with composing := if m - 2 ^ e = 0 then none else some (l, m - 2 ^ e) } } := by
  simp only [State.composeDone, composing, busy]
  rfl

/-! ## The deadline of composition -/

/-- Counters advanced reach registers alone. -/
theorem State.foldl_bump (a : Nat → Nat) (f : BitField) (es : List Nat) (s : State) :
    ∃ r, es.foldl (fun s e => s.bump (a e) f) s = { s with regs := r } := by
  induction es generalizing s with
  | nil => exact ⟨s.regs, rfl⟩
  | cons e es ih =>
    obtain ⟨r, rest⟩ := ih (s.bump (a e) f)
    exact ⟨r, rest⟩

section
variable {s : State} {t c : Nat} (mode : s.mode = .print) (tick : s.wp.lastTick = some t) (tickAt : s.wp.tickAt = some c)
  (passed : c + 100 ≤ s.now) (next : t = s.wp.hwm) (released : s.wp.pinLow = false) (incomplete : s.composeReady (t + 1) = false)
  (first : (t + 1, false) ∉ s.js.lead)
include mode tick tickAt passed next released incomplete first

/-- R16: the next line to fire, not composed 100 ns after the tick before it, is late. -/
theorem State.composeDeadline_late : ∃ r, s.composeDeadline =
    ({ s with regs := r, js := { s.js with lead := (s.js.lead.filter fun x => x.1 ≠ t + 1) ++ [(t + 1, false)] } }, some (t + 1)) := by
  unfold State.composeDeadline
  simp only [tick, tickAt]
  rw [if_pos (by simp [mode, passed, ← next, released, incomplete, first])]
  obtain ⟨r, counted⟩ := State.foldl_bump Reg.HP_LEe F.HP_LEe_LATE _ s
  rw [counted]
  exact ⟨r, rfl⟩

/-- R16, R97: with BACKUP the press is held for the late line. -/
theorem State.deadline_late :
    (t + 1, false) ∈ s.deadline.js.lead ∧ s.deadline.wp.hwm = s.wp.hwm ∧ s.deadline.wp.pinLow = s.si.limits.backup ∧
      (s.si.limits.backup = true → s.deadline.wp.holdLine = t + 1) ∧ s.deadline.hp = s.hp ∧ s.deadline.dram = s.dram := by
  obtain ⟨r, late⟩ := State.composeDeadline_late mode tick tickAt passed next released incomplete first
  unfold State.deadline
  rw [late]
  cases s.si.limits.backup <;> simp [released, State.pressHold]

end

/-! ## Shifts -/

theorem State.beginShift_eq (s : State) (b : Nat) (kind : FrameKind) (sent : Nat → Option FifoEntry) :
    s.beginShift b kind sent = (s.eachPort (bankPorts b) fun p q => { q with shifted := sent p }).setBank b
      { s.bank b with shifting := some (kind, s.now + s.shiftTime b) } := by
  have begun (t : State) (moved : t = s.eachPort (bankPorts b) fun p q => { q with shifted := sent p }) :
      t.setBank b { t.bank b with shifting := some (kind, t.now + t.shiftTime b) } =
        (s.eachPort (bankPorts b) fun p q => { q with shifted := sent p }).setBank b
          { s.bank b with shifting := some (kind, s.now + s.shiftTime b) } := by
    rw [moved, State.bank_eachPort, State.shiftTime_eachPort, (State.HeadsOnly.eachPort s _ _).now]
  exact begun _ rfl

theorem State.HeadsOnly.beginShift (s : State) (b : Nat) (kind : FrameKind) (sent : Nat → Option FifoEntry) :
    s.HeadsOnly (s.beginShift b kind sent) := by
  rw [State.beginShift_eq]
  exact (HeadsOnly.eachPort s _ _).trans (HeadsOnly.setBank _ b _)

theorem State.banks_beginShift (s : State) (b : Nat) (kind : FrameKind) (sent : Nat → Option FifoEntry) :
    (s.beginShift b kind sent).hp.banks = s.hp.banks.set b { s.bank b with shifting := some (kind, s.now + s.shiftTime b) } := by
  rw [State.beginShift_eq, State.banks_setBank, State.banks_eachPort]

theorem State.port_beginShift (s : State) {b p : Nat} (kind : FrameKind) (sent : Nat → Option FifoEntry) (mem : p ∈ bankPorts b)
    (there : p < s.hp.ports.length) : (s.beginShift b kind sent).port p = { s.port p with shifted := sent p } := by
  rw [State.beginShift_eq, State.port_setBank, s.port_eachPort_of_mem _ (bankPorts_nodup b) mem there]

theorem State.length_beginShift (s : State) (b : Nat) (kind : FrameKind) (sent : Nat → Option FifoEntry) :
    (s.beginShift b kind sent).hp.ports.length = s.hp.ports.length := by
  rw [State.beginShift_eq, State.length_setBank, State.length_eachPort]

theorem State.bankOn_subset {s : State} {l b p : Nat} (mem : p ∈ s.bankOn l b) : p ∈ bankPorts b := List.mem_of_mem_filter mem

theorem State.shiftConfig_eq (s : State) (b : Nat) :
    s.shiftConfig b =
      (s.beginShift b .config fun p => if (s.configDue b).contains p then some (s.configFrame p) else none).eachPort (s.configDue b)
        fun _ q => { q with cfgDue := false, identReq := false } := rfl

theorem State.HeadsOnly.shiftConfig (s : State) (b : Nat) : s.HeadsOnly (s.shiftConfig b) := by
  rw [State.shiftConfig_eq]
  exact (State.HeadsOnly.beginShift ..).trans (State.HeadsOnly.eachPort ..)

theorem State.banks_shiftConfig (s : State) (b : Nat) :
    (s.shiftConfig b).hp.banks = s.hp.banks.set b { s.bank b with shifting := some (.config, s.now + s.shiftTime b) } := by
  rw [State.shiftConfig_eq, State.banks_eachPort, State.banks_beginShift]

theorem State.cfgDue_shiftConfig {s : State} {b p : Nat} (mem : p ∈ s.configDue b) (there : p < s.hp.ports.length) :
    ((s.shiftConfig b).port p).cfgDue = false := by
  have distinct : (s.configDue b).Nodup := (bankPorts_nodup b).filter _
  rw [State.shiftConfig_eq, State.port_eachPort_of_mem _ _ distinct mem (by rwa [State.length_beginShift])]

section
variable {s : State} {b : Nat} (idle : (s.bank b).shifting = none) (heads : (s.bank b).waiting = none) (live : s.witRole ≠ 2)
include idle heads live

theorem State.frameShift_line {l : Nat} (mode : s.mode = .print) (gap : s.shiftGap b = true) (next : s.nextFrame b = some l)
    (complete : ∀ p ∈ s.bankOn l b, ∃ e ∈ (s.port p).fifo, e.line = l ∧ e.complete = true) :
    s.frameShift b = s.beginShift b (.line l) fun p =>
      if (s.bankOn l b).contains p && (s.port p).st = .ready && (s.port p).cfgOk then (s.port p).fifo.find? fun e => e.line = l
      else none := by
  have ready : ((s.bankOn l b).all fun p => (s.port p).fifo.any fun e => e.line = l && e.complete) = true := by
    simpa [List.all_eq_true, List.any_eq_true] using complete
  simp [State.frameShift, State.shiftsLines, State.shiftLine, idle, heads, live, mode, gap, next, ready]

theorem State.frameShift_config (mode : s.mode = .idle ∨ s.mode = .warm ∨ s.mode = .service) (due : s.configDue b ≠ []) :
    s.frameShift b = s.shiftConfig b := by
  have outside : (s.mode = .idle || s.mode = .warm || s.mode = .service) = true := by simpa [or_assoc] using mode
  simp [State.frameShift, idle, heads, live, outside, due]

end

/-! ## The end of a shift -/

/-- R162, R165: the frame of a line waits in the heads, and its entries are freed. -/
def State.freed (s : State) (b l e : Nat) : State :=
  (s.setBank b { s.bank b with shifting := none, waiting := some (.line l, e) }).eachPort (bankPorts b) fun _ q =>
    { q with fifo := q.fifo.filter fun x => x.line ≠ l }

theorem State.shiftComplete_line {s : State} {b l e : Nat} (shifting : (s.bank b).shifting = some (.line l, e)) (ended : e ≤ s.now) :
    s.shiftComplete b = s.freed b l e := by
  simp only [State.shiftComplete, shifting, Nat.not_lt.mpr ended]
  rfl

/-! ## LAT -/

/-- R164: LAT of a line moves what was shifted to the fire latch, and the head owes a STATUS of it. -/
def HeadPort.latchedAt (q : HeadPort) (line now : Nat) : HeadPort :=
  { q with latched := q.shifted, shifted := none,
           lats := q.lats ++ q.shifted.toList.map fun e => ⟨false, some line, e.header.testBit 30, now⟩ }

theorem State.lat_line (s : State) (b l tick : Nat) :
    s.lat b (some (l, tick)) false = (s.eachPort (bankPorts b) fun _ q => q.latchedAt l s.now).setBank b
      { s.bank b with waiting := none, latAt := some s.now, latLine := some l, latTick := some tick } := by
  have owed (t : State) (moved : t = s.eachPort (bankPorts b) fun _ q => q.latchedAt l s.now) :
      t.setBank b { t.bank b with waiting := none, latAt := some t.now, latLine := some l, latTick := some tick } =
        (s.eachPort (bankPorts b) fun _ q => q.latchedAt l s.now).setBank b
          { s.bank b with waiting := none, latAt := some s.now, latLine := some l, latTick := some tick } := by
    rw [moved, State.bank_eachPort, (State.HeadsOnly.eachPort s _ _).now]
  exact owed _ (s.foldl_setPort_now (bankPorts b) fun now _ q => q.latchedAt l now)

section
variable {s : State} {b l e t : Nat} (waiting : (s.bank b).waiting = some (.line l, e)) (tick : s.lineTick b l = some t)
include waiting tick

theorem State.latIssue_line : s.latIssue b =
    if s.bankBegun b && max (max (t + 40) (e + 20)) (s.bankEnd b + 20) ≤ s.now then s.lat b (some (l, t)) false else s := by
  simp [State.latIssue, waiting, tick]

theorem State.latIssue_due (begun : s.bankBegun b = true) (afterTick : t + 40 ≤ s.now) (afterShift : e + 20 ≤ s.now)
    (afterPulse : s.bankEnd b + 20 ≤ s.now) : s.latIssue b = s.lat b (some (l, t)) false := by
  have due : max (max (t + 40) (e + 20)) (s.bankEnd b + 20) ≤ s.now := by omega
  rw [State.latIssue_line waiting tick, if_pos (by rw [begun, decide_eq_true due]; rfl)]

theorem State.latIssue_early (early : s.now < max (max (t + 40) (e + 20)) (s.bankEnd b + 20)) : s.latIssue b = s := by
  have ahead : ¬ max (max (t + 40) (e + 20)) (s.bankEnd b + 20) ≤ s.now := by omega
  rw [State.latIssue_line waiting tick, if_neg (by rw [decide_eq_false ahead, Bool.and_false]; exact Bool.false_ne_true)]

end

/-- Settles O21: what each command of the print path leaves of the ports of its bank. -/
theorem linesReachTheHeads : Obligations.LinesReachTheHeads := by
  unfold Obligations.LinesReachTheHeads
  refine ⟨?composed, ?late, ?line, ?config, ?freed, ?latched, ?early⟩
  case composed =>
    intro s e cycles l m out composing busy
    have heads := State.HeadsOnly.eachPort (s.raiseTo (Reg.HP_LEe e.val) F.HP_LEe_MAX_CYCLES cycles) (bankPorts e.val)
      fun _ q => q.completed l
    refine ⟨_, State.next_act out (State.composeDone_busy cycles composing busy), ?_, ?_, ?_, ?_, heads.wp, heads.dram⟩
    · have least : 2 ^ e.val ≤ m := Nat.ge_two_pow_of_testBit busy
      simp only [show m - 2 ^ e.val = 0 ↔ m = 2 ^ e.val by omega]
    · exact State.banks_eachPort ..
    · intro q small
      exact State.port_eachPort_has _ _ (P := fun q => ∀ x ∈ q.fifo, x.line = l → x.complete = true) (bankPorts_nodup e.val)
        (mem_bankPorts.mpr (by omega)) (fun x mem => absurd mem List.not_mem_nil) fun q => q.complete_completed l
    · exact fun p apart => State.port_eachPort_of_not_mem _ _ (mt mem_bankPorts.mp apart)
  case late =>
    intro s t c out mode tick tickAt passed next released incomplete first
    exact ⟨_, State.next_act out rfl, State.deadline_late mode tick tickAt passed next released incomplete first⟩
  case line =>
    intro s b l out mode idle heads live gap next complete
    have begun := State.HeadsOnly.beginShift s b.val (.line l)
    refine ⟨_, State.next_act out (State.frameShift_line idle heads live mode gap next complete), s.banks_beginShift b.val _ _, ?_,
      (begun _).regs, (begun _).wp, (begun _).dram⟩
    intro p on there
    rw [s.port_beginShift _ _ (State.bankOn_subset on) there, List.contains_iff_mem.mpr on, Bool.true_and]
  case config =>
    intro s b out mode idle heads live due
    have sent := State.HeadsOnly.shiftConfig s b.val
    exact ⟨_, State.next_act out (State.frameShift_config idle heads live mode due), s.banks_shiftConfig b.val,
      fun p => State.cfgDue_shiftConfig, sent.regs, sent.dram⟩
  case freed =>
    intro s b l e out shifting ended
    have heads : s.HeadsOnly (s.freed b.val l e) := (State.HeadsOnly.setBank ..).trans (State.HeadsOnly.eachPort ..)
    refine ⟨_, State.next_act out (State.shiftComplete_line shifting ended), State.banks_eachPort .., ?_, ?_, heads.regs, heads.dram⟩
    · intro p mem
      exact State.port_eachPort_has _ _ (P := fun q => ∀ x ∈ q.fifo, x.line ≠ l) (bankPorts_nodup b.val) mem
        (fun x mem => absurd mem List.not_mem_nil) (by simp)
    · exact fun p apart => State.port_eachPort_of_not_mem _ _ apart
  case latched =>
    intro s b l e t out waiting tick begun afterTick afterShift afterPulse
    have heads : s.HeadsOnly (s.lat b.val (some (l, t)) false) := State.lat_line s b.val l t ▸
      (State.HeadsOnly.eachPort ..).trans (State.HeadsOnly.setBank ..)
    refine ⟨_, State.next_act out (State.latIssue_due waiting tick begun afterTick afterShift afterPulse),
      ?_, ?_, ?_, heads.regs, heads.dram⟩
    · rw [State.lat_line, State.banks_setBank, State.banks_eachPort]
    · intro p mem there
      rw [State.lat_line, State.port_setBank, s.port_eachPort_of_mem _ (bankPorts_nodup b.val) mem there]
      exact ⟨rfl, rfl⟩
    · intro p apart
      rw [State.lat_line, State.port_setBank, s.port_eachPort_of_not_mem _ apart]
  case early => exact fun s b l e t out waiting tick early => State.next_act out (State.latIssue_early waiting tick early)

end Sys2Proof.Machine
end

section
/-! PROOFS of O23, first part: frames of warming and spit lines, the decap timer, and gate inputs. -/

namespace Sys2Proof.Machine

/-! ## Updates that leave the head ports alone -/

/-- An update that leaves the head ports with their banks and gate inputs alone, and what a head step leaves. -/
structure State.HeadsKept (s t : State) : Prop extends s.HeadStep t where
  hp : t.hp = s.hp

namespace State.HeadsKept

variable {s t u : State}

theorem of_eq (hp : t.hp = s.hp) (now : t.now = s.now) (si : t.si = s.si) (wp : t.wp = s.wp) (dram : t.dram = s.dram)
    (ts : t.ts = s.ts) : s.HeadsKept t := ⟨⟨now, si, wp, dram, ts⟩, hp⟩

theorem refl (s : State) : s.HeadsKept s := of_eq rfl rfl rfl rfl rfl rfl

theorem trans (h : s.HeadsKept t) (k : t.HeadsKept u) : s.HeadsKept u := ⟨h.toHeadStep.trans k.toHeadStep, k.hp.trans h.hp⟩

theorem ite {c : Prop} [Decidable c] (ht : s.HeadsKept t) (hu : s.HeadsKept u) : s.HeadsKept (if c then t else u) := by
  split
  · exact ht
  · exact hu

theorem foldl {α : Type} {f : State → α → State} (h : ∀ s x, State.HeadsKept s (f s x)) (l : List α) (s : State) :
    s.HeadsKept (l.foldl f s) := by
  induction l generalizing s with
  | nil => exact refl s
  | cons x l ih => exact (h s x).trans (ih _)

theorem of_raiseKeeps (h : RaiseKeeps s t) : s.HeadsKept t := of_eq h.hp h.now h.si h.wp h.dram h.ts

theorem setFld (s : State) (a : Nat) (f : BitField) (v : Nat) : s.HeadsKept (s.setFld a f v) := of_eq rfl rfl rfl rfl rfl rfl

/-- A flag set and its event raised. -/
theorem flagRaise (s : State) (a : Nat) (f : BitField) (id unit : Nat) : s.HeadsKept ((s.flag a f).raise id unit) :=
  (setFld s a f 1).trans (of_raiseKeeps (State.raise_keeps _ id unit))

theorem port (h : s.HeadsKept t) (p : Nat) : t.port p = s.port p := by simp only [State.port, h.hp]

theorem bank (h : s.HeadsKept t) (b : Nat) : t.bank b = s.bank b := by simp only [State.bank, h.hp]

end State.HeadsKept

/-! ## Frames outside PRINT -/

theorem State.shiftExtra_eq (s : State) (b : Nat) (kind : FrameKind) (on : Nat → Bool) (es : List FifoEntry) :
    s.shiftExtra b kind on es = (s.beginShift b kind fun p => if on p then es[p % 4]? else none).setBank b
      { (s.beginShift b kind fun p => if on p then es[p % 4]? else none).bank b with par :=
          !((s.beginShift b kind fun p => if on p then es[p % 4]? else none).bank b).par } := rfl

/-- R166: a warming or spit frame shifts on its bank, and PAR alternates. -/
theorem State.banks_shiftExtra (s : State) (b : Nat) (kind : FrameKind) (on : Nat → Bool) (es : List FifoEntry) :
    (s.shiftExtra b kind on es).hp.banks = s.hp.banks.set b
      { s.bank b with shifting := some (kind, s.now + s.shiftTime b), par := !(s.bank b).par } := by
  rw [State.shiftExtra_eq, State.banks_setBank, State.beginShift_eq]
  refine (State.banks_setBank_update _ b _ fun k => { k with par := !k.par }).trans ?_
  rw [State.banks_eachPort]

theorem State.HeadsOnly.shiftExtra (s : State) (b : Nat) (kind : FrameKind) (on : Nat → Bool) (es : List FifoEntry) :
    s.HeadsOnly (s.shiftExtra b kind on es) := by
  rw [State.shiftExtra_eq]
  exact (State.HeadsOnly.beginShift ..).trans (State.HeadsOnly.setBank ..)

theorem State.port_shiftExtra (s : State) {b p : Nat} (kind : FrameKind) (on : Nat → Bool) (es : List FifoEntry)
    (mem : p ∈ bankPorts b) (there : p < s.hp.ports.length) :
    (s.shiftExtra b kind on es).port p = { s.port p with shifted := if on p then es[p % 4]? else none } := by
  rw [State.shiftExtra_eq, State.port_setBank, s.port_beginShift _ _ mem there]

theorem State.length_shiftExtra (s : State) (b : Nat) (kind : FrameKind) (on : Nat → Bool) (es : List FifoEntry) :
    (s.shiftExtra b kind on es).hp.ports.length = s.hp.ports.length := by
  rw [State.shiftExtra_eq, State.length_setBank, State.length_beginShift]

/-! ## Warming lines -/

section
variable {s : State} {b : Nat}

/-- R195, R196: a warming line due on a free bank shifts a frame of no drops; the generator has taken the time. -/
theorem State.warmingLine_due (rate : min 50000 (s.fld (Reg.FE_BANKb_WARM b) F.FE_BANKb_WARM_HZ) ≠ 0) (free : s.bankFree b = true)
    (due : 1000000000 / min 50000 (s.fld (Reg.FE_BANKb_WARM b) F.FE_BANKb_WARM_HZ) ≤ s.now - (s.bank b).warmAt)
    (noSpit : ∀ p ∈ bankPorts b, s.spitDue p = false)
    (warms : ∃ p ∈ bankPorts b, s.extraPort p = true ∧ s.fld (Reg.FE_Pp_WARM p) F.FE_Pp_WARM_WIDTH ≠ 0 ∧
      ∃ t, s.waveAt (s.wp.hwm + 1) p = some t ∧ (t.slots t.activeSet).any WSlot.warm = true) :
    ∃ on es, s.warmingLine b = (s.setBank b { s.bank b with warmAt := s.now }).shiftExtra b .warming on es := by
  obtain ⟨p, mem, takes, width, t, wave, warm⟩ := warms
  unfold State.warmingLine
  extract_lets hz l on r
  have some' : (bankPorts b).any on = true := List.any_eq_true.mpr ⟨p, mem, by simp [on, l, takes, width, wave, warm]⟩
  have quiet : (bankPorts b).any s.spitDue = false := List.any_eq_false.mpr fun p mem => by simp [noSpit p mem]
  rw [if_neg (by simp [hz, rate, free, Nat.not_lt.mpr due, quiet, some'])]
  exact ⟨_, _, rfl⟩

/-- The frame of a warming line on its bank. -/
theorem State.banks_warming (s : State) (b : Nat) (on : Nat → Bool) (es : List FifoEntry) :
    ((s.setBank b { s.bank b with warmAt := s.now }).shiftExtra b .warming on es).hp.banks = s.hp.banks.set b
      { s.bank b with warmAt := s.now, shifting := some (.warming, s.now + s.shiftTime b), par := !(s.bank b).par } := by
  rw [State.banks_shiftExtra]
  exact s.banks_setBank_update b _ fun k => { k with shifting := some (.warming, s.now + s.shiftTime b), par := !k.par }

end

/-! ## Spit lines -/

theorem State.HeadsKept.bankCount (s : State) (l b : Nat) (blank : Bool) (loads : List Nat) (deferred : Nat) :
    s.HeadsKept (s.bankCount l b blank loads deferred) := by
  unfold State.bankCount
  extract_lets t u
  have counted : s.HeadsKept u := (setFld ..).trans (setFld ..)
  exact ite ((counted.trans (setFld ..)).trans (flagRaise ..)) counted

theorem State.HeadsKept.spitFrame (s : State) (p : Nat) (vals : List Nat) : s.HeadsKept (s.spitFrame p vals).2.2 :=
  HeadsKept.bankCount ..

/-- R215: a spit line of a port composed, with what is left of its profile, shifts on its bank. -/
def State.spitShifted (s : State) (p k left : Nat) (blank : Bool) (es : List FifoEntry) : State :=
  (s.setPort p { s.port p with spit := some (k, left), spitM := (s.port p).spitM + 1, spitAt := s.now,
                               spitBlank := (s.port p).spitBlank || blank }).shiftExtra (p / 4) .spit (fun x => x = p) es

theorem State.spitLine_due {s : State} {p k left : Nat} (spit : (s.port p).spit = some (k, left + 1)) (free : s.bankFree (p / 4) = true)
    (due : s.spitDue p = true) :
    let r := s.spitFrame p (s.spitValues k (s.port p).spitM)
    s.spitLine p = if left = 0 then (r.2.2.spitShifted p k left r.2.1 r.1).spitEnd p else r.2.2.spitShifted p k left r.2.1 r.1 := by
  simp only [State.spitLine, spit, free, due, Bool.not_true, Bool.or_self, Bool.false_eq_true, if_false]
  rfl

section
variable (s : State) {p : Nat} (k left : Nat) (blank : Bool) (es : List FifoEntry)

theorem State.HeadsOnly.spitShifted : s.HeadsOnly (s.spitShifted p k left blank es) :=
  (State.HeadsOnly.setPort s p _).trans (State.HeadsOnly.shiftExtra ..)

theorem State.banks_spitShifted : (s.spitShifted p k left blank es).hp.banks = s.hp.banks.set (p / 4)
    { s.bank (p / 4) with shifting := some (.spit, s.now + s.shiftTime (p / 4)), par := !(s.bank (p / 4)).par } :=
  State.banks_shiftExtra ..

theorem State.length_spitShifted : (s.spitShifted p k left blank es).hp.ports.length = s.hp.ports.length :=
  (State.length_shiftExtra ..).trans (s.length_setPort p _)

theorem State.port_spitShifted (there : p < s.hp.ports.length) : ∃ sent, (s.spitShifted p k left blank es).port p =
    { s.port p with spit := some (k, left), spitM := (s.port p).spitM + 1, spitAt := s.now,
                    spitBlank := (s.port p).spitBlank || blank, shifted := sent } := by
  rw [State.spitShifted, State.port_shiftExtra _ _ _ _ (mem_bankPorts.mpr rfl) (by simpa using there), State.port_setPort_self there]
  exact ⟨_, rfl⟩

end

theorem State.HeadsOnly.spitEnd (s : State) (p : Nat) : s.HeadsOnly (s.spitEnd p) := State.HeadsOnly.setPort s p _

theorem State.port_spitEnd {s : State} {p : Nat} (there : p < s.hp.ports.length) :
    ((s.spitEnd p).port p).spit = none ∧ ((s.spitEnd p).port p).spitAt = (s.port p).spitAt := by
  rw [State.spitEnd, State.port_setPort_self there]
  exact ⟨rfl, rfl⟩

/-- R215: what a spit line leaves of its port and its bank. -/
theorem State.spitLine_shifts {s : State} {p k left : Nat} (spit : (s.port p).spit = some (k, left + 1))
    (free : s.bankFree (p / 4) = true) (due : s.spitDue p = true) (there : p < s.hp.ports.length) :
    s.HeadStep (s.spitLine p) ∧
    (s.spitLine p).hp.banks = s.hp.banks.set (p / 4)
      { s.bank (p / 4) with shifting := some (.spit, s.now + s.shiftTime (p / 4)), par := !(s.bank (p / 4)).par } ∧
    ((s.spitLine p).port p).spit = (if left = 0 then none else some (k, left)) ∧ ((s.spitLine p).port p).spitAt = s.now := by
  rw [State.spitLine_due spit free due]
  generalize composed : s.spitFrame p (s.spitValues k (s.port p).spitM) = r
  have kept : s.HeadsKept r.2.2 := composed ▸ State.HeadsKept.spitFrame ..
  have there' : p < r.2.2.hp.ports.length := by rwa [kept.hp]
  have step := kept.toHeadStep.trans (State.HeadsOnly.spitShifted r.2.2 (p := p) k left r.2.1 r.1).toHeadStep
  have banks := r.2.2.banks_spitShifted (p := p) k left r.2.1 r.1
  rw [kept.bank, kept.hp, kept.now, State.shiftTime, kept.si] at banks
  obtain ⟨sent, port⟩ := r.2.2.port_spitShifted k left r.2.1 r.1 there'
  have length := r.2.2.length_spitShifted (p := p) k left r.2.1 r.1
  generalize r.2.2.spitShifted p k left r.2.1 r.1 = u at step banks port length
  have spitAt : (u.port p).spitAt = s.now := by rw [port, kept.now]
  split
  · have ended := State.port_spitEnd (s := u) (p := p) (by rwa [length])
    exact ⟨step.trans (State.HeadsOnly.spitEnd u p).toHeadStep, banks, ended.1, ended.2.trans spitAt⟩
  · exact ⟨step, banks, by rw [port], spitAt⟩

/-! ## The decap timer -/

section
variable {s : State} {p : Nat} (armed : s.fld (Reg.NH_Pp_CFG p) F.NH_Pp_CFG_DECAP_MS ≠ 0)
  (expired : s.fld (Reg.NH_Pp_CFG p) F.NH_Pp_CFG_DECAP_MS * 1000000 ≤ s.now - (s.port p).decapAt)
include armed expired

theorem State.decapExpire_expired : s.decapExpire p =
    if s.isSet Reg.NH_CFG F.NH_CFG_AUTO_SPIT && (s.mode = .service || (s.mode = .warm && s.isSet Reg.NH_CFG F.NH_CFG_WARM_SPIT)) then
      s.startSpit p 0
    else ((s.flag (Reg.NH_Pp_STAT p) F.NH_Pp_STAT_DECAP_DUE).flag Reg.NH_STAT F.NH_STAT_DECAP_DUE).raise Ev.DECAP_DUE (portH p) :=
  if_neg (by simp [armed, Nat.not_lt.mpr expired])

theorem State.decapExpire_auto (auto : s.isSet Reg.NH_CFG F.NH_CFG_AUTO_SPIT = true)
    (mode : s.mode = .service ∨ (s.mode = .warm ∧ s.isSet Reg.NH_CFG F.NH_CFG_WARM_SPIT = true)) :
    s.decapExpire p = s.startSpit p 0 := by
  rw [State.decapExpire_expired armed expired, if_pos (by simpa [auto] using mode)]

theorem State.decapExpire_manual (manual : s.isSet Reg.NH_CFG F.NH_CFG_AUTO_SPIT = false) : s.decapExpire p =
    ((s.flag (Reg.NH_Pp_STAT p) F.NH_Pp_STAT_DECAP_DUE).flag Reg.NH_STAT F.NH_STAT_DECAP_DUE).raise Ev.DECAP_DUE (portH p) := by
  rw [State.decapExpire_expired armed expired, if_neg (by simp [manual])]

end

/-! ## Commands of HP_CTRL -/

theorem State.hpCtrl_cfgSend (s : State) {d : Word} (send : F.HP_CTRL_CFG_SEND.get d = 1) (clear : F.HP_CTRL_GATE_CLEAR.get d = 0) :
    s.hpCtrl d = s.cfgSend := by simp [State.hpCtrl, send, clear]

theorem State.hpCtrl_gateClear (s : State) {d : Word} (send : F.HP_CTRL_CFG_SEND.get d = 0) (clear : F.HP_CTRL_GATE_CLEAR.get d = 1) :
    s.hpCtrl d = s.gateClear := by simp [State.hpCtrl, send, clear]

section
variable {s : State} {m : Master} (takes : s.takes m Reg.HP_CTRL) (w : Word)
include takes

theorem State.act_hpCtrl (d : Word) :
    s.act (·.busWrite m.val Reg.HP_CTRL d) = s.wrote (s.hpCtrl (regMask Reg.HP_CTRL d)) m :=
  State.act_busWrite_of_takes s m Reg.HP_CTRL d takes (by decide) (by decide)

theorem exec_cfgSend : exec (.cfgSend m w) s = .next (s.wrote s.cfgSend m) := by
  have send : F.HP_CTRL_CFG_SEND.get (cmdWord Reg.HP_CTRL w [(F.HP_CTRL_CFG_SEND, 1), (F.HP_CTRL_GATE_CLEAR, 0)]) = 1 :=
    get_cmdWord_first (by decide) w 1 0 (by decide) (by decide) (by decide) (by decide) (by decide)
  have clear : F.HP_CTRL_GATE_CLEAR.get (cmdWord Reg.HP_CTRL w [(F.HP_CTRL_CFG_SEND, 1), (F.HP_CTRL_GATE_CLEAR, 0)]) = 0 :=
    get_cmdWord_second (by decide) w _ 1 0 (by decide) (by decide)
  exact congrArg Host.Outcome.next ((State.act_hpCtrl takes _).trans (congrArg (s.wrote · m) (s.hpCtrl_cfgSend send clear)))

theorem exec_gateClear : exec (.gateClear m w) s = .next (s.wrote s.gateClear m) := by
  have clear : F.HP_CTRL_GATE_CLEAR.get (cmdWord Reg.HP_CTRL w [(F.HP_CTRL_GATE_CLEAR, 1), (F.HP_CTRL_CFG_SEND, 0)]) = 1 :=
    get_cmdWord_first (by decide) w 1 0 (by decide) (by decide) (by decide) (by decide) (by decide)
  have send : F.HP_CTRL_CFG_SEND.get (cmdWord Reg.HP_CTRL w [(F.HP_CTRL_GATE_CLEAR, 1), (F.HP_CTRL_CFG_SEND, 0)]) = 0 :=
    get_cmdWord_second (by decide) w _ 1 0 (by decide) (by decide)
  exact congrArg Host.Outcome.next ((State.act_hpCtrl takes _).trans (congrArg (s.wrote · m) (s.hpCtrl_gateClear send clear)))

end

/-! ## Outcomes of lines -/

theorem State.HeadsKept.outcome (s : State) (l p code : Nat) (flag : Option Nat) (final : Bool) :
    s.HeadsKept (s.outcome l p code flag final) := by
  unfold State.outcome
  extract_lets b declined s₁ s₂ s₃ unfired
  have bar : s.HeadsKept s₁ := of_eq rfl rfl rfl rfl rfl rfl
  have spans : s₁.HeadsKept s₂ := ite (of_eq rfl rfl rfl rfl rfl rfl) (ite (of_eq rfl rfl rfl rfl rfl rfl) (refl _))
  have lines : s₂.HeadsKept s₃ := by cases flag <;> exact of_eq rfl rfl rfl rfl rfl rfl
  exact bar.trans (spans.trans (lines.trans (ite (of_raiseKeeps (s₃.countUp_keeps ..)) (refl _))))

/-! ## Gate inputs -/

/-- A bit that is set taken away is that bit put to 0. -/
theorem sub_two_pow_eq_setBits {v g : Nat} (set : v.testBit g = true) : v - 2 ^ g = setBits v g g 0 := by
  have odd : v / 2 ^ g % 2 = 1 := by simpa [Nat.testBit_eq_decide_div_mod_eq] using set
  have half : v / 2 ^ (g + 1) = v / 2 ^ g / 2 := by rw [pow_succ, Nat.div_div_eq_div_mul]
  have whole : v / 2 ^ g = 2 * (v / 2 ^ g / 2) + 1 := by omega
  have parts : v = v / 2 ^ g / 2 * 2 ^ (g + 1) + 2 ^ g + v % 2 ^ g := by
    calc v = 2 ^ g * (v / 2 ^ g) + v % 2 ^ g := (Nat.div_add_mod v (2 ^ g)).symm
      _ = 2 ^ g * (2 * (v / 2 ^ g / 2) + 1) + v % 2 ^ g := by rw [← whole]
      _ = v / 2 ^ g / 2 * 2 ^ (g + 1) + 2 ^ g + v % 2 ^ g := by ring
  simp only [setBits, Nat.shiftRight_eq_div_pow, Nat.shiftLeft_eq, half, Nat.zero_mod, Nat.zero_mul, Nat.add_zero]
  omega

theorem testBit_sub_two_pow_self {v g : Nat} (set : v.testBit g = true) : (v - 2 ^ g).testBit g = false := by
  have cleared : bits (v - 2 ^ g) g g = 0 := by rw [sub_two_pow_eq_setBits set, bits_setBits_same _ _ _ _ (le_refl g), Nat.zero_mod]
  simpa [bits, Nat.testBit_eq_decide_div_mod_eq, Nat.shiftRight_eq_div_pow] using cleared

theorem testBit_sub_two_pow_ne {v g j : Nat} (set : v.testBit g = true) (other : j ≠ g) : (v - 2 ^ g).testBit j = v.testBit j := by
  rw [sub_two_pow_eq_setBits set, testBit_setBits _ _ _ _ _ (le_refl g) (by omega)]

theorem or_two_pow_of_testBit {v g : Nat} (set : v.testBit g = true) : v ||| 2 ^ g = v := by
  refine Nat.eq_of_testBit_eq fun j => ?_
  rw [Nat.testBit_or, Nat.testBit_two_pow]
  by_cases same : g = j
  · simp [← same, set]
  · simp [same]

/-- R460: chatter of a gate input is no matter of the head ports. -/
theorem State.HeadsKept.gateChatter (s : State) (g : Nat) : s.HeadsKept (s.gateChatter g) := by
  unfold State.gateChatter
  extract_lets n ts chatter fl t
  have timed : s.HeadsKept t := of_eq rfl rfl rfl rfl rfl rfl
  exact ite (timed.trans (((setFld ..).trans (setFld ..)).trans (of_raiseKeeps (State.raiseWith_keeps ..)))) timed

/-- An update that leaves the gate inputs at their level, and their cut latches, as they were. -/
structure State.GatesKept (s t : State) : Prop where
  level : t.hp.gateLevel = s.hp.gateLevel
  cut : t.hp.cut = s.hp.cut

namespace State.GatesKept

variable {s t u : State}

theorem refl (s : State) : s.GatesKept s := ⟨rfl, rfl⟩

theorem trans (h : s.GatesKept t) (k : t.GatesKept u) : s.GatesKept u := ⟨k.level.trans h.level, k.cut.trans h.cut⟩

theorem ite {c : Prop} [Decidable c] (ht : s.GatesKept t) (hu : s.GatesKept u) : s.GatesKept (if c then t else u) := by
  split
  · exact ht
  · exact hu

theorem foldl {α : Type} {f : State → α → State} (h : ∀ s x, State.GatesKept s (f s x)) (l : List α) (s : State) :
    s.GatesKept (l.foldl f s) := by
  induction l generalizing s with
  | nil => exact refl s
  | cons x l ih => exact (h s x).trans (ih _)

theorem of_hp (hp : t.hp = s.hp) : s.GatesKept t := ⟨by rw [hp], by rw [hp]⟩

theorem cutPort (s : State) (p : Nat) (flag : Option Nat) : s.GatesKept (s.cutPort p flag) := by
  unfold State.cutPort
  extract_lets q kept t
  have cut : s.GatesKept t := ⟨rfl, rfl⟩
  refine ite (refl s) (cut.trans ?_)
  split
  · exact ite (of_hp (State.HeadsKept.outcome ..).hp) (refl _)
  · exact refl _

theorem disableAxis (s : State) (a : Nat) : s.GatesKept (s.disableAxis a) := of_hp rfl

theorem estopHalt (s : State) : s.GatesKept s.estopHalt := by
  unfold State.estopHalt
  extract_lets t
  have disabled : s.GatesKept t := foldl disableAxis _ s
  exact ite ⟨disabled.level, disabled.cut⟩ (refl s)

end State.GatesKept

/-- R175, R176: a cut latch sets, and no other. -/
theorem State.gateLatch_sets (s : State) (g : Nat) :
    (s.gateLatch g).hp.gateLevel = s.hp.gateLevel ∧ (s.gateLatch g).hp.cut = s.hp.cut ||| 2 ^ g := by
  unfold State.gateLatch
  split
  case isTrue set => exact ⟨rfl, (or_two_pow_of_testBit set).symm⟩
  case isFalse =>
    extract_lets e hp t u v
    have cut : t.GatesKept u := .foldl (fun s p => .cutPort s p (some 4)) _ t
    have raised : u.GatesKept v := .of_hp (State.raiseWith_keeps ..).hp
    have halted : v.GatesKept (if g = 8 then v.estopHalt else v) := .ite (.estopHalt v) (.refl v)
    have kept := (cut.trans raised).trans halted
    exact ⟨kept.level, kept.cut⟩

theorem State.gateAssert_sets (s : State) (g : Nat) :
    (s.gateAssert g).hp.gateLevel = s.hp.gateLevel ||| 2 ^ g ∧ (s.gateAssert g).hp.cut = s.hp.cut ||| 2 ^ g := by
  have chatter := (State.HeadsKept.gateChatter { s with hp := { s.hp with gateLevel := s.hp.gateLevel ||| 2 ^ g } } g).hp
  obtain ⟨level, cut⟩ := State.gateLatch_sets
    (({ s with hp := { s.hp with gateLevel := s.hp.gateLevel ||| 2 ^ g } } : State).gateChatter g) g
  rw [chatter] at level cut
  exact ⟨level, cut⟩

theorem exec_gateInputAssert {s : State} (g : Fin 9) (out : s.sys.inReset = false) :
    exec (.gateInputAssert g) s = .next (s.after (s.gateAssert g.val)) :=
  congrArg Host.Outcome.next (s.actPin_eq_after (·.gateAssert g.val) out)

theorem exec_gateInputDeassert {s : State} (g : Fin 9) (out : s.sys.inReset = false) :
    exec (.gateInputDeassert g) s = .next (s.after (s.gateDeassert g.val)) :=
  congrArg Host.Outcome.next (s.actPin_eq_after (·.gateDeassert g.val) out)

/-- R176: a gate input returns to deasserted, and nothing else of the head ports changes. -/
theorem State.gateDeassert_hp {s : State} {g : Nat} (set : s.hp.gateLevel.testBit g = true) :
    (s.gateDeassert g).hp = { s.hp with gateLevel := s.hp.gateLevel - 2 ^ g } := by
  rw [State.gateDeassert, if_pos set]
  exact (State.HeadsKept.gateChatter ..).hp

theorem State.gateDeassert_clear {s : State} {g : Nat} (clear : s.hp.gateLevel.testBit g = false) : s.gateDeassert g = s := by
  rw [State.gateDeassert, if_neg (by simp [clear])]

end Sys2Proof.Machine
end

section
/-! PROOFS of O23, second part: return frames, port states, and the statement. -/

namespace Sys2Proof.Machine

/-! ## Ports that leave READY -/

theorem State.HeadsKept.headLost (s : State) (p : Nat) : s.HeadsKept (s.headLost p) := flagRaise ..

theorem State.portTo_kept (s : State) (p : Nat) (st : PortState) :
    (s.setPort p { s.port p with st := st, cfgOk := false, cfgDue := false }).HeadsKept (s.portTo p st) :=
  .ite (.headLost ..) (.refl _)

theorem State.port_portTo_self {s : State} {p : Nat} (st : PortState) (there : p < s.hp.ports.length) :
    (s.portTo p st).port p = { s.port p with st := st, cfgOk := false, cfgDue := false } := by
  rw [(s.portTo_kept p st).port, State.port_setPort_self there]

theorem State.port_portTo_ne (s : State) {p q : Nat} (st : PortState) (other : q ≠ p) : (s.portTo p st).port q = s.port q := by
  rw [(s.portTo_kept p st).port, s.port_setPort_ne _ other]

theorem State.length_portTo (s : State) (p : Nat) (st : PortState) : (s.portTo p st).hp.ports.length = s.hp.ports.length := by
  rw [(s.portTo_kept p st).hp, State.length_setPort]

theorem State.port_headAbsent_self {s : State} {p : Nat} (there : p < s.hp.ports.length) :
    (s.headAbsent p).port p =
      { s.port p with st := .absent, cfgOk := false, cfgDue := false, identValid := false, lats := [], lastPar := none } := by
  rw [State.headAbsent, State.port_setPort_self (by rwa [State.length_portTo]), State.port_portTo_self _ there]

theorem State.port_headAbsent_ne (s : State) {p q : Nat} (other : q ≠ p) : (s.headAbsent p).port q = s.port q := by
  rw [State.headAbsent, State.port_setPort_ne _ _ other, s.port_portTo_ne _ other]

theorem State.headStale_expired {s : State} {p : Nat} (ready : (s.port p).st = .ready)
    (expired : max 60 (s.fld Reg.HP_RET_CFG F.HP_RET_CFG_STALE_US) * 1000 ≤ s.now - (s.port p).staleAt) :
    s.headStale p = s.portTo p .present := if_pos (by simpa [ready] using expired)

/-! ## Frames that fail their check -/

/-- R169: the LATs a frame covers leave the list of those the head owes a STATUS of. -/
theorem HeadPort.mem_lats_cover (q : HeadPort) (now : Nat) (r : LatRec) : r ∈ (q.cover now).lats ↔ r ∈ q.lats ∧ now < r.time + 6820 := by
  simp [HeadPort.cover, latCovered, Nat.add_assoc]

/-- R169: a frame that fails its check is discarded; no loop takes it. -/
theorem State.returnFrame_bad {s : State} {p : Nat} {bs : List Byte} (bad : returnOk bs = false) :
    (s.returnFrame p bs).testHead p bs =
      ((((s.setPort p ((s.port p).cover s.now)).bump (Reg.HP_Pp_ERRCNT p) F.HP_Pp_ERRCNT_RET_BAD).flag (Reg.HP_Pp_STAT p)
        F.HP_Pp_STAT_RET_ERR).flag Reg.HP_STAT F.HP_STAT_RET_FRAME).raise Ev.RET_FRAME (portH p) := by
  simp [State.returnFrame, State.testHead, bad]

/-! ## STATUS frames -/

theorem State.HeadsKept.decline (s : State) (l p : Nat) : s.HeadsKept (s.decline l p) :=
  ite (outcome ..) ((outcome ..).trans (of_eq rfl rfl rfl rfl rfl rfl))

theorem State.HeadsKept.outcomeFinal (s : State) (l p : Nat) : s.HeadsKept (s.outcomeFinal l p) := of_eq rfl rfl rfl rfl rfl rfl

/-- R167, R171: the report of a CONFIG frame changes how the port stands with its configuration. -/
theorem State.port_configReport {s : State} {p : Nat} (there : p < s.hp.ports.length) (err : Bool) :
    s.HeadStep (s.configReport p err) ∧ ∃ ok due fails, (s.configReport p err).port p =
      { s.port p with cfgOk := ok, cfgDue := due, cfgFails := fails } := by
  unfold State.configReport
  extract_lets q
  split
  · exact ⟨(State.HeadsOnly.setPort s p _).toHeadStep, _, _, _, State.port_setPort_self there _⟩
  · split
    · have raised := State.HeadsKept.flagRaise (s.setPort p { s.port p with cfgFails := 0 }) Reg.HP_STAT F.HP_STAT_HEAD_CFG
        Ev.HEAD_CFG (portH p)
      exact ⟨(State.HeadsOnly.setPort s p _).toHeadStep.trans raised.toHeadStep, _, _, _,
        (raised.port p).trans (State.port_setPort_self there _)⟩
    · exact ⟨(State.HeadsOnly.setPort s p _).toHeadStep, _, _, _, State.port_setPort_self there _⟩

/-- A port that has taken the fields of a STATUS frame (R170). -/
def HeadPort.statused (q : HeadPort) (now v : Nat) : HeadPort :=
  { q.cover now with temp := some (toSigned 14 (bits v 21 8), now), prevTemp := q.temp, staleAt := now, parEcho := v.testBit 4 }

/-- R170: a STATUS frame gives its fields to the port, and settles lines, flags and CONFIG frames. -/
theorem State.port_statusFrame {s : State} {p : Nat} (there : p < s.hp.ports.length) (v : Nat) :
    s.HeadStep (s.statusFrame p v) ∧ ∃ ok due fails, (s.statusFrame p v).port p =
      { (s.port p).statused s.now v with cfgOk := ok, cfgDue := due, cfgFails := fails } := by
  unfold State.statusFrame
  extract_lets q cov lines par echo crc seq declined hp s₁ s₂ s₃ s₄ s₅
  have taken : s.HeadStep s₁ := (State.HeadsOnly.setPort s p _).toHeadStep
  have counted : s₁.HeadsKept s₂ := .ite (.setFld ..) (.refl _)
  have settled : s₂.HeadsKept s₃ := .foldl (fun s l => .ite (.refl s) (.ite (.decline ..) (.outcomeFinal ..))) _ s₂
  have crcFlags : s₃.HeadsKept s₄ := .ite ((State.HeadsKept.setFld ..).trans (.flagRaise ..)) (.refl _)
  have seqFlags : s₄.HeadsKept s₅ := .ite ((State.HeadsKept.setFld ..).trans (.flagRaise ..)) (.refl _)
  have kept := ((counted.trans settled).trans crcFlags).trans seqFlags
  have step := taken.trans kept.toHeadStep
  have port : s₅.port p = (s.port p).statused s.now v := (kept.port p).trans (State.port_setPort_self there _)
  split
  · obtain ⟨reported, ok, due, fails, port'⟩ := State.port_configReport (s := s₅) (by rwa [kept.hp, State.length_setPort]) crc
    exact ⟨step.trans reported, ok, due, fails, by rw [port', port]⟩
  · exact ⟨step, _, _, _, port⟩

/-- R171: a good frame makes an ABSENT port PRESENT. -/
def State.headHeard (s : State) (p : Nat) : State := if (s.port p).st = .absent then s.setPort p { s.port p with st := .present } else s

theorem State.HeadsOnly.headHeard (s : State) (p : Nat) : s.HeadsOnly (s.headHeard p) := by
  unfold State.headHeard
  split
  · exact .setPort s p _
  · exact .refl s

theorem State.length_headHeard (s : State) (p : Nat) : (s.headHeard p).hp.ports.length = s.hp.ports.length := by
  unfold State.headHeard
  split
  · exact s.length_setPort p _
  · rfl

theorem State.st_headHeard {s : State} {p : Nat} (there : p < s.hp.ports.length) : ((s.headHeard p).port p).st ≠ .absent := by
  unfold State.headHeard
  split
  case isTrue =>
    rw [State.port_setPort_self there]
    exact PortState.noConfusion
  case isFalse present => exact present

theorem State.returnFrame_good {s : State} {p : Nat} {bs : List Byte} (good : returnOk bs = true) :
    s.returnFrame p bs =
      if leAt bs 0 8 % 16 = 1 then (s.headHeard p).statusFrame p (leAt bs 0 8) else (s.headHeard p).identFrame p (leAt bs 0 8) :=
  if_pos good

/-- A frame that no loop waits for ends no loop (R506). -/
theorem State.testHead_idle {s : State} {p : Nat} (idle : s.padLoop p = false) (bs : List Byte) : s.testHead p bs = s := by
  simp [State.testHead, idle]

/-- R170: what a good STATUS frame leaves of its port, no loop running on it. -/
theorem State.returnFrame_status {s : State} {p : Nat} {bs : List Byte} (good : returnOk bs = true) (status : leAt bs 0 8 % 16 = 1)
    (idle : s.padLoop p = false) (there : p < s.hp.ports.length) :
    ((s.returnFrame p bs).testHead p bs).dram = s.dram ∧ ∃ q ok due fails, HeadPort.st q ≠ .absent ∧
      ((s.returnFrame p bs).testHead p bs).port p =
        { q.statused s.now (leAt bs 0 8) with cfgOk := ok, cfgDue := due, cfgFails := fails } := by
  have there' : p < (s.headHeard p).hp.ports.length := by rwa [State.length_headHeard]
  obtain ⟨taken, ok, due, fails, port⟩ := State.port_statusFrame there' (leAt bs 0 8)
  have heard := State.HeadsOnly.headHeard s p
  have step := heard.toHeadStep.trans taken
  have idle' : ((s.headHeard p).statusFrame p (leAt bs 0 8)).padLoop p = false := by rwa [State.padLoop, step.ts]
  rw [heard.now] at port
  rw [State.returnFrame_good good, if_pos status, State.testHead_idle idle']
  exact ⟨step.dram, _, ok, due, fails, State.st_headHeard there, port⟩

/-! ## IDENT frames -/

/-- What a port knows of its head (R169). -/
def HeadPort.ident (q : HeadPort) : Bool × Nat × Nat × Nat := (q.identValid, q.headType, q.rev, q.serial)

/-- An update that leaves what every port knows of its head. -/
structure State.IdentKept (s t : State) : Prop where
  ident : ∀ p, (t.port p).ident = (s.port p).ident

namespace State.IdentKept

variable {s t u : State}

theorem refl (s : State) : s.IdentKept s := ⟨fun _ => rfl⟩

theorem trans (h : s.IdentKept t) (k : t.IdentKept u) : s.IdentKept u := ⟨fun p => (k.ident p).trans (h.ident p)⟩

theorem of_heads (h : s.HeadsKept t) : s.IdentKept t := ⟨fun p => congrArg HeadPort.ident (h.port p)⟩

/-- A port replaced by one that knows the same of its head. -/
theorem setPort {p : Nat} {q : HeadPort} (same : q.ident = (s.port p).ident) : s.IdentKept (s.setPort p q) := by
  refine ⟨fun r => ?_⟩
  by_cases other : r = p
  · subst other
    by_cases there : r < s.hp.ports.length
    · rw [State.port_setPort_self there, same]
    · rw [State.port_of_length_le (by simpa using there), State.port_of_length_le (by simpa using there)]
  · rw [s.port_setPort_ne q other]

theorem ite {c : Prop} [Decidable c] (ht : s.IdentKept t) (hu : s.IdentKept u) : s.IdentKept (if c then t else u) := by
  split
  · exact ht
  · exact hu

theorem portTo (s : State) (p : Nat) (st : PortState) : s.IdentKept (s.portTo p st) :=
  (setPort (by exact rfl)).trans (of_heads (s.portTo_kept p st))

/-- R11: what is composed anew is no matter of the heads. -/
theorem recompose (s : State) : s.IdentKept s.recompose := by
  refine ⟨fun p => ?_⟩
  simp only [State.port, State.recompose, State.dropAbove, List.getD_eq_getElem?_getD, List.getElem?_map]
  cases s.hp.ports[p]? <;> rfl

end State.IdentKept

theorem State.HeadsKept.setRole (s : State) (epoch i : Nat) (serving : Bool) : s.HeadsKept (s.setRole epoch i serving) :=
  ite (refl s) (of_eq rfl rfl rfl rfl rfl rfl)

theorem State.HeadsKept.recode (s : State) (v : CodeView) (epoch slot : Nat) (px : Nat × Nat) :
    s.HeadsKept (s.recode v epoch slot px) := by
  unfold State.recode
  extract_lets e c m nh t a
  have mapped : s.HeadsKept t := of_eq rfl rfl rfl rfl rfl rfl
  exact ite (refl s) (mapped.trans (ite (setRole ..) ((setRole ..).trans (setRole ..))))

theorem State.HeadsKept.replaceUpdate (s : State) (p : Nat) : s.HeadsKept (s.replaceUpdate p) := by
  unfold State.replaceUpdate
  extract_lets c on was fl t
  have judged : s.HeadsKept t := of_eq rfl rfl rfl rfl rfl rfl
  exact ite (refl s) (judged.trans (ite (flagRaise ..) (refl t)))

theorem State.IdentKept.portCommit (s : State) (p : Nat) (changed : Bool) : s.IdentKept (s.portCommit p changed) := by
  unfold State.portCommit
  extract_lets v px changed' epoch nh t rec' u
  have recorded : s.HeadsKept rec'.2 := .of_eq rfl rfl rfl rfl rfl rfl
  have recoded : rec'.2.HeadsKept (px.foldl (fun s q => s.recode v epoch rec'.1 q) rec'.2) := .foldl (fun _ _ => .recode ..) _ _
  exact ((of_heads (recorded.trans recoded)).trans (recompose _)).trans (of_heads (.replaceUpdate ..))

theorem State.HeadsKept.stateEvents (s was : State) (p : Nat) : s.HeadsKept (s.stateEvents was p) :=
  foldl (fun _ _ => flagRaise ..) _ s

/-- R219, R221: a new head on a port begins with new records; what the port knows of it stays. -/
theorem State.IdentKept.headNew (s : State) (p : Nat) : s.IdentKept (s.headNew p) := by
  unfold State.headNew
  extract_lets was nh t
  have emptied : s.HeadsKept t := .of_eq rfl rfl rfl rfl rfl rfl
  exact ((of_heads emptied).trans (portCommit ..)).trans (of_heads ((State.HeadsKept.stateEvents ..).trans (.flagRaise ..)))

theorem State.IdentKept.headSeen (s : State) (p : Nat) : s.IdentKept (s.headSeen p) := by
  unfold State.headSeen
  split
  · exact refl s
  · split
    · split
      · exact refl s
      · exact headNew s p
    · exact of_heads (.of_eq rfl rfl rfl rfl rfl rfl)

theorem State.IdentKept.portReady (s : State) (p : Nat) : s.IdentKept (s.portReady p) := by
  unfold State.portReady
  extract_lets q t u
  have placed : s.IdentKept t := setPort (by exact rfl)
  exact ite (refl s) ((placed.trans (of_heads (.flagRaise ..))).trans (headSeen ..))

/-- R171: a port is judged by what it knows of its head, which stays. -/
theorem State.IdentKept.judgePort (s : State) (p : Nat) : s.IdentKept (s.judgePort p) := by
  unfold State.judgePort
  extract_lets q
  exact ite (refl s) (ite (portReady s p) ((portTo ..).trans (of_heads (.flagRaise ..))))

/-- R169: a good IDENT frame gives a port what it knows of its head. -/
theorem State.returnFrame_ident {s : State} {p : Nat} {bs : List Byte} (good : returnOk bs = true) (ident : leAt bs 0 8 % 16 = 2)
    (there : p < s.hp.ports.length) :
    (((s.returnFrame p bs).testHead p bs).port p).ident =
      (true, bits (leAt bs 0 8) 19 4, bits (leAt bs 0 8) 23 20, bits (leAt bs 0 8) 55 24) := by
  have noStatus : leAt bs 0 8 % 16 ≠ 1 := by omega
  have noLoop (t : State) : t.testHead p bs = t := by simp [State.testHead, noStatus]
  rw [noLoop, State.returnFrame_good good, if_neg noStatus, State.identFrame, (State.IdentKept.judgePort ..).ident,
    State.port_setPort_self (by rwa [State.length_headHeard])]
  rfl

/-- Settles O23: warming and spit lines, the decap timer, CFG_SEND, return frames, port states and gate latches. A frame that fails
its check covers its LATs, and a stale port becomes PRESENT, as log entry 41 says. -/
theorem headsAndGates : Obligations.HeadsAndGates := by
  unfold Obligations.HeadsAndGates
  refine ⟨⟨?warming, ?spit, ?auto, ?manual⟩, ⟨?send, ?sendRefused, ?bad, ?covered, ?status, ?ident, ?absent, ?stale⟩,
    ?assert, ?deassert, ?clear, ?cleared⟩
  case warming =>
    intro s b out hz rate free due noSpit warms
    obtain ⟨on, es, frame⟩ := State.warmingLine_due rate free due noSpit warms
    have begun := (State.HeadsOnly.setBank s b.val { s.bank b.val with warmAt := s.now }).trans (.shiftExtra _ b.val .warming on es)
    exact ⟨_, State.next_act out frame, s.banks_warming b.val on es, begun.regs, begun.wp, begun.dram⟩
  case spit =>
    intro s p k left out spit free due there
    obtain ⟨step, banks, spit, spitAt⟩ := State.spitLine_shifts spit free due there
    exact ⟨_, State.next_act out rfl, banks, spit, spitAt, step.wp, step.dram⟩
  case auto => exact fun s p out armed expired auto mode => State.next_act out (State.decapExpire_auto armed expired auto mode)
  case manual => exact fun s p out armed expired manual => State.next_act out (State.decapExpire_manual armed expired manual)
  case send =>
    intro s m w takes mode
    rw [exec_cfgSend takes, State.cfgSend, if_neg mode]
    rfl
  case sendRefused =>
    intro s m w takes mode
    rw [exec_cfgSend takes, State.cfgSend, if_pos mode]
  case bad => exact fun s p bs out bad => State.next_act out (State.returnFrame_bad bad)
  case covered => exact fun q now r => ⟨q.mem_lats_cover now r, rfl, rfl, rfl⟩
  case status =>
    intro s p bs out good status idle there
    obtain ⟨dram, q, ok, due, fails, present, port⟩ := State.returnFrame_status good status idle there
    refine ⟨_, State.next_act out rfl, ?_⟩
    rw [port]
    exact ⟨rfl, rfl, rfl, present, dram⟩
  case ident =>
    intro s p bs out good ident idle there
    have known := State.returnFrame_ident good ident there
    simp only [HeadPort.ident, Prod.mk.injEq] at known
    exact ⟨_, State.next_act out rfl, known⟩
  case absent =>
    intro s p out there
    refine ⟨_, State.next_act out rfl, ?_⟩
    rw [State.port_headAbsent_self there]
    exact ⟨rfl, rfl, rfl, fun q => s.port_headAbsent_ne⟩
  case stale =>
    intro s p out there ready expired
    refine ⟨_, State.next_act out (State.headStale_expired ready expired), ?_⟩
    rw [State.port_portTo_self _ there]
    exact ⟨rfl, rfl, fun q => s.port_portTo_ne _⟩
  case assert => exact fun s g out => ⟨_, exec_gateInputAssert g out, s.gateAssert_sets g.val⟩
  case deassert =>
    intro s g out
    refine ⟨_, exec_gateInputDeassert g out, ?_⟩
    cases set : s.hp.gateLevel.testBit g.val with
    | true =>
      rw [State.gateDeassert_hp set]
      exact ⟨testBit_sub_two_pow_self set, rfl, fun j => testBit_sub_two_pow_ne set, rfl⟩
    | false =>
      rw [State.gateDeassert_clear set]
      exact ⟨set, rfl, fun _ _ => rfl, rfl⟩
  case clear => exact fun s m w takes => exec_gateClear takes w
  case cleared =>
    intro s inRange g
    rw [Nat.testBit_and, State.gateIn, if_neg (by simp [inRange])]

end Sys2Proof.Machine
end

section
/-! SUPPORT of O24, O25 and O26: nozzle records, and writes of the registers of NH. -/

namespace Sys2Proof.Machine

/-! ## A nozzle record replaced -/

@[simp] theorem State.noz_setNoz_self (s : State) (i : Nat) (r : NozRec) : (s.setNoz i r).noz i = r := AMap.get_set_self ..

theorem State.noz_setNoz_ne (s : State) {i j : Nat} (r : NozRec) (other : j ≠ i) : (s.setNoz i r).noz j = s.noz j :=
  AMap.get_set_ne _ _ _ other

/-- The records follow from the block and the structure in force alone. -/
theorem State.noz_congr {s t : State} (nh : t.nh = s.nh) (si : t.si = s.si) (i : Nat) : t.noz i = s.noz i := by
  simp only [State.noz, nh, si]

/-- A flag set and its event raised leave the block alone. -/
theorem State.nh_flagRaise (s : State) (a : Nat) (f : BitField) (id unit : Nat) : ((s.flag a f).raise id unit).nh = s.nh :=
  (State.raise_keeps _ id unit).nh

theorem State.noz_flagRaise (s : State) (a : Nat) (f : BitField) (id unit i : Nat) :
    ((s.flag a f).raise id unit).noz i = s.noz i :=
  State.noz_congr (s.nh_flagRaise a f id unit) (State.raise_keeps _ id unit).si i

/-! ## Writes -/

/-- A granted write of a register of NH ends after what the block makes of it. -/
theorem State.act_busWrite_nh {s : State} {m : Master} {a : Nat} (w : Word) (takes : s.takes m a) (nh : a / 0x10000 = 6) :
    s.act (·.busWrite m.val a w) = s.wrote (s.writeNh a (regMask a w)) m := by
  have low : a < 0x70000 := by omega
  have writable : readOnlyWindow a = false := by
    simp only [readOnlyWindow, Bool.or_eq_false_iff, Bool.and_eq_false_iff, decide_eq_false_iff_not]
    omega
  rw [State.act_busWrite_of_takes s m a w takes writable (by omega)]
  simp [State.writeReg, nh]

end Sys2Proof.Machine
end

section
/-! PROOFS of O24: writes of nozzle records, what a commit gives a nozzle, and the staging of maps. -/

namespace Sys2Proof.Machine

/-! ## Writes of records -/

/-- R199: a granted write of the word at offset 0 of a record completes with an error where it is not accepted. -/
theorem exec_nozzleRecordWrite {s : State} {m : Master} {i : Fin 131072} {w : Word} {t : State} {accepted : Bool}
    (takes : s.takes m (0x1000000 + 32 * i.val)) (write : s.nozWrite i.val w = (t, accepted)) :
    exec (.nozzleRecordWrite m i w) s = .next (s.after (t.complete m.val 0 (!accepted) false)) := by
  have inside := i.isLt
  have high : ¬0x1000000 + 32 * i.val < 0x140000 := by omega
  have head : (0x1000000 + 32 * i.val) % 32 = 0 := by omega
  have record : (0x1000000 + 32 * i.val - 0x1000000) / 32 = i.val := by omega
  have writable : readOnlyWindow (0x1000000 + 32 * i.val) = false := by
    simp only [readOnlyWindow, Bool.or_eq_false_iff, Bool.and_eq_false_iff, decide_eq_false_iff_not]
    omega
  have performed : s.writeWord m.val (0x1000000 + 32 * i.val) w = (!accepted, t) := by
    simp only [State.writeWord, writable, high, head, record, write, Bool.false_eq_true, if_false, ne_eq, not_true_eq_false]
  obtain ⟨out, grants⟩ := takes
  refine State.next_act out ?_
  rw [State.busWrite_of_grants _ _ _ _ grants, performed]

section
variable {s : State} {i : Nat} {w : Word}

/-- R208: outside PRINT a request commits at once. -/
theorem State.request_atOnce {s : State} (mode : s.mode ≠ .print) (r : NhReq) : s.request r = some (s.commit (s.wp.hwm + 1) [r]) :=
  if_neg mode

theorem State.request_print {s : State} (mode : s.mode = .print) (r : NhReq) : s.request r = s.queueReq r := if_pos mode

theorem State.nozWrite_accepted {t : State} (ok : s.nozWriteOk i w = true) (request : s.request (s.nozAsk i w) = some t) :
    s.nozWrite i w = (t, true) := by
  simp only [State.nozWrite, ok, request, if_true]

theorem State.nozWrite_refused (refused : s.nozWriteOk i w = false) : s.nozWrite i w = (s, false) := by
  simp only [State.nozWrite, refused, Bool.false_eq_true, if_false]

/-- R199: a write keeps STATE, retires the nozzle, or takes a retired one back. -/
theorem State.nozWriteOk_iff (primary : s.fld Reg.AU_WIT_CFG F.AU_WIT_CFG_ROLE ≠ 2) (short : w.toNat < 2 ^ 16) (boot : s.mode ≠ .boot)
    (test : s.mode ≠ .test) (known : (s.noz i).state < 4) :
    s.nozWriteOk i w = true ↔
      bits w.toNat 1 0 = (s.noz i).state ∨ bits w.toNat 1 0 = 3 ∨ (bits w.toNat 1 0 = 0 ∧ (s.noz i).state = 3) := by
  have noHigh : w.toNat / 65536 = 0 := by omega
  have noWitness : s.isWitness = false := by simpa [State.isWitness] using primary
  have field : bits w.toNat 1 0 < 4 := Nat.mod_lt _ (by decide)
  simp only [State.nozWriteOk, noHigh, boot, test, noWitness, ne_eq, not_false_eq_true, decide_true, Bool.true_and, Bool.false_and,
    Bool.not_false, Bool.and_true, Bool.or_eq_true, Bool.not_eq_true', Bool.or_eq_false_iff, Bool.and_eq_false_iff, decide_eq_true_eq,
    decide_eq_false_iff_not]
  omega

end

/-! ## Commits -/

/-- R207: a change of STATE brings EPOCH, STATE_LINE and CHANGES, on this nozzle alone. -/
theorem State.commitNoz_changes {s : State} {i st : Nat} (c epoch : Nat) (pol : Option Nat) (changed : st ≠ (s.noz i).state) :
    s.commitNoz c epoch i st pol =
      ((s.setNoz i { s.noz i with policy := pol.getD (s.noz i).policy, state := st, epoch := epoch, stateLine := c % 2 ^ 32,
                                  changes := min 0xFFFF ((s.noz i).changes + 1) }).flag
        Reg.NH_STAT F.NH_STAT_NOZZLE_STATE).raise Ev.NOZZLE_STATE (portH (i / 2048)) :=
  if_neg changed

/-! ## Staging -/

theorem State.stageStart_first {s : State} {c : Nat} (print : s.mode = .print) (next : s.nextCommit = some c)
    (idle : s.nh.staging = none) (released : s.nh.mapOld = none) :
    s.stageStart = { s with nh := { s.nh with staging := some (c, false) } } := by
  simp only [State.stageStart, next, idle, released, print, if_true]

theorem State.stageDone_staging {s : State} {c : Nat} {b : Bool} (staging : s.nh.staging = some (c, b)) :
    s.stageDone = { s with nh := { s.nh with staging := some (c, true) } } := by
  simp only [State.stageDone, staging]

/-- Settles O24: writes of records accepted outside PRINT and in PRINT and refused, the rows of R199, a nozzle's part of a commit, and
the staging of the first queued commit. -/
theorem nozzleRequests : Obligations.NozzleRequests := by
  unfold Obligations.NozzleRequests
  refine ⟨⟨?atOnce, ?queued, ?refused, ?rows, ?commit⟩, ?start, ?done⟩
  case atOnce =>
    intro s m i w takes mode ok
    rw [exec_nozzleRecordWrite takes (State.nozWrite_accepted ok (State.request_atOnce mode _)), State.wrote, Bool.not_true]
  case queued =>
    intro s t m i w takes mode ok queue
    rw [exec_nozzleRecordWrite takes (State.nozWrite_accepted ok ((State.request_print mode _).trans queue)), State.wrote, Bool.not_true]
  case refused =>
    intro s m i w takes refused
    rw [exec_nozzleRecordWrite takes (State.nozWrite_refused refused), Bool.not_false]
  case rows => exact fun s i w primary short boot test known => State.nozWriteOk_iff primary short boot test known
  case commit =>
    intro s c epoch i st pol changed
    simp only [State.commitNoz_changes c epoch pol changed, State.noz_flagRaise, State.noz_setNoz_self, true_and]
    exact fun j => s.noz_setNoz_ne _
  case start => exact fun s c out print next idle released => State.next_act out (State.stageStart_first print next idle released)
  case done => exact fun s c b out staging => State.next_act out (State.stageDone_staging staging)

end Sys2Proof.Machine
end

section
/-! SUPPORT of O25: bytes written to DRAM, and the 32 bytes of a nozzle record. -/

namespace Sys2Proof.Machine

/-! ## Bytes of DRAM after a write -/

theorem Mem.put_append (d : Byte) (bs cs : List Byte) (m : Mem) (a : Nat) :
    Mem.put d m a (bs ++ cs) = Mem.put d (Mem.put d m a bs) (a + bs.length) cs := by
  induction bs generalizing m a with
  | nil => rfl
  | cons b bs ih =>
    rw [List.cons_append, Mem.put, ih, List.length_cons, Nat.add_assoc, Nat.add_comm 1]
    rfl

theorem State.dramRead_dramWrite_self (s : State) (a : Nat) (bs : List Byte) : (s.dramWrite a bs).dramRead a bs.length = bs :=
  Mem.bytes_put_self ..

theorem State.dramRead_dramWrite_apart (s : State) {a x n : Nat} {bs : List Byte} (apart : x + n ≤ a ∨ a + bs.length ≤ x) :
    (s.dramWrite a bs).dramRead x n = s.dramRead x n := Mem.bytes_put_apart _ _ apart

/-- A part of the bytes written. -/
theorem State.dramRead_dramWrite_part (s : State) {a x n : Nat} {l pre bs post : List Byte} (parts : l = pre ++ (bs ++ post))
    (place : x = a + pre.length) (size : n = bs.length) : (s.dramWrite a l).dramRead x n = bs := by
  have writes : s.dramWrite a l =
      ((s.dramWrite a pre).dramWrite (a + pre.length) bs).dramWrite (a + pre.length + bs.length) post := by
    simp only [State.dramWrite, parts, Mem.put_append]
  rw [writes, place, size, State.dramRead_dramWrite_apart _ (.inl (le_refl _)), State.dramRead_dramWrite_self]

/-! ## Records and headers as bytes -/

@[simp] theorem length_leBytes (n v : Nat) : (leBytes n v).length = n := by
  induction n generalizing v with
  | zero => rfl
  | succ n ih => rw [leBytes, List.length_cons, ih]

@[simp] theorem State.length_nozBytes (s : State) (i : Nat) : (s.nozBytes i).length = 32 := by simp [State.nozBytes]

/-- SERIAL and HEAD_TYPE of the head on a port, as the header of its shadow holds them (R201). -/
def State.headBytes (s : State) (p : Nat) : List Byte := leBytes 4 (s.port p).serial ++ leBytes 2 (s.port p).headType

@[simp] theorem State.length_headBytes (s : State) (p : Nat) : (s.headBytes p).length = 6 := by simp [State.headBytes]

theorem State.shadowHeader_eq (s : State) (p : Nat) (valid : Bool) :
    s.shadowHeader p valid = s.headBytes p ++ ([BitVec.ofNat 8 (b2n valid)] ++ List.replicate 57 0) := by
  simp [State.shadowHeader, State.headBytes, State.port]

@[simp] theorem State.length_shadowHeader (s : State) (p : Nat) (valid : Bool) : (s.shadowHeader p valid).length = 64 := by
  simp [State.shadowHeader_eq]

/-- Items of one size, one after another. -/
theorem length_flatMap_range {α : Type} {f : Nat → List α} {k : Nat} (size : ∀ n, (f n).length = k) (N : Nat) :
    ((List.range N).flatMap f).length = k * N := by
  simp [List.length_flatMap, size, Nat.mul_comm]

/-- An item of a sequence stands behind those before it. -/
theorem flatMap_range_split {α : Type} (f : Nat → List α) {n N : Nat} (inside : n < N) :
    ∃ post, (List.range N).flatMap f = (List.range n).flatMap f ++ (f n ++ post) := by
  obtain ⟨r, rfl⟩ : ∃ r, N = n + (r + 1) := ⟨N - n - 1, by omega⟩
  refine ⟨((List.range r).map fun j => n + (j + 1)).flatMap f, ?_⟩
  simp [List.range_add, List.range_succ_eq_map, List.flatMap_append, Function.comp_def]

end Sys2Proof.Machine
end

section
/-! PROOFS of O25, first part: the sweep, fire counts, the shadow and RESTORE. -/

namespace Sys2Proof.Machine

/-! ## The sweep -/

theorem AMap.mem_of_find? {β : Type} {m : AMap β} {a : Nat} {v : β} (listed : AMap.find? m a = some v) : a ∈ m.map (·.1) := by
  induction m with
  | nil => simp [AMap.find?] at listed
  | cons e m ih =>
    obtain ⟨k, w⟩ := e
    by_cases here : k = a
    · simp [here]
    · rw [AMap.find?, if_neg here] at listed
      exact List.mem_cons_of_mem k (ih listed)

/-- What reads unlike an unlisted key is listed. -/
theorem AMap.find?_of_get_ne {β : Type} {d : Nat → β} {m : AMap β} {a : Nat} (differs : AMap.get d m a ≠ d a) :
    ∃ v, AMap.find? m a = some v := by
  rw [AMap.get] at differs
  cases listed : AMap.find? m a with
  | none => simp [listed] at differs
  | some v => exact ⟨v, rfl⟩

/-- R200: the sweep visits every nozzle with an accumulator, and every record that is not as after power-on. -/
theorem State.mem_sweepList {s : State} {i : Nat}
    (visits : AMap.get (fun _ => 0) s.nh.acc i ≠ 0 ∨ s.noz i ≠ s.si.recDefault i) : i ∈ s.sweepList := by
  rw [State.sweepList, List.mem_append]
  cases counted : AMap.find? s.nh.acc i with
  | some n => exact .inl (AMap.mem_of_find? counted)
  | none =>
    have changed : s.noz i ≠ s.si.recDefault i := visits.resolve_left (by simp [AMap.get, counted])
    obtain ⟨r, listed⟩ := AMap.find?_of_get_ne changed
    exact .inr (List.mem_filter.2 ⟨AMap.mem_of_find? listed, by simp [counted]⟩)

/-- R200: the accumulator of a nozzle without a wear limit is added to FIRE_COUNT, and cleared. -/
theorem State.flush_unlimited {s : State} {i : Nat} (unlimited : s.wearLimit (i / 2048) = 0) :
    s.flush i = { s with nh := { s.nh with acc := AMap.erase s.nh.acc i } }.setNoz i
      { s.noz i with fire := min (2 ^ 40 - 1) ((s.noz i).fire + AMap.get (fun _ => 0) s.nh.acc i) } := by
  have off (t : State) (regs : t.regs = s.regs) : t.wearLimit (i / 2048) = 0 := by
    simpa only [State.wearLimit, State.fld, State.rd, regs] using unlimited
  unfold State.flush
  extract_lets n nh t r u limit
  have none' : limit = 0 := off u rfl
  exact if_pos (by simp [none'])

/-! ## The shadow -/

/-- The records of a port one after another. -/
def State.portRecords (s : State) (p : Nat) : List Byte := (List.range 2048).flatMap fun n => s.nozBytes (2048 * p + n)

@[simp] theorem State.length_portRecords (s : State) (p : Nat) : (s.portRecords p).length = 65536 :=
  length_flatMap_range (fun _ => s.length_nozBytes _) 2048

section
variable {s : State} {p a : Nat} (enabled : s.shadowAt p = some a)
include enabled

/-- R201: the area of a port as the sweep writes it. -/
theorem State.shadowSweep_enabled : s.shadowSweep p =
    s.dramWrite a (s.portRecords p ++ (s.shadowHeader p true ++ List.replicate 65472 0)) := by
  simp only [State.shadowSweep, enabled, List.append_assoc]
  rfl

theorem State.dramRead_shadowSweep_record {n : Nat} (inside : n < 2048) :
    (s.shadowSweep p).dramRead (a + 32 * n) 32 = s.nozBytes (2048 * p + n) := by
  obtain ⟨post, split⟩ := flatMap_range_split (fun n => s.nozBytes (2048 * p + n)) inside
  have before := length_flatMap_range (fun n => s.length_nozBytes (2048 * p + n)) n
  rw [State.shadowSweep_enabled enabled, State.portRecords, split]
  exact s.dramRead_dramWrite_part (pre := (List.range n).flatMap fun n => s.nozBytes (2048 * p + n))
    (post := post ++ (s.shadowHeader p true ++ List.replicate 65472 0)) (by simp only [List.append_assoc]) (by rw [before])
    (s.length_nozBytes _).symm

theorem State.dramRead_shadowSweep_header : (s.shadowSweep p).dramRead (a + 65536) 7 = s.headBytes p ++ [1] := by
  have parts (rest : List Byte) : s.portRecords p ++ (s.shadowHeader p true ++ rest) =
      s.portRecords p ++ ((s.headBytes p ++ [1]) ++ (List.replicate 57 0 ++ rest)) := by
    simp only [State.shadowHeader_eq, List.append_assoc]
    rfl
  rw [State.shadowSweep_enabled enabled]
  exact s.dramRead_dramWrite_part (parts _) (by rw [State.length_portRecords]) (by simp)

theorem State.dramRead_shadowSweep_rest {x : Nat} (low : a + 65600 ≤ x) (high : x < a + 131072) :
    (s.shadowSweep p).dramRead x 1 = [0] := by
  obtain ⟨k, rfl⟩ : ∃ k, x = a + (65600 + k) := ⟨x - a - 65600, by omega⟩
  have zeros : List.replicate 65472 (0 : Byte) = List.replicate k 0 ++ ([0] ++ List.replicate (65471 - k) 0) := by
    rw [List.singleton_append, ← List.replicate_succ, List.replicate_append_replicate]
    congr 1
    omega
  rw [State.shadowSweep_enabled enabled, zeros]
  refine s.dramRead_dramWrite_part (pre := s.portRecords p ++ s.shadowHeader p true ++ List.replicate k 0)
    (post := List.replicate (65471 - k) 0) (by simp only [List.append_assoc]) ?_ rfl
  simp only [List.length_append, State.length_portRecords, State.length_shadowHeader, List.length_replicate]

theorem State.dramRead_shadowSweep_outside {x : Nat} (outside : x < a ∨ a + 131072 ≤ x) :
    (s.shadowSweep p).dramRead x 1 = s.dramRead x 1 := by
  rw [State.shadowSweep_enabled enabled]
  refine s.dramRead_dramWrite_apart ?_
  simp only [List.length_append, State.length_portRecords, State.length_shadowHeader, List.length_replicate]
  omega

end

section
variable {s : State} {i a : Nat} (enabled : s.shadowAt (i / 2048) = some a)
include enabled

/-- R201: a record and the header of its port go to their places. -/
theorem State.shadowWrite_enabled : ∃ valid, s.shadowWrite i =
    (s.dramWrite (a + 32 * (i % 2048)) (s.nozBytes i)).dramWrite (a + 65536) (s.shadowHeader (i / 2048) valid) :=
  ⟨decide (s.dramRead (a + 65536) 7 = (s.shadowHeader (i / 2048) true).take 7), by simp only [State.shadowWrite, enabled]⟩

theorem State.dramRead_shadowWrite_header : (s.shadowWrite i).dramRead (a + 65536) 6 = s.headBytes (i / 2048) := by
  obtain ⟨valid, write⟩ := State.shadowWrite_enabled enabled
  rw [write, State.shadowHeader_eq]
  exact State.dramRead_dramWrite_part _ (pre := []) rfl rfl (State.length_headBytes ..).symm

theorem State.dramRead_shadowWrite_record : (s.shadowWrite i).dramRead (a + 32 * (i % 2048)) 32 = s.nozBytes i := by
  obtain ⟨valid, write⟩ := State.shadowWrite_enabled enabled
  rw [write, State.dramRead_dramWrite_apart _ (by omega)]
  exact s.dramRead_dramWrite_part (pre := []) (post := []) (by simp) rfl (s.length_nozBytes i).symm

theorem State.dramRead_shadowWrite_outside {x : Nat} (record : x < a + 32 * (i % 2048) ∨ a + 32 * (i % 2048) + (s.nozBytes i).length ≤ x)
    (header : x < a + 65536 ∨ a + 65536 + 64 ≤ x) : (s.shadowWrite i).dramRead x 1 = s.dramRead x 1 := by
  obtain ⟨valid, write⟩ := State.shadowWrite_enabled enabled
  rw [write, State.dramRead_dramWrite_apart _ (by rw [State.length_shadowHeader]; omega), s.dramRead_dramWrite_apart (by omega)]

end

/-! ## RESTORE -/

theorem get_nhCtrl_restore (w : Word) : F.NH_CTRL_RESTORE.get (cmdWord Reg.NH_CTRL w [(F.NH_CTRL_RESTORE, 1)]) = 1 :=
  (get_regMask (by decide) _).trans (F.NH_CTRL_RESTORE.get_put w 1 (by decide) (by decide))

/-- RESTORE is a write of NH_CTRL. -/
theorem exec_restore {s : State} {m : Master} {w : Word} {p : Nat} (takes : s.takes m Reg.NH_CTRL)
    (port : F.NH_CTRL_PORT.get (cmdWord Reg.NH_CTRL w [(F.NH_CTRL_RESTORE, 1)]) = p) :
    exec (.restore m w) s = .next (s.wrote (s.restorePort p) m) := by
  have command : s.writeNh Reg.NH_CTRL (cmdWord Reg.NH_CTRL w [(F.NH_CTRL_RESTORE, 1)]) = s.restorePort p := by
    rw [State.writeNh, if_pos rfl, State.nhCtrl, if_pos (get_nhCtrl_restore w), port]
  exact congrArg Host.Outcome.next ((State.act_busWrite_nh _ takes (by decide)).trans (congrArg (s.wrote · m) command))

/-- R202: outside IDLE nothing is restored. -/
theorem State.restorePort_refused {s : State} (mode : s.mode ≠ .idle) (p : Nat) :
    s.restorePort p = s.flag Reg.NH_STAT F.NH_STAT_RESTORE_REFUSED := by
  unfold State.restorePort
  cases s.shadowAt p with
  | none => rfl
  | some a => exact if_pos (by simp [mode])

/-- The first `N` records of a port read back from the shadow at `a`. -/
def State.readRecords (s : State) (p a N : Nat) : State :=
  (List.range N).foldl (fun s n => s.setNoz (2048 * p + n) (NozRec.ofBytes (s.dramRead (a + 32 * n) 32))) s

theorem State.readRecords_succ (s : State) (p a N : Nat) : s.readRecords p a (N + 1) =
    (s.readRecords p a N).setNoz (2048 * p + N) (NozRec.ofBytes ((s.readRecords p a N).dramRead (a + 32 * N) 32)) := by
  simp only [State.readRecords, List.range_succ, List.foldl_append, List.foldl_cons, List.foldl_nil]

theorem State.readRecords_keeps (s : State) (p a N : Nat) :
    (s.readRecords p a N).dram = s.dram ∧ (s.readRecords p a N).nh.epoch = s.nh.epoch := by
  induction N with
  | zero => exact ⟨rfl, rfl⟩
  | succ N ih =>
    rw [State.readRecords_succ]
    exact ih

theorem State.noz_readRecords (s : State) (p a : Nat) {n N : Nat} (inside : n < N) :
    (s.readRecords p a N).noz (2048 * p + n) = NozRec.ofBytes (s.dramRead (a + 32 * n) 32) := by
  induction N with
  | zero => omega
  | succ N ih =>
    rw [State.readRecords_succ]
    by_cases last : n = N
    · rw [last, State.noz_setNoz_self, State.dramRead, (s.readRecords_keeps p a N).1]
      rfl
    · rw [State.noz_setNoz_ne _ _ (by omega), ih (by omega)]

/-- An update that leaves FIRE_COUNT of every nozzle, the epoch and DRAM alone. -/
structure State.CountsKept (s t : State) : Prop where
  fire : ∀ i, (t.noz i).fire = (s.noz i).fire
  epoch : t.nh.epoch = s.nh.epoch
  dram : t.dram = s.dram

namespace State.CountsKept

variable {s t u : State}

theorem refl (s : State) : s.CountsKept s := ⟨fun _ => rfl, rfl, rfl⟩

theorem trans (h : s.CountsKept t) (k : t.CountsKept u) : s.CountsKept u :=
  ⟨fun i => (k.fire i).trans (h.fire i), k.epoch.trans h.epoch, k.dram.trans h.dram⟩

theorem ite {c : Prop} [Decidable c] (ht : s.CountsKept t) (hu : s.CountsKept u) : s.CountsKept (if c then t else u) := by
  split
  · exact ht
  · exact hu

theorem foldl {α : Type} {f : State → α → State} (h : ∀ s x, State.CountsKept s (f s x)) (l : List α) (s : State) :
    s.CountsKept (l.foldl f s) := by
  induction l generalizing s with
  | nil => exact refl s
  | cons x l ih => exact (h s x).trans (ih _)

/-- An update that leaves the records, the structure, the epoch and DRAM alone. -/
theorem of_eq (recs : t.nh.recs = s.nh.recs) (si : t.si = s.si) (epoch : t.nh.epoch = s.nh.epoch) (dram : t.dram = s.dram) :
    s.CountsKept t := ⟨fun i => by simp only [State.noz, recs, si], epoch, dram⟩

theorem flagRaise (s : State) (a : Nat) (f : BitField) (id unit : Nat) : s.CountsKept ((s.flag a f).raise id unit) :=
  have raised := State.raise_keeps (s.flag a f) id unit
  of_eq (congrArg NhState.recs raised.nh) raised.si (congrArg NhState.epoch raised.nh) raised.dram

/-- A record replaced by one of the same FIRE_COUNT. -/
theorem setNoz {i : Nat} {r : NozRec} (same : r.fire = (s.noz i).fire) : s.CountsKept (s.setNoz i r) := by
  refine ⟨fun j => ?_, rfl, rfl⟩
  by_cases other : j = i
  · rw [other, State.noz_setNoz_self, same]
  · rw [s.noz_setNoz_ne r other]

theorem setRole (s : State) (epoch i : Nat) (serving : Bool) : s.CountsKept (s.setRole epoch i serving) :=
  ite (refl s) (setNoz rfl)

theorem recode (s : State) (v : CodeView) (epoch slot : Nat) (px : Nat × Nat) : s.CountsKept (s.recode v epoch slot px) := by
  unfold State.recode
  extract_lets e c m nh t a
  have mapped : s.CountsKept t := of_eq rfl rfl rfl rfl
  exact ite (refl s) (mapped.trans (ite (setRole ..) ((setRole ..).trans (setRole ..))))

theorem replaceUpdate (s : State) (p : Nat) : s.CountsKept (s.replaceUpdate p) := by
  unfold State.replaceUpdate
  extract_lets c on was fl t
  have judged : s.CountsKept t := of_eq rfl rfl rfl rfl
  exact ite (refl s) (judged.trans (ite (flagRaise ..) (refl t)))

theorem stateEvents (s was : State) (p : Nat) : s.CountsKept (s.stateEvents was p) := foldl (fun _ _ => flagRaise ..) _ s

end State.CountsKept

/-- R202, R208: the commit of a whole port may begin the next epoch, and counts nothing. -/
theorem State.portCommit_counts (s : State) (p : Nat) (changed : Bool) :
    ∃ e, (e = s.nh.epoch ∨ e = (s.nh.epoch + 1) % 65536) ∧
      { s with nh := { s.nh with epoch := e } }.CountsKept (s.portCommit p changed) := by
  unfold State.portCommit
  extract_lets nh v px changed' epoch t rec' u
  have next : epoch = s.nh.epoch ∨ epoch = (s.nh.epoch + 1) % 65536 := (ite_eq_or_eq _ _ _).symm
  clear_value epoch v px
  have recorded : { s with nh := { s.nh with epoch := epoch } }.CountsKept rec'.2 := .of_eq rfl rfl rfl rfl
  have recoded : rec'.2.CountsKept (px.foldl (fun s q => s.recode v epoch rec'.1 q) rec'.2) := .foldl (fun _ _ => .recode ..) _ _
  have composed : rec'.2.CountsKept u := recoded.trans (.of_eq rfl rfl rfl rfl)
  exact ⟨epoch, next, (recorded.trans composed).trans (.replaceUpdate ..)⟩

/-- R202: what the commit of records read back leaves. -/
theorem State.portCommit_restored {s t : State} {p a : Nat} (dram : t.dram = s.dram) (epoch : t.nh.epoch = s.nh.epoch)
    (records : ∀ n < 2048, t.noz (2048 * p + n) = NozRec.ofBytes (s.dramRead (a + 32 * n) 32)) (changed : Bool) :
    let u := (t.portCommit p changed).stateEvents s p
    (u.nh.epoch = s.nh.epoch ∨ u.nh.epoch = (s.nh.epoch + 1) % 65536) ∧
      (∀ n < 2048, (u.noz (2048 * p + n)).fire = (NozRec.ofBytes (s.dramRead (a + 32 * n) 32)).fire) ∧ u.dram = s.dram := by
  obtain ⟨e, next, counts⟩ := t.portCommit_counts p changed
  have restored := counts.trans (.stateEvents _ s p)
  rw [epoch] at next
  exact ⟨by rwa [restored.epoch], fun n inside => (restored.fire _).trans (congrArg NozRec.fire (records n inside)),
    restored.dram.trans dram⟩

section
variable {s : State} {p a : Nat} (mode : s.mode = .idle) (enabled : s.shadowAt p = some a)
  (known : (s.port p).identValid = true) (valid : leAt (s.dramRead (a + 65536) 64) 6 1 = 1)
  (serial : leAt (s.dramRead (a + 65536) 64) 0 4 = (s.port p).serial)
  (headType : leAt (s.dramRead (a + 65536) 64) 4 2 = (s.port p).headType)
include mode enabled known valid serial headType

/-- R202: in IDLE the records of a port whose header matches its head are read back, and committed at once. -/
theorem State.restorePort_matching :
    s.restorePort p = ((s.readRecords p a 2048).portCommit p (s.nh.recs ≠ (s.readRecords p a 2048).nh.recs)).stateEvents s p := by
  unfold State.restorePort State.readRecords
  rw [enabled]
  simp only [State.port] at known serial headType
  dsimp only
  rw [if_neg (by simp only [mode, known, valid, serial, headType, ne_eq, not_true_eq_false, decide_false, Bool.not_true, Bool.or_self,
    Bool.false_eq_true, not_false_eq_true])]

theorem State.restorePort_counts :
    ((s.restorePort p).nh.epoch = s.nh.epoch ∨ (s.restorePort p).nh.epoch = (s.nh.epoch + 1) % 65536) ∧
      (∀ n < 2048, ((s.restorePort p).noz (2048 * p + n)).fire = (NozRec.ofBytes (s.dramRead (a + 32 * n) 32)).fire) ∧
      (s.restorePort p).dram = s.dram := by
  obtain ⟨dram, epoch⟩ := s.readRecords_keeps p a 2048
  rw [State.restorePort_matching mode enabled known valid serial headType]
  exact State.portCommit_restored dram epoch (fun _ => s.noz_readRecords p a) _

end

end Sys2Proof.Machine
end

section
/-! PROOFS of O25, second part: evidence, and the statement. -/

namespace Sys2Proof.Machine

/-! ## Records from inspection -/

/-- The oldest record taken from the queue of inspection. -/
def State.evidTaken (s : State) (rest : List EvidRec) : State := { s with inn := { s.inn with evq := rest } }

section
variable {s : State} {e : EvidRec} {rest : List EvidRec} (first : s.inn.evq = e :: rest)
  (primary : s.fld Reg.AU_WIT_CFG F.AU_WIT_CFG_ROLE ≠ 2)
include first primary

/-- R210: the order of the checks. -/
theorem State.evidence_taken : s.evidence =
    if e.last < s.line - s.si.limits.camOffset - s.evidWindow || (s.epochAt e.last).isNone then
      (s.evidTaken rest).evidDrop F.NH_EVID_DROP_STALE
    else if s.epochAt e.first ≠ s.epochAt e.last then (s.evidTaken rest).evidDrop F.NH_EVID_DROP_SPLIT_GAP
    else (s.servedAt e.port e.pos ((s.epochAt e.last).getD 0)).elim ((s.evidTaken rest).evidDrop F.NH_EVID_DROP_SPLIT_GAP)
      fun i => (s.evidTaken rest).evidApply i e.cls := by
  have noWitness : ¬(s.evidTaken rest).isWitness = true := fun witness => primary (of_decide_eq_true witness)
  unfold State.evidence
  rw [first]
  refine (if_neg noWitness).trans (ite_congr rfl (fun _ => rfl) fun _ => ite_congr rfl (fun _ => rfl) fun _ => ?_)
  show (match s.servedAt e.port e.pos ((s.epochAt e.last).getD 0) with
    | none => _
    | some i => _) = _
  cases s.servedAt e.port e.pos ((s.epochAt e.last).getD 0) <;> rfl

theorem State.evidence_stale (old : e.last < s.line - s.si.limits.camOffset - s.evidWindow) :
    s.evidence = (s.evidTaken rest).evidDrop F.NH_EVID_DROP_STALE := by
  rw [State.evidence_taken first primary, if_pos (by simp [old])]

variable {n : Nat} (recent : s.line - s.si.limits.camOffset - s.evidWindow ≤ e.last) (last : s.epochAt e.last = some n)
include recent last

theorem State.evidence_split (lost : s.epochAt e.first ≠ some n ∨ s.servedAt e.port e.pos n = none) :
    s.evidence = (s.evidTaken rest).evidDrop F.NH_EVID_DROP_SPLIT_GAP := by
  rw [State.evidence_taken first primary, if_neg (by simp [last, Nat.not_lt.mpr recent])]
  by_cases split : s.epochAt e.first ≠ s.epochAt e.last
  · rw [if_pos split]
  · have gap : s.servedAt e.port e.pos n = none := lost.resolve_left (by rwa [last] at split)
    rw [if_neg split, last, Option.getD_some, gap, Option.elim_none]

theorem State.evidence_applied {i : Nat} (whole : s.epochAt e.first = some n) (served : s.servedAt e.port e.pos n = some i) :
    s.evidence = (s.evidTaken rest).evidApply i e.cls := by
  rw [State.evidence_taken first primary, if_neg (by simp [last, Nat.not_lt.mpr recent]), if_neg (by simp [whole, last]), last,
    Option.getD_some, served, Option.elim_some]

end

/-! ## Runs -/

/-- R211: the runs of a nozzle after a record of class CLEAN, WEAK or MISSING. -/
def NozRec.judged (r : NozRec) (cls : Nat) : NozRec := match cls with
  | 0 => { r with missRun := 0, weakRun := 0 }
  | 1 => { r with missRun := 0, weakRun := min 15 (r.weakRun + 1) }
  | _ => { r with missRun := min 15 (r.missRun + 1), weakRun := min 15 (r.weakRun + 1) }

@[simp] theorem NozRec.judged_state (r : NozRec) (cls : Nat) : (r.judged cls).state = r.state := by
  unfold NozRec.judged
  split <;> rfl

/-- R211: DEAD where the missing run reaches its limit, else WEAK where the weak run does. -/
theorem State.evidApply_eq (s : State) (i cls : Nat) :
    let r := s.noz i
    let r' := r.judged cls
    let missN := max 1 (s.fld Reg.NH_CFG F.NH_CFG_MISS_N)
    let weakN := max 1 (s.fld Reg.NH_CFG F.NH_CFG_WEAK_N)
    s.evidApply i cls =
      if r'.missRun = missN && r.missRun ≠ missN && r'.state ≤ 1 then (s.setNoz i r').requestOrDrop (.noz i (some 2) none)
      else if r'.weakRun = weakN && r.weakRun ≠ weakN && r'.state = 0 then (s.setNoz i r').requestOrDrop (.noz i (some 1) none)
      else s.setNoz i r' := rfl

/-- R211: a RETIRED nozzle only counts. -/
theorem State.evidApply_retired {s : State} {i : Nat} (retired : (s.noz i).state = 3) (cls : Nat) :
    s.evidApply i cls = s.setNoz i ((s.noz i).judged cls) := by
  simp [State.evidApply_eq, retired]

/-- R211: a missing run that reaches its limit queues DEAD. -/
theorem State.evidApply_missing {s : State} {i : Nat} (live : (s.noz i).state ≤ 1) (room : (s.noz i).missRun < 15)
    (limit : (s.noz i).missRun + 1 = max 1 (s.fld Reg.NH_CFG F.NH_CFG_MISS_N)) :
    s.evidApply i 2 = (s.setNoz i { s.noz i with missRun := (s.noz i).missRun + 1, weakRun := min 15 ((s.noz i).weakRun + 1) }).requestOrDrop
      (.noz i (some 2) none) := by
  have run : min 15 ((s.noz i).missRun + 1) = (s.noz i).missRun + 1 := by omega
  have judged : (s.noz i).judged 2 =
      { s.noz i with missRun := (s.noz i).missRun + 1, weakRun := min 15 ((s.noz i).weakRun + 1) } := by
    simp only [NozRec.judged, run]
  rw [State.evidApply_eq, judged, if_pos (by simp [live, ← limit])]

/-- Settles O25: the sweep and its records, the shadow, RESTORE, evidence dropped and applied, and the runs of a nozzle. -/
theorem evidenceAndShadow : Obligations.EvidenceAndShadow := by
  unfold Obligations.EvidenceAndShadow
  refine ⟨⟨?sweep, fun s i => State.mem_sweepList, ?area, ?flush, ?write, ?restore, ?refused⟩, ?applied, ?stale, ?split, ?retired, ?dead⟩
  case sweep => exact fun s out => congrArg Host.Outcome.next (s.act_eq_after (·.sweep) out)
  case area =>
    intro s p a enabled
    exact ⟨fun n => State.dramRead_shadowSweep_record enabled, State.dramRead_shadowSweep_header enabled,
      fun x => State.dramRead_shadowSweep_rest enabled, fun x => State.dramRead_shadowSweep_outside enabled⟩
  case flush =>
    intro s i unlimited
    simp only [State.flush_unlimited unlimited, State.noz_setNoz_self, true_and]
    exact ⟨by simp [State.setNoz, AMap.get], fun j => State.noz_setNoz_ne _ _⟩
  case write =>
    intro s i a out enabled
    refine ⟨_, State.next_act out rfl, State.dramRead_shadowWrite_header enabled, State.dramRead_shadowWrite_record enabled,
      fun x => State.dramRead_shadowWrite_outside enabled, ?_⟩
    obtain ⟨valid, write⟩ := State.shadowWrite_enabled enabled
    rw [write]
    simp only [State.dramWrite_regs, State.dramWrite_nh, and_self]
  case restore =>
    intro s m w a p takes mode port enabled known valid serial headType
    exact ⟨_, exec_restore takes port, State.restorePort_counts mode enabled known valid serial headType⟩
  case refused =>
    intro s m w takes mode
    rw [exec_restore takes rfl, State.restorePort_refused mode]
  case applied =>
    exact fun s e rest i n out first primary recent whole last served =>
      State.next_act out (State.evidence_applied first primary recent last whole served)
  case stale => exact fun s e rest out first primary old => State.next_act out (State.evidence_stale first primary old)
  case split =>
    exact fun s e rest n out first primary recent last lost => State.next_act out (State.evidence_split first primary recent last lost)
  case retired =>
    intro s i retired
    simp only [State.evidApply_retired retired, State.noz_setNoz_self, NozRec.judged_state]
    exact ⟨rfl, rfl, rfl, rfl, rfl, rfl, retired, fun c j => s.noz_setNoz_ne _⟩
  case dead => exact fun s i live room limit => State.evidApply_missing live room limit

end Sys2Proof.Machine
end

section
/-! PROOFS of O26: drop-gate scans started, aborted and settled, shots fired and judged, and the classification. -/

namespace Sys2Proof.Machine

/-! ## START and ABORT -/

theorem State.writeNh_gateCtrl (s : State) (d : Word) : s.writeNh Reg.NH_GATE_CTRL d = s.gateCtrl d :=
  (if_neg (by decide)).trans (if_pos rfl)

theorem State.gateCtrl_start (s : State) {d : Word} (start : F.NH_GATE_CTRL_START.get d = 1) (abort : F.NH_GATE_CTRL_ABORT.get d = 0) :
    s.gateCtrl d = s.gateStart := by simp [State.gateCtrl, start, abort]

theorem State.gateCtrl_abort (s : State) {d : Word} (start : F.NH_GATE_CTRL_START.get d = 0) (abort : F.NH_GATE_CTRL_ABORT.get d = 1) :
    s.gateCtrl d = s.gateAbort 1 := by simp [State.gateCtrl, start, abort]

section
variable {s : State} {m : Master} (takes : s.takes m Reg.NH_GATE_CTRL) (w : Word)
include takes

theorem State.act_gateCtrl (d : Word) :
    s.act (·.busWrite m.val Reg.NH_GATE_CTRL d) = s.wrote (s.gateCtrl (regMask Reg.NH_GATE_CTRL d)) m := by
  rw [State.act_busWrite_nh d takes (by decide), State.writeNh_gateCtrl]

theorem exec_gateScanStart : exec (.gateScanStart m w) s = .next (s.wrote s.gateStart m) := by
  have start : F.NH_GATE_CTRL_START.get (cmdWord Reg.NH_GATE_CTRL w [(F.NH_GATE_CTRL_START, 1), (F.NH_GATE_CTRL_ABORT, 0)]) = 1 :=
    get_cmdWord_first (by decide) w 1 0 (by decide) (by decide) (by decide) (by decide) (by decide)
  have abort : F.NH_GATE_CTRL_ABORT.get (cmdWord Reg.NH_GATE_CTRL w [(F.NH_GATE_CTRL_START, 1), (F.NH_GATE_CTRL_ABORT, 0)]) = 0 :=
    get_cmdWord_second (by decide) w _ 1 0 (by decide) (by decide)
  exact congrArg Host.Outcome.next ((State.act_gateCtrl takes _).trans (congrArg (s.wrote · m) (s.gateCtrl_start start abort)))

theorem exec_gateScanAbort : exec (.gateScanAbort m w) s = .next (s.wrote (s.gateAbort 1) m) := by
  have abort : F.NH_GATE_CTRL_ABORT.get (cmdWord Reg.NH_GATE_CTRL w [(F.NH_GATE_CTRL_ABORT, 1), (F.NH_GATE_CTRL_START, 0)]) = 1 :=
    get_cmdWord_first (by decide) w 1 0 (by decide) (by decide) (by decide) (by decide) (by decide)
  have start : F.NH_GATE_CTRL_START.get (cmdWord Reg.NH_GATE_CTRL w [(F.NH_GATE_CTRL_ABORT, 1), (F.NH_GATE_CTRL_START, 0)]) = 0 :=
    get_cmdWord_second (by decide) w _ 1 0 (by decide) (by decide)
  exact congrArg Host.Outcome.next ((State.act_gateCtrl takes _).trans (congrArg (s.wrote · m) (s.gateCtrl_abort start abort)))

end

/-- Step 1 of R212: the scan that START begins over a unit. -/
def State.gateBegun (s : State) (todo : List Nat) : GateScan :=
  { st := 1, cause := 0, scan := (s.nh.gate.scan + 1) % 65536, todo := todo, shots := 0, good := 0, sumA := 0, sumD := 0, results := [],
    ports := (todo.map (· / 2048)).eraseDups }

theorem State.gateStart_ready {s : State} (mode : s.mode = .service) (homed : (s.axis 3).homed = true) (rest : (s.axis 3).st = .stopped)
    (idle : s.nh.gate.running = false) (valid : s.si.valid (s.fld Reg.NH_GATE_CFG F.NH_GATE_CFG_UNIT) = true)
    (noSpit : ∀ p ∈ ((s.gateList (s.fld Reg.NH_GATE_CFG F.NH_GATE_CFG_UNIT)).map (· / 2048)).eraseDups, (s.port p).spit = none) :
    let todo := s.gateList (s.fld Reg.NH_GATE_CFG F.NH_GATE_CFG_UNIT)
    s.gateStart =
      if todo.isEmpty then s.setGate { s.gateBegun todo with st := 3 } else (s.setGate (s.gateBegun todo)).gateMove := by
  have quiet : ((s.gateList (s.fld Reg.NH_GATE_CFG F.NH_GATE_CFG_UNIT)).map (· / 2048)).eraseDups.any
      (fun p => (s.hp.ports.getD p HeadPort.reset).spit.isSome) = false :=
    List.any_eq_false.2 fun p mem => by
      have free : (s.hp.ports.getD p HeadPort.reset).spit = none := noSpit p mem
      rw [free]
      decide
  intro todo
  unfold State.gateStart
  exact if_neg (by simp only [quiet, mode, homed, rest, idle, valid, ne_eq, not_true_eq_false, decide_false, Bool.not_true, Bool.or_self,
    Bool.false_eq_true, not_false_eq_true])

/-- R214: an abort commits the results there are, and ends the scan with its cause. -/
theorem State.gateAbort_running {s : State} (running : s.nh.gate.running = true) (cause : Nat) :
    s.gateAbort cause = ((s.gateCommit.setGate { s.gateCommit.nh.gate with st := 4, cause := cause, todo := [] }).flag
      Reg.NH_STAT F.NH_STAT_GATE_ABORT).raise Ev.GATE_ABORT (portH ((s.nh.gate.todo.head?.getD 0) / 2048)) :=
  if_neg (by simp [running])

/-! ## Settling -/

/-- R475: measuring a clear beam leaves the scan, the axes and DRAM alone. -/
theorem State.clearBeam_keeps (s : State) (thr lvl level : Nat) :
    (s.clearBeam thr lvl level).nh = s.nh ∧ (s.clearBeam thr lvl level).mo = s.mo ∧ (s.clearBeam thr lvl level).dram = s.dram := by
  unfold State.clearBeam
  extract_lets t lo hi
  obtain ⟨nh, mo, dram⟩ : hi.nh = s.nh ∧ hi.mo = s.mo ∧ hi.dram = s.dram := by
    simp only [hi, lo, t, State.setFld_nh, State.setFld_mo, State.setFld_dram, and_self]
  have raised := State.raise_keeps (hi.flag Reg.AN_STAT F.AN_STAT_PD_DARK) Ev.PD_DARK 0
  split
  · simp only [t, State.setFld_nh, State.setFld_mo, State.setFld_dram, and_self]
  · split
    · simp only [raised.nh, raised.mo, raised.dram, State.flag_nh, State.flag_mo, State.flag_dram, nh, mo, dram, and_self]
    · exact ⟨nh, mo, dram⟩

/-- Step 3 of R212: with the carriage at rest, shots begin. -/
theorem State.gateSettled_rest {s : State} (moving : s.nh.gate.st = 1) (rest : (s.axis 3).st = .stopped) (la lb : Nat) :
    (s.gateSettled la lb).nh.gate = { s.nh.gate with st := 2 } ∧ (s.gateSettled la lb).mo = s.mo ∧ (s.gateSettled la lb).dram = s.dram := by
  have settled : s.gateSettled la lb = ((s.setGate { s.nh.gate with st := 2 }).clearBeam Reg.AN_PD0_THR Reg.AN_PD0_LVL la).clearBeam
      Reg.AN_PD1_THR Reg.AN_PD1_LVL lb := if_pos (by simp [moving, rest])
  obtain ⟨nh, mo, dram⟩ := (s.setGate { s.nh.gate with st := 2 }).clearBeam_keeps Reg.AN_PD0_THR Reg.AN_PD0_LVL la
  obtain ⟨nh', mo', dram'⟩ := State.clearBeam_keeps _ Reg.AN_PD1_THR Reg.AN_PD1_LVL lb
  rw [settled, nh', nh, mo', mo, dram', dram]
  exact ⟨rfl, rfl, rfl⟩

/-! ## Shots -/

/-- R212: a shot at the first nozzle still to fire, on a bank that is free for it. -/
theorem State.gateShot_next {s : State} {i : Nat} {rest : List Nat} (firing : s.nh.gate.st = 2) (first : s.nh.gate.todo = i :: rest)
    (ta tb : Option Nat) :
    s.gateShot ta tb = if s.bankFree (i / 2048 / 4) then (s.shotFired i).gateJudge i ta tb else s := by
  unfold State.gateShot
  rw [first]
  cases free : s.bankFree (i / 2048 / 4) <;> simp [firing, free]

/-- R213: a shot without a crossing of beam A is none that is good, and neither is one without a crossing of beam B. -/
theorem State.shotGood_none_left (s : State) (tb : Option Nat) : s.shotGood none tb = none := rfl

theorem State.shotGood_none_right (s : State) (ta : Option Nat) : s.shotGood ta none = none := by cases ta <;> rfl

/-- R213: both crossings within their windows, and the transit within its limits. -/
theorem State.shotGood_iff (s : State) (a b : Nat) :
    let o := s.fld Reg.NH_GATE_WIN F.NH_GATE_WIN_WIN_OPEN * 10
    let l := s.fld Reg.NH_GATE_WIN F.NH_GATE_WIN_WIN_LEN * 10
    let dmax := s.fld Reg.NH_GATE_DT F.NH_GATE_DT_DT_MAX * 10
    let dmin := s.fld Reg.NH_GATE_DT F.NH_GATE_DT_DT_MIN * 10
    s.shotGood (some a) (some b) = some (a, b - a) ↔
      (o ≤ a ∧ a ≤ o + l ∧ o ≤ b ∧ b ≤ o + l + dmax ∧ a + dmin ≤ b ∧ b ≤ a + dmax) := by
  intro o l dmax dmin
  have good : s.shotGood (some a) (some b) =
      if o ≤ a && a ≤ o + l && o ≤ b && b ≤ o + l + dmax && a + dmin ≤ b && b ≤ a + dmax then some (a, b - a) else none := rfl
  rw [good]
  split
  case isTrue within => simpa [and_assoc] using within
  case isFalse beyond => simpa [and_assoc] using beyond

/-- R213: OK where every shot was good, WEAK where half of them were, MISSING below. -/
theorem gateResult_classes {g n : Nat} (shots : 1 ≤ n) (fired : g ≤ n) :
    (gateResult g n = 1 ↔ g = n) ∧ (gateResult g n = 2 ↔ n ≤ 2 * g ∧ g < n) ∧ (gateResult g n = 3 ↔ 2 * g < n) := by
  unfold gateResult
  split
  case isTrue all => omega
  case isFalse missed =>
    split
    case isTrue half => omega
    case isFalse few => omega

/-- Settles O26: scans started, aborted and settled, shots fired, judged and counted, and the classes of R213. -/
theorem dropGateScan : Obligations.DropGateScan := by
  unfold Obligations.DropGateScan
  refine ⟨?start, ?abort, ?settled, ?shot, ?judged, ?good, fun g n => gateResult_classes⟩
  case start =>
    intro s m w takes mode homed rest idle valid todo ports g noSpit
    rw [exec_gateScanStart takes, State.gateStart_ready mode homed rest idle valid noSpit]
    rfl
  case abort =>
    intro s m w takes running t
    rw [exec_gateScanAbort takes, State.gateAbort_running running]
    rfl
  case settled => exact fun s la lb out moving rest => ⟨_, State.next_act out rfl, State.gateSettled_rest moving rest la.val lb.val⟩
  case shot => exact fun s ta tb i rest out firing first => State.next_act out (State.gateShot_next firing first ta tb)
  case judged => exact fun t i ta tb => rfl
  case good => exact fun s a b => ⟨s.shotGood_iff a b, s.shotGood_none_left _, s.shotGood_none_right _⟩

end Sys2Proof.Machine
end
section
/-! SUPPORT of O29 and O51: writes of the registers of IN and CZ, and what transfers and packets leave of the compression engines. -/

namespace Sys2Proof.Machine

/-! ## Writes of IN and CZ -/

/-- A granted write of a register of IN or CZ ends after what its block makes of it. -/
theorem State.act_busWrite_inspection {s : State} {m : Master} {a : Nat} (w : Word) (takes : s.takes m a) (block : a / 0x10000 = 7) :
    s.act (·.busWrite m.val a w) = s.wrote (s.writeIn a (regMask a w)) m := by
  have writable : readOnlyWindow a = false := by
    simp only [readOnlyWindow, Bool.or_eq_false_iff, Bool.and_eq_false_iff, decide_eq_false_iff_not]
    omega
  rw [State.act_busWrite_of_takes s m a w takes writable (by omega)]
  simp [State.writeReg, block]

theorem State.act_busWrite_compression {s : State} {m : Master} {a : Nat} (w : Word) (takes : s.takes m a) (block : a / 0x10000 = 15) :
    s.act (·.busWrite m.val a w) = s.wrote (s.writeCz a (regMask a w)) m := by
  have writable : readOnlyWindow a = false := by
    simp only [readOnlyWindow, Bool.or_eq_false_iff, Bool.and_eq_false_iff, decide_eq_false_iff_not]
    omega
  rw [State.act_busWrite_of_takes s m a w takes writable (by omega)]
  simp [State.writeReg, block]

/-! ## Transfers of a fixed number of bytes

The kernel must not evaluate a transfer whose number of bytes is a numeral: its check at address decode compares that number with the
size of DRAM, a product the kernel would count out. What matches on such a transfer is unfolded here as a function, before it is
applied, and a proof takes its match apart with the functions it calls held opaque: `exists_eq'` names them. -/

theorem State.czDesc_def : State.czDesc = delta% State.czDesc := rfl

theorem State.czFinish_def : State.czFinish = delta% State.czFinish := rfl

theorem State.czChain_def : State.czChain = delta% State.czChain := by
  delta State.czChain
  rfl

theorem State.czChain_body : @State.czChain._f = delta% @State.czChain._f := rfl

/-! ## What leaves the engines alone -/

theorem State.raise_cz (s : State) (id : Nat) : (s.raise id).cz = s.cz := (State.raise_keeps s id 0).cz

theorem State.emit_cz (s : State) (p : Pkt) : (s.emit p).cz = s.cz := by
  unfold State.emit
  split
  case h_1 g _ =>
    unfold State.sendOn
    extract_lets x
    split <;> rfl
  case h_2 => rfl
  case h_3 => exact State.raise_cz ..

theorem State.sendDma_cz (n : Nat) (s : State) (a : Nat) (bs : List Byte) : (s.sendDma n a bs).cz = s.cz := by
  induction n generalizing s a bs with
  | zero => rfl
  | succ n ih =>
    unfold State.sendDma
    split
    · rfl
    · exact (ih ..).trans (State.emit_cz ..)

/-- R293: a refusal is recorded in registers and raised. -/
theorem State.fabricRefuse_cz (s : State) (r : Nat) (e : Refused) : (s.fabricRefuse r e).cz = s.cz := by
  cases e <;> exact State.raise_cz ..

section
variable {s t : State}

theorem State.cz_of_readAs {r a n : Nat} {x : Option (List Byte)} (read : s.readAs r a n = (x, t)) : t.cz = s.cz := by
  unfold State.readAs at read
  split at read
  · exact (Prod.mk.inj read).2 ▸ s.fabricRefuse_cz r _
  · exact (Prod.mk.inj read).2 ▸ rfl

/-- A write of the compressor (requester 9) fills no plate and no raster ring. -/
theorem State.cz_of_writeAs {a : Nat} {bs : List Byte} {done : Bool} (write : s.writeAs 9 a bs = (done, t)) : t.cz = s.cz := by
  unfold State.writeAs at write
  split at write
  · exact (Prod.mk.inj write).2 ▸ s.fabricRefuse_cz 9 _
  · exact (Prod.mk.inj write).2 ▸ rfl

theorem State.cz_of_czDesc {a : Nat} {x : Option CzDesc} (desc : s.czDesc a = (x, t)) : t.cz = s.cz := by
  have reads := @State.cz_of_readAs
  rw [State.czDesc_def] at desc
  obtain ⟨readAs, called⟩ : ∃ f, State.readAs = f := exists_eq'
  simp only [called] at reads desc
  split at desc
  case h_1 refused => exact (Prod.mk.inj desc).2 ▸ reads refused
  case h_2 granted => exact (Prod.mk.inj desc).2 ▸ reads granted

theorem State.cz_of_czFinish {d : CzDesc} {used : Nat} {last done : Bool} (finish : s.czFinish d used last = (done, t)) :
    t.cz = s.cz := by
  have writes := @State.cz_of_writeAs
  rw [State.czFinish_def] at finish
  obtain ⟨writeAs, called⟩ : ∃ f, State.writeAs = f := exists_eq'
  simp only [called] at writes finish
  split at finish
  case h_1 refused => exact (Prod.mk.inj finish).2 ▸ writes refused
  case h_2 granted => exact (writes finish).trans (writes granted)

theorem State.cz_of_czPut {d : CzDesc} {off : Nat} {bs : List Byte} {done : Bool} (put : s.czPut d off bs = (done, t)) :
    t.cz = s.cz := by
  unfold State.czPut at put
  split at put
  · exact (Prod.mk.inj put).2 ▸ State.sendDma_cz ..
  · exact State.cz_of_writeAs put

theorem State.cz_of_compInput {j : CompJob} {x : Option (List Byte × Bool)} (input : s.compInput j = (x, t)) : t.cz = s.cz := by
  unfold State.compInput at input
  split at input
  · exact (Prod.mk.inj input).2 ▸ rfl
  · split at input
    case h_1 granted => exact (Prod.mk.inj input).2 ▸ State.cz_of_readAs granted
    case h_2 refused => exact (Prod.mk.inj input).2 ▸ State.cz_of_readAs refused

end

/-- The stream is written to the chain buffer after buffer. -/
theorem State.czChain_cz (first : Bool) (n : Nat) (s : State) (d : CzDesc) (bs : List Byte) :
    (State.czChain first n s d bs).2.2.cz = s.cz := by
  have puts := @State.cz_of_czPut
  have finishes := @State.cz_of_czFinish
  have reads := @State.cz_of_czDesc
  rw [State.czChain_def, State.czChain_body]
  obtain ⟨czPut, put⟩ : ∃ f, State.czPut = f := exists_eq'
  obtain ⟨czFinish, finish⟩ : ∃ f, State.czFinish = f := exists_eq'
  obtain ⟨czDesc, desc⟩ : ∃ f, State.czDesc = f := exists_eq'
  rw [put] at puts ⊢
  rw [finish] at finishes ⊢
  rw [desc] at reads ⊢
  beta_reduce
  induction n generalizing first s d bs with
  | zero => rfl
  | succ n ih =>
    dsimp only [Nat.brecOn, Nat.brecOn.go]
    generalize (if first = true then 32 else 0) = off
    split
    case h_1 written => exact puts written
    case h_2 s₁ written =>
      have kept : s₁.cz = s.cz := puts written
      split
      · split
        · exact kept
        · split
          case h_1 finished => exact (finishes finished).trans kept
          case h_2 refused => exact (finishes refused).trans kept
      · split
        · exact kept
        · split
          case h_1 refused => exact (reads refused).trans kept
          case h_2 next s₂ described =>
            have kept₂ : s₂.cz = s.cz := (reads described).trans kept
            split
            · exact kept₂
            · split
              case h_1 s₃ refused =>
                split at refused
                · exact (Prod.mk.inj refused).2 ▸ kept₂
                · exact (finishes refused).trans kept₂
              case h_2 s₃ finished =>
                refine (ih ..).trans ?_
                split at finished
                · exact (Prod.mk.inj finished).2 ▸ kept₂
                · exact (finishes finished).trans kept₂

end Sys2Proof.Machine
end

section
/-! PROOFS of O51: decompressor and compressor jobs, and exports of the camera ring. -/

namespace Sys2Proof.Machine

/-! ## Commands of the engines -/

/-- A command puts 1 in place of one bit of its register and 0 in place of another. -/
theorem get_cmdWord_pair {a : Nat} {f g : BitField} (held : ∀ e ∈ [f, g], holdsField a e = true)
    (bit : ∀ e ∈ [f, g], e.lo = e.hi ∧ e.hi < 32) (distinct : f.hi ≠ g.hi) (w : Word) :
    f.get (cmdWord a w [(f, 1), (g, 0)]) = 1 ∧ g.get (cmdWord a w [(f, 1), (g, 0)]) = 0 := by
  simp only [List.forall_mem_cons, List.not_mem_nil, false_imp_iff, implies_true, and_true] at held bit
  obtain ⟨heldF, heldG⟩ := held
  obtain ⟨⟨oneF, topF⟩, oneG, topG⟩ := bit
  refine ⟨?_, ?_⟩
  · rw [get_cmdWord_first heldF w 1 0 (by omega) topF (by omega) topG (by omega)]
    simp [oneF]
  · rw [get_cmdWord_second heldG w f 1 0 (by omega) topG, Nat.zero_mod]

section
variable {s : State} {m : Master} {w : Word}

theorem State.writeCz_decCtrl (s : State) (d : Fin 4) (w : Word) : s.writeCz (Reg.CZ_Dd_CTRL d.val) w = s.decCtrl d.val w := by
  fin_cases d <;> rfl

theorem holdsField_decCtrl (d : Fin 4) : holdsField (Reg.CZ_Dd_CTRL d.val) F.CZ_Dd_CTRL_START = true ∧
    holdsField (Reg.CZ_Dd_CTRL d.val) F.CZ_Dd_CTRL_ABORT = true := by
  revert d
  decide

/-- A granted write of CZ_Dd_CTRL. -/
theorem State.act_decCtrl {d : Fin 4} (takes : s.takes m (Reg.CZ_Dd_CTRL d.val)) (v : Word) :
    s.act (·.busWrite m.val (Reg.CZ_Dd_CTRL d.val) v) = s.wrote (s.decCtrl d.val (regMask (Reg.CZ_Dd_CTRL d.val) v)) m := by
  rw [← State.writeCz_decCtrl]
  refine State.act_busWrite_compression v takes ?_
  unfold Reg.CZ_Dd_CTRL
  omega

theorem exec_dcmpStart {d : Fin 4} (takes : s.takes m (Reg.CZ_Dd_CTRL d.val)) :
    exec (.dcmpStart m d w) s = .next (s.wrote (s.dcmpStart d.val) m) := by
  have held : ∀ e ∈ [F.CZ_Dd_CTRL_START, F.CZ_Dd_CTRL_ABORT], holdsField (Reg.CZ_Dd_CTRL d.val) e = true := by
    simp [holdsField_decCtrl]
  obtain ⟨starts, stays⟩ := get_cmdWord_pair held (by decide) (by decide) w
  have command : s.decCtrl d.val (cmdWord (Reg.CZ_Dd_CTRL d.val) w [(F.CZ_Dd_CTRL_START, 1), (F.CZ_Dd_CTRL_ABORT, 0)]) =
      s.dcmpStart d.val := by
    simp [State.decCtrl, starts, stays]
  exact congrArg Host.Outcome.next ((State.act_decCtrl takes _).trans (congrArg (s.wrote · m) command))

theorem exec_dcmpAbort {d : Fin 4} (takes : s.takes m (Reg.CZ_Dd_CTRL d.val)) :
    exec (.dcmpAbort m d w) s = .next (s.wrote (s.dcmpAbort d.val) m) := by
  have held : ∀ e ∈ [F.CZ_Dd_CTRL_ABORT, F.CZ_Dd_CTRL_START], holdsField (Reg.CZ_Dd_CTRL d.val) e = true := by
    simp [holdsField_decCtrl]
  obtain ⟨aborts, stays⟩ := get_cmdWord_pair held (by decide) (by decide) w
  have command : s.decCtrl d.val (cmdWord (Reg.CZ_Dd_CTRL d.val) w [(F.CZ_Dd_CTRL_ABORT, 1), (F.CZ_Dd_CTRL_START, 0)]) =
      s.dcmpAbort d.val := by
    simp [State.decCtrl, aborts, stays]
  exact congrArg Host.Outcome.next ((State.act_decCtrl takes _).trans (congrArg (s.wrote · m) command))

theorem exec_czStart (takes : s.takes m Reg.CZ_C_CTRL) : exec (.czStart m w) s = .next (s.wrote s.czStart m) := by
  obtain ⟨starts, stays⟩ := get_cmdWord_pair (a := Reg.CZ_C_CTRL) (f := F.CZ_C_CTRL_START) (g := F.CZ_C_CTRL_ABORT) (by decide)
    (by decide) (by decide) w
  have command : s.compCtrl (cmdWord Reg.CZ_C_CTRL w [(F.CZ_C_CTRL_START, 1), (F.CZ_C_CTRL_ABORT, 0)]) = s.czStart := by
    simp [State.compCtrl, starts, stays]
  exact congrArg Host.Outcome.next ((State.act_busWrite_compression _ takes (by decide)).trans (congrArg (s.wrote · m) command))

theorem exec_czAbort (takes : s.takes m Reg.CZ_C_CTRL) : exec (.czAbort m w) s = .next (s.wrote s.czAbort m) := by
  obtain ⟨aborts, stays⟩ := get_cmdWord_pair (a := Reg.CZ_C_CTRL) (f := F.CZ_C_CTRL_ABORT) (g := F.CZ_C_CTRL_START) (by decide)
    (by decide) (by decide) w
  have command : s.compCtrl (cmdWord Reg.CZ_C_CTRL w [(F.CZ_C_CTRL_ABORT, 1), (F.CZ_C_CTRL_START, 0)]) = s.czAbort := by
    simp [State.compCtrl, aborts, stays]
  exact congrArg Host.Outcome.next ((State.act_busWrite_compression _ takes (by decide)).trans (congrArg (s.wrote · m) command))

theorem exec_inExportStart (takes : s.takes m Reg.IN_XP_CTRL) :
    exec (.inExportStart m w) s = .next (s.wrote s.exportStart m) := by
  have starts : F.IN_XP_CTRL_START.get (cmdWord Reg.IN_XP_CTRL w [(F.IN_XP_CTRL_START, 1)]) = 1 :=
    (get_regMask (by decide) _).trans (F.IN_XP_CTRL_START.get_put w 1 (by decide) (by decide))
  have command : s.writeIn Reg.IN_XP_CTRL (cmdWord Reg.IN_XP_CTRL w [(F.IN_XP_CTRL_START, 1)]) = s.exportStart := if_pos starts
  exact congrArg Host.Outcome.next ((State.act_busWrite_inspection _ takes (by decide)).trans (congrArg (s.wrote · m) command))

end

/-! ## Decompressor jobs -/

theorem State.readAs_granted {s : State} {r a n : Nat} (granted : s.fabricCheck 0 r a n false = none) :
    s.readAs r a n = (some (s.fabricCipher r a (s.dramRead a n)), s) := by
  simp only [State.readAs, granted]

theorem State.readAs_refused {s : State} {r a n : Nat} {e : Refused} (refused : s.fabricCheck 0 r a n false = some e) :
    s.readAs r a n = (none, s.fabricRefuse r e) := by
  simp only [State.readAs, refused]

@[simp] theorem State.dec_setDec_self {s : State} {d : Nat} (j : Option DecJob) (there : d < s.cz.dec.length) :
    (s.setDec d j).dec d = j := by
  simp [State.dec, State.setDec, there]

@[simp] theorem State.dec_setDec_none (s : State) (d : Nat) : (s.setDec d none).dec d = none := by
  by_cases there : d < s.cz.dec.length
  · exact State.dec_setDec_self none there
  · simp [State.dec, State.setDec, Nat.le_of_not_lt there]

/-- The end of a job changes its status and raises DCMP_ERR at most. -/
theorem State.decEnd_keeps (s : State) (d e : Nat) : (s.decEnd d e).cz = (s.setDec d none).cz ∧ (s.decEnd d e).dram = s.dram := by
  unfold State.decEnd
  extract_lets t
  split
  · exact ⟨rfl, rfl⟩
  · have raised := State.raise_keeps (t.flag Reg.CZ_STAT F.CZ_STAT_DCMP_ERR) Ev.DCMP_ERR 0
    exact ⟨raised.cz, raised.dram⟩

theorem State.dec_decEnd (s : State) (d e : Nat) : (s.decEnd d e).dec d = none := by
  unfold State.dec
  rw [(s.decEnd_keeps d e).1]
  exact s.dec_setDec_none d

theorem State.fld_decEnd_err (s : State) (d : Fin 4) (e : Nat) :
    (s.decEnd d.val e).fld (Reg.CZ_Dd_STAT d.val) F.CZ_Dd_STAT_ERR = e % 16 := by
  have own : Reg.CZ_Dd_STAT d.val ≠ Reg.CZ_STAT ∧ Reg.CZ_Dd_STAT d.val ≠ Reg.FL_STAT ∧ Reg.CZ_Dd_STAT d.val ≠ Reg.FL_CSR ∧
      Reg.CZ_Dd_STAT d.val ≠ Reg.FL_LOST := by
    decide +revert
  obtain ⟨cz, stat, csr, lost⟩ := own
  unfold State.decEnd
  extract_lets t
  have ended : t.fld (Reg.CZ_Dd_STAT d.val) F.CZ_Dd_STAT_ERR = e % 16 :=
    (State.fld_setFld_other _ _ F.CZ_Dd_STAT_DONE F.CZ_Dd_STAT_ERR 1 (by decide) (by decide) (by decide)).trans
      (State.fld_setFld _ _ F.CZ_Dd_STAT_ERR e (by decide) (by decide))
  split
  · exact ended
  · have raised := State.raise_keeps (t.flag Reg.CZ_STAT F.CZ_STAT_DCMP_ERR) Ev.DCMP_ERR 0
    unfold State.fld at ended ⊢
    rw [raised.rd _ stat csr lost, State.rd_flag_ne t _ cz, ended]

theorem State.dcmpStart_def : State.dcmpStart = delta% State.dcmpStart := rfl

theorem State.dcmpBlockDone_def : State.dcmpBlockDone = delta% State.dcmpBlockDone := rfl

theorem State.decBlock_def : State.decBlock = delta% State.decBlock := rfl

theorem State.dcmpStart_busy {s : State} {d : Nat} (busy : (s.dec d).isSome = true) : s.dcmpStart d = s.decErr d 0xA := by
  rw [State.dcmpStart_def]
  exact if_pos busy

section
variable {s : State} {d : Nat} (idle : s.dec d = none)
include idle

/-- R410: no job begins in BOOT and TEST. -/
theorem State.dcmpStart_mode (mode : s.czMode = false) :
    s.dcmpStart d = (s.decErr d 0xB).flag (Reg.CZ_Dd_STAT d) F.CZ_Dd_STAT_DONE := by
  rw [State.dcmpStart_def]
  simp only [idle, mode, Option.isSome_none, Bool.not_false, Bool.false_eq_true, if_false, if_true]

variable {t : State} {h : List Byte} (mode : s.czMode = true)
  (begun : (s.decErr d 0).wrN (Reg.CZ_Dd_BLOCK d) (s.fld (Reg.CZ_Dd_FIRST d) F.CZ_Dd_FIRST_VALUE) = t)
  (header : t.readAs 3 (s.rdN (Reg.CZ_Dd_SRC d) * 64) 32 = (some h, t))
include mode begun header

/-- Step 1 of R403: a header that is bad for its blocks. -/
theorem State.dcmpStart_bad
    (bad : headerOk h (s.fld (Reg.CZ_Dd_FIRST d) F.CZ_Dd_FIRST_VALUE) (s.fld (Reg.CZ_Dd_COUNT d) F.CZ_Dd_COUNT_VALUE) = false) :
    s.dcmpStart d = t.decEnd d 1 := by
  rw [State.dcmpStart_def]
  obtain ⟨readAs, called⟩ : ∃ f, State.readAs = f := exists_eq'
  rw [called] at header ⊢
  simp only [idle, mode, begun, header, bad, Option.isSome_none, Bool.not_true, Bool.not_false, Bool.false_eq_true, if_false, if_true]

/-- Step 1 of R403: a good header, with blocks to decode. -/
theorem State.dcmpStart_good
    (good : headerOk h (s.fld (Reg.CZ_Dd_FIRST d) F.CZ_Dd_FIRST_VALUE) (s.fld (Reg.CZ_Dd_COUNT d) F.CZ_Dd_COUNT_VALUE) = true)
    (some' : s.fld (Reg.CZ_Dd_COUNT d) F.CZ_Dd_COUNT_VALUE ≠ 0) :
    s.dcmpStart d = t.setDec d (some ⟨s.rdN (Reg.CZ_Dd_SRC d) * 64, t.rdN (Reg.CZ_Dd_DST d) * 64,
      s.fld (Reg.CZ_Dd_FIRST d) F.CZ_Dd_FIRST_VALUE, s.fld (Reg.CZ_Dd_COUNT d) F.CZ_Dd_COUNT_VALUE,
      max 64 (min 65536 (t.fld (Reg.CZ_Dd_LIMIT d) F.CZ_Dd_LIMIT_OUT_LIMIT)), leAt h 8 4, leAt h 0x0C 4, leAt h 0x18 4⟩) := by
  rw [State.dcmpStart_def]
  obtain ⟨readAs, called⟩ : ∃ f, State.readAs = f := exists_eq'
  rw [called] at header ⊢
  simp only [idle, mode, begun, header, good, some', Option.isSome_none, Bool.not_true, Bool.false_eq_true, if_false]

end

/-- R403: reading a block changes no DRAM, and a block that decodes is what its header says. -/
theorem State.decBlock_decodes {s t : State} {j : DecJob} {r : Except Nat (List Byte)} (block : s.decBlock j = (r, t)) :
    s.StreamKeeps t ∧ ∀ bs, r = .ok bs → bs.length ≤ j.blockOut ∧ 0 < bs.length ∧
      ∃ e h, leAt h 0 4 = j.block ∧ bs.length = leAt h 4 4 ∧ crc32 bs = leAt h 0x0C 4 ∧ 16 + leAt h 8 4 = leAt e 4 4 := by
  have reads := @State.StreamKeeps.of_readAs
  rw [State.decBlock_def] at block
  obtain ⟨readAs, called⟩ : ∃ f, State.readAs = f := exists_eq'
  simp only [called] at reads block
  split at block
  case h_1 refused =>
    obtain ⟨rfl, rfl⟩ := Prod.mk.inj block
    exact ⟨reads refused, nofun⟩
  case h_2 e s₁ index =>
    have kept₁ := reads index
    split at block
    case h_1 refused =>
      obtain ⟨rfl, rfl⟩ := Prod.mk.inj block
      exact ⟨kept₁.trans (reads refused), nofun⟩
    case h_2 h s₂ header =>
      have kept₂ := kept₁.trans (reads header)
      split at block
      case isTrue bad =>
        obtain ⟨rfl, rfl⟩ := Prod.mk.inj block
        exact ⟨kept₂, nofun⟩
      case isFalse good =>
        split at block
        case h_1 refused =>
          obtain ⟨rfl, rfl⟩ := Prod.mk.inj block
          exact ⟨kept₂.trans (reads refused), nofun⟩
        case h_2 data s₃ body =>
          have kept₃ := kept₂.trans (reads body)
          split at block
          case h_1 wrong =>
            obtain ⟨rfl, rfl⟩ := Prod.mk.inj block
            exact ⟨kept₃, nofun⟩
          case h_2 out inflated =>
            split at block
            · obtain ⟨rfl, rfl⟩ := Prod.mk.inj block
              exact ⟨kept₃, nofun⟩
            · split at block
              · obtain ⟨rfl, rfl⟩ := Prod.mk.inj block
                exact ⟨kept₃, nofun⟩
              · rename_i length crc
                obtain ⟨rfl, rfl⟩ := Prod.mk.inj block
                refine ⟨kept₃, fun bs same => ?_⟩
                cases same
                simp only [Bool.or_eq_true, Bool.and_eq_true, decide_eq_true_eq, not_or, not_and, not_not, not_lt] at good length crc
                exact ⟨by omega, by omega, e, h, by omega, by omega, crc, by omega⟩

theorem State.dcmpBlockDone_failed {s t : State} {d e : Nat} {j : DecJob} (running : s.dec d = some j)
    (failed : s.decBlock j = (.error e, t)) : s.dcmpBlockDone d = t.decEnd d e := by
  rw [State.dcmpBlockDone_def]
  obtain ⟨decBlock, called⟩ : ∃ f, State.decBlock = f := exists_eq'
  rw [called] at failed ⊢
  simp only [running, failed]

theorem State.dcmpBlockDone_written {s t u : State} {d : Nat} {j : DecJob} {bs : List Byte} (running : s.dec d = some j)
    (decoded : s.decBlock j = (.ok bs, t)) (written : t.decWrite (bs.length / 64 + 1) (j.dst + j.block * j.blockOut) bs = (true, u)) :
    s.dcmpBlockDone d = if j.left = 1 then u.decEnd d 0
      else (u.setDec d (some { j with block := j.block + 1, left := j.left - 1 })).wrN (Reg.CZ_Dd_BLOCK d) (j.block + 1) := by
  rw [State.dcmpBlockDone_def]
  obtain ⟨decBlock, called⟩ : ∃ f, State.decBlock = f := exists_eq'
  obtain ⟨decWrite, called'⟩ : ∃ f, State.decWrite = f := exists_eq'
  rw [called] at decoded ⊢
  rw [called'] at written ⊢
  simp only [running, decoded, written]

/-! ## Compressor jobs -/

theorem State.czJobDone_def : State.czJobDone = delta% State.czJobDone := rfl

/-- A job that begins leaves DONE. -/
theorem State.isSet_compBegin_done (s : State) (j : CompJob) :
    (s.compBegin j).isSet Reg.CZ_C_STAT F.CZ_C_STAT_DONE = s.isSet Reg.CZ_C_STAT F.CZ_C_STAT_DONE := by
  have begun : (s.compBegin j).fld Reg.CZ_C_STAT F.CZ_C_STAT_DONE = s.fld Reg.CZ_C_STAT F.CZ_C_STAT_DONE := by
    unfold State.compBegin
    extract_lets t
    calc t.fld Reg.CZ_C_STAT F.CZ_C_STAT_DONE
      _ = ((s.compErr 0).setFld Reg.CZ_C_STAT F.CZ_C_STAT_SOURCE (b2n j.isExport)).fld Reg.CZ_C_STAT F.CZ_C_STAT_DONE :=
        State.fld_wr_ne _ _ _ (by decide)
      _ = (s.compErr 0).fld Reg.CZ_C_STAT F.CZ_C_STAT_DONE := State.fld_setFld_other _ _ _ _ _ (by decide) (by decide) (by decide)
      _ = s.fld Reg.CZ_C_STAT F.CZ_C_STAT_DONE := State.fld_setFld_other _ _ _ _ _ (by decide) (by decide) (by decide)
  unfold State.isSet
  rw [begun]

/-- A job as its end leaves it, before waiting exports begin. -/
structure State.CompEnded (s : State) (e : Nat) (t : State) : Prop where
  cz : t.cz = { s.cz with comp := none }
  dram : t.dram = s.dram
  stat : t.rd Reg.CZ_C_STAT = ((s.compErr e).flag Reg.CZ_C_STAT F.CZ_C_STAT_DONE).rd Reg.CZ_C_STAT

namespace State.CompEnded

variable {s t : State} {e : Nat}

theorem done (h : s.CompEnded e t) : t.isSet Reg.CZ_C_STAT F.CZ_C_STAT_DONE = true := by
  have flagged := (s.compErr e).isSet_flag Reg.CZ_C_STAT F.CZ_C_STAT_DONE (by decide) (by decide)
  unfold State.isSet State.fld at flagged ⊢
  rwa [h.stat]

theorem err (h : s.CompEnded e t) : t.fld Reg.CZ_C_STAT F.CZ_C_STAT_ERR = e % 16 := by
  have kept := State.fld_setFld_other (s.compErr e) Reg.CZ_C_STAT F.CZ_C_STAT_DONE F.CZ_C_STAT_ERR 1 (by decide) (by decide) (by decide)
  have written := State.fld_setFld s Reg.CZ_C_STAT F.CZ_C_STAT_ERR e (by decide) (by decide)
  exact (congrArg F.CZ_C_STAT_ERR.get h.stat).trans (kept.trans written)

/-- The end of exports and CZ_ERR leave the engine's own state. -/
theorem of_eq {u : State} (h : s.CompEnded e t) (cz : u.cz = t.cz) (dram : u.dram = t.dram)
    (stat : u.rd Reg.CZ_C_STAT = t.rd Reg.CZ_C_STAT) : s.CompEnded e u :=
  ⟨cz.trans h.cz, dram.trans h.dram, stat.trans h.stat⟩

theorem setFld (h : s.CompEnded e t) {a : Nat} (f : BitField) (v : Nat) (other : Reg.CZ_C_STAT ≠ a) : s.CompEnded e (t.setFld a f v) :=
  h.of_eq rfl rfl (t.rd_setFld_ne f v other)

theorem raise (h : s.CompEnded e t) (id : Nat) : s.CompEnded e (t.raise id) :=
  have raised := State.raise_keeps t id 0
  h.of_eq raised.cz raised.dram (raised.rd _ (by decide) (by decide) (by decide))

theorem setInn (h : s.CompEnded e t) (i : InState) : s.CompEnded e { t with inn := i } := h.of_eq rfl rfl rfl

end State.CompEnded

/-- R409: the end of a job sets DONE and ERR; then the engine is free, or takes the exports that wait (R410). -/
theorem State.compEnd_ends {s : State} {j : CompJob} (busy : s.cz.comp = some j) (e : Nat) : ∃ t, s.CompEnded e t ∧
    (s.cz.waitExport = none → s.compEnd e = t) ∧
    ∀ x, s.cz.waitExport = some x → s.compEnd e = { t with cz := { t.cz with waitExport := none } }.compBegin x := by
  unfold State.compEnd
  split
  case h_1 idle => simp [idle] at busy
  case h_2 i there =>
    extract_lets s₁ cz s₂ s₃ inn s₄ s₅ cz₅
    have ended₂ : s.CompEnded e s₂ := ⟨rfl, rfl, rfl⟩
    have ended₄ : s.CompEnded e s₄ := by
      unfold s₄
      split
      · have told : s.CompEnded e s₃ := (ended₂.setFld _ _ (by decide)).setFld _ _ (by decide)
        exact told.setInn _
      · exact ended₂
    have ended₅ : s.CompEnded e s₅ := by
      unfold s₅
      split
      · exact (ended₄.setFld _ _ (by decide)).raise _
      · exact ended₄
    have waits : s₅.cz.waitExport = s.cz.waitExport := by rw [ended₅.cz]
    refine ⟨s₅, ended₅, fun free => ?_, fun x next => ?_⟩
    · simp only [waits, free]
    · simp only [waits, next]
      rfl

/-- R410: the end of a job leaves what exports wait, if any do, as the job of the engine. -/
theorem State.cz_compEnd {s : State} {j : CompJob} (busy : s.cz.comp = some j) (e : Nat) :
    (s.compEnd e).cz = { s.cz with comp := s.cz.waitExport, waitExport := none } := by
  obtain ⟨t, ended, alone, follows⟩ := State.compEnd_ends busy e
  cases waits : s.cz.waitExport with
  | none => rw [alone waits, ended.cz, ← waits]
  | some x =>
    rw [follows x waits]
    unfold State.compBegin
    rw [ended.cz]
    rfl

theorem State.dram_compEnd {s : State} {j : CompJob} (busy : s.cz.comp = some j) (e : Nat) : (s.compEnd e).dram = s.dram := by
  obtain ⟨t, ended, alone, follows⟩ := State.compEnd_ends busy e
  cases waits : s.cz.waitExport with
  | none => rw [alone waits, ended.dram]
  | some x =>
    rw [follows x waits]
    exact ended.dram

theorem State.isSet_compEnd_done {s : State} {j : CompJob} (busy : s.cz.comp = some j) (e : Nat) :
    (s.compEnd e).isSet Reg.CZ_C_STAT F.CZ_C_STAT_DONE = true := by
  obtain ⟨t, ended, alone, follows⟩ := State.compEnd_ends busy e
  cases waits : s.cz.waitExport with
  | none => rw [alone waits, ended.done]
  | some x =>
    rw [follows x waits, State.isSet_compBegin_done]
    exact ended.done

theorem State.fld_compEnd_err {s : State} {j : CompJob} (busy : s.cz.comp = some j) (alone : s.cz.waitExport = none) (e : Nat) :
    (s.compEnd e).fld Reg.CZ_C_STAT F.CZ_C_STAT_ERR = e % 16 := by
  obtain ⟨t, ended, ends, -⟩ := State.compEnd_ends busy e
  rw [ends alone, ended.err]

/-- Whatever the chain takes, a job ends with its job still in hand. -/
theorem State.czJobDone_ends {s : State} {j : CompJob} (busy : s.cz.comp = some j) :
    ∃ (t : State) (e : Nat), t.cz = s.cz ∧ s.czJobDone = t.compEnd e := by
  have inputs := @State.cz_of_compInput
  have reads := @State.cz_of_czDesc
  have chains := State.czChain_cz
  have puts := @State.cz_of_czPut
  have finishes := @State.cz_of_czFinish
  rw [State.czJobDone_def]
  obtain ⟨compInput, input⟩ : ∃ f, State.compInput = f := exists_eq'
  obtain ⟨czDesc, desc⟩ : ∃ f, State.czDesc = f := exists_eq'
  obtain ⟨czChain, chain⟩ : ∃ f, State.czChain = f := exists_eq'
  obtain ⟨czPut, put⟩ : ∃ f, State.czPut = f := exists_eq'
  obtain ⟨czFinish, finish⟩ : ∃ f, State.czFinish = f := exists_eq'
  rw [input] at inputs ⊢
  rw [desc] at reads ⊢
  rw [chain] at chains ⊢
  rw [put] at puts ⊢
  rw [finish] at finishes ⊢
  have heads {s t : State} {d : CzDesc} {a b : List Byte} {done : Bool}
      (written : (if d.host = true then czPut s d 0 a else czPut s d 0 b) = (done, t)) : t.cz = s.cz := by
    split at written <;> exact puts written
  beta_reduce
  split
  case h_1 none => simp [none] at busy
  case h_2 i there =>
    split
    case h_1 s₁ refused => exact ⟨s₁, 5, inputs refused, rfl⟩
    case h_2 bs past s₁ taken =>
      have kept₁ := inputs taken
      extract_lets c
      split
      case h_1 s₂ refused => exact ⟨s₂, 5, (reads refused).trans kept₁, rfl⟩
      case h_2 d s₂ described =>
        have kept₂ := (reads described).trans kept₁
        split
        · exact ⟨s₂, 1, kept₂, rfl⟩
        · extract_lets r s₃ head
          have kept₃ : s₃.cz = s.cz := (chains ..).trans kept₂
          have kept₄ : ∀ x, head = x → x.2.cz = s.cz := fun x written => (heads (written.trans Prod.mk.eta.symm)).trans kept₃
          clear_value head
          split
          · exact ⟨s₃, 1, kept₃, rfl⟩
          · exact ⟨s₃, 5, kept₃, rfl⟩
          · split
            case h_1 s₄ => exact ⟨s₄, 5, kept₄ _ rfl, rfl⟩
            case h_2 s₄ =>
              extract_lets s₅
              have kept₅ : s₅.cz = s.cz := kept₄ _ rfl
              split
              case h_1 s₆ refused => exact ⟨s₆, 5, (finishes refused).trans kept₅, rfl⟩
              case h_2 s₆ finished => exact ⟨s₆, _, (finishes finished).trans kept₅, rfl⟩

/-- R409: input the fabric refuses ends a job with ERR 5. -/
theorem State.czJobDone_refused {s : State} {j : CompJob} {e : Refused} (busy : s.cz.comp = some j) (range : j.isExport = false)
    (refused : s.fabricCheck 0 9 j.src j.len false = some e) : s.czJobDone = (s.fabricRefuse 9 e).compEnd 5 := by
  have input : s.compInput j = (none, s.fabricRefuse 9 e) := by
    simp only [State.compInput, range, State.readAs_refused refused, Bool.false_eq_true, if_false]
  rw [State.czJobDone_def]
  obtain ⟨czDesc, desc⟩ : ∃ f, State.czDesc = f := exists_eq'
  obtain ⟨compInput, called⟩ : ∃ f, State.compInput = f := exists_eq'
  rw [desc]
  rw [called] at input ⊢
  simp only [busy, input]

/-! ## Exports -/

section
variable {s : State}

theorem State.exportStart_busy (busy : s.inn.exporting.isSome = true) : s.exportStart = s.setFld Reg.IN_XP_STAT F.IN_XP_STAT_ERR 3 :=
  if_pos busy

variable (idle : s.inn.exporting = none)
include idle

/-- R410: no exports begin in BOOT and TEST. -/
theorem State.exportStart_mode (mode : s.czMode = false) :
    s.exportStart = (s.compErr 6).flag Reg.CZ_C_STAT F.CZ_C_STAT_DONE := by
  simp [State.exportStart, idle, mode]

/-- R251: a line outside the ring. -/
theorem State.exportStart_range (mode : s.czMode = true) {i : Nat} (asked : i < s.rdN Reg.IN_XP_COUNT)
    (near : i ≤ s.rdN Reg.IN_IMG_LINES) (out : s.inRing (s.rdN Reg.IN_XP_FIRST + i) = false) :
    s.exportStart = s.setFld Reg.IN_XP_STAT F.IN_XP_STAT_ERR 1 := by
  have some' : ((List.range (min (s.rdN Reg.IN_XP_COUNT) (s.rdN Reg.IN_IMG_LINES + 1))).all fun i =>
      s.inRing (s.rdN Reg.IN_XP_FIRST + i)) = false :=
    List.all_eq_false.2 ⟨i, List.mem_range.2 (by omega), by simp [out]⟩
  simp [State.exportStart, idle, mode, some']

/-- R251: lines of the ring, with the compressor free. -/
theorem State.exportStart_free (mode : s.czMode = true) (inside : ∀ i < s.rdN Reg.IN_XP_COUNT, s.inRing (s.rdN Reg.IN_XP_FIRST + i) = true)
    (free : s.cz.comp = none) : s.exportStart =
      ({ s with inn := { s.inn with exporting := some (s.rdN Reg.IN_XP_FIRST, s.rdN Reg.IN_XP_FIRST + s.rdN Reg.IN_XP_COUNT) } }.setFld
        Reg.IN_XP_STAT F.IN_XP_STAT_ERR 0).compBegin ⟨true, s.rdN Reg.IN_XP_FIRST, s.rdN Reg.IN_XP_COUNT, s.rdN Reg.IN_XP_DESC * 64⟩ := by
  have all : ((List.range (min (s.rdN Reg.IN_XP_COUNT) (s.rdN Reg.IN_IMG_LINES + 1))).all fun i =>
      s.inRing (s.rdN Reg.IN_XP_FIRST + i)) = true :=
    List.all_eq_true.2 fun i there => inside i (by have := List.mem_range.1 there; omega)
  simp [State.exportStart, idle, mode, all, free]

end

theorem State.czMode_iff (s : State) : s.czMode = true ↔ s.mode ≠ .boot ∧ s.mode ≠ .test := by
  simp [State.czMode]

/-- Settles O51: decompressor jobs begun, aborted and decoded block by block, compressor jobs, and exports of the camera ring. -/
theorem compression : Obligations.Compression := by
  unfold Obligations.Compression
  refine ⟨⟨?decStart, ?decAbort, ?decFailed, ?decWritten⟩, ?decoded, ⟨?start, ?abort, ?done⟩, ?exports⟩
  case decStart =>
    intro s m d w takes src first count t
    refine ⟨_, exec_dcmpStart takes, State.dcmpStart_busy, State.dcmpStart_mode, fun idle mode there granted => ?_⟩
    intro h
    have header : t.readAs 3 src 32 = (some h, t) := State.readAs_granted granted
    refine ⟨fun good some' => ?_, fun bad => ?_⟩
    · have dst : t.rdN (Reg.CZ_Dd_DST d.val) = s.rdN (Reg.CZ_Dd_DST d.val) := by
        have apart : Reg.CZ_Dd_DST d.val ≠ Reg.CZ_Dd_BLOCK d.val ∧ Reg.CZ_Dd_DST d.val ≠ Reg.CZ_Dd_STAT d.val := by
          unfold Reg.CZ_Dd_DST Reg.CZ_Dd_BLOCK Reg.CZ_Dd_STAT
          omega
        obtain ⟨block, stat⟩ := apart
        unfold State.rdN
        rw [State.rd_wrN_ne _ _ block, State.decErr, State.rd_setFld_ne s _ _ stat]
      have there' : d.val < t.cz.dec.length := there
      rw [State.dcmpStart_good idle mode rfl header good some']
      exact ⟨_, State.dec_setDec_self _ there', rfl, rfl, rfl, congrArg (· * 64) dst, rfl⟩
    · rw [State.dcmpStart_bad idle mode rfl header bad]
      exact ⟨t.dec_decEnd d.val 1, t.fld_decEnd_err d 1⟩
  case decAbort => exact fun s m d w takes => exec_dcmpAbort takes
  case decFailed =>
    intro s d j e t out running failed
    obtain ⟨kept, -⟩ := State.decBlock_decodes failed
    exact ⟨State.next_act out (State.dcmpBlockDone_failed running failed), (t.decEnd_keeps d.val e).2.trans kept.dram⟩
  case decWritten =>
    exact fun s d j bs t v out running decoded written => State.next_act out (State.dcmpBlockDone_written running decoded written)
  case decoded =>
    intro s t j bs decoded
    obtain ⟨kept, spec⟩ := State.decBlock_decodes decoded
    exact ⟨kept.dram, spec bs rfl⟩
  case start =>
    intro s m w takes
    refine ⟨_, exec_czStart takes, fun busy => if_pos busy, fun idle mode => ?_, fun idle mode => ?_⟩
    · simp [State.czStart, idle, mode]
    · simp [State.czStart, idle, mode, State.compBegin]
  case abort =>
    intro s m w takes
    refine ⟨_, exec_czAbort takes, fun idle => ?_, fun busy => ?_⟩
    · simp [State.czAbort, State.compEnd, idle]
    · obtain ⟨j, busy⟩ := Option.isSome_iff_exists.1 busy
      exact ⟨rfl, congrArg CzState.comp (State.cz_compEnd busy 3), State.dram_compEnd busy 3⟩
  case done =>
    intro s j out busy
    obtain ⟨t, e, kept, ends⟩ := State.czJobDone_ends busy
    have busy' : t.cz.comp = some j := by rw [kept, busy]
    have free := State.cz_compEnd busy' e
    refine ⟨_, State.next_act out ends, ?_, congrArg CzState.waitExport free, State.isSet_compEnd_done busy' e, fun range refused alone => ?_⟩
    · rw [free, kept]
    · obtain ⟨x, refused⟩ := Option.ne_none_iff_exists'.1 refused
      have other := s.fabricRefuse_cz 9 x
      rw [← ends, State.czJobDone_refused busy range refused]
      exact ⟨State.fld_compEnd_err (other ▸ busy) (other ▸ alone) 5,
        (State.dram_compEnd (other ▸ busy) 5).trans (State.StreamKeeps.fabricRefuse s 9 x).dram⟩
  case exports =>
    intro s m w takes first n
    rw [exec_inExportStart takes]
    refine ⟨fun busy => ?_, fun idle _ inside free boot test => ?_, fun idle boot test out => ?_, fun idle mode => ?_⟩
    · rw [State.exportStart_busy busy]
    · rw [State.exportStart_free idle (s.czMode_iff.2 ⟨boot, test⟩) inside free]
    · obtain ⟨i, asked, near, out⟩ := out
      rw [State.exportStart_range idle (s.czMode_iff.2 ⟨boot, test⟩) asked near out]
    · have off : s.czMode = false := by
        rcases mode with mode | mode <;> simp [State.czMode, mode]
      rw [State.exportStart_mode idle off]

end Sys2Proof.Machine
end

section
/-! PROOFS of O29, first part: inspection enabled and disabled, table entries and setting banks. -/

namespace Sys2Proof.Machine

/-! ## Enabling -/

section
variable {s : State} {m : Master} {w : Word}

theorem exec_inEnable (takes : s.takes m Reg.IN_CTRL) :
    exec (.inEnable m w) s = .next (s.wrote (s.inEnable (cmdWord Reg.IN_CTRL w [])) m) :=
  congrArg Host.Outcome.next (State.act_busWrite_inspection w takes (by decide))

theorem exec_inTabDataWrite (takes : s.takes m Reg.IN_TAB_DATA) :
    exec (.inTabDataWrite m w) s = .next (s.wrote (s.inTabWrite (cmdWord Reg.IN_TAB_DATA w [])) m) :=
  congrArg Host.Outcome.next (State.act_busWrite_inspection w takes (by decide))

end

section
variable {s : State} {w : Word}

/-- R227: in PRINT a write of IN_CTRL is refused. -/
theorem State.inEnable_print (mode : s.mode = .print) : s.inEnable w = s.setFld Reg.IN_STAT F.IN_STAT_EN_ERR 1 := if_pos mode

variable (mode : s.mode ≠ .print)
include mode

theorem State.inEnable_off (en : F.IN_CTRL_EN.get w = 0) (on : s.inEn = true) : s.inEnable w = s.inDisable := by
  simp [State.inEnable, mode, en, on]

variable (en : F.IN_CTRL_EN.get w = 1)
include en

/-- R397: the inspection of a witness stays disabled. -/
theorem State.inEnable_witness (witness : s.isWitness = true) : s.inEnable w = s := by
  simp [State.inEnable, mode, en, witness]

variable (off : s.inEn = false) (printer : s.isWitness = false)
include off printer

/-- R227: the first check that fails. -/
theorem State.inEnable_refused {e : Nat} (check : s.enCheck = some e) : s.inEnable w =
    ((s.setFld Reg.IN_STAT F.IN_STAT_EN_ERR e).flag Reg.IN_STAT F.IN_STAT_EN_REFUSED).raise Ev.EN_REFUSED := by
  simp [State.inEnable, mode, en, off, printer, check]

/-- R227, R250: the inspection key is drawn and taken for what stands in the clear. -/
theorem State.inEnable_enabled (check : s.enCheck = none) : s.inEnable w =
    ({ s with free := s.free + 1, inn := { s.inn with
        key := some (s.drawRandom 32).1, expNext := max s.inn.expNext s.expFirst,
        syms := s.inn.syms.map fun (d : SymDesc) => { d with key := d.key.orElse fun _ => some (s.drawRandom 32).1 },
        masks := s.inn.masks.map fun (d : PayMask) => { d with key := d.key.orElse fun _ => some (s.drawRandom 32).1 } } }.setFld
      Reg.IN_STAT F.IN_STAT_EN_ERR 0).flag Reg.IN_CTRL F.IN_CTRL_EN := by
  simp only [State.inEnable, mode, en, off, printer, check, Bool.or_self, Bool.false_eq_true, decide_true, Bool.not_true, if_false]
  rfl

end

/-- R248, R250: disabling leaves no key, no open channel and EN 0. -/
theorem State.inDisable_closed (s : State) :
    s.inDisable.inEn = false ∧ s.inDisable.inn.key = none ∧ ∀ c ∈ s.inDisable.inn.vcs, c.isOpen = false := by
  refine ⟨?_, rfl, fun c channel => ?_⟩
  · simp only [State.inEn, State.isSet, State.inDisable,
      State.fld_setFld _ Reg.IN_CTRL F.IN_CTRL_EN 0 (by decide) (by decide), Nat.zero_mod]
    rfl
  · obtain ⟨_, -, rfl⟩ := List.mem_map.1 channel
    rfl

/-! ## Table entries -/

section
variable {s : State} {w : Word} (table : s.fld Reg.IN_TAB_SEL F.IN_TAB_SEL_TABLE < 3)
include table

/-- R232: a table of a bank in use keeps its entry. -/
theorem State.inTabWrite_busy
    (busy : s.bankInUse (s.fld Reg.IN_TAB_SEL F.IN_TAB_SEL_SEG) (s.fld Reg.IN_TAB_SEL F.IN_TAB_SEL_BANK) = true) :
    s.inTabWrite w = (s.flag Reg.IN_STAT F.IN_STAT_BANK_BUSY).tabNext := by
  have bank : s.fld Reg.IN_TAB_SEL F.IN_TAB_SEL_TABLE ≠ 3 := by omega
  simp [State.inTabWrite, table, bank, busy]

/-- R232: the selected entry is stored, and its bank is no longer VALID. -/
theorem State.inTabWrite_stored {key : Nat} (selected : s.tabSelected = some key)
    (free : s.bankInUse (s.fld Reg.IN_TAB_SEL F.IN_TAB_SEL_SEG) (s.fld Reg.IN_TAB_SEL F.IN_TAB_SEL_BANK) = false) :
    s.inTabWrite w =
      let v := F.IN_TAB_DATA_VALUE.get w
      let v := if s.fld Reg.IN_TAB_SEL F.IN_TAB_SEL_TABLE = 1 then v else v % 4096
      ({ s with inn := { s.inn with tab := AMap.set (fun _ => 0) s.inn.tab key v } }.setFld
        (bankReg (s.fld Reg.IN_TAB_SEL F.IN_TAB_SEL_SEG) (s.fld Reg.IN_TAB_SEL F.IN_TAB_SEL_BANK)) F.IN_SEGk_BANK0_VALID 0).tabNext := by
  have bank : s.fld Reg.IN_TAB_SEL F.IN_TAB_SEL_TABLE ≠ 3 := by omega
  simp [State.inTabWrite, bank, free, selected]

end

/-! ## Setting banks -/

theorem bankReg_block (k : Fin 16) (b : Fin 2) : bankReg k.val b.val / 0x10000 = 7 := by
  decide +revert

/-- A write of a bank's header is a write of that bank. -/
theorem State.writeIn_bank (s : State) (k : Fin 16) (b : Fin 2) (w : Word) :
    s.writeIn (bankReg k.val b.val) w = s.inBankWrite k.val b.val w := by
  have place : bankReg k.val b.val ≠ Reg.IN_CTRL ∧ bankReg k.val b.val ≠ Reg.IN_TAB_DATA ∧ bankReg k.val b.val ≠ Reg.IN_XP_CTRL ∧
      (decide (bankReg k.val b.val = Reg.IN_STAT) || decide (bankReg k.val b.val = Reg.IN_TAB_SEL) ||
        (decide (Reg.IN_XP_FIRST ≤ bankReg k.val b.val) && decide (bankReg k.val b.val ≤ Reg.IN_XP_STAT))) = false := by
    decide +revert
  have found : (List.range 32).find? (fun i => bankReg k.val b.val = bankReg (i / 2) (i % 2)) = some (2 * k.val + b.val) := by
    decide +revert
  obtain ⟨ctrl, data, xp, others⟩ := place
  have segment : (2 * k.val + b.val) / 2 = k.val := by omega
  have bank : (2 * k.val + b.val) % 2 = b.val := by omega
  simp only [State.writeIn, ctrl, data, xp, others, found, segment, bank, Bool.false_eq_true, if_false]

theorem exec_inBankWrite {s : State} {m : Master} {k : Fin 16} {b : Fin 2} {w : Word} (takes : s.takes m (bankReg k.val b.val)) :
    exec (.inBankWrite m k b w) s = .next (s.wrote (s.inBankWrite k.val b.val (cmdWord (bankReg k.val b.val) w [])) m) :=
  congrArg Host.Outcome.next ((State.act_busWrite_inspection w takes (bankReg_block k b)).trans
    (congrArg (s.wrote · m) (s.writeIn_bank k b _)))

section
variable {s : State} {k b : Nat} {w : Word}
  (changes : F.IN_SEGk_BANK0_SET_ID.get w ≠ s.fld (bankReg k b) F.IN_SEGk_BANK0_SET_ID)
include changes

/-- R231: a bank in use keeps its header. -/
theorem State.inBankWrite_busy (busy : s.bankInUse k b = true) : s.inBankWrite k b w = s.flag Reg.IN_STAT F.IN_STAT_BANK_BUSY := by
  simp [State.inBankWrite, changes, busy]

/-- R232: the header of a bank that is not in use is written, and VALID cleared. -/
theorem State.inBankWrite_stored (free : s.bankInUse k b = false) : s.inBankWrite k b w =
    (((s.setFld (bankReg k b) F.IN_SEGk_BANK0_SET_ID (F.IN_SEGk_BANK0_SET_ID.get w)).setFld (bankReg k b) F.IN_SEGk_BANK0_KNEE
      (F.IN_SEGk_BANK0_KNEE.get w)).setFld (bankReg k b) F.IN_SEGk_BANK0_BLEND_SH (F.IN_SEGk_BANK0_BLEND_SH.get w)).setFld (bankReg k b)
        F.IN_SEGk_BANK0_VALID 0 := by
  simp [State.inBankWrite, changes, free]

end

/-- A field of a register holds what a word holds of it, once that is written. -/
theorem State.fld_setFld_get (s : State) (a : Nat) (f : BitField) (w : Word) (order : f.lo ≤ f.hi) (top : f.hi < 32) :
    (s.setFld a f (f.get w)).fld a f = f.get w := by
  rw [State.fld_setFld s a f _ order top, Nat.mod_eq_of_lt (f.get_ofNat_lt w)]

/-- The fields of a bank's header, written one after the other, stand side by side. -/
theorem State.fld_bankHeader (s : State) (a : Nat) (w : Word) :
    let u := (((s.setFld a F.IN_SEGk_BANK0_SET_ID (F.IN_SEGk_BANK0_SET_ID.get w)).setFld a F.IN_SEGk_BANK0_KNEE
      (F.IN_SEGk_BANK0_KNEE.get w)).setFld a F.IN_SEGk_BANK0_BLEND_SH (F.IN_SEGk_BANK0_BLEND_SH.get w)).setFld a F.IN_SEGk_BANK0_VALID 0
    u.fld a F.IN_SEGk_BANK0_SET_ID = F.IN_SEGk_BANK0_SET_ID.get w ∧ u.fld a F.IN_SEGk_BANK0_KNEE = F.IN_SEGk_BANK0_KNEE.get w ∧
      u.fld a F.IN_SEGk_BANK0_BLEND_SH = F.IN_SEGk_BANK0_BLEND_SH.get w ∧ u.fld a F.IN_SEGk_BANK0_VALID = 0 := by
  have valid (t : State) (g : BitField) (apart : g.hi < 8 ∨ 8 < g.lo) : (t.setFld a F.IN_SEGk_BANK0_VALID 0).fld a g = t.fld a g :=
    State.fld_setFld_other _ _ _ _ _ (by decide) (by decide) apart.symm
  have blend (t : State) (g : BitField) (apart : g.hi < 28) (v : Nat) : (t.setFld a F.IN_SEGk_BANK0_BLEND_SH v).fld a g = t.fld a g :=
    State.fld_setFld_other _ _ _ _ _ (by decide) (by decide) (.inr apart)
  have knee (t : State) (g : BitField) (apart : g.hi < 16) (v : Nat) : (t.setFld a F.IN_SEGk_BANK0_KNEE v).fld a g = t.fld a g :=
    State.fld_setFld_other _ _ _ _ _ (by decide) (by decide) (.inr apart)
  refine ⟨?_, ?_, ?_, State.fld_setFld _ _ _ 0 (by decide) (by decide)⟩
  · rw [valid _ _ (by decide), blend _ _ (by decide), knee _ _ (by decide), State.fld_setFld_get _ _ _ _ (by decide) (by decide)]
  · rw [valid _ _ (by decide), blend _ _ (by decide), State.fld_setFld_get _ _ _ _ (by decide) (by decide)]
  · rw [valid _ _ (by decide), State.fld_setFld_get _ _ _ _ (by decide) (by decide)]

end Sys2Proof.Machine
end

section
/-! PROOFS of O29, second part: packet headers, lanes and packets. -/

namespace Sys2Proof.Machine

/-! ## The ECC of a packet header -/

/-- The sum of the ECC words of the bits that stand in `d` from bit `n` on, with a word of the list for each. -/
def eccSum (d : Nat) : Nat → List Nat → Nat
  | _, [] => 0
  | n, c :: l => (if d.testBit n then c else 0) ^^^ eccSum d (n + 1) l

theorem foldl_zipIdx_eq_eccSum (d : Nat) (l : List Nat) (n a : Nat) :
    (l.zipIdx n).foldl (fun a c => if d.testBit c.2 then a ^^^ c.1 else a) a = a ^^^ eccSum d n l := by
  induction l generalizing n a with
  | nil => simp [eccSum]
  | cons c l ih =>
    rw [List.zipIdx_cons, List.foldl_cons, ih, eccSum]
    split <;> simp [Nat.xor_assoc]

/-- The ECC of the 26 bits of a header. -/
abbrev headerEcc (d : Nat) : Nat := eccSum d 0 csiEccColumns

/-- A bit below those summed has no part in the sum. -/
theorem eccSum_xor_below (d : Nat) {i n : Nat} (l : List Nat) (below : i < n) : eccSum (d ^^^ 2 ^ i) n l = eccSum d n l := by
  induction l generalizing n with
  | nil => rfl
  | cons c l ih =>
    have same : (d ^^^ 2 ^ i).testBit n = d.testBit n := by simp [Nat.testBit_xor, Nat.ne_of_lt below]
    rw [eccSum, eccSum, same, ih (by omega)]

/-- A bit changed changes the sum by its word. -/
theorem eccSum_xor (d : Nat) {i : Nat} (n : Nat) {l : List Nat} (inside : i < l.length) :
    eccSum (d ^^^ 2 ^ (n + i)) n l = eccSum d n l ^^^ l[i] := by
  induction l generalizing n i with
  | nil => simp at inside
  | cons c l ih =>
    cases i with
    | zero =>
      rw [eccSum, eccSum, Nat.add_zero, eccSum_xor_below d l (by omega), Nat.testBit_xor, Nat.testBit_two_pow_self]
      cases d.testBit n <;> simp [Nat.xor_comm]
    | succ i =>
      have other : (d ^^^ 2 ^ (n + (i + 1))).testBit n = d.testBit n := by simp [Nat.testBit_xor]
      have rest := ih (n + 1) (i := i) (by simpa using inside)
      rw [eccSum, eccSum, other, show n + (i + 1) = n + 1 + i by omega, rest, List.getElem_cons_succ, Nat.xor_assoc]

/-- R225: the 26 bits `d` of a header with the ECC `e` pass where the ECC is theirs, and are corrected where one bit is wrong. -/
theorem csiHeader_pack {d e : Nat} (ecc : e < 64) :
    csiHeader (d % 2 ^ 24 + e * 2 ^ 24 + d / 2 ^ 24 * 2 ^ 30) =
      let syn := headerEcc d ^^^ e
      if syn = 0 then some (d, false)
      else if [1, 2, 4, 8, 16, 32].contains syn then some (d, true)
      else (csiEccColumns.findIdx? (· = syn)).map fun i => (d ^^^ 2 ^ i, true) := by
  have data : (d % 2 ^ 24 + e * 2 ^ 24 + d / 2 ^ 24 * 2 ^ 30) % 2 ^ 24 +
      (d % 2 ^ 24 + e * 2 ^ 24 + d / 2 ^ 24 * 2 ^ 30) / 2 ^ 30 * 2 ^ 24 = d := by omega
  have check : (d % 2 ^ 24 + e * 2 ^ 24 + d / 2 ^ 24 * 2 ^ 30) / 2 ^ 24 % 64 = e := by omega
  unfold csiHeader
  simp only [data, check, foldl_zipIdx_eq_eccSum, Nat.zero_xor]

/-- Only the ECC of its own bits lets a header pass as it is. -/
theorem headerEcc_of_passes {d e : Nat} (ecc : e < 64)
    (passes : csiHeader (d % 2 ^ 24 + e * 2 ^ 24 + d / 2 ^ 24 * 2 ^ 30) = some (d, false)) : headerEcc d ^^^ e = 0 := by
  rw [csiHeader_pack ecc] at passes
  by_contra wrong
  simp only [wrong, if_false] at passes
  split at passes <;> simp at passes

/-- The ECC words of a header's bits are told apart from each other and from those of the ECC's own bits. -/
theorem csiEccColumns_distinct : ∀ i : Fin csiEccColumns.length, csiEccColumns[i] ≠ 0 ∧ [1, 2, 4, 8, 16, 32].contains csiEccColumns[i] = false ∧
    csiEccColumns.findIdx? (· = csiEccColumns[i]) = some i.val := by
  decide

/-- R225: any one wrong bit of a header is corrected. -/
theorem csiHeader_corrects {d e i : Nat} (bit : i < 26) (ecc : e < 64)
    (passes : csiHeader (d % 2 ^ 24 + e * 2 ^ 24 + d / 2 ^ 24 * 2 ^ 30) = some (d, false)) :
    csiHeader ((d ^^^ 2 ^ i) % 2 ^ 24 + e * 2 ^ 24 + (d ^^^ 2 ^ i) / 2 ^ 24 * 2 ^ 30) = some (d, true) := by
  have inside : i < csiEccColumns.length := bit
  have flips : headerEcc (d ^^^ 2 ^ i) = headerEcc d ^^^ csiEccColumns[i] := by
    simpa using eccSum_xor d 0 inside
  have syn : headerEcc (d ^^^ 2 ^ i) ^^^ e = csiEccColumns[i] := by
    rw [flips, Nat.xor_right_comm, headerEcc_of_passes ecc passes, Nat.zero_xor]
  obtain ⟨nonzero, outside, found⟩ := csiEccColumns_distinct ⟨i, inside⟩
  have restored : d ^^^ 2 ^ i ^^^ 2 ^ i = d := by rw [Nat.xor_assoc, Nat.xor_self, Nat.xor_zero]
  simp only [Fin.getElem_fin] at nonzero outside found
  rw [csiHeader_pack ecc, syn]
  simp only [nonzero, outside, found, Bool.false_eq_true, if_false, Option.map_some, restored]

/-! ## Lanes -/

theorem State.length_csiLanes (s : State) (n : Nat) (wire : List Byte) : (s.csiLanes n wire).length = wire.length := by
  simp [State.csiLanes]

/-- R223: lanes with no polarity swapped carry the bytes as they are. -/
theorem State.csiLanes_upright {s : State} {n : Nat} (upright : s.fld (Reg.IN_PORTn_CFG n) F.IN_PORTn_CFG_POL = 0) (wire : List Byte) :
    s.csiLanes n wire = wire := by
  simp [State.csiLanes, upright, List.zipIdx_map_fst]

/-! ## Packets -/

section
variable {s : State} {n vc dt : Nat} {crcOk fits : Bool} {bs : List Byte}

/-- R226: a virtual channel above 7. -/
theorem State.csiAccept_channel (above : 7 < vc) :
    s.csiAccept n vc dt crcOk fits bs = s.bump (Reg.IN_PORTn_ERR n) F.IN_PORTn_ERR_DISCARD := if_pos above

variable (channel : vc ≤ 7)
include channel

theorem State.csiAccept_frameStart (start : dt = 0) (on : s.inEn = true) :
    s.csiAccept n vc dt crcOk fits bs = (s.frameEnd n vc true).setVc n vc ⟨true, none⟩ := by
  simp [State.csiAccept, Nat.not_lt.2 channel, start, on]

theorem State.csiAccept_frameEnd (ends : dt = 1) : s.csiAccept n vc dt crcOk fits bs = s.frameEnd n vc false := by
  simp [State.csiAccept, Nat.not_lt.2 channel, ends]

/-- R224: line starts and ends and generic short packets are ignored. -/
theorem State.csiAccept_ignored (ignored : dt ∈ [2, 3, 8, 9, 10, 11, 12, 13, 14, 15]) : s.csiAccept n vc dt crcOk fits bs = s := by
  have short : (decide (dt = 0x02) || decide (dt = 0x03) || (decide (0x08 ≤ dt) && decide (dt ≤ 0x0F))) = true := by
    simp only [List.mem_cons, List.not_mem_nil, or_false] at ignored
    simp only [Bool.or_eq_true, Bool.and_eq_true, decide_eq_true_eq]
    omega
  have frame : dt ≠ 0x00 ∧ dt ≠ 0x01 := by
    simp only [List.mem_cons, List.not_mem_nil, or_false] at ignored
    omega
  simp only [State.csiAccept, Nat.not_lt.2 channel, frame.1, frame.2, short, if_false, if_true]

/-- R225, R226: a pixel line or an embedded line. -/
theorem State.csiAccept_line (line : dt ∈ [0x12, 0x2B, 0x2C]) : s.csiAccept n vc dt crcOk fits bs =
    if fits then s.longPacket n vc dt crcOk bs else s.rxOverflow n vc dt := by
  fin_cases line <;> simp [State.csiAccept, Nat.not_lt.2 channel]

/-- R224: a data type the controller does not take. -/
theorem State.csiAccept_dataType (long : 0x10 ≤ dt) (other : dt ∉ [0x12, 0x2B, 0x2C]) :
    s.csiAccept n vc dt crcOk fits bs = s.bump (Reg.IN_PORTn_ERR n) F.IN_PORTn_ERR_DISCARD := by
  have short : dt ≠ 0x00 ∧ dt ≠ 0x01 ∧ (decide (dt = 0x02) || decide (dt = 0x03) || (decide (0x08 ≤ dt) && decide (dt ≤ 0x0F))) = false := by
    simp only [Bool.or_eq_false_iff, Bool.and_eq_false_iff, decide_eq_false_iff_not]
    omega
  have line : (decide (dt = 0x12) || decide (dt = 0x2B) || decide (dt = 0x2C)) = false := by
    simpa [and_assoc] using other
  obtain ⟨start, ends, generic⟩ := short
  simp only [State.csiAccept, Nat.not_lt.2 channel, start, ends, generic, line, Bool.false_eq_true, if_false]

end

theorem State.inEn_bump_port (s : State) (n : Fin 2) (f : BitField) : (s.bump (Reg.IN_PORTn_ERR n.val) f).inEn = s.inEn := by
  have apart : Reg.IN_CTRL ≠ Reg.IN_PORTn_ERR n.val := by
    decide +revert
  unfold State.inEn State.isSet State.fld
  rw [State.rd_bump_ne s f 1 apart]

/-- A packet outside reset is taken with the clock of its sensor present. -/
theorem exec_csiPacket {s t u : State} {n : Fin 2} {di : Byte} {wc : BitVec 16} {ecc : Byte} {payload : List Byte} {crc : BitVec 16}
    {fits : Bool} (out : s.sys.inReset = false)
    (clocked : { s with sys := { s.sys with stopped := s.sys.stopped.filter (· ≠ Domain.csi n.val) } } = t)
    (effect : t.csiPacket n.val fits (csiWire di wc ecc payload crc) = u) :
    exec (.csiPacket n di wc ecc payload crc fits) s = .next (s.after u) := by
  subst clocked
  exact State.next_act out effect

theorem State.csiPacket_def : State.csiPacket = delta% State.csiPacket := rfl

section
variable {s : State} {n : Nat} {fits : Bool} {wire : List Byte}

/-- R225: a header with two bits wrong. -/
theorem State.csiPacket_broken (header : csiHeader (leAt (s.csiLanes n wire) 0 4) = none) : s.csiPacket n fits wire =
    ((s.bump (Reg.IN_PORTn_ERR n) F.IN_PORTn_ERR_DISCARD).flag Reg.IN_STAT F.IN_STAT_CSI_ECC).relayRaise Ev.CSI_ECC n
      (s.bytePeriod n) := by
  rw [State.csiPacket_def]
  obtain ⟨csiHeader, called⟩ : ∃ f, csiHeader = f := exists_eq'
  rw [called] at header ⊢
  simp only [header]

/-- R224, R225: the packet of a header that has passed. -/
theorem State.csiPacket_accepted {h : Nat} {one : Bool} (header : csiHeader (leAt (s.csiLanes n wire) 0 4) = some (h, one)) :
    let b := s.csiLanes n wire
    let wc := h / 256 % 65536
    let bs := (b.drop 4).take wc
    s.csiPacket n fits wire =
      (if one then s.bump (Reg.IN_PORTn_ERR n) F.IN_PORTn_ERR_ECC_FIX else s).csiAccept n (h / 64 % 4 + h / 2 ^ 24 * 4) (h % 64)
        (decide (bs.length = wc ∧ b.length = wc + 6 ∧ csiCrc bs = leAt b (4 + wc) 2)) fits bs := by
  rw [State.csiPacket_def]
  obtain ⟨csiHeader, called⟩ : ∃ f, csiHeader = f := exists_eq'
  rw [called] at header ⊢
  simp only [header]

end

end Sys2Proof.Machine
end

section
/-! PROOFS of O29, third part: merged lines and the expected image; O29. -/

namespace Sys2Proof.Machine

/-! ## The sealed rings -/

/-- A row is no longer in its ring than in the clear. -/
theorem length_ringCrypt_le (key : List Byte) (ring off : Nat) (bs : List Byte) : (ringCrypt key ring off bs).length ≤ bs.length := by
  unfold ringCrypt xorBytes
  rw [List.length_map, List.length_zip]
  exact Nat.min_le_left ..

/-! ## Closing a merged line -/

/-- What the comparison and the evidence of a line leave as it was. -/
structure State.LineKeeps (s t : State) : Prop where
  dram : t.dram = s.dram
  flash : t.flash = s.flash
  hp : t.hp = s.hp

namespace State.LineKeeps

variable {s t u : State}

theorem refl (s : State) : s.LineKeeps s := ⟨rfl, rfl, rfl⟩

theorem trans (h : s.LineKeeps t) (h' : t.LineKeeps u) : s.LineKeeps u :=
  ⟨h'.dram.trans h.dram, h'.flash.trans h.flash, h'.hp.trans h.hp⟩

theorem foldl {α : Type} {f : State → α → State} (each : ∀ t x, State.LineKeeps t (f t x)) (l : List α) (s : State) :
    s.LineKeeps (l.foldl f s) := by
  induction l generalizing s with
  | nil => exact .refl s
  | cons x l ih => exact (each s x).trans (ih (f s x))

theorem compare (s : State) (v : Nat) (grid exp : List Nat) : s.LineKeeps (s.compare v grid exp) := ⟨rfl, rfl, rfl⟩

theorem sample (s : State) (v : Nat) (grid exp : List Nat) : s.LineKeeps (s.sample v grid exp) := by
  unfold State.sample
  extract_lets t0
  refine State.LineKeeps.foldl (fun t u => ?_) _ s
  extract_lets g r f t' d
  have kept : t.LineKeeps t' := by
    unfold t'
    split <;> exact ⟨rfl, rfl, rfl⟩
  split
  · exact .refl t
  · split
    case h_1 => exact .refl t
    case h_2 => exact kept.trans ⟨rfl, rfl, rfl⟩

theorem evidRecords (s : State) (v : Nat) : s.LineKeeps (s.evidRecords v) := by
  unfold State.evidRecords
  extract_lets n
  split
  · exact .refl s
  · exact ⟨rfl, rfl, rfl⟩

end State.LineKeeps

/-- The grid of a merged line as it closes (R238). -/
def State.closedGrid (s : State) (v : Nat) : List Nat :=
  (List.range 16384).map fun u => s.gridPixel v ((Config.freeValue (s.free + 16384 + u)).toNat % 4096) u

theorem State.mergedClose_locked {s : State} (locked : s.inn.key = none) : s.mergedClose = s := by
  simp only [State.mergedClose, locked]

theorem State.imgRow_free (s : State) (n v : Nat) : { s with free := n }.imgRow v = s.imgRow v := rfl

/-- The counter of open values has no part in a write to DRAM. -/
theorem State.lineKeeps_dramWrite_free (s : State) (n a : Nat) (bs : List Byte) :
    State.LineKeeps (s.dramWrite a bs) ({ s with free := n }.dramWrite a bs) := ⟨rfl, rfl, rfl⟩

/-- Merged line v closed: what is kept for it is given up, and IN_IHWM stands at it (R237). -/
def State.lineClosed (s : State) (v : Nat) : State :=
  let segs := s.inn.segs.map fun g => { g with pairs := g.pairs.filter fun e => decide (v < e.1) }
  { s with inn := { s.inn with segs := segs, shots := s.inn.shots.filter fun h => decide (2 * v ≤ h.1) } }.wrN Reg.IN_IHWM v

theorem State.rdN_lineClosed (s : State) (v : Nat) : (s.lineClosed v).rdN Reg.IN_IHWM = v % 2 ^ 32 := by
  simp [State.lineClosed, State.rdN]

theorem State.pairs_lineClosed {s : State} {v : Nat} {g : SegState} (seg : g ∈ (s.lineClosed v).inn.segs) : ∀ e ∈ g.pairs, v < e.1 := by
  intro e pair
  obtain ⟨g, -, rfl⟩ := List.mem_map.1 seg
  exact of_decide_eq_true (List.mem_filter.1 pair).2

theorem State.lineKeeps_lineClosed (s : State) (v : Nat) : s.LineKeeps (s.lineClosed v) := ⟨rfl, rfl, rfl⟩

/-- R237, R241: a line that closes leaves its grid in the camera ring and IN_IHWM at its number. -/
theorem State.mergedClose_closes {s : State} {key : List Byte} (keyed : s.inn.key = some key)
    (closes : s.mayClose (s.rdN Reg.IN_IHWM + 1) = true) :
    let v := s.rdN Reg.IN_IHWM + 1
    ∃ t : State, State.LineKeeps (s.dramWrite (s.imgRow v).2 (ringCrypt key 0 (s.imgRow v).1 ((s.closedGrid v).flatMap (leBytes 2)))) t ∧
      s.mergedClose = t.lineClosed v := by
  intro v
  unfold State.mergedClose
  split
  case h_1 locked => simp [locked] at keyed
  case h_2 key' there =>
    obtain rfl : key = key' := Option.some.inj (keyed.symm.trans there)
    extract_lets fill grid s₁ exp r s₂ s₃ segs
    have row : r = s.imgRow v := s.imgRow_free (s.free + 32768) v
    have written : State.LineKeeps (s.dramWrite r.2 (ringCrypt key 0 r.1 (grid.flatMap (leBytes 2)))) s₂ :=
      s.lineKeeps_dramWrite_free ..
    have kept : State.LineKeeps _ s₃ := ((written.trans (.compare s₂ v grid exp)).trans (.sample _ v grid exp)).trans (.evidRecords _ v)
    rw [row] at kept
    rw [if_neg (by simpa using closes)]
    clear_value s₃
    exact ⟨s₃, kept, rfl⟩

/-- The row that a closing line takes in the camera ring. -/
theorem State.length_closedRow (s : State) (key : List Byte) (v off : Nat) :
    (ringCrypt key 0 off ((s.closedGrid v).flatMap (leBytes 2))).length ≤ 32768 := by
  refine (length_ringCrypt_le ..).trans ?_
  unfold State.closedGrid
  rw [List.flatMap_map, length_flatMap_range (fun _ => length_leBytes 2 _)]

/-! ## The expected image -/

/-- R240: the row of the expected image whose following line is ready. -/
theorem State.expectedLine_computed {s : State} {key : List Byte} (keyed : s.inn.key = some key) (on : s.inEn = true)
    (ready : s.mergedReady (s.inn.expNext + 1) = true) :
    let v := s.inn.expNext
    let t := s.dramWrite (s.expRow v).2 (ringCrypt key 1 (s.expRow v).1 ((List.range 16384).map fun u => BitVec.ofNat 8 (s.expected u v)))
    s.expectedLine = { t with inn := { s.inn with expNext := v + 1, s := s.inn.s.filter fun c => decide (16384 * v ≤ c.1) } } := by
  unfold State.expectedLine
  -- Held opaque, so that no state is compared by the bytes of its row.
  obtain ⟨ringCrypt, called⟩ : ∃ f, ringCrypt = f := exists_eq'
  rw [called]
  intro v t
  split
  case h_1 locked => simp [locked] at keyed
  case h_2 key' there =>
    obtain rfl : key = key' := Option.some.inj (keyed.symm.trans there)
    rw [if_neg (by simp [on, ready])]
    rfl

/-- Settles O29: inspection enabled and disabled, tables and banks written, packets received and lines closed. -/
theorem inspectionInput : Obligations.InspectionInput := by
  unfold Obligations.InspectionInput
  refine ⟨⟨?witness, ?enabled, ?disabled, ?print, ?stored, ?busy, ?bank⟩, ⟨?packet, ?lanes, ?header⟩, ?closes, ?locked, ?expected⟩
  case witness =>
    intro s m w takes en mode witness _
    rw [exec_inEnable takes, State.inEnable_witness mode en witness]
  case enabled =>
    intro s m w takes en mode off printer
    rw [exec_inEnable takes]
    refine ⟨fun check => ?_, fun e check => ?_⟩
    · rw [State.inEnable_enabled mode en off printer check]
    · rw [State.inEnable_refused mode en off printer check]
  case disabled =>
    intro s m w takes en mode on
    rw [exec_inEnable takes, State.inEnable_off mode en on]
    exact ⟨_, rfl, s.inDisable_closed⟩
  case print =>
    intro s m w takes mode
    rw [exec_inEnable takes, State.inEnable_print mode]
  case stored =>
    intro s m w key takes t k b v selected table free
    rw [exec_inTabDataWrite takes, State.inTabWrite_stored table selected free]
  case busy =>
    intro s m w takes table busy
    rw [exec_inTabDataWrite takes, State.inTabWrite_busy table busy]
  case bank =>
    intro s m k b w takes a d changes
    rw [exec_inBankWrite takes]
    refine ⟨fun busy => ?_, fun free => ?_⟩
    · rw [State.inBankWrite_busy changes busy]
    · rw [State.inBankWrite_stored changes free]
      obtain ⟨setId, knee, blend, valid⟩ := s.fld_bankHeader a d
      refine ⟨_, rfl, setId, knee, blend, valid, fun x (other : x ≠ bankReg k.val b.val) => ?_, ?_, ?_⟩
      · simp only [State.rd_setFld_ne _ _ _ other]
      · simp only [State.setFld_dram]
      · simp only [State.setFld_inn]
  case packet =>
    intro s n di wc ecc payload crc fits out s0 b
    refine ⟨fun header => exec_csiPacket out rfl (State.csiPacket_broken header), fun h one header => ?_⟩
    intro fixed discard vc dt bs
    have enabled : fixed.inEn = s.inEn := by
      unfold fixed
      split
      · exact s0.inEn_bump_port n F.IN_PORTn_ERR_ECC_FIX
      · rfl
    refine ⟨_, exec_csiPacket out rfl (State.csiPacket_accepted header), State.csiAccept_channel,
      fun channel start on => State.csiAccept_frameStart channel start (enabled.trans on), State.csiAccept_frameEnd,
      State.csiAccept_ignored, fun channel line room => ?_, fun channel line full => ?_, State.csiAccept_dataType⟩
    · exact ⟨_, (State.csiAccept_line channel line).trans (if_pos room), decide_eq_true_iff⟩
    · exact (State.csiAccept_line channel line).trans (if_neg (by simp [full]))
  case lanes => exact fun s n wire => ⟨s.length_csiLanes n wire, fun upright => State.csiLanes_upright upright wire⟩
  case header => exact fun d e i _ bit ecc passes => csiHeader_corrects bit ecc passes
  case closes =>
    intro s key out keyed closes
    obtain ⟨t, kept, closed⟩ := State.mergedClose_closes keyed closes
    have kept := kept.trans (t.lineKeeps_lineClosed (s.rdN Reg.IN_IHWM + 1))
    refine ⟨_, State.next_act out closed, t.rdN_lineClosed _, fun g seg => State.pairs_lineClosed seg, fun x outside => ?_,
      kept.flash.trans (State.dramWrite_flash ..), kept.hp.trans (State.dramWrite_hp ..)⟩
    · have row := s.length_closedRow key (s.rdN Reg.IN_IHWM + 1) (s.imgRow (s.rdN Reg.IN_IHWM + 1)).1
      have same : (t.lineClosed (s.rdN Reg.IN_IHWM + 1)).dramRead x 1 = _ := congrArg (Mem.bytes dramDefault · x 1) kept.dram
      exact same.trans (State.dramRead_dramWrite_apart s (by omega))
  case locked => exact fun s out locked => State.next_act out (State.mergedClose_locked locked)
  case expected => exact fun s key out keyed on ready => State.next_act out (State.expectedLine_computed keyed on ready)

end Sys2Proof.Machine
end
section
/-! PROOFS of O31: what the runs of a loop tick leave, loop ticks, and requests of AUTO and MAN. -/

namespace Sys2Proof.Machine

/-! ## Runs leave the count of ticks -/

@[simp] theorem State.setCtx_tick (s : State) (c : Nat) (x : LoopCtx) : (s.setCtx c x).le.tick = s.le.tick := rfl

@[simp] theorem State.raise_tick (s : State) (id unit : Nat) : (s.raise id unit).le.tick = s.le.tick := by
  rw [(s.raise_keeps id unit).le]

@[simp] theorem State.writeChannel_le (s : State) (ch : Nat) (v : Int) : (s.writeChannel ch v).le = s.le := by
  unfold State.writeChannel
  split_ifs <;> rfl

/-- The channels a run writes at its END are no part of the loop engine's typed state. -/
theorem State.foldl_writeChannel_le (outs : List (Nat × Int)) (s : State) :
    (outs.foldl (fun s o => s.writeChannel o.1 o.2) s).le = s.le := by
  induction outs generalizing s with
  | nil => rfl
  | cons o outs ih => rw [List.foldl_cons, ih, State.writeChannel_le]

@[simp] theorem State.loopLate_tick (s : State) (c : Nat) : (s.loopLate c).le.tick = s.le.tick := by
  simp [State.loopLate]

@[simp] theorem State.loopCommit_tick (s : State) (c : Nat) (r : LoopRun) : (s.loopCommit c r).le.tick = s.le.tick := by
  unfold State.loopCommit
  extract_lets owner e safe inb x₀ x s₁ s₂ s₃ s₄ s₅
  have committed : s₂.le.tick = s.le.tick := (congrArg LeState.tick (State.foldl_writeChannel_le r.outs s₁)).trans (s.setCtx_tick c x)
  have implausible : s₄.le.tick = s₂.le.tick := by unfold s₄; split <;> simp [s₃]
  have frozen : s₅.le.tick = s₄.le.tick := by unfold s₅; split <;> simp
  split <;> simp [frozen, implausible, committed]

@[simp] theorem State.loopHold_tick (s : State) : s.loopHold.le.tick = s.le.tick := by
  unfold State.loopHold
  split <;> rfl

@[simp] theorem State.loopRun_tick (s0 : State) (a : State × Nat) (c : Nat) : (s0.loopRun a c).1.le.tick = a.1.le.tick := by
  unfold State.loopRun
  extract_lets s x k r s₁ faulted
  split
  · simp [s]
  · split
    · split <;> simp [s₁, s]
    · split_ifs <;> simp [s₁, s]
    · split <;> simp [faulted, s₁, s]

/-! ## The runs of a tick -/

/-- The snapshot of tick `k`, which every run of that tick sees (R256). -/
def State.ticked (s : State) (k : Nat) : State := { s with le := { s.le with tick := k } }

/-- The run of one due context, and the passing to RAMP of those behind it where the run calls for HOLD (R272). -/
def State.runDue (s0 : State) (a : State × Nat) (c : Nat) : State × Nat := ((s0.loopRun a c).1.loopHold, (s0.loopRun a c).2)

/-- The state after the runs of tick `k`, in ascending order on its snapshot, and the cycles they used (R254, R256). -/
def State.runsAt (s : State) (k : Nat) : State × Nat :=
  ((List.range 64).filter (s.loopDue k)).foldl (s.ticked k).runDue (s.ticked k, 0)

theorem State.foldl_runDue_tick (s0 : State) (due : List Nat) (a : State × Nat) :
    (due.foldl s0.runDue a).1.le.tick = a.1.le.tick := by
  induction due generalizing a with
  | nil => rfl
  | cons c due ih => rw [List.foldl_cons, ih, State.runDue, State.loopHold_tick, State.loopRun_tick]

theorem State.runsAt_tick (s : State) (k : Nat) : (s.runsAt k).1.le.tick = k := State.foldl_runDue_tick ..

theorem State.runsAt_noneDue {s : State} {k : Nat} (noneDue : (List.range 64).filter (s.loopDue k) = []) :
    s.runsAt k = (s.ticked k, 0) := by
  rw [State.runsAt, noneDue, List.foldl_nil]

theorem State.loopTick_boot {s : State} (boot : s.mode = .boot) : s.loopTick = s := if_pos boot

/-- The end of a tick whose runs used `n` cycles: they are recorded, and a new count of drops begins. -/
def State.tickEnd (s : State) (n : Nat) : State :=
  { (s.setFld Reg.LE_LOAD F.LE_LOAD_LAST_CYCLES n).raiseTo Reg.LE_LOAD F.LE_LOAD_MAX_CYCLES n with
    le := { s.le with drops := List.replicate 16 0 } }

theorem State.tickEnd_le (s : State) (n : Nat) : (s.tickEnd n).le = { s.le with drops := List.replicate 16 0 } := rfl

theorem State.tickEnd_dram (s : State) (n : Nat) : (s.tickEnd n).dram = s.dram := by
  simp only [State.tickEnd, State.raiseTo_dram, State.setFld_dram]

/-- LAST_CYCLES keeps what is stored there when MAX_CYCLES rises. -/
theorem State.fld_raiseTo_lastCycles (s : State) (n : Nat) :
    (s.raiseTo Reg.LE_LOAD F.LE_LOAD_MAX_CYCLES n).fld Reg.LE_LOAD F.LE_LOAD_LAST_CYCLES = s.fld Reg.LE_LOAD F.LE_LOAD_LAST_CYCLES :=
  s.fld_setFld_other _ _ _ _ (by decide) (by decide) (by decide)

theorem State.fld_setLe (s : State) (l : LeState) (a : Nat) (f : BitField) : { s with le := l }.fld a f = s.fld a f := rfl

theorem State.fld_tickEnd_lastCycles (s : State) (n : Nat) :
    (s.tickEnd n).fld Reg.LE_LOAD F.LE_LOAD_LAST_CYCLES = n % 2 ^ 16 := by
  rw [State.tickEnd, State.fld_setLe, State.fld_raiseTo_lastCycles]
  exact s.fld_setFld _ _ n (by decide) (by decide)

theorem State.loopTick_runs {s : State} (mode : s.mode ≠ .boot) :
    s.loopTick = (s.runsAt ((s.le.tick + 1) % 2 ^ 32)).1.tickEnd (s.runsAt ((s.le.tick + 1) % 2 ^ 32)).2 := if_neg mode

theorem exec_loopTick {s : State} (out : s.sys.inReset = false) : exec .loopTick s = .next (s.after s.loopTick) :=
  congrArg Host.Outcome.next (s.act_eq_after (·.loopTick) out)

/-! ## Requests -/

section
variable {s : State} {m : Master} {w : Word}

theorem State.writeLe_loopCtrl (s : State) (c : Fin 64) (w : Word) : s.writeLe (Reg.LE_Cc_CTRL c.val) w = s.loopCtrl c.val w := by
  have inside : ¬ (Reg.LE_Cc_CTRL c.val < 0x80400 ∨ 0x80C00 ≤ Reg.LE_Cc_CTRL c.val) := by unfold Reg.LE_Cc_CTRL; omega
  have context : (Reg.LE_Cc_CTRL c.val - 0x80400) / 32 = c.val := by unfold Reg.LE_Cc_CTRL; omega
  simp [State.writeLe, inside, context]

theorem holdsField_loopCtrl (c : Fin 64) : holdsField (Reg.LE_Cc_CTRL c.val) F.LE_Cc_CTRL_AUTO = true ∧
    holdsField (Reg.LE_Cc_CTRL c.val) F.LE_Cc_CTRL_MAN = true := by
  revert c
  decide

/-- A granted write of LE_Cc_CTRL. -/
theorem State.act_loopCtrl {c : Fin 64} (takes : s.takes m (Reg.LE_Cc_CTRL c.val)) (v : Word) :
    s.act (·.busWrite m.val (Reg.LE_Cc_CTRL c.val) v) = s.wrote (s.loopCtrl c.val (regMask (Reg.LE_Cc_CTRL c.val) v)) m := by
  have bounds : 0x80400 ≤ Reg.LE_Cc_CTRL c.val ∧ Reg.LE_Cc_CTRL c.val < 0x80C00 := by unfold Reg.LE_Cc_CTRL; omega
  have block : Reg.LE_Cc_CTRL c.val / 0x10000 = 8 := by omega
  have writable : readOnlyWindow (Reg.LE_Cc_CTRL c.val) = false := by
    simp only [readOnlyWindow, Bool.or_eq_false_iff, Bool.and_eq_false_iff, decide_eq_false_iff_not]
    omega
  rw [State.act_busWrite_of_takes s m _ v takes writable (by omega), ← State.writeLe_loopCtrl]
  simp [State.writeReg, block]

/-- Whether a context may be asked for AUTO (R264, R269). -/
def State.mayAuto (s : State) (c : Nat) : Bool :=
  (s.ctx c).st = .man && (s.mode = .idle || s.mode = .warm || s.mode = .print || s.mode = .service) &&
    !s.isSet (Reg.LE_Cc_STAT c) F.LE_Cc_STAT_LATE && !s.isSet (Reg.LE_Cc_STAT c) F.LE_Cc_STAT_FAULT &&
    !((s.ctx c).tripped && (s.isSet (Reg.LE_Cc_STAT c) F.LE_Cc_STAT_IMPLAUSIBLE || s.isSet (Reg.LE_Cc_STAT c) F.LE_Cc_STAT_FROZEN))

theorem State.mayAuto_iff (s : State) (c : Nat) : s.mayAuto c = true ↔
    (s.ctx c).st = .man ∧ s.mode ∈ [Mode.idle, .warm, .print, .service] ∧ s.isSet (Reg.LE_Cc_STAT c) F.LE_Cc_STAT_LATE = false ∧
    s.isSet (Reg.LE_Cc_STAT c) F.LE_Cc_STAT_FAULT = false ∧ ((s.ctx c).tripped = true →
      s.isSet (Reg.LE_Cc_STAT c) F.LE_Cc_STAT_IMPLAUSIBLE = false ∧ s.isSet (Reg.LE_Cc_STAT c) F.LE_Cc_STAT_FROZEN = false) := by
  simp [State.mayAuto, and_assoc, or_assoc, Decidable.imp_iff_not_or]

theorem State.loopCtrl_auto (s : State) (c : Nat) {w : Word} (auto : F.LE_Cc_CTRL_AUTO.get w = 1) (man : F.LE_Cc_CTRL_MAN.get w = 0) :
    s.loopCtrl c w = if s.mayAuto c then s.setCtx c { s.ctx c with req := some .auto }
      else s.flag (Reg.LE_Cc_STAT c) F.LE_Cc_STAT_REQ_REFUSED := by
  simp [State.loopCtrl, auto, man, State.mayAuto]

theorem State.loopCtrl_man (s : State) (c : Nat) {w : Word} (man : F.LE_Cc_CTRL_MAN.get w = 1) (auto : F.LE_Cc_CTRL_AUTO.get w = 0) :
    s.loopCtrl c w = if (s.ctx c).st ∈ [LoopState.auto, .holdout, .ramp] then s.setCtx c { s.ctx c with req := some .man }
      else s.flag (Reg.LE_Cc_STAT c) F.LE_Cc_STAT_REQ_REFUSED := by
  unfold State.loopCtrl
  cases state : (s.ctx c).st <;> simp [auto, man, state]

theorem exec_auto {c : Fin 64} (takes : s.takes m (Reg.LE_Cc_CTRL c.val)) :
    exec (.auto m c w) s = .next (s.wrote (if s.mayAuto c.val then s.setCtx c.val { s.ctx c.val with req := some .auto }
      else s.flag (Reg.LE_Cc_STAT c.val) F.LE_Cc_STAT_REQ_REFUSED) m) := by
  have held : ∀ e ∈ [F.LE_Cc_CTRL_AUTO, F.LE_Cc_CTRL_MAN], holdsField (Reg.LE_Cc_CTRL c.val) e = true := by
    simp [holdsField_loopCtrl]
  obtain ⟨auto, man⟩ := get_cmdWord_pair held (by decide) (by decide) w
  exact congrArg Host.Outcome.next ((State.act_loopCtrl takes _).trans (congrArg (s.wrote · m) (s.loopCtrl_auto c.val auto man)))

theorem exec_man {c : Fin 64} (takes : s.takes m (Reg.LE_Cc_CTRL c.val)) :
    exec (.man m c w) s = .next (s.wrote (if (s.ctx c.val).st ∈ [LoopState.auto, .holdout, .ramp] then
      s.setCtx c.val { s.ctx c.val with req := some .man } else s.flag (Reg.LE_Cc_STAT c.val) F.LE_Cc_STAT_REQ_REFUSED) m) := by
  have held : ∀ e ∈ [F.LE_Cc_CTRL_MAN, F.LE_Cc_CTRL_AUTO], holdsField (Reg.LE_Cc_CTRL c.val) e = true := by
    simp [holdsField_loopCtrl]
  obtain ⟨man, auto⟩ := get_cmdWord_pair held (by decide) (by decide) w
  exact congrArg Host.Outcome.next ((State.act_loopCtrl takes _).trans (congrArg (s.wrote · m) (s.loopCtrl_man c.val man auto)))

end

/-- Settles O31: no run changes the count of ticks, and a request depends on `mayAuto` or on the context's state. -/
theorem loopEngine : Obligations.LoopEngine := by
  unfold Obligations.LoopEngine
  refine ⟨?tick, ?boot, ?accepted, ?tripped, ?refused, fun s m c w takes => exec_man takes⟩
  case tick =>
    intro s out mode
    refine ⟨s.loopTick, exec_loopTick out, ?_⟩
    rw [State.loopTick_runs mode, State.tickEnd_le, State.tickEnd_dram, State.fld_tickEnd_lastCycles]
    refine ⟨s.runsAt_tick _, rfl, fun noneDue => ?_⟩
    rw [State.runsAt_noneDue noneDue]
    exact ⟨Nat.zero_mod _, rfl, rfl⟩
  case boot =>
    intro s out boot
    rw [exec_loopTick out, State.loopTick_boot boot]
  case accepted =>
    intro s m c w takes man modes late fault clear
    rw [exec_auto takes, if_pos ((s.mayAuto_iff c.val).2 ⟨man, modes, late, fault, clear⟩)]
  case tripped =>
    intro s m c w takes tripped latched
    have refused : ¬ s.mayAuto c.val = true := by
      rw [State.mayAuto_iff]
      rintro ⟨-, -, -, -, clear⟩
      obtain ⟨implausible, frozen⟩ := clear tripped
      simp [implausible, frozen] at latched
    rw [exec_auto takes, if_neg refused]
  case refused =>
    intro s m c w takes other
    have refused : ¬ s.mayAuto c.val = true := fun may => other ((s.mayAuto_iff c.val).1 may).1
    rw [exec_auto takes, if_neg refused]

end Sys2Proof.Machine
end

section
/-! PROOFS of O55, O56 and O57: the error queue. What a collection, an entry and an acknowledgement do to it. -/

namespace Sys2Proof.Machine

/-! ## Packets of the controller's own -/

/-- A packet to the host goes up. -/
theorem State.routeOf_host (s : State) {p : Pkt} (host : p.host = true) : s.routeOf p false = .group 0 := by
  simp [State.routeOf, host]

/-- A packet left waiting changes nothing but the groups. -/
theorem State.sendOn_eq (s : State) (g : Nat) (p : Pkt) : s.sendOn g p = { s with hl := (s.sendOn g p).hl } := by
  unfold State.sendOn
  dsimp only
  split <;> rfl

/-- A packet to the host is put on the way up, and changes nothing but the groups. -/
theorem State.emit_host (s : State) {p : Pkt} (host : p.host = true) : s.emit p = { s with hl := (s.emit p).hl } := by
  unfold State.emit
  rw [State.routeOf_host s host]
  exact s.sendOn_eq 0 p

/-- An EVT goes up, and only HL notes it. -/
theorem State.sendEvt_eq (s : State) (id cls unit : Nat) (ts : Stamp) :
    s.sendEvt id cls unit ts = { s with hl := (s.sendEvt id cls unit ts).hl } := by
  exact State.emit_host { s with hl := { s.hl with evtAt := s.now } } (show Nat.testBit 2 1 = true by decide)

@[simp] theorem State.sendEvt_fl (s : State) (id cls unit : Nat) (ts : Stamp) : (s.sendEvt id cls unit ts).fl = s.fl := by
  rw [State.sendEvt_eq]

/-! ## The occurrence collected next -/

/-- Whether the choice of the collector goes from one occurrence to a later one. -/
def nextOccStep (b : Option Occ) (o : Occ) : Option Occ := match b with
  | none => some o
  | some x => if o.id < x.id then some o else b

theorem nextOcc_eq (l : List Occ) : nextOcc l = l.foldl nextOccStep none := rfl

/-- The choice among a first occurrence and later ones is one of them, of the lowest EVENT_ID. -/
theorem foldl_nextOccStep (l : List Occ) (x : Occ) : ∃ o, l.foldl nextOccStep (some x) = some o ∧ (o = x ∨ o ∈ l) ∧ o.id ≤ x.id ∧
    ∀ y ∈ l, o.id ≤ y.id := by
  induction l generalizing x with
  | nil => exact ⟨x, rfl, .inl rfl, le_rfl, by simp⟩
  | cons a l ih =>
    by_cases lower : a.id < x.id
    · obtain ⟨o, found, mem, least, all⟩ := ih a
      refine ⟨o, by simpa [nextOccStep, lower] using found, .inr ?_, by omega, ?_⟩
      · simpa using mem
      · simpa using ⟨least, all⟩
    · obtain ⟨o, found, mem, least, all⟩ := ih x
      refine ⟨o, by simpa [nextOccStep, lower] using found, ?_, least, ?_⟩
      · exact mem.imp_right (List.mem_cons_of_mem a)
      · simpa using ⟨by omega, all⟩

theorem nextOcc_least {l : List Occ} {o : Occ} (next : nextOcc l = some o) : o ∈ l ∧ ∀ x ∈ l, o.id ≤ x.id := by
  cases l with
  | nil => simp [nextOcc] at next
  | cons a l =>
    obtain ⟨p, found, mem, least, all⟩ := foldl_nextOccStep l a
    obtain rfl : p = o := Option.some.inj (found.symm.trans next)
    exact ⟨by simpa using mem, by simpa using ⟨least, all⟩⟩

/-! ## Entries of the queue -/

/-- The queue when an occurrence of an event and unit it holds already is merged (R445). -/
def mergedQueue (q : List QEntry) (id unit : Nat) : List QEntry :=
  q.map fun e => if e.id = id ∧ e.unit = unit then { e with rep := min 255 (e.rep + 1) } else e

section
variable {s : State} {id cls unit detail : Nat} {chip : Bool} {irq : Option Nat} {ts : Stamp}

theorem State.preempt_fl (s : State) : s.preempt.fl = s.fl := by
  unfold State.preempt
  dsimp only
  split <;> simp

/-- R445: an occurrence of an event and unit in the queue adds to REPEAT alone. -/
theorem State.enqueue_held (held : ∃ e ∈ s.fl.queue, e.id = id ∧ e.unit = unit) :
    s.enqueue id cls unit detail chip irq ts = { s with fl := { s.fl with queue := mergedQueue s.fl.queue id unit } } := by
  unfold State.enqueue
  rw [if_pos (by simpa using held)]
  simp [mergedQueue]

/-- The entry of a new occurrence. -/
def State.newEntry (s : State) (id cls unit detail : Nat) (chip : Bool) (irq : Option Nat) (ts : Stamp) : QEntry :=
  ⟨s.fl.nextSeq, id, cls, irq, unit, chip, detail, ts, 0⟩

/-- Whether an entry goes before the head of a queue (R444). -/
def QEntry.leads (e : QEntry) : List QEntry → Bool
  | [] => false
  | h :: _ => decide (h.cls < e.cls)

/-- A new entry placed in a queue. -/
def State.withEntry (s : State) (e : QEntry) (q : List QEntry) : State :=
  { s with fl := { s.fl with queue := queueInsert e q, nextSeq := nextSeqOf s.fl.nextSeq } }

/-- A new entry placed in a queue, with PREEMPT where it becomes the head. -/
def State.entered (s : State) (e : QEntry) (q : List QEntry) : State :=
  if e.leads q then (s.withEntry e q).preempt else s.withEntry e q

theorem State.entered_fl (s : State) (e : QEntry) (q : List QEntry) : (s.entered e q).fl = (s.withEntry e q).fl := by
  unfold State.entered
  split
  · exact State.preempt_fl _
  · rfl

theorem State.enqueue_room (fresh : ∀ e ∈ s.fl.queue, ¬(e.id = id ∧ e.unit = unit)) (room : s.fl.queue.length < 32) :
    s.enqueue id cls unit detail chip irq ts = s.entered (s.newEntry id cls unit detail chip irq ts) s.fl.queue := by
  unfold State.enqueue
  rw [if_neg (by simpa using fresh), if_pos room]
  unfold State.entered QEntry.leads
  cases s.fl.queue <;> rfl

/-- R447: a full queue makes room for a higher class than its last entry's, and otherwise stands. -/
theorem State.enqueue_full {q : List QEntry} {low : QEntry} (fresh : ∀ e ∈ s.fl.queue, ¬(e.id = id ∧ e.unit = unit))
    (full : ¬ s.fl.queue.length < 32) (last : s.fl.queue = q ++ [low]) : s.enqueue id cls unit detail chip irq ts =
      (if low.cls < cls then s.entered (s.newEntry id cls unit detail chip irq ts) q else s).queueLoss := by
  have newest : s.fl.queue.getLast? = some low := by simp [last]
  have rest : dropLowest s.fl.queue = q := by simp [dropLowest, last]
  unfold State.enqueue
  rw [if_neg (by simpa using fresh), if_neg full, newest, rest]
  change (if low.cls < cls then _ else _) = _
  split
  · unfold State.entered QEntry.leads
    cases q <;> rfl
  · rfl

/-! ## What raising an event leaves of the fault block -/

/-- The fault block with nothing but the source buffers, the events held and SAFE changed, and new occurrences of the events `ids`
alone. -/
structure FlState.Raised (ids : List Nat) (x y : FlState) : Prop where
  kept : y = { x with bufs := y.bufs, held := y.held, safe := y.safe }
  bufs : ∀ o ∈ y.bufs, o ∈ x.bufs ∨ o.id ∈ ids

namespace FlState.Raised

variable {ids ids' : List Nat} {x y z : FlState}

theorem refl (ids : List Nat) (x : FlState) : Raised ids x x := ⟨rfl, fun _ mem => .inl mem⟩

theorem of_eq (same : y = x) : Raised ids x y := same ▸ refl ids x

theorem trans (h : Raised ids x y) (k : Raised ids' y z) : Raised (ids ++ ids') x z where
  kept := by rw [k.kept, h.kept]
  bufs o mem := by
    rcases k.bufs o mem with old | new
    · exact (h.bufs o old).imp_right (List.mem_append_left ids')
    · exact .inr (List.mem_append_right ids new)

end FlState.Raised

theorem State.countUp_fl (s : State) (h k : Nat) : (s.countUp h k).fl = s.fl := by
  unfold State.countUp
  induction s.si.path h generalizing s with
  | nil => rfl
  | cons u us ih => exact ih _

theorem State.raiseCore_fl (s : State) (id minc unit detail : Nat) : s.fl.Raised [id] (s.raiseCore id minc unit detail).fl := by
  unfold State.raiseCore
  split
  · exact ⟨rfl, fun _ mem => .inl mem⟩
  · dsimp only
    generalize max minc _ = cls
    generalize marked : (if cls = 1 then State.setDyn _ _ _ else if cls = 2 then State.setDyn _ _ _ else State.countUp _ _ _) = t
    have same : t.fl = s.fl := by
      rw [← marked]
      split
      · exact s.countUp_fl _ _
      · split <;> exact s.countUp_fl _ _
    rw [← same]
    split
    · exact ⟨rfl, fun o mem => (List.mem_append.1 mem).imp_right fun new => by simp_all⟩
    · exact ⟨rfl, fun _ mem => .inl mem⟩

theorem State.csrSet_fl (s : State) (f : BitField) : s.fl.Raised [Ev.CHIP_SERVICE] (s.csrSet f).fl := by
  unfold State.csrSet
  dsimp only
  split
  · exact ((s.flag Reg.FL_CSR f).flag Reg.FL_STAT F.FL_STAT_CHIP_SERVICE).raiseCore_fl Ev.CHIP_SERVICE 0 0 _
  · exact .refl _ _

theorem State.raiseWith_fl (s : State) (id minc unit detail : Nat) :
    s.fl.Raised [id, Ev.CHIP_SERVICE] (s.raiseWith id minc unit detail).fl := by
  unfold State.raiseWith
  dsimp only
  split
  · exact (s.raiseCore_fl id minc unit detail).trans (State.csrSet_fl _ _)
  · exact (s.raiseCore_fl id minc unit detail).trans (.refl [Ev.CHIP_SERVICE] _)

theorem State.raise_fl (s : State) (id unit : Nat) : s.fl.Raised [id, Ev.CHIP_SERVICE] (s.raise id unit).fl := s.raiseWith_fl _ _ _ _

/-! ## A full queue, and its order -/

theorem State.queueLoss_fl (s : State) : s.queueLoss.fl.queue = s.fl.queue ∧ s.queueLoss.fl.overflow = true := by
  unfold State.queueLoss
  extract_lets t t' t''
  have raised := ({ t'' with fl := { t''.fl with overflow := true } } : State).raise_fl Ev.ERRQ_OVERFLOW 0
  rw [raised.kept]
  exact ⟨rfl, rfl⟩

/-- R444: the order of the queue. -/
def Ordered (q : List QEntry) : Prop := q.Pairwise fun a b => b.cls ≤ a.cls

theorem mem_queueInsert {e x : QEntry} {q : List QEntry} : x ∈ queueInsert e q ↔ x = e ∨ x ∈ q := by
  induction q with
  | nil => simp [queueInsert]
  | cons a q ih =>
    unfold queueInsert
    split
    · simp
    · simp only [List.mem_cons, ih]
      tauto

theorem length_queueInsert (e : QEntry) (q : List QEntry) : (queueInsert e q).length = q.length + 1 := by
  induction q with
  | nil => rfl
  | cons a q ih =>
    unfold queueInsert
    split <;> simp [ih]

theorem Ordered.queueInsert {q : List QEntry} (ordered : Ordered q) (e : QEntry) : Ordered (queueInsert e q) := by
  induction q with
  | nil => exact List.pairwise_singleton _ _
  | cons a q ih =>
    obtain ⟨first, rest⟩ := List.pairwise_cons.1 ordered
    unfold Machine.queueInsert
    split
    next leads =>
      refine List.pairwise_cons.2 ⟨fun x mem => ?_, ordered⟩
      rcases List.mem_cons.1 mem with rfl | later
      · omega
      · exact (first x later).trans (by omega)
    next follows =>
      refine List.pairwise_cons.2 ⟨fun x mem => ?_, ih rest⟩
      rcases mem_queueInsert.1 mem with rfl | later
      · omega
      · exact first x later

theorem Ordered.mergedQueue {q : List QEntry} (ordered : Ordered q) (id unit : Nat) : Ordered (mergedQueue q id unit) := by
  have cls (e : QEntry) : (if e.id = id ∧ e.unit = unit then { e with rep := min 255 (e.rep + 1) } else e).cls = e.cls := by
    split <;> rfl
  simpa only [Ordered, Machine.mergedQueue, List.pairwise_map, cls] using ordered

/-- What an entry does to an ordered queue, in the case that applies. -/
theorem State.enqueue_cases (s : State) (id cls unit detail : Nat) (chip : Bool) (irq : Option Nat) (ts : Stamp) :
    let t := s.enqueue id cls unit detail chip irq ts
    let e := s.newEntry id cls unit detail chip irq ts
    ((∃ e ∈ s.fl.queue, e.id = id ∧ e.unit = unit) ∧ t.fl.queue = Machine.mergedQueue s.fl.queue id unit) ∨
    (s.fl.queue.length < 32 ∧ t.fl.queue = queueInsert e s.fl.queue) ∨
    (∃ q low, s.fl.queue = q ++ [low] ∧ 32 ≤ s.fl.queue.length ∧ t.fl.overflow = true ∧
      t.fl.queue = if low.cls < cls then queueInsert e q else s.fl.queue) := by
  by_cases held : ∃ e ∈ s.fl.queue, e.id = id ∧ e.unit = unit
  · exact .inl ⟨held, by rw [State.enqueue_held held]⟩
  have fresh : ∀ e ∈ s.fl.queue, ¬(e.id = id ∧ e.unit = unit) := by simpa using held
  by_cases room : s.fl.queue.length < 32
  · exact .inr (.inl ⟨room, by rw [State.enqueue_room fresh room, State.entered_fl]; rfl⟩)
  have filled : s.fl.queue ≠ [] := by
    rintro empty
    simp [empty] at room
  have last := (List.dropLast_append_getLast filled).symm
  refine .inr (.inr ⟨_, _, last, by omega, ?_⟩)
  rw [State.enqueue_full fresh room last]
  obtain ⟨queue, overflow⟩ := State.queueLoss_fl
    (if (s.fl.queue.getLast filled).cls < cls then s.entered (s.newEntry id cls unit detail chip irq ts) s.fl.queue.dropLast else s)
  refine ⟨overflow, queue.trans ?_⟩
  split
  · rw [State.entered_fl]; rfl
  · rfl

end

/-- Settles O56: of the three cases of an entry, the last alone meets a full queue. -/
theorem queueKeepsOrder : Obligations.QueueKeepsOrder := by
  unfold Obligations.QueueKeepsOrder
  intro s id cls unit detail chip irq ts ordered bound
  rcases s.enqueue_cases id cls unit detail chip irq ts with ⟨held, queue⟩ | ⟨room, queue⟩ | ⟨q, low, last, full, overflow, queue⟩
  · refine ⟨queue ▸ Ordered.mergedQueue ordered id unit, ?_, fun _ fresh => ?_⟩
    · simpa [queue, mergedQueue] using bound
    · obtain ⟨e, mem, same⟩ := held
      exact absurd same (fresh e mem)
  · refine ⟨queue ▸ Ordered.queueInsert ordered _, ?_, fun full => by omega⟩
    rw [queue, length_queueInsert]
    omega
  · have orderedRest : Ordered q := (List.pairwise_append.1 (last ▸ ordered)).1
    have size : q.length + 1 = s.fl.queue.length := by simp [last]
    refine ⟨?_, ?_, fun _ _ => ⟨overflow, fun lowest => ?_, fun e q' last' higher => ?_⟩⟩
    · rw [queue]
      split
      · exact orderedRest.queueInsert _
      · exact ordered
    · rw [queue]
      split
      · rw [length_queueInsert]
        omega
      · exact bound
    · have := lowest low (by simp [last])
      rw [queue, if_neg (by omega)]
    · obtain ⟨rfl, one⟩ := List.append_inj' (last.symm.trans last') rfl
      obtain rfl : low = e := by simpa using one
      rw [queue, if_pos higher]
      rfl

/-! ## Collection and acknowledgement -/

/-- What a collection does before the occurrence enters the queue: it leaves its buffer and is counted, and its interrupt bit is
set. -/
def State.taken (s : State) (o : Occ) : State :=
  let t := ({ s with fl := { s.fl with bufs := s.fl.bufs.erase o } } : State).evCount o.id
  match o.irq with
  | some m => t.flag (Reg.FL_IRQm_STAT m) F.FL_IRQm_STAT_EVENT
  | none => t

theorem State.taken_fl (s : State) (o : Occ) :
    (s.taken o).fl = { s.fl with bufs := s.fl.bufs.erase o, evcnt := (s.taken o).fl.evcnt } := by
  unfold State.taken
  cases o.irq <;> rfl

theorem State.taken_cascade (s : State) (o : Occ) (h : Nat) : (s.taken o).cascade h = s.cascade h := by
  unfold State.taken
  cases o.irq with
  | none => rfl
  | some m =>
    have other : Reg.HL_INDEX ≠ Reg.FL_IRQm_STAT m := by
      unfold Reg.HL_INDEX Reg.FL_IRQm_STAT
      omega
    exact congrArg (· * 2 ^ 24 + h) (State.fld_wr_ne _ _ _ other)

theorem State.eventCollect_none {s : State} (empty : s.fl.bufs = []) : s.eventCollect = s := by
  simp [State.eventCollect, State.collect, empty, nextOcc]

theorem State.eventCollect_next {s : State} {o : Occ} (next : nextOcc s.fl.bufs = some o) (warn : 1 ≤ o.cls)
    (own : o.id ≠ Ev.ERRQ_OVERFLOW) : s.eventCollect.fl =
      ((s.taken o).enqueue o.id o.cls (s.cascade o.unit) o.detail false o.irq o.ts).fl := by
  have entered : s.collect = some (o, (s.taken o).enqueue o.id o.cls ((s.taken o).cascade o.unit) o.detail false o.irq o.ts) := by
    unfold State.collect
    rw [next]
    simp [warn, own]
    rfl
  unfold State.eventCollect
  rw [entered, s.taken_cascade]
  simp [Occ.reported, warn]

/-- Settles O55: the occurrence taken leaves its buffer, and the cases of an entry do the rest. -/
theorem eventsCollected : Obligations.EventsCollected := by
  unfold Obligations.EventsCollected
  refine ⟨?empty, ?taken, fun l o next => nextOcc_least next, fun n => ?_⟩
  case empty =>
    intro s out empty
    rw [exec_eventCollect s out, State.eventCollect_none empty]
  case taken =>
    intro s o out next warn own
    refine ⟨s.eventCollect, exec_eventCollect s out, fun held => ?_, fun fresh room => ?_⟩
    · rw [State.eventCollect_next next warn own, State.enqueue_held (by rwa [s.taken_fl]), s.taken_fl]
      exact ⟨rfl, rfl⟩
    · rw [State.eventCollect_next next warn own, State.enqueue_room (by rwa [s.taken_fl]) (by rwa [s.taken_fl]), State.entered_fl,
        State.withEntry, State.newEntry, s.taken_fl]
      exact ⟨rfl, rfl, rfl⟩
  · unfold nextSeqOf
    split <;> omega

theorem exec_flEqAck {s : State} {m : Master} (takes : s.takes m Reg.FL_EQ_ACK) (w : Word) :
    exec (.flEqAck m w) s = .next (s.wrote (s.eqAck (F.FL_EQ_ACK_SEQ.get (cmdWord Reg.FL_EQ_ACK w []))) m) :=
  congrArg Host.Outcome.next (State.act_busWrite_of_takes s m _ w takes (by decide) (by decide))

/-- Settles O57: an entry with that SEQ is filtered out; ACK_STALE is another field than PREEMPT. -/
theorem queueAcknowledged : Obligations.QueueAcknowledged := by
  unfold Obligations.QueueAcknowledged
  intro s m w takes q
  refine ⟨_, exec_flEqAck takes w, fun there => ?_, fun gone => ?_, ?_⟩
  · exact if_pos (by simpa using there)
  · have stale : s.eqAck q = s.flag Reg.FL_EQ_STAT F.FL_EQ_STAT_ACK_STALE := if_neg (by simpa using gone)
    exact ⟨stale, by rw [stale]; rfl⟩
  · unfold State.eqAck
    split
    · rfl
    · exact s.fld_setFld_other _ _ _ _ (by decide) (by decide) (by decide)

end Sys2Proof.Machine
end

section
/-! PROOFS of O58: fault controls, toggle relays, losses and returns of clocks, and the fabric watchdog. -/

namespace Sys2Proof.Machine

/-! ## What folds and raised events leave -/

/-- What every step of a fold leaves, the fold leaves. -/
theorem State.foldl_proj {α β : Type} (π : State → β) {f : State → α → State} (kept : ∀ s x, π (f s x) = π s) (l : List α) (s : State) :
    π (l.foldl f s) = π s := by
  induction l generalizing s with
  | nil => rfl
  | cons x l ih => exact (ih _).trans (kept s x)

theorem RaiseKeeps.fld {s t : State} (h : RaiseKeeps s t) {a : Nat} (f : BitField) (stat : a ≠ Reg.FL_STAT) (csr : a ≠ Reg.FL_CSR)
    (lost : a ≠ Reg.FL_LOST) : t.fld a f = s.fld a f := by
  unfold State.fld
  rw [h.rd a stat csr lost]

theorem State.countUp_regs (s : State) (h k : Nat) : (s.countUp h k).regs = s.regs := by
  unfold State.countUp
  exact State.foldl_proj (·.regs) (by intros; rfl) _ s

/-- Raising an event counts losses of its source alone. -/
theorem State.raiseCore_rd (s : State) (id minc unit detail : Nat) {a : Nat} (other : a ≠ Reg.FL_LOST) :
    (s.raiseCore id minc unit detail).rd a = s.rd a := by
  unfold State.raiseCore
  split
  · rfl
  · dsimp only
    generalize max minc _ = cls
    generalize marked : (if cls = 1 then State.setDyn _ _ _ else if cls = 2 then State.setDyn _ _ _ else State.countUp _ _ _) = t
    have same : t.rd a = s.rd a := by
      have counted (u : Nat) : (s.countUp u 0).rd a = s.rd a := congrArg (AMap.get regReset · a) (s.countUp_regs u 0)
      rw [← marked]
      split
      · exact counted _
      · split <;> exact counted _
    rw [← same]
    split
    · rfl
    · exact State.rd_bump_ne _ _ _ other

/-- CHIP_SERVICE_REQ: the cause is set. -/
theorem State.isSet_csrSet (s : State) {f : BitField} (one : f.lo = f.hi) (inWord : f.hi < 32) :
    (s.csrSet f).isSet Reg.FL_CSR f = true := by
  have flagged := s.isSet_flag Reg.FL_CSR f one inWord
  unfold State.csrSet
  dsimp only
  split
  · unfold State.isSet State.fld at flagged ⊢
    rw [State.raiseCore_rd _ _ _ _ _ (by decide), State.rd_flag_ne _ _ (by decide)]
    exact flagged
  · exact flagged

/-- Of FL_STAT, CHIP_SERVICE alone follows a cause of CHIP_SERVICE_REQ. -/
theorem State.csrSet_stat (s : State) (f : BitField) {g : BitField} (apart : 7 < g.lo ∨ g.hi < 7) :
    (s.csrSet f).fld Reg.FL_STAT g = s.fld Reg.FL_STAT g := by
  have flagged : (s.flag Reg.FL_CSR f).fld Reg.FL_STAT g = s.fld Reg.FL_STAT g := State.fld_wr_ne _ _ _ (by decide)
  unfold State.csrSet
  extract_lets rise t
  split
  · have kept := (t.flag Reg.FL_STAT F.FL_STAT_CHIP_SERVICE).raiseCore_rd Ev.CHIP_SERVICE 0 0
      ((t.flag Reg.FL_STAT F.FL_STAT_CHIP_SERVICE).line % 2 ^ 32) (a := Reg.FL_STAT) (by decide)
    exact (congrArg g.get kept).trans ((State.fld_setFld_other _ _ _ _ _ (by decide) (by decide) apart).trans flagged)
  · exact flagged

theorem State.raiseWith_stat (s : State) (id minc unit detail : Nat) {g : BitField} (apart : 7 < g.lo ∨ g.hi < 7) :
    (s.raiseWith id minc unit detail).fld Reg.FL_STAT g = s.fld Reg.FL_STAT g := by
  have core : (s.raiseCore id minc unit detail).fld Reg.FL_STAT g = s.fld Reg.FL_STAT g :=
    congrArg g.get (s.raiseCore_rd id minc unit detail (by decide))
  unfold State.raiseWith
  dsimp only
  split
  · exact (State.csrSet_stat _ _ apart).trans core
  · exact core

/-! ## Controls -/

/-- A granted write of a block register completes after the effect of the write. -/
theorem State.next_busWrite {s u : State} {m : Master} {a : Nat} {w : Word} (takes : s.takes m a) (writable : readOnlyWindow a = false)
    (low : a < 0x140000) (effect : s.writeReg m.val a (regMask a w) = u) :
    (Host.Outcome.next (s.act (·.busWrite m.val a w)) : Host.Outcome State Fault Refusal) = .next (s.wrote u m) := by
  rw [State.act_busWrite_of_takes s m a w takes writable low, effect]

section
variable {s : State} {m : Master} (takes : s.takes m Reg.FL_CTRL) (w : Word)
include takes

theorem exec_ovfClear : exec (.ovfClear m w) s = .next (s.wrote s.ovfClear m) := by
  obtain ⟨ovf, csr⟩ := get_cmdWord_pair (a := Reg.FL_CTRL) (f := F.FL_CTRL_OVF_CLEAR) (g := F.FL_CTRL_CSR_CLEAR) (by decide)
    (by decide) (by decide) w
  refine State.next_busWrite takes (by decide) (by decide) ?_
  change s.writeFl Reg.FL_CTRL (cmdWord Reg.FL_CTRL w _) = _
  simp [State.writeFl, ovf, csr]

theorem exec_csrClear : exec (.csrClear m w) s = .next (s.wrote s.csrClear m) := by
  obtain ⟨csr, ovf⟩ := get_cmdWord_pair (a := Reg.FL_CTRL) (f := F.FL_CTRL_CSR_CLEAR) (g := F.FL_CTRL_OVF_CLEAR) (by decide)
    (by decide) (by decide) w
  refine State.next_busWrite takes (by decide) (by decide) ?_
  change s.writeFl Reg.FL_CTRL (cmdWord Reg.FL_CTRL w _) = _
  simp [State.writeFl, ovf, csr]

end

/-- R452: the two causes a write clears, and the two it leaves. -/
theorem State.csrClear_causes (s : State) : s.csrClear.isSet Reg.FL_CSR F.FL_CSR_EVENT = false ∧
    s.csrClear.isSet Reg.FL_CSR F.FL_CSR_CLOCK = false ∧ s.csrClear.fld Reg.FL_CSR F.FL_CSR_FALLBACK = s.fld Reg.FL_CSR F.FL_CSR_FALLBACK ∧
    s.csrClear.fld Reg.FL_CSR F.FL_CSR_KEYSTORE = s.fld Reg.FL_CSR F.FL_CSR_KEYSTORE := by
  have other {g : BitField} (event : 0 < g.lo ∨ g.hi < 0) (clock : 3 < g.lo ∨ g.hi < 3) :
      s.csrClear.fld Reg.FL_CSR g = s.fld Reg.FL_CSR g :=
    (State.fld_setFld_other _ _ F.FL_CSR_CLOCK _ _ (by decide) (by decide) clock).trans
      (s.fld_setFld_other _ F.FL_CSR_EVENT _ _ (by decide) (by decide) event)
  have event : s.csrClear.fld Reg.FL_CSR F.FL_CSR_EVENT = 0 :=
    (State.fld_setFld_other _ _ F.FL_CSR_CLOCK _ _ (by decide) (by decide) (by decide)).trans
      (s.fld_setFld _ _ 0 (by decide) (by decide))
  have clock : s.csrClear.fld Reg.FL_CSR F.FL_CSR_CLOCK = 0 := State.fld_setFld _ _ _ 0 (by decide) (by decide)
  exact ⟨by simp [State.isSet, event], by simp [State.isSet, clock], other (by decide) (by decide), other (by decide) (by decide)⟩

/-! ## Toggle relays -/

/-- R454: a merged pulse is counted with its block, and raises RELAY_OVERRUN alone. -/
theorem State.relayOverrun_records (s : State) {blk : Nat} (block : blk < 256) : let u := s.relayOverrun blk
    u.fl.relays = s.fl.relays ∧ u.isSet Reg.FL_STAT F.FL_STAT_RELAY_OVERRUN = true ∧
    u.fld Reg.FL_XING_SRC F.FL_XING_SRC_OVERRUN_BLK = blk ∧
    u.fld Reg.FL_XING_CNT F.FL_XING_CNT_OVERRUN = min F.FL_XING_CNT_OVERRUN.top (s.fld Reg.FL_XING_CNT F.FL_XING_CNT_OVERRUN + 1) ∧
    ∀ o ∈ u.fl.bufs, o ∈ s.fl.bufs ∨ o.id = Ev.RELAY_OVERRUN ∨ o.id = Ev.CHIP_SERVICE := by
  unfold State.relayOverrun
  extract_lets t
  have raised := (t.flag Reg.FL_STAT F.FL_STAT_RELAY_OVERRUN).raiseWith_fl Ev.RELAY_OVERRUN ((eventClass Ev.RELAY_OVERRUN).getD 0) 0 blk
  have keeps := (t.flag Reg.FL_STAT F.FL_STAT_RELAY_OVERRUN).raiseWith_keeps Ev.RELAY_OVERRUN ((eventClass Ev.RELAY_OVERRUN).getD 0) 0 blk
  refine ⟨by rw [raised.kept]; rfl, ?_, ?_, ?_, fun o mem => (raised.bufs o mem).imp_right (by simp)⟩
  · have flagged := t.isSet_flag Reg.FL_STAT F.FL_STAT_RELAY_OVERRUN (by decide) (by decide)
    unfold State.isSet at flagged ⊢
    rwa [State.raiseWith_stat _ _ _ _ _ (by decide)]
  · rw [keeps.fld _ (by decide) (by decide) (by decide), State.flag, State.setFld, State.fld_wr_ne _ _ _ (by decide)]
    exact (State.fld_setFld _ _ _ _ (by decide) (by decide)).trans (Nat.mod_eq_of_lt block)
  · rw [keeps.fld _ (by decide) (by decide) (by decide), State.flag, State.setFld, State.fld_wr_ne _ _ _ (by decide)]
    exact (State.fld_wr_ne _ _ _ (by decide)).trans (s.fld_bump _ _ _ (by decide) (by decide))

/-! ## Clocks lost -/

/-- What settling an outcome leaves besides the ports. -/
theorem State.outcome_sys (s : State) (l p code : Nat) (flag : Option Nat) (final : Bool) :
    (s.outcome l p code flag final).sys = s.sys ∧ (s.outcome l p code flag final).now = s.now := by
  unfold State.outcome
  extract_lets b declined s₁ s₂ s₃ unfired
  have spans : s₂.sys = s.sys ∧ s₂.now = s.now := by
    unfold s₂
    split
    · exact ⟨rfl, rfl⟩
    · split <;> exact ⟨rfl, rfl⟩
  have lines : s₃.sys = s.sys ∧ s₃.now = s.now := by
    unfold s₃
    cases flag <;> exact spans
  have counted : (s₃.countUp (portH p) 1).sys = s₃.sys ∧ (s₃.countUp (portH p) 1).now = s₃.now := by
    unfold State.countUp
    exact ⟨State.foldl_proj (·.sys) (by intros; rfl) _ s₃, State.foldl_proj (·.now) (by intros; rfl) _ s₃⟩
  split
  · exact ⟨counted.1.trans lines.1, counted.2.trans lines.2⟩
  · exact lines

/-- The waveform in hand of a port, cut now. -/
def State.cutWave (s : State) (p : Nat) : State :=
  s.setPort p { s.port p with pulses := cutPulses s.now (s.port p).pulses,
                              waveEnd := (cutPulses s.now (s.port p).pulses).foldl (fun m x => max m (x.1 + x.2)) 0 }

/-- R177: a port with a waveform running is cut, and the outcome of the line in hand may be settled. -/
theorem State.cutPort_cases (s : State) (p : Nat) (flag : Option Nat) :
    ((s.port p).waveEnd ≤ s.now ∧ s.cutPort p flag = s) ∨
    (s.now < (s.port p).waveEnd ∧
      (s.cutPort p flag = s.cutWave p ∨ ∃ l code, s.cutPort p flag = (s.cutWave p).outcome l p code flag true)) := by
  by_cases ended : (s.port p).waveEnd ≤ s.now
  · exact .inl ⟨ended, if_pos ended⟩
  refine .inr ⟨Nat.lt_of_not_le ended, ?_⟩
  unfold State.cutPort
  rw [if_neg ended]
  dsimp only
  split
  · split
    · exact .inr ⟨_, _, rfl⟩
    · exact .inl rfl
  · exact .inl rfl

theorem State.cutPort_sys (s : State) (p : Nat) (flag : Option Nat) : (s.cutPort p flag).sys = s.sys ∧ (s.cutPort p flag).now = s.now := by
  obtain ⟨-, same⟩ | ⟨-, same | ⟨l, code, same⟩⟩ := s.cutPort_cases p flag
  · rw [same]
    exact ⟨rfl, rfl⟩
  · rw [same]
    exact ⟨rfl, rfl⟩
  · rw [same]
    exact State.outcome_sys ..

theorem State.cutPort_hp (s : State) (p : Nat) (flag : Option Nat) :
    ((s.port p).waveEnd ≤ s.now ∧ s.cutPort p flag = s) ∨ (s.now < (s.port p).waveEnd ∧ (s.cutPort p flag).hp = (s.cutWave p).hp) := by
  obtain done | ⟨running, same | ⟨l, code, same⟩⟩ := s.cutPort_cases p flag
  · exact .inl done
  · exact .inr ⟨running, by rw [same]⟩
  · exact .inr ⟨running, by rw [same, State.outcome_hp]⟩

theorem State.port_of_hp {s t : State} (hp : t.hp = s.hp) (p : Nat) : t.port p = s.port p := by
  unfold State.port
  rw [hp]

/-- A port that is cut leaves the other ports. -/
theorem State.cutPort_others (s : State) (p : Nat) (flag : Option Nat) : (s.cutPort p flag).hp.ports.length = s.hp.ports.length ∧
    ∀ r, r ≠ p → (s.cutPort p flag).port r = s.port r := by
  obtain ⟨-, same⟩ | ⟨-, hp⟩ := s.cutPort_hp p flag
  · rw [same]
    exact ⟨rfl, fun _ _ => rfl⟩
  · exact ⟨by rw [hp]; exact State.length_setPort _ _ _, fun r other => (State.port_of_hp hp r).trans (State.port_setPort_ne _ _ other)⟩

theorem State.cutPort_own (s : State) {p : Nat} (flag : Option Nat) (there : p < s.hp.ports.length) (running : s.now < (s.port p).waveEnd) :
    ((s.cutPort p flag).port p).pulses = cutPulses s.now (s.port p).pulses := by
  obtain ⟨ended, -⟩ | ⟨-, hp⟩ := s.cutPort_hp p flag
  · omega
  · rw [State.port_of_hp hp, State.cutWave, State.port_setPort_self there]

/-- All ports of a range cut. -/
def State.cutPorts (s : State) (n : Nat) : State := (List.range n).foldl (fun s p => s.cutPort p none) s

theorem State.cutPorts_spec (s : State) (n : Nat) : (s.cutPorts n).sys = s.sys ∧ (s.cutPorts n).now = s.now ∧
    (s.cutPorts n).hp.ports.length = s.hp.ports.length ∧ (∀ p, n ≤ p → (s.cutPorts n).port p = s.port p) ∧
    (∀ p < n, p < s.hp.ports.length → s.now < (s.port p).waveEnd →
      ((s.cutPorts n).port p).pulses = cutPulses s.now (s.port p).pulses) := by
  induction n with
  | zero => exact ⟨rfl, rfl, rfl, fun _ _ => rfl, fun p below => absurd below (Nat.not_lt_zero p)⟩
  | succ n ih =>
    obtain ⟨sys, now, length, later, cut⟩ := ih
    have next : s.cutPorts (n + 1) = (s.cutPorts n).cutPort n none := by
      simp [State.cutPorts, List.range_succ]
    obtain ⟨sys', now'⟩ := (s.cutPorts n).cutPort_sys n none
    obtain ⟨length', others⟩ := (s.cutPorts n).cutPort_others n none
    have own := (s.cutPorts n).cutPort_own (p := n) none
    rw [← next] at sys' now' length' others own
    refine ⟨sys'.trans sys, now'.trans now, length'.trans length, fun p beyond => ?_, fun p below there running => ?_⟩
    · exact (others p (by omega)).trans (later p (by omega))
    · rcases Nat.lt_succ_iff_lt_or_eq.1 below with earlier | rfl
      · rw [others p (by omega)]
        exact cut p earlier there running
      · rw [later p le_rfl, now] at own
        exact own (length ▸ there) running

/-- HOLD stays due. -/
theorem State.raiseCore_holdDue (s : State) (id minc unit detail : Nat) (due : s.sys.holdDue = true ∨ (3 ≤ minc ∧ s.mode ≠ .boot)) :
    (s.raiseCore id minc unit detail).sys.holdDue = true := by
  unfold State.raiseCore
  split
  next boot =>
    exact due.resolve_right fun fresh => fresh.2 boot
  · dsimp only
    generalize class' : max minc _ = cls
    have class3 : minc ≤ cls := class' ▸ le_max_left _ _
    generalize marked : (if cls = 1 then State.setDyn _ _ _ else if cls = 2 then State.setDyn _ _ _ else State.countUp _ _ _) = t
    have same : t.sys = s.sys := by
      have counted (u : Nat) : (s.countUp u 0).sys = s.sys := by
        unfold State.countUp
        exact State.foldl_proj (·.sys) (by intros; rfl) _ s
      rw [← marked]
      split
      · exact counted _
      · split <;> exact counted _
    have raised : (t.sys.holdDue || decide (3 ≤ cls)) = true := by
      rw [same, Bool.or_eq_true, decide_eq_true_eq]
      exact due.imp_right fun fresh => fresh.1.trans class3
    split <;> exact raised

theorem State.csrSet_holdDue (s : State) (f : BitField) (due : s.sys.holdDue = true) : (s.csrSet f).sys.holdDue = true := by
  unfold State.csrSet
  dsimp only
  split
  · exact State.raiseCore_holdDue _ _ _ _ _ (.inl due)
  · exact due

theorem State.raiseWith_holdDue (s : State) (id minc unit detail : Nat) (due : s.sys.holdDue = true ∨ (3 ≤ minc ∧ s.mode ≠ .boot)) :
    (s.raiseWith id minc unit detail).sys.holdDue = true := by
  have core := s.raiseCore_holdDue id minc unit detail due
  unfold State.raiseWith
  dsimp only
  split
  · exact State.csrSet_holdDue _ _ core
  · exact core

/-- The clocks after a loss of source `src`. -/
def SysState.lost (y : SysState) (src : Nat) : SysState :=
  let y := if src < 2 then { y with refOk := false } else { y with pllLock := y.pllLock - 2 ^ (src - 2) }
  let y := if src = 5 && !(y.stopped.contains Domain.dram) then { y with stopped := .dram :: y.stopped } else y
  { y with onOsc := true }

theorem SysState.lost_spec (y : SysState) (src : Nat) : (y.lost src).onOsc = true ∧ (y.lost src).mode = y.mode ∧
    (src < 2 → (y.lost src).refOk = false) := by
  unfold SysState.lost
  dsimp only
  by_cases ref : src < 2
  · rw [if_pos ref]
    split <;> exact ⟨rfl, rfl, fun _ => rfl⟩
  · rw [if_neg ref]
    split <;> exact ⟨rfl, rfl, fun low => absurd low ref⟩

/-- R461: what a loss does before its event. -/
def State.clockCut (s : State) (src : Nat) : State :=
  ((({ s with sys := s.sys.lost src } : State).cutPorts 64).setFld Reg.FL_CLKMON F.FL_CLKMON_LAST_SRC src).flag Reg.FL_STAT F.FL_STAT_CLOCK_LOSS

theorem State.clockLoss_present {s : State} {src : Nat} (good : if src < 2 then s.sys.refOk = true else s.sys.pllLock.testBit (src - 2) = true) :
    s.clockLoss src = ((s.clockCut src).raiseWith Ev.CLOCK_LOSS 3 0 src).csrSet F.FL_CSR_CLOCK := by
  have present : ¬ (if src < 2 then !s.sys.refOk else !(s.sys.pllLock.testBit (src - 2))) = true := by
    split at good <;> simp_all
  exact if_neg present

/-- The clocks stand as the loss left them, and the ports as it cut them. -/
theorem State.clockLoss_spec {s : State} {src : Nat} (mode : s.mode ≠ .boot)
    (good : if src < 2 then s.sys.refOk = true else s.sys.pllLock.testBit (src - 2) = true) : let u := s.clockLoss src
    u.sys.onOsc = true ∧ u.sys.holdDue = true ∧ (src < 2 → u.sys.refOk = false) ∧ u.isSet Reg.FL_CSR F.FL_CSR_CLOCK = true ∧
    (∀ p < 64, p < s.hp.ports.length → s.now < (s.port p).waveEnd → (u.port p).pulses = cutPulses s.now (s.port p).pulses) := by
  intro u
  have raised : RaiseKeeps (s.clockCut src) u := by
    unfold u
    rw [State.clockLoss_present good]
    exact (State.raiseWith_keeps _ _ _ _ _).trans (State.csrSet_keeps _ _)
  obtain ⟨sys, -, -, -, cut⟩ := ({ s with sys := s.sys.lost src } : State).cutPorts_spec 64
  obtain ⟨osc, mode', ref⟩ := s.sys.lost_spec src
  have cutSys : (s.clockCut src).sys = s.sys.lost src := by rw [State.clockCut, State.flag_sys, State.setFld_sys, sys]
  have cutHp : (s.clockCut src).hp = (({ s with sys := s.sys.lost src } : State).cutPorts 64).hp := by
    rw [State.clockCut, State.flag_hp, State.setFld_hp]
  refine ⟨?_, ?_, fun low => ?_, ?_, fun p port there running => ?_⟩
  · rw [raised.sys, cutSys]
    exact osc
  · unfold u
    rw [State.clockLoss_present good]
    refine State.csrSet_holdDue _ _ (State.raiseWith_holdDue _ _ _ _ _ (.inr ⟨le_rfl, ?_⟩))
    unfold State.mode
    rw [cutSys, mode']
    exact mode
  · rw [raised.sys, cutSys]
    exact ref low
  · unfold u
    rw [State.clockLoss_present good]
    exact State.isSet_csrSet _ (by decide) (by decide)
  · rw [State.port_of_hp (raised.hp.trans cutHp)]
    exact cut p port there running

/-! ## Groups that retrain -/

/-- A group that has lost a lane starts over at TRAIN, at its speed and width (R326). -/
def LinkGroup.retraining (x : LinkGroup) : LinkGroup :=
  { x with st := .train, steps := 0, retrain := true, done := false, resends := 0, echoSent := [], echoRt := [], measured := false }

theorem State.startRetrain_idle {s : State} {g : Nat} (idle : (s.grp g).st ≠ .active) : s.startRetrain g = s := if_pos idle

/-- The reset of a crossing counted and flagged (R457). -/
def State.xingCounted (s : State) (blk : Nat) (keys : List Nat) : State :=
  (((s.relaysFree keys).bump Reg.FL_XING_CNT F.FL_XING_CNT_RESET).setFld Reg.FL_XING_SRC F.FL_XING_SRC_RESET_BLK blk).flag Reg.FL_STAT
    F.FL_STAT_XING_RESET

theorem State.xingReset_eq (s : State) (blk : Nat) (keys : List Nat) :
    s.xingReset blk keys = (s.xingCounted blk keys).raiseWith Ev.XING_RESET 0 0 blk := rfl

theorem State.xingReset_keeps (s : State) (blk : Nat) (keys : List Nat) : let t := s.xingReset blk keys
    t.hl = s.hl ∧ t.hp = s.hp ∧ t.js = s.js ∧ t.wp = s.wp ∧ t.dram = s.dram ∧ t.bus = s.bus ∧ t.now = s.now ∧ t.fl.waits = s.fl.waits ∧
    t.fl.resetDomains = s.fl.resetDomains ∧ t.sys = { s.sys with holdDue := t.sys.holdDue, zeroDue := t.sys.zeroDue, safeDue := t.sys.safeDue } := by
  intro t
  have raised : RaiseKeeps (s.xingCounted blk keys) (s.xingReset blk keys) := by
    rw [State.xingReset_eq]
    exact State.raiseWith_keeps _ _ _ _ _
  have fl : (s.xingCounted blk keys).fl = (s.relaysFree keys).fl := by simp [State.xingCounted]
  refine ⟨raised.hl.trans ?_, raised.hp.trans ?_, raised.js.trans ?_, raised.wp.trans ?_, raised.dram.trans ?_, raised.bus.trans ?_,
    raised.now.trans ?_, raised.waits.trans ?_, raised.resetDomains.trans ?_, raised.sys.trans ?_⟩
  case refine_8 => rw [fl]; rfl
  case refine_9 => rw [fl]; rfl
  case refine_10 => rw [show (s.xingCounted blk keys).sys = s.sys by simp [State.xingCounted, State.relaysFree]]
  all_goals
    simp [State.xingCounted, State.relaysFree]

/-- The lanes of a group without their marker lock. -/
def State.unlocked (s : State) (g n : Nat) : State :=
  (List.range n).foldl (fun s i => s.setLane (s.laneBase g + i)
    { s.lane (s.laneBase g + i) with amLock := false, amGood := 0, amBad := 0 }) s

/-- What a retrain does before it is flagged. -/
def State.relocking (s : State) (g : Nat) : State := (s.setGrp g (s.grp g).retraining).unlocked g (s.grp g).lanes

theorem State.startRetrain_eq {s : State} {g : Nat} (active : (s.grp g).st = .active) : s.startRetrain g =
    ((((s.relocking g).xingReset 0x0C).bump (Reg.HL_Gg_LINK g) F.HL_Gg_LINK_RETRAIN).flag Reg.HL_STAT F.HL_STAT_LINK_RETRAIN).raise
      Ev.LINK_RETRAIN := if_neg (not_not.2 active)

theorem State.relocking_keeps (s : State) (g : Nat) : (s.relocking g).hl.groups = s.hl.groups.set g (s.grp g).retraining ∧
    (s.relocking g).hp = s.hp ∧ (s.relocking g).js = s.js ∧ (s.relocking g).wp = s.wp ∧ (s.relocking g).sys = s.sys := by
  unfold State.relocking State.unlocked
  exact ⟨State.foldl_proj (·.hl.groups) (by intros; rfl) _ _, State.foldl_proj (·.hp) (by intros; rfl) _ _,
    State.foldl_proj (·.js) (by intros; rfl) _ _, State.foldl_proj (·.wp) (by intros; rfl) _ _,
    State.foldl_proj (·.sys) (by intros; rfl) _ _⟩

/-- R326: the groups after a retrain of one, and what it leaves. -/
theorem State.startRetrain_active {s : State} {g : Nat} (active : (s.grp g).st = .active) :
    (s.startRetrain g).hl.groups = s.hl.groups.set g (s.grp g).retraining ∧ (s.startRetrain g).hp = s.hp ∧
    (s.startRetrain g).js = s.js ∧ (s.startRetrain g).wp = s.wp ∧ (s.startRetrain g).sys.hlrefOk = s.sys.hlrefOk := by
  rw [State.startRetrain_eq active]
  obtain ⟨groups, hp, js, wp, sys⟩ := s.relocking_keeps g
  obtain ⟨hl', hp', js', wp', -, -, -, -, -, sys'⟩ := (s.relocking g).xingReset_keeps 0x0C []
  have raised := State.raise_keeps ((((s.relocking g).xingReset 0x0C).bump (Reg.HL_Gg_LINK g) F.HL_Gg_LINK_RETRAIN).flag
    Reg.HL_STAT F.HL_STAT_LINK_RETRAIN) Ev.LINK_RETRAIN 0
  refine ⟨?_, ?_, ?_, ?_, ?_⟩
  · rw [raised.hl, State.flag_hl, State.bump_hl, hl', groups]
  · rw [raised.hp, State.flag_hp, State.bump_hp, hp', hp]
  · rw [raised.js, State.flag_js, State.bump_js, js', js]
  · rw [raised.wp, State.flag_wp, State.bump_wp, wp', wp]
  · rw [raised.sys, State.flag_sys, State.bump_sys, sys', sys]

theorem State.grp_of_groups {s t : State} (groups : t.hl.groups = s.hl.groups) (g : Nat) : t.grp g = s.grp g := by
  unfold State.grp
  rw [groups]

theorem State.grp_of_length_le {s : State} {g : Nat} (beyond : s.hl.groups.length ≤ g) : s.grp g = LinkGroup.reset := by
  simp [State.grp, List.getD, beyond]

theorem getD_set_self {α : Type} {l : List α} {i : Nat} (x d : α) (there : i < l.length) : (l.set i x).getD i d = x := by
  simp [List.getD, there]

theorem getD_set_ne {α : Type} (l : List α) {i j : Nat} (x d : α) (other : j ≠ i) : (l.set i x).getD j d = l.getD j d := by
  simp [List.getD, List.getElem?_set_ne other.symm]

/-- A group that exists: one that is not in the state of a missing one. -/
theorem State.lt_of_active {s : State} {g : Nat} (active : (s.grp g).st = .active) : g < s.hl.groups.length := by
  by_contra beyond
  rw [State.grp_of_length_le (Nat.le_of_not_lt beyond)] at active
  exact absurd active (by decide)

/-- R326: an ACTIVE group retrains, and the others stand. -/
theorem State.startRetrain_grp (s : State) (g h : Nat) : (s.startRetrain g).grp h =
    if h = g ∧ (s.grp g).st = .active then (s.grp g).retraining else s.grp h := by
  by_cases active : (s.grp g).st = .active
  · unfold State.grp
    rw [(State.startRetrain_active active).1]
    by_cases same : h = g
    · subst same
      rw [if_pos ⟨rfl, active⟩]
      exact getD_set_self _ _ (State.lt_of_active active)
    · rw [if_neg fun c => same c.1]
      exact getD_set_ne _ _ _ same
  · rw [State.startRetrain_idle active, if_neg fun c => active c.2]

theorem State.startRetrain_keeps (s : State) (g : Nat) : (s.startRetrain g).hp = s.hp ∧ (s.startRetrain g).js = s.js ∧
    (s.startRetrain g).wp = s.wp ∧ (s.startRetrain g).sys.hlrefOk = s.sys.hlrefOk := by
  by_cases active : (s.grp g).st = .active
  · exact (State.startRetrain_active active).2
  · rw [State.startRetrain_idle active]
    exact ⟨rfl, rfl, rfl, rfl⟩

/-- R460: what the loss of HL_REFCLK leaves, and the groups that lose their lock. -/
theorem State.hlrefLoss_spec {s : State} (ref : s.sys.hlrefOk = true) : s.hlrefLoss.sys.hlrefOk = false ∧ s.hlrefLoss.hp = s.hp ∧
    s.hlrefLoss.js = s.js ∧ s.hlrefLoss.wp = s.wp ∧ ∀ g < 3, (s.grp g).st = .active → (s.hlrefLoss.grp g).st = .train := by
  let lost : State := { s with sys := { s.sys with hlrefOk := false } }
  obtain ⟨told, raised, loss⟩ : ∃ told, RaiseKeeps (lost.flag Reg.FL_STAT F.FL_STAT_HLREF_LOSS) told ∧
      s.hlrefLoss = ((told.startRetrain 0).startRetrain 1).startRetrain 2 := by
    refine ⟨_, (State.raise_keeps _ Ev.HLREF_LOSS 0).trans (State.csrSet_keeps _ F.FL_CSR_CLOCK), ?_⟩
    unfold State.hlrefLoss
    rw [if_neg (by simp [ref])]
    simp only [forEach, List.foldl_cons, List.foldl_nil, lost]
  obtain ⟨hp₀, js₀, wp₀, sys₀⟩ := told.startRetrain_keeps 0
  obtain ⟨hp₁, js₁, wp₁, sys₁⟩ := (told.startRetrain 0).startRetrain_keeps 1
  obtain ⟨hp₂, js₂, wp₂, sys₂⟩ := ((told.startRetrain 0).startRetrain 1).startRetrain_keeps 2
  have groups (g : Nat) : told.grp g = s.grp g := State.grp_of_groups (by rw [raised.hl]; rfl) g
  rw [loss]
  refine ⟨?_, hp₂.trans (hp₁.trans (hp₀.trans raised.hp)), js₂.trans (js₁.trans (js₀.trans raised.js)),
    wp₂.trans (wp₁.trans (wp₀.trans raised.wp)), fun g below active => ?_⟩
  · rw [sys₂, sys₁, sys₀, raised.sys]
    rfl
  · have known : g = 0 ∨ g = 1 ∨ g = 2 := by omega
    rcases known with rfl | rfl | rfl <;> simp [State.startRetrain_grp, groups, active, LinkGroup.retraining]

/-! ## Stopped clocks and the watchdog -/

/-- R458: the access that ends, and its crossing in reset. -/
def State.wdogTaken (s : State) (w : WaitAccess) : State :=
  { s with fl := { s.fl with waits := s.fl.waits.erase w,
                             resetDomains := if s.fl.resetDomains.contains w.dom then s.fl.resetDomains else w.dom :: s.fl.resetDomains } }

theorem State.wdogExpire_single {s : State} {w : WaitAccess} (overdue : s.overdue = some w) (single : w.series = none) :
    s.wdogExpire = ((((((s.wdogTaken w).bump Reg.FL_WDOG_CNT F.FL_WDOG_CNT_VALUE).wrN Reg.FL_WDOG_ADDR w.addr).flag Reg.FL_STAT
      F.FL_STAT_FABRIC_TIMEOUT).raiseWith Ev.FABRIC_TIMEOUT ((eventClass Ev.FABRIC_TIMEOUT).getD 0) 0 w.addr).complete w.master 0 true true) := by
  unfold State.wdogExpire
  rw [overdue]
  simp only [single]
  rfl

theorem State.wdogExpire_spec {s : State} {w : WaitAccess} (overdue : s.overdue = some w) (single : w.series = none) :
    let u := s.wdogExpire
    u.bus = ⟨w.master, 0, true, true⟩ ∧ u.fl.waits = s.fl.waits.erase w ∧ w.dom ∈ u.fl.resetDomains ∧
    u.rdN Reg.FL_WDOG_ADDR = w.addr % 2 ^ 32 ∧ u.dram = s.dram := by
  intro u
  unfold u
  rw [State.wdogExpire_single overdue single]
  generalize flagged : (((s.wdogTaken w).bump Reg.FL_WDOG_CNT F.FL_WDOG_CNT_VALUE).wrN Reg.FL_WDOG_ADDR w.addr).flag Reg.FL_STAT
      F.FL_STAT_FABRIC_TIMEOUT = t
  have raised := t.raiseWith_keeps Ev.FABRIC_TIMEOUT ((eventClass Ev.FABRIC_TIMEOUT).getD 0) 0 w.addr
  have fl : t.fl = (s.wdogTaken w).fl := by
    rw [← flagged, State.flag_fl, State.wrN_fl, State.bump_fl]
  refine ⟨rfl, ?_, ?_, ?_, ?_⟩
  · rw [State.complete_fl, raised.waits, fl]
    rfl
  · rw [State.complete_fl, raised.resetDomains, fl]
    unfold State.wdogTaken
    dsimp only
    split
    · simp_all
    · exact List.mem_cons_self
  · unfold State.rdN
    have kept : ((t.raiseWith Ev.FABRIC_TIMEOUT ((eventClass Ev.FABRIC_TIMEOUT).getD 0) 0 w.addr).complete w.master 0 true true).rd
        Reg.FL_WDOG_ADDR = t.rd Reg.FL_WDOG_ADDR := raised.rd _ (by decide) (by decide) (by decide)
    rw [kept, ← flagged, State.rd_flag_ne _ _ (by decide), State.rd_wrN_self, BitVec.toNat_ofNat]
  · rw [State.complete_dram, raised.dram, ← flagged, State.flag_dram, State.wrN_dram, State.bump_dram]
    rfl

/-- A domain whose clock runs again, and its crossing taken out of reset. -/
def State.clockBack (s : State) (d : Domain) : State := { s with sys := { s.sys with stopped := s.sys.stopped.filter (· ≠ d) } }
def State.uncrossed (s : State) (d : Domain) : State := { s with fl := { s.fl with resetDomains := s.fl.resetDomains.erase d } }

/-- R457: a domain whose clock is back, its crossing out of reset. -/
def State.domainUp (s : State) (d : Domain) : State :=
  if s.fl.resetDomains.contains d then ((s.clockBack d).uncrossed d).xingReset d.block d.relays else s.clockBack d

/-- The accesses that waited for a domain taken from those that wait. -/
def State.unwaited (s : State) (d : Domain) : State :=
  { s with fl := { s.fl with waits := s.fl.waits.filter fun w => w.dom ≠ d } }

theorem State.clockRestart_eq (s : State) (n : Nat) : s.clockRestart n =
    ((s.domainUp (Domain.ofNum n)).fl.waits.filter fun w => w.dom = Domain.ofNum n).foldl (fun s w => s.resumeNow w)
      ((s.domainUp (Domain.ofNum n)).unwaited (Domain.ofNum n)) := rfl

theorem State.domainUp_keeps (s : State) (d : Domain) : d ∉ (s.domainUp d).sys.stopped ∧ (s.domainUp d).fl.waits = s.fl.waits ∧
    (s.domainUp d).fl.resetDomains = s.fl.resetDomains.erase d ∧ (s.domainUp d).dram = s.dram := by
  have gone : d ∉ s.sys.stopped.filter (· ≠ d) := by simp
  unfold State.domainUp
  split
  · obtain ⟨-, -, -, -, dram, -, -, waits, domains, sys⟩ := ((s.clockBack d).uncrossed d).xingReset_keeps d.block d.relays
    exact ⟨by rw [sys]; exact gone, waits, domains, dram⟩
  next outside => exact ⟨gone, rfl, (List.erase_of_not_mem (show d ∉ s.fl.resetDomains by simpa using outside)).symm, rfl⟩

/-- Settles O58: each control, relay, clock and access by the lemma of its rule. -/
theorem clocksAndControls : Obligations.ClocksAndControls := by
  unfold Obligations.ClocksAndControls
  refine ⟨⟨fun s m w takes => exec_ovfClear takes w, fun s m w takes => ⟨_, exec_csrClear takes w, s.csrClear_causes⟩⟩,
    ⟨?merged, ?crosses⟩, ⟨?loss, ?refclk, ?hlref, ?hlrefBack⟩, ?quiet, ?expired, ?restart, ?resumed, ?rope⟩
  case merged =>
    intro s id k t short early u
    have same : u = s.relayOverrun (id / 256) := if_pos early
    rw [same]
    exact ⟨rfl, s.relayOverrun_records (by omega)⟩
  case crosses =>
    intro s id k t free m
    exact ⟨if_neg (Nat.not_lt.2 free), fun n other => AMap.get_set_ne _ _ _ other, AMap.get_set_self _ _ _ _⟩
  case loss =>
    intro s src out mode good
    exact ⟨_, State.next_act out rfl, State.clockLoss_spec mode good⟩
  case refclk => exact fun s out => congrArg Host.Outcome.next (s.actPin_eq_after _ out)
  case hlref =>
    intro s out ref
    exact ⟨_, State.next_act out rfl, State.hlrefLoss_spec ref⟩
  case hlrefBack => exact fun s out => congrArg Host.Outcome.next (s.actPin_eq_after _ out)
  case quiet =>
    intro s out none
    exact State.next_act out (by simp [State.wdogExpire, none])
  case expired =>
    intro s w out overdue single
    exact ⟨_, State.next_act out rfl, State.wdogExpire_spec overdue single⟩
  case restart =>
    intro s d out noneWaits
    obtain ⟨stopped, waits, domains, -⟩ := s.domainUp_keeps (Domain.ofNum d.val)
    refine ⟨(s.domainUp (Domain.ofNum d.val)).unwaited (Domain.ofNum d.val), State.next_act out ?_, stopped, ?_, domains⟩
    · rw [State.clockRestart_eq, List.filter_eq_nil_iff.2 (by simpa [waits] using noneWaits), List.foldl_nil]
    · exact (List.filter_eq_self.2 (by simpa [waits] using noneWaits)).trans waits
  case resumed =>
    intro s d w out one single
    obtain ⟨-, waits, -, dram⟩ := s.domainUp_keeps (Domain.ofNum d.val)
    refine ⟨(s.domainUp (Domain.ofNum d.val)).unwaited (Domain.ofNum d.val), congrArg _ waits, dram, State.next_act out ?_⟩
    rw [State.clockRestart_eq, waits, one, List.foldl_cons, List.foldl_nil]
    simp [State.resumeNow, single]
  case rope =>
    intro s out
    refine ⟨_, State.next_act out rfl, fun still => ?_, fun r there source => ?_⟩
    · unfold State.ropeAdvance
      split
      next r there => exact if_neg (still.resolve_left (by simp [there]))
      next => rfl
    · simp [State.ropeAdvance, there, source]

end Sys2Proof.Machine
end

section
/-! PROOFS of O11: the resets, and VDDIO5 lost and returned. -/

namespace Sys2Proof.Machine

/-! ## Resets by SYS_RST -/

theorem get_sysRst_cold (w : Word) : let d := cmdWord Reg.SYS_RST w [(F.SYS_RST_KEY, 0x5A), (F.SYS_RST_COLD, 1)]
    F.SYS_RST_KEY.get d = 0x5A ∧ F.SYS_RST_COLD.get d = 1 :=
  ⟨get_cmdWord_first (by decide) w 0x5A 1 (by decide) (by decide) (by decide) (by decide) (by decide),
    get_cmdWord_second (by decide) w _ 0x5A 1 (by decide) (by decide)⟩

theorem get_sysRst_warm (w : Word) :
    let d := cmdWord Reg.SYS_RST w [(F.SYS_RST_KEY, 0x5A), (F.SYS_RST_COLD, 0), (F.SYS_RST_WARM, 1)]
    F.SYS_RST_KEY.get d = 0x5A ∧ F.SYS_RST_COLD.get d = 0 ∧ F.SYS_RST_WARM.get d = 1 := by
  refine ⟨?key, ?cold, ?warm⟩
  all_goals rw [cmdWord, get_regMask (by decide)]
  all_goals simp (disch := decide) only [command, List.foldl_cons, List.foldl_nil, BitField.get_put, BitField.get_put_ne]
  all_goals rfl

section
variable {s : State} {m : Master} (takes : s.takes m Reg.SYS_RST) (ref : s.sys.refOk = true)
  (running : ¬(s.mode = .boot ∧ s.bu.bootState = 2)) (w : Word)
include takes ref running

theorem exec_resetCold : exec (.resetCold m w) s = .next (s.wrote (s.afterReset .cold 2) m) := by
  obtain ⟨key, cold⟩ := get_sysRst_cold w
  refine State.next_busWrite takes (by decide) (by decide) ?_
  change s.sysReset (cmdWord Reg.SYS_RST w _) = _
  unfold State.sysReset
  dsimp only
  rw [if_neg (by simp [key, cold, ref]), if_neg (by simpa using running), if_pos cold]

theorem exec_resetWarm : exec (.resetWarm m w) s = .next (s.wrote (s.afterReset .warm 3) m) := by
  obtain ⟨key, cold, warm⟩ := get_sysRst_warm w
  refine State.next_busWrite takes (by decide) (by decide) ?_
  change s.sysReset (cmdWord Reg.SYS_RST w _) = _
  unfold State.sysReset
  dsimp only
  rw [if_neg (by simp [key, cold, warm, ref]), if_neg (by simpa using running), if_neg (by simp [cold])]

end

/-! ## VDDIO5 -/

theorem State.estopHalt_sys (s : State) : s.estopHalt.sys = s.sys := by
  unfold State.estopHalt
  split
  · exact State.foldl_proj (·.sys) (by intros; rfl) _ s
  · rfl

/-- A cut latch leaves whether VDDIO5 is low. -/
theorem State.gateLatch_vddio5Low (s : State) (g : Nat) : (s.gateLatch g).sys.vddio5Low = s.sys.vddio5Low := by
  unfold State.gateLatch
  extract_lets e hp t u v
  have cut : u.sys = s.sys := State.foldl_proj (·.sys) (fun s p => (s.cutPort_sys p (some 4)).1) _ t
  have raised : v.sys.vddio5Low = s.sys.vddio5Low := by
    unfold v
    rw [(State.raiseWith_keeps ..).sys, State.flag_sys, cut]
  split
  · rfl
  · split
    · rwa [State.estopHalt_sys]
    · exact raised

/-- The latches of the first `n` gate inputs set, one after another. -/
theorem State.latchAll_spec (s : State) (n : Nat) : let t := (List.range n).foldl (fun s g => s.gateLatch g) s
    t.sys.vddio5Low = s.sys.vddio5Low ∧ ∀ g < n, t.hp.cut.testBit g = true := by
  induction n with
  | zero => exact ⟨rfl, fun g below => absurd below (Nat.not_lt_zero g)⟩
  | succ n ih =>
    obtain ⟨low, set⟩ := ih
    rw [List.range_succ, List.foldl_append]
    refine ⟨(State.gateLatch_vddio5Low _ n).trans low, fun g below => ?_⟩
    simp only [List.foldl_cons, List.foldl_nil, (State.gateLatch_sets _ n).2, Nat.testBit_or, Nat.testBit_two_pow, Bool.or_eq_true,
      decide_eq_true_eq]
    rcases Nat.lt_succ_iff_lt_or_eq.1 below with earlier | rfl
    · exact .inl (set g earlier)
    · exact .inr rfl

/-- Settles O11: a reset by its cause, and the nine latches one after another. -/
theorem resets : Obligations.Resets := by
  unfold Obligations.Resets
  refine ⟨⟨fun s => rfl, ?pin, fun s => rfl, fun s m w takes ref running => exec_resetCold takes ref running w,
    fun s m w takes ref running => exec_resetWarm takes ref running w⟩, ?loss, fun s out => congrArg Host.Outcome.next (s.actPin_eq_after _ out)⟩
  case pin =>
    intro s ref out
    change Host.Outcome.next (s.powerOnReset true) = _
    simp [State.powerOnReset, ref, out]
  case loss =>
    intro s out
    exact ⟨s.vddio5Loss, congrArg Host.Outcome.next (s.actPin_eq_after _ out), State.latchAll_spec { s with sys := { s.sys with vddio5Low := true } } 9⟩

end Sys2Proof.Machine
end

section
/-! PROOFS of O41 and O42: the position broadcast and MSPI frames. -/

namespace Sys2Proof.Machine

/-- While HL_REFCLK is there, what lanes and Ethernet ports do takes place (R461). -/
theorem State.next_onLanes {s t : State} {f : State → State} (out : s.sys.inReset = false) (ref : s.sys.hlrefOk = true) (effect : f s = t) :
    (Host.Outcome.next (s.act (·.onLanes f)) : Host.Outcome State Fault Refusal) = .next (s.after t) :=
  State.next_act out ((if_pos ref).trans effect)

/-! ## MSPI frames -/

/-- The state as a frame starts: the answer so far is one byte of 0. -/
def State.mspiStart (s : State) : State := { s with hl := { s.hl with mspi := [0] } }

section
variable (s : State) {bs : List Byte} (ans : Bool)

/-- R349: a command byte that is neither WRITE nor READ. -/
theorem State.mspiFrame_unknown (sent : bs ≠ []) (write : leAt bs 0 1 ≠ 2) (read : leAt bs 0 1 ≠ 3) :
    s.mspiFrame bs ans = s.mspiStart.mspiErr F.HL_MSPI_ERR_ABORT := by
  unfold State.mspiFrame
  rw [if_neg (by simpa using sent), if_pos (by simp [write, read])]
  rfl

theorem State.mspiFrame_empty : s.mspiFrame [] ans = s.mspiStart := rfl

theorem State.mspiFrame_head (command : leAt bs 0 1 = 2 ∨ leAt bs 0 1 = 3) (short : bs.length < 6) : s.mspiFrame bs ans = s.mspiStart := by
  unfold State.mspiFrame
  by_cases none : bs.isEmpty = true
  · rw [if_pos none]
    rfl
  · rw [if_neg none, if_neg (by rcases command with c | c <;> simp [c]), if_pos short]
    rfl

/-- A WRITE from its head on. -/
theorem State.mspiFrame_write (command : leAt bs 0 1 = 2) (head : 6 ≤ bs.length) : s.mspiFrame bs ans =
    if bs.length < 6 + 4 * (leAt bs 5 1 + 1) + 1 then s.mspiStart
    else if mspiCrc (bs.take (6 + 4 * (leAt bs 5 1 + 1))) ≠ bs.getD (6 + 4 * (leAt bs 5 1 + 1)) 0 then
      (s.mspiStart.mspiErr F.HL_MSPI_ERR_CRC).mspiAnswer 6
    else if 64 < leAt bs 5 1 + 1 || leAt bs 1 4 % 4 ≠ 0 then s.mspiStart.mspiAnswer 5
    else s.mspiStart.beginSeries none true 6 (leAt bs 1 4) (leAt bs 5 1 + 1) (payloadWords (slice bs 6 (4 * (leAt bs 5 1 + 1)))) := by
  have sent : ¬ bs.isEmpty = true := by
    rintro none
    simp [List.isEmpty_iff.1 none] at head
  unfold State.mspiFrame
  rw [if_neg sent, if_neg (by simp [command]), if_neg (by omega), if_pos command]
  rfl

/-- A READ from its head on. -/
theorem State.mspiFrame_read (command : leAt bs 0 1 = 3) (head : 6 ≤ bs.length) : s.mspiFrame bs ans =
    if 64 < leAt bs 5 1 + 1 || leAt bs 1 4 % 4 ≠ 0 then s.mspiStart.mspiAnswer 5
    else if ans then s.mspiStart.beginSeries none false 6 (leAt bs 1 4) (leAt bs 5 1 + 1) []
    else (s.mspiStart.beginSeries none false 6 (leAt bs 1 4) (leAt bs 5 1 + 1) []).mspiErr F.HL_MSPI_ERR_ABORT := by
  have sent : ¬ bs.isEmpty = true := by
    rintro none
    simp [List.isEmpty_iff.1 none] at head
  unfold State.mspiFrame
  rw [if_neg sent, if_neg (by simp [command]), if_neg (by omega), if_neg (by omega)]
  rfl

end

/-- Settles O42: a frame cut short, a WRITE or a READ from its head on. -/
theorem mspiFrames : Obligations.MspiFrames := by
  unfold Obligations.MspiFrames
  refine ⟨?frame, fun s a readOnly => by simp [State.mspiRefused, readOnly]⟩
  intro s bs ans out n
  refine ⟨s.mspiFrame bs ans, State.next_act out rfl, s.mspiFrame_unknown ans, ?cut, ?crc, ?write, ?read, ?unread, ?refused⟩
  case cut =>
    rintro (rfl | ⟨command, short⟩ | ⟨command, short⟩)
    · exact s.mspiFrame_empty ans
    · exact s.mspiFrame_head ans command short
    · by_cases head : 6 ≤ bs.length
      · rw [s.mspiFrame_write ans command head, if_pos short]
        rfl
      · exact s.mspiFrame_head ans (.inl command) (by omega)
  case crc =>
    intro whole command wrong
    rw [s.mspiFrame_write ans command (by omega), if_neg (by omega), if_pos wrong]
    rfl
  case write =>
    intro whole command right few aligned
    rw [s.mspiFrame_write ans command (by omega), if_neg (by omega), if_neg (not_not.2 right), if_neg (by simp [aligned]; omega)]
    rfl
  case read =>
    intro head command few aligned answered
    rw [s.mspiFrame_read ans command head, if_neg (by simp [aligned]; omega), if_pos answered]
    rfl
  case unread =>
    intro head command few aligned broken
    rw [s.mspiFrame_read ans command head, if_neg (by simp [aligned]; omega), if_neg (by simp [broken])]
    rfl
  case refused =>
    intro head command rule
    rw [s.mspiFrame_read ans command head, if_pos (by simpa [n, Nat.lt_succ_iff] using rule)]
    exact ⟨rfl, rfl⟩

/-! ## The position broadcast -/

/-- A POS on its way down changes nothing but the groups. -/
theorem State.posDown_kept {α : Type} (π : State → α) (kept : ∀ (s : State) (g : Nat) (x : LinkGroup), π (s.setGrp g x) = π s)
    (s : State) (wpos : Nat) (vel : Int) (age : Nat) (ts : List Byte) (q : PosParent) : π (s.posDown wpos vel age ts q) = π s := by
  refine State.foldl_proj π (fun s g => ?_) s.activeDown s
  unfold State.sendOn
  dsimp only
  split
  · rfl
  · exact kept _ _ _

/-- w(t) when a correction starts, and once it is spread (R346). -/
theorem RopePos.at_start (r : RopePos) : r.at r.t0 = r.target - r.c := by simp [RopePos.at]

theorem RopePos.at_spread (r : RopePos) (positive : 0 < r.period) {t : Nat} (spread : r.t0 + r.period ≤ t) :
    r.at t = r.target + r.vel * (t - r.t0 : Nat) / 65536 := by
  have whole : min (t - r.t0) r.period = r.period := by omega
  have all : r.c * (r.period : Int) / r.period = r.c := Int.mul_ediv_cancel _ (by omega)
  unfold RopePos.at
  dsimp only
  rw [whole, all]
  omega

/-- A position held (R347). -/
theorem RopePos.at_held (t0 : Nat) (target : Int) (period t : Nat) : (RopePos.mk t0 target 0 0 period).at t = target := by
  simp [RopePos.at]

theorem State.ropeCorrect_first {s : State} (wpos : Nat) (vel : Int) (age : Nat) (rope : s.wp.src = 2) (first : s.hl.rope = none) :
    s.ropeCorrect wpos vel age =
      ({ s with hl := { s.hl with rope := some ⟨s.now, wpos + vel * (age + s.upLat + 40 : Nat) / 65536, 0, vel, s.posPeriod⟩ } } : State).ropeSet
        (wpos + vel * (age + s.upLat + 40 : Nat) / 65536) := by
  have still : s.ropeAdvance = s := by simp [State.ropeAdvance, first]
  unfold State.ropeCorrect
  rw [if_neg (by simp [rope]), still]
  simp only [first]

theorem State.ropeTimeLost_kept (s : State) : s.ropeTimeLost.wp = s.wp ∧ s.ropeTimeLost.hl = s.hl ∧
    s.ropeTimeLost.fld Reg.HL_STAT F.HL_STAT_POS_LOST = s.fld Reg.HL_STAT F.HL_STAT_POS_LOST := by
  unfold State.ropeTimeLost
  split
  · have raised := State.raise_keeps (({ s.setDom false { s.tn.domA with healthy := false } with
        tn := { (s.setDom false { s.tn.domA with healthy := false }).tn with dom := 2 } } : State).flag Reg.TN_STAT F.TN_STAT_HOLDOVER)
      Ev.TIME_HOLDOVER 0
    refine ⟨raised.wp.trans (State.flag_wp ..), raised.hl.trans (State.flag_hl ..), ?_⟩
    rw [raised.fld _ (by decide) (by decide) (by decide), State.flag, State.setFld, State.fld_wr_ne _ _ _ (by decide)]
    rfl
  · exact ⟨rfl, rfl, rfl⟩

/-- R347: w held where it is. -/
def State.ropeHeld (s : State) : State :=
  { s with hl := { s.hl with rope := s.hl.rope.map fun _ => ⟨s.now, s.wp.pos, 0, 0, s.posPeriod⟩ } }

theorem State.posTimeout_late {s : State} (rope : s.wp.src = 2) (late : s.posOver = true) :
    s.posTimeout = ((s.ropeHeld.flag Reg.HL_STAT F.HL_STAT_POS_LOST).raise Ev.POS_LOST).ropeTimeLost := by
  unfold State.posTimeout
  rw [if_neg (by simp [rope, late])]
  rfl

/-- Settles O41: the samples go down, a POS is taken, and one that stays away holds w. -/
theorem positionBroadcast : Obligations.PositionBroadcast := by
  unfold Obligations.PositionBroadcast
  refine ⟨?sample, ?packet, fun s wpos vel age rope first => State.ropeCorrect_first wpos vel age rope first,
    fun r positive => ⟨r.at_start, fun t spread => r.at_spread positive spread⟩, ?waits, ?lost⟩
  case sample =>
    intro s out
    refine ⟨s.posSample, State.next_act out rfl, ?_, fun summit on => if_pos (Bool.and_eq_true_iff.2 ⟨summit, on⟩)⟩
    unfold State.posSample
    dsimp only
    split
    · exact State.posDown_kept (·.hl.lastPos) (fun _ _ _ => rfl) _ _ _ _ _ _
    · rfl
  case packet =>
    intro s s1 p bs out ref received
    refine State.next_onLanes out ref ?_
    change s.posPacket 0 bs = _
    unfold State.posPacket
    rw [received]
    rfl
  case waits =>
    intro s out early
    refine State.next_act out (if_pos ?_)
    simpa using early
  case lost =>
    intro s out rope late
    obtain ⟨wp, hl, lost⟩ := ((s.ropeHeld.flag Reg.HL_STAT F.HL_STAT_POS_LOST).raise Ev.POS_LOST).ropeTimeLost_kept
    have raised := (s.ropeHeld.flag Reg.HL_STAT F.HL_STAT_POS_LOST).raise_keeps Ev.POS_LOST 0
    refine ⟨_, State.next_act out (State.posTimeout_late rope late), ?_, ?_, fun r held t => ?_⟩
    · rw [wp, raised.wp, State.flag_wp]
      rfl
    · have flagged := s.ropeHeld.isSet_flag Reg.HL_STAT F.HL_STAT_POS_LOST (by decide) (by decide)
      unfold State.isSet at flagged ⊢
      rwa [lost, raised.fld _ (by decide) (by decide) (by decide)]
    · rw [hl, raised.hl, State.flag_hl, Option.mem_def, State.ropeHeld, Option.map_eq_some_iff] at held
      obtain ⟨-, -, rfl⟩ := held
      exact RopePos.at_held _ _ _ _

end Sys2Proof.Machine
end

section
/-! PROOFS of O43: the timebase and its timestamp FIFOs. -/

namespace Sys2Proof.Machine

/-! ## TN_CTRL -/

section
variable {s : State} {m : Master} (takes : s.takes m Reg.TN_CTRL) (w : Word)
include takes

theorem exec_setTime : exec (.setTime m w) s = .next (s.wrote s.setTime m) := by
  obtain ⟨set, tx, rx⟩ := get_cmdWord_bits (a := Reg.TN_CTRL) (f := F.TN_CTRL_SET) (g := F.TN_CTRL_TX_KICK) (h := F.TN_CTRL_RX_KICK)
    (by decide) (by decide) (by decide) w
  refine State.next_busWrite takes (by decide) (by decide) ?_
  change s.writeTn Reg.TN_CTRL (cmdWord Reg.TN_CTRL w _) = _
  simp [State.writeTn, set, tx, rx]

theorem exec_txKick : exec (.txKick m w) s = .next (s.wrote s.txKick m) := by
  obtain ⟨tx, set, rx⟩ := get_cmdWord_bits (a := Reg.TN_CTRL) (f := F.TN_CTRL_TX_KICK) (g := F.TN_CTRL_SET) (h := F.TN_CTRL_RX_KICK)
    (by decide) (by decide) (by decide) w
  refine State.next_busWrite takes (by decide) (by decide) ?_
  change s.writeTn Reg.TN_CTRL (cmdWord Reg.TN_CTRL w _) = _
  simp [State.writeTn, set, tx, rx]

theorem exec_rxKick : exec (.rxKick m w) s = .next (s.wrote s.rxKick m) := by
  obtain ⟨rx, set, tx⟩ := get_cmdWord_bits (a := Reg.TN_CTRL) (f := F.TN_CTRL_RX_KICK) (g := F.TN_CTRL_SET) (h := F.TN_CTRL_TX_KICK)
    (by decide) (by decide) (by decide) w
  refine State.next_busWrite takes (by decide) (by decide) ?_
  change s.writeTn Reg.TN_CTRL (cmdWord Reg.TN_CTRL w _) = _
  simp [State.writeTn, set, tx, rx]

end

/-! ## The timebase -/

/-- The time after a TBCLK cycle that loads nothing, in 2^-32 ns of the second (R359). -/
def State.tbNext (s : State) : Int := (s.tn.ns : Int) * 2 ^ 32 + s.tn.frac + 4 * 2 ^ 32 + s.addend

/-- One second in 2^-32 ns. -/
def tbSecond : Int := 1000000000 * 2 ^ 32

/-- The timebase at a time that is at most a second on. -/
def TnState.at (x : TnState) (f : Int) : TnState :=
  let carry := decide (tbSecond ≤ f)
  let rest := if carry then f - tbSecond else f
  { x with sec := if carry then (x.sec + 1) % 2 ^ 64 else x.sec, ns := (rest / 2 ^ 32).toNat, frac := (rest % 2 ^ 32).toNat }

/-- The value of a timebase in 2^-32 ns. -/
def TnState.value (x : TnState) : Int := ((x.sec : Int) * 1000000000 + x.ns) * 2 ^ 32 + x.frac

/-- A time before the end of the next second is shown exactly. -/
theorem TnState.at_spec (x : TnState) {f : Int} (start : 0 ≤ f) (bound : f < 2 * tbSecond) (sec : x.sec + 1 < 2 ^ 64) :
    (x.at f).value = x.sec * tbSecond + f ∧ (x.at f).ns < 1000000000 ∧ (x.at f).frac < 2 ^ 32 := by
  unfold TnState.at TnState.value tbSecond at *
  by_cases carry : 1000000000 * 2 ^ 32 ≤ f
  · simp only [carry, decide_true, if_true, Nat.mod_eq_of_lt sec]
    omega
  · simp only [carry, decide_false, Bool.false_eq_true, if_false]
    omega

/-- ADDEND is a signed word. -/
theorem State.addend_bounds (s : State) : -2 ^ 31 ≤ s.addend ∧ s.addend < 2 ^ 31 := by
  unfold State.addend toSigned
  split <;> omega

theorem State.tbCycle_load {s : State} {a b : Nat} (mode : s.mode ≠ .print) (load : s.tn.load = some (a, b)) :
    s.tbCycle = { s with tn := { s.tn with sec := a, ns := b, frac := 0, load := none } } := by
  unfold State.tbCycle
  simp only [if_neg mode, load]

/-- A cycle that loads nothing, where no SET stands or PRINT has dropped it. -/
theorem State.tbCycle_tn {s : State} (none : s.tn.load = none ∨ s.mode = .print) :
    s.tbCycle.tn = ({ s.tn with load := Option.none } : TnState).at s.tbNext := by
  unfold State.tbCycle
  by_cases mode : s.mode = .print
  · rw [if_pos mode]
    rfl
  · have load := none.resolve_right mode
    have same : ({ s.tn with load := Option.none } : TnState).at s.tbNext = s.tn.at s.tbNext := by rw [← load]
    rw [same, if_neg mode]
    simp only [load]
    unfold State.tbNext TnState.at tbSecond
    dsimp only
    rw [load]

/-- R359: a cycle advances the timebase by 4 ns and ADDEND. -/
theorem State.tbCycle_advances {s : State} (none : s.tn.load = none ∨ s.mode = .print) (ns : s.tn.ns < 1000000000) (frac : s.tn.frac < 2 ^ 32)
    (start : 0 ≤ s.tbNext) (sec : s.tn.sec + 1 < 2 ^ 64) :
    s.tbCycle.tn.value = s.tn.value + 4 * 2 ^ 32 + s.addend ∧ s.tbCycle.tn.ns < 1000000000 ∧ s.tbCycle.tn.frac < 2 ^ 32 := by
  obtain ⟨low, high⟩ := s.addend_bounds
  have bound : s.tbNext < 2 * tbSecond := by
    unfold State.tbNext tbSecond
    omega
  obtain ⟨value, shown⟩ := TnState.at_spec { s.tn with load := Option.none } start bound sec
  rw [State.tbCycle_tn none]
  refine ⟨value.trans ?_, shown⟩
  unfold TnState.value State.tbNext tbSecond
  dsimp only
  omega

/-! ## Timestamp FIFOs -/

/-- A granted read completes with the word it reads. -/
theorem State.next_busRead {s t : State} {m : Master} {a : Nat} {w : Word} (takes : s.takes m a) (read : s.readWord a = (w, t)) :
    (Host.Outcome.next (s.act (·.busRead m.val a)) : Host.Outcome State Fault Refusal) = .next (s.after (t.complete m.val w false false)) := by
  obtain ⟨out, granted⟩ := takes
  exact State.next_act out (by rw [s.busRead_of_grants m a granted, read])

/-- Three words written beside one another. -/
def State.wrStamp (s : State) (a b c : Nat) (ts : List Byte) : State :=
  ((s.wrN a (leAt ts 0 4)).wrN b (leAt ts 4 4)).wrN c (leAt ts 8 4)

theorem State.rd_wrStamp (s : State) {a b c : Nat} (ts : List Byte) (ab : a ≠ b) (ac : a ≠ c) (bc : b ≠ c) :
    (s.wrStamp a b c ts).rd a = BitVec.ofNat 32 (leAt ts 0 4) ∧ (s.wrStamp a b c ts).rd b = BitVec.ofNat 32 (leAt ts 4 4) ∧
    (s.wrStamp a b c ts).rd c = BitVec.ofNat 32 (leAt ts 8 4) := by
  unfold State.wrStamp
  exact ⟨by rw [State.rd_wrN_ne _ _ ac, State.rd_wrN_ne _ _ ab, State.rd_wrN_self], by rw [State.rd_wrN_ne _ _ bc, State.rd_wrN_self],
    State.rd_wrN_self _ _ _⟩

/-- R370: LOST is read and cleared. -/
def State.capTold (s : State) : State := s.setFld Reg.TN_CAP F.TN_CAP_LOST 0

theorem State.fld_capTold (s : State) : s.capTold.fld Reg.TN_CAP F.TN_CAP_LOST = 0 := s.fld_setFld _ _ 0 (by decide) (by decide)

/-- A capture taken from the FIFO. -/
def State.capTaken (s : State) (ts : List Byte) (rest : List (Nat × List Byte)) : State :=
  ({ s.capTold with tn := { s.capTold.tn with cap := rest } } : State).wrStamp Reg.TN_CAP_TS0 Reg.TN_CAP_TS1 Reg.TN_CAP_TS2 ts

theorem State.readWord_cap (s : State) : s.readWord Reg.TN_CAP = s.capRead := rfl

theorem State.capRead_empty {s : State} (empty : s.tn.cap = []) :
    s.capRead = (BitVec.ofNat 32 (s.fld Reg.TN_CAP F.TN_CAP_LOST * 256), s.capTold) := by
  have empty' : (s.setFld Reg.TN_CAP F.TN_CAP_LOST 0).tn.cap = [] := empty
  unfold State.capRead
  simp only [empty']
  rfl

theorem State.capRead_oldest {s : State} {src : Nat} {ts : List Byte} {rest : List (Nat × List Byte)} (oldest : s.tn.cap = (src, ts) :: rest) :
    s.capRead = (BitVec.ofNat 32 (2 ^ 31 + s.fld Reg.TN_CAP F.TN_CAP_LOST * 256 + src), s.capTaken ts rest) := by
  have oldest' : (s.setFld Reg.TN_CAP F.TN_CAP_LOST 0).tn.cap = (src, ts) :: rest := oldest
  unfold State.capRead
  simp only [oldest']
  rfl

theorem State.fld_capTaken (s : State) (ts : List Byte) (rest : List (Nat × List Byte)) : (s.capTaken ts rest).fld Reg.TN_CAP F.TN_CAP_LOST = 0 := by
  have kept : (s.capTaken ts rest).rd Reg.TN_CAP = s.capTold.rd Reg.TN_CAP := by
    unfold State.capTaken State.wrStamp
    rw [State.rd_wrN_ne _ _ (by decide), State.rd_wrN_ne _ _ (by decide), State.rd_wrN_ne _ _ (by decide)]
    rfl
  exact (congrArg F.TN_CAP_LOST.get kept).trans s.fld_capTold

/-- An egress timestamp taken from the FIFO of its port. -/
def State.txtsTaken (s : State) (k : Nat) (ts : List Byte) (rest : List (Nat × List Byte)) : State :=
  ({ s with tn := { s.tn with txts := s.tn.txts.set k rest } } : State).wrStamp (Reg.TN_Pk_TXTS0 k) (Reg.TN_Pk_TXTS1 k) (Reg.TN_Pk_TXTS2 k) ts

theorem State.readWord_txts (s : State) (k : Fin 2) : s.readWord (Reg.TN_Pk_TXTS k.val) = s.txtsRead k.val := by
  fin_cases k <;> rfl

theorem State.txtsRead_empty {s : State} {k : Nat} (empty : s.tn.txts.getD k [] = []) : s.txtsRead k = (0, s) := by
  unfold State.txtsRead
  rw [empty]

theorem State.txtsRead_oldest {s : State} {k tag : Nat} {ts : List Byte} {rest : List (Nat × List Byte)}
    (oldest : s.tn.txts.getD k [] = (tag, ts) :: rest) : s.txtsRead k = (BitVec.ofNat 32 (2 ^ 31 + tag), s.txtsTaken k ts rest) := by
  unfold State.txtsRead
  rw [oldest]
  rfl

/-- Settles O43: SET and the kicks, a cycle of the timebase, and the two FIFOs, empty or not. -/
theorem timebase : Obligations.Timebase := by
  unfold Obligations.Timebase
  refine ⟨⟨?set, fun s m w takes => ⟨exec_txKick takes w, exec_rxKick takes w⟩, fun s a b mode load => State.tbCycle_load mode load, ?cycle⟩,
    ?cap, ?txts⟩
  case set =>
    intro s m w takes
    refine ⟨s.setTime, exec_setTime takes w, fun refused => ?_, fun mode low => ?_⟩
    · exact if_pos (by simpa using refused)
    · exact if_neg (by simp [mode, low])
  case cycle =>
    intro s none ns frac t v start sec
    exact State.tbCycle_advances none ns frac start sec
  case cap =>
    intro s m takes lost
    cases held : s.tn.cap with
    | nil =>
      refine ⟨s.capTold, lost * 256, State.next_busRead takes (State.capRead_empty held), s.fld_capTold, fun _ => ⟨rfl, rfl⟩, ?_⟩
      rintro src ts rest ⟨⟩
    | cons e rest =>
      obtain ⟨src, ts⟩ := e
      refine ⟨s.capTaken ts rest, 2 ^ 31 + lost * 256 + src, State.next_busRead takes (State.capRead_oldest held), s.fld_capTaken ts rest,
        nofun, ?_⟩
      rintro _ _ _ ⟨⟩
      exact ⟨rfl, rfl, State.rd_wrStamp _ ts (by decide) (by decide) (by decide)⟩
  case txts =>
    intro s m k takes
    cases held : s.tn.txts.getD k.val [] with
    | nil =>
      refine ⟨s, 0, State.next_busRead takes ((s.readWord_txts k).trans (State.txtsRead_empty held)), fun _ => ⟨rfl, rfl⟩, ?_⟩
      rintro tag ts rest ⟨⟩
    | cons e rest =>
      obtain ⟨tag, ts⟩ := e
      refine ⟨s.txtsTaken k.val ts rest, 2 ^ 31 + tag,
        State.next_busRead takes ((s.readWord_txts k).trans (State.txtsRead_oldest held)), nofun, ?_⟩
      rintro _ _ _ ⟨⟩
      obtain ⟨first, -, third⟩ := State.rd_wrStamp ({ s with tn := { s.tn with txts := s.tn.txts.set k.val rest } } : State)
        (a := Reg.TN_Pk_TXTS0 k.val) (b := Reg.TN_Pk_TXTS1 k.val) (c := Reg.TN_Pk_TXTS2 k.val) ts
        (by unfold Reg.TN_Pk_TXTS0 Reg.TN_Pk_TXTS1; omega) (by unfold Reg.TN_Pk_TXTS0 Reg.TN_Pk_TXTS2; omega)
        (by unfold Reg.TN_Pk_TXTS1 Reg.TN_Pk_TXTS2; omega)
      exact ⟨rfl, rfl, first, third⟩

end Sys2Proof.Machine
end

section
/-! PROOFS of O44: offset writes, the servo, the health of the time domains and the slew of BIAS. -/

namespace Sys2Proof.Machine

/-! ## What the relays out of TBCLK leave -/

theorem State.relayOverrun_tn (s : State) (blk : Nat) : (s.relayOverrun blk).tn = s.tn := by
  unfold State.relayOverrun
  exact (State.raiseWith_keeps _ _ _ _ _).tn

/-- A pulse relayed, whether merged or not, leaves the time unit. -/
theorem State.relayRaise_tn (s : State) (id k t : Nat) : (s.relayRaise id k t).tn = s.tn := by
  unfold State.relayRaise
  dsimp only
  split
  · exact s.relayOverrun_tn _
  · exact (State.raise_keeps _ _ _).tn

/-- A condition flagged in TN_STAT and raised as an event. -/
def State.tnEvent (s : State) (f : BitField) (id : Nat) : State := (s.flag Reg.TN_STAT f).raise id

theorem State.tnEvent_tn (s : State) (f : BitField) (id : Nat) : (s.tnEvent f id).tn = s.tn :=
  (State.raise_keeps _ _ _).tn

theorem State.isSet_tnEvent (s : State) {f : BitField} (id : Nat) (one : f.lo = f.hi) (inWord : f.hi < 32) :
    (s.tnEvent f id).isSet Reg.TN_STAT f = true := by
  have flagged := s.isSet_flag Reg.TN_STAT f one inWord
  unfold State.isSet at flagged ⊢
  rwa [State.tnEvent, ((s.flag Reg.TN_STAT f).raise_keeps id 0).fld f (by decide) (by decide) (by decide)]

theorem State.rd_tnEvent (s : State) (f : BitField) (id : Nat) {a : Nat} (stat : a ≠ Reg.TN_STAT) (fl : a / 0x10000 ≠ 0x11) :
    (s.tnEvent f id).rd a = s.rd a := by
  rw [State.tnEvent, ((s.flag Reg.TN_STAT f).raise_keeps id 0).rd a, State.rd_flag_ne _ _ stat] <;> (rintro rfl; exact fl rfl)

/-! ## The servo -/

/-- INTEG after an offset: held within MAX_PPB. -/
def State.servoInteg (s : State) (x : Int) : Int :=
  clamp (-(s.maxPpb * 4096000)) (s.maxPpb * 4096000) (s.tn.integ + s.fld Reg.TN_SERVO_GAIN F.TN_SERVO_GAIN_KI * x)

/-- R365: an offset that makes no step moves the frequency alone. -/
theorem State.servo_tn_of_no_step (s : State) (o : Int) (no : s.stepAllowed = false) :
    (s.servo o).tn = { s.tn with xPrev := o - s.tn.bias, ran := true, integ := s.servoInteg (o - s.tn.bias) } := by
  have no' : ({ s with tn := { s.tn with xPrev := o - s.tn.bias, ran := true } } : State).stepAllowed = false := no
  unfold State.servo
  simp only [no', Bool.false_and, Bool.false_eq_true, if_false]
  split
  · exact (State.raise_keeps _ _ _).tn
  · rfl

theorem State.stepAllowed_of_print {s : State} (print : s.mode = .print) : s.stepAllowed = false := by
  simp [State.stepAllowed, print]

theorem clamp_bounds (m x : Int) (nonneg : 0 ≤ m) : clamp (-m) m x ≤ m ∧ -m ≤ clamp (-m) m x := by
  unfold clamp
  omega

/-- OFFSET_WRITE with the domains of this controller in force (R365, R366). -/
theorem State.offsetWrite_of_own {s : State} (b : Bool) (w : Word) (own : s.isSet Reg.TN_CFG F.TN_CFG_TSRC = false) :
    let a := if b then Reg.TN_OFS_B else Reg.TN_OFS_A
    let o : Int := toSigned 31 (F.TN_OFS_A_OFS.get w) * 125
    let q := decide (F.TN_OFS_A_QUAL.get w = 1)
    let t := ((s.wr a w).setDom b ((s.timeDom b).write o q s.now)).steer
    s.offsetWrite b w = if q = true ∧ t.tn.dom = b2n b then t.servo o else t := by
  intro a o q t
  have own' : (s.wr a w).isSet Reg.TN_CFG F.TN_CFG_TSRC = false := by
    rw [← own, State.isSet, State.fld_wr_ne _ _ _ (by unfold a; cases b <;> decide)]
    rfl
  have dom : (s.wr a w).timeDom b = s.timeDom b := rfl
  unfold State.offsetWrite
  simp only [a, o, q, t, own', dom, Bool.false_eq_true, if_false, Bool.and_eq_true, decide_eq_true_eq]
  rfl

/-- OFFSET_WRITE is a write of the register of its domain. -/
theorem exec_offsetWrite {s : State} {m : Master} {b : Bool} (w : Word) (takes : s.takes m (if b then Reg.TN_OFS_B else Reg.TN_OFS_A)) :
    exec (.offsetWrite m b w) s =
      .next (s.wrote (s.offsetWrite b (cmdWord (if b then Reg.TN_OFS_B else Reg.TN_OFS_A) w [])) m) := by
  cases b <;> exact State.next_busWrite takes (by decide) (by decide) rfl

/-! ## Domains -/

/-- The steering domain goes over to another one (R366, R367). -/
theorem State.steer_to_b {s : State} (dom : s.tn.dom = 0) (a : s.tn.domA.healthy = false) (b : s.tn.domB.healthy = true) :
    s.steer = (s.steerTo 1 s.tn.domB.ofs true).tnEvent F.TN_STAT_SWITCH Ev.DOMAIN_SWITCH := by
  simp [State.steer, dom, a, b, State.tnEvent]

theorem State.steer_to_a {s : State} (dom : s.tn.dom = 1) (a : s.tn.domA.healthy = true) (b : s.tn.domB.healthy = false) :
    s.steer = (s.steerTo 0 s.tn.domA.ofs true).tnEvent F.TN_STAT_SWITCH Ev.DOMAIN_SWITCH := by
  simp [State.steer, dom, a, b, State.tnEvent]

/-- Without a healthy domain the timebase holds over (R366). -/
theorem State.steer_holdover {s : State} (dom : s.tn.dom ≠ 2) (a : s.tn.domA.healthy = false) (b : s.tn.domB.healthy = false) :
    s.steer = ({ s with tn := { s.tn with dom := 2 } } : State).tnEvent F.TN_STAT_HOLDOVER Ev.TIME_HOLDOVER := by
  simp [State.steer, dom, a, b, State.tnEvent]

/-- R367: in PRINT the input of the servo stands over a change of domain. -/
theorem State.steerTo_input {s : State} (print : s.mode = .print) (d : Nat) (o : Int) : o - (s.steerTo d o true).tn.bias = s.tn.xPrev := by
  simp [State.steerTo, State.stepAllowed_of_print print]

/-- The health of a domain lost. -/
def State.domLost (s : State) (b : Bool) : State := s.setDom b { s.timeDom b with healthy := false }

theorem State.healthTimeout_of_over {s : State} {b : Bool} (healthy : (s.timeDom b).healthy = true) (late : s.healthOver b = true) :
    s.healthTimeout b = (s.domLost b).steer := by
  simp [State.healthTimeout, healthy, late, State.domLost]

theorem State.healthTimeout_of_kept {s : State} {b : Bool} (kept : (s.timeDom b).healthy = false ∨ s.healthOver b = false) :
    s.healthTimeout b = s := by
  rcases kept with kept | kept <;> simp [State.healthTimeout, kept]

/-- R366: A lost while it steers: B takes over where it is healthy, and the timebase holds over otherwise. -/
theorem State.healthTimeout_a {s : State} (dom : s.tn.dom = 0) (healthy : s.tn.domA.healthy = true) (late : s.healthOver false = true) :
    let u := s.healthTimeout false
    u.tn.domA.healthy = false ∧
    (s.tn.domB.healthy = true → u.tn.dom = 1 ∧ u.isSet Reg.TN_STAT F.TN_STAT_SWITCH = true ∧
      (s.mode = .print → s.tn.domB.ofs - u.tn.bias = s.tn.xPrev)) ∧
    (s.tn.domB.healthy = false → u.tn.dom = 2 ∧ u.isSet Reg.TN_STAT F.TN_STAT_HOLDOVER = true ∧
      u.rd Reg.TN_ADDEND = s.rd Reg.TN_ADDEND) := by
  rw [State.healthTimeout_of_over (b := false) healthy late]
  cases b : s.tn.domB.healthy with
  | true =>
    rw [State.steer_to_b (s := s.domLost false) dom rfl b]
    refine ⟨by rw [State.tnEvent_tn]; rfl, fun _ => ⟨by rw [State.tnEvent_tn]; rfl, State.isSet_tnEvent _ _ (by decide) (by decide), ?_⟩,
      nofun⟩
    intro print
    rw [State.tnEvent_tn]
    exact State.steerTo_input (s := s.domLost false) print 1 _
  | false =>
    rw [State.steer_holdover (s := s.domLost false) (by rw [show (s.domLost false).tn.dom = s.tn.dom from rfl, dom]; decide) rfl b]
    refine ⟨by rw [State.tnEvent_tn]; rfl, nofun, fun _ => ⟨by rw [State.tnEvent_tn], State.isSet_tnEvent _ _ (by decide) (by decide), ?_⟩⟩
    exact State.rd_tnEvent _ _ _ (by decide) (by decide)

/-- R366: B lost while it steers. -/
theorem State.healthTimeout_b {s : State} (dom : s.tn.dom = 1) (healthy : s.tn.domB.healthy = true) (late : s.healthOver true = true) :
    (s.healthTimeout true).tn.domB.healthy = false ∧ (s.healthTimeout true).tn.dom = if s.tn.domA.healthy then 0 else 2 := by
  rw [State.healthTimeout_of_over (b := true) healthy late]
  cases a : s.tn.domA.healthy with
  | true =>
    rw [State.steer_to_a (s := s.domLost true) dom a rfl, State.tnEvent_tn]
    exact ⟨rfl, rfl⟩
  | false =>
    rw [State.steer_holdover (s := s.domLost true) (by rw [show (s.domLost true).tn.dom = s.tn.dom from rfl, dom]; decide) a rfl,
      State.tnEvent_tn]
    exact ⟨rfl, rfl⟩

theorem State.domainRevert_of_kept {s : State} (kept : s.tn.dom ≠ 1 ∨ s.tn.domA.healthy = false ∨ s.revertOver = false) :
    s.domainRevert = s := by
  rcases kept with kept | kept | kept <;> simp [State.domainRevert, kept]

/-- R366: A takes steering back. -/
theorem State.domainRevert_tn {s : State} (dom : s.tn.dom = 1) (healthy : s.tn.domA.healthy = true) (held : s.revertOver = true) :
    s.domainRevert.tn = (s.steerTo 0 s.tn.domA.ofs true).tn := by
  simp only [State.domainRevert, dom, healthy, held, decide_true, Bool.and_self, if_true, State.relayRaise_tn]
  rfl

/-- What BIAS moves by in a millisecond (R367). -/
def State.slewStep (s : State) : Int := 16 * max 1 (min 10000 (s.fld Reg.TN_DOMAIN_CFG F.TN_DOMAIN_CFG_SLEW))

theorem State.biasStep_bias (s : State) : s.biasStep.tn.bias =
    if s.tn.bias.natAbs ≤ s.slewStep.natAbs then 0 else if 0 < s.tn.bias then s.tn.bias - s.slewStep else s.tn.bias + s.slewStep := rfl

theorem State.slewStep_pos (s : State) : 0 < s.slewStep := by
  unfold State.slewStep
  omega

/-- Settles O44: the servo's step and limits, and each change of the steering domain. -/
theorem servo : Obligations.Servo := by
  unfold Obligations.Servo
  refine ⟨⟨?write, ?print, ?limits⟩, ?kept, ?lostA, ?lostB, ?stays, ?revert, ?slew⟩
  case write =>
    intro s m b w takes own
    exact (exec_offsetWrite w takes).trans (by rw [State.offsetWrite_of_own b _ own])
  case print =>
    intro s o print t
    rw [show t.tn = _ from State.servo_tn_of_no_step s o (State.stepAllowed_of_print print)]
    exact ⟨rfl, rfl, rfl, rfl⟩
  case limits =>
    intro s o no
    rw [State.servo_tn_of_no_step s o no]
    exact clamp_bounds _ _ (by omega)
  case kept => exact fun s b out kept => State.next_act out (State.healthTimeout_of_kept kept)
  case lostA => exact fun s out dom healthy late => ⟨_, State.next_act out rfl, State.healthTimeout_a dom healthy late⟩
  case lostB => exact fun s out dom healthy late => ⟨_, State.next_act out rfl, State.healthTimeout_b dom healthy late⟩
  case stays => exact fun s out kept => State.next_act out (State.domainRevert_of_kept kept)
  case revert =>
    refine fun s out dom healthy held => ⟨_, State.next_act out rfl, ?_, fun print => ?_⟩
    · rw [State.domainRevert_tn dom healthy held]
      rfl
    · rw [State.domainRevert_tn dom healthy held]
      exact State.steerTo_input print 0 _
  case slew =>
    intro s out d
    have pos := s.slewStep_pos
    refine ⟨s.biasStep, State.next_act out rfl, fun small => ?_, fun up => ?_, fun down => ?_⟩ <;> rw [State.biasStep_bias]
    · exact if_pos small
    · change s.slewStep < s.tn.bias at up
      rw [if_neg (by omega), if_pos (by omega)]
      rfl
    · change s.tn.bias < -s.slewStep at down
      rw [if_neg (by omega), if_neg (by omega)]
      rfl

end Sys2Proof.Machine
end

section
/-! PROOFS of O45: Ethernet frames received and sent, the PRP trailer and its duplicate table, and the links. -/

namespace Sys2Proof.Machine

/-! ## Byte strings put together -/

/-- A slice that lies in the first part of a byte string. -/
theorem slice_append_left {xs ys : List Byte} {i n : Nat} (inside : i + n ≤ xs.length) : slice (xs ++ ys) i n = slice xs i n := by
  unfold slice
  rw [List.drop_append_of_le_length (by omega), List.take_append_of_le_length (by rw [List.length_drop]; omega)]

/-- The part of a byte string behind its first. -/
theorem slice_append_part {xs ys zs : List Byte} {i n : Nat} (first : xs.length = i) (part : ys.length = n) :
    slice (xs ++ (ys ++ zs)) i n = ys := by
  unfold slice
  dsimp only
  rw [List.drop_left' first, List.take_left' part, part, Nat.sub_self, List.replicate_zero, List.append_nil]

/-! ## The trailer -/

theorem length_padFrame60 (fr : List Byte) : (padFrame60 fr).length = max 60 fr.length := by
  unfold padFrame60
  rw [List.length_append, List.length_replicate]
  omega

/-- The word of a trailer that holds LanId and LSDU size. -/
def lanWord (lan size : Nat) : Nat := lan * 4096 + size % 4096

/-- The six bytes of a trailer (R357). -/
def prpTail (seq lan size : Nat) : List Byte := beBytes 2 seq ++ beBytes 2 (lanWord lan size) ++ [0x88, 0xFB]

theorem prpFrame_eq (seq k : Nat) (fr : List Byte) :
    prpFrame seq k fr = padFrame60 fr ++ prpTail seq (0xA + k) (lsduSize ((padFrame60 fr).length + 6) (hasVlan (padFrame60 fr))) := by
  simp only [prpFrame, prpTail, lanWord, List.append_assoc]

theorem length_prpTail (seq lan size : Nat) : (prpTail seq lan size).length = 6 := rfl

/-- What is read from the six bytes of a trailer. -/
theorem prpTail_reads {seq lan : Nat} (size : Nat) (seq16 : seq < 65536) (lan4 : lan < 16) :
    beNat (slice (prpTail seq lan size) 0 2) = seq ∧ beNat (slice (prpTail seq lan size) 2 1) / 16 = lan ∧
    beNat (slice (prpTail seq lan size) 2 2) % 4096 = size % 4096 ∧ slice (prpTail seq lan size) 4 2 = [0x88, 0xFB] := by
  have number : beNat [BitVec.ofNat 8 (seq / 256), BitVec.ofNat 8 seq] = seq := by
    simp only [beNat, List.foldl_cons, List.foldl_nil, BitVec.toNat_ofNat]
    omega
  have byte : beNat [BitVec.ofNat 8 (lanWord lan size / 256)] / 16 = lan := by
    simp only [beNat, lanWord, List.foldl_cons, List.foldl_nil, BitVec.toNat_ofNat]
    omega
  have word : beNat [BitVec.ofNat 8 (lanWord lan size / 256), BitVec.ofNat 8 (lanWord lan size)] % 4096 = size % 4096 := by
    simp only [beNat, lanWord, List.foldl_cons, List.foldl_nil, BitVec.toNat_ofNat]
    omega
  exact ⟨number, byte, word, rfl⟩

/-- R357, R358: the trailer a copy goes out with is the one its receiver reads. -/
theorem prpTrailer_prpFrame {seq k : Nat} (fr : List Byte) (lan : k < 2) (seq16 : seq < 65536) :
    prpTrailer (prpFrame seq k fr) = some (seq, 0xA + k) := by
  have padded := length_padFrame60 fr
  generalize whole : padFrame60 fr = f at padded
  have long : 60 ≤ f.length := by omega
  rw [prpFrame_eq, whole]
  generalize size : lsduSize (f.length + 6) (hasVlan f) = m
  obtain ⟨number, lanId, size', code⟩ := prpTail_reads (lan := 0xA + k) m seq16 (by omega)
  have length : (f ++ prpTail seq (0xA + k) m).length = f.length + 6 := List.length_append
  have last : slice (f ++ prpTail seq (0xA + k) m) f.length 6 = prpTail seq (0xA + k) m := by
    have := slice_append_part (zs := []) (rfl : f.length = f.length) (length_prpTail seq (0xA + k) m)
    rwa [List.append_nil] at this
  have vlan : hasVlan (f ++ prpTail seq (0xA + k) m) = hasVlan f := by
    unfold hasVlan
    rw [slice_append_left (by omega)]
  have lans : 0xA + k = 0xA ∨ 0xA + k = 0xB := by omega
  unfold prpTrailer
  simp only [length, Nat.add_sub_cancel, last, vlan, size, number, lanId, size', code]
  rw [if_pos]
  simp only [Bool.and_eq_true, Bool.or_eq_true, decide_eq_true_eq]
  exact ⟨⟨⟨by omega, trivial⟩, lans⟩, trivial⟩

theorem take_prpFrame (seq k : Nat) (fr : List Byte) : (prpFrame seq k fr).take fr.length = fr := by
  rw [prpFrame_eq, padFrame60, List.append_assoc]
  exact List.take_left

/-! ## The duplicate table -/

/-- A source's entry takes the next SeqNr, or marks one it has passed, and keeps its address. -/
theorem DupEnt.check_mac {d d' : DupEnt} {seq now : Nat} (taken : d.check seq now = some d') : d'.mac = d.mac := by
  unfold DupEnt.check at taken
  dsimp only at taken
  split at taken
  · cases taken
  · split at taken
    · cases taken
      rfl
    · split at taken
      · cases taken
        rfl
      · split at taken
        · cases taken
        · cases taken
          rfl

/-- The highest SeqNr of an entry is a duplicate. -/
theorem DupEnt.check_high {d : DupEnt} (now : Nat) : d.check d.high now = none :=
  if_pos (by rw [Nat.add_sub_cancel_left])

/-- R358: a SeqNr in the window of 64, once taken, is a duplicate. -/
theorem DupEnt.check_again {d d' : DupEnt} {seq now : Nat}
    (near : (seq + 65536 - d.high) % 65536 < 32768 ∨ 65472 ≤ (seq + 65536 - d.high) % 65536) (taken : d.check seq now = some d') :
    d'.check seq now = none := by
  unfold DupEnt.check at taken
  dsimp only at taken
  split at taken
  · cases taken
  next moved =>
    split at taken
    · cases taken
      exact DupEnt.check_high now
    next behind =>
      split at taken
      next far => omega
      next inside =>
        split at taken
        · cases taken
        · cases taken
          unfold DupEnt.check
          dsimp only
          rw [if_neg moved, if_neg behind, if_neg inside, if_pos]
          simp

/-- The entries of other sources stand when one is replaced. -/
theorem find?_replaced (tab : List DupEnt) {mac : Nat} {d' : DupEnt} (own : d'.mac = mac) :
    (tab.map fun x => if x.mac = mac then d' else x).find? (fun x => x.mac = mac) =
      (tab.find? fun x => x.mac = mac).map fun x => if x.mac = mac then d' else x := by
  rw [List.find?_map]
  congr 2
  funext x
  simp only [Function.comp]
  split <;> simp [*]

/-- A source without an entry gets one as the last of the table. -/
theorem dupCheck_new {tab tab' : List DupEnt} {mac seq now : Nat} (unknown : (tab.find? fun d => d.mac = mac) = none)
    (taken : dupCheck tab mac seq now = some tab') : ∃ rest, tab' = rest ++ [⟨mac, seq, 0, now⟩] ∧ rest ⊆ tab := by
  unfold dupCheck at taken
  simp only [unknown] at taken
  split at taken
  · cases taken
    exact ⟨tab, rfl, fun _ => id⟩
  · split at taken
    · cases taken
      exact ⟨_, rfl, fun _ => List.mem_of_mem_erase⟩
    · cases taken
      exact ⟨tab, rfl, fun _ => id⟩

/-- R358: a frame taken into the table is a duplicate from then on. -/
theorem dupCheck_again {tab tab' : List DupEnt} {mac seq now : Nat}
    (near : ∀ d ∈ tab, d.mac = mac → (seq + 65536 - d.high) % 65536 < 32768 ∨ 65472 ≤ (seq + 65536 - d.high) % 65536)
    (taken : dupCheck tab mac seq now = some tab') : dupCheck tab' mac seq now = none := by
  cases found : tab.find? fun d => d.mac = mac with
  | some d =>
    have own : d.mac = mac := by simpa using List.find?_some found
    unfold dupCheck at taken
    simp only [found, Option.map_eq_some_iff] at taken
    obtain ⟨d', check, rfl⟩ := taken
    have again := DupEnt.check_again (near d (List.mem_of_find?_eq_some found) own) check
    unfold dupCheck
    simp only [find?_replaced tab ((DupEnt.check_mac check).trans own), found, Option.map_some, own, if_true, again, Option.map_none]
  | none =>
    obtain ⟨rest, rfl, others⟩ := dupCheck_new found taken
    have unknown : (rest.find? fun d => d.mac = mac) = none :=
      List.find?_eq_none.2 fun d mem => List.find?_eq_none.1 found d (others mem)
    have high := DupEnt.check_high (d := ⟨mac, seq, 0, now⟩) now
    unfold dupCheck
    simp only [List.find?_append, unknown, Option.none_or, List.find?_singleton, decide_true, if_true, high, Option.map_none]

/-- When the entry used longest ago was used. -/
def oldestUse (tab : List DupEnt) (now : Nat) : Nat := tab.foldl (fun m d => min m d.last) now

theorem oldestUse_spec (tab : List DupEnt) (now : Nat) : oldestUse tab now ≤ now ∧ (∀ d ∈ tab, oldestUse tab now ≤ d.last) ∧
    (oldestUse tab now = now ∨ ∃ d ∈ tab, d.last = oldestUse tab now) := by
  induction tab generalizing now with
  | nil => exact ⟨le_rfl, nofun, .inl rfl⟩
  | cons d tab ih =>
    obtain ⟨below, least, reached⟩ := ih (min now d.last)
    change oldestUse (d :: tab) now ≤ _ at below
    refine ⟨below.trans (min_le_left _ _), ?_, ?_⟩
    · rintro x (_ | ⟨_, mem⟩)
      · exact below.trans (min_le_right _ _)
      · exact least x mem
    · obtain same | ⟨x, mem, same⟩ := reached
      · rcases min_choice now d.last with now' | last'
        · exact .inl (same.trans now')
        · exact .inr ⟨d, List.mem_cons_self, (same.trans last').symm⟩
      · exact .inr ⟨x, List.mem_cons_of_mem _ mem, same⟩

/-- A table with entries of the past has one that was used longest ago. -/
theorem oldestUse_mem {tab : List DupEnt} {now : Nat} (some' : tab ≠ []) (past : ∀ d ∈ tab, d.last ≤ now) :
    ∃ d ∈ tab, d.last = oldestUse tab now := by
  obtain ⟨-, least, same | found⟩ := oldestUse_spec tab now
  · obtain ⟨d, mem⟩ := List.exists_mem_of_ne_nil tab some'
    exact ⟨d, mem, le_antisymm ((past d mem).trans same.ge) (least d mem)⟩
  · exact found

/-- R358: the table holds at most 128 sources. -/
theorem length_dupCheck {tab tab' : List DupEnt} {mac seq now : Nat} (bound : tab.length ≤ 128) (past : ∀ d ∈ tab, d.last ≤ now)
    (taken : dupCheck tab mac seq now = some tab') : tab'.length ≤ 128 := by
  unfold dupCheck at taken
  split at taken
  · simp only [Option.map_eq_some_iff] at taken
    obtain ⟨d', -, rfl⟩ := taken
    rwa [List.length_map]
  · dsimp only at taken
    split at taken
    next room =>
      cases taken
      rw [List.length_append, List.length_singleton]
      omega
    next full =>
      obtain ⟨d, mem, oldest⟩ := oldestUse_mem (List.ne_nil_of_length_pos (l := tab) (by omega)) past
      split at taken
      next x found =>
        cases taken
        rw [List.length_append, List.length_erase_of_mem (List.mem_of_find?_eq_some found), List.length_singleton]
        omega
      next missing => exact absurd oldest (by simpa [oldestUse] using List.find?_eq_none.1 missing d mem)

/-! ## Frames received -/

theorem State.frameIn_refused {s : State} {k : Nat} {fr : List Byte} {ok : Bool}
    (bad : ok = false ∨ fr.length < 60 ∨ 1524 < fr.length ∨ s.isSet (Reg.TN_Pk_CFG k) F.TN_Pk_CFG_EN = false ∨
      s.macAccepts (fr.take 6) = false) : s.frameIn k fr ok = s := by
  unfold State.frameIn
  dsimp only
  rw [if_pos]
  rcases bad with bad | bad | bad | bad | bad <;> simp [bad]

/-- A frame for an enabled port, of a legal length, with a good FCS, and no flow control (R353). -/
structure State.FrameTaken (s : State) (k : Nat) (fr : List Byte) : Prop where
  min : 60 ≤ fr.length
  max : fr.length ≤ 1524
  enabled : s.isSet (Reg.TN_Pk_CFG k) F.TN_Pk_CFG_EN = true
  address : s.macAccepts (fr.take 6) = true
  type : slice fr 12 2 ≠ [0x88, 0x08]

section
variable {s : State} {k : Nat} {fr : List Byte} (taken : s.FrameTaken k fr)
include taken

theorem State.FrameTaken.passes : ¬(!s.isSet (Reg.TN_Pk_CFG k) F.TN_Pk_CFG_EN || !true || fr.length < 60 || 1524 < fr.length ||
    !s.macAccepts (fr.take 6) || slice fr 12 2 = [0x88, 0x08]) = true := by
  obtain ⟨min, max, enabled, address, type⟩ := taken
  have type' : ¬slice fr 12 2 = [136#8, 8#8] := type
  simp [enabled, address, type', Nat.not_lt.2 min, Nat.not_lt.2 max]

theorem State.frameIn_plain (plain : fr.take 6 = [0x01, 0x15, 0x4E, 0, 0x01, 0] ∨ prpTrailer fr = none) (short : fr.length ≤ 1518) :
    s.frameIn k fr true = s.rxPlace k false fr (s.ingress k) := by
  have none' : (if decide (fr.take 6 = [0x01, 0x15, 0x4E, 0, 0x01, 0]) then none else prpTrailer fr) = none := by
    rcases plain with plain | plain <;> simp [plain]
  unfold State.frameIn
  dsimp only
  rw [if_neg taken.passes, none']
  exact if_neg (by omega)

variable {seq lan : Nat} (single : fr.take 6 ≠ [0x01, 0x15, 0x4E, 0, 0x01, 0]) (trailer : prpTrailer fr = some (seq, lan))
include single trailer

theorem State.frameIn_duplicate (dup : dupCheck s.tn.dup (beNat (slice fr 6 6)) seq s.now = none) :
    s.frameIn k fr true = s.bump (Reg.TN_Pk_PRP k) F.TN_Pk_PRP_DUP := by
  unfold State.frameIn
  dsimp only
  rw [if_neg taken.passes, if_neg (by simpa using single), trailer]
  simp only [dup]

theorem State.frameIn_first {tab : List DupEnt} (first : dupCheck s.tn.dup (beNat (slice fr 6 6)) seq s.now = some tab) (own : lan = 0xA + k) :
    s.frameIn k fr true =
      ({ s with tn := { s.tn with dup := tab } } : State).rxPlace k true (fr.take (fr.length - 6)) (s.ingress k) := by
  unfold State.frameIn
  dsimp only
  rw [if_neg taken.passes, if_neg (by simpa using single), trailer]
  simp only [first, if_pos own]

end

/-! ## Frames sent -/

/-- Without entries of the ring to send, the frame of an AUD record is next. -/
theorem State.frameOut_of_idle {s : State} (idle : s.tn.txRun = false) : s.frameOut =
    match s.tn.audq with
    | fr :: rest => ({ s with tn := { s.tn with audq := rest } } : State).sendPrp fr none
    | [] => s := by
  unfold State.frameOut
  simp only [idle, Bool.not_false, Bool.or_true, if_true, Bool.false_and, Bool.false_eq_true, if_false, List.find?_nil] <;> rfl

/-- R357: the supervision frame of this controller. -/
def State.supFrame (s : State) : List Byte :=
  [0x01, 0x15, 0x4E, 0, 0x01, 0] ++ (s.mac ++ ([0x88, 0xFB] ++ beBytes 2 1 ++ beBytes 2 s.tn.supSeq ++ [20, 6] ++ s.mac ++ [0, 0]))

theorem State.length_mac (s : State) : s.mac.length = 6 := rfl

theorem State.supervision_of_life {s : State} (life : s.fld Reg.TN_PRP_CFG F.TN_PRP_CFG_LIFE_MS ≠ 0) :
    s.supervision = ({ s with tn := { s.tn with supSeq := (s.tn.supSeq + 1) % 65536 } } : State).sendPrp s.supFrame none := by
  unfold State.supervision State.supFrame
  rw [if_neg life]
  simp only [List.append_assoc]

/-- A frame sent with its trailer starts with its own addresses. -/
theorem State.supFrame_addresses (s : State) (seq k : Nat) :
    (prpFrame seq k s.supFrame).take 6 = [0x01, 0x15, 0x4E, 0, 0x01, 0] ∧ slice (prpFrame seq k s.supFrame) 6 6 = s.mac := by
  rw [prpFrame_eq, padFrame60, State.supFrame]
  simp only [List.append_assoc]
  exact ⟨List.take_left' rfl, slice_append_part rfl s.length_mac⟩

/-! ## Links -/

/-- The link of a port taken down in its status (R372). -/
def State.ethDown (s : State) (k : Nat) : State :=
  (s.setFld (Reg.TN_Pk_STAT k) F.TN_Pk_STAT_LINK 0).setFld (Reg.TN_Pk_STAT k) F.TN_Pk_STAT_AN_DONE 0

/-- The loss of a link in use. -/
def State.ethLost (s : State) (k : Nat) : State :=
  ((s.flag (Reg.TN_Pk_STAT k) F.TN_Pk_STAT_LINK_LOST).flag Reg.TN_STAT F.TN_STAT_ETH_LINK).raise Ev.ETH_LINK

theorem State.linkChange_down (s : State) (k : Nat) : s.linkChange k false =
    if s.isSet (Reg.TN_Pk_STAT k) F.TN_Pk_STAT_LINK then (s.ethDown k).ethLost k else s.ethDown k := rfl

theorem State.isSet_ethDown (s : State) (k : Fin 2) : (s.ethDown k.val).isSet (Reg.TN_Pk_STAT k.val) F.TN_Pk_STAT_LINK = false := by
  have cleared : (s.ethDown k.val).fld (Reg.TN_Pk_STAT k.val) F.TN_Pk_STAT_LINK = 0 :=
    (State.fld_setFld_other _ _ _ _ _ (by decide) (by decide) (by decide)).trans (s.fld_setFld _ _ 0 (by decide) (by decide))
  simp [State.isSet, cleared]

theorem State.isSet_ethLost (s : State) (k : Fin 2) :
    (s.ethLost k.val).fld (Reg.TN_Pk_STAT k.val) F.TN_Pk_STAT_LINK = s.fld (Reg.TN_Pk_STAT k.val) F.TN_Pk_STAT_LINK ∧
    (s.ethLost k.val).isSet (Reg.TN_Pk_STAT k.val) F.TN_Pk_STAT_LINK_LOST = true ∧
    (s.ethLost k.val).isSet Reg.TN_STAT F.TN_STAT_ETH_LINK = true := by
  obtain ⟨stat, fl, csr, lost⟩ : Reg.TN_Pk_STAT k.val ≠ Reg.TN_STAT ∧ Reg.TN_Pk_STAT k.val ≠ Reg.FL_STAT ∧
      Reg.TN_Pk_STAT k.val ≠ Reg.FL_CSR ∧ Reg.TN_Pk_STAT k.val ≠ Reg.FL_LOST := by
    fin_cases k <;> decide
  have flags := (s.flag (Reg.TN_Pk_STAT k.val) F.TN_Pk_STAT_LINK_LOST).isSet_flag Reg.TN_STAT F.TN_STAT_ETH_LINK (by decide) (by decide)
  have own := s.isSet_flag (Reg.TN_Pk_STAT k.val) F.TN_Pk_STAT_LINK_LOST (by decide) (by decide)
  have keeps := ((s.flag (Reg.TN_Pk_STAT k.val) F.TN_Pk_STAT_LINK_LOST).flag Reg.TN_STAT F.TN_STAT_ETH_LINK).raise_keeps Ev.ETH_LINK 0
  unfold State.isSet at flags own ⊢
  unfold State.ethLost
  refine ⟨?_, ?_, ?_⟩
  · rw [keeps.fld _ fl csr lost, State.flag, State.setFld, State.fld_wr_ne _ _ _ stat]
    exact State.fld_setFld_other _ _ _ _ _ (by decide) (by decide) (by decide)
  · rwa [keeps.fld _ fl csr lost, State.flag, State.setFld, State.fld_wr_ne _ _ _ stat]
  · rwa [keeps.fld _ (by decide) (by decide) (by decide)]

/-- Settles O45: each way a frame ends on arrival, the duplicate table, what a transmit command and the supervision timer send,
the trailer read back, and the change of a link. -/
theorem ethernetFrames : Obligations.EthernetFrames := by
  unfold Obligations.EthernetFrames
  refine ⟨⟨?refused, ?taken, fun tab tab' mac seq now _ => dupCheck_again, fun tab tab' mac seq now => length_dupCheck, ?expire⟩,
    ?silent, ?aud, ?sup, ?trailer, ?down, ?up⟩
  case refused => exact fun s k fr ok out ref bad => State.next_onLanes out ref (State.frameIn_refused bad)
  case taken =>
    intro s k fr out ref min max enabled address type sup
    have taken : s.FrameTaken k.val fr := ⟨min, max, enabled, address, type⟩
    exact ⟨_, State.next_onLanes out ref rfl, State.frameIn_plain taken, fun seq lan single trailer =>
      ⟨State.frameIn_duplicate taken single trailer, fun tab => State.frameIn_first taken single trailer⟩⟩
  case expire => exact fun s i out => State.next_act out rfl
  case silent =>
    intro s out ref idle none'
    exact State.next_onLanes out ref (by rw [State.frameOut_of_idle idle, none'])
  case aud =>
    intro s fr rest out ref idle next
    refine ⟨_, State.next_onLanes out ref (by rw [State.frameOut_of_idle idle, next]), rfl, rfl, rfl⟩
  case sup =>
    intro s out
    refine ⟨s.supervision, State.next_act out rfl, fun none' => if_pos none', fun life => ?_⟩
    rw [State.supervision_of_life life]
    refine ⟨rfl, ?_, fun x mem => ?_⟩
    · exact (List.map_map ..).trans (List.map_id _)
    · obtain ⟨k, -, rfl⟩ := List.mem_map.1 mem
      exact s.supFrame_addresses _ k
  case trailer => exact fun fr seq k lan seq16 _ => ⟨prpTrailer_prpFrame fr lan seq16, take_prpFrame seq k fr⟩
  case down =>
    intro s k out ref
    refine ⟨s.linkChange k.val false, State.next_onLanes out ref rfl, ?_⟩
    rw [State.linkChange_down]
    obtain ⟨link, lost, eth⟩ := (s.ethDown k.val).isSet_ethLost k
    have cleared := s.isSet_ethDown k
    split
    next used =>
      refine ⟨?_, fun _ => ⟨lost, eth⟩⟩
      unfold State.isSet at cleared ⊢
      rwa [link]
    next unused => exact ⟨cleared, fun used => absurd used unused⟩
  case up => exact fun s k out ref => State.next_onLanes out ref rfl

end Sys2Proof.Machine
end

section
/-! PROOFS of O59: supply conversions and their range check, calibrations, motor offsets and beam crossings. -/

namespace Sys2Proof.Machine

/-! ## Delivered values -/

theorem supplyMv_le (off : Int) (gcal div code : Nat) : supplyMv off gcal div code ≤ 65535 := by
  unfold supplyMv clamp
  dsimp only
  split
  · decide
  · split
    · decide
    · omega

/-- What follows from a value out of range at a port of its bank (R469). -/
def State.bankFaultAt (s : State) (p : Nat) : State := (s.setPort p { s.port p with bankFault := true }).raise Ev.VH_FAULT (portH p)

theorem State.bankFaultAt_keeps (s : State) (p : Nat) :
    RaiseKeeps (s.setPort p { s.port p with bankFault := true }) (s.bankFaultAt p) := State.raise_keeps _ _ _

theorem State.bankFaultAt_port (s : State) {p r : Nat} (there : r < s.hp.ports.length) (faulty : r = p ∨ (s.port r).bankFault = true) :
    ((s.bankFaultAt p).port r).bankFault = true := by
  rw [State.port_of_hp (s.bankFaultAt_keeps p).hp]
  by_cases own : r = p
  · subst own
    rw [State.port_setPort_self there]
  · rw [State.port_setPort_ne _ _ own]
    exact faulty.resolve_left own

theorem State.length_bankFaultAt (s : State) (p : Nat) : (s.bankFaultAt p).hp.ports.length = s.hp.ports.length := by
  rw [(s.bankFaultAt_keeps p).hp]
  exact s.length_setPort _ _

/-- Every port of a list faulted. -/
def State.bankFaults (s : State) (ps : List Nat) : State := ps.foldl State.bankFaultAt s

theorem State.bankFaults_an (s : State) (ps : List Nat) : (s.bankFaults ps).an = s.an :=
  State.foldl_proj (·.an) (fun s p => (s.bankFaultAt_keeps p).an) ps s

theorem State.bankFaults_rd (s : State) (ps : List Nat) {a : Nat} (high : 0x120000 ≤ a) : (s.bankFaults ps).rd a = s.rd a :=
  State.foldl_proj (·.rd a) (fun s p => (s.bankFaultAt_keeps p).rd a (by rintro rfl; exact absurd high (by decide))
    (by rintro rfl; exact absurd high (by decide)) (by rintro rfl; exact absurd high (by decide))) ps s

theorem State.bankFaults_port (ps : List Nat) (s : State) {r : Nat} (there : r < s.hp.ports.length)
    (faulty : r ∈ ps ∨ (s.port r).bankFault = true) : ((s.bankFaults ps).port r).bankFault = true := by
  induction ps generalizing s with
  | nil => exact faulty.resolve_left (by simp)
  | cons p ps ih =>
    refine ih (s.bankFaultAt p) (s.length_bankFaultAt p ▸ there) ?_
    rcases faulty with mem | already
    · rcases List.mem_cons.1 mem with rfl | later
      · exact .inr (s.bankFaultAt_port there (.inl rfl))
      · exact .inl later
    · exact .inr (s.bankFaultAt_port there (.inr already))

/-- What the range check leaves: of the channel its counts and whether it is armed, of the registers AN_STAT. -/
structure State.RangeKeeps (s : State) (b : Nat) (t : State) : Prop where
  an : ∃ x, t.an = (s.setSupply b x).an ∧ x.code = (s.supply b).code
  rd : ∀ a, 0x120100 ≤ a → t.rd a = s.rd a

theorem State.rd_flag_anStat (s : State) (f : BitField) {a : Nat} (high : 0x120100 ≤ a) : (s.flag Reg.AN_STAT f).rd a = s.rd a :=
  State.rd_flag_ne _ _ (by rintro rfl; exact absurd high (by decide))

theorem State.rangeCheck_keeps (s : State) (b mv : Nat) : s.RangeKeeps b (s.rangeCheck b mv) := by
  unfold State.rangeCheck
  dsimp only
  split
  · split
    · exact ⟨⟨_, rfl, rfl⟩, fun _ _ => rfl⟩
    · split
      · refine ⟨⟨_, (State.raise_keeps _ _ _).an, rfl⟩, fun a high => ?_⟩
        refine ((State.raise_keeps _ _ _).rd a ?_ ?_ ?_).trans (State.rd_flag_anStat _ _ high) <;>
          (rintro rfl; exact absurd high (by decide))
      · refine ⟨⟨_, State.bankFaults_an _ _, rfl⟩, fun a high => ?_⟩
        exact (State.bankFaults_rd _ _ (by omega)).trans (State.rd_flag_anStat _ _ high)
  · exact ⟨⟨_, rfl, rfl⟩, fun _ _ => rfl⟩

/-- R469: the fourth value in a row below LO faults the ports of an armed bank. -/
theorem State.rangeCheck_faults {s : State} {b mv : Nat} (bank : b ≠ 16) (low : mv < s.fld (Reg.AN_CHk_LIM b) F.AN_CHk_LIM_LO)
    (armed : (s.supply b).armed = true) (third : (s.supply b).outside = 3) {p : Nat} (mem : p ∈ bankPorts b)
    (there : p < s.hp.ports.length) : ((s.rangeCheck b mv).port p).bankFault = true := by
  unfold State.rangeCheck
  simp only [low, true_or, decide_true, if_true, third, armed, Nat.min_self, Nat.reduceAdd, Bool.and_self, Bool.not_true,
    Bool.false_eq_true, if_false, if_neg bank]
  exact State.bankFaults_port _ _ there (.inl mem)

/-- The value register of a bank and those below it. -/
theorem chVal_ne {a : Nat} (low : a < 0x120108) (k : Nat) : Reg.AN_CHk_VAL k ≠ a := by
  unfold Reg.AN_CHk_VAL
  omega

/-! ## Slots -/

theorem State.slotStart_loaded {s : State} {b : Nat} (bank : s.slotBank = some b) (delay : Nat) :
    (s.slotStart delay).isSet (Reg.AN_CHk_VAL b) F.AN_CHk_VAL_LOADED = true ↔
      s.isSet Reg.AN_CFG F.AN_CFG_QUIET = true ∧ 2000 ≤ delay := by
  have marked (v : Bool) : (s.setFld (Reg.AN_CHk_VAL b) F.AN_CHk_VAL_LOADED (b2n v)).fld (Reg.AN_CHk_VAL b) F.AN_CHk_VAL_LOADED = b2n v := by
    rw [State.fld_setFld _ _ _ _ (by decide) (by decide)]
    cases v <;> rfl
  unfold State.slotStart
  simp only [bank]
  have cond : s.isSet Reg.AN_CFG F.AN_CFG_QUIET = true ∧ 2000 ≤ delay ↔
      (s.isSet Reg.AN_CFG F.AN_CFG_QUIET && decide (2000 ≤ delay)) = true := by simp
  rw [cond]
  generalize (s.isSet Reg.AN_CFG F.AN_CFG_QUIET && decide (2000 ≤ delay)) = loaded at marked ⊢
  have counted : ((s.setFld (Reg.AN_CHk_VAL b) F.AN_CHk_VAL_LOADED (b2n true)).bump Reg.AN_CNT F.AN_CNT_LOADED).fld
      (Reg.AN_CHk_VAL b) F.AN_CHk_VAL_LOADED = 1 :=
    (State.fld_wr_ne _ _ _ (chVal_ne (by decide) b)).trans (marked true)
  cases loaded with
  | true => simp [State.isSet, counted]
  | false =>
    simp only [Bool.false_eq_true, if_false, iff_false, State.isSet, marked false]
    decide

theorem State.slotStart_none {s : State} (bank : s.slotBank = none) (delay : Nat) : s.slotStart delay = s := by
  unfold State.slotStart
  rw [bank]

/-! ## Conversions -/

/-- A code converted for a channel, and the round moved on. -/
def State.converted (s : State) (code : Nat) : State :=
  { s with an := { (s.setSupply s.an.slot { s.supply s.an.slot with code := code }).an with slot := (s.an.slot + 1) % 17 } }

theorem State.supply_set_self {s t : State} {c : Nat} {x : SupplyCh} (there : c < s.an.chs.length) (set : t.an.chs = s.an.chs.set c x) :
    t.supply c = x := by
  unfold State.supply
  rw [set, List.getD_eq_getElem?_getD, List.getElem?_set_self there, Option.getD_some]

theorem State.calLate_idle {s : State} (idle : s.an.cal = none) : s.calLate = s := by
  unfold State.calLate State.calApply
  rw [idle]
  exact ite_self s

theorem State.calResult_idle {s : State} (idle : s.an.cal = none) (c code : Nat) : s.calResult c code = s := by
  unfold State.calResult
  rw [idle]

section
variable {s : State} (code : Nat) (slot : s.an.slot < 16) (there : s.an.slot < s.an.chs.length) (idle : s.an.cal = none)
  (own : s.isSet (Reg.AN_CHk_VAL s.an.slot) F.AN_CHk_VAL_SRC = false)

/-- The value a conversion delivers (R467). -/
def State.delivered (s : State) (code : Nat) : Nat :=
  supplyMv (s.supply s.an.slot).off (s.supply s.an.slot).gcal (s.divOf s.an.slot) code

include there in
theorem State.supply_converted : (s.converted code).supply s.an.slot = { s.supply s.an.slot with code := code } :=
  State.supply_set_self (s := s) there rfl

include slot there idle own in
/-- R468: outside a calibration a conversion delivers the value of its own bank. -/
theorem State.conversionDone_eq : s.conversionDone code = (s.converted code).deliverMv s.an.slot (s.delivered code) := by
  have value : (s.converted code).mvOf s.an.slot s.an.slot = s.delivered code := by
    unfold State.mvOf
    rw [State.supply_converted code there]
    rfl
  have kept : ((s.converted code).deliverMv s.an.slot (s.delivered code)).an.cal = none := by
    obtain ⟨x, an, -⟩ := (((s.converted code).setFld (Reg.AN_CHk_VAL s.an.slot) F.AN_CHk_VAL_MV (s.delivered code)).rangeCheck_keeps
      s.an.slot (s.delivered code)).an
    exact (congrArg (·.cal) an).trans idle
  unfold State.conversionDone
  rw [State.calLate_idle idle]
  have deliver : (s.converted code).deliverSupply s.an.slot = (s.converted code).deliverMv s.an.slot (s.delivered code) := by
    unfold State.deliverSupply
    have own' : ¬(s.converted code).isSet (Reg.AN_CHk_VAL s.an.slot) F.AN_CHk_VAL_SRC = true := Bool.eq_false_iff.1 own
    rw [if_neg (by omega), if_neg own', value]
  exact (congrArg (State.calResult · s.an.slot code) deliver).trans (State.calResult_idle kept _ _)

include slot there idle own in
theorem State.conversionDone_spec : (s.conversionDone code).an.slot = s.an.slot + 1 ∧
    ((s.conversionDone code).supply s.an.slot).code = code ∧
    (s.conversionDone code).fld (Reg.AN_CHk_VAL s.an.slot) F.AN_CHk_VAL_MV = s.delivered code := by
  rw [State.conversionDone_eq code slot there idle own]
  have checked := ((s.converted code).setFld (Reg.AN_CHk_VAL s.an.slot) F.AN_CHk_VAL_MV (s.delivered code)).rangeCheck_keeps
    s.an.slot (s.delivered code)
  obtain ⟨x, an, same⟩ := checked.an
  refine ⟨?_, ?_, ?_⟩
  · refine (congrArg (·.slot) an).trans ?_
    exact Nat.mod_eq_of_lt (by omega)
  · unfold State.deliverMv
    rw [State.supply_set_self (s := s.converted code) (by rw [State.converted, State.setSupply, List.length_set]; exact there)
      (congrArg (·.chs) an), same]
    exact congrArg (·.code) (State.supply_converted code there)
  · have value : s.delivered code < 2 ^ 16 := Nat.lt_succ_of_le (supplyMv_le ..)
    refine (congrArg F.AN_CHk_VAL_MV.get (checked.rd _ (by unfold Reg.AN_CHk_VAL; omega))).trans ?_
    exact (State.fld_setFld _ _ _ _ (by decide) (by decide)).trans (Nat.mod_eq_of_lt value)

include slot there idle own in
theorem State.conversionDone_faults (low : s.delivered code < s.fld (Reg.AN_CHk_LIM s.an.slot) F.AN_CHk_LIM_LO)
    (armed : (s.supply s.an.slot).armed = true) (third : (s.supply s.an.slot).outside = 3) {p : Nat} (mem : p ∈ bankPorts s.an.slot)
    (fitted : p < s.hp.ports.length) : ((s.conversionDone code).port p).bankFault = true := by
  rw [State.conversionDone_eq code slot there idle own]
  have same : ((s.converted code).setFld (Reg.AN_CHk_VAL s.an.slot) F.AN_CHk_VAL_MV (s.delivered code)).supply s.an.slot =
      { s.supply s.an.slot with code := code } := State.supply_converted code there
  refine State.rangeCheck_faults (by omega) ?_ (by rw [same]; exact armed) (by rw [same]; exact third) mem fitted
  rwa [State.setFld, State.fld_wr_ne _ _ _ (by unfold Reg.AN_CHk_LIM Reg.AN_CHk_VAL; omega)]

end

/-! ## Calibrations -/

/-- No calibration may begin (R470, R476). -/
def State.calBarred (s : State) : Prop := s.an.cal.isSome = true ∨ s.mode = .boot ∨ s.mode = .test

/-- The channel at the head of the pass taken from it. -/
def State.calTaken (s : State) (k : Nat) (rest : List Nat) : State :=
  ({ s with an := { s.an with pass := rest } } : State).setFld Reg.AN_STAT F.AN_STAT_CAL_CH k

/-- A channel rejected for want of the spare (R472). -/
def State.spareRejects (s : State) : State :=
  ((s.setFld Reg.AN_STAT F.AN_STAT_REJECT 6).flag Reg.AN_STAT F.AN_STAT_CAL_REJECT).raise Ev.CAL_REJECT

theorem State.spareRejects_an (s : State) : s.spareRejects.an = s.an := by
  rw [State.spareRejects, (State.raise_keeps _ _ _).an, State.flag_an, State.setFld_an]

/-- The next calibration of a pass: none is due, a channel without a proven spare is passed over, or one begins. -/
theorem State.calNext_cons {s : State} {k : Nat} {rest : List Nat} (free : ¬s.calBarred) (pass : s.an.pass = k :: rest) (n : Nat) :
    State.calNext (n + 1) s =
      if k < 16 ∧ (s.supply 16).calok = false then State.calNext n (s.calTaken k rest).spareRejects
      else (s.calTaken k rest).setCal (some ⟨k, if k = 16 then 4 else 2, 2, [], [], 0, 0, false⟩) := by
  have free' : ¬(s.an.cal.isSome || decide (s.mode = .boot) || decide (s.mode = .test)) = true := by
    simpa [State.calBarred, and_assoc] using free
  rw [State.calNext, if_neg free']
  simp only [pass, Bool.and_eq_true, decide_eq_true_eq, Bool.not_eq_true']
  rfl

theorem State.calNext_nil {s : State} (pass : s.an.pass = []) (n : Nat) : State.calNext n s = s := by
  cases n with
  | zero => rfl
  | succ n =>
    rw [State.calNext, pass]
    exact ite_self s

/-- What the search for the next calibration leaves of the analog block. -/
theorem State.calNext_an (n : Nat) (s : State) :
    ∃ pass cal, (State.calNext n s).an = { s.an with pass := pass, cal := cal } := by
  induction n generalizing s with
  | zero => exact ⟨_, _, rfl⟩
  | succ n ih =>
    cases held : s.an.pass with
    | nil => exact ⟨_, _, by rw [State.calNext_nil held]⟩
    | cons k rest =>
      by_cases barred : s.calBarred
      · refine ⟨s.an.pass, s.an.cal, ?_⟩
        rw [State.calNext, if_pos (by simpa [State.calBarred, or_assoc] using barred)]
      · rw [State.calNext_cons barred held]
        split
        · obtain ⟨pass, cal, an⟩ := ih (s.calTaken k rest).spareRejects
          exact ⟨pass, cal, by rw [an, State.spareRejects_an]; rfl⟩
        · exact ⟨_, _, rfl⟩

theorem State.calNext_chs (n : Nat) (s : State) : (State.calNext n s).an.chs = s.an.chs := by
  obtain ⟨pass, cal, an⟩ := s.calNext_an n
  rw [an]

/-- R472: a pass of one channel, rejected for want of the spare. -/
theorem State.calNext_rejects {s : State} {k : Nat} (supply : k < 16) (spare : (s.supply 16).calok = false) (free : ¬s.calBarred)
    (pass : s.an.pass = [k]) : (State.calNext 18 s).an.cal = none ∧ (State.calNext 18 s).fld Reg.AN_STAT F.AN_STAT_REJECT = 6 := by
  have idle : s.an.cal = none := by
    by_contra busy
    exact free (.inl (Option.isSome_iff_ne_none.2 busy))
  have an : (s.calTaken k []).spareRejects.an = (s.calTaken k []).an := State.spareRejects_an _
  rw [State.calNext_cons free pass, if_pos ⟨supply, spare⟩, State.calNext_nil (by rw [an]; rfl)]
  refine ⟨by rw [an]; exact idle, ?_⟩
  unfold State.spareRejects
  rw [((State.flag _ _ _).raise_keeps Ev.CAL_REJECT 0).fld _ (by decide) (by decide) (by decide), State.flag,
    State.fld_setFld_other _ _ _ _ _ (by decide) (by decide) (by decide)]
  exact State.fld_setFld _ _ _ _ (by decide) (by decide)

/-- A calibration rejected leaves the corrections in force. -/
theorem State.calReject_chs (s : State) (x : Cal) (cause : Nat) : (s.calReject x cause).an.chs = s.an.chs := by
  have rejected (t : State) : ((t.flag Reg.AN_STAT F.AN_STAT_CAL_REJECT).raise Ev.CAL_REJECT).an = t.an :=
    (State.raise_keeps _ _ _).an
  unfold State.calReject
  dsimp only
  split
  · refine (State.calNext_chs _ _).trans ?_
    exact congrArg (·.chs) (rejected (s.setFld Reg.AN_STAT F.AN_STAT_REJECT cause))
  · exact congrArg (·.chs) (rejected (s.setFld Reg.AN_STAT F.AN_STAT_REJECT cause))

section
variable {s : State} {m : Master} (takes : s.takes m Reg.AN_CTRL) (w : Word)
include takes

/-- CAL_START is a write of AN_CTRL. -/
theorem exec_calStart : exec (.calStart m w) s =
    .next (s.wrote (s.calStart (cmdWord Reg.AN_CTRL w [(F.AN_CTRL_CAL_START, 1), (F.AN_CTRL_MZERO, 0)])) m) := by
  obtain ⟨start, zero⟩ := get_cmdWord_pair (a := Reg.AN_CTRL) (f := F.AN_CTRL_CAL_START) (g := F.AN_CTRL_MZERO) (by decide)
    (by decide) (by decide) w
  refine State.next_busWrite takes (by decide) (by decide) ?_
  change s.writeAn Reg.AN_CTRL (cmdWord Reg.AN_CTRL w _) = _
  simp [State.writeAn, State.anCtrl, start, zero]

/-- MZERO is a write of AN_CTRL with the means measured, eight 12-bit codes. -/
theorem exec_mzero (means : List Nat) : exec (.mzero m w means) s =
    .next (s.wrote (s.motorZero ((List.range 8).map fun i => means.getD i 0 % 4096)) m) := by
  obtain ⟨out, granted⟩ := takes
  refine State.next_act out ?_
  have allowed : ¬(decide (m.val = 6) && s.mspiRefused Reg.AN_CTRL) = true := by
    intro refused
    simp [State.grants, refused] at granted
  have zero : F.AN_CTRL_MZERO.get (command w [(F.AN_CTRL_MZERO, 1), (F.AN_CTRL_CAL_START, 0)]) = 1 :=
    (F.AN_CTRL_CAL_START.get_put_ne F.AN_CTRL_MZERO _ _ (by decide) (by decide) (by decide)).trans
      (F.AN_CTRL_MZERO.get_put w 1 (by decide) (by decide))
  have start : F.AN_CTRL_CAL_START.get (command w [(F.AN_CTRL_MZERO, 1), (F.AN_CTRL_CAL_START, 0)]) = 0 :=
    F.AN_CTRL_CAL_START.get_put _ 0 (by decide) (by decide)
  unfold State.mzeroWrite
  rw [if_neg allowed]
  simp [State.anCtrl, zero, start]

end

theorem State.calStart_refused {s : State} {w : Word} (no : s.an.cal.isSome = true ∨ 16 < F.AN_CTRL_CH.get w ∨ s.mode = .boot ∨ s.mode = .test) :
    s.calStart w = s.flag Reg.AN_STAT F.AN_STAT_CFG_REFUSED :=
  if_pos (by simpa [or_assoc] using no)

/-- CAL_REJECT cleared and a channel put before those of the pass. -/
def State.calQueued (s : State) (k : Nat) : State :=
  let t := s.setFld Reg.AN_STAT F.AN_STAT_REJECT 0
  { t with an := { t.an with pass := k :: t.an.pass } }

theorem State.calStart_of_free {s : State} {w : Word} {k : Nat} (free : ¬s.calBarred) (channel : F.AN_CTRL_CH.get w = k) (exists' : k ≤ 16) :
    s.calStart w = State.calNext 18 (s.calQueued k) := by
  unfold State.calStart
  rw [if_neg (by simpa [State.calBarred, channel, exists', and_assoc] using free), channel]
  rfl

/-- The calibration a start begins. -/
theorem State.calStart_begins {s : State} {w : Word} {k : Nat} (free : ¬s.calBarred) (channel : F.AN_CTRL_CH.get w = k) (exists' : k ≤ 16)
    (spare : k < 16 → (s.supply 16).calok = true) :
    (s.calStart w).an.cal = some ⟨k, if k = 16 then 4 else 2, 2, [], [], 0, 0, false⟩ ∧
    (s.calStart w).fld Reg.AN_STAT F.AN_STAT_CAL_CH = k := by
  have free' : ¬(s.calQueued k).calBarred := free
  have pass : (s.calQueued k).an.pass = k :: s.an.pass := rfl
  have proven : ¬(k < 16 ∧ ((s.calQueued k).supply 16).calok = false) := by
    rintro ⟨supply, missing⟩
    have ok := spare supply
    exact absurd (ok.symm.trans missing) (by decide)
  rw [State.calStart_of_free free channel exists', State.calNext_cons free' pass, if_neg proven]
  generalize s.calQueued k = t
  have shown : (t.calTaken k s.an.pass).fld Reg.AN_STAT F.AN_STAT_CAL_CH = k := by
    rw [State.calTaken, State.fld_setFld _ _ _ _ (by decide) (by decide)]
    exact Nat.mod_eq_of_lt (Nat.lt_of_le_of_lt exists' (by decide))
  exact ⟨rfl, shown⟩

/-! ## Full passes -/

theorem State.passBegin_passAt (s : State) : s.passBegin.an.passAt = s.now := by
  unfold State.passBegin
  obtain ⟨pass, cal, an⟩ := State.calNext_an 18 ({ s with an := { s.an with pass := s.an.pass ++ 16 :: List.range 16, passAt := s.now } } : State)
  rw [an]

theorem State.passTimer_early {s : State} (early : s.fld Reg.AN_CFG F.AN_CFG_CAL_INT = 0 ∨ s.mode = .boot ∨ s.mode = .test ∨
    s.now - s.an.passAt < s.fld Reg.AN_CFG F.AN_CFG_CAL_INT * 1000000000) : s.passTimer = s :=
  if_pos (by simpa [or_assoc] using early)

theorem State.passTimer_due {s : State} (some' : s.fld Reg.AN_CFG F.AN_CFG_CAL_INT ≠ 0) (boot : s.mode ≠ .boot) (test : s.mode ≠ .test)
    (due : s.fld Reg.AN_CFG F.AN_CFG_CAL_INT * 1000000000 ≤ s.now - s.an.passAt) : s.passTimer = s.passBegin :=
  if_neg (by simpa [some', boot, test] using due)

/-! ## Motor offsets -/

/-- The offsets of the fitted axes replaced, up to an input. -/
def State.zeroed (s : State) (means : List Nat) (n : Nat) : State :=
  (List.range n).foldl (fun s i => if s.fitted (i / 2) then s.setFld (Reg.AN_MOFFi i) F.AN_MOFFi_MOFF (means.getD i 0x800) else s) s

theorem State.zeroed_succ (s : State) (means : List Nat) (n : Nat) : s.zeroed means (n + 1) =
    if (s.zeroed means n).fitted (n / 2) then
      (s.zeroed means n).setFld (Reg.AN_MOFFi n) F.AN_MOFFi_MOFF (means.getD n 0x800) else s.zeroed means n := by
  simp [State.zeroed, List.range_succ]

theorem State.zeroed_spec (s : State) (means : List Nat) (n : Nat) : (∀ a, (s.zeroed means n).fitted a = s.fitted a) ∧
    ∀ i, (s.zeroed means n).fld (Reg.AN_MOFFi i) F.AN_MOFFi_MOFF =
      if i < n ∧ s.fitted (i / 2) = true then means.getD i 0x800 % 4096 else s.fld (Reg.AN_MOFFi i) F.AN_MOFFi_MOFF := by
  induction n with
  | zero => exact ⟨fun _ => rfl, fun i => by simp [State.zeroed]⟩
  | succ n ih =>
    obtain ⟨fitted, offset⟩ := ih
    rw [State.zeroed_succ, fitted]
    split
    next fits =>
      have fits' (a : Nat) : ((s.zeroed means n).setFld (Reg.AN_MOFFi n) F.AN_MOFFi_MOFF (means.getD n 0x800)).fitted a = s.fitted a := by
        rw [← fitted, State.fitted, State.setFld, State.fld_wr_ne _ _ _ (by unfold Reg.AN_MOFFi Reg.MO_CFG; omega), State.fitted]
      refine ⟨fits', fun i => ?_⟩
      by_cases own : i = n
      · subst own
        rw [if_pos ⟨Nat.lt_succ_self i, fits⟩]
        exact State.fld_setFld _ _ _ _ (by decide) (by decide)
      · rw [State.setFld, State.fld_wr_ne _ _ _ (by unfold Reg.AN_MOFFi; omega), offset]
        have same : i < n + 1 ↔ i < n := by omega
        simp only [same]
    next fits =>
      refine ⟨fitted, fun i => ?_⟩
      rw [offset]
      by_cases own : i = n
      · subst own
        rw [if_neg (fun h => Nat.lt_irrefl i h.1), if_neg (fun h => fits h.2)]
      · have same : i < n + 1 ↔ i < n := by omega
        simp only [same]

/-- Every fitted axis is disabled (R473). -/
def State.MotorsStill (s : State) : Prop := ∀ a < 4, s.fitted a = true → (s.axis a).st = .disabled

theorem State.motorsStill_iff (s : State) :
    ([0, 1, 2, 3].all fun a => !s.fitted a || decide ((s.axis a).st = .disabled)) = true ↔ s.MotorsStill := by
  have axes (a : Nat) : a ∈ [0, 1, 2, 3] ↔ a < 4 := by
    simp only [List.mem_cons, List.not_mem_nil, or_false]
    omega
  simp only [List.all_eq_true, axes, State.MotorsStill, Bool.or_eq_true, Bool.not_eq_true', decide_eq_true_eq]
  exact forall₂_congr fun a _ => by cases s.fitted a <;> simp

theorem State.motorZero_still {s : State} (still : s.MotorsStill) (means : List Nat) : s.motorZero means = s.zeroed means 8 :=
  if_pos (s.motorsStill_iff.2 still)

theorem State.motorZero_moving {s : State} (moving : ¬s.MotorsStill) (means : List Nat) :
    s.motorZero means = s.flag Reg.AN_STAT F.AN_STAT_CFG_REFUSED :=
  if_neg fun still => moving (s.motorsStill_iff.1 still)

/-- Settles O59: slots and conversions, the start, rejection and passes of calibrations, motor offsets and crossings. -/
theorem analogSense : Obligations.AnalogSense := by
  unfold Obligations.AnalogSense
  refine ⟨⟨?slot, ?conversion, supplyMv_le⟩, ⟨?start, ?spare, ?pass, ?reject⟩, ?mzero, fun s i t out => State.next_act out rfl,
    fun s i out => State.next_act out rfl⟩
  case slot =>
    exact fun s delay out => ⟨s.slotStart delay, State.next_act out rfl, fun none' => State.slotStart_none none' delay,
      fun b bank _ => State.slotStart_loaded bank delay⟩
  case conversion =>
    intro s code out slot there idle own c
    obtain ⟨next, kept, value⟩ := State.conversionDone_spec code.val slot there idle own
    exact ⟨s.conversionDone code.val, State.next_act out rfl, next, kept, value, fun low armed third p mem fitted =>
      State.conversionDone_faults code.val slot there idle own low armed third mem fitted⟩
  case start =>
    intro s m w takes k no
    refine ⟨_, exec_calStart takes w, fun refused => State.calStart_refused refused, fun ok supply spare => ?_, fun ok last => ?_⟩
    all_goals
      have free : ¬s.calBarred := fun barred => ok (barred.imp_right .inr)
    · have begun := State.calStart_begins (k := k) free rfl supply.le fun _ => spare
      rwa [if_neg supply.ne] at begun
    · have begun := State.calStart_begins (k := k) free rfl last.le fun supply => absurd supply last.not_lt
      rw [last] at begun
      exact begun.1
  case spare =>
    intro s k supply spare idle boot test pass
    exact State.calNext_rejects supply spare (by simp [State.calBarred, idle, boot, test]) pass
  case pass =>
    exact fun s out => ⟨s.passTimer, State.next_act out rfl, State.passTimer_early,
      fun some' boot test due => ⟨State.passTimer_due some' boot test due,
        (congrArg (·.an.passAt) (State.passTimer_due some' boot test due)).trans s.passBegin_passAt⟩⟩
  case reject =>
    intro s x cause _
    have same : (s.calReject x cause).supply x.ch = s.supply x.ch := congrArg (·.getD x.ch SupplyCh.reset) (s.calReject_chs x cause)
    rw [same]
    exact ⟨rfl, rfl⟩
  case mzero =>
    intro s m w means takes
    refine ⟨_, exec_mzero takes w means, ?_, fun still i bound => ?_⟩
    · rintro ⟨a, small, fits, moving⟩
      exact State.motorZero_moving (fun still => moving (still a small fits)) _
    · rw [State.motorZero_still still, (s.zeroed_spec _ 8).2]
      simp only [bound, true_and]
      split
      · rw [List.getD_eq_getElem?_getD, List.getElem?_map, List.getElem?_range bound]
        exact Nat.mod_mod _ _
      · rfl

end Sys2Proof.Machine
end

section
/-! PROOFS of O60: the start, stop and judgement of loop-backs, the field self-test and the TAP. -/

namespace Sys2Proof.Machine

/-! ## TS_CTRL -/

section
variable {s : State} {m : Master} (takes : s.takes m Reg.TS_CTRL) (w : Word)
include takes

theorem exec_tsStart : exec (.tsStart m w) s = .next (s.wrote (s.testStart m.val) m) := by
  obtain ⟨start, stop, self⟩ := get_cmdWord_bits (a := Reg.TS_CTRL) (f := F.TS_CTRL_START) (g := F.TS_CTRL_STOP) (h := F.TS_CTRL_SELFTEST)
    (by decide) (by decide) (by decide) w
  refine State.next_busWrite takes (by decide) (by decide) ?_
  change s.tsCtrl m.val (cmdWord Reg.TS_CTRL w _) = _
  simp [State.tsCtrl, start, stop, self]

theorem exec_tsStop : exec (.tsStop m w) s = .next (s.wrote s.testStop m) := by
  obtain ⟨stop, start, self⟩ := get_cmdWord_bits (a := Reg.TS_CTRL) (f := F.TS_CTRL_STOP) (g := F.TS_CTRL_START) (h := F.TS_CTRL_SELFTEST)
    (by decide) (by decide) (by decide) w
  refine State.next_busWrite takes (by decide) (by decide) ?_
  change s.tsCtrl m.val (cmdWord Reg.TS_CTRL w _) = _
  simp [State.tsCtrl, start, stop, self]

theorem exec_selftest : exec (.selftest m w) s = .next (s.wrote (s.selfTest m.val) m) := by
  obtain ⟨self, start, stop⟩ := get_cmdWord_bits (a := Reg.TS_CTRL) (f := F.TS_CTRL_SELFTEST) (g := F.TS_CTRL_START) (h := F.TS_CTRL_STOP)
    (by decide) (by decide) (by decide) w
  refine State.next_busWrite takes (by decide) (by decide) ?_
  change s.tsCtrl m.val (cmdWord Reg.TS_CTRL w _) = _
  simp [State.tsCtrl, start, stop, self]

end

/-! ## A loop begins -/

/-- A loop-back or the self-test is in progress. -/
def State.testBusy (s : State) : Prop := s.ts.run.isSome = true ∨ s.ts.selfRun = true

section
variable {s : State} {m : Nat}

theorem State.testStart_busy (busy : s.testBusy) : s.testStart m = s.testRefuse 4 := if_pos (by simpa [State.testBusy] using busy)

theorem State.selfTest_busy (busy : s.testBusy) : s.selfTest m = s.testRefuse 4 := if_pos (by simpa [State.testBusy] using busy)

variable (free : ¬s.testBusy)
include free

theorem State.not_busy : ¬(s.ts.run.isSome || s.ts.selfRun) = true := by simpa [State.testBusy] using free

theorem State.testStart_mode (mode : s.mode ≠ .test) : s.testStart m = s.testRefuse 1 :=
  (if_neg (State.not_busy free)).trans (if_pos mode)

theorem State.selfTest_mode (mode : s.mode ≠ .test) : s.selfTest m = s.testRefuse 1 :=
  (if_neg (State.not_busy free)).trans (if_pos mode)

/-- START in TEST with nothing in progress: what is named, the path of the master and the head decide (R508). -/
theorem State.testStart_free (mode : s.mode = .test) : s.testStart m =
    let ifc := s.fld Reg.TS_CFG F.TS_CFG_IF
    let depth := s.fld Reg.TS_CFG F.TS_CFG_DEPTH
    let inst := s.fld Reg.TS_CFG F.TS_CFG_INST
    if testInsts ifc ≤ inst ∨ testDepths ifc ≤ depth then s.testRefuse 5
    else if s.testBreaks m ifc inst = true then s.testRefuse 2
    else if ifc = 1 ∧ depth = 1 ∧ (s.port inst).st ≠ .absent then s.testRefuse 3
    else s.testBegin ⟨ifc, depth, inst, none, s.now⟩ := by
  unfold State.testStart
  simp only [State.not_busy free, Bool.false_eq_true, if_false, mode, ne_eq, not_true_eq_false, Bool.or_eq_true, Bool.and_eq_true,
    decide_eq_true_eq, and_assoc]

end

theorem State.fld_setTs (s : State) (t : TsState) (a : Nat) (f : BitField) : (s.setTs t).fld a f = s.fld a f := rfl

/-- A loop that begins: it runs, with its counts cleared. -/
theorem State.testBegin_spec (s : State) (r : TestRun) : (s.testBegin r).ts.run = some r ∧ (s.testBegin r).rdN Reg.TS_ERRCNT = 0 ∧
    (s.testBegin r).ts.bits = 0 ∧ (s.testBegin r).isSet Reg.TS_STAT F.TS_STAT_BUSY = true := by
  unfold State.testBegin
  dsimp only
  generalize (((s.setFld Reg.TS_STAT F.TS_STAT_PASS 0).setFld Reg.TS_STAT F.TS_STAT_LOCK 0).setFld Reg.TS_STAT F.TS_STAT_ERR 0) = t
  have count : ((t.flag Reg.TS_STAT F.TS_STAT_BUSY).wrN Reg.TS_ERRCNT 0).rdN Reg.TS_ERRCNT = 0 := by
    rw [State.rdN, State.rd_wrN_self]
    rfl
  have busy : ((t.flag Reg.TS_STAT F.TS_STAT_BUSY).wrN Reg.TS_ERRCNT 0).isSet Reg.TS_STAT F.TS_STAT_BUSY = true := by
    have flagged := t.isSet_flag Reg.TS_STAT F.TS_STAT_BUSY (by decide) (by decide)
    unfold State.isSet State.fld at flagged ⊢
    rwa [State.rd_wrN_ne _ _ (by decide)]
  exact ⟨rfl, count, rfl, busy⟩

/-- The number of runs stands when a loop begins. -/
theorem State.testBegin_fld (s : State) (r : TestRun) {a : Nat} (f : BitField) (stat : a ≠ Reg.TS_STAT) (count : a ≠ Reg.TS_ERRCNT) :
    (s.testBegin r).fld a f = s.fld a f := by
  unfold State.testBegin
  dsimp only
  rw [State.fld_setTs]
  exact congrArg f.get ((State.rd_wrN_ne _ _ count).trans ((State.rd_wr_ne _ _ stat).trans ((State.rd_wr_ne _ _ stat).trans
    ((State.rd_wr_ne _ _ stat).trans (State.rd_wr_ne _ _ stat)))))

/-! ## A loop ends -/

/-- TS_STAT as a loop of its own, not of the self-test, leaves it (R510). -/
def State.testJudged (s : State) (pass : Bool) (err : Nat) : State :=
  (((s.setFld Reg.TS_STAT F.TS_STAT_PASS (b2n pass)).setFld Reg.TS_STAT F.TS_STAT_ERR err).setFld Reg.TS_STAT F.TS_STAT_BUSY 0).flag
    Reg.TS_STAT F.TS_STAT_DONE

theorem State.testEnd_single {s : State} {r : TestRun} (run : s.ts.run = some r) (single : r.item = none) (pass : Bool) (err : Nat) :
    s.testEnd pass err = (s.setTs { s.ts with run := none }).testJudged pass err := by
  unfold State.testEnd
  simp only [run, single]
  rfl

theorem State.testJudged_spec (s : State) (pass : Bool) (err : Nat) : (s.testJudged pass err).ts = s.ts ∧
    (s.testJudged pass err).isSet Reg.TS_STAT F.TS_STAT_PASS = pass ∧ (s.testJudged pass err).isSet Reg.TS_STAT F.TS_STAT_DONE = true ∧
    (s.testJudged pass err).isSet Reg.TS_STAT F.TS_STAT_BUSY = false := by
  unfold State.testJudged
  refine ⟨by simp only [State.flag_ts, State.setFld_ts], ?_, State.isSet_flag _ _ _ (by decide) (by decide), ?_⟩
  · have value : ((((s.setFld Reg.TS_STAT F.TS_STAT_PASS (b2n pass)).setFld Reg.TS_STAT F.TS_STAT_ERR err).setFld Reg.TS_STAT
        F.TS_STAT_BUSY 0).flag Reg.TS_STAT F.TS_STAT_DONE).fld Reg.TS_STAT F.TS_STAT_PASS = b2n pass % 2 := by
      rw [State.flag, State.fld_setFld_other _ _ _ _ _ (by decide) (by decide) (by decide),
        State.fld_setFld_other _ _ _ _ _ (by decide) (by decide) (by decide),
        State.fld_setFld_other _ _ _ _ _ (by decide) (by decide) (by decide)]
      exact State.fld_setFld _ _ _ _ (by decide) (by decide)
    unfold State.isSet
    rw [value]
    cases pass <;> rfl
  · have value : ((((s.setFld Reg.TS_STAT F.TS_STAT_PASS (b2n pass)).setFld Reg.TS_STAT F.TS_STAT_ERR err).setFld Reg.TS_STAT
        F.TS_STAT_BUSY 0).flag Reg.TS_STAT F.TS_STAT_DONE).fld Reg.TS_STAT F.TS_STAT_BUSY = 0 := by
      rw [State.flag, State.fld_setFld_other _ _ _ _ _ (by decide) (by decide) (by decide)]
      exact State.fld_setFld _ _ _ _ (by decide) (by decide)
    simp [State.isSet, value]

/-- R510: a loop of its own that ends is judged, done and no longer busy. -/
theorem State.testEnd_spec {s : State} {r : TestRun} (run : s.ts.run = some r) (single : r.item = none) (pass : Bool) (err : Nat) :
    (s.testEnd pass err).ts.run = none ∧ (s.testEnd pass err).isSet Reg.TS_STAT F.TS_STAT_PASS = pass ∧
    (s.testEnd pass err).isSet Reg.TS_STAT F.TS_STAT_DONE = true ∧ (s.testEnd pass err).isSet Reg.TS_STAT F.TS_STAT_BUSY = false := by
  rw [State.testEnd_single run single]
  obtain ⟨ts, shown⟩ := (s.setTs { s.ts with run := none }).testJudged_spec pass err
  exact ⟨congrArg (·.run) ts, shown⟩

theorem State.testStop_none {s : State} (run : s.ts.run = none) : s.testStop = s := by
  unfold State.testStop
  rw [run]

theorem State.testStop_some {s : State} {r : TestRun} (run : s.ts.run = some r) : s.testStop = s.testEnd (s.testLocked r) 0 := by
  unfold State.testStop
  rw [run]

/-- The errors the checker counted added, and the bits it saw (R510). -/
def State.checked (s : State) (errs bits : Nat) : State :=
  let t := s.bump Reg.TS_ERRCNT F.TS_ERRCNT_VALUE errs
  t.setTs { t.ts with bits := bits }

theorem State.durationEnd_serial {s : State} {r : TestRun} (run : s.ts.run = some r) (serial : r.serial = true) (over' : s.testOver r = true)
    (errs bits : Nat) : s.durationEnd errs bits = (s.checked errs bits).testEnd ((s.checked errs bits).testLocked r) 0 := by
  unfold State.durationEnd
  rw [run]
  simp only [over', serial, Bool.not_true, Bool.false_eq_true, if_false, if_true]
  rfl

/-- A counter of a whole register. -/
theorem TS_ERRCNT_VALUE_get (w : Word) : F.TS_ERRCNT_VALUE.get w = w.toNat := by
  have bound := w.isLt
  simp only [F.TS_ERRCNT_VALUE, BitField.get, bits, Nat.shiftRight_zero]
  omega

theorem State.checked_errors (s : State) (errs bits : Nat) :
    (s.checked errs bits).rdN Reg.TS_ERRCNT = min F.TS_ERRCNT_VALUE.top (s.rdN Reg.TS_ERRCNT + errs) := by
  have counted := s.fld_bump Reg.TS_ERRCNT F.TS_ERRCNT_VALUE errs (by decide) (by decide)
  simp only [State.fld, TS_ERRCNT_VALUE_get] at counted
  exact counted

theorem State.checked_locked (s : State) (r : TestRun) (errs bits : Nat) (serial : r.serial = true) (near : r.depth ≠ 2) :
    (s.checked errs bits).testLocked r = true ↔
      s.isSet Reg.TS_STAT F.TS_STAT_LOCK = true ∧ s.rdN Reg.TS_ERRCNT = 0 ∧ errs = 0 := by
  have lock : (s.checked errs bits).isSet Reg.TS_STAT F.TS_STAT_LOCK = s.isSet Reg.TS_STAT F.TS_STAT_LOCK := by
    have kept : (s.bump Reg.TS_ERRCNT F.TS_ERRCNT_VALUE errs).fld Reg.TS_STAT F.TS_STAT_LOCK = s.fld Reg.TS_STAT F.TS_STAT_LOCK :=
      State.fld_wr_ne _ _ _ (by decide)
    unfold State.isSet
    rw [← kept]
    rfl
  have top : 0 < F.TS_ERRCNT_VALUE.top := by decide
  unfold State.testLocked
  rw [lock, State.checked_errors]
  simp only [serial, near, decide_false, Bool.and_false, Bool.not_false, Bool.true_and, Bool.and_eq_true, decide_eq_true_eq]
  refine and_congr_right fun _ => ?_
  omega

theorem State.passComplete_spec {s : State} {r : TestRun} (run : s.ts.run = some r) (kind : r.ifc = 2 ∨ r.ifc = 6) (crc : Word) (ok : Bool) :
    s.passComplete crc ok = s.testEnd (if r.ifc = 2 then decide (crc = s.rd Reg.TS_CAM_CRC) else ok) 0 := by
  unfold State.passComplete
  rcases kind with kind | kind <;> simp [run, kind]

theorem State.checkerLock_serial {s : State} {r : TestRun} (run : s.ts.run = some r) (serial : r.serial = true) (gained : Bool) :
    (s.checkerLock gained).isSet Reg.TS_STAT F.TS_STAT_LOCK = gained ∧
    (gained = true → (s.checkerLock gained).rdN Reg.TS_ERRCNT = 0 ∧ (s.checkerLock gained).ts.bits = 0) := by
  have lock (v : Bool) : (s.setFld Reg.TS_STAT F.TS_STAT_LOCK (b2n v)).isSet Reg.TS_STAT F.TS_STAT_LOCK = v := by
    rw [State.isSet, State.fld_setFld _ _ _ _ (by decide) (by decide)]
    cases v <;> rfl
  unfold State.checkerLock
  simp only [run, serial, Bool.not_true, Bool.false_eq_true, if_false]
  cases gained with
  | false => exact ⟨lock false, nofun⟩
  | true =>
    have kept : ((s.setFld Reg.TS_STAT F.TS_STAT_LOCK (b2n true)).wrN Reg.TS_ERRCNT 0).isSet Reg.TS_STAT F.TS_STAT_LOCK = true := by
      have same : ((s.setFld Reg.TS_STAT F.TS_STAT_LOCK (b2n true)).wrN Reg.TS_ERRCNT 0).fld Reg.TS_STAT F.TS_STAT_LOCK =
          (s.setFld Reg.TS_STAT F.TS_STAT_LOCK (b2n true)).fld Reg.TS_STAT F.TS_STAT_LOCK := State.fld_wr_ne _ _ _ (by decide)
      rw [State.isSet, same]
      exact lock true
    have count : ((s.setFld Reg.TS_STAT F.TS_STAT_LOCK (b2n true)).wrN Reg.TS_ERRCNT 0).rdN Reg.TS_ERRCNT = 0 := by
      rw [State.rdN, State.rd_wrN_self]
      rfl
    exact ⟨kept, fun _ => ⟨count, rfl⟩⟩

/-- The high word of the bits counted is captured with the low one. -/
theorem State.readCapture_bits (s : State) : (s.readCapture Reg.TS_BITS_LO).rdN Reg.TS_BITS_HI = s.ts.bits / 2 ^ 32 % 2 ^ 32 := by
  have same : s.readCapture Reg.TS_BITS_LO = s.wrN Reg.TS_BITS_HI (s.ts.bits / 2 ^ 32) := rfl
  rw [same, State.rdN, State.rd_wrN_self, BitVec.toNat_ofNat]

/-! ## The self-test -/

/-- The items a master may run: those that leave its own path (R508, R511). -/
def State.selfTodo (s : State) (m : Nat) : List (Nat × Nat) :=
  ((List.range 11).flatMap fun i => (s.selfInsts i).map fun k => (i, k)).filter fun x => !s.testBreaks m (selfPath x.1).1 x.2

/-- A run counted, with what has to be skipped and nothing failed. -/
def State.selfBegun (s : State) (skip : Nat) : State :=
  ((((s.wrN Reg.TS_SELF 0).setFld Reg.TS_SELF F.TS_SELF_SKIP skip).bump Reg.TS_SELF_RUN F.TS_SELF_RUN_RUNS).setFld Reg.TS_SELF_RUN
    F.TS_SELF_RUN_COMPLETE 0).wrN Reg.TS_SELF_INST 0

/-- A run in progress with its items still to come. -/
def State.selfWith (s : State) (todo : List (Nat × Nat)) : State := s.setTs { s.ts with todo := todo, selfRun := true }

theorem State.selfTest_free {s : State} {m : Nat} (free : ¬s.testBusy) (mode : s.mode = .test) :
    ∃ skip, s.selfTest m = ((s.selfBegun skip).selfWith (s.selfTodo m)).selfNext := by
  unfold State.selfTest
  rw [if_neg (State.not_busy free), if_neg (not_not_intro mode)]
  exact ⟨_, rfl⟩

theorem State.selfBegun_runs (s : State) (skip : Nat) : (s.selfBegun skip).fld Reg.TS_SELF_RUN F.TS_SELF_RUN_RUNS =
    min F.TS_SELF_RUN_RUNS.top (s.fld Reg.TS_SELF_RUN F.TS_SELF_RUN_RUNS + 1) := by
  have before : ((s.wrN Reg.TS_SELF 0).setFld Reg.TS_SELF F.TS_SELF_SKIP skip).fld Reg.TS_SELF_RUN F.TS_SELF_RUN_RUNS =
      s.fld Reg.TS_SELF_RUN F.TS_SELF_RUN_RUNS :=
    (State.fld_wr_ne _ _ _ (by decide)).trans (State.fld_wr_ne _ _ _ (by decide))
  unfold State.selfBegun
  refine (State.fld_wr_ne _ _ _ (by decide)).trans ?_
  rw [State.fld_setFld_other _ _ _ _ _ (by decide) (by decide) (by decide), State.fld_bump _ _ _ _ (by decide) (by decide), before]

/-- The next item is taken from those to come, and the run counted stands. -/
theorem State.selfNext_spec (s : State) : (s.selfNext).fld Reg.TS_SELF_RUN F.TS_SELF_RUN_RUNS = s.fld Reg.TS_SELF_RUN F.TS_SELF_RUN_RUNS ∧
    ∀ r, s.selfNext.ts.run = some r → ∃ i k, (i, k) ∈ s.ts.todo ∧ r.ifc = (selfPath i).1 ∧ r.inst = k := by
  unfold State.selfNext
  split
  next done =>
    dsimp only
    refine ⟨?_, fun r run => ?_⟩
    · refine (State.fld_wr_ne _ _ _ (by decide)).trans ((State.fld_wr_ne _ _ _ (by decide)).trans ?_)
      exact (State.fld_setTs _ _ _ _).trans (State.fld_setFld_other _ _ _ _ _ (by decide) (by decide) (by decide))
    · rw [State.flag_ts, State.setFld_ts] at run
      cases run
  next i k rest todo =>
    refine ⟨(State.testBegin_fld _ _ _ (by decide) (by decide)).trans (State.fld_setTs _ _ _ _), fun r run => ?_⟩
    rw [(State.testBegin_spec _ _).1, Option.some.injEq] at run
    subst run
    exact ⟨i, k, by rw [todo]; exact List.mem_cons_self, rfl, rfl⟩

theorem State.selfTest_spec {s : State} {m : Nat} (free : ¬s.testBusy) (mode : s.mode = .test) :
    (s.selfTest m).fld Reg.TS_SELF_RUN F.TS_SELF_RUN_RUNS =
      min F.TS_SELF_RUN_RUNS.top (s.fld Reg.TS_SELF_RUN F.TS_SELF_RUN_RUNS + 1) ∧
    ∀ r, (s.selfTest m).ts.run = some r → s.testBreaks m r.ifc r.inst = false := by
  obtain ⟨skip, same⟩ := State.selfTest_free free mode (m := m)
  obtain ⟨runs, item⟩ := ((s.selfBegun skip).selfWith (s.selfTodo m)).selfNext_spec
  rw [same]
  refine ⟨(runs.trans (State.fld_setTs _ _ _ _)).trans (s.selfBegun_runs skip), fun r run => ?_⟩
  obtain ⟨i, k, mem, ifc, inst⟩ := item r run
  rw [ifc, inst]
  simpa using (List.mem_filter.1 mem).2

/-! ## The TAP -/

theorem State.tapActs_tapInstruction (s : State) (c : Nat) : (s.tapInstruction c).tapActs =
    if c < 3 ∨ s.mode = .test ∨ (s.mode = .boot ∧ s.bu.bootState = 2) then c else 0 := by
  have mode : (s.tapInstruction c).mode = s.mode := rfl
  unfold State.tapActs
  simp only [mode, Bool.or_eq_true, Bool.and_eq_true, decide_eq_true_eq, or_assoc]
  rfl

/-- R514: EXTEST on a ball that a loop drives ends the loop without PASS. -/
theorem State.testGate_extest {s : State} {r : TestRun} (run : s.ts.run = some r) (taken : s.tapTakes r = true) :
    ∃ err, s.testGate = s.testEnd false err := by
  unfold State.testGate
  simp only [run, taken, if_true]
  split
  · exact ⟨_, rfl⟩
  · exact ⟨_, rfl⟩

/-- Settles O60: START by its refusals in their order, each end of a loop, the checker, the self-test and the TAP. -/
theorem testModes : Obligations.TestModes := by
  unfold Obligations.TestModes
  refine ⟨⟨?start, ?stop, ?time, ?pass, ?lock, fun s => ⟨rfl, s.readCapture_bits⟩⟩, ?self, ?tap, ?extest,
    fun s out => congrArg Host.Outcome.next (s.actPin_eq_after _ out)⟩
  case start =>
    intro s m w takes ifc depth inst busy gone head
    refine ⟨s.testStart m.val, exec_tsStart takes w, State.testStart_busy, State.testStart_mode, ?_, ?_, ?_, ?_⟩
    · intro free mode missing
      exact (State.testStart_free free mode).trans (if_pos missing)
    · intro free mode there breaks
      exact (State.testStart_free free mode).trans ((if_neg there).trans (if_pos breaks))
    · intro free mode there safe occupied
      exact (State.testStart_free free mode).trans ((if_neg there).trans ((if_neg (Bool.eq_false_iff.1 safe)).trans (if_pos occupied)))
    · intro free mode there safe empty
      have begun : s.testStart m.val = s.testBegin ⟨ifc, depth, inst, none, s.now⟩ :=
        (State.testStart_free free mode).trans ((if_neg there).trans ((if_neg (Bool.eq_false_iff.1 safe)).trans (if_neg empty)))
      rw [begun]
      exact s.testBegin_spec _
  case stop =>
    refine fun s m w takes => ⟨s.testStop, exec_tsStop takes w, State.testStop_none, fun r run single => ?_⟩
    rw [State.testStop_some run]
    exact State.testEnd_spec run single _ _
  case time =>
    intro s errs bits r out run serial over' single near
    obtain ⟨ended, pass, -⟩ := State.testEnd_spec (s := s.checked errs bits) run single ((s.checked errs bits).testLocked r) 0
    refine ⟨_, State.next_act out (State.durationEnd_serial run serial over' errs bits), ended, ?_⟩
    rw [pass]
    exact s.checked_locked r errs bits serial near
  case pass =>
    intro s crc ok r out run single kind
    obtain ⟨ended, pass, -⟩ := State.testEnd_spec run single (if r.ifc = 2 then decide (crc = s.rd Reg.TS_CAM_CRC) else ok) 0
    refine ⟨_, State.next_act out (State.passComplete_spec run kind crc ok), ended, ?_⟩
    rw [pass]
    split <;> simp
  case lock => exact fun s gained r out run serial => ⟨_, State.next_act out rfl, State.checkerLock_serial run serial gained⟩
  case self =>
    exact fun s m w takes => ⟨_, exec_selftest takes w, State.selfTest_busy, State.selfTest_mode, State.selfTest_spec⟩
  case tap =>
    intro s c out act
    exact ⟨s.tapInstruction c.val, congrArg Host.Outcome.next (s.actPin_eq_after _ out), rfl,
      fun acts => (s.tapActs_tapInstruction c.val).trans (if_pos acts), fun rests => (s.tapActs_tapInstruction c.val).trans (if_neg rests)⟩
  case extest =>
    intro s r run single extest ball
    obtain ⟨err, same⟩ := State.testGate_extest run (by simpa [State.tapTakes, extest] using ball)
    obtain ⟨ended, pass, -⟩ := State.testEnd_spec run single false err
    rw [same]
    exact ⟨ended, pass⟩

end Sys2Proof.Machine
end

section
/-! PROOFS of O53: CONFIRM, the pieces of an update and the operations on base camp. -/

namespace Sys2Proof.Machine

/-! ## Words of a command -/

/-- Fields of one bit, each at a place of its own. -/
def OneBitFields (fs : List (BitField × Nat)) : Prop := (∀ e ∈ fs, e.1.lo = e.1.hi ∧ e.1.hi < 32 ∧ e.2 < 2) ∧ (fs.map (·.1.hi)).Nodup

theorem get_command_apart {fs : List (BitField × Nat)} (one : ∀ e ∈ fs, e.1.lo = e.1.hi ∧ e.1.hi < 32 ∧ e.2 < 2) {g : BitField}
    (bit : g.lo = g.hi) (apart : g.hi ∉ fs.map (·.1.hi)) (w : Word) : g.get (command w fs) = g.get w := by
  induction fs generalizing w with
  | nil => rfl
  | cons e fs ih =>
    obtain ⟨own, top, -⟩ := one e List.mem_cons_self
    have here : g.hi ≠ e.1.hi := fun same => apart (same ▸ List.mem_cons_self)
    have later : g.hi ∉ fs.map (·.1.hi) := fun mem => apart (List.mem_cons_of_mem _ mem)
    refine (ih (fun x mem => one x (List.mem_cons_of_mem _ mem)) later (e.1.put w e.2)).trans ?_
    exact e.1.get_put_ne g w e.2 own.le top (by omega)

/-- A word holds the bits of its command. -/
theorem get_command_mem {fs : List (BitField × Nat)} (fields : OneBitFields fs) {f : BitField} {v : Nat} (mem : (f, v) ∈ fs) (w : Word) :
    f.get (command w fs) = v := by
  obtain ⟨one, places⟩ := fields
  induction fs generalizing w with
  | nil => cases mem
  | cons e fs ih =>
    obtain ⟨here, later⟩ := List.nodup_cons.1 places
    have rest : ∀ x ∈ fs, x.1.lo = x.1.hi ∧ x.1.hi < 32 ∧ x.2 < 2 := fun x mem => one x (List.mem_cons_of_mem _ mem)
    rcases List.mem_cons.1 mem with rfl | mem
    · obtain ⟨own, top, small⟩ := one (f, v) List.mem_cons_self
      refine (get_command_apart rest own here (f.put w v)).trans ?_
      rw [f.get_put w v own.le top, show f.lo = f.hi from own, Nat.add_sub_cancel_left]
      exact Nat.mod_eq_of_lt small
    · exact ih mem _ rest later

theorem get_cmdWord_mem {a : Nat} {fs : List (BitField × Nat)} (fields : OneBitFields fs) {f : BitField} {v : Nat} (mem : (f, v) ∈ fs)
    (held : holdsField a f = true) (w : Word) : f.get (cmdWord a w fs) = v :=
  (get_regMask held _).trans (get_command_mem fields mem w)

/-! ## Bytes of flash -/

/-- A byte of flash. -/
def State.flashByte (s : State) (x : Nat) : Byte := AMap.get (fun _ => flashDefault) s.flash x

theorem State.flashRead_one (s : State) (x : Nat) : s.flashRead x 1 = [s.flashByte x] := rfl

/-- An erased byte reads as blank, whatever else is erased. -/
theorem State.flashByte_erase (s : State) (a n x : Nat) :
    (s.flashErase a n).flashByte x = if a ≤ x ∧ x < a + n then flashDefault else s.flashByte x := by
  unfold State.flashByte State.flashErase
  rw [AMap.get, AMap.find?_filter fun k => !(decide (a ≤ k) && decide (k < a + n))]
  split
  next out =>
    rw [if_neg (by simp at out; omega), AMap.get]
  next inside => rw [if_pos (by simpa using inside), Option.getD_none]

theorem State.flashByte_program (s : State) {a x : Nat} {bs : List Byte} (apart : x < a ∨ a + bs.length ≤ x) :
    (s.flashProgram a bs).flashByte x = s.flashByte x :=
  Mem.get_put_of_not_mem _ _ _ _ _ (by simpa [State.flashRead, Mem.bytes] using apart)

/-! ## The boot log -/

theorem BootLog.length_bytes (l : BootLog) : l.bytes.length = 32 := by
  simp [BootLog.bytes]

/-- R416: a record goes to one of the two sectors of the log. -/
theorem State.logNext_bound {s : State} (inLog : ∀ o ∈ s.bu.logAt, o < 0x2000) : s.logNext.1 + 32 ≤ 0x2000 := by
  unfold State.logNext
  cases at' : s.bu.logAt with
  | none => exact (by decide : 0 + 32 ≤ 0x2000)
  | some o =>
    have low := inLog o at'
    dsimp only
    split
    next x found =>
      obtain ⟨i, small, rfl⟩ := List.mem_map.1 (List.mem_of_find?_eq_some found)
      have := List.mem_range.1 small
      dsimp only
      omega
    next =>
      dsimp only
      omega

/-- The sector a record goes to, erased first where it begins one (R417). -/
def State.logErased (s : State) : State := if s.logNext.2 then s.flashErase (s.campBase + s.logNext.1) 4096 else s

theorem State.logWrite_spec (s : State) (l : BootLog) : (s.logWrite l).bu.regions = s.bu.regions ∧
    ∃ l' : BootLog, (s.logWrite l).flash = (s.logErased.flashProgram (s.campBase + s.logNext.1) l'.bytes).flash := by
  have erased : (if s.logNext.2 then s.flashErase ((s.region 2).1 + s.logNext.1) 4096 else s) = s.logErased := rfl
  have regions : s.logErased.bu.regions = s.bu.regions := by
    unfold State.logErased
    split <;> rfl
  unfold State.logWrite
  dsimp only
  rw [erased]
  exact ⟨regions, _, rfl⟩

/-- A record written leaves the bytes behind the log blank. -/
theorem State.logWrite_blank {s : State} (l : BootLog) (inLog : ∀ o ∈ s.bu.logAt, o < 0x2000) {x : Nat} (behind : s.campBase + 0x2000 ≤ x)
    (blank : s.flashByte x = flashDefault) : (s.logWrite l).flashByte x = flashDefault := by
  have bound := State.logNext_bound inLog
  obtain ⟨-, l', flash⟩ := s.logWrite_spec l
  unfold State.flashByte
  rw [flash]
  refine (State.flashByte_program _ (by rw [BootLog.length_bytes]; omega)).trans ?_
  unfold State.logErased
  split
  · rw [State.flashByte_erase, blank, ite_self]
  · exact blank

/-! ## Operations on base camp -/

/-- The pieces of base camp are marked in flash alone. -/
theorem State.pieceIn_of_blank {s : State} {k : Nat} (blank : s.flashByte (s.campBase + 0x2000 + k / 8) = flashDefault) :
    s.pieceIn k = false := by
  have bits : bit 255 (k % 8) = true := by
    have small : k % 8 < 8 := Nat.mod_lt k (by decide)
    generalize k % 8 = i at small
    interval_cases i <;> decide
  unfold State.pieceIn
  rw [State.flashRead_one, blank]
  change (decide _ && !bit 255 (k % 8)) = false
  rw [bits]
  simp

section
variable {s : State} {m : Master} (takes : s.takes m Reg.BU_UP_CTRL) (w : Word)
include takes

/-- An operation on base camp is a write of BU_UP_CTRL. -/
theorem next_upCtrl {fs : List (BitField × Nat)} {u : State} (effect : s.upCtrl (cmdWord Reg.BU_UP_CTRL w fs) = u) :
    (Host.Outcome.next (s.act (·.busWrite m.val Reg.BU_UP_CTRL (command w fs))) : Host.Outcome State Fault Refusal) =
      .next (s.wrote u m) := by
  refine State.next_busWrite takes (by decide) (by decide) ?_
  exact effect

theorem exec_submit : exec (.submit m w) s = .next (s.wrote s.submitPiece m) := by
  refine next_upCtrl takes w ?_
  have get {f v} := @get_cmdWord_mem Reg.BU_UP_CTRL [(F.BU_UP_CTRL_SUBMIT, 1), (F.BU_UP_CTRL_ARM, 0), (F.BU_UP_CTRL_DISARM, 0),
    (F.BU_UP_CTRL_DISCARD, 0)] (by unfold OneBitFields; decide) f v
  simp [State.upCtrl, get (f := F.BU_UP_CTRL_SUBMIT) (v := 1) (by simp) (by decide) w,
    get (f := F.BU_UP_CTRL_ARM) (v := 0) (by simp) (by decide) w, get (f := F.BU_UP_CTRL_DISARM) (v := 0) (by simp) (by decide) w,
    get (f := F.BU_UP_CTRL_DISCARD) (v := 0) (by simp) (by decide) w]

theorem exec_buArm : exec (.buArm m w) s = .next (s.wrote s.buArm m) := by
  refine next_upCtrl takes w ?_
  have get {f v} := @get_cmdWord_mem Reg.BU_UP_CTRL [(F.BU_UP_CTRL_ARM, 1), (F.BU_UP_CTRL_SUBMIT, 0), (F.BU_UP_CTRL_DISARM, 0),
    (F.BU_UP_CTRL_DISCARD, 0)] (by unfold OneBitFields; decide) f v
  simp [State.upCtrl, get (f := F.BU_UP_CTRL_SUBMIT) (v := 0) (by simp) (by decide) w,
    get (f := F.BU_UP_CTRL_ARM) (v := 1) (by simp) (by decide) w, get (f := F.BU_UP_CTRL_DISARM) (v := 0) (by simp) (by decide) w,
    get (f := F.BU_UP_CTRL_DISCARD) (v := 0) (by simp) (by decide) w]

theorem exec_disarm : exec (.disarm m w) s = .next (s.wrote s.disarm m) := by
  refine next_upCtrl takes w ?_
  have get {f v} := @get_cmdWord_mem Reg.BU_UP_CTRL [(F.BU_UP_CTRL_DISARM, 1), (F.BU_UP_CTRL_SUBMIT, 0), (F.BU_UP_CTRL_ARM, 0),
    (F.BU_UP_CTRL_DISCARD, 0)] (by unfold OneBitFields; decide) f v
  simp [State.upCtrl, get (f := F.BU_UP_CTRL_SUBMIT) (v := 0) (by simp) (by decide) w,
    get (f := F.BU_UP_CTRL_ARM) (v := 0) (by simp) (by decide) w, get (f := F.BU_UP_CTRL_DISARM) (v := 1) (by simp) (by decide) w,
    get (f := F.BU_UP_CTRL_DISCARD) (v := 0) (by simp) (by decide) w]

theorem exec_discard : exec (.discard m w) s = .next (s.wrote s.discard m) := by
  refine next_upCtrl takes w ?_
  have get {f v} := @get_cmdWord_mem Reg.BU_UP_CTRL [(F.BU_UP_CTRL_DISCARD, 1), (F.BU_UP_CTRL_SUBMIT, 0), (F.BU_UP_CTRL_ARM, 0),
    (F.BU_UP_CTRL_DISARM, 0)] (by unfold OneBitFields; decide) f v
  simp [State.upCtrl, get (f := F.BU_UP_CTRL_SUBMIT) (v := 0) (by simp) (by decide) w,
    get (f := F.BU_UP_CTRL_ARM) (v := 0) (by simp) (by decide) w, get (f := F.BU_UP_CTRL_DISARM) (v := 0) (by simp) (by decide) w,
    get (f := F.BU_UP_CTRL_DISCARD) (v := 1) (by simp) (by decide) w]

end

/-- CONFIRM is a write of BU_CTRL. -/
theorem exec_confirm {s : State} {m : Master} (takes : s.takes m Reg.BU_CTRL) (w : Word) :
    exec (.confirm m w) s = .next (s.wrote s.confirmStart m) := by
  refine State.next_busWrite takes (by decide) (by decide) ?_
  change s.writeBu Reg.BU_CTRL (cmdWord Reg.BU_CTRL w [(F.BU_CTRL_CONFIRM, 1)]) = _
  have confirm : F.BU_CTRL_CONFIRM.get (cmdWord Reg.BU_CTRL w [(F.BU_CTRL_CONFIRM, 1)]) = 1 :=
    get_cmdWord_mem (by unfold OneBitFields; decide) List.mem_cons_self (by decide) w
  simp [State.writeBu, confirm]

/-- A piece that fails a check, or is there already (R424 steps 1 to 6). -/
theorem State.submitPiece_failed {s : State} {e : Nat} (fails : s.pieceCheck s.piece = some e) :
    s.submitPiece = if e = 0 then (s.bump Reg.BU_UP_PROG F.BU_UP_PROG_DUP).upEnd 0 else s.upEnd e := by
  unfold State.submitPiece
  cases e <;> simp [fails]

theorem State.upEnd_keeps (s : State) (e : Nat) : (s.upEnd e).flash = s.flash ∧ (s.upEnd e).bu = s.bu := by
  simp [State.upEnd]

/-- R426: DISCARD in a state but ARMED. -/
def State.discarded (s : State) : State :=
  if (s.region 2).2 = 0 then s else (s.flashErase (s.campBase + 0x2000) 0x22000).flashErase s.campBundle s.slotSize

theorem State.discarded_bu (s : State) : s.discarded.bu = s.bu := by
  unfold State.discarded
  split <;> rfl

/-- REJECTED cleared in the boot log. -/
def State.rejectCleared (s : State) : State :=
  if s.bu.log.rejected then s.logWrite { s.bu.log with flags := logFlags false false s.bu.log.prevValid } else s

theorem State.discard_eq {s : State} (unarmed : s.bu.camp ≠ .armed) : s.discard = (s.discarded.rejectCleared.setCamp .empty).upEnd 0 :=
  if_neg unarmed

theorem bit_logFlags_armed (armed rejected prev : Bool) : bit (logFlags armed rejected prev) 0 = armed := by
  cases armed <;> cases rejected <;> cases prev <;> rfl

theorem bit_logFlags_rejected (armed rejected prev : Bool) : bit (logFlags armed rejected prev) 1 = rejected := by
  cases armed <;> cases rejected <;> cases prev <;> rfl

theorem State.rejectCleared_log (s : State) : s.rejectCleared.bu.log.rejected = false := by
  unfold State.rejectCleared
  split
  · exact bit_logFlags_rejected _ _ _
  next kept => exact Bool.eq_false_iff.2 kept

/-- R426: after DISCARD no piece is stored. -/
theorem State.discarded_pieces {s : State} (inLog : ∀ o ∈ s.bu.logAt, o < 0x2000) {k : Nat} (small : k < 4160) :
    s.discarded.rejectCleared.pieceIn k = false := by
  have regions : s.discarded.rejectCleared.bu.regions = s.bu.regions := by
    unfold State.rejectCleared
    split
    · exact (State.logWrite_spec _ _).1.trans (congrArg (·.regions) s.discarded_bu)
    · rw [State.discarded_bu]
  have region (i : Nat) : s.discarded.rejectCleared.region i = s.region i := congrArg (·.getD i (0, 0)) regions
  by_cases none' : (s.region 2).2 = 0
  · simp [State.pieceIn, region, none']
  · have base : s.discarded.campBase = s.campBase := congrArg (fun b => (b.regions.getD 2 (0, 0)).1) s.discarded_bu
    have blank : s.discarded.flashByte (s.campBase + 0x2000 + k / 8) = flashDefault := by
      rw [State.discarded, if_neg none', State.flashByte_erase]
      split
      · rfl
      · rw [State.flashByte_erase, if_pos (by omega)]
    refine State.pieceIn_of_blank ?_
    rw [show s.discarded.rejectCleared.campBase = s.campBase from congrArg Prod.fst (region 2)]
    unfold State.rejectCleared
    split
    · exact State.logWrite_blank _ (by rw [State.discarded_bu]; exact inLog) (by rw [base]; omega) blank
    · exact blank

/-- Settles O53: CONFIRM and its time, the pieces by their checks, and the three operations on base camp. -/
theorem fieldUpdate : Obligations.FieldUpdate := by
  unfold Obligations.FieldUpdate
  refine ⟨⟨?confirm, ?timeout⟩, ?submit, fun s m w takes => ⟨?arm, ?disarm, ?discard⟩⟩
  case confirm =>
    refine fun s m w takes => ⟨s.confirmStart, exec_confirm takes w, fun other => if_pos other, fun first => ?_⟩
    rw [State.confirmStart, if_neg (not_not_intro first)]
    exact ⟨rfl, rfl, rfl⟩
  case timeout =>
    refine fun s out => ⟨s.confirmTimeout, State.next_act out rfl, fun early => ?_, fun due ref print => ?_, fun due ref print => ?_⟩
    · exact if_pos (by simp [early])
    · exact (if_neg (by simp [due, ref])).trans (if_pos print)
    · exact (if_neg (by simp [due, ref])).trans (if_neg print)
  case submit =>
    intro s m w takes p kind index num a
    refine ⟨s.submitPiece, exec_submit takes w, fun e fails => ?_, fun good there stored => ?_⟩
    · rw [State.submitPiece_failed fails]
      by_cases zero : e = 0
      · rw [if_pos zero]
        obtain ⟨flash, bu⟩ := (s.bump Reg.BU_UP_PROG F.BU_UP_PROG_DUP).upEnd_keeps 0
        exact ⟨flash, congrArg (·.camp) bu, fun other => absurd zero other, fun _ => rfl⟩
      · rw [if_neg zero]
        obtain ⟨flash, bu⟩ := s.upEnd_keeps e
        exact ⟨flash, congrArg (·.camp) bu, fun _ => rfl, fun same => absurd same zero⟩
    · have failed : ¬((s.region 2).2 = 0 ∨ (s.flashProgram a (slice p 64 4096)).flashRead a 4096 ≠ slice p 64 4096) := by
        simp [there, stored]
      unfold State.submitPiece
      simp only [show s.pieceCheck s.piece = none from good]
      exact if_neg (by simpa using failed)
  case arm =>
    refine ⟨s.buArm, exec_buArm takes w, fun other => if_pos other, fun ready => ?_⟩
    rw [State.buArm, if_neg (not_not_intro ready), (State.upEnd_keeps _ _).2]
    exact ⟨rfl, bit_logFlags_armed _ _ _, rfl⟩
  case disarm =>
    refine ⟨s.disarm, exec_disarm takes w, fun other => if_pos other, fun armed => ?_⟩
    rw [State.disarm, if_neg (not_not_intro armed), (State.upEnd_keeps _ _).2]
    exact ⟨rfl, bit_logFlags_armed _ _ _⟩
  case discard =>
    refine ⟨s.discard, exec_discard takes w, fun armed => if_pos armed, fun other => ?_⟩
    obtain ⟨flash, bu⟩ := (s.discarded.rejectCleared.setCamp .empty).upEnd_keeps 0
    rw [State.discard_eq other]
    refine ⟨by rw [bu]; rfl, by rw [bu]; exact s.discarded.rejectCleared_log, fun inLog k small => ?_⟩
    have same : ((s.discarded.rejectCleared.setCamp .empty).upEnd 0).pieceIn k = s.discarded.rejectCleared.pieceIn k := by
      unfold State.pieceIn State.campBase State.region State.flashRead
      rw [flash, bu]
      rfl
    rw [same]
    exact State.discarded_pieces inLog small

end Sys2Proof.Machine
end

section
/-! PROOFS of O54: READ and COMMIT of the settings sets. -/

namespace Sys2Proof.Machine

/-! ## Transfers of the security core -/

/-- A state that differs in registers, with an event raised. -/
theorem State.raise_marked {s t : State} (marked : t = { s with regs := t.regs }) (id : Nat) :
    ∃ regs, RaiseKeeps { s with regs := regs } (t.raise id) :=
  ⟨t.regs, marked ▸ t.raise_keeps id 0⟩

/-- A refused transfer is recorded in registers and raised. -/
theorem State.fabricRefuse_raises (s : State) (r : Nat) (e : Refused) :
    ∃ regs, RaiseKeeps { s with regs := regs } (s.fabricRefuse r e) := by
  cases e <;> exact State.raise_marked rfl _

/-- A write that is no plate's moves bytes to DRAM or is refused, and programs no flash. -/
theorem State.writeAs_flash (s : State) {r : Nat} (addr : Nat) (bs : List Byte) (other : r ≠ 3) : (s.writeAs r addr bs).2.flash = s.flash := by
  unfold State.writeAs
  split
  next e _ =>
    obtain ⟨regs, keeps⟩ := s.fabricRefuse_raises r e
    exact keeps.flash
  next =>
    dsimp only
    rw [if_neg other]
    rfl

/-! ## BU_SET_CTRL -/

section
variable {s : State} {m : Master} (takes : s.takes m Reg.BU_SET_CTRL) (w : Word)
include takes

theorem exec_settingsRead : exec (.settingsRead m w) s = .next (s.wrote s.settingsRead m) := by
  obtain ⟨read, commit⟩ := get_cmdWord_pair (a := Reg.BU_SET_CTRL) (f := F.BU_SET_CTRL_READ) (g := F.BU_SET_CTRL_COMMIT) (by decide)
    (by decide) (by decide) w
  refine State.next_busWrite takes (by decide) (by decide) ?_
  change s.writeBu Reg.BU_SET_CTRL (cmdWord Reg.BU_SET_CTRL w _) = _
  rw [State.writeBu, if_neg (by decide), if_neg (by decide), if_pos rfl]
  simp [read, commit]

theorem exec_settingsCommit : exec (.settingsCommit m w) s = .next (s.wrote s.settingsCommit m) := by
  obtain ⟨commit, read⟩ := get_cmdWord_pair (a := Reg.BU_SET_CTRL) (f := F.BU_SET_CTRL_COMMIT) (g := F.BU_SET_CTRL_READ) (by decide)
    (by decide) (by decide) w
  refine State.next_busWrite takes (by decide) (by decide) ?_
  change s.writeBu Reg.BU_SET_CTRL (cmdWord Reg.BU_SET_CTRL w _) = _
  rw [State.writeBu, if_neg (by decide), if_neg (by decide), if_pos rfl]
  simp [read, commit]

end

/-- The end of a command leaves the memories, and its error stands. -/
theorem State.setEnd_spec (s : State) (e : Nat) (code : e < 16) : (s.setEnd e).flash = s.flash ∧ (s.setEnd e).dram = s.dram ∧
    (s.setEnd e).fld Reg.BU_SET_STAT F.BU_SET_STAT_ERR = e ∧ (s.setEnd e).rdN Reg.BU_SET_LEN = s.rdN Reg.BU_SET_LEN := by
  have own : (s.setEnd e).fld Reg.BU_SET_STAT F.BU_SET_STAT_ERR = (s.setFld Reg.BU_SET_STAT F.BU_SET_STAT_ERR e).fld Reg.BU_SET_STAT
      F.BU_SET_STAT_ERR := State.fld_setFld_other _ _ _ _ _ (by decide) (by decide) (by decide)
  have len : (s.setEnd e).rd Reg.BU_SET_LEN = s.rd Reg.BU_SET_LEN := by
    rw [State.setEnd, State.rd_flag_ne _ _ (by decide), State.rd_setFld_ne _ _ _ (by decide)]
  refine ⟨by rw [State.setEnd, State.flag_flash, State.setFld_flash], by rw [State.setEnd, State.flag_dram, State.setFld_dram], ?_,
    congrArg BitVec.toNat len⟩
  rw [own, State.fld_setFld _ _ _ _ (by decide) (by decide)]
  exact Nat.mod_eq_of_lt code

/-- The firmware records READ gives (R431). -/
def State.selectedRecords (s : State) : List Byte :=
  match s.bu.setCopy.bind s.setIn with
  | some x => x.firmware.flatMap (·.2)
  | none => []

/-- READ moves the records to DRAM, unless there are none, and tells their length. -/
theorem State.settingsRead_spec (s : State) : s.settingsRead.flash = s.flash ∧
    s.settingsRead.fld Reg.BU_SET_STAT F.BU_SET_STAT_ERR = 0 ∧
    s.settingsRead.rdN Reg.BU_SET_LEN = s.selectedRecords.length % 2 ^ 32 ∧
    (s.selectedRecords = [] → s.settingsRead.dram = s.dram) := by
  have same : s.settingsRead = (((if s.selectedRecords.isEmpty then (true, s)
      else s.writeAs 8 (s.rdN Reg.BU_SET_ADDR * 64) s.selectedRecords).2).wrN Reg.BU_SET_LEN s.selectedRecords.length).setEnd 0 := by
    unfold State.settingsRead State.selectedRecords
    rfl
  rw [same]
  have flash : (if s.selectedRecords.isEmpty then (true, s)
      else s.writeAs 8 (s.rdN Reg.BU_SET_ADDR * 64) s.selectedRecords).2.flash = s.flash := by
    split
    · rfl
    · exact s.writeAs_flash _ _ (by decide)
  generalize moved : (if s.selectedRecords.isEmpty then (true, s)
      else s.writeAs 8 (s.rdN Reg.BU_SET_ADDR * 64) s.selectedRecords) = x at flash
  obtain ⟨flash', dram, err, len⟩ := (x.2.wrN Reg.BU_SET_LEN s.selectedRecords.length).setEnd_spec 0 (by decide)
  refine ⟨flash'.trans flash, err, len.trans ?_, fun none' => dram.trans ?_⟩
  · rw [State.rdN, State.rd_wrN_self, BitVec.toNat_ofNat]
  · rw [← moved, none']
    rfl

/-- The copy COMMIT writes (R432). -/
def State.commitCopy (s : State) : Nat :=
  match s.bu.log.phase, s.bu.setCopy with
  | 3, some c => 1 - c
  | _, _ => s.lowCopy

/-- The bytes COMMIT reads from DRAM. -/
def State.commitBytes (s : State) : List Byte :=
  s.fabricCipher 8 (s.rdN Reg.BU_SET_ADDR * 64) (s.dramRead (s.rdN Reg.BU_SET_ADDR * 64) (s.rdN Reg.BU_SET_LEN))

/-- A record that is none of firmware's (R430). -/
def foreignRecord (r : Nat × List Byte) : Prop := r.1 < 0x100 ∨ 0xFFFE < r.1

section
variable {s : State} (granted : s.fabricCheck 0 8 (s.rdN Reg.BU_SET_ADDR * 64) (s.rdN Reg.BU_SET_LEN) false = none)
include granted

theorem State.settingsCommit_garbled (garbled : setRecords (s.rdN Reg.BU_SET_LEN + 1) s.commitBytes = none) :
    s.settingsCommit = s.setEnd 4 := by
  unfold State.commitBytes at garbled
  unfold State.settingsCommit
  simp only [State.readAs_granted granted, garbled]

theorem State.settingsCommit_records {rs : List (Nat × List Byte)} (records : setRecords (s.rdN Reg.BU_SET_LEN + 1) s.commitBytes = some rs) :
    s.settingsCommit =
      if rs.any fun r => r.1 < 0x100 || 0xFFFE < r.1 then s.setEnd 4
      else (s.writeSet s.commitCopy (s.rdN Reg.BU_SET_VER) rs).2.setEnd
        (if (s.writeSet s.commitCopy (s.rdN Reg.BU_SET_VER) rs).1 then 0 else 1) := by
  unfold State.commitBytes at records
  unfold State.settingsCommit
  simp only [State.readAs_granted granted, records]
  rfl

end

/-- Settles O54: what READ gives with and without a set, and the ends of COMMIT. -/
theorem settingsSets : Obligations.SettingsSets := by
  unfold Obligations.SettingsSets
  refine ⟨fun s m w takes => ?read, ?commit⟩
  case read =>
    obtain ⟨flash, err, len, dram⟩ := s.settingsRead_spec
    refine ⟨s.settingsRead, exec_settingsRead takes w, flash, err, fun none' => ?_, fun c x copy set short => ?_⟩
    · have empty : s.selectedRecords = [] := by
        unfold State.selectedRecords
        rw [none']
        rfl
      exact ⟨by rw [len, empty]; rfl, dram empty⟩
    · have records : s.selectedRecords = x.firmware.flatMap (·.2) := by
        unfold State.selectedRecords
        simp only [copy, Option.bind_some, set]
      rw [len, records]
      exact Nat.mod_eq_of_lt short
  case commit =>
    intro s m w takes n a granted b c
    refine ⟨s.settingsCommit, exec_settingsCommit takes w, State.settingsCommit_garbled granted, fun rs records foreign => ?_,
      fun rs records own => ?_⟩
    · rw [State.settingsCommit_records granted records, if_pos]
      simpa using foreign
    · refine (State.settingsCommit_records granted records).trans (if_neg ?_)
      simpa using own

end Sys2Proof.Machine
end

section
/-! PROOFS of O37: packets are sent by class, kept until acknowledged, and replayed. -/

namespace Sys2Proof.Machine

/-! ## Groups replaced, and what sending leaves -/

theorem State.grp_setGrp_self {s : State} {g : Nat} (x : LinkGroup) (there : g < s.hl.groups.length) : (s.setGrp g x).grp g = x :=
  getD_set_self _ _ there

theorem State.grp_setGrp_ne (s : State) {g h : Nat} (x : LinkGroup) (other : h ≠ g) : (s.setGrp g x).grp h = s.grp h :=
  getD_set_ne _ _ _ other

theorem State.length_setGrp (s : State) (g : Nat) (x : LinkGroup) : (s.setGrp g x).hl.groups.length = s.hl.groups.length :=
  List.length_set

/-- Two states that differ in lanes alone. -/
def State.OnlyLanes (s t : State) : Prop := t = { s with hl := { s.hl with lanes := t.hl.lanes } }

theorem State.OnlyLanes.refl (s : State) : s.OnlyLanes s := rfl

theorem State.OnlyLanes.trans {s t u : State} (h : s.OnlyLanes t) (k : t.OnlyLanes u) : s.OnlyLanes u := by
  unfold State.OnlyLanes at *
  rw [k, h]

theorem State.OnlyLanes.grp {s t : State} (h : s.OnlyLanes t) (g : Nat) : t.grp g = s.grp g := by
  rw [h]
  rfl

theorem State.OnlyLanes.regs {s t : State} (h : s.OnlyLanes t) : t.regs = s.regs := by
  rw [h]

theorem State.setLane_onlyLanes (s : State) (k : Nat) (l : LaneState) : s.OnlyLanes (s.setLane k l) := rfl

/-- A fold that replaces lanes. -/
theorem State.foldl_onlyLanes {α : Type} {f : State → α → State} (step : ∀ s x, State.OnlyLanes s (f s x)) (l : List α) (s : State) :
    s.OnlyLanes (l.foldl f s) := by
  induction l generalizing s with
  | nil => exact .refl s
  | cons x l ih => exact (step s x).trans (ih _)

theorem State.wiresClear_onlyLanes (s : State) (base n : Nat) : s.OnlyLanes (s.wiresClear base n) :=
  State.foldl_onlyLanes (fun s _ => s.setLane_onlyLanes _ _) _ s

theorem State.stripe_onlyLanes (base n i : Nat) (bs : List (Fin 4 × List Byte)) (s : State) : s.OnlyLanes (State.stripe base n i bs s) := by
  induction bs generalizing i s with
  | nil => exact .refl s
  | cons b bs ih => exact (s.setLane_onlyLanes _ _).trans (ih _ _)

/-- What sending on a group leaves: of the group all but its place in the stream, the other groups, and all but the links. -/
structure State.Sends (s : State) (g : Nat) (t : State) : Prop where
  own : ∃ n, t.grp g = { s.grp g with stream := n }
  others : ∀ h, h ≠ g → t.grp h = s.grp h
  length : t.hl.groups.length = s.hl.groups.length
  rest : t = { s with hl := { s.hl with groups := t.hl.groups, lanes := t.hl.lanes } }

theorem State.sendBlocks_sends (s : State) (g : Nat) (bs : List (Fin 4 × List Byte)) : s.Sends g (s.sendBlocks g bs) := by
  unfold State.sendBlocks
  dsimp only
  split
  · exact ⟨⟨_, rfl⟩, fun _ _ => rfl, rfl, rfl⟩
  · generalize moved : s.setGrp g { s.grp g with stream := (s.grp g).stream + bs.length } = t
    have lanes := (t.wiresClear_onlyLanes (s.laneBase g) (s.grp g).lanes).trans
      (State.stripe_onlyLanes (s.laneBase g) (s.grp g).lanes (s.grp g).stream bs _)
    generalize State.stripe _ _ _ bs _ = u at lanes ⊢
    subst moved
    refine ⟨?_, fun h other => (lanes.grp h).trans (s.grp_setGrp_ne _ other), ?_, ?_⟩
    · rw [lanes.grp g]
      by_cases there : g < s.hl.groups.length
      · exact ⟨_, State.grp_setGrp_self _ there⟩
      · have beyond : s.hl.groups.length ≤ g := Nat.le_of_not_lt there
        rw [State.grp_of_length_le beyond, State.grp_of_length_le ((s.length_setGrp g _).le.trans beyond)]
        exact ⟨_, rfl⟩
    · rw [lanes]
      exact s.length_setGrp g _
    · rw [lanes]
      rfl

theorem State.Sends.regs {s t : State} {g : Nat} (sent : s.Sends g t) : t.regs = s.regs := by
  rw [sent.rest]

theorem State.Sends.now {s t : State} {g : Nat} (sent : s.Sends g t) : t.now = s.now := by
  rw [sent.rest]

/-- A block sent is kept as the group's last. -/
theorem State.sendBlock_spec (s : State) {g : Nat} (bs : List Byte) (there : g < s.hl.groups.length) :
    (∃ n, (s.sendBlock g bs).grp g = { s.grp g with block := bs, stream := n }) ∧ (∀ h, h ≠ g → (s.sendBlock g bs).grp h = s.grp h) ∧
    (s.sendBlock g bs).hl.groups.length = s.hl.groups.length ∧
    s.sendBlock g bs = { s with hl := { s.hl with groups := (s.sendBlock g bs).hl.groups, lanes := (s.sendBlock g bs).hl.lanes } } := by
  obtain ⟨⟨n, own⟩, others, length, rest⟩ := (s.setGrp g { s.grp g with block := bs }).sendBlocks_sends g (controlBlocks bs)
  refine ⟨⟨n, own.trans ?_⟩, fun h other => (others h other).trans (s.grp_setGrp_ne _ other), length.trans (s.length_setGrp _ _), rest⟩
  rw [State.grp_setGrp_self _ there]

/-! ## Transmission -/

/-- A packet is filled in as it starts, and keeps its flags. -/
theorem State.fillPkt_flags (s : State) (p : Pkt) : (s.fillPkt p).flags = p.flags := by
  unfold State.fillPkt
  split
  · rfl
  · split <;> rfl

theorem State.transmit_none {s : State} {g : Nat} (none' : (s.grp g).nextPkt = none) : s.transmit g = s := by
  unfold State.transmit
  simp only [none']

/-- The credit of a class that a packet takes. -/
def LinkGroup.charged (x : LinkGroup) (q : Pkt) : LinkGroup :=
  if pktClass q.ty < 3 then { x with creditPri := x.creditPri - q.credits } else { x with creditReq := x.creditReq - q.credits }

/-- A sequenced packet on its way: it stays in the replay buffer (R329). -/
def LinkGroup.started (x : LinkGroup) (p q : Pkt) : LinkGroup :=
  { x.charged q with waitq := x.waitq.erase p, sent := [q], txSeq := (x.txSeq + 1) % 4096, replay := x.replay ++ [q] }

/-- ROOT's status as last reported follows an EVT of the controller's own. -/
def State.evtStarted (s : State) (q : Pkt) : State :=
  if q.ty = 6 && !q.fwd then { s with hl := { s.hl with evtRoot := 8 * s.ownStatus 0 + s.dome 0 } } else s

theorem State.transmit_sequenced {s : State} {g : Nat} {p : Pkt} (next : (s.grp g).nextPkt = some p) (active : (s.grp g).st = .active)
    (sequenced : p.flags.testBit 2 = false)
    (room : (s.grp g).held + ({ s.fillPkt p with seq := (s.grp g).txSeq } : Pkt).bytes.length ≤ 65536) :
    s.transmit g = ((s.setGrp g ((s.grp g).started p { s.fillPkt p with seq := (s.grp g).txSeq })).sendBlocks g
      (packetBlocks ({ s.fillPkt p with seq := (s.grp g).txSeq } : Pkt).bytes)).evtStarted { s.fillPkt p with seq := (s.grp g).txSeq } := by
  have bit : (s.fillPkt p).flags.testBit 2 = false := by rw [s.fillPkt_flags, sequenced]
  have fits : ¬65536 < (s.grp g).held + ({ s.fillPkt p with seq := (s.grp g).txSeq } : Pkt).bytes.length := Nat.not_lt.2 room
  unfold State.transmit
  dsimp only
  rw [next]
  dsimp only
  rw [if_neg (not_not_intro active)]
  simp only [bit, if_false, Bool.false_eq_true, Bool.not_false, Bool.true_and, decide_eq_true_eq, fits]
  unfold LinkGroup.started LinkGroup.charged
  by_cases pri : pktClass (s.fillPkt p).ty < 3 <;> simp only [pri, if_true, if_false] <;> rfl

/-- The packet that starts next is one that waits, and its credit covers it (R331). -/
theorem LinkGroup.nextPkt_spec {x : LinkGroup} {p : Pkt} (next : x.nextPkt = some p) :
    p ∈ x.waitq ∧ p.credits ≤ (if pktClass p.ty = 3 then x.creditReq else x.creditPri) := by
  unfold LinkGroup.nextPkt at next
  obtain ⟨c, -, found⟩ := List.exists_of_findSome?_eq_some next
  obtain ⟨first, fits⟩ := Option.filter_eq_some_iff.1 found
  refine ⟨?_, by simpa using fits⟩
  have listed : p ∈ x.waitq.filter fun p => decide (pktClass p.ty = c) := by
    split at first
    · rcases (Option.orElse_eq_some _ _ _).1 first with own | ⟨-, head⟩
      · exact List.mem_of_find?_eq_some own
      · exact List.mem_of_head? head
    · exact List.mem_of_head? first
  exact (List.mem_filter.1 listed).1

/-! ## Acknowledgements -/

/-- The packets still held after an ACK that names a SEQ (R329). -/
def acked (replay : List Pkt) (seq : Nat) : List Pkt :=
  if replay.any fun p => p.seq = seq then (replay.dropWhile fun p => p.seq ≠ seq).drop 1 else replay

theorem acked_named {l r : List Pkt} {q : Pkt} (earlier : ∀ p ∈ l, p.seq ≠ q.seq) : acked (l ++ q :: r) q.seq = r := by
  unfold acked
  rw [if_pos (by simp), List.dropWhile_append_of_pos (by simpa using earlier)]
  simp

theorem acked_unnamed {replay : List Pkt} {seq : Nat} (none' : ∀ p ∈ replay, p.seq ≠ seq) : acked replay seq = replay :=
  if_neg (by simpa using none')

theorem State.ackBlock_grp {s : State} {g : Nat} (there : g < s.hl.groups.length) (seq creq cpri : Nat) :
    ∃ n, (s.ackBlock g seq creq cpri).grp g =
      { s.grp g with replay := acked (s.grp g).replay seq, resends := n, creditReq := creq, creditPri := cpri } :=
  ⟨_, State.grp_setGrp_self (s := s) _ there⟩

/-! ## Replay -/

theorem State.replayFrom_resends {s : State} {g : Nat} (active : (s.grp g).st = .active) (held : (s.grp g).replay ≠ [])
    (few : (s.grp g).resends < 4) : s.replayFrom g = (s.setGrp g { s.grp g with resends := (s.grp g).resends + 1 }).resend g := by
  unfold State.replayFrom
  simp only [active, ne_eq, not_true_eq_false, decide_false, Bool.false_or, List.isEmpty_iff, held, if_false, Nat.not_le.2 few]

theorem State.replayFrom_retrains {s : State} {g : Nat} (active : (s.grp g).st = .active) (held : (s.grp g).replay ≠ [])
    (many : 4 ≤ (s.grp g).resends) : s.replayFrom g = s.startRetrain g := by
  unfold State.replayFrom
  simp only [active, ne_eq, not_true_eq_false, decide_false, Bool.false_or, List.isEmpty_iff, held, if_false, many, if_true]

theorem State.resend_grp {s : State} {g : Nat} (there : g < s.hl.groups.length) :
    ∃ n, (s.resend g).grp g = { s.grp g with sent := (s.grp g).replay, stream := n } := by
  obtain ⟨⟨n, own⟩, -, -, -⟩ := (s.setGrp g { s.grp g with sent := (s.grp g).replay }).sendBlocks_sends g
    ((s.grp g).replay.flatMap fun p => packetBlocks p.bytes)
  rw [State.grp_setGrp_self _ there] at own
  exact ⟨n, own⟩

/-- R330: all that is held is resent in order, four times, and then the group retrains. -/
theorem State.replayFrom_spec {s : State} {g : Nat} (active : (s.grp g).st = .active) (held : (s.grp g).replay ≠ []) :
    ((s.replayFrom g).grp g).replay = (s.grp g).replay ∧
    ((s.grp g).resends < 4 → ((s.replayFrom g).grp g).sent = (s.grp g).replay ∧
      ((s.replayFrom g).grp g).resends = (s.grp g).resends + 1 ∧ ((s.replayFrom g).grp g).st = .active) ∧
    (4 ≤ (s.grp g).resends → ((s.replayFrom g).grp g).st = .train ∧ ((s.replayFrom g).grp g).retrain = true) := by
  have there := State.lt_of_active active
  rcases Nat.lt_or_ge (s.grp g).resends 4 with few | many
  · obtain ⟨n, own⟩ := State.resend_grp (s := s.setGrp g { s.grp g with resends := (s.grp g).resends + 1 }) (g := g)
      (by rwa [s.length_setGrp])
    rw [State.grp_setGrp_self _ there] at own
    rw [State.replayFrom_resends active held few, own]
    exact ⟨rfl, fun _ => ⟨rfl, rfl, active⟩, fun many => absurd many (Nat.not_le.2 few)⟩
  · rw [State.replayFrom_retrains active held many, State.startRetrain_grp, if_pos ⟨rfl, active⟩]
    exact ⟨rfl, fun few => absurd few (Nat.not_lt.2 many), fun _ => ⟨rfl, rfl⟩⟩

/-- Settles O37: the start of a packet, what an ACK releases, and the replay. -/
theorem packetsAreKept : Obligations.PacketsAreKept := by
  unfold Obligations.PacketsAreKept
  refine ⟨fun s g out ref none' => State.next_onLanes out ref (State.transmit_none none'), ?starts, fun x p => LinkGroup.nextPkt_spec,
    ?ack, ?replay, fun s g out ref active => State.next_onLanes out ref (if_pos active)⟩
  case starts =>
    intro s g p out ref next active sequenced _ x q room
    obtain ⟨⟨n, own⟩, -, -, -⟩ := (s.setGrp g.val (x.started p q)).sendBlocks_sends g.val (packetBlocks q.bytes)
    rw [State.grp_setGrp_self _ (State.lt_of_active active)] at own
    have kept (t : State) : (t.evtStarted q).grp g.val = t.grp g.val := by
      unfold State.evtStarted
      split <;> rfl
    refine ⟨_, State.next_onLanes out ref (State.transmit_sequenced next active sequenced room), ?_⟩
    rw [kept, own]
    exact ⟨rfl, rfl, rfl, rfl⟩
  case ack =>
    intro s g seq creq cpri out ref there x
    obtain ⟨n, own⟩ := State.ackBlock_grp there seq creq cpri
    refine ⟨_, State.next_onLanes out ref rfl, ?_⟩
    rw [own]
    refine ⟨rfl, rfl, ?_, acked_unnamed⟩
    rintro l q r held rfl earlier
    change acked x.replay q.seq = r
    rw [held, acked_named earlier]
  case replay =>
    rintro s g c out ref (rfl | ⟨n, rfl⟩) x active held <;>
      exact ⟨_, State.next_onLanes out ref rfl, State.replayFrom_spec active held⟩

end Sys2Proof.Machine
end

section
/-! PROOFS of O38: a packet built is the packet read. -/

namespace Sys2Proof.Machine

/-! ## Numbers in byte strings -/

theorem leNat_leBytes (n v : Nat) : leNat (leBytes n v) = v % 256 ^ n := by
  induction n generalizing v with
  | zero => simp [leBytes, leNat, Nat.mod_one]
  | succ n ih =>
    simp only [leBytes, leNat, ih, BitVec.toNat_ofNat]
    rw [show 256 ^ (n + 1) = 256 * 256 ^ n by ring, Nat.mod_mul]

/-- A slice behind the first part of a byte string. -/
theorem slice_skip {xs ys : List Byte} {i : Nat} (n : Nat) (beyond : xs.length ≤ i) : slice (xs ++ ys) i n = slice ys (i - xs.length) n := by
  unfold slice
  rw [List.drop_append, List.drop_eq_nil_of_le beyond, List.nil_append]

theorem slice_here {xs ys : List Byte} {n : Nat} (length : xs.length = n) : slice (xs ++ ys) 0 n = xs := by
  simpa using slice_append_part (xs := []) (zs := ys) rfl length

theorem leAt_skip {k v i : Nat} (n : Nat) (ys : List Byte) (beyond : k ≤ i) : leAt (leBytes k v ++ ys) i n = leAt ys (i - k) n := by
  unfold leAt
  rw [slice_skip n (by rwa [length_leBytes]), length_leBytes]

theorem leAt_here (n v : Nat) (ys : List Byte) : leAt (leBytes n v ++ ys) 0 n = v % 256 ^ n := by
  unfold leAt
  rw [slice_here (length_leBytes n v), leNat_leBytes]

/-! ## CRC-32 -/

theorem crcStepR_lt {poly c : Nat} (p : poly < 2 ^ 32) (h : c < 2 ^ 32) : crcStepR poly c < 2 ^ 32 := by
  unfold crcStepR
  split
  · exact Nat.xor_lt_two_pow (by omega) p
  · omega

theorem crcByteR_lt {poly c : Nat} (p : poly < 2 ^ 32) (h : c < 2 ^ 32) (b : Byte) : crcByteR poly c b < 2 ^ 32 := by
  have start : c ^^^ b.toNat < 2 ^ 32 := Nat.xor_lt_two_pow h (by have := b.isLt; omega)
  unfold crcByteR
  generalize c ^^^ b.toNat = x at start
  generalize List.range 8 = l
  induction l generalizing x with
  | nil => exact start
  | cons i l ih => exact ih _ (crcStepR_lt p start)

theorem crc32_lt (bs : List Byte) : crc32 bs < 2 ^ 32 := by
  have register (c : Nat) (h : c < 2 ^ 32) : bs.foldl (crcByteR 0xEDB88320) c < 2 ^ 32 := by
    induction bs generalizing c with
    | nil => exact h
    | cons b bs ih => exact ih _ (crcByteR_lt (by decide) h b)
  exact Nat.xor_lt_two_pow (register _ (by decide)) (by decide)

/-- What ends in its own CRC-32 passes the check. -/
theorem pktCrcOk_append {b : List Byte} (long : 24 ≤ b.length) : pktCrcOk (b ++ leBytes 4 (crc32 b)) = true := by
  have length : (b ++ leBytes 4 (crc32 b)).length = b.length + 4 := by rw [List.length_append, length_leBytes]
  have read : leAt (b ++ leBytes 4 (crc32 b)) b.length 4 = crc32 b := by
    have here := leAt_here 4 (crc32 b) []
    rw [List.append_nil] at here
    unfold leAt at here ⊢
    rw [slice_skip 4 le_rfl, Nat.sub_self, here]
    exact Nat.mod_eq_of_lt (crc32_lt b)
  unfold pktCrcOk
  rw [length, Nat.add_sub_cancel, List.take_left' rfl, read]
  simp only [Bool.and_eq_true, decide_eq_true_eq, and_true]
  omega

/-! ## The packet -/

/-- The trailer of a packet (R335). -/
def Pkt.trailer (p : Pkt) : List Byte :=
  match p.auth with
  | some a => leBytes 8 a.1 ++ a.2
  | none => []

theorem Pkt.bytes_eq (p : Pkt) :
    p.bytes = (p.header ++ (p.payload ++ p.trailer)) ++ leBytes 4 (crc32 (p.header ++ (p.payload ++ p.trailer))) := by
  rw [← List.append_assoc p.header]
  rfl

theorem Pkt.length_header (p : Pkt) : p.header.length = 24 := by
  simp [Pkt.header]

/-- The fields of a header, each within its width, read back (R327). -/
structure Pkt.HeaderReads (p : Pkt) (bs : List Byte) : Prop where
  ty : leAt bs 0 1 = p.ty
  flags : leAt bs 1 1 = p.flags
  len : leAt bs 2 2 = p.len
  seq : leAt bs 4 2 = p.seq
  dest : leAt bs 6 1 = p.dest
  src : leAt bs 7 1 = p.src
  tag : leAt bs 8 2 = p.tag
  status : leAt bs 0x0A 2 = p.status
  zero : leAt bs 0x0C 4 = 0
  addr : leAt bs 0x10 8 = p.addr

/-- Each field of a header fits its place. -/
structure Pkt.Fits (p : Pkt) : Prop where
  ty : p.ty < 256
  flags : p.flags < 256
  len : p.len < 65536
  seq : p.seq < 65536
  dest : p.dest < 256
  src : p.src < 256
  tag : p.tag < 65536
  status : p.status < 65536
  addr : p.addr < 2 ^ 64

theorem Pkt.header_reads {p : Pkt} (fits : p.Fits) (rest : List Byte) : p.HeaderReads (p.header ++ rest) := by
  have at1 (v : Nat) (ys : List Byte) (small : v < 256) : leAt (leBytes 1 v ++ ys) 0 1 = v :=
    (leAt_here 1 v ys).trans (Nat.mod_eq_of_lt small)
  have at2 (v : Nat) (ys : List Byte) (small : v < 65536) : leAt (leBytes 2 v ++ ys) 0 2 = v :=
    (leAt_here 2 v ys).trans (Nat.mod_eq_of_lt small)
  unfold Pkt.header
  simp only [List.append_assoc]
  constructor
  case ty => exact at1 _ _ fits.ty
  all_goals
    simp (disch := decide) only [leAt_skip, Nat.reduceSub]
  case flags => exact at1 _ _ fits.flags
  case len => exact at2 _ _ fits.len
  case seq => exact at2 _ _ fits.seq
  case dest => exact at1 _ _ fits.dest
  case src => exact at1 _ _ fits.src
  case tag => exact at2 _ _ fits.tag
  case status => exact at2 _ _ fits.status
  case zero => exact leAt_here 4 0 _
  case addr => exact (leAt_here 8 _ _).trans (Nat.mod_eq_of_lt fits.addr)

/-- What follows the header, read back: the payload and the trailer. -/
theorem Pkt.body_reads (p : Pkt) (rest : List Byte) {n : Nat} (length : p.payload.length = n) :
    slice (p.header ++ (p.payload ++ p.trailer) ++ rest) 24 n = p.payload ∧
    ∀ a ∈ p.auth, a.1 < 2 ^ 64 → a.2.length = 16 →
      leAt (p.header ++ (p.payload ++ p.trailer) ++ rest) (24 + n) 8 = a.1 ∧
      slice (p.header ++ (p.payload ++ p.trailer) ++ rest) (24 + n + 8) 16 = a.2 := by
  simp only [List.append_assoc]
  refine ⟨slice_append_part p.length_header length, fun a auth seq tag => ?_⟩
  have trailer : p.trailer = leBytes 8 a.1 ++ a.2 := by
    unfold Pkt.trailer
    rw [auth]
  have front : (p.header ++ p.payload).length = 24 + n := by rw [List.length_append, p.length_header, length]
  rw [trailer]
  constructor
  · have split : p.header ++ (p.payload ++ (leBytes 8 a.1 ++ a.2 ++ rest)) = (p.header ++ p.payload) ++ (leBytes 8 a.1 ++ (a.2 ++ rest)) := by
      simp only [List.append_assoc]
    unfold leAt
    rw [split, slice_append_part front (length_leBytes 8 a.1), leNat_leBytes]
    exact Nat.mod_eq_of_lt seq
  · have split : p.header ++ (p.payload ++ (leBytes 8 a.1 ++ a.2 ++ rest)) = (p.header ++ p.payload ++ leBytes 8 a.1) ++ (a.2 ++ rest) := by
      simp only [List.append_assoc]
    rw [split]
    exact slice_append_part (by rw [List.length_append, front, length_leBytes]) tag

/-- Settles O38: the check and every field of the header, the payload and the trailer are read as they were written. -/
theorem packetsParse : Obligations.PacketsParse := by
  intro p t low high flags len words payload seq noseq dest src tag status addr status3 addr124 pos evt auth authFits
  have fits : p.Fits := ⟨by omega, by omega, by omega, by omega, dest, src, tag, status, addr⟩
  have length : p.payload.length = if p.ty = 2 then 0 else p.len := by
    by_cases read : p.ty = 2
    · rw [if_pos read] at payload ⊢
      rw [payload]
      rfl
    · rwa [if_neg read] at payload ⊢
  have trailer : p.trailer.length = if p.flags.testBit 0 then 24 else 0 := by
    unfold Pkt.trailer
    rw [auth]
    cases held : p.auth with
    | none => rfl
    | some a => rw [List.length_append, length_leBytes, (authFits a held).2]; rfl
  have front : (p.header ++ (p.payload ++ p.trailer)).length =
      24 + (if p.ty = 2 then 0 else p.len) + (if p.flags.testBit 0 then 24 else 0) := by
    rw [List.length_append, List.length_append, p.length_header, length, trailer, Nat.add_assoc]
  rw [p.bytes_eq]
  refine ⟨pktCrcOk_append (by omega), ?_⟩
  have total : (p.header ++ (p.payload ++ p.trailer) ++ leBytes 4 (crc32 (p.header ++ (p.payload ++ p.trailer)))).length =
      24 + (if p.ty = 2 then 0 else p.len) + (if p.flags.testBit 0 then 24 else 0) + 4 := by
    rw [List.length_append, front, length_leBytes]
  obtain ⟨body, trailerReads⟩ := p.body_reads (leBytes 4 (crc32 (p.header ++ (p.payload ++ p.trailer)))) length
  have reads : p.HeaderReads (p.header ++ (p.payload ++ p.trailer) ++ leBytes 4 (crc32 (p.header ++ (p.payload ++ p.trailer)))) := by
    rw [List.append_assoc]
    exact Pkt.header_reads fits _
  generalize p.header ++ (p.payload ++ p.trailer) ++ leBytes 4 (crc32 (p.header ++ (p.payload ++ p.trailer))) = bs at *
  unfold parsePkt
  simp only [reads.ty, reads.flags, reads.len, reads.seq, reads.dest, reads.src, reads.tag, reads.status, reads.zero, reads.addr, total, body]
  rw [if_pos]
  · cases held : p.auth with
    | none =>
      have off : p.flags.testBit 0 = false := by rw [auth, held]; rfl
      simp only [off, Bool.false_eq_true, if_false, if_true, ← held]
    | some a =>
      have on : p.flags.testBit 0 = true := by rw [auth, held]; rfl
      obtain ⟨first, second⟩ := trailerReads a held (authFits a held).1 (authFits a held).2
      simp only [on, if_true, first, second, ← held]
      rfl
  · simp only [Bool.and_eq_true, Bool.or_eq_true, Bool.not_eq_true', decide_eq_true_eq]
    refine ⟨⟨⟨⟨⟨⟨⟨⟨⟨⟨⟨⟨low, high⟩, flags⟩, len⟩, words⟩, trivial⟩, seq⟩, ?_⟩, trivial⟩, ?_⟩, ?_⟩, ?_⟩, ?_⟩
    · cases bit : p.flags.testBit 2 with
      | false => exact .inl rfl
      | true => exact .inr (noseq bit)
    · exact or_iff_not_imp_left.2 status3
    · by_cases one : p.ty = 1
      · exact .inl (.inl (.inl one))
      · by_cases two : p.ty = 2
        · exact .inl (.inl (.inr two))
        · by_cases four : p.ty = 4
          · exact .inl (.inr four)
          · exact .inr (addr124 one two four)
    · exact or_iff_not_imp_left.2 fun is5 => pos (not_not.1 is5)
    · exact or_iff_not_imp_left.2 fun is6 => evt (not_not.1 is6)

end Sys2Proof.Machine
end

section
/-! PROOFS of O40: enumeration, the latency of a link, and the reports of the controllers below. -/

namespace Sys2Proof.Machine

/-! ## Blocks sent -/

/-- A block sent changes the links alone. -/
theorem State.sendBlock_rest (s : State) (g : Nat) (bs : List Byte) : s.sendBlock g bs =
    { s with hl := { s.hl with groups := (s.sendBlock g bs).hl.groups, lanes := (s.sendBlock g bs).hl.lanes } } :=
  ((s.setGrp g { s.grp g with block := bs }).sendBlocks_sends g (controlBlocks bs)).rest

theorem State.sendBlock_regs (s : State) (g : Nat) (bs : List Byte) : (s.sendBlock g bs).regs = s.regs := by
  rw [s.sendBlock_rest]

theorem State.sendBlock_enum (s : State) (g : Nat) (bs : List Byte) : (s.sendBlock g bs).hl.enum = s.hl.enum := by
  rw [s.sendBlock_rest]

/-! ## Registers compared -/

theorem State.rd_of_regs {s t : State} (regs : t.regs = s.regs) (a : Nat) : t.rd a = s.rd a := by
  unfold State.rd
  rw [regs]

theorem State.fld_of_rd {s t : State} {a : Nat} (same : t.rd a = s.rd a) (f : BitField) : t.fld a f = s.fld a f := by
  unfold State.fld
  rw [same]

theorem State.isSet_of_rd {s t : State} {a : Nat} (same : t.rd a = s.rd a) (f : BitField) : t.isSet a f = s.isSet a f := by
  unfold State.isSet
  rw [State.fld_of_rd same]

theorem State.isSet_of_fld {s t : State} {a : Nat} {f : BitField} (same : t.fld a f = s.fld a f) : t.isSet a f = s.isSet a f := by
  unfold State.isSet
  rw [same]

/-! ## The range of a DOWN group -/

/-- The range of a DOWN group set and told to it, or left invalid (R337). -/
def State.enumRange (s : State) (g base n d : Nat) : State :=
  if n = 0 then s.setFld (routeReg g) F.HL_ROUTE0_VALID 0
  else
    (((s.setFld (routeReg g) F.HL_ROUTE0_VALID 1).setFld (routeReg g) F.HL_ROUTE0_LO base).setFld
      (routeReg g) F.HL_ROUTE0_HI (base + n - 1)).sendEnum g 2 base d

theorem State.enumBase_eq (s : State) (n0 n1 : Nat) : s.enumBase n0 n1 =
    (((s.setFld Reg.HL_INDEX F.HL_INDEX_SIZE (1 + n0 + n1)).enumRange 1 (s.index + 1) n0 (s.fld Reg.HL_INDEX F.HL_INDEX_DEPTH)).enumRange
      2 (s.index + 1 + n0) n1 (s.fld Reg.HL_INDEX F.HL_INDEX_DEPTH)) := by
  unfold State.enumBase
  simp only [State.enumRange]

theorem State.enumRange_keeps (s : State) (g base n d : Nat) : (s.enumRange g base n d).hl.enum = s.hl.enum ∧
    ∀ a, a ≠ routeReg g → (s.enumRange g base n d).rd a = s.rd a := by
  unfold State.enumRange State.sendEnum
  split
  · exact ⟨congrArg HlState.enum (s.setFld_hl _ _ _), fun a other => s.rd_setFld_ne _ _ other⟩
  · refine ⟨(State.sendBlock_enum _ _ _).trans (by rw [State.setFld_hl, State.setFld_hl, State.setFld_hl]), fun a other => ?_⟩
    rw [State.rd_of_regs (State.sendBlock_regs _ _ _), State.rd_setFld_ne _ _ _ other, State.rd_setFld_ne _ _ _ other,
      State.rd_setFld_ne _ _ _ other]

theorem State.enumRange_empty (s : State) (g base d : Nat) : (s.enumRange g base 0 d).isSet (routeReg g) F.HL_ROUTE0_VALID = false := by
  unfold State.enumRange State.isSet
  rw [if_pos rfl, State.fld_setFld _ _ _ _ (by decide) (by decide)]
  rfl

theorem State.enumRange_valid (s : State) (g base d : Nat) {n : Nat} (some' : n ≠ 0) : let t := s.enumRange g base n d
    t.isSet (routeReg g) F.HL_ROUTE0_VALID = true ∧ t.fld (routeReg g) F.HL_ROUTE0_LO = base % 256 ∧
    t.fld (routeReg g) F.HL_ROUTE0_HI = (base + n - 1) % 256 := by
  intro t
  generalize written : ((s.setFld (routeReg g) F.HL_ROUTE0_VALID 1).setFld (routeReg g) F.HL_ROUTE0_LO base).setFld
    (routeReg g) F.HL_ROUTE0_HI (base + n - 1) = r
  have same (f : BitField) : t.fld (routeReg g) f = r.fld (routeReg g) f := by
    refine State.fld_of_rd (State.rd_of_regs ?_ _) f
    change (s.enumRange g base n d).regs = r.regs
    rw [State.enumRange, if_neg some', written]
    exact r.sendBlock_regs _ _
  unfold State.isSet
  rw [same, same, same, ← written]
  refine ⟨?_, ?_, State.fld_setFld _ _ _ _ (by decide) (by decide)⟩
  · rw [State.fld_setFld_other _ _ _ _ _ (by decide) (by decide) (by decide),
      State.fld_setFld_other _ _ _ _ _ (by decide) (by decide) (by decide), State.fld_setFld _ _ _ _ (by decide) (by decide)]
    rfl
  · rw [State.fld_setFld_other _ _ _ _ _ (by decide) (by decide) (by decide), State.fld_setFld _ _ _ _ (by decide) (by decide)]
    rfl

/-- A destination lies in the range as set, where the range ends below 256. -/
theorem State.inRoute_enumRange (s : State) (g base n d : Nat) (fits : base + n ≤ 256) (x : Nat) :
    (s.enumRange g base n d).inRoute g x = true ↔ base ≤ x ∧ x < base + n := by
  unfold State.inRoute
  by_cases empty : n = 0
  · subst empty
    rw [s.enumRange_empty]
    simp
  · obtain ⟨valid, lo, hi⟩ := s.enumRange_valid g base d empty
    rw [valid, lo, hi, Nat.mod_eq_of_lt (by omega), Nat.mod_eq_of_lt (by omega)]
    simp
    omega

theorem State.inRoute_of_rd {s t : State} {g : Nat} (same : t.rd (routeReg g) = s.rd (routeReg g)) (x : Nat) :
    t.inRoute g x = s.inRoute g x := by
  unfold State.inRoute
  rw [State.isSet_of_rd same, State.fld_of_rd same, State.fld_of_rd same]

/-- The ranges of both groups, the rest of HL_INDEX as it was, and what waits for answers as it was. -/
theorem State.enumBase_spec (s : State) (n0 n1 : Nat) : let t := s.enumBase n0 n1
    t.hl.enum = s.hl.enum ∧
    (∀ f : BitField, f.hi < 8 ∨ 16 < f.lo → t.fld Reg.HL_INDEX f = s.fld Reg.HL_INDEX f) ∧
    (n0 = 0 → t.isSet Reg.HL_ROUTE0 F.HL_ROUTE0_VALID = false) ∧ (n1 = 0 → t.isSet Reg.HL_ROUTE1 F.HL_ROUTE0_VALID = false) ∧
    (s.index + 1 + n0 + n1 ≤ 256 → ∀ x, (t.inRoute 1 x = true ↔ s.index + 1 ≤ x ∧ x < s.index + 1 + n0) ∧
      (t.inRoute 2 x = true ↔ s.index + 1 + n0 ≤ x ∧ x < s.index + 1 + n0 + n1)) := by
  intro t
  generalize sized : s.setFld Reg.HL_INDEX F.HL_INDEX_SIZE (1 + n0 + n1) = r
  generalize depth : s.fld Reg.HL_INDEX F.HL_INDEX_DEPTH = d
  generalize first : r.enumRange 1 (s.index + 1) n0 d = u
  have both : t = u.enumRange 2 (s.index + 1 + n0) n1 d := by
    change s.enumBase n0 n1 = _
    rw [State.enumBase_eq, sized, depth, first]
  obtain ⟨enumR, rdR⟩ := r.enumRange_keeps 1 (s.index + 1) n0 d
  obtain ⟨enumU, rdU⟩ := u.enumRange_keeps 2 (s.index + 1 + n0) n1 d
  rw [first] at enumR rdR
  rw [← both] at enumU rdU
  have route0 : t.rd (routeReg 1) = u.rd (routeReg 1) := rdU _ (by decide)
  refine ⟨?_, fun f apart => ?_, ?_, ?_, fun fits x => ⟨?_, ?_⟩⟩
  · rw [enumU, enumR, ← sized]
    rfl
  · rw [State.fld_of_rd (rdU Reg.HL_INDEX (by decide)), State.fld_of_rd (rdR Reg.HL_INDEX (by decide)), ← sized]
    exact s.fld_setFld_other _ _ _ _ (by decide) (by decide) apart.symm
  · rintro rfl
    refine (State.isSet_of_rd route0 _).trans ?_
    rw [← first]
    exact r.enumRange_empty 1 _ _
  · rintro rfl
    rw [both]
    exact u.enumRange_empty 2 _ _
  · rw [State.inRoute_of_rd route0, ← first]
    exact r.inRoute_enumRange 1 _ _ _ (by omega) x
  · rw [both]
    exact u.inRoute_enumRange 2 _ _ _ fits x

/-! ## The summit -/

theorem State.becomeSummit_spec (s : State) : s.becomeSummit.isSummit = true ∧ s.becomeSummit.indexValid = true ∧
    s.becomeSummit.index = 0 ∧ s.becomeSummit.hl = s.hl ∧ ∀ a, a ≠ Reg.HL_INDEX → s.becomeSummit.rd a = s.rd a := by
  unfold State.becomeSummit State.isSummit State.indexValid State.index State.isSet
  refine ⟨?_, ?_, ?_, by rw [State.setFld_hl, State.setFld_hl, State.setFld_hl, State.setFld_hl], fun a other => ?_⟩
  · rw [State.fld_setFld_other _ _ _ _ _ (by decide) (by decide) (by decide),
      State.fld_setFld_other _ _ _ _ _ (by decide) (by decide) (by decide), State.fld_setFld _ _ _ _ (by decide) (by decide)]
    rfl
  · rw [State.fld_setFld_other _ _ _ _ _ (by decide) (by decide) (by decide),
      State.fld_setFld_other _ _ _ _ _ (by decide) (by decide) (by decide),
      State.fld_setFld_other _ _ _ _ _ (by decide) (by decide) (by decide), State.fld_setFld _ _ _ _ (by decide) (by decide)]
    rfl
  · rw [State.fld_setFld_other _ _ _ _ _ (by decide) (by decide) (by decide), State.fld_setFld _ _ _ _ (by decide) (by decide)]
    exact Nat.zero_mod _
  · rw [State.rd_setFld_ne _ _ _ other, State.rd_setFld_ne _ _ _ other, State.rd_setFld_ne _ _ _ other, State.rd_setFld_ne _ _ _ other]

/-- The answers taken: none is waited for. -/
def State.enumOver (s : State) : State := { s with hl := { s.hl with enum := none } }

/-- The summit assigns: index 0, the range from 1 to DOWN0 and the range behind it to DOWN1. -/
def State.enumAssigned (s : State) (n0 n1 : Nat) : State :=
  (s.enumOver.becomeSummit.enumBase n0 n1).flag Reg.HL_STAT F.HL_STAT_ENUM_DONE

theorem State.enumAnswered_assigns {s : State} {a b : Nat × Nat} (summit : s.isSummit = true) (answers : s.hl.enum = some ⟨some a, some b⟩)
    (fits : ¬(256 < 1 + a.1 + b.1 ∨ 16 < max a.2 b.2)) : s.enumAnswered = s.enumAssigned a.1 b.1 := by
  obtain ⟨size, depth⟩ := not_or.1 fits
  unfold State.enumAnswered
  simp only [answers, summit, Bool.not_true, Bool.false_eq_true, if_false, size, depth]
  rfl

theorem State.enumAssigned_spec (s : State) (n0 n1 : Nat) : let t := s.enumAssigned n0 n1
    t.isSummit = true ∧ t.indexValid = true ∧ t.index = 0 ∧ t.hl.enum = none ∧ t.isSet Reg.HL_STAT F.HL_STAT_ENUM_DONE = true ∧
    (n0 = 0 → t.isSet Reg.HL_ROUTE0 F.HL_ROUTE0_VALID = false) ∧ (n1 = 0 → t.isSet Reg.HL_ROUTE1 F.HL_ROUTE0_VALID = false) ∧
    (1 + n0 + n1 ≤ 256 → ∀ x, (t.inRoute 1 x = true ↔ 1 ≤ x ∧ x ≤ n0) ∧ (t.inRoute 2 x = true ↔ n0 + 1 ≤ x ∧ x ≤ n0 + n1)) := by
  intro t
  obtain ⟨summit, valid, index, hl, -⟩ := s.enumOver.becomeSummit_spec
  obtain ⟨enum, fields, empty0, empty1, ranges⟩ := s.enumOver.becomeSummit.enumBase_spec n0 n1
  have rd {a : Nat} (other : a ≠ Reg.HL_STAT) : t.rd a = (s.enumOver.becomeSummit.enumBase n0 n1).rd a := State.rd_flag_ne _ _ other
  have fld (f : BitField) (apart : f.hi < 8 ∨ 16 < f.lo) : t.fld Reg.HL_INDEX f = s.enumOver.becomeSummit.fld Reg.HL_INDEX f :=
    (State.fld_of_rd (rd (by decide)) f).trans (fields f apart)
  refine ⟨?_, ?_, (fld _ (by decide)).trans index, ?_, State.isSet_flag _ _ _ (by decide) (by decide), fun none0 => ?_, fun none1 => ?_,
    fun size x => ?_⟩
  · exact (State.isSet_of_fld (fld _ (by decide))).trans summit
  · exact (State.isSet_of_fld (fld _ (by decide))).trans valid
  · exact enum.trans (by rw [hl]; rfl)
  · exact (State.isSet_of_rd (rd (by decide)) _).trans (empty0 none0)
  · exact (State.isSet_of_rd (rd (by decide)) _).trans (empty1 none1)
  · rw [index] at ranges
    obtain ⟨down0, down1⟩ := ranges (by omega) x
    rw [State.inRoute_of_rd (rd (by decide)), State.inRoute_of_rd (rd (by decide)), down0, down1]
    omega

theorem State.enumFail_spec (s : State) : s.enumFail.hl.enum = none ∧ s.enumFail.isSet Reg.HL_STAT F.HL_STAT_ENUM_FAIL = true ∧
    s.enumFail.rd Reg.HL_ROUTE0 = s.rd Reg.HL_ROUTE0 ∧ s.enumFail.rd Reg.HL_ROUTE1 = s.rd Reg.HL_ROUTE1 := by
  generalize failed : s.enumOver.flag Reg.HL_STAT F.HL_STAT_ENUM_FAIL = t
  have raised : RaiseKeeps t s.enumFail := by
    have shown : s.enumFail = t.raise Ev.ENUM_FAIL := by rw [← failed]; rfl
    rw [shown]
    exact t.raise_keeps _ _
  refine ⟨?_, ?_, ?_, ?_⟩
  · rw [raised.hl, ← failed]
    rfl
  · rw [State.isSet_of_rd (raised.rd _ (by decide) (by decide) (by decide)), ← failed]
    exact State.isSet_flag _ _ _ (by decide) (by decide)
  · rw [raised.rd _ (by decide) (by decide) (by decide), ← failed]
    exact State.rd_flag_ne _ _ (by decide)
  · rw [raised.rd _ (by decide) (by decide) (by decide), ← failed]
    exact State.rd_flag_ne _ _ (by decide)

/-- An error told leaves every register but HL_INDEX. -/
theorem State.rd_enumErr (s : State) (e : Nat) {a : Nat} (other : a ≠ Reg.HL_INDEX) : (s.enumErr e).rd a = s.rd a :=
  s.rd_setFld_ne _ _ other

/-- The summit refuses a rope of more than 256 controllers or deeper than 16. -/
theorem State.enumAnswered_fails {s : State} {a b : Nat × Nat} (summit : s.isSummit = true) (answers : s.hl.enum = some ⟨some a, some b⟩)
    (large : 256 < 1 + a.1 + b.1 ∨ 16 < max a.2 b.2) : ∃ e, s.enumAnswered = (s.enumErr e).enumFail := by
  unfold State.enumAnswered
  simp only [answers, summit, Bool.not_true, Bool.false_eq_true, if_false]
  by_cases size : 256 < 1 + a.1 + b.1
  · exact ⟨2, if_pos size⟩
  · rw [if_neg size, if_pos (large.resolve_left size)]
    exact ⟨3, rfl⟩

/-! ## The command -/

theorem exec_enumStart {s : State} {m : Master} (takes : s.takes m Reg.HL_CTRL) (w : Word) :
    exec (.enumStart m w) s = .next (s.wrote s.enumStart m) := by
  have enum : F.HL_CTRL_ENUM.get (cmdWord Reg.HL_CTRL w [(F.HL_CTRL_ENUM, 1), (F.HL_CTRL_RETRAIN, 0)]) = 1 :=
    get_cmdWord_first (by decide) w 1 0 (by decide) (by decide) (by decide) (by decide) (by decide)
  have retrain : F.HL_CTRL_RETRAIN.get (cmdWord Reg.HL_CTRL w [(F.HL_CTRL_ENUM, 1), (F.HL_CTRL_RETRAIN, 0)]) = 0 :=
    get_cmdWord_second (by decide) w _ 1 0 (by decide) (by decide)
  refine State.next_busWrite takes (by decide) (by decide) ?_
  change s.writeHl Reg.HL_CTRL (cmdWord Reg.HL_CTRL w _) = _
  rw [State.writeHl, if_neg (by decide), if_pos rfl]
  dsimp only
  rw [enum, if_pos rfl, State.retrainGroups, retrain]
  simp [forEach]

theorem State.enumStart_offSummit {s : State} (off : s.isSummit = false) : s.enumStart = s.enumErr 5 := by
  unfold State.enumStart
  simp [off]

theorem State.enumStart_mode {s : State} (summit : s.isSummit = true) (idle : s.mode ≠ .idle) (service : s.mode ≠ .service) :
    s.enumStart = s.enumErr 4 := by
  unfold State.enumStart
  simp [summit, idle, service]

/-- What the summit waits for with no group below it: nothing. -/
def State.enumAlone (s : State) : State :=
  { s.enumErr 0 with hl := { (s.enumErr 0).hl with enum := some ⟨some (0, 0), some (0, 0)⟩ } }

theorem State.enumStart_alone {s : State} (summit : s.isSummit = true) (mode : s.mode = .idle ∨ s.mode = .service)
    (fresh : s.hl.enum = none) (off1 : (s.grp 1).st = .disabled) (off2 : (s.grp 2).st = .disabled) :
    s.enumStart = s.enumAlone.enumAssigned 0 0 := by
  have ready : s.enumStart = (s.enumErr 0).enumBegin := by
    unfold State.enumStart
    rcases mode with mode | mode <;> simp [summit, mode, fresh, off1, off2]
  have alone : (s.enumErr 0).enumBegin = s.enumAlone.enumAnswered := by
    have down : (s.enumErr 0).activeDown = [] := by
      have kept (g : Nat) : (s.enumErr 0).grp g = s.grp g := rfl
      simp [State.activeDown, kept, off1, off2]
    have kept (g : Nat) : (s.enumErr 0).grp g = s.grp g := rfl
    unfold State.enumBegin
    simp only [down, List.foldl_nil, kept, off1, off2, reduceCtorEq, if_false]
    rfl
  rw [ready, alone]
  refine State.enumAnswered_assigns (a := (0, 0)) (b := (0, 0)) ?_ rfl (by decide)
  have kept : (s.enumErr 0).isSummit = s.isSummit :=
    State.isSet_of_fld (s.fld_setFld_other _ F.HL_INDEX_ENUM_ERR F.HL_INDEX_SUMMIT 0 (by decide) (by decide) (by decide))
  exact kept.trans summit

/-! ## Timeouts and BASE -/

theorem State.enumTimeout_fails {s : State} {g : Nat} {e : EnumState} (waiting : s.hl.enum = some e)
    (silent : (g = 1 ∧ e.size0 = none) ∨ (g = 2 ∧ e.size1 = none)) : s.enumTimeout g = (s.enumErr 6).enumFail := by
  unfold State.enumTimeout
  simp only [waiting]
  rcases silent with ⟨rfl, none0⟩ | ⟨rfl, none1⟩
  · simp [none0]
  · simp [none1]

/-- The index and depth that BASE gives (R337). -/
def State.enumIndexed (s : State) (value depth : Nat) : State :=
  ((s.enumOver.setFld Reg.HL_INDEX F.HL_INDEX_INDEX value).setFld Reg.HL_INDEX F.HL_INDEX_DEPTH (depth + 1)).setFld Reg.HL_INDEX
    F.HL_INDEX_VALID 1

theorem State.enumBlock_base {s : State} {a b : Nat × Nat} (active : (s.grp 0).st = .active) (off : s.isSummit = false)
    (answers : s.hl.enum = some ⟨some a, some b⟩) (value depth : Nat) :
    s.enumBlock 0 2 value depth = (s.enumIndexed value depth).enumBase a.1 b.1 := by
  unfold State.enumBlock
  simp only [active, off, answers]
  rfl

theorem State.enumIndexed_spec (s : State) {value depth : Nat} (index : value < 256) (deep : depth < 16) :
    let t := s.enumIndexed value depth
    t.index = value ∧ t.isSet Reg.HL_INDEX F.HL_INDEX_VALID = true ∧ t.fld Reg.HL_INDEX F.HL_INDEX_DEPTH = depth + 1 ∧ t.hl.enum = none := by
  unfold State.enumIndexed State.index State.isSet
  refine ⟨?_, ?_, ?_, rfl⟩
  · rw [State.fld_setFld_other _ _ _ _ _ (by decide) (by decide) (by decide),
      State.fld_setFld_other _ _ _ _ _ (by decide) (by decide) (by decide), State.fld_setFld _ _ _ _ (by decide) (by decide)]
    exact Nat.mod_eq_of_lt index
  · rw [State.fld_setFld _ _ _ _ (by decide) (by decide)]
    rfl
  · rw [State.fld_setFld_other _ _ _ _ _ (by decide) (by decide) (by decide), State.fld_setFld _ _ _ _ (by decide) (by decide)]
    exact Nat.mod_eq_of_lt (by omega : depth + 1 < 32)

/-! ## Latency -/

theorem State.echoReq_answers {s : State} {g : Nat} (up : (s.grp g).st = .deskew ∨ (s.grp g).st = .active) (token turn : Nat) :
    s.echoReq g token turn = s.sendBlock g ([0x9C] ++ leBytes 4 token ++ leBytes 2 turn ++ [0]) := by
  unfold State.echoReq
  rcases up with up | up <;> simp [up]

/-- The tokens of the eight requests of a measurement. -/
def State.echoTokens (s : State) : List Nat := (List.range 8).map fun i => (s.hl.token + i) % 2 ^ 32

/-- The state with the requests of a measurement on their way (R345). -/
def State.measuring (s : State) (g : Nat) : State :=
  ({ s with hl := { s.hl with token := (s.hl.token + 8) % 2 ^ 32 } } : State).setGrp g
    { s.grp g with echoSent := s.echoTokens.map fun t => (t, s.now), echoRt := [] }

theorem State.measure_sends {s : State} {g : Nat} (up : (s.grp g).st = .deskew ∨ (s.grp g).st = .active) :
    s.measure g = (s.measuring g).sendBlock g (s.echoTokens.flatMap fun t => [0x93] ++ leBytes 4 t ++ [0, 0, 0]) := by
  unfold State.measure
  exact if_neg (by rcases up with up | up <;> simp [up])

theorem State.measure_grp {s : State} {g : Nat} (up : (s.grp g).st = .deskew ∨ (s.grp g).st = .active) (there : g < s.hl.groups.length) :
    ((s.measure g).grp g).echoSent = s.echoTokens.map (fun t => (t, s.now)) ∧ ((s.measure g).grp g).echoRt = [] := by
  have own : (s.measuring g).grp g = { s.grp g with echoSent := s.echoTokens.map fun t => (t, s.now), echoRt := [] } :=
    State.grp_setGrp_self _ there
  obtain ⟨⟨n, sent⟩, -⟩ := (s.measuring g).sendBlock_spec (g := g) (s.echoTokens.flatMap fun t => [0x93] ++ leBytes 4 t ++ [0, 0, 0])
    (there.trans_eq (State.length_setGrp _ _ _).symm)
  rw [State.measure_sends up, sent, own]
  exact ⟨rfl, rfl⟩

/-- The samples of a measurement with one more. -/
def LinkGroup.sampled (x : LinkGroup) (e : Nat × Nat) (rt : List Nat) : LinkGroup :=
  { x with echoSent := x.echoSent.erase e, echoRt := rt }

theorem State.deskewCheck_active {s : State} {g : Nat} (active : (s.grp g).st = .active) : s.deskewCheck g = s := by
  unfold State.deskewCheck
  simp [active]

/-- The latency of a group by its samples (R345). -/
def State.latencyOf (s : State) (g : Nat) (rt : List Nat) : Int :=
  clamp 0 65535 ((rt.sum / 16 : Nat) + s.fldI (Reg.HL_Gg_LAT g) F.HL_Gg_LAT_ADJ)

theorem State.echoRsp_sample {s : State} {g token turn at' : Nat} {rt : List Nat} (active : (s.grp g).st = .active)
    (sent : (s.grp g).echoSent.find? (fun e => e.1 = token) = some (token, at'))
    (samples : (s.grp g).echoRt ++ [s.now - at' - turn] = rt) : s.echoRsp g token turn = if rt.length < 8 then s.setGrp g ((s.grp g).sampled (token, at') rt)
      else (s.setFld (Reg.HL_Gg_LAT g) F.HL_Gg_LAT_LAT (s.latencyOf g rt).toNat).setGrp g
        { (s.grp g).sampled (token, at') rt with echoRt := [], measured := true } := by
  have there := State.lt_of_active active
  unfold State.echoRsp State.latencyOf
  simp only [sent, samples, List.sum_eq_foldl]
  refine if_congr Iff.rfl rfl (State.deskewCheck_active ?_)
  rw [State.grp_setGrp_self _ (by rwa [State.setFld_hl])]
  exact active

theorem clamp_word (v : Int) : 0 ≤ clamp 0 65535 v ∧ clamp 0 65535 v ≤ 65535 := by
  unfold clamp
  split
  · omega
  · split <;> omega

/-! ## Events of the controllers below -/

/-- What an entry in the queue leaves: the CHIP units, and how a cascade is treated. -/
structure State.EntryKeeps (s t : State) : Prop where
  chips : t.ut.chips = s.ut.chips
  cfg : t.rd Reg.FL_CFG = s.rd Reg.FL_CFG

theorem State.EntryKeeps.refl (s : State) : s.EntryKeeps s := ⟨rfl, rfl⟩

theorem State.EntryKeeps.trans {s t u : State} (h : s.EntryKeeps t) (k : t.EntryKeeps u) : s.EntryKeeps u :=
  ⟨k.chips.trans h.chips, k.cfg.trans h.cfg⟩

theorem RaiseKeeps.entryKeeps {s t : State} (h : RaiseKeeps s t) : s.EntryKeeps t :=
  ⟨by rw [h.ut], h.rd _ (by decide) (by decide) (by decide)⟩

theorem State.flag_entryKeeps (s : State) {a : Nat} (f : BitField) (other : Reg.FL_CFG ≠ a) : s.EntryKeeps (s.flag a f) :=
  ⟨rfl, State.rd_flag_ne _ _ other⟩

theorem FL_CFG_ne_irqStat (m : Nat) : Reg.FL_CFG ≠ Reg.FL_IRQm_STAT m := by
  unfold Reg.FL_CFG Reg.FL_IRQm_STAT
  omega

theorem State.preempt_entryKeeps (s : State) : s.EntryKeeps s.preempt := by
  have first := s.flag_entryKeeps F.FL_EQ_STAT_PREEMPT (by decide : Reg.FL_CFG ≠ Reg.FL_EQ_STAT)
  unfold State.preempt
  dsimp only
  split
  · exact first.trans (State.flag_entryKeeps _ _ (FL_CFG_ne_irqStat _))
  · exact first

theorem State.queueLoss_entryKeeps (s : State) : s.EntryKeeps s.queueLoss := by
  generalize counted : s.bump Reg.FL_LOST F.FL_LOST_ERRQ_LOST = t
  generalize told : ((t.flag (Reg.FL_IRQm_STAT 0) F.FL_IRQm_STAT_OVF).flag (Reg.FL_IRQm_STAT 1) F.FL_IRQm_STAT_OVF).flag
    (Reg.FL_IRQm_STAT 2) F.FL_IRQm_STAT_OVF = u
  generalize flagged : u.flag Reg.FL_STAT F.FL_STAT_ERRQ_OVERFLOW = v
  have lost : s.queueLoss = ({ v with fl := { v.fl with overflow := true } } : State).raise Ev.ERRQ_OVERFLOW := by
    rw [← flagged, ← told, ← counted]
    rfl
  have first : s.EntryKeeps t := counted ▸ ⟨rfl, State.rd_bump_ne _ _ _ (by decide)⟩
  have second : t.EntryKeeps u := told ▸ ((t.flag_entryKeeps _ (FL_CFG_ne_irqStat 0)).trans
    (State.flag_entryKeeps _ _ (FL_CFG_ne_irqStat 1))).trans (State.flag_entryKeeps _ _ (FL_CFG_ne_irqStat 2))
  have third : u.EntryKeeps v := flagged ▸ u.flag_entryKeeps _ (by decide)
  generalize over' : ({ v with fl := { v.fl with overflow := true } } : State) = x at lost
  have fourth : v.EntryKeeps x := over' ▸ ⟨rfl, rfl⟩
  rw [lost]
  exact (((first.trans second).trans third).trans fourth).trans (x.raise_keeps _ _).entryKeeps

theorem State.entered_entryKeeps (s : State) (e : QEntry) (q : List QEntry) : s.EntryKeeps (s.entered e q) := by
  have first : s.EntryKeeps (s.withEntry e q) := ⟨rfl, rfl⟩
  unfold State.entered
  split
  · exact first.trans (State.preempt_entryKeeps _)
  · exact first

theorem State.enqueue_entryKeeps (s : State) (id cls unit detail : Nat) (chip : Bool) (irq : Option Nat) (ts : Stamp) :
    s.EntryKeeps (s.enqueue id cls unit detail chip irq ts) := by
  by_cases held : ∃ e ∈ s.fl.queue, e.id = id ∧ e.unit = unit
  · rw [State.enqueue_held held]
    exact ⟨rfl, rfl⟩
  have fresh : ∀ e ∈ s.fl.queue, ¬(e.id = id ∧ e.unit = unit) := by simpa using held
  by_cases room : s.fl.queue.length < 32
  · rw [State.enqueue_room fresh room]
    exact s.entered_entryKeeps _ _
  have filled : s.fl.queue ≠ [] := by
    rintro empty
    simp [empty] at room
  rw [State.enqueue_full fresh room (List.dropLast_append_getLast filled).symm]
  refine State.EntryKeeps.trans ?_ (State.queueLoss_entryKeeps _)
  split
  · exact s.entered_entryKeeps _ _
  · exact .refl s

/-- The CHIP unit as an EVT reports it (R340). -/
def State.chipOf (s : State) (p : Pkt) : ChipInfo :=
  ⟨true, leAt p.payload 20 1, leAt p.payload 21 1, leAt p.payload 24 4, leAt p.payload 28 4, leAt p.payload 32 4, s.now⟩

/-- The CHIP unit of an EVT's source updated. -/
def State.chipNoted (s : State) (p : Pkt) : State :=
  { s with ut := { s.ut with chips := AMap.set chipDefault s.ut.chips p.src (s.chipOf p) } }

/-- The event of an EVT entered in the queue. -/
def State.evtEntered (s : State) (p : Pkt) : State :=
  s.enqueue (leAt p.payload 0 2) (leAt p.payload 2 1) (leAt p.payload 4 4) 0 true none (stampOf (slice p.payload 8 12))

theorem State.evtNote_eq {s : State} {p : Pkt} (valid : s.si.valid (chipH p.src) = true) : s.evtNote p =
    if leAt p.payload 0 2 = 0 then s.chipNoted p
    else if (3 ≤ leAt p.payload 2 1 && ((s.chipNoted p).evtEntered p).isSet Reg.FL_CFG F.FL_CFG_CASCADE_HOLD) = true then
      { (s.chipNoted p).evtEntered p with sys := { ((s.chipNoted p).evtEntered p).sys with holdDue := true } }
    else (s.chipNoted p).evtEntered p := by
  unfold State.evtNote
  simp only [valid, if_true]
  rfl

theorem State.evtNote_spec {s : State} {p : Pkt} (valid : s.si.valid (chipH p.src) = true) :
    AMap.get chipDefault (s.evtNote p).ut.chips p.src = s.chipOf p ∧
    (leAt p.payload 0 2 ≠ 0 → 3 ≤ leAt p.payload 2 1 → s.isSet Reg.FL_CFG F.FL_CFG_CASCADE_HOLD = true →
      (s.evtNote p).sys.holdDue = true) := by
  have noted : AMap.get chipDefault (s.chipNoted p).ut.chips p.src = s.chipOf p := by
    unfold State.chipNoted
    rw [AMap.get_set_self]
  have entered : (s.chipNoted p).EntryKeeps ((s.chipNoted p).evtEntered p) := State.enqueue_entryKeeps _ _ _ _ _ _ _ _
  rw [State.evtNote_eq valid]
  refine ⟨?_, fun event high cascade => ?_⟩
  · rw [← noted]
    split
    · rfl
    · split <;> exact congrArg (fun c => AMap.get chipDefault c p.src) entered.chips
  · have cfg : ((s.chipNoted p).evtEntered p).isSet Reg.FL_CFG F.FL_CFG_CASCADE_HOLD = true :=
      (State.isSet_of_rd entered.cfg _).trans cascade
    rw [if_neg event, if_pos (by simp [high, cfg])]

/-- What the routing of a packet leaves: the CHIP units, and a HOLD that is due. -/
theorem State.routed_keeps (s : State) (g : Nat) (p : Pkt) : (s.routed g p).2.ut.chips = s.ut.chips ∧
    (s.sys.holdDue = true → (s.routed g p).2.sys.holdDue = true) := by
  have sent (t : State) (k : Nat) (q : Pkt) : (t.sendOn k q).ut = t.ut ∧ (t.sendOn k q).sys = t.sys := by
    unfold State.sendOn
    dsimp only
    split <;> exact ⟨rfl, rfl⟩
  unfold State.routed
  split
  · exact ⟨rfl, id⟩
  · next k _ => exact ⟨by rw [(sent s k p).1], fun due => by rw [(sent s k p).2]; exact due⟩
  · unfold State.refusePkt
    dsimp only
    split
    · obtain ⟨ut, sys⟩ := sent (s.faultTold p) g (s.completion p 3 [])
      exact ⟨by rw [ut]; rfl, fun due => by rw [sys]; exact due⟩
    · have raised := (s.flag Reg.HL_STAT F.HL_STAT_NOROUTE).raise_keeps Ev.NOROUTE 0
      exact ⟨congrArg (·.chips) raised.ut, fun due => State.raiseWith_holdDue _ _ _ _ _ (.inl due)⟩

theorem State.evtPacket_eq {s s1 : State} {g : Nat} {p : Pkt} {bs : List Byte} (below : g ≠ 0) (received : s.receive g 6 bs = (some p, s1)) :
    s.evtPacket g bs = ((s1.evtNote p).routed g p).2 := by
  unfold State.evtPacket
  rw [received]
  exact if_neg below

/-- Settles O40: enumeration, latency, and the CHIP units. -/
theorem ropeReports : Obligations.RopeReports := by
  unfold Obligations.RopeReports
  refine ⟨⟨?refused, ?alone, ?answers, ?silent, ?base⟩, ⟨fun s g token turn out ref up => State.next_onLanes out ref
    (State.echoReq_answers up token turn), ?measure, ?sample⟩, ?evt, ?offline, fun s out => State.next_act out rfl⟩
  case refused =>
    intro s m w takes
    exact ⟨_, exec_enumStart takes w, State.enumStart_offSummit, State.enumStart_mode⟩
  case alone =>
    intro s m w takes summit mode fresh off1 off2
    obtain ⟨summit', valid, index, enum, done, route0, route1, -⟩ := s.enumAlone.enumAssigned_spec 0 0
    rw [← State.enumStart_alone summit mode fresh off1 off2] at summit' valid index enum done route0 route1
    exact ⟨_, exec_enumStart takes w, summit', valid, index, enum, done, route0 rfl, route1 rfl⟩
  case answers =>
    intro s a b summit answers t
    by_cases large : 256 < 1 + a.1 + b.1 ∨ 16 < max a.2 b.2
    · obtain ⟨e, fails⟩ := State.enumAnswered_fails summit answers large
      obtain ⟨enum, flag, route0, route1⟩ := (s.enumErr e).enumFail_spec
      rw [← fails] at enum flag route0 route1
      exact ⟨enum, fun _ => ⟨flag, route0.trans (s.rd_enumErr e (by decide)), route1.trans (s.rd_enumErr e (by decide))⟩,
        fun fits => absurd large fits⟩
    · obtain ⟨-, valid, index, enum, -, -, -, ranges⟩ := s.enumAssigned_spec a.1 b.1
      rw [← State.enumAnswered_assigns summit answers large] at valid index enum ranges
      exact ⟨enum, fun over' => absurd over' large, fun _ => ⟨index, valid, fun d _ => ranges (by omega) d⟩⟩
  case silent =>
    intro s g e out waiting silent
    obtain ⟨enum, flag, -, -⟩ := (s.enumErr 6).enumFail_spec
    exact ⟨_, State.next_act out (State.enumTimeout_fails waiting silent), enum, flag⟩
  case base =>
    intro s value depth a b out ref active off answers index deep
    obtain ⟨index', valid, depth', enum⟩ := s.enumIndexed_spec index deep
    obtain ⟨enum', fields, -, -, -⟩ := (s.enumIndexed value depth).enumBase_spec a.1 b.1
    refine ⟨_, State.next_onLanes out ref (State.enumBlock_base active off answers value depth), ?_, ?_, ?_, enum'.trans enum⟩
    · exact (fields _ (by decide)).trans index'
    · unfold State.indexValid State.isSet at *
      rwa [fields _ (by decide)]
    · exact (fields _ (by decide)).trans depth'
  case measure =>
    intro s g out ref up there
    obtain ⟨sent, rt⟩ := State.measure_grp up there
    refine ⟨_, State.next_onLanes out ref rfl, ?_, rt, ?_⟩
    · rw [sent]
      simp [State.echoTokens]
    · rw [sent]
      simp
  case sample =>
    intro s g token turn at' out ref active sent rt
    have there := State.lt_of_active active
    have samples : (s.grp g.val).echoRt ++ [s.now - at' - turn] = rt := rfl
    clear_value rt
    refine ⟨_, State.next_onLanes out ref (State.echoRsp_sample active sent samples), fun few => ?_, fun eight => ?_⟩
    · rw [if_pos few]
      exact ⟨by rw [State.grp_setGrp_self _ there]; rfl, rfl⟩
    · rw [if_neg (by omega)]
      refine ⟨by rw [State.grp_setGrp_self _ (by rwa [State.setFld_hl])], ?_⟩
      obtain ⟨low, high⟩ := clamp_word ((rt.sum / 16 : Nat) + s.fldI (Reg.HL_Gg_LAT g) F.HL_Gg_LAT_ADJ)
      refine (congrArg Nat.cast (s.fld_setFld (Reg.HL_Gg_LAT g) F.HL_Gg_LAT_LAT _ (by decide) (by decide))).trans ?_
      change ((((s.latencyOf g rt).toNat % 65536 : Nat)) : Int) = s.latencyOf g rt
      change 0 ≤ s.latencyOf g rt at low
      change s.latencyOf g rt ≤ 65535 at high
      omega
  case evt =>
    intro s s1 g p bs out ref below received valid
    obtain ⟨chip, hold⟩ := State.evtNote_spec valid
    obtain ⟨chips, due⟩ := (s1.evtNote p).routed_keeps g p
    refine ⟨_, State.next_onLanes out ref (State.evtPacket_eq below received), ?_, fun event high cascade => due (hold event high cascade)⟩
    rw [chips, chip]
    rfl
  case offline =>
    intro s c out
    refine ⟨_, State.next_act out rfl, fun recent => if_pos recent, fun old => ?_, fun d other => ?_⟩
    · rw [State.chipTimeout, if_neg (Nat.not_lt.2 old)]
      dsimp only
      rw [AMap.get_set_self]
    · unfold State.chipTimeout
      split
      · rfl
      · exact AMap.get_set_ne _ _ _ other

end Sys2Proof.Machine
end

section
/-! PROOFS of O39: what a receiver accepts, where a packet goes, DMA_WR, and guarded writes. -/

namespace Sys2Proof.Machine

/-! ## Acceptance -/

/-- A packet accepted is of the type received. -/
theorem State.receive_ty {s s1 : State} {g ty : Nat} {bs : List Byte} {p : Pkt} (received : s.receive g ty bs = (some p, s1)) :
    p.ty = ty := by
  unfold State.receive at received
  dsimp only at received
  split at received
  · simp at received
  split at received
  · simp at received
  split at received
  · simp at received
  next q found =>
    have typed : q.ty = ty := by simpa using (Option.filter_eq_some_iff.1 found).2
    split at received
    · simp_all
    split at received
    · simp_all
    split at received <;> simp at received

section
variable {s : State} {g ty : Nat} {bs : List Byte} (active : (s.grp g).st = .active)
include active

section
variable {p : Pkt} (sound : pktCrcOk bs = true) (parsed : parsePkt bs s.now = some p) (typed : p.ty = ty)
  (sequenced : p.flags.testBit 2 = false)
include sound parsed typed sequenced

/-- A good packet, by its SEQ (R329, R330). -/
theorem State.receive_good : s.receive g ty bs =
    if p.seq = (s.grp g).rxSeq then
      (some p, (s.setGrp g { s.grp g with rxSeq := ((s.grp g).rxSeq + 1) % 4096, nakSent := false }).sendBlock g
        ({ s.grp g with rxSeq := ((s.grp g).rxSeq + 1) % 4096, nakSent := false } : LinkGroup).ackBytes)
    else if ((s.grp g).rxSeq + 4096 - p.seq) % 4096 < 2048 then (none, s)
    else (none, s.sendNak g) := by
  have found : (parsePkt bs s.now).filter (fun p => p.ty = ty) = some p := by simp [parsed, typed]
  unfold State.receive
  dsimp only
  rw [if_neg (not_not_intro active), sound, found]
  simp only [Bool.not_true, Bool.false_eq_true, if_false, sequenced]

/-- The packet expected is accepted and acknowledged. -/
theorem State.receive_expected (expected : p.seq = (s.grp g).rxSeq) : let r := s.receive g ty bs
    r.1 = some p ∧ (r.2.grp g).rxSeq = ((s.grp g).rxSeq + 1) % 4096 ∧ (r.2.grp g).nakSent = false ∧
    (r.2.grp g).block = { s.grp g with rxSeq := ((s.grp g).rxSeq + 1) % 4096 }.ackBytes := by
  intro r
  have there := State.lt_of_active active
  generalize next : ({ s.grp g with rxSeq := ((s.grp g).rxSeq + 1) % 4096, nakSent := false } : LinkGroup) = x
  have taken : r = (some p, (s.setGrp g x).sendBlock g x.ackBytes) := by
    change s.receive g ty bs = _
    rw [State.receive_good active sound parsed typed sequenced, if_pos expected, next]
  obtain ⟨⟨n, own⟩, -⟩ := (s.setGrp g x).sendBlock_spec x.ackBytes (there.trans_eq (s.length_setGrp g x).symm)
  rw [State.grp_setGrp_self _ there] at own
  rw [taken, own, ← next]
  exact ⟨rfl, rfl, rfl, rfl⟩

end

/-- A NAK goes out once and carries the expected SEQ. -/
theorem State.sendNak_grp : ((s.sendNak g).grp g).nakSent = true ∧ ((s.sendNak g).grp g).rxSeq = (s.grp g).rxSeq ∧
    ((s.grp g).nakSent = false → ((s.sendNak g).grp g).block = [0x69#8] ++ leBytes 2 (s.grp g).rxSeq ++ List.replicate 5 0) := by
  have there := State.lt_of_active active
  by_cases sent : (s.grp g).nakSent = true
  · rw [show s.sendNak g = s from if_pos sent]
    exact ⟨sent, rfl, fun fresh => absurd (sent.symm.trans fresh) (by decide)⟩
  · have sends : s.sendNak g = (s.setGrp g { s.grp g with nakSent := true }).sendBlock g
        ([0x69#8] ++ leBytes 2 (s.grp g).rxSeq ++ List.replicate 5 0) := if_neg sent
    obtain ⟨⟨n, own⟩, -⟩ := (s.setGrp g { s.grp g with nakSent := true }).sendBlock_spec
      ([0x69#8] ++ leBytes 2 (s.grp g).rxSeq ++ List.replicate 5 0) (there.trans_eq (s.length_setGrp g _).symm)
    rw [State.grp_setGrp_self _ there] at own
    rw [sends, own]
    exact ⟨rfl, rfl, fun _ => rfl⟩

/-- A packet with a bad CRC-32 is counted and answered with a NAK. -/
theorem State.receive_bad (bad : pktCrcOk bs = false) (other : ty ≠ 5) :
    s.receive g ty bs = (none, (s.bump (Reg.HL_Gg_PKT g) F.HL_Gg_PKT_CRC_ERR).sendNak g) := by
  unfold State.receive
  dsimp only
  rw [if_neg (not_not_intro active), bad]
  simp only [Bool.not_false, if_true, other, if_false]

end

/-! ## Routes -/

section
variable {s s1 : State} {g ty : Nat} {p : Pkt} {bs : List Byte} (received : s.receive g ty bs = (some p, s1))
include received

/-- Where a packet of class 3 goes (R332, R333, R336). -/
theorem State.class3Packet_received : s.class3Packet g ty bs = match s1.routeOf p (g = 0) with
    | .here => s1.class3In p (g = 0)
    | .group k => s1.sendOn k p
    | .refused => s1.refusePkt g p := by
  unfold State.class3Packet State.routed
  rw [received]
  dsimp only
  cases s1.routeOf p (g = 0) <;> rfl

end

/-- Where a completion goes. -/
theorem State.rdCplPacket_received {s s1 : State} {g : Nat} {p : Pkt} {bs : List Byte} (received : s.receive g 3 bs = (some p, s1)) :
    (s1.routeOf p (g = 0) = .here → s.rdCplPacket g bs = s1.rdCplHere p.tag p.status p.payload) ∧
    ∀ k, s1.routeOf p (g = 0) = .group k → s.rdCplPacket g bs = s1.sendOn k p := by
  unfold State.rdCplPacket State.routed
  rw [received]
  dsimp only
  exact ⟨fun here => by rw [here], fun k away => by rw [away]⟩

/-- Where an AUD goes. -/
theorem State.audPacket_received {s s1 : State} {g : Nat} {p : Pkt} {bs : List Byte} (received : s.receive g 7 bs = (some p, s1)) :
    (s1.routeOf p (g = 0) = .here → leAt p.payload 0 1 = 2 → s.audPacket g bs = s1.witRecord (p.payload.drop 8)) ∧
    ∀ k, s1.routeOf p (g = 0) = .group k → s.audPacket g bs = s1.sendOn k p := by
  unfold State.audPacket State.routed
  rw [received]
  dsimp only
  exact ⟨fun here witness => by rw [here]; exact if_pos witness, fun k away => by rw [away]⟩

/-- What a packet of class 3 comes to, by its route. -/
theorem State.class3Packet_spec {s s1 : State} {g ty : Nat} {p : Pkt} {bs : List Byte} (received : s.receive g ty bs = (some p, s1))
    (class3 : ty = 1 ∨ ty = 2 ∨ ty = 4) : let u := s.class3Packet g ty bs
    (s1.routeOf p (g = 0) = .here → (∀ w ∈ s1.fl.waits, w.source ≠ some p.source) → u = s1.class3 p (g = 0)) ∧
    (s1.routeOf p (g = 0) = .here → (∃ w ∈ s1.fl.waits, w.source = some p.source) →
      u = s1.suspend .turn (b2n (g = 0)) 0 none (some ⟨some p, false, 0, 0, [], 0, 0, []⟩)) ∧
    (∀ k, s1.routeOf p (g = 0) = .group k → u = s1.sendOn k p) ∧
    (s1.routeOf p (g = 0) = .refused → ty ≠ 4 → u = (s1.faultTold p).sendOn g (s1.completion p 3 [])) ∧
    (s1.routeOf p (g = 0) = .refused → ty = 4 → u = s1.noRoute) := by
  intro u
  have typed := State.receive_ty received
  have routed : u = _ := State.class3Packet_received received
  refine ⟨fun here first => ?_, fun here behind => ?_, fun k away => ?_, fun refused request => ?_, fun refused dma => ?_⟩
  · rw [routed, here]
    exact if_neg (by simpa using first)
  · rw [routed, here]
    exact if_pos (by simpa using behind)
  · rw [routed, away]
  · rw [routed, refused]
    refine if_pos ?_
    have : p.ty = 1 ∨ p.ty = 2 := by omega
    simpa using this
  · rw [routed, refused]
    refine if_neg ?_
    simp [typed, dma]

/-! ## DMA_WR -/

/-- A refused transfer leaves DRAM and the registers of the links. -/
theorem State.fabricRefuse_links (s : State) (r : Nat) (e : Refused) : (s.fabricRefuse r e).dram = s.dram ∧
    (s.fabricRefuse r e).rd Reg.HL_DMA_ERR = s.rd Reg.HL_DMA_ERR := by
  have recorded (a b : Nat) (f g h : BitField) (x y id : Nat) (ha : Reg.HL_DMA_ERR ≠ a) (hb : Reg.HL_DMA_ERR ≠ b) :
      ((((s.setFld a f x).setFld a g y).flag b h).raise id).dram = s.dram ∧
      ((((s.setFld a f x).setFld a g y).flag b h).raise id).rd Reg.HL_DMA_ERR = s.rd Reg.HL_DMA_ERR := by
    have raised := (((s.setFld a f x).setFld a g y).flag b h).raise_keeps id 0
    exact ⟨raised.dram.trans (by rw [State.flag_dram, State.setFld_dram, State.setFld_dram]),
      (raised.rd _ (by decide) (by decide) (by decide)).trans
        (by rw [State.rd_flag_ne _ _ hb, State.rd_setFld_ne _ _ _ ha, State.rd_setFld_ne _ _ _ ha])⟩
  cases e <;> exact recorded _ _ _ _ _ _ _ _ (by decide) (by decide)

/-- A write refused leaves DRAM and the registers of the links. -/
theorem State.writeAs_refused {s : State} {r a : Nat} {bs : List Byte} (refused : (s.writeAs r a bs).1 = false) :
    (s.writeAs r a bs).2.dram = s.dram ∧ (s.writeAs r a bs).2.rd Reg.HL_DMA_ERR = s.rd Reg.HL_DMA_ERR := by
  unfold State.writeAs at refused ⊢
  split at refused
  · exact s.fabricRefuse_links _ _
  · simp at refused

/-- The source of a refused DMA_WR is noted (R333). -/
def State.dmaFault (s : State) (p : Pkt) : State :=
  { s with hl := { s.hl with fault := if s.hl.fault.contains p.source then s.hl.fault else p.source :: s.hl.fault } }

/-- A refused DMA_WR: noted, counted and told (R334). -/
def State.dmaRefused (s : State) (p : Pkt) : State :=
  (((s.dmaFault p).bump Reg.HL_DMA_ERR F.HL_DMA_ERR_COUNT).flag Reg.HL_STAT F.HL_STAT_DMA_REFUSED).raise Ev.DMA_REFUSED

theorem State.dmaRefused_spec (s : State) (p : Pkt) : (s.dmaRefused p).dram = s.dram ∧ p.source ∈ (s.dmaRefused p).hl.fault ∧
    (s.dmaRefused p).isSet Reg.HL_STAT F.HL_STAT_DMA_REFUSED = true ∧
    (s.dmaRefused p).fld Reg.HL_DMA_ERR F.HL_DMA_ERR_COUNT = min F.HL_DMA_ERR_COUNT.top (s.fld Reg.HL_DMA_ERR F.HL_DMA_ERR_COUNT + 1) := by
  generalize counted : (s.dmaFault p).bump Reg.HL_DMA_ERR F.HL_DMA_ERR_COUNT = t
  have raised : RaiseKeeps (t.flag Reg.HL_STAT F.HL_STAT_DMA_REFUSED) (s.dmaRefused p) := by
    rw [State.dmaRefused, counted]
    exact State.raise_keeps _ _ _
  refine ⟨?_, ?_, ?_, ?_⟩
  · rw [raised.dram, State.flag_dram, ← counted, State.bump_dram]
    rfl
  · rw [raised.hl, State.flag_hl, ← counted, State.bump_hl]
    unfold State.dmaFault
    dsimp only
    split
    next listed => exact List.contains_iff_mem.1 listed
    next => exact List.mem_cons_self
  · rw [State.isSet_of_rd (raised.rd _ (by decide) (by decide) (by decide))]
    exact State.isSet_flag _ _ _ (by decide) (by decide)
  · rw [State.fld_of_rd (raised.rd _ (by decide) (by decide) (by decide)), State.fld_of_rd (State.rd_flag_ne _ _ (by decide)), ← counted]
    exact State.fld_bump _ _ _ _ (by decide) (by decide)

/-- A DMA_WR out of the rules of R334. -/
def Pkt.dmaBad (p : Pkt) : Prop := p.len < 64 ∨ p.len % 64 ≠ 0 ∨ p.addr % 64 ≠ 0

theorem State.dmaHere_bad {s : State} {p : Pkt} (bad : p.dmaBad) : s.dmaHere p = s.dmaRefused p := by
  unfold Pkt.dmaBad at bad
  have rules : (decide (p.len < 64) || decide (p.len % 64 ≠ 0) || decide (p.addr % 64 ≠ 0)) = true := by
    simpa [or_assoc] using bad
  unfold State.dmaHere
  simp only [rules, if_true]
  rfl

theorem State.dmaHere_rules {s : State} {p : Pkt} (good : ¬p.dmaBad) : s.dmaHere p =
    if (s.writeAs 7 p.addr p.payload).1 = true then (s.writeAs 7 p.addr p.payload).2
    else (s.writeAs 7 p.addr p.payload).2.dmaRefused p := by
  unfold Pkt.dmaBad at good
  have rules : (decide (p.len < 64) || decide (p.len % 64 ≠ 0) || decide (p.addr % 64 ≠ 0)) = false := by
    simpa [and_assoc] using good
  unfold State.dmaHere
  simp only [rules, Bool.false_eq_true, if_false]
  rfl

/-- R334: a DMA_WR is written whole, or is refused and moves no byte. -/
theorem State.dmaHere_refused {s : State} {p : Pkt} (refused : p.dmaBad ∨ (s.writeAs 7 p.addr p.payload).1 = false) :
    (s.dmaHere p).dram = s.dram ∧ p.source ∈ (s.dmaHere p).hl.fault ∧
    (s.dmaHere p).isSet Reg.HL_STAT F.HL_STAT_DMA_REFUSED = true ∧
    (s.dmaHere p).fld Reg.HL_DMA_ERR F.HL_DMA_ERR_COUNT = min F.HL_DMA_ERR_COUNT.top (s.fld Reg.HL_DMA_ERR F.HL_DMA_ERR_COUNT + 1) := by
  by_cases bad : p.dmaBad
  · rw [State.dmaHere_bad bad]
    exact s.dmaRefused_spec p
  · have denied := refused.resolve_left bad
    obtain ⟨dram, count⟩ := State.writeAs_refused denied
    obtain ⟨dram', fault, flag, count'⟩ := (s.writeAs 7 p.addr p.payload).2.dmaRefused_spec p
    rw [State.dmaHere_rules bad, if_neg (by rw [denied]; decide)]
    rw [State.fld_of_rd count] at count'
    exact ⟨dram'.trans dram, fault, flag, count'⟩

/-! ## Guarded writes -/

/-- The state with a trailer that is not valid told (R335). -/
def State.authFailed (s : State) (p : Pkt) : State :=
  if p.auth.isSome then (s.flag Reg.HL_STAT F.HL_STAT_LINK_AUTH).raise Ev.LINK_AUTH else s

theorem State.authFailed_spec (s : State) (p : Pkt) : (s.authFailed p).bu = s.bu ∧ (s.authFailed p).au = s.au ∧ (s.authFailed p).hl = s.hl ∧
    (∀ a, a / 0x10000 = 0x0E ∨ a / 0x10000 = 0x10 → (s.authFailed p).rd a = s.rd a) ∧ (p.auth = none → s.authFailed p = s) := by
  unfold State.authFailed
  split
  next told =>
    have raised := (s.flag Reg.HL_STAT F.HL_STAT_LINK_AUTH).raise_keeps Ev.LINK_AUTH 0
    refine ⟨raised.bu, raised.au, raised.hl, fun a block => ?_, fun none' => ?_⟩
    · have outside {b : Nat} (other : b / 0x10000 ≠ 0x0E ∧ b / 0x10000 ≠ 0x10) : a ≠ b := by
        rintro rfl
        exact block.elim other.1 other.2
      rw [raised.rd a (outside (by decide)) (outside (by decide)) (outside (by decide))]
      exact State.rd_flag_ne _ _ (outside (by decide))
    · simp [none'] at told
  next => exact ⟨rfl, rfl, rfl, fun _ _ => rfl, fun _ => rfl⟩

/-- R335: a guarded write without a valid trailer is answered with AUTH. -/
theorem State.regHere_unauthentic {s : State} {p : Pkt} (write : p.ty = 1) (least : 4 ≤ p.len) (most : p.len ≤ 256) (whole : p.len % 4 = 0)
    (aligned : p.addr % 2 ^ 32 % 4 = 0) (required : s.isSet Reg.HL_CFG F.HL_CFG_AUTH_REQ = true)
    (touches : guarded (p.addr % 2 ^ 32) p.len = true) (unproved : s.trailerOk p = none) :
    s.regHere p true = (s.authFailed p).reply p 4 [] := by
  have rules : (decide (p.len < 4) || decide (256 < p.len) || decide (p.len % 4 ≠ 0) || decide (p.addr % 2 ^ 32 % 4 ≠ 0)) = false := by
    simp only [decide_eq_false (Nat.not_lt.2 least), decide_eq_false (Nat.not_lt.2 most), whole, aligned, ne_eq, not_true_eq_false,
      decide_false, Bool.or_self]
  unfold State.regHere
  simp only [rules, write, required, touches, unproved, decide_true, Bool.and_self, Bool.false_eq_true, if_false, if_true]
  rfl

/-- R335: a valid trailer is under the LINK key, with an AUTH_SEQ above the last. -/
theorem State.trailerOk_spec {s : State} {p : Pkt} {seq : Nat} (valid : s.trailerOk p = some seq) :
    s.hl.authSeq < seq ∧ ∃ key tag, s.slot 7 = some key ∧ p.auth = some (seq, tag) ∧
      tag = (hmac256 key (p.header ++ p.payload ++ leBytes 8 seq)).take 16 := by
  unfold State.trailerOk at valid
  split at valid
  next seq' tag key auth slot =>
    split at valid
    next proved =>
      obtain rfl : seq' = seq := Option.some.inj valid
      simp only [Bool.and_eq_true, decide_eq_true_eq] at proved
      exact ⟨proved.1, key, tag, slot, auth, proved.2⟩
    next => simp at valid
  next => simp at valid

/-- Settles O39: acceptance, routes, DMA_WR, and guarded writes. -/
theorem packetsReceived : Obligations.PacketsReceived := by
  unfold Obligations.PacketsReceived
  refine ⟨?received, ⟨?class3, ?completion, ?audit, fun s p up host below => ?host, fun s p up own => ?own⟩, ?dma, ?guarded,
    fun s p seq => State.trailerOk_spec⟩
  case received =>
    intro s g ty bs active x r
    refine ⟨fun p sound parsed typed sequenced => ⟨State.receive_expected active sound parsed typed sequenced, ?_, ?_⟩, fun bad other => ?_⟩
    · intro early old
      change s.receive g ty bs = _
      rw [State.receive_good active sound parsed typed sequenced, if_neg early, if_pos old]
    · intro early new fresh
      obtain ⟨sent, -, block⟩ := State.sendNak_grp active
      change (s.receive g ty bs).1 = none ∧ ((s.receive g ty bs).2.grp g).nakSent = true ∧ ((s.receive g ty bs).2.grp g).block = _
      rw [State.receive_good active sound parsed typed sequenced, if_neg early, if_neg (Nat.not_lt.2 new)]
      exact ⟨rfl, sent, block fresh⟩
    · have same : (s.bump (Reg.HL_Gg_PKT g) F.HL_Gg_PKT_CRC_ERR).grp g = s.grp g := rfl
      obtain ⟨sent, seq, -⟩ := State.sendNak_grp (s := s.bump (Reg.HL_Gg_PKT g) F.HL_Gg_PKT_CRC_ERR) (same ▸ active)
      change (s.receive g ty bs).1 = none ∧ ((s.receive g ty bs).2.grp g).rxSeq = _ ∧ ((s.receive g ty bs).2.grp g).nakSent = true
      rw [State.receive_bad active bad other]
      exact ⟨rfl, seq, sent⟩
  case class3 =>
    intro s s1 g p bs c ty out ref instr received
    simp only [List.mem_cons, Prod.mk.injEq, List.not_mem_nil, or_false] at instr
    rcases instr with ⟨rfl, rfl⟩ | ⟨rfl, rfl⟩ | ⟨rfl, rfl⟩ <;>
      exact ⟨_, State.next_onLanes out ref rfl, State.class3Packet_spec received (by decide)⟩
  case completion =>
    intro s s1 g p bs out ref received
    exact ⟨_, State.next_onLanes out ref rfl, State.rdCplPacket_received received⟩
  case audit =>
    intro s s1 g p bs out ref received
    exact ⟨_, State.next_onLanes out ref rfl, State.audPacket_received received⟩
  case host =>
    simp [State.routeOf, host, below]
  case own =>
    unfold State.routeOf
    rw [if_neg (by rcases own with own | own <;> simp [own])]
    simp
  case dma =>
    intro s p w bad
    refine ⟨fun good written => ?_, State.dmaHere_refused⟩
    rw [State.dmaHere_rules good]
    exact if_pos written
  case guarded =>
    intro s p write least most whole aligned required touches unproved
    exact ⟨_, State.regHere_unauthentic write least most whole aligned required touches unproved, s.authFailed_spec p⟩

end Sys2Proof.Machine
end

section
/-! PROOFS of O36: block and marker lock, retrains, the steps and bounds of bring-up, and the scrambler. -/

namespace Sys2Proof.Machine

/-! ## The scrambler -/

/-- The bits sent from bit `i` on stand from bit `i` on. -/
theorem pow_dvd_scrambleBits (n i st d : Nat) : 2 ^ i ∣ (scrambleBits n i st d).1 := by
  induction n generalizing i st with
  | zero => exact Nat.dvd_zero _
  | succ n ih => exact Nat.dvd_add ((Nat.pow_dvd_pow 2 (Nat.le_succ i)).trans (ih (i + 1) _)) (Nat.dvd_mul_left _ _)

/-- Bits from `i` on, with bit `i` put below those from `i + 1` on. -/
theorem testBit_bitBelow {x i : Nat} (b : Bool) (above : 2 ^ (i + 1) ∣ x) :
    (x + b2n b * 2 ^ i).testBit i = b ∧ ∀ j, i + 1 ≤ j → (x + b2n b * 2 ^ i).testBit j = x.testBit j := by
  obtain ⟨q, rfl⟩ := above
  have joined (c : Bool) : 2 ^ (i + 1) * q + b2n c * 2 ^ i = 2 ^ i * (2 * q + b2n c) := by ring
  have alone : 2 ^ (i + 1) * q = 2 ^ i * (2 * q + b2n false) := by rw [← joined]; simp [b2n]
  rw [joined]
  refine ⟨?_, fun j later => ?_⟩
  · rw [Nat.testBit_two_pow_mul]
    cases b <;> simp [b2n, Nat.testBit_zero]
  · rw [alone, Nat.testBit_two_pow_mul, Nat.testBit_two_pow_mul]
    obtain ⟨m, rfl⟩ := Nat.exists_eq_add_of_le later
    have place : i + 1 + m - i = m + 1 := by omega
    have halved (c : Bool) : (2 * q + b2n c) / 2 = q := by
      have bit : b2n c < 2 := by cases c <;> decide
      omega
    rw [place, Nat.testBit_succ, Nat.testBit_succ, halved, halved]

/-- What is descrambled from bit `i` on follows from the bits from `i` on. -/
theorem descrambleBits_congr {d e : Nat} (n : Nat) {i : Nat} (same : ∀ j, i ≤ j → d.testBit j = e.testBit j) (st : Nat) :
    descrambleBits n i st d = descrambleBits n i st e := by
  induction n generalizing i st with
  | zero => rfl
  | succ n ih =>
    unfold descrambleBits
    rw [same i le_rfl, ih (fun j later => same j (by omega))]

/-- R320: descrambling what was scrambled gives back the bits, and the state of the sender. -/
theorem descrambleBits_scrambleBits (n i st d : Nat) :
    descrambleBits n i st (scrambleBits n i st d).1 = (d / 2 ^ i % 2 ^ n * 2 ^ i, (scrambleBits n i st d).2) := by
  induction n generalizing i st with
  | zero => simp [descrambleBits, scrambleBits, Nat.mod_one]
  | succ n ih =>
    unfold scrambleBits
    dsimp only
    generalize sent : xor (d.testBit i) (scrTap st) = b
    obtain ⟨own, later⟩ := testBit_bitBelow b (pow_dvd_scrambleBits n (i + 1) (scrPush st b) d)
    have back : xor b (scrTap st) = d.testBit i := by rw [← sent]; simp
    unfold descrambleBits
    rw [own, back, descrambleBits_congr n later, ih]
    have halves : d / 2 ^ i % 2 ^ (n + 1) = b2n (d.testBit i) + 2 * (d / 2 ^ (i + 1) % 2 ^ n) := by
      have bit : b2n (d.testBit i) = d / 2 ^ i % 2 := by
        rw [Nat.testBit_eq_decide_div_mod_eq]
        rcases Nat.mod_two_eq_zero_or_one (d / 2 ^ i) with h | h <;> simp [h, b2n]
      rw [bit, pow_succ', Nat.mod_mul, Nat.div_div_eq_div_mul, ← pow_succ]
    rw [halves]
    exact Prod.ext (by ring) rfl

/-- The state after some bits are received: those bits, behind the state before them. -/
theorem descrambleBits_state (n i d : Nat) : ∃ c, ∀ st, (descrambleBits (n + 1) i st d).2 = (2 ^ (n + 1) * st + c) % 2 ^ 58 := by
  induction n generalizing i with
  | zero => exact ⟨b2n (d.testBit i), fun st => rfl⟩
  | succ n ih =>
    obtain ⟨c, after⟩ := ih (i + 1)
    refine ⟨2 ^ (n + 1) * b2n (d.testBit i) + c, fun st => ?_⟩
    have step : (descrambleBits (n + 1 + 1) i st d).2 = (descrambleBits (n + 1) (i + 1) (scrPush st (d.testBit i)) d).2 := rfl
    rw [step, after, scrPush, Nat.add_mod, Nat.mul_mod, Nat.mod_mod, ← Nat.mul_mod, ← Nat.add_mod]
    congr 1
    ring

/-- R320: a block of 64 bits leaves nothing of the state before it. -/
theorem descramble_state (a b d : Nat) : (descramble a d).2 = (descramble b d).2 := by
  obtain ⟨c, after⟩ := descrambleBits_state 63 0 d
  unfold descramble
  rw [after, after]
  have whole (x : Nat) : (2 ^ (63 + 1) * x + c) % 2 ^ 58 = c % 2 ^ 58 := by
    rw [show 2 ^ (63 + 1) * x + c = c + 2 ^ 58 * (2 ^ 6 * x) by ring, Nat.add_mul_mod_self_left]
  rw [whole, whole]

theorem descramble_scramble (st : Nat) {d : Nat} (block : d < 2 ^ 64) : descramble st (scramble st d).1 = (d, (scramble st d).2) := by
  unfold descramble scramble
  rw [descrambleBits_scrambleBits, Nat.pow_zero, Nat.div_one, Nat.mul_one, Nat.mod_eq_of_lt block]

/-! ## Lanes -/

theorem State.lane_setLane (s : State) (k j : Nat) (l : LaneState) :
    (s.setLane k l).lane j = if j = k ∧ k < s.hl.lanes.length then l else s.lane j := by
  unfold State.lane State.setLane
  dsimp only
  by_cases own : j = k
  · subst own
    by_cases there : j < s.hl.lanes.length
    · rw [if_pos ⟨rfl, there⟩, getD_set_self _ _ there]
    · rw [if_neg fun c => there c.2, List.set_eq_of_length_le (Nat.le_of_not_lt there)]
  · rw [if_neg fun c => own c.1, getD_set_ne _ _ _ own]

theorem State.lane_setLane_self {s : State} {k : Nat} (l : LaneState) (there : k < s.hl.lanes.length) : (s.setLane k l).lane k = l := by
  rw [State.lane_setLane, if_pos ⟨rfl, there⟩]

/-- A relation that each step of a fold keeps, the fold keeps. -/
theorem foldl_keeps {α β : Type} {R : β → β → Prop} (refl : ∀ s, R s s) (trans : ∀ {s t u}, R s t → R t u → R s u) {f : β → α → β}
    (step : ∀ s x, R s (f s x)) (l : List α) (s : β) : R s (l.foldl f s) := by
  induction l generalizing s with
  | nil => exact refl s
  | cons x l ih => exact trans (step s x) (ih _)

/-- What of each lane the receiver holds, as it was: all but what the lane sends. -/
def State.ReceiversStand (s t : State) : Prop :=
  ∀ j, { t.lane j with txScr := 0, wire := [] } = ({ s.lane j with txScr := 0, wire := [] } : LaneState)

theorem State.ReceiversStand.refl (s : State) : s.ReceiversStand s := fun _ => rfl

theorem State.ReceiversStand.trans {s t u : State} (h : s.ReceiversStand t) (k : t.ReceiversStand u) : s.ReceiversStand u :=
  fun j => (k j).trans (h j)

theorem State.ReceiversStand.locks {s t : State} (h : s.ReceiversStand t) (j : Nat) : (t.lane j).skew = (s.lane j).skew ∧
    (t.lane j).amLock = (s.lane j).amLock :=
  ⟨(LaneState.mk.inj (h j)).2.2.2.2.2.1, (LaneState.mk.inj (h j)).2.2.1⟩

/-- A lane that sends. -/
theorem State.setLane_receiversStand {s : State} {k : Nat} {l : LaneState}
    (same : { l with txScr := 0, wire := [] } = ({ s.lane k with txScr := 0, wire := [] } : LaneState)) : s.ReceiversStand (s.setLane k l) := by
  intro j
  rw [State.lane_setLane]
  split
  next own =>
    obtain ⟨rfl, -⟩ := own
    exact same
  next => rfl

theorem State.receiversStand_of_lanes {s t : State} (lanes : t.hl.lanes = s.hl.lanes) : s.ReceiversStand t := by
  intro j
  unfold State.lane
  rw [lanes]

theorem State.wiresClear_receiversStand (s : State) (base n : Nat) : s.ReceiversStand (s.wiresClear base n) := by
  refine foldl_keeps State.ReceiversStand.refl State.ReceiversStand.trans (fun t i => ?_) _ s
  exact State.setLane_receiversStand rfl

theorem State.stripe_receiversStand (base n i : Nat) (bs : List (Fin 4 × List Byte)) (s : State) :
    s.ReceiversStand (State.stripe base n i bs s) := by
  induction bs generalizing i s with
  | nil => exact .refl s
  | cons b bs ih =>
    have first : s.ReceiversStand (s.setLane (base + i % n) ((s.lane (base + i % n)).put b)) := State.setLane_receiversStand rfl
    exact first.trans (ih _ _)

theorem State.sendBlocks_receiversStand (s : State) (g : Nat) (bs : List (Fin 4 × List Byte)) : s.ReceiversStand (s.sendBlocks g bs) := by
  unfold State.sendBlocks
  dsimp only
  split
  · exact .refl s
  · have moved : s.ReceiversStand (s.setGrp g { s.grp g with stream := (s.grp g).stream + bs.length }) :=
      State.receiversStand_of_lanes rfl
    exact (moved.trans (State.wiresClear_receiversStand _ _ _)).trans (State.stripe_receiversStand _ _ _ _ _)

theorem State.sendTrainAs_receiversStand (s : State) (g st : Nat) : s.ReceiversStand (s.sendTrainAs g st) := by
  refine (s.wiresClear_receiversStand _ _).trans (foldl_keeps State.ReceiversStand.refl State.ReceiversStand.trans (fun t i => ?_) _ _)
  exact State.setLane_receiversStand rfl

theorem State.sendTrainAs_onlyLanes (s : State) (g st : Nat) : s.OnlyLanes (s.sendTrainAs g st) :=
  (s.wiresClear_onlyLanes _ _).trans (State.foldl_onlyLanes (fun s _ => s.setLane_onlyLanes _ _) _ _)

theorem State.sendTrain_onlyLanes (s : State) (g : Nat) : s.OnlyLanes (s.sendTrain g) := by
  unfold State.sendTrain
  split
  · exact .refl s
  · exact s.sendTrainAs_onlyLanes g _

theorem State.becomeSummit_receiversStand (s : State) : s.ReceiversStand s.becomeSummit :=
  State.receiversStand_of_lanes (by rw [s.becomeSummit_spec.2.2.2.1])

theorem State.resend_receiversStand (s : State) (g : Nat) : s.ReceiversStand (s.resend g) := by
  have first : s.ReceiversStand (s.setGrp g { s.grp g with sent := (s.grp g).replay }) := State.receiversStand_of_lanes rfl
  exact (first.trans (State.sendBlocks_receiversStand _ _ _)).trans (State.receiversStand_of_lanes rfl)

theorem State.goActive_receiversStand (s : State) (g : Nat) : s.ReceiversStand (s.goActive g) := by
  have first : s.ReceiversStand (s.setGrp g { s.grp g with st := .active, retrain := false, steps := 0 }) := State.receiversStand_of_lanes rfl
  unfold State.goActive
  dsimp only
  generalize s.setGrp g _ = t at first
  generalize indexed : (if ((s.grp g).retrain || decide (g ≠ 0)) = true then t else if (s.grp g).partner = 1 then t.becomeSummit
    else (t.setFld Reg.HL_INDEX F.HL_INDEX_SUMMIT 0).setFld Reg.HL_INDEX F.HL_INDEX_VALID 0) = u
  have second : t.ReceiversStand u := by
    rw [← indexed]
    split
    · exact .refl t
    · split
      · exact t.becomeSummit_receiversStand
      · exact State.receiversStand_of_lanes (by rw [State.setFld_hl, State.setFld_hl])
  split
  · exact first.trans second
  · exact (first.trans second).trans (u.resend_receiversStand g)

/-- Nothing that follows DESKEW touches what the receivers hold. -/
theorem State.deskewCheck_receiversStand (s : State) (g : Nat) : s.ReceiversStand (s.deskewCheck g) := by
  unfold State.deskewCheck
  dsimp only
  split
  · split
    · exact (s.sendTrainAs_receiversStand g 4).trans (State.goActive_receiversStand _ _)
    · exact s.sendTrainAs_receiversStand g 4
  · exact .refl s

/-! ## Block lock -/

/-- The state that counts an invalid sync header (R320). -/
def State.syncCounted (s : State) (k : Nat) (ok : Bool) : State := if ok then s else s.bump (Reg.HL_Lk_ERR k) F.HL_Lk_ERR_SYNC_ERR

theorem State.syncCounted_hl (s : State) (k : Nat) (ok : Bool) : (s.syncCounted k ok).hl = s.hl := by
  unfold State.syncCounted
  split <;> rfl

theorem State.syncCounted_lane (s : State) (k : Nat) (ok : Bool) (j : Nat) : (s.syncCounted k ok).lane j = s.lane j := by
  unfold State.lane
  rw [s.syncCounted_hl]

/-- The valid headers in a row with one more. -/
def LaneState.runWith (l : LaneState) (ok : Bool) : Nat := if ok then min 64 (l.run + 1) else 0

/-- The last 64 headers with one more. -/
def LaneState.histWith (l : LaneState) (ok : Bool) : List Bool := (l.hist ++ [ok]).drop ((l.hist ++ [ok]).length - 64)

/-- Lock is lost: 16 of the last 64 headers are invalid. -/
def LaneState.loses (l : LaneState) (ok : Bool) : Bool := decide (16 ≤ ((l.histWith ok).filter fun b => !b).length)

/-- A lane after a sync header. -/
def LaneState.synced (l : LaneState) (ok : Bool) : LaneState :=
  if l.blockLock then { l with run := if l.loses ok then 0 else l.runWith ok, hist := if l.loses ok then [] else l.histWith ok,
                               blockLock := !l.loses ok }
  else { l with cdr := true, run := l.runWith ok, hist := [], blockLock := decide (l.runWith ok = 64) }

theorem State.syncHeader_eq (s : State) (k : Nat) (ok : Bool) :
    s.syncHeader k ok = ((s.syncCounted k ok).setLane k ((s.lane k).synced ok), (s.lane k).blockLock && (s.lane k).loses ok) := by
  have fold : s.syncHeader k ok = if !((s.syncCounted k ok).lane k).blockLock then
      ((s.syncCounted k ok).setLane k { (s.syncCounted k ok).lane k with
        cdr := true, run := ((s.syncCounted k ok).lane k).runWith ok, hist := [],
        blockLock := decide (((s.syncCounted k ok).lane k).runWith ok = 64) }, false)
      else ((s.syncCounted k ok).setLane k { (s.syncCounted k ok).lane k with
        run := if ((s.syncCounted k ok).lane k).loses ok then 0 else ((s.syncCounted k ok).lane k).runWith ok,
        hist := if ((s.syncCounted k ok).lane k).loses ok then [] else ((s.syncCounted k ok).lane k).histWith ok,
        blockLock := !((s.syncCounted k ok).lane k).loses ok }, ((s.syncCounted k ok).lane k).loses ok) := rfl
  rw [fold, s.syncCounted_lane]
  unfold LaneState.synced
  by_cases locked : (s.lane k).blockLock = true
  · rw [if_neg (by simp [locked]), if_pos locked, locked, Bool.true_and]
  · rw [if_pos (by simp [locked]), if_neg locked, eq_false_of_ne_true locked, Bool.false_and]

theorem LaneState.synced_marks (l : LaneState) (ok : Bool) : (l.synced ok).amLock = l.amLock ∧ (l.synced ok).amGood = l.amGood := by
  unfold LaneState.synced
  split <;> exact ⟨rfl, rfl⟩

/-- A lane of a state after a sync header. -/
theorem State.lane_syncHeader {s : State} {k : Nat} (ok : Bool) (there : k < s.hl.lanes.length) :
    (s.syncHeader k ok).1.lane k = (s.lane k).synced ok := by
  rw [s.syncHeader_eq]
  exact State.lane_setLane_self _ (by rwa [s.syncCounted_hl])

theorem State.fld_setLane (s : State) (k : Nat) (l : LaneState) (a : Nat) (f : BitField) : (s.setLane k l).fld a f = s.fld a f := rfl

/-- R320: an invalid header is counted. -/
theorem State.syncHeader_counts (s : State) (k : Nat) : (s.syncHeader k false).1.fld (Reg.HL_Lk_ERR k) F.HL_Lk_ERR_SYNC_ERR =
    min F.HL_Lk_ERR_SYNC_ERR.top (s.fld (Reg.HL_Lk_ERR k) F.HL_Lk_ERR_SYNC_ERR + 1) := by
  rw [s.syncHeader_eq]
  exact (State.fld_setLane _ _ _ _ _).trans (s.fld_bump _ _ _ (by decide) (by decide))

/-- What blocks received on a lane leave: the groups, and the registers but HL_Lk_ERR of the lane. -/
structure State.HeardOn (s : State) (k : Nat) (t : State) : Prop where
  groups : t.hl.groups = s.hl.groups
  lanes : t.hl.lanes.length = s.hl.lanes.length
  rd : ∀ a, a ≠ Reg.HL_Lk_ERR k → t.rd a = s.rd a

theorem State.HeardOn.refl (s : State) (k : Nat) : s.HeardOn k s := ⟨rfl, rfl, fun _ _ => rfl⟩

theorem State.HeardOn.trans {s t u : State} {k : Nat} (h : s.HeardOn k t) (h' : t.HeardOn k u) : s.HeardOn k u :=
  ⟨h'.groups.trans h.groups, h'.lanes.trans h.lanes, fun a other => (h'.rd a other).trans (h.rd a other)⟩

theorem State.setLane_heardOn (s : State) (k : Nat) (l : LaneState) : s.HeardOn k (s.setLane k l) :=
  ⟨rfl, List.length_set, fun _ _ => rfl⟩

theorem State.bump_heardOn (s : State) (k : Nat) (f : BitField) : s.HeardOn k (s.bump (Reg.HL_Lk_ERR k) f) :=
  ⟨congrArg HlState.groups (s.bump_hl _ _ _), congrArg (fun h => h.lanes.length) (s.bump_hl _ _ _), fun _ other => State.rd_bump_ne _ _ _ other⟩

theorem State.syncHeader_heardOn (s : State) (k : Nat) (ok : Bool) : s.HeardOn k (s.syncHeader k ok).1 := by
  rw [s.syncHeader_eq]
  refine State.HeardOn.trans ?_ (State.setLane_heardOn _ _ _)
  unfold State.syncCounted
  split
  · exact .refl s k
  · exact s.bump_heardOn k _

theorem State.laneBlock_heardOn (s : State) (k : Nat) (b : Block) : s.HeardOn k (s.laneBlock k b).2.1 := by
  have heard : s.HeardOn k ((s.syncHeader k (headerValid b)).1.blockPayload k b).2 :=
    (s.syncHeader_heardOn k _).trans (State.setLane_heardOn _ _ _)
  unfold State.laneBlock
  dsimp only
  split
  · split
    · exact heard
    · exact heard.trans (State.bump_heardOn _ _ _)
  · exact heard

theorem State.laneBlocks_heardOn (s : State) (k : Nat) (bs : List Block) : s.HeardOn k (s.laneBlocks k bs).1 := by
  refine foldl_keeps (R := fun a c : State × Bool => a.1.HeardOn k c.1) (fun a => .refl a.1 k) State.HeardOn.trans (fun a b => ?_) bs
    (s, false)
  exact a.1.laneBlock_heardOn k b

/-! ## Retrains -/

/-- What a retrain leaves of the registers: those of the lanes, and all other blocks up to FL. -/
theorem State.startRetrain_rd (s : State) {g a : Nat} (group : g < 3) (low : 0xC0200 ≤ a) (high : a < 0x110000) :
    (s.startRetrain g).rd a = s.rd a := by
  by_cases active : (s.grp g).st = .active
  · have relocking : (s.relocking g).rd a = s.rd a :=
      State.rd_of_regs (State.foldl_proj (·.regs) (by intros; rfl) _ (s.setGrp g (s.grp g).retraining)) a
    have above {b : Nat} (fault : 0x110000 ≤ b) : a ≠ b := by omega
    have below {b : Nat} (link : b < 0xC0200) : a ≠ b := by omega
    have xing : ((s.relocking g).xingReset 0x0C).rd a = (s.relocking g).rd a := by
      have counted : ((s.relocking g).xingCounted 0x0C []).rd a = (s.relocking g).rd a := by
        rw [State.xingCounted, State.rd_flag_ne _ _ (above (by decide)), State.rd_setFld_ne _ _ _ (above (by decide)),
          State.rd_bump_ne _ _ _ (above (by decide))]
        rfl
      rw [State.xingReset_eq, (State.raiseWith_keeps _ _ _ _ _).rd a (above (by decide)) (above (by decide)) (above (by decide)), counted]
    rw [State.startRetrain_eq active, (State.raise_keeps _ _ _).rd a (above (by decide)) (above (by decide)) (above (by decide)),
      State.rd_flag_ne _ _ (below (by decide)), State.rd_bump_ne _ _ _ (below (by unfold Reg.HL_Gg_LINK; omega)), xing, relocking]
  · rw [State.startRetrain_idle active]

/-- The locks of a lane are as they were, but AM lock may end. -/
def State.UnlocksOnly (s t : State) : Prop :=
  ∀ j, (t.lane j).blockLock = (s.lane j).blockLock ∧ ((s.lane j).amLock = false → (t.lane j).amLock = false)

theorem State.unlocked_unlocksOnly (s : State) (g n : Nat) : s.UnlocksOnly (s.unlocked g n) := by
  refine foldl_keeps (R := State.UnlocksOnly) (fun s j => ⟨rfl, id⟩) (fun h k j => ⟨(k j).1.trans (h j).1, fun off => (k j).2 ((h j).2 off)⟩)
    (fun t i j => ?_) _ s
  rw [State.lane_setLane]
  split
  next own =>
    obtain ⟨rfl, -⟩ := own
    exact ⟨rfl, fun _ => rfl⟩
  next => exact ⟨rfl, id⟩

theorem State.startRetrain_unlocksOnly (s : State) (g : Nat) : s.UnlocksOnly (s.startRetrain g) := by
  by_cases active : (s.grp g).st = .active
  · have lanes : (s.startRetrain g).hl.lanes = (s.relocking g).hl.lanes := by
      have xing := ((s.relocking g).xingReset_keeps 0x0C []).1
      rw [State.startRetrain_eq active, (State.raise_keeps _ _ _).hl, State.flag_hl, State.bump_hl, xing]
    intro j
    have same : (s.startRetrain g).lane j = (s.relocking g).lane j := by
      unfold State.lane
      rw [lanes]
    rw [same]
    exact (s.setGrp g (s.grp g).retraining).unlocked_unlocksOnly g (s.grp g).lanes j
  · rw [State.startRetrain_idle active]
    exact fun j => ⟨rfl, id⟩

theorem State.startRetrain_flags {s : State} {g : Nat} (active : (s.grp g).st = .active) :
    (s.startRetrain g).isSet Reg.HL_STAT F.HL_STAT_LINK_RETRAIN = true := by
  rw [State.startRetrain_eq active, State.isSet_of_rd ((State.raise_keeps _ _ _).rd _ (by decide) (by decide) (by decide))]
  exact State.isSet_flag _ _ _ (by decide) (by decide)

/-- R322: a lane that lost its clock or its locks. -/
def LaneState.dark (l : LaneState) : LaneState :=
  { l with cdr := false, blockLock := false, amLock := false, amGood := 0, run := 0, hist := [] }

/-- The loss of a lane kept in HL_Lk_STAT, its locks ended. -/
def State.darkened (s : State) (k : Nat) (f : BitField) : State :=
  (s.flag (Reg.HL_Lk_STAT k) f).setLane k (s.lane k).dark

/-- The lane is one its group uses. -/
def State.inForce (s : State) (k : Nat) : Prop := s.groupOf k < 3 ∧ k < s.laneBase (s.groupOf k) + (s.grp (s.groupOf k)).lanes

theorem State.groups_darkened (s : State) (k : Nat) (f : BitField) : (s.darkened k f).hl.groups = s.hl.groups := by
  unfold State.darkened State.setLane
  dsimp only
  rw [State.flag_hl]

theorem State.grp_darkened (s : State) (k : Nat) (f : BitField) (g : Nat) : (s.darkened k f).grp g = s.grp g :=
  State.grp_of_groups (s.groups_darkened k f) g

theorem State.groupOf_of_groups {s t : State} (groups : t.hl.groups = s.hl.groups) (k : Nat) : t.groupOf k = s.groupOf k := by
  unfold State.groupOf State.laneBase State.cfgLanes State.grp
  rw [groups]

theorem State.laneLost_eq (s : State) (k : Nat) (f : BitField) [Decidable (s.inForce k)] :
    s.laneLost k f = if s.inForce k then (s.darkened k f).startRetrain (s.groupOf k) else s.darkened k f := by
  have fold : s.laneLost k f = if ((s.darkened k f).groupOf k < 3 &&
      k < (s.darkened k f).laneBase ((s.darkened k f).groupOf k) + ((s.darkened k f).grp ((s.darkened k f).groupOf k)).lanes) = true
      then (s.darkened k f).startRetrain ((s.darkened k f).groupOf k) else s.darkened k f := rfl
  rw [fold, State.groupOf_of_groups (s.groups_darkened k f)]
  refine if_congr ?_ rfl rfl
  unfold State.laneBase State.inForce
  rw [s.grp_darkened]
  simp [State.laneBase]

theorem State.laneLost_used {s : State} {k : Nat} (f : BitField) (used : s.inForce k) :
    s.laneLost k f = (s.darkened k f).startRetrain (s.groupOf k) := by
  classical
  rw [State.laneLost_eq, if_pos used]

theorem State.laneLost_unused {s : State} {k : Nat} (f : BitField) (unused : ¬s.inForce k) : s.laneLost k f = s.darkened k f := by
  classical
  rw [State.laneLost_eq, if_neg unused]

theorem State.darkened_locks (s : State) (k : Nat) (f : BitField) : ((s.darkened k f).lane k).blockLock = false ∧
    ((s.darkened k f).lane k).amLock = false := by
  by_cases there : k < s.hl.lanes.length
  · have own : (s.darkened k f).lane k = (s.lane k).dark := State.lane_setLane_self _ (by rwa [State.flag_hl])
    rw [own]
    exact ⟨rfl, rfl⟩
  · have beyond : (s.darkened k f).lane k = LaneState.reset := by
      unfold State.darkened
      rw [State.lane_setLane, if_neg fun c => there (by rw [State.flag_hl] at c; exact c.2)]
      unfold State.lane
      rw [State.flag_hl]
      simp [List.getD, Nat.le_of_not_lt there]
    rw [beyond]
    exact ⟨rfl, rfl⟩

/-- R322, R326: what the loss of a lane does to the groups, the lane and the registers of lanes. -/
theorem State.laneLost_spec (s : State) (k : Nat) (f : BitField) : let u := s.laneLost k f
    (∀ h, u.grp h = s.grp h ∨ (h = s.groupOf k ∧ s.inForce k ∧ (s.grp h).st = .active ∧ u.grp h = (s.grp h).retraining)) ∧
    (s.inForce k → (s.grp (s.groupOf k)).st = .active → u.grp (s.groupOf k) = (s.grp (s.groupOf k)).retraining ∧
      u.isSet Reg.HL_STAT F.HL_STAT_LINK_RETRAIN = true) ∧
    (u.lane k).blockLock = false ∧ (u.lane k).amLock = false ∧
    (∀ a, 0xC0200 ≤ a → a < 0x110000 → u.rd a = (s.flag (Reg.HL_Lk_STAT k) f).rd a) := by
  intro u
  obtain ⟨block, am⟩ := s.darkened_locks k f
  by_cases used : s.inForce k
  · have start : u = _ := State.laneLost_used f used
    have unlocks := (s.darkened k f).startRetrain_unlocksOnly (s.groupOf k) k
    rw [start]
    refine ⟨fun h => ?_, fun _ active => ⟨?_, State.startRetrain_flags (by rwa [s.grp_darkened])⟩, unlocks.1.trans block, unlocks.2 am,
      fun a low high => State.startRetrain_rd _ used.1 low high⟩
    · rw [State.startRetrain_grp, s.grp_darkened, s.grp_darkened]
      split
      next own =>
        obtain ⟨rfl, active⟩ := own
        exact .inr ⟨rfl, used, active, rfl⟩
      next => exact .inl rfl
    · rw [State.startRetrain_grp, s.grp_darkened, if_pos ⟨rfl, active⟩]
  · have stays : u = _ := State.laneLost_unused f used
    rw [stays]
    exact ⟨fun h => .inl (s.grp_darkened k f h), fun used' => absurd used' used, block, am, fun a _ _ => rfl⟩

end Sys2Proof.Machine
end

section
/-! PROOFS of O36, continued: the steps of bring-up and their bounds. -/

namespace Sys2Proof.Machine

/-! ## Locks of a group -/

/-- LOCKED of the first `n` lanes has no bit beyond them, and bit `i` stands for block lock of lane `i`. -/
theorem lockedBits (locked : Nat → Bool) (n : Nat) :
    let m := (List.range n).foldl (fun m i => if locked i then m + 2 ^ i else m) 0
    m < 2 ^ n ∧ ∀ i, locked i = false → m.testBit i = false := by
  induction n with
  | zero => simp
  | succ n ih =>
    obtain ⟨small, clear⟩ := ih
    rw [List.range_succ, List.foldl_append, List.foldl_cons, List.foldl_nil]
    generalize (List.range n).foldl (fun m i => if locked i then m + 2 ^ i else m) 0 = m at small clear ⊢
    rw [pow_succ]
    by_cases own : locked n = true
    · rw [if_pos own]
      refine ⟨by omega, fun i off => ?_⟩
      have other : n ≠ i := by
        rintro rfl
        exact absurd (own.symm.trans off) (by decide)
      rcases Nat.lt_or_gt_of_ne other with above | below
      · refine Nat.testBit_lt_two_pow (lt_of_lt_of_le (by omega : m + 2 ^ n < 2 ^ (n + 1)) (Nat.pow_le_pow_right (by decide) above))
      · rw [Nat.add_comm, Nat.testBit_two_pow_add_gt below]
        exact clear i off
    · rw [if_neg own]
      exact ⟨by omega, clear⟩

/-- A lane without block lock is not in LOCKED. -/
theorem State.testBit_lockedMask {s : State} {g i : Nat} (dark : (s.lane (s.laneBase g + i)).blockLock = false) :
    (s.lockedMask g).testBit i = false :=
  (lockedBits (fun i => (s.lane (s.laneBase g + i)).blockLock) (s.cfgLanes g)).2 i dark

/-! ## TRAIN blocks -/

/-- The state of the lane after the blocks of a TRAIN, before what it says is looked at. -/
def State.trainHeard (s : State) (k : Nat) (before : List Block) (b : Block) : State × Bool :=
  ((((s.laneBlocks k before).1.laneBlock k b).2.1), ((s.laneBlocks k before).2 || ((s.laneBlocks k before).1.laneBlock k b).2.2))

theorem State.trainHeard_heardOn (s : State) (k : Nat) (before : List Block) (b : Block) : s.HeardOn k (s.trainHeard k before b).1 :=
  (s.laneBlocks_heardOn k before).trans (State.laneBlock_heardOn _ k b)

/-- An ACTIVE group whose lane lost its block lock meanwhile retrains. -/
def State.trainLost (s : State) (g k : Nat) (before : List Block) (b : Block) : State :=
  if ((s.trainHeard k before b).2 && ((s.trainHeard k before b).1.grp g).st = .active) = true then
    (s.trainHeard k before b).1.laneLost k F.HL_Lk_STAT_LOL
  else (s.trainHeard k before b).1

theorem State.trainBlock_read {s : State} {g i st cap node theirs : Nat} {before : List Block} {b : Block} (used : i < s.cfgLanes g)
    (read : (((s.laneBlocks (s.laneBase g + i) before).1.laneBlock (s.laneBase g + i) b).1.bind (readTrain i)) = some (st, cap, node, theirs)) :
    s.trainBlock g i before b true =
      let t := (s.trainLost g (s.laneBase g + i) before b).trainStep g i st cap node theirs
      if (t.grp g).st = .deskew || (t.grp g).st = .active then t else t.sendTrain g := by
  unfold State.trainBlock
  dsimp only
  rw [if_neg (Nat.not_le.2 used), if_neg (by decide), read]
  rfl

/-- The groups after a TRAIN block, but for what the group sends. -/
theorem State.trainBlock_grp {s : State} {g i st cap node theirs : Nat} {before : List Block} {b : Block} (used : i < s.cfgLanes g)
    (read : (((s.laneBlocks (s.laneBase g + i) before).1.laneBlock (s.laneBase g + i) b).1.bind (readTrain i)) = some (st, cap, node, theirs)) :
    ((s.trainLost g (s.laneBase g + i) before b).trainStep g i st cap node theirs).OnlyLanes (s.trainBlock g i before b true) := by
  rw [State.trainBlock_read used read]
  dsimp only
  split
  · exact .refl _
  · exact State.sendTrain_onlyLanes _ g

/-- A partner that a group may have (R325). -/
def validPartner (g node : Nat) : Prop := (g = 0 ∧ (node = 0 ∨ node = 2)) ∨ (g ≠ 0 ∧ node = 1)

theorem State.trainStep_partner {s : State} {g st cap node theirs : Nat} (detect : (s.grp g).st = .detect) (valid : validPartner g node) :
    s.trainStep g 0 st cap node theirs =
      s.setGrp g { s.grp g with st := .train, partner := if node = 0 then 1 else 2, cap := cap, steps := 0 } := by
  unfold validPartner at valid
  unfold State.trainStep
  dsimp only
  rw [detect]
  dsimp only
  rw [if_neg (by decide), if_pos (by simpa using valid)]

theorem State.trainStep_stranger {s : State} {g st cap node theirs : Nat} (detect : (s.grp g).st = .detect) (stranger : ¬validPartner g node) :
    s.trainStep g 0 st cap node theirs = if (s.grp g).steps = 0 then (s.setGrp g { s.grp g with steps := 1 }).linkDown g else s := by
  unfold validPartner at stranger
  unfold State.trainStep
  dsimp only
  rw [detect]
  dsimp only
  rw [if_neg (by decide), if_neg (by simpa using stranger)]

/-- LINK_DOWN leaves the links and what they are set to, and is flagged. -/
theorem State.linkDown_spec (s : State) {g : Nat} (group : g < 3) : (s.linkDown g).hl = s.hl ∧
    (s.linkDown g).isSet Reg.HL_STAT F.HL_STAT_LINK_DOWN = true ∧ (s.linkDown g).rd Reg.HL_CFG = s.rd Reg.HL_CFG := by
  have raised := ((s.flag Reg.HL_STAT F.HL_STAT_LINK_DOWN).bump (Reg.HL_Gg_LINK g) F.HL_Gg_LINK_DOWN).raise_keeps Ev.LINK_DOWN 0
  have above {b : Nat} (low : b < 0xC0100) : b ≠ Reg.HL_Gg_LINK g := by
    unfold Reg.HL_Gg_LINK
    omega
  unfold State.linkDown
  refine ⟨by rw [raised.hl, State.bump_hl, State.flag_hl], ?_, ?_⟩
  · rw [State.isSet_of_rd (raised.rd _ (by decide) (by decide) (by decide)), State.isSet_of_rd (State.rd_bump_ne _ _ _ (above (by decide)))]
    exact State.isSet_flag _ _ _ (by decide) (by decide)
  · rw [raised.rd _ (by decide) (by decide) (by decide), State.rd_bump_ne _ _ _ (above (by decide)), State.rd_flag_ne _ _ (by decide)]

/-- A group in DETECT takes no harm from what its lane hears. -/
theorem State.trainLost_idle {s : State} {g k : Nat} {before : List Block} {b : Block} (idle : (s.grp g).st ≠ .active) :
    s.trainLost g k before b = (s.trainHeard k before b).1 := by
  have heard := State.grp_of_groups (s.trainHeard_heardOn k before b).groups g
  unfold State.trainLost
  rw [heard]
  exact if_neg (by simp [idle])

/-- R325: a TRAIN block on lane 0 in DETECT. -/
theorem State.trainBlock_detect {s : State} {g st cap node theirs : Nat} {before : List Block} {b : Block} (group : g < 3)
    (there : g < s.hl.groups.length) (used : 0 < s.cfgLanes g) (detect : (s.grp g).st = .detect)
    (read : (((s.laneBlocks (s.laneBase g) before).1.laneBlock (s.laneBase g) b).1.bind (readTrain 0)) = some (st, cap, node, theirs)) :
    let u := s.trainBlock g 0 before b true
    (validPartner g node → (u.grp g).st = .train ∧ (u.grp g).cap = cap ∧ (u.grp g).partner = (if node = 0 then 1 else 2)) ∧
    (¬validPartner g node → (u.grp g).st = .detect ∧ ((s.grp g).steps = 0 → u.isSet Reg.HL_STAT F.HL_STAT_LINK_DOWN = true)) := by
  intro u
  have heard := s.trainHeard_heardOn (s.laneBase g) before b
  have taken := State.trainBlock_grp (i := 0) used read
  rw [Nat.add_zero, State.trainLost_idle (by rw [detect]; decide)] at taken
  generalize (s.trainHeard (s.laneBase g) before b).1 = t at heard taken
  have same : t.grp g = s.grp g := State.grp_of_groups heard.groups g
  have there' : g < t.hl.groups.length := by rwa [heard.groups]
  refine ⟨fun valid => ?_, fun stranger => ?_⟩
  · rw [State.trainStep_partner (by rw [same, detect]) valid] at taken
    rw [taken.grp g, State.grp_setGrp_self _ there']
    exact ⟨rfl, rfl, rfl⟩
  · rw [State.trainStep_stranger (by rw [same, detect]) stranger, same] at taken
    obtain ⟨hl, flagged, -⟩ := (t.setGrp g { s.grp g with steps := 1 }).linkDown_spec group
    by_cases first : (s.grp g).steps = 0
    · rw [if_pos first] at taken
      refine ⟨?_, fun _ => (State.isSet_of_rd (State.rd_of_regs taken.regs _) _).trans flagged⟩
      rw [taken.grp g, State.grp_of_groups (congrArg HlState.groups hl), State.grp_setGrp_self _ there']
      exact detect
    · rw [if_neg first] at taken
      refine ⟨?_, fun again => absurd again first⟩
      rw [taken.grp g, same, detect]

theorem State.trainStep_active {s : State} {g i cap node theirs : Nat} (active : (s.grp g).st = .active) :
    s.trainStep g i 1 cap node theirs = s.startRetrain g := by
  unfold State.trainStep
  dsimp only
  rw [active]
  exact if_pos rfl

/-- A group that retrains goes on as long as one of its lanes is dark. -/
theorem State.trainStep_retraining {s : State} {g i j st cap node theirs : Nat} (train : (s.grp g).st = .train)
    (retrain : (s.grp g).retrain = true) (there : g < s.hl.groups.length) (used : j < (s.grp g).lanes)
    (dark : (s.lane (s.laneBase g + j)).blockLock = false) :
    ((s.trainStep g i st cap node theirs).grp g).st = .train ∧ ((s.trainStep g i st cap node theirs).grp g).retrain = true := by
  generalize told : s.setGrp g { s.grp g with theirs := theirs, cap := cap } = t
  have own : t.grp g = { s.grp g with theirs := theirs, cap := cap } := by
    rw [← told]
    exact State.grp_setGrp_self _ there
  have unlocked : (t.lockedMask g).testBit j = false := by
    have lane : t.lane (t.laneBase g + j) = s.lane (s.laneBase g + j) := by
      unfold State.laneBase
      rw [own, ← told]
      rfl
    exact State.testBit_lockedMask (by rw [lane]; exact dark)
  have stays : s.trainStep g i st cap node theirs = t := by
    unfold State.trainStep
    dsimp only
    rw [told, train]
    dsimp only
    rw [retrain, if_pos rfl]
    refine if_neg fun all => ?_
    have bit := List.all_eq_true.1 all j (List.mem_range.2 used)
    rw [Nat.testBit_and, unlocked, Bool.false_and] at bit
    exact absurd bit (by decide)
  rw [stays, own]
  exact ⟨train, retrain⟩

/-- R326: a partner in TRAIN brings an ACTIVE group to TRAIN. -/
theorem State.trainBlock_active {s : State} {g i cap node theirs : Nat} {before : List Block} {b : Block} (used : i < s.cfgLanes g)
    (active : (s.grp g).st = .active)
    (read : (((s.laneBlocks (s.laneBase g + i) before).1.laneBlock (s.laneBase g + i) b).1.bind (readTrain i)) = some (1, cap, node, theirs)) :
    ((s.trainBlock g i before b true).grp g).st = .train ∧ ((s.trainBlock g i before b true).grp g).retrain = true := by
  have there := State.lt_of_active active
  have heard := s.trainHeard_heardOn (s.laneBase g + i) before b
  have same := State.grp_of_groups heard.groups
  have groupOf := State.groupOf_of_groups heard.groups
  have taken := (State.trainBlock_grp used read).grp g
  generalize lost : s.trainLost g (s.laneBase g + i) before b = z at taken
  rw [taken]
  have running : (z.grp g).st = .active ∨ ((z.grp g).st = .train ∧ (z.grp g).retrain = true ∧ i < (z.grp g).lanes ∧
      (z.lane (z.laneBase g + i)).blockLock = false) := by
    unfold State.trainLost at lost
    generalize s.trainHeard (s.laneBase g + i) before b = y at heard same groupOf lost
    split at lost
    · obtain ⟨groups, -, dark, -⟩ := y.1.laneLost_spec (s.laneBase g + i) F.HL_Lk_STAT_LOL
      rw [lost] at groups dark
      rcases groups g with stands | ⟨own, used', _, retrains⟩
      · exact .inl (by rw [stands, same, active])
      · refine .inr ?_
        have base : z.laneBase g = s.laneBase g := by
          unfold State.laneBase
          rw [retrains, same]
          rfl
        have lanes : i < (y.1.grp g).lanes := by
          have place := used'.2
          have base' : y.1.laneBase g = s.laneBase g := by
            unfold State.laneBase
            rw [same]
          rw [← own, base'] at place
          omega
        rw [base, retrains]
        exact ⟨rfl, rfl, lanes, dark⟩
    · exact .inl (by rw [← lost, same, active])
  rcases running with active' | ⟨train, retrain, lanes, dark⟩
  · rw [State.trainStep_active active', State.startRetrain_grp, if_pos ⟨rfl, active'⟩]
    exact ⟨rfl, rfl⟩
  · refine State.trainStep_retraining train retrain ?_ lanes dark
    by_contra beyond
    rw [State.grp_of_length_le (Nat.le_of_not_lt beyond)] at retrain
    exact absurd retrain (by decide)

/-! ## Agreement -/

theorem State.agree_grp {s : State} {g c n : Nat} {rest : List Nat} (there : g < s.hl.groups.length) (speeds : s.speedCodes g = c :: rest)
    (widest : [4, 2, 1].find? (fun n => decide (n ≤ s.cfgLanes g) &&
      (List.range n).all fun i => (s.lockedMask g &&& (s.grp g).theirs).testBit i) = some n) :
    (s.agree g).grp g = { s.grp g with lanes := n, speed := c, steps := 0, st := if c = 0 then .deskew else .stepUp } := by
  generalize agreed : s.setGrp g { s.grp g with lanes := n, speed := c, steps := 0, st := if c = 0 then .deskew else .stepUp } = t
  have own : t.grp g = { s.grp g with lanes := n, speed := c, steps := 0, st := if c = 0 then .deskew else .stepUp } := by
    rw [← agreed]
    exact State.grp_setGrp_self _ there
  have chosen : s.agree g = if n < s.cfgLanes g then (t.flag Reg.HL_STAT F.HL_STAT_LINK_NARROW).raise Ev.LINK_NARROW else t := by
    unfold State.agree
    dsimp only
    rw [speeds, widest]
    dsimp only
    rw [agreed]
    have width : t.cfgLanes g = s.cfgLanes g := by
      unfold State.cfgLanes
      rw [own]
    rw [width]
  rw [chosen, ← own]
  split
  · exact State.grp_of_groups (by rw [(State.raise_keeps _ _ _).hl, State.flag_hl]) g
  · rfl

/-- R319: the speeds are in descending order, and both ends may run at them. -/
theorem State.speedCodes_spec {s : State} {g c : Nat} (listed : c ∈ s.speedCodes g) :
    (∀ d ∈ s.speedCodes g, d ≤ (s.speedCodes g).headD 0) ∧ (s.grp g).cap.testBit c = true ∧ (g ≠ 0 → 2 ≤ c) := by
  refine ⟨fun d other => ?_, ?_, fun down => ?_⟩
  · have falling : (s.speedCodes g).Pairwise (· ≥ ·) := List.Pairwise.filter _ (by decide)
    cases speeds : s.speedCodes g with
    | nil => simp [speeds] at other
    | cons x rest =>
      rw [speeds] at other falling
      rcases List.mem_cons.1 other with rfl | later
      · exact le_rfl
      · exact List.rel_of_pairwise_cons falling later
  · have rules := (List.mem_filter.1 listed).2
    simp only [Bool.and_eq_true] at rules
    exact rules.1.2
  · have rules := (List.mem_filter.1 listed).2
    simp only [Bool.and_eq_true, Bool.or_eq_true, decide_eq_true_eq, down, false_and, or_false] at rules
    exact rules.2

/-! ## DETECT again -/

/-- The lanes of a group as it starts afresh (R325). -/
def State.lanesAfresh (s : State) (g : Nat) : State :=
  (List.range 4).foldl (fun s i =>
    let k := (if g = 0 then 0 else 4) + i
    if s.groupOf k = g then s.setLane k { LaneState.reset with rxScr := (s.lane k).rxScr, txScr := (s.lane k).txScr } else s) s

/-- The crossing of a group that leaves a later step is reset (R457). -/
def State.detectReset (s : State) (g : Nat) : State :=
  if (s.grp g).st = .disabled || (s.grp g).st = .detect then s else s.xingReset 0x0C

/-- The state of a group that starts afresh. -/
def LinkGroup.afresh (base n : Nat) : LinkGroup :=
  { LinkGroup.reset with st := if n = 0 then .disabled else .detect, base := base, width := n }

/-- A group in DETECT, before its index or its range is touched. -/
def State.detecting (s : State) (g : Nat) : State :=
  (((s.detectReset g).lanesAfresh g).setGrp g (LinkGroup.afresh (((s.detectReset g).lanesAfresh g).setBase g) (s.setLanes g))).sendTrain g

theorem State.toDetect_eq (s : State) (g : Nat) : s.toDetect g =
    if g = 0 then
      if s.setLanes g = 0 then (s.detecting g).becomeSummit
      else if (s.detecting g).isSummit then s.detecting g else (s.detecting g).setFld Reg.HL_INDEX F.HL_INDEX_VALID 0
    else (s.detecting g).setFld (routeReg g) F.HL_ROUTE0_VALID 0 := rfl

theorem State.toDetect_hl (s : State) (g : Nat) : (s.toDetect g).hl = (s.detecting g).hl := by
  rw [State.toDetect_eq]
  split
  · split
    · exact (s.detecting g).becomeSummit_spec.2.2.2.1
    · split
      · rfl
      · exact State.setFld_hl _ _ _ _
  · exact State.setFld_hl _ _ _ _

theorem State.toDetect_rd (s : State) {g a : Nat} (index : a ≠ Reg.HL_INDEX) (route : a ≠ routeReg g) :
    (s.toDetect g).rd a = (s.detecting g).rd a := by
  rw [State.toDetect_eq]
  split
  · split
    · exact (s.detecting g).becomeSummit_spec.2.2.2.2 a index
    · split
      · rfl
      · exact State.rd_setFld_ne _ _ _ index
  · exact State.rd_setFld_ne _ _ _ route

/-- What starting a group afresh leaves: the registers below those of FL, and the groups. -/
theorem State.detectReset_keeps (s : State) (g : Nat) : (s.detectReset g).hl = s.hl ∧
    ∀ a, a < 0x110000 → (s.detectReset g).rd a = s.rd a := by
  unfold State.detectReset
  split
  · exact ⟨rfl, fun _ _ => rfl⟩
  · refine ⟨(s.xingReset_keeps 0x0C []).1, fun a low => ?_⟩
    have below {b : Nat} (fault : 0x110000 ≤ b) : a ≠ b := by omega
    rw [State.xingReset_eq, (State.raiseWith_keeps _ _ _ _ _).rd a (below (by decide)) (below (by decide)) (below (by decide)),
      State.xingCounted, State.rd_flag_ne _ _ (below (by decide)), State.rd_setFld_ne _ _ _ (below (by decide)),
      State.rd_bump_ne _ _ _ (below (by decide))]
    rfl

theorem State.OnlyLanes.groups {s t : State} (h : s.OnlyLanes t) : t.hl.groups = s.hl.groups := by
  rw [h]

theorem State.lanesAfresh_onlyLanes (s : State) (g : Nat) : s.OnlyLanes (s.lanesAfresh g) := by
  refine State.foldl_onlyLanes (fun t i => ?_) _ s
  dsimp only
  generalize (if g = 0 then 0 else 4) + i = k
  split
  · exact t.setLane_onlyLanes _ _
  · exact .refl t

theorem State.setBase_of_rd {s t : State} (cfg : t.rd Reg.HL_CFG = s.rd Reg.HL_CFG) (g : Nat) : t.setBase g = s.setBase g := by
  unfold State.setBase State.setLanes
  simp only [State.fld_of_rd cfg]

theorem State.setLanes_of_rd {s t : State} (cfg : t.rd Reg.HL_CFG = s.rd Reg.HL_CFG) (g : Nat) : t.setLanes g = s.setLanes g := by
  unfold State.setLanes
  simp only [State.fld_of_rd cfg]

/-- R318, R325: a group that starts afresh takes its lanes and width from HL_CFG. -/
theorem State.toDetect_spec {s : State} {g : Nat} (there : g < s.hl.groups.length) :
    (s.toDetect g).grp g = LinkGroup.afresh (s.setBase g) (s.setLanes g) ∧
    ∀ a, a < 0x110000 → a ≠ Reg.HL_INDEX → a ≠ routeReg g → (s.toDetect g).rd a = s.rd a := by
  obtain ⟨hl, rd⟩ := s.detectReset_keeps g
  have lanes := (s.detectReset g).lanesAfresh_onlyLanes g
  have afresh (a : Nat) (low : a < 0x110000) : ((s.detectReset g).lanesAfresh g).rd a = s.rd a :=
    (State.rd_of_regs lanes.regs a).trans (rd a low)
  have base := State.setBase_of_rd (afresh Reg.HL_CFG (by decide)) g
  have sent := (((s.detectReset g).lanesAfresh g).setGrp g (LinkGroup.afresh (((s.detectReset g).lanesAfresh g).setBase g)
    (s.setLanes g))).sendTrain_onlyLanes g
  refine ⟨?_, fun a low index route => ?_⟩
  · have length : ((s.detectReset g).lanesAfresh g).hl.groups.length = s.hl.groups.length :=
      (congrArg List.length lanes.groups).trans (congrArg (fun h => h.groups.length) hl)
    rw [State.grp_of_groups (congrArg HlState.groups (s.toDetect_hl g)), State.detecting, sent.grp g,
      State.grp_setGrp_self _ (there.trans_eq length.symm), base]
  · have detecting : (s.detecting g).rd a = ((s.detectReset g).lanesAfresh g).rd a := by
      have moved (x : State) (y : LinkGroup) : (x.setGrp g y).rd a = x.rd a := rfl
      unfold State.detecting
      exact (State.rd_of_regs sent.regs a).trans (moved _ _)
    exact (State.toDetect_rd s index route).trans (detecting.trans (afresh a low))

theorem State.lt_of_retrain {s : State} {g : Nat} (retrain : (s.grp g).retrain = true) : g < s.hl.groups.length := by
  by_contra beyond
  rw [State.grp_of_length_le (Nat.le_of_not_lt beyond)] at retrain
  exact absurd retrain (by decide)

/-- R326: a retrain past its bound ends in DETECT with nothing held. -/
theorem State.retrainTimeout_spec {s : State} {g : Nat} (group : g < 3) (retrain : (s.grp g).retrain = true) :
    (s.retrainTimeout g).grp g = LinkGroup.afresh (s.setBase g) (s.setLanes g) ∧
    (s.retrainTimeout g).isSet Reg.HL_STAT F.HL_STAT_LINK_DOWN = true := by
  obtain ⟨hl, flagged, cfg⟩ := s.linkDown_spec group
  obtain ⟨own, rd⟩ := State.toDetect_spec (s := s.linkDown g) (g := g) (by rw [hl]; exact State.lt_of_retrain retrain)
  have ends : s.retrainTimeout g = (s.linkDown g).toDetect g := if_pos retrain
  have other : Reg.HL_STAT ≠ routeReg g := by
    unfold routeReg
    split <;> decide
  rw [ends]
  refine ⟨?_, (State.isSet_of_rd (rd _ (by decide) (by decide) other) _).trans flagged⟩
  rw [own, State.setBase_of_rd cfg, State.setLanes_of_rd cfg]

/-- R338: the range of a DOWN group that starts afresh is not valid. -/
theorem State.toDetect_route (s : State) {g : Nat} (down : g = 1 ∨ g = 2) : (s.toDetect g).isSet (routeReg g) F.HL_ROUTE0_VALID = false := by
  rw [State.toDetect_eq, if_neg (by omega)]
  unfold State.isSet
  rw [State.fld_setFld _ _ _ _ (by decide) (by decide)]
  rfl

/-! ## Markers -/

/-- A lane after an alignment marker in its place (R323). -/
def LaneState.marked (l : LaneState) (skew : Nat) : LaneState :=
  { l with amGood := min 2 (l.amGood + 1), amBad := 0, skew := min 31 skew, amLock := l.amLock || decide (2 ≤ l.amGood + 1) }

theorem State.marker_good (s : State) {k : Nat} (skew : Nat) (there : k < s.hl.lanes.length) :
    ((s.marker k true skew).lane k).skew = min 31 skew ∧
    (((s.marker k true skew).lane k).amLock = true ↔ (s.lane k).amLock = true ∨ 1 ≤ (s.lane k).amGood) := by
  have stands : (s.setLane k ((s.lane k).marked skew)).ReceiversStand (s.marker k true skew) := by
    have fold : s.marker k true skew = if s.groupOf k < 3 then (s.setLane k ((s.lane k).marked skew)).deskewCheck (s.groupOf k)
        else s.setLane k ((s.lane k).marked skew) := rfl
    rw [fold]
    split
    · exact State.deskewCheck_receiversStand _ _
    · exact .refl _
  obtain ⟨skews, locks⟩ := stands.locks k
  rw [skews, locks, State.lane_setLane_self _ there]
  exact ⟨rfl, by simp [LaneState.marked]⟩

/-- AM lock ends with the fourth marker missed in a row (R323). -/
def LaneState.amLost (l : LaneState) : Bool := l.amLock && decide (4 ≤ l.amBad + 1)

/-- A lane after a marker missed. -/
def LaneState.missed (l : LaneState) : LaneState :=
  { l with amGood := 0, amBad := min 4 (l.amBad + 1), amLock := l.amLock && !l.amLost }

/-- A marker missed is counted and noted at its lane. -/
def State.markerMissed (s : State) (k : Nat) : State :=
  (s.bump (Reg.HL_Lk_ERR k) F.HL_Lk_ERR_AM_ERR).setLane k (s.lane k).missed

theorem State.marker_missed (s : State) (k skew : Nat) : s.marker k false skew =
    if (s.lane k).amLost && s.groupOf k < 3 && (s.grp (s.groupOf k)).st = .active then (s.markerMissed k).laneLost k F.HL_Lk_STAT_LOL
    else s.markerMissed k := by
  have grp (g : Nat) : (s.markerMissed k).grp g = s.grp g :=
    State.grp_of_groups (by unfold State.markerMissed State.setLane; dsimp only; rw [State.bump_hl]) g
  rw [← grp]
  rfl

/-- R323: a marker missed. -/
theorem State.marker_missed_spec (s : State) {k : Nat} (lane : k < 8) (skew : Nat) (there : k < s.hl.lanes.length) :
    (s.marker k false skew).fld (Reg.HL_Lk_ERR k) F.HL_Lk_ERR_AM_ERR =
      min F.HL_Lk_ERR_AM_ERR.top (s.fld (Reg.HL_Lk_ERR k) F.HL_Lk_ERR_AM_ERR + 1) ∧
    (((s.marker k false skew).lane k).amLock = true ↔ (s.lane k).amLock = true ∧ (s.lane k).amBad < 3) := by
  have counted : (s.markerMissed k).fld (Reg.HL_Lk_ERR k) F.HL_Lk_ERR_AM_ERR =
      min F.HL_Lk_ERR_AM_ERR.top (s.fld (Reg.HL_Lk_ERR k) F.HL_Lk_ERR_AM_ERR + 1) :=
    (State.fld_setLane _ _ _ _ _).trans (s.fld_bump _ _ _ (by decide) (by decide))
  have own : (s.markerMissed k).lane k = (s.lane k).missed := State.lane_setLane_self _ (by rwa [State.bump_hl])
  rw [State.marker_missed]
  split
  next lost =>
    obtain ⟨-, -, -, am, rd⟩ := (s.markerMissed k).laneLost_spec k F.HL_Lk_STAT_LOL
    simp only [Bool.and_eq_true, LaneState.amLost, decide_eq_true_eq] at lost
    refine ⟨?_, ?_⟩
    · rw [State.fld_of_rd (rd (Reg.HL_Lk_ERR k) (by unfold Reg.HL_Lk_ERR; omega) (by unfold Reg.HL_Lk_ERR; omega)),
        State.fld_of_rd (State.rd_flag_ne _ _ (by unfold Reg.HL_Lk_ERR Reg.HL_Lk_STAT; omega)), counted]
    · rw [am]
      have few : ¬(s.lane k).amBad < 3 := by omega
      simp [few]
  next =>
    refine ⟨counted, ?_⟩
    rw [own]
    simp only [LaneState.missed, LaneState.amLost, Bool.and_eq_true, Bool.not_eq_true', Bool.and_eq_false_iff, decide_eq_false_iff_not]
    constructor
    · rintro ⟨lock, off | few⟩
      · simp [lock] at off
      · exact ⟨lock, by omega⟩
    · rintro ⟨lock, few⟩
      exact ⟨lock, .inr (by omega)⟩

theorem State.amBlock_none (s : State) (k skew : Nat) : s.amBlock k [] skew = s.marker k false skew := rfl

theorem State.amBlock_marker {s : State} {k : Nat} {b : Block} {skew : Nat} (good : s.isMarker k b = true)
    (kept : (s.syncHeader k true).2 = false) : s.amBlock k [b] skew = (s.syncHeader k true).1.marker k true skew := by
  have valid : headerValid b = true := by
    have control : b.hdr = controlHeader := by
      by_contra other
      simp [State.isMarker, other] at good
    simp [headerValid, control]
  have fold : s.amBlock k [b] skew = if ((false || (s.syncHeader k (headerValid b)).2) &&
      (s.syncHeader k (headerValid b)).1.groupOf k < 3 &&
      ((s.syncHeader k (headerValid b)).1.grp ((s.syncHeader k (headerValid b)).1.groupOf k)).st = .active) = true
      then (s.syncHeader k (headerValid b)).1.laneLost k F.HL_Lk_STAT_LOL
      else (s.syncHeader k (headerValid b)).1.marker k (s.isMarker k b) skew := rfl
  rw [fold, valid, good, kept]
  exact if_neg (by simp)

/-! ## The command and the timeouts -/

theorem exec_retrain {s : State} {m : Master} (takes : s.takes m Reg.HL_CTRL) (w : Word) :
    exec (.retrain m w) s = .next (s.wrote (s.retrainGroups (cmdWord Reg.HL_CTRL w [(F.HL_CTRL_ENUM, 0)])) m) := by
  have enum : F.HL_CTRL_ENUM.get (cmdWord Reg.HL_CTRL w [(F.HL_CTRL_ENUM, 0)]) = 0 :=
    get_cmdWord_mem (by unfold OneBitFields; decide) List.mem_cons_self (by decide) w
  refine State.next_busWrite takes (by decide) (by decide) ?_
  change s.writeHl Reg.HL_CTRL (cmdWord Reg.HL_CTRL w _) = _
  rw [State.writeHl, if_neg (by decide), if_pos rfl]
  dsimp only
  rw [enum, if_neg (by decide)]

/-- A group retrained where a bit names it. -/
theorem State.grp_retrainIf (s : State) (named : Bool) (g h : Nat) : (if named then s.startRetrain g else s).grp h =
    if h = g ∧ named = true ∧ (s.grp g).st = .active then (s.grp g).retraining else s.grp h := by
  cases named with
  | true => simpa using s.startRetrain_grp g h
  | false => simp

/-- R326: the groups named retrain, the others stand. -/
theorem State.retrainGroups_grp (s : State) (w : Word) {g : Nat} (group : g < 3) : (s.retrainGroups w).grp g =
    if (F.HL_CTRL_RETRAIN.get w).testBit g = true ∧ (s.grp g).st = .active then (s.grp g).retraining else s.grp g := by
  unfold State.retrainGroups
  simp only [forEach, List.foldl_cons, List.foldl_nil, State.grp_retrainIf]
  have known : g = 0 ∨ g = 1 ∨ g = 2 := by omega
  rcases known with rfl | rfl | rfl <;> simp

theorem State.bringupTimeout_spec {s : State} {g : Nat} (fresh : (s.grp g).retrain = false) : let u := s.bringupTimeout g
    let x := s.grp g
    (x.st = .detect ∨ x.st = .negotiate → u = s.toDetect g) ∧
    (x.st = .train → u = if (s.lockedMask g &&& x.theirs).testBit 0 then s.setGrp g { x with st := .negotiate, steps := 0 }
      else s.toDetect g) ∧
    (∀ c, x.st = .stepUp → (s.speedCodes g).find? (decide <| · < x.speed) = some c →
      u = s.setGrp g { x with speed := c, steps := 0, st := if c = 0 then .deskew else .stepUp }) ∧
    (x.st = .stepUp → (s.speedCodes g).find? (decide <| · < x.speed) = none → u = (if g = 0 then s else s.linkSlow).toDetect g) := by
  intro u x
  have first : u = _ := if_neg (by rw [fresh]; decide)
  rw [first]
  refine ⟨?_, fun train => by rw [show (s.grp g).st = .train from train], fun c step slower => ?_, fun step slowest => ?_⟩
  · rintro (detect | negotiate)
    · rw [show (s.grp g).st = .detect from detect]
    · rw [show (s.grp g).st = .negotiate from negotiate]
  · rw [show (s.grp g).st = .stepUp from step]
    dsimp only
    rw [show (s.speedCodes g).find? (fun c => decide (c < (s.grp g).speed)) = some c from slower]
  · rw [show (s.grp g).st = .stepUp from step]
    dsimp only
    rw [show (s.speedCodes g).find? (fun c => decide (c < (s.grp g).speed)) = none from slowest]

/-- R322, R326: LOS or LOL of a lane. -/
theorem State.laneLost_settles (s : State) {k : Nat} (lane : k < 8) {f : BitField} (kind : f = F.HL_Lk_STAT_LOS ∨ f = F.HL_Lk_STAT_LOL) :
    let g := s.groupOf k
    let u := s.laneLost k f
    u.fld (Reg.HL_Lk_STAT k) f = 1 ∧ (u.lane k).blockLock = false ∧ (u.lane k).amLock = false ∧
    (∀ g', g' ≠ g ∨ (s.grp g').st ≠ .active → u.grp g' = s.grp g') ∧
    (g < 3 → (s.grp g).st = .active → k < s.laneBase g + (s.grp g).lanes →
      let x := u.grp g
      let y := s.grp g
      x.st = .train ∧ x.retrain = true ∧ x.lanes = y.lanes ∧ x.speed = y.speed ∧ x.replay = y.replay ∧ x.rxSeq = y.rxSeq ∧
      u.isSet Reg.HL_STAT F.HL_STAT_LINK_RETRAIN = true) := by
  intro g u
  obtain ⟨groups, retrains, block, am, rd⟩ := s.laneLost_spec k f
  have place : 0xC0200 ≤ Reg.HL_Lk_STAT k ∧ Reg.HL_Lk_STAT k < 0x110000 := by
    unfold Reg.HL_Lk_STAT
    omega
  refine ⟨?_, block, am, fun g' other => ?_, fun group active used => ?_⟩
  · rw [State.fld_of_rd (rd _ place.1 place.2)]
    rcases kind with rfl | rfl <;> exact s.fld_setFld _ _ 1 (by decide) (by decide)
  · rcases groups g' with stands | ⟨own, _, active, _⟩
    · exact stands
    · exact absurd active (other.resolve_left (not_not_intro own))
  · obtain ⟨own, flagged⟩ := retrains ⟨group, used⟩ active
    intro x y
    have same : x = y.retraining := own
    rw [same]
    exact ⟨rfl, rfl, rfl, rfl, rfl, rfl, flagged⟩

/-- Settles O36: lanes and their locks, retrains, bring-up and the scrambler. -/
theorem lanesBringUp : Obligations.LanesBringUp := by
  unfold Obligations.LanesBringUp
  refine ⟨⟨?lost, ?retrain⟩, ⟨?detect, ?agree, fun s g c => State.speedCodes_spec, ?active⟩,
    ⟨?bound, ?timeout,
      fun s g => s.toDetect_route⟩, ⟨?gains, ?loses, fun s k => s.syncHeader_counts k.val, ?marker, ?missed⟩,
    fun st d => descramble_scramble st, descramble_state⟩
  case lost =>
    intro s k c f out ref instr
    simp only [List.mem_cons, Prod.mk.injEq, List.not_mem_nil, or_false] at instr
    rcases instr with ⟨rfl, rfl⟩ | ⟨rfl, rfl⟩
    · exact ⟨_, State.next_onLanes out ref rfl, s.laneLost_settles k.isLt (.inl rfl)⟩
    · exact ⟨_, State.next_onLanes out ref rfl, s.laneLost_settles k.isLt (.inr rfl)⟩
  case retrain =>
    intro s m w takes v
    refine ⟨_, exec_retrain takes w, fun g group => ⟨fun named active => ?_, fun other => ?_⟩⟩
    · rw [State.retrainGroups_grp _ _ group, if_pos ⟨named, active⟩]
      exact ⟨rfl, rfl⟩
    · rw [State.retrainGroups_grp _ _ group]
      refine if_neg fun both => ?_
      rcases other with unnamed | idle
      · exact absurd (both.1.symm.trans unnamed) (by decide)
      · exact idle both.2
  case detect =>
    intro s g st cap node locked before hdr lo hi out ref there used detect read
    exact ⟨_, State.next_onLanes out ref rfl, State.trainBlock_detect g.isLt there used detect read⟩
  case agree =>
    intro s g c n rest there speeds widest
    rw [State.agree_grp there speeds widest]
    exact ⟨rfl, rfl, rfl⟩
  case active =>
    intro s g lane cap node locked before hdr lo hi out ref used active read
    exact ⟨_, State.next_onLanes out ref rfl, State.trainBlock_active used active read⟩
  case bound =>
    intro s g out ref fresh x
    exact ⟨_, State.next_onLanes out ref rfl, State.bringupTimeout_spec fresh⟩
  case timeout =>
    intro s g out retrain
    obtain ⟨own, flagged⟩ := State.retrainTimeout_spec g.isLt retrain
    refine ⟨_, State.next_act out rfl, ?_⟩
    rw [own]
    exact ⟨rfl, rfl, rfl, rfl, rfl, flagged⟩
  case gains =>
    intro s k there unlocked
    rw [State.lane_syncHeader true there]
    unfold LaneState.synced LaneState.runWith
    rw [if_neg (by simp [unlocked])]
    simp only [if_true, decide_eq_true_eq]
    exact ⟨trivial, by omega⟩
  case loses =>
    intro s k ok there locked h
    rw [State.lane_syncHeader ok there, s.syncHeader_eq]
    unfold LaneState.synced
    rw [if_pos locked, locked, Bool.true_and]
    exact ⟨by simp [LaneState.loses, LaneState.histWith, h], rfl⟩
  case marker =>
    intro s k b skew out ref there good kept
    obtain ⟨marks, goods⟩ := (s.lane k.val).synced_marks true
    obtain ⟨skews, locks⟩ := (s.syncHeader k.val true).1.marker_good skew (there.trans_eq (s.syncHeader_heardOn k.val true).lanes.symm)
    rw [State.lane_syncHeader true there, marks, goods] at locks
    exact ⟨_, State.next_onLanes out ref (State.amBlock_marker good kept), skews, locks⟩
  case missed =>
    intro s k skew out ref there
    exact ⟨_, State.next_onLanes out ref (s.amBlock_none _ _), s.marker_missed_spec k.isLt skew there⟩

end Sys2Proof.Machine
end

section
/-! PROOFS of O46: the key commands, with the lengths of digests and ciphers and what posting a packet leaves. -/

namespace Sys2Proof.Machine

/-! ## Lengths of digests -/

theorem length_beBytes (n v : Nat) : (beBytes n v).length = n := by
  unfold beBytes
  rw [List.length_reverse, length_leBytes]

/-- A round keeps the eight working words. -/
theorem Sha2.length_round (p : Sha2) {v : List Nat} (eight : v.length = 8) (kw : Nat × Nat) : (p.round v kw).length = 8 := by
  unfold Sha2.round
  split
  · rfl
  · exact eight

theorem Sha2.length_foldl_round (p : Sha2) (l : List (Nat × Nat)) {v : List Nat} (eight : v.length = 8) :
    (l.foldl p.round v).length = 8 := by
  induction l generalizing v with
  | nil => exact eight
  | cons kw l ih => exact ih (p.length_round eight kw)

theorem Sha2.length_block (p : Sha2) {hv : List Nat} (eight : hv.length = 8) (words : List Nat) : (p.block hv words).length = 8 := by
  unfold Sha2.block
  rw [List.length_map, List.length_zip, p.length_foldl_round _ eight, eight, Nat.min_self]

theorem Sha2.length_run (p : Sha2) (n : Nat) {hv : List Nat} (eight : hv.length = 8) (bs : List Byte) : (p.run n hv bs).length = 8 := by
  induction n generalizing hv bs with
  | zero => exact eight
  | succ n ih => exact ih (p.length_block eight _) _

theorem length_flatMap_beBytes (n : Nat) (l : List Nat) : (l.flatMap (beBytes n)).length = n * l.length := by
  induction l with
  | nil => rfl
  | cons x l ih => rw [List.flatMap_cons, List.length_append, length_beBytes, ih, List.length_cons, Nat.mul_succ, Nat.add_comm]

theorem Sha2.length_hash (p : Sha2) {iv : List Nat} (eight : iv.length = 8) {out : Nat} (fits : out ≤ p.bits / 8 * 8) (bs : List Byte) :
    (p.hash iv out bs).length = out := by
  unfold Sha2.hash
  dsimp only
  rw [List.length_take, length_flatMap_beBytes, p.length_run _ eight]
  omega

theorem length_sha384 (bs : List Byte) : (sha384 bs).length = 48 := Sha2.length_hash _ rfl (by decide) bs

/-! ## Lengths of ciphers -/

theorem length_xorBytes (a b : List Byte) : (xorBytes a b).length = min a.length b.length := by
  unfold xorBytes
  rw [List.length_map, List.length_zip]

/-- Words of four bytes. -/
def Words4 (w : List (List Byte)) : Prop := ∀ x ∈ w, x.length = 4

theorem words4_words4 (n : Nat) (bs : List Byte) (enough : 4 * n ≤ bs.length) : Words4 (words4 n bs) ∧ (words4 n bs).length = n := by
  induction n generalizing bs with
  | zero => exact ⟨fun x none' => by simp [words4] at none', rfl⟩
  | succ n ih =>
    obtain ⟨words, length⟩ := ih (bs.drop 4) (by rw [List.length_drop]; omega)
    unfold words4
    refine ⟨fun x listed => ?_, by rw [List.length_cons, length]⟩
    rcases List.mem_cons.1 listed with rfl | later
    · rw [List.length_take]
      omega
    · exact words x later

theorem Words4.getD {w : List (List Byte)} (words : Words4 w) {i : Nat} (there : i < w.length) : (w.getD i []).length = 4 := by
  rw [List.getD_eq_getElem _ _ there]
  exact words _ (List.getElem_mem there)

/-- The key schedule goes on with words of four bytes. -/
theorem words4_aesExpand (n i : Nat) (rc : Byte) {w : List (List Byte)} (words : Words4 w) (eight : 8 ≤ w.length) :
    Words4 (aesExpand n i rc w) ∧ (aesExpand n i rc w).length = w.length + n := by
  induction n generalizing i rc w with
  | zero => exact ⟨words, rfl⟩
  | succ n ih =>
    have prev : (w.getD 0 []).length = 4 := words.getD (by omega)
    unfold aesExpand
    dsimp only
    generalize mixed : (if i % 8 = 0 then _ else if i % 8 = 4 then _ else _ : List Byte) = t
    have length : t.length = 4 := by
      rw [← mixed]
      split
      · split
        · rfl
        · exact prev
      · split
        · rw [List.length_map, prev]
        · exact prev
    have next : Words4 (xorBytes (w.getD 7 []) t :: w) := by
      intro x listed
      rcases List.mem_cons.1 listed with rfl | later
      · rw [length_xorBytes, words.getD (by omega), length, Nat.min_self]
      · exact words x later
    obtain ⟨words', length'⟩ := ih (i + 1) (if i % 8 = 0 then BitVec.ofNat 8 (xtime rc.toNat) else rc) next (by rw [List.length_cons]; omega)
    exact ⟨words', by rw [length', List.length_cons]; omega⟩

theorem Words4.length_flatten {w : List (List Byte)} (words : Words4 w) : w.flatten.length = 4 * w.length := by
  induction w with
  | nil => rfl
  | cons x w ih =>
    rw [List.flatten_cons, List.length_append, words x List.mem_cons_self, ih fun y later => words y (List.mem_cons_of_mem _ later),
      List.length_cons]
    omega

/-- A round key of a 32-byte key has 16 bytes. -/
theorem length_aesKey {key : List Byte} (length : key.length = 32) {r : Nat} (round : r < 15) : ((aesKeys key).getD r []).length = 16 := by
  obtain ⟨first, eight⟩ := words4_words4 8 key (by omega)
  obtain ⟨words, total⟩ := words4_aesExpand 52 8 1#8 (w := (words4 8 key).reverse) (fun x listed => first x (List.mem_reverse.1 listed))
    (by rw [List.length_reverse, eight])
  have part : Words4 (((aesExpand 52 8 1#8 (words4 8 key).reverse).reverse.drop (4 * r)).take 4) := fun x listed =>
    words x (List.mem_reverse.1 (List.mem_of_mem_drop (List.mem_of_mem_take listed)))
  unfold aesKeys
  dsimp only
  rw [List.getD_eq_getElem _ _ (by simpa using round), List.getElem_map, List.getElem_range, part.length_flatten, List.length_take,
    List.length_drop, List.length_reverse, total, List.length_reverse, eight]
  omega

theorem length_aesEncrypt {key : List Byte} (length : key.length = 32) (blk : List Byte) : (aesEncrypt key blk).length = 16 := by
  unfold aesEncrypt
  dsimp only
  rw [length_xorBytes, length_aesKey length (by decide)]
  simp [shiftRows]

theorem length_ctrStream {key : List Byte} (length : key.length = 32) (nonce : List Byte) (n c : Nat) :
    (ctrStream key nonce n c).length = 16 * n := by
  induction n generalizing c with
  | zero => rfl
  | succ n ih =>
    unfold ctrStream
    rw [List.length_append, length_aesEncrypt length, ih]
    omega

/-- What GCM opens is as long as its ciphertext. -/
theorem length_gcmOpen {key nonce aad ct tag v : List Byte} (length : key.length = 32) (opened : gcmOpen key nonce aad ct tag = some v) :
    v.length = ct.length := by
  unfold gcmOpen at opened
  split at opened
  next =>
    rw [← Option.some.inj opened, gcmCrypt, length_xorBytes, length_ctrStream length]
    omega
  next => exact absurd opened (by simp)

theorem length_kekOf (priv : List Byte) (id k : Nat) : (kekOf priv id k).length = 32 := by
  unfold kekOf
  rw [List.length_take, length_sha384]
  rfl

theorem length_slice (bs : List Byte) (i n : Nat) : (slice bs i n).length = n := by
  unfold slice
  dsimp only
  rw [List.length_append, List.length_replicate, List.length_take]
  omega

/-- A key that opens under the pair has 32 bytes. -/
theorem State.length_unwrapKey {s : State} {k : Nat} {b v : List Byte} (opened : s.unwrapKey k b = some v) : v.length = 32 := by
  unfold State.unwrapKey at opened
  split at opened
  · exact absurd opened (by simp)
  · split at opened
    · rw [length_gcmOpen (length_kekOf _ _ _) opened, length_slice]
    · exact absurd opened (by simp)

/-! ## Packets posted -/

/-- What a packet of the controller's own put on its way leaves: everything but the links, HL_STAT and what an event touches. -/
structure State.Posted (s t : State) : Prop where
  au : t.au = s.au
  tn : t.tn = s.tn
  nh : t.nh = s.nh
  flash : t.flash = s.flash
  now : t.now = s.now
  rd : ∀ a, a ≠ Reg.HL_STAT → a ≠ Reg.FL_STAT → a ≠ Reg.FL_CSR → a ≠ Reg.FL_LOST → t.rd a = s.rd a

theorem State.Posted.refl (s : State) : s.Posted s := ⟨rfl, rfl, rfl, rfl, rfl, fun _ _ _ _ _ => rfl⟩

theorem State.Posted.trans {s t u : State} (h : s.Posted t) (k : t.Posted u) : s.Posted u :=
  ⟨k.au.trans h.au, k.tn.trans h.tn, k.nh.trans h.nh, k.flash.trans h.flash, k.now.trans h.now,
    fun a link stat csr lost => (k.rd a link stat csr lost).trans (h.rd a link stat csr lost)⟩

theorem RaiseKeeps.posted {s t : State} (h : RaiseKeeps s t) : s.Posted t :=
  ⟨h.au, h.tn, h.nh, h.flash, h.now, fun a _ stat csr lost => h.rd a stat csr lost⟩

theorem State.noRoute_posted (s : State) : s.Posted s.noRoute := by
  have flagged : s.Posted (s.flag Reg.HL_STAT F.HL_STAT_NOROUTE) :=
    ⟨State.flag_au _ _ _, State.flag_tn _ _ _, State.flag_nh _ _ _, State.flag_flash _ _ _, State.flag_now _ _ _,
      fun a link _ _ _ => State.rd_flag_ne _ _ link⟩
  exact flagged.trans (State.raise_keeps _ _ _).posted

theorem State.emit_posted (s : State) (p : Pkt) : s.Posted (s.emit p) := by
  unfold State.emit
  split
  · rw [s.sendOn_eq]
    exact ⟨rfl, rfl, rfl, rfl, rfl, fun _ _ _ _ _ => rfl⟩
  · exact .refl s
  · exact s.noRoute_posted

theorem State.sendAud_posted (s : State) (sub dest : Nat) (rec : List Byte) : s.Posted (s.sendAud sub dest rec) := s.emit_posted _

theorem State.sendWit_posted (s : State) (rec : List Byte) : s.Posted (s.sendWit rec) := s.sendAud_posted _ _ _

/-! ## Batches closed -/

/-- A batch stays open (R384, R385). -/
def State.batchStays (s : State) : Prop := s.slot 2 = none ∨ s.au.closing.isSome = true ∨ s.mode = .boot ∨ s.mode = .test

theorem State.closeBatch_stays {s : State} (byTime : Bool) (stays : s.batchStays) : s.closeBatch byTime = s := by
  unfold State.batchStays at stays
  unfold State.closeBatch
  refine if_pos ?_
  rcases stays with stays | stays | stays | stays <;> simp [stays]

/-- FIRST_SEQ, FLAGS and the lines of the summit that closes a batch (R383, R384). -/
def State.closingBytes (s : State) (byTime : Bool) : List Byte :=
  let ln := if decide (s.firstSeq.2.witRole = 1) = true then s.firstSeq.2.witLines else (0, 0)
  s.firstSeq.2.summitBytes (b2n (decide (s.firstSeq.2.witRole = 1)) + 4 * b2n byTime + 8 * b2n s.firstSeq.2.au.sumFirst) s.firstSeq.1
    ln.1 ln.2 (s.au.batch.take 64)

/-- The witness lines of the batch after one that reported lines up to the last compared. -/
def State.closingWit (s : State) : WitState :=
  let ln := if decide (s.firstSeq.2.witRole = 1) = true then s.firstSeq.2.witLines else (0, 0)
  if ln.2 = 0 then s.firstSeq.2.au.wit else { s.firstSeq.2.au.wit with nextLo := some (ln.2 + 1) }

/-- A batch closed, its summit awaiting its witness (R384). -/
def State.batchClosed (s : State) (byTime : Bool) : State :=
  { s.firstSeq.2 with au := { s.firstSeq.2.au with
    closing := some ⟨s.closingBytes byTime, s.au.batch.take 64, s.firstSeq.2.au.batchFirst + (s.au.batch.take 64).length,
      decide (s.firstSeq.2.witRole = 1), none⟩,
    batch := s.firstSeq.2.au.batch.drop 64, batchFirst := s.firstSeq.2.au.batchFirst + (s.au.batch.take 64).length,
    closedAt := some s.firstSeq.2.now, wit := s.closingWit } }

theorem State.closeBatch_eq {s : State} (byTime : Bool) (closes : ¬s.batchStays) : s.closeBatch byTime =
    if decide (s.firstSeq.2.witRole = 1) = true then (s.batchClosed byTime).sendWit (witKind 4 ++ s.closingBytes byTime)
    else s.batchClosed byTime := by
  have open' : ¬((s.slot 2).isNone || s.au.closing.isSome || s.mode = .boot || s.mode = .test) = true := by
    intro stays
    refine closes ?_
    unfold State.batchStays
    simpa [or_assoc] using stays
  unfold State.closeBatch
  exact if_neg open'

theorem State.firstSeq_eq (s : State) : s.firstSeq.2 = { s with free := s.firstSeq.2.free } := by
  unfold State.firstSeq State.drawFree
  split <;> rfl

theorem State.closeBatch_posted {s : State} (byTime : Bool) (closes : ¬s.batchStays) :
    (s.batchClosed byTime).Posted (s.closeBatch byTime) := by
  rw [State.closeBatch_eq byTime closes]
  split
  · exact State.sendWit_posted _ _
  · exact .refl _

/-- What closing a batch leaves: all of the audit state but the batch and its summit. -/
structure State.BatchKeeps (s t : State) : Prop where
  au : t.au = { s.au with
    closing := t.au.closing, batch := t.au.batch, batchFirst := t.au.batchFirst, closedAt := t.au.closedAt, wit := t.au.wit }
  rd : ∀ a, a ≠ Reg.HL_STAT → a ≠ Reg.FL_STAT → a ≠ Reg.FL_CSR → a ≠ Reg.FL_LOST → t.rd a = s.rd a

theorem State.BatchKeeps.refl (s : State) : s.BatchKeeps s := ⟨rfl, fun _ _ _ _ _ => rfl⟩

theorem State.closeBatch_keeps (s : State) (byTime : Bool) : s.BatchKeeps (s.closeBatch byTime) := by
  by_cases stays : s.batchStays
  · rw [State.closeBatch_stays byTime stays]
    exact .refl s
  · have posted := State.closeBatch_posted byTime stays
    have drawn := s.firstSeq_eq
    refine ⟨?_, fun a link stat csr lost => (posted.rd a link stat csr lost).trans ?_⟩
    · rw [posted.au]
      unfold State.batchClosed
      rw [show s.firstSeq.2.au = s.au by rw [drawn]]
    · unfold State.batchClosed
      rw [drawn]
      rfl

theorem State.closeHeld_keeps (s : State) : s.BatchKeeps s.closeHeld := by
  unfold State.closeHeld
  split
  · exact s.closeBatch_keeps _
  · split
    · exact s.closeBatch_keeps _
    · exact .refl s

theorem State.BatchKeeps.slot {s t : State} (h : s.BatchKeeps t) (k : Nat) : t.slot k = s.slot k := by
  unfold State.slot
  rw [h.au]

/-! ## Slots -/

/-- What the key store's rewrite touches: both sets in flash, and what was drawn for it (R392). -/
theorem State.rewriteSet_eq (s : State) (c : Nat) :
    s.rewriteSet c = { s with free := (s.rewriteSet c).free, flash := (s.rewriteSet c).flash } := by
  have written (sver : Nat) (fw : List (Nat × List Byte)) : (s.writeSet c sver fw).2 =
      { s with free := (s.writeSet c sver fw).2.free, flash := (s.writeSet c sver fw).2.flash } := by
    unfold State.writeSet
    dsimp only
    split <;> rfl
  unfold State.rewriteSet
  split <;> exact written _ _

theorem State.keySave_eq (s : State) : s.keySave =
    { s with free := s.keySave.free, flash := s.keySave.flash, au := { s.au with store := (s.au.slots, s.au.zgen) } } := by
  unfold State.keySave
  dsimp only
  rw [State.rewriteSet_eq, State.rewriteSet_eq]

theorem AMap.find?_set {β : Type} [DecidableEq β] {d : Nat → β} (m : AMap β) {a : Nat} {v : β} (other : v ≠ d a) (b : Nat) :
    AMap.find? (AMap.set d m a v) b = if b = a then some v else AMap.find? m b := by
  unfold AMap.set
  rw [if_neg other]
  split
  next same =>
    subst same
    exact AMap.find?_place_self v (AMap.find?_erase_self m b)
  next apart => rw [AMap.find?_place_ne _ v apart, AMap.find?_erase_ne m apart]

/-- A slot filled, the others as they were. -/
theorem State.fillSlot_spec (s : State) (k : Nat) {v : List Byte} (filled : v ≠ []) : (s.fillSlot k v).slot k = some v ∧
    (∀ j, j ≠ k → (s.fillSlot k v).slot j = s.slot j) ∧ (s.fillSlot k v).au.pubCtr = s.au.pubCtr ∧ (s.fillSlot k v).au.eph = s.au.eph := by
  have slots : (s.fillSlot k v).au.slots = AMap.set (fun _ => []) s.au.slots k v := by
    unfold State.fillSlot
    rw [State.keySave_eq]
  unfold State.slot
  rw [slots]
  refine ⟨by rw [AMap.find?_set _ filled, if_pos rfl], fun j other => by rw [AMap.find?_set _ filled, if_neg other], ?_, ?_⟩
  · unfold State.fillSlot
    rw [State.keySave_eq]
  · unfold State.fillSlot
    rw [State.keySave_eq]

theorem State.keyEnd_au (s : State) (e : Nat) : (s.keyEnd e).au = s.au := by
  unfold State.keyEnd
  rw [State.flag_au, State.setFld_au]

theorem State.keyEnd_slot (s : State) (e k : Nat) : (s.keyEnd e).slot k = s.slot k := by
  unfold State.slot
  rw [State.keyEnd_au]

theorem State.keyEnd_err (s : State) {e : Nat} (code : e < 16) : (s.keyEnd e).fld Reg.AU_KEY_STAT F.AU_KEY_STAT_ERR = e := by
  unfold State.keyEnd State.flag
  rw [State.fld_setFld_other _ _ _ _ _ (by decide) (by decide) (by decide), State.fld_setFld _ _ _ _ (by decide) (by decide)]
  exact Nat.mod_eq_of_lt code

/-! ## Transfers of AU -/

theorem State.fabricRefuse_au (s : State) (r : Nat) (e : Refused) : (s.fabricRefuse r e).au = s.au := by
  obtain ⟨regs, keeps⟩ := s.fabricRefuse_raises r e
  exact keeps.au

theorem State.readAs_au (s : State) (r a n : Nat) : (s.readAs r a n).2.au = s.au := by
  unfold State.readAs
  split
  · exact s.fabricRefuse_au r _
  · rfl

theorem State.writeAs_au (s : State) {r : Nat} (a : Nat) (bs : List Byte) (other : r ≠ 3) : (s.writeAs r a bs).2.au = s.au := by
  unfold State.writeAs
  split
  · exact s.fabricRefuse_au r _
  · dsimp only
    rw [if_neg other]
    exact State.dramWrite_au _ _ _

theorem State.keyOut_au (s : State) (bs : List Byte) : (s.keyOut bs).au = s.au := s.writeAs_au _ _ (by decide)

/-! ## Commands -/

theorem State.genDev_draws {s : State} (empty : s.slot 2 = none) (left : s.au.zgen < 64) :
    s.genDev 2 = ((s.drawKey.2.fillSlot 2 s.drawKey.1).keyEnd 0).closeHeld := by
  unfold State.genDev
  simp [empty, Nat.not_le.2 left]

theorem State.drawKey_spec (s : State) : s.drawKey.1.length = 48 ∧ s.drawKey.2.au = s.au ∧ s.drawKey.2.now = s.now :=
  ⟨length_beBytes _ _, rfl, rfl⟩

theorem ne_nil_of_length {α : Type} {v : List α} {n : Nat} (length : v.length = n + 1) : v ≠ [] := by
  rintro rfl
  simp at length

/-- GEN_DEV fills DEVICE SIGN with a key of 48 bytes, and nothing else. -/
theorem State.genDev_spec {s : State} (empty : s.slot 2 = none) (left : s.au.zgen < 64) :
    ∃ v, (s.genDev 2).slot 2 = some v ∧ v.length = 48 ∧ (s.genDev 2).fld Reg.AU_KEY_STAT F.AU_KEY_STAT_ERR = 0 ∧
      ∀ j, j ≠ 2 → (s.genDev 2).slot j = s.slot j := by
  obtain ⟨length, au, -⟩ := s.drawKey_spec
  obtain ⟨own, others, -, -⟩ := s.drawKey.2.fillSlot_spec 2 (ne_nil_of_length length)
  have held := ((s.drawKey.2.fillSlot 2 s.drawKey.1).keyEnd 0).closeHeld_keeps
  rw [State.genDev_draws empty left]
  refine ⟨_, (held.slot 2).trans ((State.keyEnd_slot _ _ _).trans own), length, ?_, fun j other => ?_⟩
  · rw [State.fld_of_rd (held.rd _ (by decide) (by decide) (by decide) (by decide)), State.keyEnd_err _ (by decide)]
  · rw [held.slot, State.keyEnd_slot, others j other]
    unfold State.slot
    rw [au]

/-- GEN_EPH draws a pair and signs its statement. -/
theorem State.genEph_spec {s : State} {k : Nat} (named : k < 8) : (s.genEph k).au.slots = s.au.slots ∧
    (s.slot 2 = none → s.genEph k = s.keyEnd 2) ∧
    ((s.slot 2).isSome = true → (s.genEph k).au.ephId = (s.au.ephId + 1) % 2 ^ 32 ∧
      ∃ v, (s.genEph k).au.eph = some (v, (s.genEph k).au.ephId, s.now) ∧ v.length = 48) := by
  have good : keySlotBad k = false := decide_eq_false (Nat.not_le.2 named)
  cases device : s.slot 2 with
  | none =>
    have refused : s.genEph k = s.keyEnd 2 := by
      unfold State.genEph
      simp only [good, device, Bool.false_eq_true, if_false]
    rw [refused, State.keyEnd_au]
    exact ⟨rfl, fun _ => rfl, fun some' => by simp at some'⟩
  | some priv =>
    have drawn : (s.genEph k).au = { s.au with
        ephId := (s.au.ephId + 1) % 2 ^ 32, eph := some (s.drawKey.1, (s.au.ephId + 1) % 2 ^ 32, s.now) } := by
      unfold State.genEph
      simp only [good, device, Bool.false_eq_true, if_false]
      rw [State.keyEnd_au, State.keyOut_au]
      rfl
    rw [drawn]
    exact ⟨rfl, fun none' => by simp at none', fun _ => ⟨rfl, _, rfl, s.drawKey_spec.1⟩⟩

/-- The ephemeral pair dropped. -/
def State.ephDropped (s : State) : State := { s with au := { s.au with eph := none } }

theorem State.ephDropped_eph (s : State) : s.ephDropped.au.eph = none := rfl
theorem State.ephDropped_slots (s : State) : s.ephDropped.au.slots = s.au.slots := rfl

/-- A SET_PUB counted. -/
def State.pubCounted (s : State) : State := { s with au := { s.au with pubCtr := s.au.pubCtr + 1 } }

theorem State.pubCounted_ctr (s : State) : s.pubCounted.au.pubCtr = s.au.pubCtr + 1 := rfl
theorem State.pubCounted_slot (s : State) (k : Nat) : s.pubCounted.slot k = s.slot k := rfl

theorem State.slot_of_au {s t : State} (au : t.au = s.au) (k : Nat) : t.slot k = s.slot k := by
  unfold State.slot
  rw [au]

theorem State.unwrapCmd_reads {s : State} {k : Nat} (named : k = 0 ∨ k = 1 ∨ k = 7) (writable : s.slotWritable k = true) (left : s.au.zgen < 64) :
    s.unwrapCmd k = match s.unwrapKey k ((s.readAs 6 s.keyArg 72).1.getD []) with
      | some v => ((s.readAs 6 s.keyArg 72).2.ephDropped.fillSlot k v).keyEnd 0
      | none => (s.readAs 6 s.keyArg 72).2.ephDropped.keyEnd 5 := by
  unfold State.unwrapCmd
  have secret : ¬(decide (k ≠ 0) && decide (k ≠ 1) && decide (k ≠ 7)) = true := by
    rcases named with rfl | rfl | rfl <;> decide
  rw [if_neg secret, if_neg (by simp [writable]), if_neg (Nat.not_le.2 left)]
  rfl

theorem State.unwrapCmd_other {s : State} {k : Nat} (play : k ≠ 0) (audit : k ≠ 1) (link : k ≠ 7) : s.unwrapCmd k = s.keyEnd 2 := by
  unfold State.unwrapCmd
  rw [if_pos (by simp [play, audit, link])]

theorem State.unwrapCmd_locked {s : State} {k : Nat} (named : k = 0 ∨ k = 1 ∨ k = 7) (locked : s.slotWritable k = false) :
    s.unwrapCmd k = s.keyEnd 3 := by
  have secret : ¬(decide (k ≠ 0) && decide (k ≠ 1) && decide (k ≠ 7)) = true := by
    rcases named with rfl | rfl | rfl <;> decide
  unfold State.unwrapCmd
  rw [if_neg secret, if_pos (by simp [locked])]

/-- UNWRAP drops the pair whatever comes of it, and fills a slot only with a blob that opens under it. -/
theorem State.unwrapCmd_spec {s : State} {k : Nat} (named : k = 0 ∨ k = 1 ∨ k = 7) (writable : s.slotWritable k = true)
    (left : s.au.zgen < 64) : (s.unwrapCmd k).au.eph = none ∧
    (s.unwrapKey k ((s.readAs 6 s.keyArg 72).1.getD []) = none → (s.unwrapCmd k).au.slots = s.au.slots ∧
      (s.unwrapCmd k).fld Reg.AU_KEY_STAT F.AU_KEY_STAT_ERR = 5) ∧
    (∀ v, s.unwrapKey k ((s.readAs 6 s.keyArg 72).1.getD []) = some v → (s.unwrapCmd k).slot k = some v ∧
      (s.unwrapCmd k).fld Reg.AU_KEY_STAT F.AU_KEY_STAT_ERR = 0) := by
  have au := s.readAs_au 6 s.keyArg 72
  rw [State.unwrapCmd_reads named writable left]
  cases opened : s.unwrapKey k ((s.readAs 6 s.keyArg 72).1.getD []) with
  | none =>
    dsimp only
    refine ⟨?_, fun _ => ⟨?_, State.keyEnd_err _ (by decide)⟩, fun v some' => by simp at some'⟩
    · rw [State.keyEnd_au, State.ephDropped_eph]
    · rw [State.keyEnd_au, State.ephDropped_slots, au]
  | some v =>
    dsimp only
    obtain ⟨own, -, -, eph⟩ := (s.readAs 6 s.keyArg 72).2.ephDropped.fillSlot_spec k (ne_nil_of_length (State.length_unwrapKey opened))
    refine ⟨?_, fun none' => by simp at none', fun w same => ⟨?_, State.keyEnd_err _ (by decide)⟩⟩
    · rw [State.keyEnd_au, eph, State.ephDropped_eph]
    · rw [State.keyEnd_slot, own, Option.some.inj same]

/-- The form of a record SET_PUB takes (R391). -/
def pubForm (b : List Byte) : Prop := leAt b 0 4 = 0x4B50594A ∧ leAt b 5 3 = 0 ∧ 3 ≤ leAt b 4 1 ∧ leAt b 4 1 ≤ 6

/-- The right to fill an IMAGE VERIFY slot (R391). -/
def State.pubSigned (s : State) (b : List Byte) : Prop := match s.slot 3 with
  | none => leAt b 4 1 = 3
  | some pub => leAt b 8 8 = s.au.pubCtr ∧ P384.verify pub (sha384 (slice b 0 112)) (slice b 112 96) = true

/-- What SET_PUB makes of the bytes it read. -/
def State.setPubOf (s : State) (b : List Byte) : State :=
  if leAt b 0 4 ≠ 0x4B50594A || leAt b 5 3 ≠ 0 then s.keyEnd 6
  else if leAt b 4 1 < 3 || 6 < leAt b 4 1 then s.keyEnd 2
  else if !(match s.slot 3 with
      | none => decide (leAt b 4 1 = 3)
      | some pub => decide (leAt b 8 8 = s.au.pubCtr) && P384.verify pub (sha384 (slice b 0 112)) (slice b 112 96)) then
    s.keyEnd (if (s.slot 3).isNone then 2 else 6)
  else (s.pubCounted.fillSlot (leAt b 4 1) (slice b 0x10 96)).keyEnd 0

theorem State.setPub_eq (s : State) : s.setPub = (s.readAs 6 s.keyArg 208).2.setPubOf ((s.readAs 6 s.keyArg 208).1.getD []) := rfl

section
variable {s : State} {b : List Byte}

theorem State.setPubOf_good (form : pubForm b) (signed : s.pubSigned b) :
    s.setPubOf b = (s.pubCounted.fillSlot (leAt b 4 1) (slice b 0x10 96)).keyEnd 0 := by
  obtain ⟨magic, zeros, low, high⟩ := form
  unfold State.pubSigned at signed
  rw [State.setPubOf, if_neg (by simp [magic, zeros]), if_neg (by simp [low, high])]
  refine if_neg ?_
  cases filled : s.slot 3 with
  | none =>
    rw [filled] at signed
    simpa using signed
  | some pub =>
    rw [filled] at signed
    simp [signed]

theorem State.setPubOf_bad (bad : ¬(pubForm b ∧ s.pubSigned b)) : (s.setPubOf b).au = s.au := by
  unfold State.setPubOf
  split
  · exact State.keyEnd_au _ _
  next known =>
    split
    · exact State.keyEnd_au _ _
    next named =>
      simp only [Bool.or_eq_true, decide_eq_true_eq, not_or, not_not, not_lt] at known named
      have unsigned (signed : s.pubSigned b) : False := bad ⟨⟨known.1, known.2, named.1, named.2⟩, signed⟩
      unfold State.pubSigned at unsigned
      cases filled : s.slot 3 with
      | none =>
        rw [filled] at unsigned
        dsimp only
        rw [if_pos (by simpa using unsigned), State.keyEnd_au]
      | some pub =>
        rw [filled] at unsigned
        dsimp only
        rw [if_pos (by simpa [imp_iff_not_or] using unsigned), State.keyEnd_au]

/-- SET_PUB fills its slot with the right to, and changes nothing otherwise. -/
theorem State.setPubOf_spec (s : State) (b : List Byte) :
    (pubForm b ∧ s.pubSigned b → (s.setPubOf b).slot (leAt b 4 1) = some (slice b 0x10 96) ∧ (s.setPubOf b).au.pubCtr = s.au.pubCtr + 1 ∧
      ∀ j, j ≠ leAt b 4 1 → (s.setPubOf b).slot j = s.slot j) ∧
    (¬(pubForm b ∧ s.pubSigned b) → (s.setPubOf b).au.slots = s.au.slots ∧ (s.setPubOf b).au.pubCtr = s.au.pubCtr) := by
  refine ⟨fun good => ?_, fun bad => by rw [State.setPubOf_bad bad]; exact ⟨rfl, rfl⟩⟩
  rw [State.setPubOf_good good.1 good.2]
  obtain ⟨own, others, ctr, -⟩ := s.pubCounted.fillSlot_spec (leAt b 4 1) (ne_nil_of_length (length_slice b 0x10 96))
  refine ⟨(State.keyEnd_slot _ _ _).trans own, ?_, fun j other => (State.keyEnd_slot _ _ _).trans ((others j other).trans ?_)⟩
  · rw [State.keyEnd_au, ctr, State.pubCounted_ctr]
  · exact State.pubCounted_slot s j

end

theorem State.pubSigned_of_au {s t : State} (au : t.au = s.au) (b : List Byte) : t.pubSigned b ↔ s.pubSigned b := by
  unfold State.pubSigned State.slot
  rw [au]

/-- SET_PUB fills its slot with the right to, and changes nothing otherwise. -/
theorem State.setPub_spec (s : State) : let b := ((s.readAs 6 s.keyArg 208).1).getD []
    (pubForm b ∧ s.pubSigned b → s.setPub.slot (leAt b 4 1) = some (slice b 0x10 96) ∧ s.setPub.au.pubCtr = s.au.pubCtr + 1 ∧
      ∀ j, j ≠ leAt b 4 1 → s.setPub.slot j = s.slot j) ∧
    (¬(pubForm b ∧ s.pubSigned b) → s.setPub.au.slots = s.au.slots ∧ s.setPub.au.pubCtr = s.au.pubCtr) := by
  intro b
  have au := s.readAs_au 6 s.keyArg 208
  have done := (s.readAs 6 s.keyArg 208).2.setPubOf_spec b
  rw [State.pubSigned_of_au au, au] at done
  rw [State.setPub_eq]
  exact ⟨fun good => ⟨(done.1 good).1, (done.1 good).2.1, fun j other => ((done.1 good).2.2 j other).trans (State.slot_of_au au j)⟩, done.2⟩

section
variable {s : State} {m : Master} (takes : s.takes m Reg.AU_KEY_CMD) (w : Word)
include takes

/-- A key command by its code. -/
theorem exec_keyCmd (op : Nat) : (Host.Outcome.next (s.act (·.busWrite m.val Reg.AU_KEY_CMD (command w [(F.AU_KEY_CMD_OP, op)]))) :
    Host.Outcome State Fault Refusal) = .next (s.wrote (s.keyCmd (cmdWord Reg.AU_KEY_CMD w [(F.AU_KEY_CMD_OP, op)])) m) := by
  refine State.next_busWrite takes (by decide) (by decide) ?_
  change s.writeAu Reg.AU_KEY_CMD (cmdWord Reg.AU_KEY_CMD w _) = _
  rw [State.writeAu, if_neg (by decide), if_pos rfl]

end

theorem get_keyOp (w : Word) {op : Nat} (code : op < 8) : F.AU_KEY_CMD_OP.get (cmdWord Reg.AU_KEY_CMD w [(F.AU_KEY_CMD_OP, op)]) = op :=
  (get_regMask (by decide) _).trans ((F.AU_KEY_CMD_OP.get_put w op (by decide) (by decide)).trans (Nat.mod_eq_of_lt code))

section
variable {s : State} {d : Word}

theorem State.keyCmd_genDev (code : F.AU_KEY_CMD_OP.get d = 1) : s.keyCmd d = s.genDev (F.AU_KEY_CMD_SLOT.get d) := by
  unfold State.keyCmd
  simp only [code]

theorem State.keyCmd_genEph (code : F.AU_KEY_CMD_OP.get d = 2) : s.keyCmd d = s.genEph (F.AU_KEY_CMD_SLOT.get d) := by
  unfold State.keyCmd
  simp only [code]

theorem State.keyCmd_unwrap (code : F.AU_KEY_CMD_OP.get d = 3) : s.keyCmd d = s.unwrapCmd (F.AU_KEY_CMD_SLOT.get d) := by
  unfold State.keyCmd
  simp only [code]

theorem State.keyCmd_setPub (code : F.AU_KEY_CMD_OP.get d = 4) (named : F.AU_KEY_CMD_SLOT.get d < 8) : s.keyCmd d = s.setPub := by
  unfold State.keyCmd
  rw [code]
  exact if_neg (by simpa [keySlotBad] using named)

theorem State.keyCmd_exportPub (code : F.AU_KEY_CMD_OP.get d = 5) (named : F.AU_KEY_CMD_SLOT.get d < 8) : s.keyCmd d = s.exportPub := by
  unfold State.keyCmd
  rw [code]
  exact if_neg (by simpa [keySlotBad] using named)

end

/-- UNWRAP as a command, by the slot it names. -/
theorem exec_unwrap {s : State} {m : Master} {k : Nat} (takes : s.takes m Reg.AU_KEY_CMD) (w : Word)
    (slot : F.AU_KEY_CMD_SLOT.get (cmdWord Reg.AU_KEY_CMD w [(F.AU_KEY_CMD_OP, 3)]) = k) :
    exec (.unwrap m w) s = .next (s.wrote (s.unwrapCmd k) m) :=
  (exec_keyCmd takes w 3).trans (by rw [State.keyCmd_unwrap (get_keyOp w (by decide)), slot])

/-- Settles O46: the five key commands, and the end of an unused pair. -/
theorem keyCommands : Obligations.KeyCommands := by
  unfold Obligations.KeyCommands
  refine ⟨?genDev, ?genEph, ?unwrap, ?setPub, ?exportPub, ?expire, ?noPair⟩
  case genDev =>
    intro s m w takes k
    refine ⟨s.genDev k, (exec_keyCmd takes w 1).trans (by rw [State.keyCmd_genDev (get_keyOp w (by decide))]), fun other => if_pos other,
      fun device filled => ?_, fun device empty left => ?_⟩
    · rw [device, State.genDev, if_neg (not_not_intro rfl), if_pos filled]
    · rw [device]
      exact State.genDev_spec empty left
  case genEph =>
    intro s m w takes named
    exact ⟨_, (exec_keyCmd takes w 2).trans (by rw [State.keyCmd_genEph (get_keyOp w (by decide))]), State.genEph_spec named⟩
  case unwrap =>
    intro s m w takes k r
    have slot : F.AU_KEY_CMD_SLOT.get (cmdWord Reg.AU_KEY_CMD w [(F.AU_KEY_CMD_OP, 3)]) = k := rfl
    clear_value k
    exact ⟨s.unwrapCmd k, exec_unwrap takes w slot, State.unwrapCmd_other, State.unwrapCmd_locked, State.unwrapCmd_spec⟩
  case setPub =>
    intro s m w takes named b k form signed
    exact ⟨_, (exec_keyCmd takes w 4).trans (by rw [State.keyCmd_setPub (get_keyOp w (by decide)) named]), s.setPub_spec⟩
  case exportPub =>
    intro s m w takes named
    refine ⟨_, (exec_keyCmd takes w 5).trans (by rw [State.keyCmd_exportPub (get_keyOp w (by decide)) named]), fun empty => ?_,
      fun priv filled => ?_⟩
    · unfold State.exportPub
      rw [empty]
    · unfold State.exportPub
      rw [filled]
  case expire =>
    intro s priv id t out pair
    refine ⟨fun old => State.next_act out ?_, fun young => State.next_act out ?_⟩
    · unfold State.ephExpire
      rw [pair]
      exact if_pos old
    · unfold State.ephExpire
      rw [pair]
      exact if_neg (Nat.not_le.2 young)
  case noPair =>
    intro s out none'
    refine State.next_act out ?_
    unfold State.ephExpire
    rw [none']

end Sys2Proof.Machine
end

section
/-! PROOFS of O48: cairns and summits issued, and what the delivery of a record leaves. -/

namespace Sys2Proof.Machine

/-! ## Delivery -/

theorem State.audFlush_au (s : State) : s.audFlush.au = { s.au with netq := s.au.netq.drop 8 } := by
  unfold State.audFlush
  split
  next empty =>
    rw [List.isEmpty_iff.1 empty, List.drop_nil, ← List.isEmpty_iff.1 empty]
  · rfl

/-- The network's part of a record's delivery (R388). -/
def State.netRecord (s : State) (sub : Nat) (rec : List Byte) : State :=
  if !s.ethEn then s
  else if sub = 0 then
    if 8 ≤ (s.au.netq ++ [rec]).length then { s with au := { s.au with netq := s.au.netq ++ [rec] } }.audFlush
    else { s with au := { s.au with netq := s.au.netq ++ [rec] } }
  else s.audFrame 1 [rec]

theorem State.sendRecord_eq (s : State) (sub : Nat) (rec : List Byte) : s.sendRecord sub rec =
    if (s.netRecord sub rec).upEn = true then (s.netRecord sub rec).sendAud sub 0 rec else s.netRecord sub rec := rfl

theorem State.netRecord_au (s : State) (sub : Nat) (rec : List Byte) :
    (s.netRecord sub rec).au = { s.au with netq := (s.netRecord sub rec).au.netq } := by
  unfold State.netRecord
  split
  · rfl
  · split
    · split
      · rw [State.audFlush_au]
      · rfl
    · rfl

theorem State.netRecord_flash (s : State) (sub : Nat) (rec : List Byte) : (s.netRecord sub rec).flash = s.flash := by
  unfold State.netRecord State.audFlush
  split
  · rfl
  · split
    · split
      · split <;> rfl
      · rfl
    · rfl

theorem State.sendRecord_posted (s : State) (sub : Nat) (rec : List Byte) :
    (s.netRecord sub rec).Posted (s.sendRecord sub rec) := by
  rw [State.sendRecord_eq]
  split
  · exact State.sendAud_posted _ _ _ _
  · exact .refl _

/-- A record on its way changes no more of the audit state than the cairns that wait for a frame. -/
theorem State.sendRecord_au (s : State) (sub : Nat) (rec : List Byte) :
    (s.sendRecord sub rec).au = { s.au with netq := (s.sendRecord sub rec).au.netq } := by
  rw [(s.sendRecord_posted sub rec).au]
  exact s.netRecord_au sub rec

/-- A record delivered waits for flash behind the earlier ones. -/
theorem State.deliverRec_au (s : State) (sub seq : Nat) (rec : List Byte) : (s.deliverRec sub seq rec).au =
    { s.au with ringq := s.au.ringq ++ [(seq, rec)], netq := (s.deliverRec sub seq rec).au.netq } :=
  State.sendRecord_au _ sub rec

/-- The end of an issue: a batch of 64 cairns closes. -/
def State.batchFull (s : State) : State := if 64 ≤ s.au.batch.length then s.closeBatch false else s

theorem State.batchFull_keeps (s : State) : s.BatchKeeps s.batchFull := by
  unfold State.batchFull
  split
  · exact s.closeBatch_keeps _
  · exact .refl s

/-! ## Cairns -/

/-- The first open ticket taken from the table with its cairn (R379, R380). -/
def State.cairnTaken (s : State) (t : Ticket) (rest : List Ticket) : State :=
  { s with au := { s.au with
    tickets := rest, seq := s.au.seq + 1, chain := (sha256 (s.cairn t (List.replicate 12 0))).take 16,
    batch := s.au.batch ++ [s.cairn t (t.ts.getD (List.replicate 12 0))],
    batchFirst := if s.au.batch.isEmpty then s.au.seq else s.au.batchFirst } }

section
variable {s : State} {t : Ticket} {rest : List Ticket} (first : s.au.tickets = t :: rest)
include first

theorem State.cairnIssue_waits (waits : t.verdict = none ∨ s.digestReady t = false) : s.cairnIssue = s := by
  unfold State.cairnIssue
  rw [first]
  exact if_pos (by simpa [Bool.or_eq_true] using waits)

variable (judged : t.verdict.isSome = true) (complete : s.digestReady t = true)
include judged complete

theorem State.cairnIssue_witness (witness : s.isWitness = true) : s.cairnIssue = { s with au := { s.au with tickets := rest } } := by
  unfold State.cairnIssue
  rw [first]
  dsimp only
  rw [if_neg (by simp [complete, Option.isSome_iff_ne_none.1 judged]), if_pos witness]

theorem State.cairnIssue_issues (own : s.isWitness = false) : s.cairnIssue =
    ((s.cairnTaken t rest).deliverRec 0 s.au.seq (s.cairn t (t.ts.getD (List.replicate 12 0)))).batchFull := by
  unfold State.cairnIssue
  rw [first]
  dsimp only
  rw [if_neg (by simp [complete, Option.isSome_iff_ne_none.1 judged]), if_neg (by simp [own])]
  rfl

theorem State.cairnIssue_spec (own : s.isWitness = false) : s.cairnIssue.au.tickets = rest ∧ s.cairnIssue.au.seq = s.au.seq + 1 ∧
    s.cairnIssue.au.chain = (sha256 (s.cairn t (List.replicate 12 0))).take 16 ∧
    s.cairnIssue.au.ringq = s.au.ringq ++ [(s.au.seq, s.cairn t (t.ts.getD (List.replicate 12 0)))] := by
  rw [State.cairnIssue_issues first judged complete own, (State.batchFull_keeps _).au]
  dsimp only
  rw [State.deliverRec_au]
  exact ⟨rfl, rfl, rfl, rfl⟩

end

/-- Magic and SEQ of a cairn (R377). -/
theorem State.cairn_head (s : State) (t : Ticket) (ts : List Byte) (fits : s.au.seq < 2 ^ 64) :
    leAt (s.cairn t ts) 0 4 = 0x4E43594A ∧ leAt (s.cairn t ts) 8 8 = s.au.seq := by
  unfold State.cairn
  simp only [List.append_assoc]
  refine ⟨leAt_here 4 _ _, ?_⟩
  rw [leAt_skip _ _ (by decide), leAt_skip _ _ (by decide), leAt_skip _ _ (by decide), leAt_skip _ _ (by decide), leAt_here]
  exact Nat.mod_eq_of_lt fits

/-! ## Summits -/

/-- FLAGS of a summit (R383). -/
theorem State.summitBytes_flags (s : State) {flags : Nat} (first lo hi : Nat) (cs : List (List Byte)) (fits : flags < 2 ^ 16) :
    leAt (s.summitBytes flags first lo hi cs) 6 2 = flags := by
  unfold State.summitBytes
  simp only [List.append_assoc]
  rw [leAt_skip _ _ (by decide), leAt_skip _ _ (by decide), leAt_here]
  exact Nat.mod_eq_of_lt fits

/-- Bit 2 of FLAGS tells of a batch closed by time. -/
theorem State.closingBytes_byTime (s : State) : bit (leAt (s.closingBytes true) 6 2) 2 = true := by
  have flags (a b : Bool) : b2n a + 4 * b2n true + 8 * b2n b < 2 ^ 16 ∧ bit (b2n a + 4 * b2n true + 8 * b2n b) 2 = true := by
    cases a <;> cases b <;> decide
  unfold State.closingBytes
  dsimp only
  rw [State.summitBytes_flags _ _ _ _ _ (flags _ _).1]
  exact (flags _ _).2

theorem State.summitTimer_stays {s : State} (stays : s.slot 2 = none ∨ s.mode = .boot ∨ s.mode = .test ∨ s.summitDue = false) :
    s.summitTimer = s := by
  unfold State.summitTimer
  split
  next due =>
    refine State.closeBatch_stays true ?_
    rcases stays with empty | boot | test | early
    · exact .inl empty
    · exact .inr (.inr (.inl boot))
    · exact .inr (.inr (.inr test))
    · exact absurd (early.symm.trans due) (by decide)
  · rfl

theorem State.summitTimer_closes {s : State} (signs : (s.slot 2).isSome = true) (due : s.summitDue = true) (free : s.au.closing = none)
    (boot : s.mode ≠ .boot) (test : s.mode ≠ .test) : s.summitTimer.au.batch = s.au.batch.drop 64 ∧ ∃ c, s.summitTimer.au.closing = some c ∧
      c.cairns = s.au.batch.take 64 ∧ c.answer = none ∧ c.waiting = decide (s.witRole = 1) ∧
      c.seqEnd = s.au.batchFirst + c.cairns.length ∧ bit (leAt c.bytes 6 2) 2 = true := by
  have closes : ¬s.batchStays := by
    rintro (empty | closing | boot' | test')
    · simp [empty] at signs
    · simp [free] at closing
    · exact boot boot'
    · exact test test'
  have timer : s.summitTimer = s.closeBatch true := if_pos due
  have role : s.firstSeq.2.witRole = s.witRole := by rw [s.firstSeq_eq]; rfl
  have drawn : s.firstSeq.2.au = s.au := by rw [s.firstSeq_eq]
  rw [timer, (State.closeBatch_posted true closes).au]
  refine ⟨congrArg (fun a : AuState => a.batch.drop 64) drawn, _, rfl, rfl, rfl, ?_, congrArg (fun a : AuState => a.batchFirst + _) drawn, s.closingBytes_byTime⟩
  exact congrArg (fun r => decide (r = 1)) role

/-- A summit's record leaves with the next SUMMIT_SEQ. -/
def State.summitSent (s : State) (c : Summit) (r : List Byte) : State :=
  ({ s with au := { s.au with closing := none, sumSeq := s.au.sumSeq + 1, sumPrev := sha384 r, sumFirst := false } }.wrN Reg.AU_SUMMIT_SEQ
    (s.au.sumSeq + 1)).deliverRec 1 (c.seqEnd - 1) r

/-- A witness that has not answered is told of. -/
def State.witnessTold (s : State) (c : Summit) : State :=
  if c.missing then (s.flag Reg.AU_STAT F.AU_STAT_WIT_LOST).raise Ev.WITNESS_LOST else s

theorem State.witnessTold_au (s : State) (c : Summit) : (s.witnessTold c).au = s.au := by
  unfold State.witnessTold
  split
  · rw [(State.raise_keeps _ _ _).au, State.flag_au]
  · rfl

theorem State.summitOut_eq (s : State) (c : Summit) (r : List Byte) : s.summitOut c r = ((s.summitSent c r).witnessTold c).batchFull := rfl

theorem State.summitSent_au (s : State) (c : Summit) (r : List Byte) : (s.summitSent c r).au = { s.au with
    closing := none, sumSeq := s.au.sumSeq + 1, sumPrev := sha384 r, sumFirst := false,
    ringq := s.au.ringq ++ [(c.seqEnd - 1, r)], netq := (s.summitSent c r).au.netq } := by
  unfold State.summitSent
  rw [State.deliverRec_au]
  rfl

theorem State.summitOut_spec (s : State) (c : Summit) (r : List Byte) : (s.summitOut c r).au.sumSeq = s.au.sumSeq + 1 ∧
    (s.summitOut c r).au.sumPrev = sha384 r ∧ (s.summitOut c r).au.ringq = s.au.ringq ++ [(c.seqEnd - 1, r)] := by
  rw [State.summitOut_eq, (State.batchFull_keeps _).au]
  dsimp only
  rw [State.witnessTold_au, State.summitSent_au]
  exact ⟨rfl, rfl, rfl⟩

theorem State.summitIssue_signs {s : State} {c : Summit} {priv : List Byte} (closing : s.au.closing = some c) (signs : s.slot 2 = some priv) :
    s.summitIssue = if c.waiting then s else s.summitOut c (c.record priv) := by
  unfold State.summitIssue
  rw [closing, signs]

/-- Settles O48: cairns by the first open ticket, batches by time, and summits once no witness is awaited. -/
theorem recordsChain : Obligations.RecordsChain := by
  unfold Obligations.RecordsChain
  refine ⟨⟨?issues, ?witness, ?waits, fun s t ts fits => s.cairn_head t ts fits⟩, ?timer, ?summit⟩
  case issues =>
    intro s t rest out first judged complete own
    exact ⟨_, State.next_act out rfl, State.cairnIssue_spec first judged complete own⟩
  case witness =>
    intro s t rest out first judged complete witness
    exact State.next_act out (State.cairnIssue_witness first judged complete witness)
  case waits =>
    intro s out waits
    refine State.next_act out ?_
    cases first : s.au.tickets with
    | nil =>
      unfold State.cairnIssue
      rw [first]
    | cons t rest => exact State.cairnIssue_waits first (waits t (by rw [first]; rfl))
  case timer =>
    intro s out
    exact ⟨_, State.next_act out rfl, State.summitTimer_stays, State.summitTimer_closes⟩
  case summit =>
    intro s c priv out closing signs
    refine ⟨_, State.next_act out (State.summitIssue_signs closing signs), fun awaited => if_pos awaited, fun answered => ?_⟩
    rw [if_neg (by simp [answered])]
    exact s.summitOut_spec c _

end Sys2Proof.Machine
end

section
/-! PROOFS of O49: the audit ring written in order into acknowledged sectors, AU_RING_ACK, the audit frame and REPLAY. -/

namespace Sys2Proof.Machine

/-! ## The ring -/

/-- The units a record takes (R386). -/
def State.unitsTaken (s : State) (rec : List Byte) : List Nat :=
  (List.range (if rec.length = 128 then 1 else 4)).map fun i => (s.au.ringPos + i) % s.ringRegion.2

/-- The first units of the sectors a record enters. -/
def State.sectorsEntered (s : State) (rec : List Byte) : List Nat := (s.unitsTaken rec).filter fun u => u % 32 = 0

/-- The sectors a record enters hold acknowledged records alone. -/
def State.ringFree (s : State) (rec : List Byte) : Bool :=
  (s.sectorsEntered rec).all fun u => (List.range 32).all fun i => s.unitAcked (u + i)

/-- The sectors a record enters erased. -/
def State.ringErased (s : State) (rec : List Byte) : State := (s.sectorsEntered rec).foldl (fun s u => s.ringErase u) s

/-- A record's units programmed. -/
def State.ringFlashed (s : State) (rec : List Byte) : State :=
  ((s.unitsTaken rec).zipIdx).foldl (fun t u => t.flashProgram (s.ringRegion.1 + 128 * u.1) (slice rec (128 * u.2) 128)) (s.ringErased rec)

/-- The oldest record taken from the queue into its units. -/
def State.ringTaken (s : State) (seq : Nat) (rec : List Byte) (rest : List (Nat × List Byte)) : State :=
  { s.ringFlashed rec with au := { (s.ringFlashed rec).au with
    ringSeq := (s.unitsTaken rec).foldl (fun m u => AMap.set (fun _ => 0) m u (seq + 1)) (s.ringFlashed rec).au.ringSeq,
    ringPos := ((s.ringFlashed rec).au.ringPos + (s.unitsTaken rec).length) % s.ringRegion.2, ringq := rest, ringHeld := false } }

/-- AUDIT_RING_WARN once the fill passes WARN_PCT. -/
def State.ringWarn (s : State) (before : Nat) : State :=
  if before < s.fld Reg.AU_RING_CFG F.AU_RING_CFG_WARN_PCT && s.fld Reg.AU_RING_CFG F.AU_RING_CFG_WARN_PCT ≤ s.ringFill then
    (s.flag Reg.AU_STAT F.AU_STAT_RING_WARN).raise Ev.AUDIT_RING_WARN
  else s

theorem State.ringFree_iff (s : State) (rec : List Byte) : s.ringFree rec = true ↔
    ∀ u ∈ s.unitsTaken rec, u % 32 = 0 → ∀ i < 32, s.unitAcked (u + i) = true := by
  simp [State.ringFree, State.sectorsEntered, imp_iff_not_or]

theorem State.ringErase_au (s : State) (u : Nat) : (s.ringErase u).au = { s.au with ringSeq := (s.ringErase u).au.ringSeq } := by
  unfold State.ringErase
  dsimp only
  rw [State.flashErase_au]

/-- Erasing and programming move no more of the audit state than what the units are known to hold. -/
theorem State.ringFlashed_au (s : State) (rec : List Byte) :
    (s.ringFlashed rec).au = { s.au with ringSeq := (s.ringFlashed rec).au.ringSeq } := by
  have programmed : (s.ringFlashed rec).au = (s.ringErased rec).au := by
    unfold State.ringFlashed
    exact State.foldl_proj (·.au) (by intros; rfl) _ _
  rw [programmed]
  exact foldl_keeps (R := fun t u : State => u.au = { t.au with ringSeq := u.au.ringSeq }) (fun _ => rfl)
    (fun h k => by rw [k, h]) (fun t u => t.ringErase_au u) _ s

theorem State.ringWarn_au (s : State) (before : Nat) : (s.ringWarn before).au = s.au := by
  unfold State.ringWarn
  split
  · rw [(State.raise_keeps _ _ _).au, State.flag_au]
  · rfl

theorem not_acked_of_free {b : Bool} (free : b = true) : ¬(!b) = true := by simp [free]
theorem full_of_not_free {b : Bool} (full : b = false) : (!b) = true := by simp [full]

section
variable {s : State} {ok : Bool} {seq : Nat} {rec : List Byte} {rest : List (Nat × List Byte)}
  (next : s.au.ringq = (seq, rec) :: rest) (room : s.ringRegion.2 ≠ 0)
include next room

theorem State.ringWrite_taken (free : s.ringFree rec = true) : s.ringWrite true = (s.ringTaken seq rec rest).ringWarn s.ringFill := by
  unfold State.ringWrite
  rw [next]
  refine (if_neg room).trans ((if_neg (not_acked_of_free free)).trans (if_neg (by decide)))

theorem State.ringWrite_failed (free : s.ringFree rec = true) :
    s.ringWrite false = (s.flag Reg.AU_STAT F.AU_STAT_FLASH_ERR).raise Ev.AUDIT_FLASH_ERR := by
  unfold State.ringWrite
  rw [next]
  exact (if_neg room).trans ((if_neg (not_acked_of_free free)).trans (if_pos (by decide)))

theorem State.ringWrite_held (full : s.ringFree rec = false) : s.ringWrite ok = if s.au.ringHeld then s
    else ({ s with au := { s.au with ringHeld := true } }.flag Reg.AU_STAT F.AU_STAT_RING_FULL).raise Ev.AUDIT_RING_FULL := by
  unfold State.ringWrite
  rw [next]
  exact (if_neg room).trans (if_pos (full_of_not_free full))

end

theorem State.ringTaken_spec (s : State) (seq : Nat) (rec : List Byte) (rest : List (Nat × List Byte)) :
    (s.ringTaken seq rec rest).au.ringq = rest ∧ (s.ringTaken seq rec rest).au.ringHeld = false ∧
    (s.ringTaken seq rec rest).au.ringPos = (s.au.ringPos + if rec.length = 128 then 1 else 4) % s.ringRegion.2 := by
  have units : (s.unitsTaken rec).length = if rec.length = 128 then 1 else 4 := by
    unfold State.unitsTaken
    rw [List.length_map, List.length_range]
  have pos : (s.ringFlashed rec).au.ringPos = s.au.ringPos := by rw [s.ringFlashed_au]
  refine ⟨rfl, rfl, ?_⟩
  rw [← pos, ← units]
  rfl

/-- A device that fails keeps the record, and is told of. -/
theorem State.flashErr_spec (s : State) : ((s.flag Reg.AU_STAT F.AU_STAT_FLASH_ERR).raise Ev.AUDIT_FLASH_ERR).au = s.au ∧
    ((s.flag Reg.AU_STAT F.AU_STAT_FLASH_ERR).raise Ev.AUDIT_FLASH_ERR).flash = s.flash ∧
    ((s.flag Reg.AU_STAT F.AU_STAT_FLASH_ERR).raise Ev.AUDIT_FLASH_ERR).isSet Reg.AU_STAT F.AU_STAT_FLASH_ERR = true := by
  have kept := (s.flag Reg.AU_STAT F.AU_STAT_FLASH_ERR).raise_keeps Ev.AUDIT_FLASH_ERR 0
  refine ⟨kept.au.trans (State.flag_au _ _ _), kept.flash.trans (State.flag_flash _ _ _), ?_⟩
  rw [State.isSet_of_rd (kept.rd _ (by decide) (by decide) (by decide))]
  exact State.isSet_flag _ _ _ (by decide) (by decide)

/-- A record that finds no acknowledged sector is held. -/
theorem State.held_spec {s t : State} (held : t = if s.au.ringHeld then s
      else ({ s with au := { s.au with ringHeld := true } }.flag Reg.AU_STAT F.AU_STAT_RING_FULL).raise Ev.AUDIT_RING_FULL) :
    t.au.ringq = s.au.ringq ∧ t.flash = s.flash ∧ t.au.ringHeld = true := by
  rw [held]
  split
  next already => exact ⟨rfl, rfl, already⟩
  · have kept := (State.flag { s with au := { s.au with ringHeld := true } } Reg.AU_STAT F.AU_STAT_RING_FULL).raise_keeps
      Ev.AUDIT_RING_FULL 0
    rw [kept.au, kept.flash, State.flag_au, State.flag_flash]
    exact ⟨rfl, rfl, rfl⟩

theorem State.ringWrite_spec {s : State} (ok : Bool) {seq : Nat} {rec : List Byte} {rest : List (Nat × List Byte)}
    (next : s.au.ringq = (seq, rec) :: rest) (room : s.ringRegion.2 ≠ 0) :
    (s.ringFree rec = true → ok = true → (s.ringWrite ok).au.ringq = rest ∧
      (s.ringWrite ok).au.ringPos = (s.au.ringPos + if rec.length = 128 then 1 else 4) % s.ringRegion.2 ∧ (s.ringWrite ok).au.ringHeld = false) ∧
    (s.ringFree rec = true → ok = false → (s.ringWrite ok).au = s.au ∧ (s.ringWrite ok).flash = s.flash ∧
      (s.ringWrite ok).isSet Reg.AU_STAT F.AU_STAT_FLASH_ERR = true) ∧
    (s.ringFree rec = false → (s.ringWrite ok).au.ringq = s.au.ringq ∧ (s.ringWrite ok).flash = s.flash ∧
      (s.ringWrite ok).au.ringHeld = true) := by
  refine ⟨fun free took => ?_, fun free failed => ?_, fun full => State.held_spec (State.ringWrite_held next room full)⟩
  · obtain ⟨queue, held, pos⟩ := s.ringTaken_spec seq rec rest
    rw [took, State.ringWrite_taken next room free, State.ringWarn_au]
    exact ⟨queue, pos, held⟩
  · rw [failed, State.ringWrite_failed next room free]
    exact s.flashErr_spec

/-! ## AU_RING_ACK, the audit frame and REPLAY -/

theorem State.audFlush_spec (s : State) : s.audFlush.au.netq = s.au.netq.drop 8 ∧
    s.audFlush.tn.audq.length = s.tn.audq.length + (if s.au.netq.isEmpty then 0 else 1) := by
  refine ⟨by rw [s.audFlush_au], ?_⟩
  unfold State.audFlush State.audFrame
  split
  · rfl
  · exact List.length_append

section
variable {s : State} {m : Master}

theorem exec_ringAckLo (takes : s.takes m Reg.AU_RING_ACK_LO) (w : Word) :
    exec (.auditRingAckWrite m false w) s = .next (s.wrote (s.ringAck false (cmdWord Reg.AU_RING_ACK_LO w [])) m) := by
  refine State.next_busWrite takes (by decide) (by decide) ?_
  change s.writeAu Reg.AU_RING_ACK_LO (cmdWord Reg.AU_RING_ACK_LO w []) = _
  rw [State.writeAu, if_neg (by decide), if_neg (by decide), if_pos rfl]

theorem exec_ringAckHi (takes : s.takes m Reg.AU_RING_ACK_HI) (w : Word) :
    exec (.auditRingAckWrite m true w) s = .next (s.wrote (s.ringAck true (cmdWord Reg.AU_RING_ACK_HI w [])) m) := by
  refine State.next_busWrite takes (by decide) (by decide) ?_
  change s.writeAu Reg.AU_RING_ACK_HI (cmdWord Reg.AU_RING_ACK_HI w []) = _
  rw [State.writeAu, if_neg (by decide), if_neg (by decide), if_neg (by decide), if_pos rfl]

/-- A write of AU_CTRL without ZEROIZE and ATTEST. -/
theorem State.writeAu_replay {d : Word} (zeroize : F.AU_CTRL_ZEROIZE.get d = 0) (attest : F.AU_CTRL_ATTEST.get d = 0)
    (replay : F.AU_CTRL_REPLAY.get d = 1) : s.writeAu Reg.AU_CTRL d = s.replayRing := by
  have quiet : s.zeroizeCmd d = s := if_neg (by simp [zeroize])
  rw [State.writeAu, if_pos rfl]
  dsimp only
  rw [quiet, if_pos replay, if_neg (by simp [attest])]

theorem exec_replay (takes : s.takes m Reg.AU_CTRL) (w : Word) : exec (.replay m w) s = .next (s.wrote s.replayRing m) := by
  obtain ⟨replay, zeroize, attest⟩ := get_cmdWord_bits (a := Reg.AU_CTRL) (f := F.AU_CTRL_REPLAY) (g := F.AU_CTRL_ZEROIZE) (h := F.AU_CTRL_ATTEST)
    (by decide) (by decide) (by decide) w
  refine State.next_busWrite takes (by decide) (by decide) ?_
  change s.writeAu Reg.AU_CTRL (cmdWord Reg.AU_CTRL w _) = _
  exact State.writeAu_replay zeroize attest replay

end

/-- Settles O49: the ring takes records in order into acknowledged sectors, and the acknowledged SEQ never falls. -/
theorem auditRing : Obligations.AuditRing := by
  unfold Obligations.AuditRing
  refine ⟨?write, ?ackLo, fun s m w takes => exec_ringAckHi takes w, fun s out => ⟨_, State.next_act out rfl, s.audFlush_spec⟩,
    fun s m w takes => exec_replay takes w⟩
  case write =>
    intro s ok seq rec rest out next room n us free
    obtain ⟨taken, failed, held⟩ := State.ringWrite_spec ok next room
    have isFree : s.ringFree rec = true ↔ free := s.ringFree_iff rec
    exact ⟨_, State.next_act out rfl, fun acked => taken (isFree.2 acked), fun acked => failed (isFree.2 acked),
      fun full => held (Bool.eq_false_iff.2 fun acked => full (isFree.1 acked))⟩
  case ackLo =>
    intro s m w takes
    exact ⟨_, exec_ringAckLo takes w, Nat.le_max_left _ _, rfl⟩

end Sys2Proof.Machine
end

section
/-! PROOFS of O47: what a zeroize leaves, its command and the tamper inputs, and the attestation record. -/

namespace Sys2Proof.Machine

/-! ## Digests and TAGs rest on the lines, the bar's structure and the port waves alone -/

section
variable {s t : State} (si : t.si = s.si) (ut : t.ut = s.ut)
include si ut

theorem State.spanEnd_congr (k : Ticket) : t.spanEnd k = s.spanEnd k ∧ t.spanOf k = s.spanOf k := by
  have span : t.spanOf k = s.spanOf k := by
    unfold State.spanOf State.dMax State.validRows State.validPorts
    have delay : t.lineDelay = s.lineDelay := by
      funext h
      unfold State.lineDelay
      rw [si, ut]
    rw [delay, si]
  unfold State.spanEnd
  rw [span]
  exact ⟨rfl, rfl⟩

variable (lines : t.au.lines = s.au.lines)
include lines

theorem State.ticketTag_congr (ka : List Byte) (k : Ticket) : t.ticketTag ka k = s.ticketTag ka k := by
  obtain ⟨last, span⟩ := State.spanEnd_congr si ut k
  have record : t.lineRecord = s.lineRecord := by
    funext l
    unfold State.lineRecord State.bar
    rw [lines]
  unfold State.ticketTag State.instDigest
  rw [last, span, record]

theorem State.tagOf_congr (slots : t.au.slots = s.au.slots) (k : Ticket) : t.tagOf k = s.tagOf k := by
  have tag := fun ka => State.ticketTag_congr si ut lines ka k
  unfold State.tagOf State.slot
  rw [slots]
  simp only [tag]

theorem State.digestReady_congr (hp : t.hp = s.hp) (now : t.now = s.now) (k : Ticket) : t.digestReady k = s.digestReady k := by
  obtain ⟨last, -⟩ := State.spanEnd_congr si ut k
  unfold State.digestReady State.pulsesOver State.bar
  rw [last, lines, hp, now]

end

/-! ## Zeroize -/

/-- An open ticket as a zeroize leaves it (R394). -/
def State.tagged (s : State) (t : Ticket) : Ticket := match (if s.digestReady t then s.tagOf t else none) with
  | some g => { t with tag := some g }
  | none => { t with flags := t.flags ||| 2 ^ 18 }

/-- A ticket keeps its TAG only if it was computed by then. -/
theorem State.tagged_spec (s u : State) (t : Ticket) :
    (u.tagOf (s.tagged t) = none ∧ (s.tagged t).flags.testBit 18 = true) ∨
    (s.digestReady t = true ∧ (s.tagged t).tag = s.tagOf t ∧ u.tagOf (s.tagged t) = s.tagOf t) := by
  cases kept : (if s.digestReady t then s.tagOf t else none) with
  | none =>
    have flagged : (s.tagged t).flags.testBit 18 = true := by
      unfold State.tagged
      rw [kept]
      simp only [Nat.testBit_or, Nat.testBit_two_pow_self, Bool.or_true]
    exact .inl ⟨if_pos flagged, flagged⟩
  | some g =>
    have ready : s.digestReady t = true := by
      by_contra no
      rw [if_neg no] at kept
      cases kept
    rw [if_pos ready] at kept
    have unflagged : ¬t.flags.testBit 18 = true := by
      intro flagged
      rw [State.tagOf, if_pos flagged] at kept
      cases kept
    have held : s.tagged t = { t with tag := some g } := by
      unfold State.tagged
      rw [if_pos ready, kept]
    refine .inr ⟨ready, ?_, ?_⟩
    · rw [held, kept]
    · rw [held, kept]
      exact if_neg unflagged

/-- What a zeroize leaves (R394). -/
structure State.Zeroized (s u : State) : Prop where
  slots : u.au.slots = s.au.slots.filter fun e => decide (3 ≤ e.1) && decide (e.1 ≤ 6)
  eph : u.au.eph = none
  sealed' : u.au.sealed = []
  tile0 : u.js.job0.tileKey = none
  tile1 : u.js.job1.tileKey = none
  ring : u.inn.key = none
  zgen : u.au.zgen = min 64 (s.au.zgen + 1)
  chain : u.au.chain = s.au.chain
  seq : u.au.seq = s.au.seq
  tickets : u.au.tickets = s.au.tickets.map s.tagged

theorem State.Zeroized.of_same {s u v : State} (h : s.Zeroized u) (au : v.au = u.au) (js : v.js = u.js) (inn : v.inn = u.inn) :
    s.Zeroized v where
  slots := (congrArg AuState.slots au).trans h.slots
  eph := (congrArg AuState.eph au).trans h.eph
  sealed' := (congrArg AuState.sealed au).trans h.sealed'
  tile0 := (congrArg (·.job0.tileKey) js).trans h.tile0
  tile1 := (congrArg (·.job1.tileKey) js).trans h.tile1
  ring := (congrArg (·.key) inn).trans h.ring
  zgen := (congrArg AuState.zgen au).trans h.zgen
  chain := (congrArg AuState.chain au).trans h.chain
  seq := (congrArg AuState.seq au).trans h.seq
  tickets := (congrArg AuState.tickets au).trans h.tickets

/-- Slots, fuses and records cleared. -/
def State.secretsCleared (s : State) : State :=
  { s.tagTickets with au := { s.tagTickets.au with
    slots := s.tagTickets.au.slots.filter fun e => decide (3 ≤ e.1) && decide (e.1 ≤ 6), eph := none,
    zgen := min 64 (s.tagTickets.au.zgen + 1), closing := none,
    batch := (match s.tagTickets.au.closing with | some c => c.cairns | none => []) ++ s.tagTickets.au.batch,
    batchFirst := s.tagTickets.au.batchFirst - (match s.tagTickets.au.closing with | some c => c.cairns | none => []).length } }

/-- The region keys erased and the zeroize counted. -/
def State.zeroCounted (s : State) : State :=
  ((s.keySave.eraseTiles.inKeyErase).bump Reg.AU_TAMPER_CNT F.AU_TAMPER_CNT_COUNT).flag Reg.AU_STAT F.AU_STAT_ZEROIZED

/-- The last generation blown is told of. -/
def State.exhausted (s : State) : State :=
  ((s.flag Reg.AU_STAT F.AU_STAT_KEYSTORE_EXH).raise Ev.KEYSTORE_EXHAUSTED).csrSet F.FL_CSR_KEYSTORE

theorem State.zeroize_eq (s : State) : s.zeroize =
    if decide (s.tagTickets.au.zgen < 64 ∧ min 64 (s.tagTickets.au.zgen + 1) = 64) = true then s.secretsCleared.zeroCounted.exhausted
    else s.secretsCleared.zeroCounted := rfl

theorem State.exhausted_same (s : State) : s.exhausted.au = s.au ∧ s.exhausted.js = s.js ∧ s.exhausted.inn = s.inn := by
  have told := (s.flag Reg.AU_STAT F.AU_STAT_KEYSTORE_EXH).raise_keeps Ev.KEYSTORE_EXHAUSTED 0
  have kept := ((s.flag Reg.AU_STAT F.AU_STAT_KEYSTORE_EXH).raise Ev.KEYSTORE_EXHAUSTED).csrSet_keeps F.FL_CSR_KEYSTORE
  exact ⟨kept.au.trans (told.au.trans (State.flag_au _ _ _)), kept.js.trans (told.js.trans (State.flag_js _ _ _)),
    kept.inn.trans (told.inn.trans (State.flag_inn _ _ _))⟩

theorem State.keysErased_now (s : State) : s.eraseTiles.inKeyErase.now = s.now := rfl

theorem State.zeroCounted_same (s : State) : s.zeroCounted.au = { s.au with store := (s.au.slots, s.au.zgen), sealed := [] } ∧
    s.zeroCounted.js = { s.js with job0 := { s.js.job0 with tileKey := none }, job1 := { s.js.job1 with tileKey := none } } ∧
    s.zeroCounted.inn = { s.inn with key := none } ∧ s.zeroCounted.now = s.now := by
  unfold State.zeroCounted
  rw [State.flag_au, State.flag_js, State.flag_inn, State.flag_now, State.bump_au, State.bump_js, State.bump_inn, State.bump_now,
    State.keysErased_now, s.keySave_eq]
  exact ⟨rfl, rfl, rfl, rfl⟩

theorem State.zeroCounted_zeroized (s : State) : s.Zeroized s.secretsCleared.zeroCounted := by
  obtain ⟨au, js, inn, -⟩ := s.secretsCleared.zeroCounted_same
  exact ⟨congrArg AuState.slots au, congrArg AuState.eph au, congrArg AuState.sealed au, congrArg (·.job0.tileKey) js,
    congrArg (·.job1.tileKey) js, congrArg (·.key) inn, congrArg AuState.zgen au, (congrArg AuState.chain au).trans rfl,
    (congrArg AuState.seq au).trans rfl, congrArg AuState.tickets au⟩

theorem State.zeroize_zeroized (s : State) : s.Zeroized s.zeroize := by
  rw [State.zeroize_eq]
  split
  · obtain ⟨au, js, inn⟩ := s.secretsCleared.zeroCounted.exhausted_same
    exact s.zeroCounted_zeroized.of_same au js inn
  · exact s.zeroCounted_zeroized

/-- A state that differs in the tamper inputs and registers alone is zeroized alike. -/
theorem State.Zeroized.of_start {s t u : State} (au : t.au = { s.au with tampLevel := t.au.tampLevel, tampAt := t.au.tampAt })
    (si : t.si = s.si) (ut : t.ut = s.ut) (hp : t.hp = s.hp) (now : t.now = s.now) (h : t.Zeroized u) : s.Zeroized u where
  slots := h.slots.trans (by rw [au])
  eph := h.eph
  sealed' := h.sealed'
  tile0 := h.tile0
  tile1 := h.tile1
  ring := h.ring
  zgen := h.zgen.trans (by rw [au])
  chain := h.chain.trans (by rw [au])
  seq := h.seq.trans (by rw [au])
  tickets := by
    have lines : t.au.lines = s.au.lines := by rw [au]
    have tagged : t.tagged = s.tagged := by
      funext k
      unfold State.tagged
      rw [State.digestReady_congr si ut lines hp now, State.tagOf_congr si ut lines (by rw [au])]
    rw [h.tickets, tagged, au]

section
variable {s u : State} (h : s.Zeroized u)
include h

theorem State.Zeroized.slot_secret (k : Nat) (secret : k = 0 ∨ k = 1 ∨ k = 2 ∨ k = 7) : u.slot k = none := by
  unfold State.slot
  rw [h.slots, AMap.find?_filter fun k => decide (3 ≤ k) && decide (k ≤ 6), if_neg]
  rcases secret with rfl | rfl | rfl | rfl <;> decide

theorem State.Zeroized.slot_public (k : Nat) (low : 3 ≤ k) (high : k ≤ 6) : u.slot k = s.slot k := by
  unfold State.slot
  rw [h.slots, AMap.find?_filter fun k => decide (3 ≤ k) && decide (k ≤ 6), if_pos (by simp [low, high])]

theorem State.Zeroized.tags (t : Ticket) (listed : t ∈ u.au.tickets) : (u.tagOf t = none ∧ t.flags.testBit 18 = true) ∨
    ∃ t0 ∈ s.au.tickets, s.digestReady t0 = true ∧ t.tag = s.tagOf t0 ∧ u.tagOf t = s.tagOf t0 := by
  rw [h.tickets] at listed
  obtain ⟨t0, first, rfl⟩ := List.mem_map.1 listed
  exact (s.tagged_spec u t0).imp id fun kept => ⟨t0, first, kept⟩

theorem State.Zeroized.length_tickets : u.au.tickets.length = s.au.tickets.length := by
  rw [h.tickets, List.length_map]

end

/-! ## The command and the tamper inputs -/

theorem get_auZeroize (w : Word) : let d := cmdWord Reg.AU_CTRL w [(F.AU_CTRL_CONFIRM, 0xA5), (F.AU_CTRL_ZEROIZE, 1), (F.AU_CTRL_ATTEST, 0), (F.AU_CTRL_REPLAY, 0)]
    F.AU_CTRL_CONFIRM.get d = 0xA5 ∧ F.AU_CTRL_ZEROIZE.get d = 1 ∧ F.AU_CTRL_ATTEST.get d = 0 ∧ F.AU_CTRL_REPLAY.get d = 0 := by
  have apart (f g : BitField) (order : f.lo ≤ f.hi) (top : f.hi < 32) (d : f.hi < g.lo ∨ g.hi < f.lo) (v : Word) (x : Nat) :
      g.get (f.put v x) = g.get v := f.get_put_ne g v x order top d
  intro d
  refine ⟨(get_regMask (by decide) _).trans ?_, (get_regMask (by decide) _).trans ?_, (get_regMask (by decide) _).trans ?_,
    (get_regMask (by decide) _).trans ?_⟩
  · exact (apart F.AU_CTRL_REPLAY _ (by decide) (by decide) (by decide) _ _).trans
      ((apart F.AU_CTRL_ATTEST _ (by decide) (by decide) (by decide) _ _).trans
        ((apart F.AU_CTRL_ZEROIZE _ (by decide) (by decide) (by decide) _ _).trans (F.AU_CTRL_CONFIRM.get_put _ _ (by decide) (by decide))))
  · exact (apart F.AU_CTRL_REPLAY _ (by decide) (by decide) (by decide) _ _).trans
      ((apart F.AU_CTRL_ATTEST _ (by decide) (by decide) (by decide) _ _).trans (F.AU_CTRL_ZEROIZE.get_put _ _ (by decide) (by decide)))
  · exact (apart F.AU_CTRL_REPLAY _ (by decide) (by decide) (by decide) _ _).trans
      (F.AU_CTRL_ATTEST.get_put _ _ (by decide) (by decide))
  · exact F.AU_CTRL_REPLAY.get_put _ _ (by decide) (by decide)

theorem State.writeAu_zeroize {s : State} {d : Word} (confirm : F.AU_CTRL_CONFIRM.get d = 0xA5) (zeroize : F.AU_CTRL_ZEROIZE.get d = 1)
    (attest : F.AU_CTRL_ATTEST.get d = 0) (replay : F.AU_CTRL_REPLAY.get d = 0) :
    s.writeAu Reg.AU_CTRL d = s.zeroize.raise Ev.KEY_ZEROIZED := by
  have told : s.zeroizeCmd d = s.zeroize.raise Ev.KEY_ZEROIZED := if_pos (by simp [zeroize, confirm])
  rw [State.writeAu, if_pos rfl]
  dsimp only
  rw [told, attest, replay, if_neg (by decide), if_neg (by decide)]

theorem exec_zeroize {s : State} {m : Master} (takes : s.takes m Reg.AU_CTRL) (w : Word) :
    exec (.zeroize m w) s = .next (s.wrote (s.zeroize.raise Ev.KEY_ZEROIZED) m) := by
  obtain ⟨confirm, zeroize, attest, replay⟩ := get_auZeroize w
  refine State.next_busWrite takes (by decide) (by decide) ?_
  change s.writeAu Reg.AU_CTRL (cmdWord Reg.AU_CTRL w _) = _
  exact State.writeAu_zeroize confirm zeroize attest replay

theorem State.zeroize_told (s : State) : s.Zeroized (s.zeroize.raise Ev.KEY_ZEROIZED) := by
  have kept := s.zeroize.raise_keeps Ev.KEY_ZEROIZED 0
  exact s.zeroize_zeroized.of_same kept.au kept.js kept.inn

/-- The tamper inputs as an input found at its level leaves them. -/
def State.tampered (s : State) (i : Nat) : State :=
  { s with au := { s.au with tampLevel := s.tampNow ||| 2 ^ i, tampAt := some s.now } }

/-- HIT of an enabled input. -/
def State.tampHit (s : State) (i : Nat) : State := s.setBit Reg.AU_TAMPER_STAT F.AU_TAMPER_STAT_HIT i

/-- AU_STAT.TAMPER and its event. -/
def State.tampTold (s : State) : State := (s.flag Reg.AU_STAT F.AU_STAT_TAMPER).raise Ev.TAMPER

theorem State.tamper_eq (s : State) (i : Nat) : s.tamper i =
    if (s.fld Reg.AU_TAMPER_CFG F.AU_TAMPER_CFG_EN).testBit i = true then ((s.tampered i).tampHit i).zeroize.tampTold else s.tampered i := rfl

theorem State.tampTold_same (s : State) : s.tampTold.au = s.au ∧ s.tampTold.js = s.js ∧ s.tampTold.inn = s.inn ∧ s.tampTold.now = s.now ∧
    s.tampTold.isSet Reg.AU_STAT F.AU_STAT_TAMPER = true := by
  have kept := (s.flag Reg.AU_STAT F.AU_STAT_TAMPER).raise_keeps Ev.TAMPER 0
  refine ⟨kept.au.trans (State.flag_au _ _ _), kept.js.trans (State.flag_js _ _ _), kept.inn.trans (State.flag_inn _ _ _),
    kept.now.trans (State.flag_now _ _ _), ?_⟩
  have flagged := s.isSet_flag Reg.AU_STAT F.AU_STAT_TAMPER (by decide) (by decide)
  exact (State.isSet_of_rd (kept.rd _ (by decide) (by decide) (by decide)) _).trans flagged

theorem State.tampered_now (s : State) (i : Nat) : (s.tampered i).tampNow = s.tampNow ||| 2 ^ i := if_pos rfl

theorem State.tampNow_of {s t : State} (level : t.au.tampLevel = s.au.tampLevel) (at' : t.au.tampAt = s.au.tampAt) (now : t.now = s.now) :
    t.tampNow = s.tampNow := by
  unfold State.tampNow
  rw [level, at', now]

theorem State.tampHit_same (s : State) (i : Nat) : (s.tampHit i).au = s.au ∧ (s.tampHit i).si = s.si ∧ (s.tampHit i).ut = s.ut ∧
    (s.tampHit i).hp = s.hp ∧ (s.tampHit i).now = s.now :=
  ⟨State.setBit_au _ _ _ _, State.setBit_si _ _ _ _, State.setBit_ut _ _ _ _, State.setBit_hp _ _ _ _, State.setBit_now _ _ _ _⟩

theorem State.tampHit_zeroized {s u : State} {i : Nat} (h : ((s.tampered i).tampHit i).Zeroized u) : s.Zeroized u := by
  obtain ⟨au, si, ut, hp, now⟩ := (s.tampered i).tampHit_same i
  exact h.of_start (by rw [au]; rfl) si ut hp now

theorem State.secretsCleared_tamp (s : State) : s.secretsCleared.au.tampLevel = s.au.tampLevel ∧ s.secretsCleared.au.tampAt = s.au.tampAt ∧
    s.secretsCleared.now = s.now :=
  ⟨rfl, rfl, rfl⟩

/-- A zeroize leaves the tamper inputs and the time. -/
theorem State.zeroize_tamp (s : State) : s.zeroize.au.tampLevel = s.au.tampLevel ∧ s.zeroize.au.tampAt = s.au.tampAt ∧
    s.zeroize.now = s.now := by
  obtain ⟨au, -, -, now⟩ := s.secretsCleared.zeroCounted_same
  obtain ⟨level, at', time⟩ := s.secretsCleared_tamp
  have counted : s.secretsCleared.zeroCounted.now = s.now := now.trans time
  have inputs : s.secretsCleared.zeroCounted.au.tampLevel = s.au.tampLevel ∧ s.secretsCleared.zeroCounted.au.tampAt = s.au.tampAt := by
    rw [au]
    exact ⟨level, at'⟩
  rw [State.zeroize_eq]
  split
  · have told := (s.secretsCleared.zeroCounted.flag Reg.AU_STAT F.AU_STAT_KEYSTORE_EXH).raise_keeps Ev.KEYSTORE_EXHAUSTED 0
    have now : s.secretsCleared.zeroCounted.exhausted.now = s.now :=
      (State.csrSet_keeps _ _).now.trans (told.now.trans ((State.flag_now _ _ _).trans counted))
    rw [s.secretsCleared.zeroCounted.exhausted_same.1]
    exact ⟨inputs.1, inputs.2, now⟩
  · exact ⟨inputs.1, inputs.2, counted⟩

theorem State.tamper_level (s : State) (i : Nat) : (s.tamper i).tampNow = s.tampNow ||| 2 ^ i := by
  rw [State.tamper_eq]
  split
  · obtain ⟨level, at', now⟩ := ((s.tampered i).tampHit i).zeroize_tamp
    obtain ⟨au, -, -, now', -⟩ := ((s.tampered i).tampHit i).zeroize.tampTold_same
    obtain ⟨hit, -, -, -, sameTime⟩ := (s.tampered i).tampHit_same i
    refine (State.tampNow_of (s := s.tampered i) ?_ ?_ ?_).trans (s.tampered_now i)
    · rw [au, level, hit]
    · rw [au, at', hit]
    · rw [now', now, sameTime]
  · exact s.tampered_now i

/-- An enabled tamper input zeroizes; another leaves the slots. -/
theorem State.tamper_spec (s : State) (i : Nat) :
    ((s.fld Reg.AU_TAMPER_CFG F.AU_TAMPER_CFG_EN).testBit i = true → s.Zeroized (s.tamper i) ∧
      (s.tamper i).isSet Reg.AU_STAT F.AU_STAT_TAMPER = true) ∧
    ((s.fld Reg.AU_TAMPER_CFG F.AU_TAMPER_CFG_EN).testBit i = false → (s.tamper i).au.slots = s.au.slots) := by
  refine ⟨fun enabled => ?_, fun disabled => ?_⟩
  · obtain ⟨au, js, inn, -, told⟩ := ((s.tampered i).tampHit i).zeroize.tampTold_same
    rw [State.tamper_eq, if_pos enabled]
    exact ⟨State.tampHit_zeroized ((State.zeroize_zeroized _).of_same au js inn), told⟩
  · rw [State.tamper_eq, if_neg (by simp [disabled])]
    rfl

/-! ## Attestation -/

/-- What AU reads is as long as asked for, and a read changes nothing. -/
theorem State.readAs_some {s t : State} {a n : Nat} {bs : List Byte} (read : s.readAs 6 a n = (some bs, t)) : bs.length = n ∧ t = s := by
  have cipher (cs : List Byte) : s.fabricCipher 6 a cs = cs := by
    unfold State.fabricCipher
    dsimp only
    split <;> rfl
  cases check : s.fabricCheck 0 6 a n false with
  | some e =>
    rw [State.readAs_refused check] at read
    cases read
  | none =>
    rw [State.readAs_granted check, cipher] at read
    obtain ⟨same, still⟩ := Prod.mk.inj read
    refine ⟨?_, still.symm⟩
    rw [← Option.some.inj same]
    unfold State.dramRead Mem.bytes
    rw [List.length_map, List.length_range]

/-- The record ATTEST signs (R396), with the SEQ of the last cairn. -/
def State.attRecord (s : State) (q : Nat) (nonce : List Byte) : List Byte :=
  leBytes 4 0x5441594A ++ leBytes 2 1 ++ leBytes 1 s.mode.code ++ [0] ++ chipIdBytes ++ nonce ++ s.bu.fwMeas ++ s.bu.m ++
    leBytes 8 q ++ leBytes 8 s.au.sumSeq ++ s.stamp.bytes ++
    leBytes 2 (s.fld Reg.BU_SI_PARTIALS F.BU_SI_PARTIALS_COUNT) ++ List.replicate 18 0

/-- The reads, draws and writes of ATTEST are named by variables: the kernel would compute them to tell two matches apart. -/
theorem State.attest_signs {s s1 : State} {priv nonce : List Byte} (signs : s.slot 2 = some priv)
    (read : s.readAs 6 (s.rdN Reg.AU_ATT_ADDR * 64) 32 = (some nonce, s1)) : s.attest =
    (s1.lastSeq.2.writeAs 6 (s.rdN Reg.AU_ATT_ADDR * 64) (s1.lastSeq.2.attRecord s1.lastSeq.1 nonce ++
      P384.sign priv (sha384 (s1.lastSeq.2.attRecord s1.lastSeq.1 nonce)))).2 := by
  unfold State.attest State.attRecord
  obtain ⟨reads, asReads⟩ : ∃ f, State.readAs = f := ⟨_, rfl⟩
  obtain ⟨writes, asWrites⟩ : ∃ f, State.writeAs = f := ⟨_, rfl⟩
  obtain ⟨last, asLast⟩ : ∃ f, State.lastSeq = f := ⟨_, rfl⟩
  rw [asReads] at read
  rw [asReads, asWrites, asLast, signs]
  dsimp only
  rw [read]

/-- An attestation record up to its nonce. -/
def State.attHead (s : State) : List Byte := leBytes 4 0x5441594A ++ (leBytes 2 1 ++ (leBytes 1 s.mode.code ++ ([0] ++ chipIdBytes)))

/-- An attestation record behind the SEQ of the last cairn. -/
def State.attTail (s : State) : List Byte := leBytes 8 s.au.sumSeq ++ (s.stamp.bytes ++
  (leBytes 2 (s.fld Reg.BU_SI_PARTIALS F.BU_SI_PARTIALS_COUNT) ++ List.replicate 18 0))

theorem State.attRecord_parts (s : State) (q : Nat) (nonce : List Byte) :
    s.attRecord q nonce = s.attHead ++ (nonce ++ (s.bu.fwMeas ++ (s.bu.m ++ (leBytes 8 q ++ s.attTail)))) := by
  simp only [State.attRecord, State.attHead, State.attTail, List.append_assoc]

theorem State.length_attHead (s : State) : s.attHead.length = 16 := by
  simp only [State.attHead, chipIdBytes, List.length_append, length_leBytes, List.length_cons, List.length_nil]

theorem State.length_attTail (s : State) : s.attTail.length = 40 := by
  simp only [State.attTail, Stamp.bytes, List.length_append, length_leBytes, List.length_replicate]

/-- The fields of an attestation record (R396). -/
theorem State.attRecord_spec (s : State) (q : Nat) {nonce : List Byte} (length : nonce.length = 32) (fw : s.bu.fwMeas.length = 48)
    (m : s.bu.m.length = 48) : (s.attRecord q nonce).length = 0xC0 ∧ leAt (s.attRecord q nonce) 0 4 = 0x5441594A ∧
    leAt (s.attRecord q nonce) 6 1 = s.mode.code ∧ slice (s.attRecord q nonce) 0x10 32 = nonce ∧
    slice (s.attRecord q nonce) 0x30 48 = s.bu.fwMeas ∧ slice (s.attRecord q nonce) 0x60 48 = s.bu.m ∧
    leAt (s.attRecord q nonce) 0x90 8 = q % 2 ^ 64 := by
  have head := s.length_attHead
  have mode : s.mode.code < 256 ^ 1 := by cases s.mode <;> decide
  have inHead (i n : Nat) (ys : List Byte) (inside : i + n ≤ 16) : leAt (s.attHead ++ ys) i n = leAt s.attHead i n := by
    unfold leAt
    rw [slice_append_left (by rwa [head])]
  rw [s.attRecord_parts]
  refine ⟨?_, ?_, ?_, slice_append_part head length, ?_, ?_, ?_⟩
  · simp only [List.length_append, head, length, fw, m, length_leBytes, s.length_attTail]
  · rw [inHead _ _ _ (by decide)]
    exact leAt_here 4 _ _
  · rw [inHead _ _ _ (by decide), State.attHead, leAt_skip _ _ (by decide), leAt_skip _ _ (by decide), leAt_here]
    exact Nat.mod_eq_of_lt mode
  · rw [slice_skip _ (head.le.trans (by decide)), head]
    exact slice_append_part length fw
  · rw [slice_skip _ (head.le.trans (by decide)), head, slice_skip _ (length.le.trans (by decide)), length]
    exact slice_append_part fw m
  · unfold leAt
    rw [slice_skip _ (head.le.trans (by decide)), head, slice_skip _ (length.le.trans (by decide)), length, slice_skip _ (fw.le.trans (by decide)), fw,
      slice_skip _ (m.le.trans (by decide)), m]
    exact leAt_here 8 q _

theorem State.lastSeq_eq (s : State) : s.lastSeq.2 = { s with free := s.lastSeq.2.free } := by
  unfold State.lastSeq State.drawFree
  split <;> rfl

theorem State.lastSeq_issued {s : State} (issued : s.au.seq ≠ 0) : s.lastSeq = (s.au.seq - 1, s) := if_neg issued

/-- ATTEST with a nonce that can be read (R396). -/
theorem State.attest_spec {s s1 : State} {priv nonce : List Byte} (signs : s.slot 2 = some priv)
    (read : s.readAs 6 (s.rdN Reg.AU_ATT_ADDR * 64) 32 = (some nonce, s1)) (fw : s.bu.fwMeas.length = 48) (m : s.bu.m.length = 48) :
    ∃ b, s.attest = (s1.lastSeq.2.writeAs 6 (s.rdN Reg.AU_ATT_ADDR * 64) (b ++ P384.sign priv (sha384 b))).2 ∧ b.length = 0xC0 ∧
      leAt b 0 4 = 0x5441594A ∧ leAt b 6 1 = s1.mode.code ∧ slice b 0x10 32 = nonce ∧ slice b 0x30 48 = s1.bu.fwMeas ∧
      slice b 0x60 48 = s1.bu.m ∧
      (s1.au.seq ≠ 0 → s1.au.seq ≤ 2 ^ 64 → s1.lastSeq = (s1.au.seq - 1, s1) ∧ leAt b 0x90 8 = s1.au.seq - 1) := by
  obtain ⟨length, still⟩ := State.readAs_some read
  have bu : s1.lastSeq.2.bu = s1.bu := by rw [s1.lastSeq_eq]
  have mode : s1.lastSeq.2.mode = s1.mode := by rw [s1.lastSeq_eq]; rfl
  have record := s1.lastSeq.2.attRecord_spec s1.lastSeq.1 length (by rw [bu, still, fw]) (by rw [bu, still, m])
  rw [bu, mode] at record
  obtain ⟨total, magic, code, nonce', fw', m', seq⟩ := record
  refine ⟨_, State.attest_signs signs read, total, magic, code, nonce', fw', m', fun issued top => ⟨State.lastSeq_issued issued, ?_⟩⟩
  rw [seq, State.lastSeq_issued issued]
  exact Nat.mod_eq_of_lt (by omega)

theorem State.attest_empty {s : State} (empty : s.slot 2 = none) : s.attest = s := by
  unfold State.attest
  rw [empty]

theorem State.writeAu_attest {s : State} {d : Word} (zeroize : F.AU_CTRL_ZEROIZE.get d = 0) (attest : F.AU_CTRL_ATTEST.get d = 1)
    (replay : F.AU_CTRL_REPLAY.get d = 0) : s.writeAu Reg.AU_CTRL d = s.attest := by
  have quiet : s.zeroizeCmd d = s := if_neg (by simp [zeroize])
  rw [State.writeAu, if_pos rfl]
  dsimp only
  rw [quiet, replay, attest, if_neg (by decide), if_pos rfl]

theorem exec_attest {s : State} {m : Master} (takes : s.takes m Reg.AU_CTRL) (w : Word) :
    exec (.attest m w) s = .next (s.wrote s.attest m) := by
  obtain ⟨attest, zeroize, replay⟩ := get_cmdWord_bits (a := Reg.AU_CTRL) (f := F.AU_CTRL_ATTEST) (g := F.AU_CTRL_ZEROIZE) (h := F.AU_CTRL_REPLAY)
    (by decide) (by decide) (by decide) w
  refine State.next_busWrite takes (by decide) (by decide) ?_
  change s.writeAu Reg.AU_CTRL (cmdWord Reg.AU_CTRL w _) = _
  exact State.writeAu_attest zeroize attest replay

/-- An event on a pin while reset is held. -/
theorem State.actPin_inReset {s : State} (f : State → State) (held : s.sys.inReset = true) : s.actPin f = { (f s).serveAll with
    pending := s.pending,
    sys := { (f s).serveAll.sys with holdDue := false, zeroDue := false, safeDue := false, pendingReset := none } } := if_pos held

/-- Settles O47: a zeroize by command or by a tamper input, and the attestation record. -/
theorem zeroizeAndAttest : Obligations.ZeroizeAndAttest := by
  unfold Obligations.ZeroizeAndAttest
  refine ⟨?zeroize, ?attest⟩
  case zeroize =>
    intro clean
    have cleaned {s u : State} (h : s.Zeroized u) : clean s u :=
      ⟨h.slot_secret, h.slot_public, h.eph, h.sealed', h.tile0, h.tile1, h.ring, h.zgen, h.chain, h.seq, h.length_tickets, h.tags⟩
    refine ⟨fun s m w takes => ⟨_, exec_zeroize takes w, cleaned s.zeroize_told⟩, fun s i out => ?_, fun s i held enabled => ?_⟩
    · obtain ⟨hit, other⟩ := s.tamper_spec i.val
      exact ⟨_, congrArg Host.Outcome.next (s.actPin_eq_after _ out), s.tamper_level i.val,
        fun enabled => ⟨cleaned (hit enabled).1, (hit enabled).2⟩, other⟩
    · exact ⟨_, congrArg Host.Outcome.next (State.actPin_inReset _ held), cleaned ((s.tamper_spec i.val).1 enabled).1⟩
  case attest =>
    intro s m w takes a
    exact ⟨_, exec_attest takes w, State.attest_empty, fun priv nonce s1 signs read fw m => State.attest_spec signs read fw m⟩

end Sys2Proof.Machine
end

section
/-! PROOFS of O50: the records a witness receives and what a primary makes of its answers. -/

namespace Sys2Proof.Machine

/-! ## A mismatch -/

/-- The tickets a mismatch flags, and AU_WIT_MISMATCH. -/
def State.mismatchNoted (s : State) (l : Nat) : State :=
  ({ s with au := { s.au with wit := { s.au.wit with mismatch := some l } } }.wrN Reg.AU_WIT_MISMATCH (l % 2 ^ 32))

/-- The tickets whose span meets a mismatch. -/
def State.mismatchFlagged (s : State) (l : Nat) : State :=
  s.flagTickets (fun t => let sp := s.spanOf t; decide (sp.1 ≤ s.wp.hwm) && decide (l ≤ sp.2)) 11

theorem State.witMismatch_eq (s : State) (l : Nat) : s.witMismatch l =
    (((s.mismatchNoted l).mismatchFlagged l).flag Reg.AU_STAT F.AU_STAT_WIT_MISMATCH).raise Ev.WITNESS_MISMATCH := rfl

theorem State.mismatchFlagged_wit (s : State) (l : Nat) : (s.mismatchFlagged l).au.wit = s.au.wit := rfl

theorem State.mismatchNoted_wit (s : State) (l : Nat) : (s.mismatchNoted l).au.wit = { s.au.wit with mismatch := some l } := rfl

/-- A mismatch is kept as the latest, and told of. -/
theorem State.witMismatch_spec (s : State) (l : Nat) : (s.witMismatch l).au.wit = { s.au.wit with mismatch := some l } ∧
    (s.witMismatch l).isSet Reg.AU_STAT F.AU_STAT_WIT_MISMATCH = true := by
  have kept := (((s.mismatchNoted l).mismatchFlagged l).flag Reg.AU_STAT F.AU_STAT_WIT_MISMATCH).raise_keeps Ev.WITNESS_MISMATCH 0
  have flagged := ((s.mismatchNoted l).mismatchFlagged l).isSet_flag Reg.AU_STAT F.AU_STAT_WIT_MISMATCH (by decide) (by decide)
  rw [State.witMismatch_eq]
  refine ⟨?_, (State.isSet_of_rd (kept.rd _ (by decide) (by decide) (by decide)) _).trans flagged⟩
  rw [kept.au, State.flag_au, State.mismatchFlagged_wit, State.mismatchNoted_wit]

theorem State.sendStatus_posted (s : State) : s.Posted s.sendStatus := s.sendWit_posted _

/-! ## A LINE -/

/-- A LINE record kept until its tag is compared. -/
def State.lineReceived (s : State) (b : List Byte) : State :=
  { s with au := { s.au with wit := { s.au.wit with recv := s.au.wit.recv ++ [⟨leAt b 4 4, beNat (slice b 8 16), s.now⟩] } } }

/-- A line compared: its LINE record is done with. -/
def State.lineCompared (s : State) (r : WitLine) (l ct : Nat) : State :=
  { s with au := { s.au with wit := { s.au.wit with
    recv := s.au.wit.recv.erase r, done := s.au.wit.done ++ [(l, decide (r.ct = ct))], compared := max s.au.wit.compared l } } }

theorem State.witLine_witness {s : State} (b : List Byte) (witness : s.witRole = 2) : s.witLine b = (s.lineReceived b).witCompare (leAt b 4 4) :=
  if_neg (not_not_intro witness)

theorem State.witCompare_compares {s : State} {l ct : Nat} {r : WitLine} (received : (s.au.wit.recv.find? fun r => r.line = l) = some r)
    (own : (s.bar l).ct = some ct) (inked : s.au.wit.blanks.contains l = false) : s.witCompare l =
    if r.ct = ct then (s.lineCompared r l ct).wrN Reg.AU_WIT_LINE ((s.lineCompared r l ct).au.wit.compared % 2 ^ 32)
    else (((s.lineCompared r l ct).wrN Reg.AU_WIT_LINE ((s.lineCompared r l ct).au.wit.compared % 2 ^ 32)).witMismatch l).sendStatus := by
  unfold State.witCompare
  rw [received, own]
  exact if_neg (by simpa using inked)

/-- What a comparison leaves: the line is done, and a difference is a mismatch. -/
theorem State.witCompare_spec {s : State} {l ct : Nat} {r : WitLine} (received : (s.au.wit.recv.find? fun r => r.line = l) = some r)
    (own : (s.bar l).ct = some ct) (inked : s.au.wit.blanks.contains l = false) :
    (s.witCompare l).au.wit.compared = max s.au.wit.compared l ∧ (s.witCompare l).au.wit.recv = s.au.wit.recv.erase r ∧
    (s.witCompare l).au.wit.done = s.au.wit.done ++ [(l, decide (r.ct = ct))] ∧
    (r.ct = ct → (s.witCompare l).au.wit.mismatch = s.au.wit.mismatch ∧ (s.witCompare l).au.tickets = s.au.tickets) ∧
    (r.ct ≠ ct → (s.witCompare l).au.wit.mismatch = some l ∧ (s.witCompare l).isSet Reg.AU_STAT F.AU_STAT_WIT_MISMATCH = true) := by
  rw [State.witCompare_compares received own inked]
  split
  next same => exact ⟨rfl, rfl, rfl, fun _ => ⟨rfl, rfl⟩, fun other => absurd same other⟩
  next other =>
    obtain ⟨wit, flagged⟩ := ((s.lineCompared r l ct).wrN Reg.AU_WIT_LINE ((s.lineCompared r l ct).au.wit.compared % 2 ^ 32)).witMismatch_spec l
    have sent := (((s.lineCompared r l ct).wrN Reg.AU_WIT_LINE ((s.lineCompared r l ct).au.wit.compared % 2 ^ 32)).witMismatch l).sendStatus_posted
    rw [sent.au, wit]
    exact ⟨rfl, rfl, rfl, fun same => absurd same other, fun _ => ⟨rfl,
      (State.isSet_of_rd (sent.rd _ (by decide) (by decide) (by decide) (by decide)) _).trans flagged⟩⟩

/-- The record just kept is the first of its line, and the one taken again. -/
theorem find?_append_new {recv : List WitLine} (r : WitLine) (first : ∀ x ∈ recv, x.line ≠ r.line) :
    (recv ++ [r]).find? (fun x => x.line = r.line) = some r ∧ (recv ++ [r]).erase r = recv := by
  have absent : r ∉ recv := fun listed => first r listed rfl
  have none' : recv.find? (fun x => x.line = r.line) = none := List.find?_eq_none.2 fun x listed => by simpa using first x listed
  refine ⟨by simp [List.find?_append, none'], ?_⟩
  rw [List.erase_append_right _ absent, List.erase_cons_head, List.append_nil]

theorem State.witLine_spec {s : State} {b : List Byte} {ct : Nat} (witness : s.witRole = 2) (own : (s.bar (leAt b 4 4)).ct = some ct)
    (inked : s.au.wit.blanks.contains (leAt b 4 4) = false) (first : ∀ r ∈ s.au.wit.recv, r.line ≠ leAt b 4 4) :
    (s.witLine b).au.wit.compared = max s.au.wit.compared (leAt b 4 4) ∧ (s.witLine b).au.wit.recv = s.au.wit.recv ∧
    (s.witLine b).au.wit.done = s.au.wit.done ++ [(leAt b 4 4, decide (beNat (slice b 8 16) = ct))] ∧
    (beNat (slice b 8 16) = ct → (s.witLine b).au.wit.mismatch = s.au.wit.mismatch ∧ (s.witLine b).au.tickets = s.au.tickets) ∧
    (beNat (slice b 8 16) ≠ ct → (s.witLine b).au.wit.mismatch = some (leAt b 4 4) ∧
      (s.witLine b).isSet Reg.AU_STAT F.AU_STAT_WIT_MISMATCH = true) := by
  obtain ⟨found, taken⟩ := find?_append_new ⟨leAt b 4 4, beNat (slice b 8 16), s.now⟩ first
  obtain ⟨compared, recv, done, same, other⟩ := State.witCompare_spec (s := s.lineReceived b) found own inked
  rw [State.witLine_witness b witness]
  exact ⟨compared, recv.trans taken, done, same, other⟩

/-! ## COSIGN_REQ -/

/-- What lets a witness sign a summit (R398). -/
def State.mayCosign (s : State) (r : List Byte) : Prop :=
  (leAt r 0x38 4 ≠ 0 → ∀ l, leAt r 0x34 4 ≤ l → l ≤ leAt r 0x38 4 →
    ((l, true) ∈ s.au.wit.done ∧ (l, false) ∉ s.au.wit.done) ∨ l ∈ s.au.wit.blanks) ∧ slice r 0xD0 48 = s.bu.m

theorem State.witHas_iff (s : State) (lo hi : Nat) : s.witHas lo hi = true ↔
    (hi ≠ 0 → ∀ l, lo ≤ l → l ≤ hi → ((l, true) ∈ s.au.wit.done ∧ (l, false) ∉ s.au.wit.done) ∨ l ∈ s.au.wit.blanks) := by
  simp only [State.witHas, Bool.or_eq_true, decide_eq_true_eq, List.all_eq_true, List.mem_range, Bool.and_eq_true, Bool.not_eq_true',
    List.contains_iff_mem, Bool.eq_false_iff, ne_eq, imp_iff_not_or (a := ¬hi = 0), not_not]
  refine or_congr_right ⟨fun all l low high => ?_, fun all i inside => all _ (Nat.le_add_right _ _) (by omega)⟩
  have here := all (l - lo) (by omega)
  rwa [Nat.add_sub_cancel' low] at here

theorem State.cosignReq_witness {s : State} {priv : List Byte} (b : List Byte) (witness : s.witRole = 2) (signs : s.slot 2 = some priv) :
    (s.mayCosign (slice b 4 0x110) → s.cosignReq b =
      s.sendWit (witKind 5 ++ chipIdBytes ++ P384.sign priv (sha384 (putBytes (slice b 4 0x110) 0x100 chipIdBytes)))) ∧
    (¬s.mayCosign (slice b 4 0x110) → s.cosignReq b = s) := by
  have may : (s.witRole = 2 && s.witHas (leAt (slice b 4 0x110) 0x34 4) (leAt (slice b 4 0x110) 0x38 4) &&
      slice (slice b 4 0x110) 0xD0 48 = s.bu.m) = true ↔ s.mayCosign (slice b 4 0x110) := by
    simp only [Bool.and_eq_true, decide_eq_true_eq, witness, true_and, State.witHas_iff]
    rfl
  unfold State.cosignReq
  rw [signs]
  exact ⟨fun good => if_pos (may.2 good), fun bad => if_neg fun yes => bad (may.1 yes)⟩

/-! ## Records for another role -/

section
variable {s : State} (other : s.witRole ≠ 2) (b : List Byte)
include other

theorem State.witLine_other : s.witLine b = s := if_pos other
theorem State.witBlank_other : s.witBlank b = s := if_pos other
theorem State.witCommitIn_other : s.witCommitIn b = s := if_pos other

theorem State.cosignReq_other : s.cosignReq b = s := by
  unfold State.cosignReq
  split
  · exact if_neg (by simp [other])
  · rfl

end

/-! ## A LINE not answered -/

theorem State.witOverdue_iff (s : State) (r : WitLine) : s.witOverdue r = true ↔ (s.bar r.line).ct = none ∧ r.line ∉ s.au.wit.blanks ∧
    r.time + max 1 (s.fld Reg.AU_WIT_CFG F.AU_WIT_CFG_WIT_TMO) * 1000 ≤ s.now := by
  simp only [State.witOverdue, Bool.and_eq_true, Option.isNone_iff_eq_none, Bool.not_eq_true', Bool.eq_false_iff, ne_eq,
    List.contains_iff_mem, decide_eq_true_eq, and_assoc]

/-- The LINE record dropped that was not answered in time. -/
def State.lineDropped (s : State) (r : WitLine) : State :=
  { s with au := { s.au with wit := { s.au.wit with recv := s.au.wit.recv.erase r } } }

theorem State.witLate_late {s : State} {r : WitLine} (witness : s.witRole = 2) (overdue : s.au.wit.recv.find? s.witOverdue = some r) :
    s.witLate = ((s.lineDropped r).witMismatch r.line).sendStatus := by
  unfold State.witLate
  rw [overdue]
  exact if_pos witness

theorem State.witLate_spec {s : State} {r : WitLine} (witness : s.witRole = 2) (overdue : s.au.wit.recv.find? s.witOverdue = some r) :
    s.witLate.au.wit.mismatch = some r.line ∧ s.witLate.au.wit.recv = s.au.wit.recv.erase r := by
  rw [State.witLate_late witness overdue, (State.sendStatus_posted _).au, ((s.lineDropped r).witMismatch_spec r.line).1]
  exact ⟨rfl, rfl⟩

theorem State.witLate_none {s : State} (answered : ∀ r ∈ s.au.wit.recv, s.witOverdue r = false) : s.witLate = s := by
  have none' : s.au.wit.recv.find? s.witOverdue = none := List.find?_eq_none.2 fun r listed => by simp [answered r listed]
  unfold State.witLate
  rw [none']

/-! ## The primary -/

/-- A STATUS kept with its time (R397). -/
def State.statusKept (s : State) (l : Nat) : State :=
  { s with au := { s.au with wit := { s.au.wit with compared := max s.au.wit.compared l, statusAt := some s.now } } }.wrN Reg.AU_WIT_LINE
    (max s.au.wit.compared l % 2 ^ 32)

theorem State.statusKept_wit (s : State) (l : Nat) :
    (s.statusKept l).au.wit = { s.au.wit with compared := max s.au.wit.compared l, statusAt := some s.now } := rfl

theorem State.witStatus_primary {s : State} (b : List Byte) (primary : s.witRole = 1) : s.witStatus b =
    if (decide (leAt b 8 4 ≠ 0xFFFFFFFF) && decide (s.au.wit.mismatch ≠ some (leAt b 8 4))) = true then
      (s.statusKept (leAt b 4 4)).witMismatch (leAt b 8 4)
    else s.statusKept (leAt b 4 4) := if_neg (not_not_intro primary)

theorem State.witStatus_spec {s : State} (b : List Byte) (primary : s.witRole = 1) :
    (s.witStatus b).au.wit.compared = max s.au.wit.compared (leAt b 4 4) ∧ (s.witStatus b).au.wit.statusAt = some s.now ∧
    (leAt b 8 4 = 0xFFFFFFFF → (s.witStatus b).au.wit.mismatch = s.au.wit.mismatch) ∧
    (leAt b 8 4 ≠ 0xFFFFFFFF → (s.witStatus b).au.wit.mismatch = some (leAt b 8 4)) := by
  rw [State.witStatus_primary b primary]
  split
  next new =>
    obtain ⟨told, -⟩ := Bool.and_eq_true_iff.1 new
    rw [((s.statusKept (leAt b 4 4)).witMismatch_spec (leAt b 8 4)).1, s.statusKept_wit]
    exact ⟨rfl, rfl, fun none' => absurd none' (of_decide_eq_true told), fun _ => rfl⟩
  next known =>
    rw [s.statusKept_wit]
    refine ⟨rfl, rfl, fun _ => rfl, fun told => ?_⟩
    by_contra differs
    exact known (by simp only [decide_eq_true told, Bool.true_and]; exact decide_eq_true differs)

section
variable {s : State} {c : Summit} (closing : s.au.closing = some c)
include closing

theorem State.cosignRsp_closing (b : List Byte) : s.cosignRsp b =
    if (c.waiting && P384.verify (beBytes 96 (Config.witnessKey (BitVec.ofNat 64 (leNat (slice b 4 8)))).toNat)
      (sha384 (putBytes c.bytes 0x100 (slice b 4 8))) (slice b 12 96)) = true then
      { s with au := { s.au with closing := some { c with waiting := false, answer := some (slice b 4 8, slice b 12 96) } } }
    else s := by
  unfold State.cosignRsp
  rw [closing]

theorem State.cosignTimeout_closing {t : Nat} (closed : s.au.closedAt = some t) : s.cosignTimeout =
    if decide (t + 10000000 ≤ s.now) = true then { s with au := { s.au with closing := some { c with waiting := false } } } else s := by
  unfold State.cosignTimeout
  rw [closing, closed, Option.all_some]

end

theorem State.witFresh_iff {s : State} {t : Nat} (primary : s.witRole = 1) (status : s.au.wit.statusAt = some t) : s.witFresh = true ↔
    s.now - t ≤ max 1 (s.fld Reg.AU_WIT_CFG F.AU_WIT_CFG_WIT_LOSS) * 1000000 := by
  unfold State.witFresh
  simp [status, primary]

/-- Settles O50: what a witness does with each record it receives, and a primary with the answers. -/
theorem witnessMode : Obligations.WitnessMode := by
  unfold Obligations.WitnessMode
  refine ⟨⟨?others, ?line, ?blank, ?commit, ?cosign, ?status, ?late, ?inTime, fun s r => s.witOverdue_iff r⟩, ?primary, ?answer, ?timeout, ?lost⟩
  case others =>
    intro s bs c out other listed
    simp only [List.mem_cons, List.not_mem_nil, or_false] at listed
    rcases listed with rfl | rfl | rfl | rfl
    · exact State.next_act out (State.witLine_other other bs)
    · exact State.next_act out (State.witBlank_other other bs)
    · exact State.next_act out (State.witCommitIn_other other bs)
    · exact State.next_act out (State.cosignReq_other other bs)
  case line =>
    intro s bs ct out witness l own inked first
    exact ⟨_, State.next_act out rfl, State.witLine_spec witness own inked first⟩
  case blank => exact fun s bs out witness => State.next_act out (if_neg (not_not_intro witness))
  case commit => exact fun s bs out witness => State.next_act out (if_neg (not_not_intro witness))
  case cosign =>
    intro s bs priv out witness signs r lo hi good
    obtain ⟨answered, silent⟩ := State.cosignReq_witness bs witness signs
    exact ⟨fun may => State.next_act out (answered may), fun mayNot => State.next_act out (silent mayNot)⟩
  case status => exact fun s out witness => State.next_act out (if_pos witness)
  case late => exact fun s r out witness overdue => ⟨_, State.next_act out rfl, State.witLate_spec witness overdue⟩
  case inTime => exact fun s out answered => State.next_act out (State.witLate_none answered)
  case primary => exact fun s bs out primary => ⟨_, State.next_act out rfl, State.witStatus_spec bs primary⟩
  case answer =>
    intro s bs c out closing id sig good
    have verified := Bool.and_eq_true_iff (x := c.waiting) (y := P384.verify (beBytes 96 (Config.witnessKey (BitVec.ofNat 64 (leNat id))).toNat)
      (sha384 (putBytes c.bytes 0x100 id)) sig)
    refine ⟨fun valid => State.next_act out ?_, fun invalid => State.next_act out ?_⟩
    · rw [State.cosignRsp_closing closing, if_pos (verified.2 valid)]
    · rw [State.cosignRsp_closing closing, if_neg fun yes => invalid (verified.1 yes)]
  case timeout =>
    intro s c t out closing closed
    refine ⟨fun late => State.next_act out ?_, fun early => State.next_act out ?_⟩
    · rw [State.cosignTimeout_closing closing closed, if_pos (decide_eq_true late)]
    · rw [State.cosignTimeout_closing closing closed, if_neg (by simpa using early)]
  case lost =>
    intro s t out primary status past loss
    have fresh := State.witFresh_iff primary status
    refine ⟨fun silent => State.next_act out (if_neg fun yes => ?_), fun heard => State.next_act out (if_pos (fresh.2 ?_))⟩
    · have := fresh.1 yes
      omega
    · omega

end Sys2Proof.Machine
end

section
/-! PROOFS of O33: the profile tick, axis by axis. -/

namespace Sys2Proof.Machine

/-! ## Axes -/

/-- An axis that is not at its reset value has its place among the axes. -/
theorem State.lt_of_axis {s : State} {a : Nat} (own : s.axis a ≠ Axis.reset) : a < s.mo.axes.length := by
  by_contra beyond
  refine own ?_
  unfold State.axis
  rw [List.getD_eq_getElem?_getD, List.getElem?_eq_none (Nat.not_lt.1 beyond), Option.getD_none]

@[simp] theorem State.axis_setAxis_self {s : State} {a : Nat} (x : Axis) (there : a < s.mo.axes.length) : (s.setAxis a x).axis a = x := by
  unfold State.axis State.setAxis
  exact getD_set_self _ _ there

theorem State.setAxis_setAxis (s : State) (a : Nat) (x y : Axis) : (s.setAxis a x).setAxis a y = s.setAxis a y := by
  unfold State.setAxis
  rw [List.set_set]

/-- The position of an axis does not cross a compare by staying. -/
theorem crosses_self (dir : Nat) (target pos : Int) : crosses dir target pos pos = false := by
  have fwd : decide (pos < target ∧ target ≤ pos) = false := decide_eq_false fun both => absurd both.1 (Int.not_lt.2 both.2)
  have rev : decide (target < pos ∧ pos ≤ target) = false := decide_eq_false fun both => absurd both.1 (Int.not_lt.2 both.2)
  unfold crosses
  dsimp only
  rw [fwd, rev]
  split <;> rfl

/-- Compares that are disarmed, or that an axis with a known position does not cross, stand. -/
theorem State.moCompare_stands {s : State} {a : Nat} {old new : Int}
    (quiet : ∀ k, (s.mo.cmps.getD k ⟨false, 0, 0, 0⟩).armed = true → (s.axis a).lost = false ∧
      crosses (s.mo.cmps.getD k ⟨false, 0, 0, 0⟩).dir (s.mo.cmps.getD k ⟨false, 0, 0, 0⟩).target old new = false) :
    s.moCompare a old new = s := by
  have still (k : Nat) : (if !(s.mo.cmps.getD k ⟨false, 0, 0, 0⟩).armed then s
      else if (s.axis a).lost then s.setMoCmp k { s.mo.cmps.getD k ⟨false, 0, 0, 0⟩ with armed := false }
      else if crosses (s.mo.cmps.getD k ⟨false, 0, 0, 0⟩).dir (s.mo.cmps.getD k ⟨false, 0, 0, 0⟩).target old new then s.moCmpFire k
      else s) = s := by
    cases armed : (s.mo.cmps.getD k ⟨false, 0, 0, 0⟩).armed with
    | false => rfl
    | true =>
      obtain ⟨known, apart⟩ := quiet k armed
      rw [if_neg (by decide), known, apart]
      rfl
  unfold State.moCompare forEach
  simp only [List.foldl_cons, List.foldl_nil, still]

theorem State.armed_of_none {s : State} (none' : ∀ c ∈ s.mo.cmps, c.armed = false) (k : Nat) :
    (s.mo.cmps.getD k ⟨false, 0, 0, 0⟩).armed = false := by
  rw [List.getD_eq_getElem?_getD]
  cases entry : s.mo.cmps[k]? with
  | none => rfl
  | some c => exact none' c (List.mem_of_getElem? entry)

theorem State.moCompare_disarmed {s : State} (none' : ∀ c ∈ s.mo.cmps, c.armed = false) (a : Nat) (old new : Int) :
    s.moCompare a old new = s :=
  State.moCompare_stands fun k armed => by
    rw [State.armed_of_none none'] at armed
    cases armed

/-! ## A tick -/

/-- An axis at rest on the position `t`, its move ended. -/
def Axis.ended (x : Axis) (t : Int) (now : Nat) : Axis :=
  { x with p := t, v := 0, a := 0, st := .stopped, homed := x.homed || x.backoff, backoff := false, scanMove := false, endAt := some now }

/-- Its position, velocity and acceleration stand where it was at rest there. -/
theorem Axis.ended_still {x : Axis} {t : Int} (now : Nat) (at' : x.p = t) (still : x.v = 0) (steady : x.a = 0) :
    x.ended t now = { x with st := .stopped, homed := x.homed || x.backoff, backoff := false, scanMove := false, endAt := some now } := by
  cases x
  cases at'
  cases still
  cases steady
  rfl

/-- A move that ends with none queued behind it, past no compare. -/
theorem State.moveEnd_rests {s : State} {a : Nat} {t : Int} (there : a < s.mo.axes.length) (alone : (s.axis a).queued = none)
    (quiet : (s.setAxis a ((s.axis a).ended t s.now)).moCompare a (s.axis a).pos ((s.axis a).ended t s.now).pos =
      s.setAxis a ((s.axis a).ended t s.now)) : s.moveEnd a t = s.setAxis a ((s.axis a).ended t s.now) := by
  have waits : ((s.setAxis a ((s.axis a).ended t s.now)).axis a).queued = none := by
    rw [State.axis_setAxis_self _ there]
    exact alone
  unfold State.moveEnd
  unfold Axis.ended at *
  simp only [quiet, waits]

theorem State.profileAxis_rest {s : State} {a : Nat} (still : (s.axis a).st ≠ .moving) (home : (s.axis a).st ≠ .homing) :
    s.profileAxis a = s := by
  unfold State.profileAxis
  cases phase : (s.axis a).st with
  | moving => exact absurd phase still
  | homing => exact absurd phase home
  | disabled => simp only [phase]
  | stopped => simp only [phase]

/-- The direction of an axis toward its goal. -/
def State.toward (s : State) (a : Nat) : Int := if (s.axis a).start ≤ s.goal a then 1 else -1

/-- The jerk of a tick. -/
def State.tickJerk (s : State) (a : Nat) : Int := s.toward a * jerkChoice (s.axis a).jm (s.axis a).am (s.axis a).vm
  (s.toward a * (s.axis a).v) (s.toward a * (s.axis a).a) (s.toward a * (s.goal a - (s.axis a).p))

/-- Acceleration and velocity after a tick, within their limits. -/
def State.tickA (s : State) (a : Nat) : Int := clamp (-(s.axis a).am) (s.axis a).am ((s.axis a).a + s.tickJerk a)
def State.tickV (s : State) (a : Nat) : Int := clamp (-(s.axis a).vm) (s.axis a).vm ((s.axis a).v + s.tickA a)

/-- An axis in motion after a tick, before its position follows. -/
def State.axisTicked (s : State) (a : Nat) : Axis :=
  { s.axis a with a := s.tickA a, v := s.tickV a, tick := (s.axis a).tick + 1,
                  back := if s.tickV a = 0 then (s.axis a).back else decide (s.tickV a < 0) }

/-- The same, its position moved by its velocity. -/
def State.tickedOn (s : State) (a : Nat) : Axis := { s.axisTicked a with p := (s.axis a).p + s.tickV a }

/-- The target is reached within a microstep. -/
def State.arrives (s : State) (a : Nat) : Bool :=
  (s.axisTicked a).target.isSome && (s.toward a * (s.goal a - ((s.axis a).p + s.tickV a))).natAbs < ustep.toNat &&
    (s.toward a * (s.goal a - ((s.axis a).p + s.tickV a)) ≤ 0 || s.toward a * s.tickV a ≤ 0)

/-- An axis that rests on its target. -/
def Axis.atTarget (x : Axis) : Bool := x.target = some x.p && x.v = 0 && x.a = 0

/-- HOME_MAX passed in the drive of homing ends it (R283). -/
def State.homeJudged (s : State) (a : Nat) (x : Axis) (p : Int) : State :=
  if x.target.isNone &&
      ((s.fld (Reg.MO_Aa_HOME_LIM a) F.MO_Aa_HOME_LIM_HOME_MAX * 256 : Nat) : Int) * ustep < ((p - x.start).natAbs : Int) then
    s.homingFault a 1
  else s

/-- A tick of an axis in motion that does not rest on its target. -/
def State.profileStep (s : State) (a : Nat) : State :=
  if s.arrives a then (s.setAxis a (s.axisTicked a)).moveEnd a (s.goal a)
  else ((s.setAxis a (s.tickedOn a)).moCompare a (s.axis a).pos (s.tickedOn a).pos).homeJudged a (s.axis a) (s.tickedOn a).p

theorem State.profileAxis_eq (s : State) (a : Nat) : s.profileAxis a = match (s.axis a).st with
    | .moving | .homing => if (s.axis a).atTarget then s.moveEnd a (s.axis a).p else s.profileStep a
    | _ => s := rfl

theorem State.profileAxis_moving {s : State} {a : Nat} (moving : (s.axis a).st = .moving) :
    s.profileAxis a = if (s.axis a).atTarget then s.moveEnd a (s.axis a).p else s.profileStep a := by
  rw [State.profileAxis_eq, moving]

/-- An axis at rest on its target ends its move there. -/
theorem State.profileAxis_ends {s : State} {a : Nat} {t : Int} (moving : (s.axis a).st = .moving) (aimed : (s.axis a).target = some t)
    (at' : (s.axis a).p = t) (still : (s.axis a).v = 0) (steady : (s.axis a).a = 0) (alone : (s.axis a).queued = none)
    (known : (s.axis a).lost = false) : s.profileAxis a = s.setAxis a ((s.axis a).ended t s.now) := by
  have there : a < s.mo.axes.length := State.lt_of_axis fun reset => by
    rw [reset] at moving
    cases moving
  have rests : (s.axis a).atTarget = true := by simp [Axis.atTarget, aimed, at', still, steady]
  rw [State.profileAxis_moving moving, if_pos rests, at']
  refine State.moveEnd_rests there alone (State.moCompare_stands fun k _ => ⟨?_, ?_⟩)
  · rw [State.axis_setAxis_self _ there]
    exact known
  · have same : ((s.axis a).ended t s.now).pos = (s.axis a).pos := congrArg (· / ustep) at'.symm
    rw [same]
    exact crosses_self _ _ _

/-- The same with every compare disarmed. -/
theorem State.moveEnd_disarmed {s : State} {a : Nat} (t : Int) (there : a < s.mo.axes.length) (alone : (s.axis a).queued = none)
    (disarmed : ∀ c ∈ s.mo.cmps, c.armed = false) : (s.moveEnd a t).axis a = (s.axis a).ended t s.now := by
  have still : ∀ c ∈ (s.setAxis a ((s.axis a).ended t s.now)).mo.cmps, c.armed = false := disarmed
  rw [State.moveEnd_rests there alone (State.moCompare_disarmed still _ _ _), State.axis_setAxis_self _ there]

/-! ## The jerk -/

theorem jerkChoice_cases (jm am vm v a left : Int) :
    jerkChoice jm am vm v a left = jm ∨ jerkChoice jm am vm v a left = 0 ∨ jerkChoice jm am vm v a left = -jm := by
  unfold jerkChoice
  extract_lets a' v' meets good
  split
  next j found =>
    have listed := List.mem_of_find?_eq_some found
    simpa using listed
  · split
    · exact .inr (.inr rfl)
    · split
      · exact .inr (.inl rfl)
      · exact .inl rfl

/-- The greatest jerk is taken where it is good. -/
theorem jerkChoice_greatest {jm am vm v a left : Int} (speeds : 0 ≤ clamp (-am) am (a + jm)) (ahead : 0 ≤ clamp (-vm) vm (v + clamp (-am) am (a + jm)))
    (within : clamp (-vm) vm (v + clamp (-am) am (a + jm)) + clamp (-am) am (a + jm) * clamp (-am) am (a + jm) / (2 * jm) ≤ vm)
    (room : stopDistance jm am (clamp (-vm) vm (v + clamp (-am) am (a + jm))) (clamp (-am) am (a + jm)) ≤
      left - clamp (-vm) vm (v + clamp (-am) am (a + jm))) : jerkChoice jm am vm v a left = jm := by
  unfold jerkChoice
  extract_lets a' v' meets good
  have first : good jm = true := by
    simp only [good, Bool.and_eq_true, Bool.or_eq_true, decide_eq_true_eq]
    exact ⟨⟨⟨.inr within, ahead⟩, .inl speeds⟩, room⟩
  rw [List.find?_cons_of_pos first]

/-! ## An axis in motion -/

/-- What a tick makes of an axis that moves toward a target. -/
def Axis.movedOn (x y : Axis) : Prop :=
  (y.st = .moving → y.v ≤ x.vm ∧ -x.vm ≤ y.v ∧ y.a ≤ x.am ∧ -x.am ≤ y.a ∧ y.p = x.p + y.v) ∧
  (y.st = .moving ∨ (y.st = .stopped ∧ y.v = 0 ∧ y.a = 0 ∧ some y.p = x.target))

theorem Axis.movedOn_ended {x : Axis} (y : Axis) {t : Int} (now : Nat) (aimed : x.target = some t) : x.movedOn (y.ended t now) :=
  ⟨nofun, .inr ⟨rfl, rfl, rfl, aimed.symm⟩⟩

section
variable {s : State} {a : Nat} (there : a < s.mo.axes.length) (moving : (s.axis a).st = .moving) {t : Int} (aimed : (s.axis a).target = some t)
  (alone : (s.axis a).queued = none) (disarmed : ∀ c ∈ s.mo.cmps, c.armed = false)
include there moving aimed alone disarmed

theorem State.profileStep_moves (vm : 0 ≤ (s.axis a).vm) (am : 0 ≤ (s.axis a).am) : (s.axis a).movedOn ((s.profileStep a).axis a) := by
  have goal : s.goal a = t := by
    unfold State.goal
    rw [aimed]
  unfold State.profileStep
  split
  · have self := State.axis_setAxis_self (s.axisTicked a) there
    have room : a < (s.setAxis a (s.axisTicked a)).mo.axes.length := by
      rwa [State.setAxis, List.length_set]
    have still : ∀ c ∈ (s.setAxis a (s.axisTicked a)).mo.cmps, c.armed = false := disarmed
    rw [State.moveEnd_disarmed _ room (by rw [self]; exact alone) still, goal]
    exact Axis.movedOn_ended _ _ aimed
  · have still : ((s.setAxis a (s.tickedOn a)).moCompare a (s.axis a).pos (s.tickedOn a).pos).homeJudged a (s.axis a) (s.tickedOn a).p =
        s.setAxis a (s.tickedOn a) := by
      have still : ∀ c ∈ (s.setAxis a (s.tickedOn a)).mo.cmps, c.armed = false := disarmed
      rw [State.moCompare_disarmed still]
      exact if_neg (by simp [aimed])
    obtain ⟨fast, slow⟩ := clamp_bounds (s.axis a).vm ((s.axis a).v + s.tickA a) vm
    obtain ⟨more, less⟩ := clamp_bounds (s.axis a).am ((s.axis a).a + s.tickJerk a) am
    rw [still, State.axis_setAxis_self _ there]
    exact ⟨fun _ => ⟨fast, slow, more, less, rfl⟩, .inl moving⟩

theorem State.profileAxis_moves (vm : 0 ≤ (s.axis a).vm) (am : 0 ≤ (s.axis a).am) : (s.axis a).movedOn ((s.profileAxis a).axis a) := by
  rw [State.profileAxis_moving moving]
  split
  next rests =>
    have at' : some (s.axis a).p = (s.axis a).target := by
      simp only [Axis.atTarget, Bool.and_eq_true, decide_eq_true_eq] at rests
      exact rests.1.1.symm
    rw [State.moveEnd_disarmed _ there alone disarmed]
    exact Axis.movedOn_ended _ _ at'.symm
  · exact State.profileStep_moves there moving aimed alone disarmed vm am

end

/-- Settles O33: a tick treats each axis on its own, and moves one within its latched limits. -/
theorem profileTick : Obligations.ProfileTick := by
  unfold Obligations.ProfileTick
  refine ⟨fun s out => State.next_act out rfl, fun s a still home => State.profileAxis_rest still home, ?ends, ?jerk, ?moves⟩
  case ends =>
    intro s a t moving aimed at' still steady alone known
    rw [State.profileAxis_ends moving aimed at' still steady alone known, Axis.ended_still _ at' still steady]
  case jerk =>
    intro jm am vm v a left pos up fwd a' v'
    exact ⟨jerkChoice_cases .., fun speeds ahead within room => jerkChoice_greatest speeds ahead within room⟩
  case moves =>
    intro s a there moving aimed alone vm am disarmed
    obtain ⟨t, aimed⟩ := Option.isSome_iff_exists.1 aimed
    exact State.profileAxis_moves there moving aimed alone disarmed vm am

end Sys2Proof.Machine
end

section
/-! PROOFS of O32: the commands of an axis, its drive and switches, the cap sequence and axis compares. -/

namespace Sys2Proof.Machine

/-! ## Commands -/

theorem State.writeMo_cmd (s : State) (a : Fin 4) (w : Word) : s.writeMo (Reg.MO_Aa_CMD a.val) w = s.axisCommand a.val w := by
  fin_cases a <;> rfl

theorem State.writeMo_cmp (s : State) (k : Fin 8) (w : Word) : s.writeMo (Reg.MO_CMPm_CTRL k.val) w = s.moCmpCtrl k.val w := by
  fin_cases k <;> rfl

/-- A granted write of a register of MO. -/
theorem State.next_moWrite {s : State} {m : Master} {a : Nat} (takes : s.takes m a) (block : a / 0x10000 = 9) (w : Word) :
    (Host.Outcome.next (s.act (·.busWrite m.val a w)) : Host.Outcome State Fault Refusal) = .next (s.wrote (s.writeMo a (regMask a w)) m) := by
  have writable : readOnlyWindow a = false := by
    simp only [readOnlyWindow, Bool.or_eq_false_iff, Bool.and_eq_false_iff, decide_eq_false_iff_not]
    omega
  refine State.next_busWrite takes writable (by omega) ?_
  simp [State.writeReg, block]

section
variable {s : State} {m : Master} {a : Fin 4} (takes : s.takes m (Reg.MO_Aa_CMD a.val)) (w : Word)
include takes

/-- An axis command by its code. -/
theorem next_axisCmd (op : Nat) : (Host.Outcome.next (s.act (·.busWrite m.val (Reg.MO_Aa_CMD a.val) (command w [(F.MO_Aa_CMD_OP, op)]))) :
    Host.Outcome State Fault Refusal) =
    .next (s.wrote (s.axisCommand a.val (cmdWord (Reg.MO_Aa_CMD a.val) w [(F.MO_Aa_CMD_OP, op)])) m) := by
  refine (State.next_moWrite takes (by unfold Reg.MO_Aa_CMD; omega) _).trans ?_
  rw [State.writeMo_cmd]
  rfl

end

theorem get_axisOp (a : Fin 4) (w : Word) {op : Nat} (code : op < 8) :
    F.MO_Aa_CMD_OP.get (cmdWord (Reg.MO_Aa_CMD a.val) w [(F.MO_Aa_CMD_OP, op)]) = op := by
  have held : holdsField (Reg.MO_Aa_CMD a.val) F.MO_Aa_CMD_OP = true := by
    revert a
    decide
  exact (get_regMask held _).trans ((F.MO_Aa_CMD_OP.get_put w op (by decide) (by decide)).trans (Nat.mod_eq_of_lt code))

theorem State.axisErr_axis (s : State) (a e b : Nat) : (s.axisErr a e).axis b = s.axis b := by
  unfold State.axis State.axisErr
  rw [State.setFld_mo]

theorem State.axisErr_now (s : State) (a e : Nat) : (s.axisErr a e).now = s.now := State.setFld_now _ _ _ _

theorem State.axisCommand_unfitted {s : State} {a : Nat} (w : Word) (absent : s.fitted a = false) : s.axisCommand a w = s.axisErr a 8 :=
  if_pos (by rw [absent]; rfl)

section
variable {s : State} {a : Nat} {d : Word} (fitted : s.fitted a = true)
include fitted

section
variable (op : F.MO_Aa_CMD_OP.get d = 1)
include op

theorem State.axisCommand_move (accepted : s.moveErr a false (s.rdI (Reg.MO_Aa_TARGET a)) = 0) : s.axisCommand a d =
    if (!decide (F.MO_Aa_CMD_TRIG.get d = 1) && decide ((s.axis a).st = .stopped)) = true then
      (s.axisErr a 0).startMove a (s.rdI (Reg.MO_Aa_TARGET a))
    else (s.axisErr a 0).setAxis a
      { s.axis a with queued := some (s.rdI (Reg.MO_Aa_TARGET a), decide (F.MO_Aa_CMD_TRIG.get d = 1)) } := by
  unfold State.axisCommand
  simp only [fitted, op, accepted, State.axisErr_axis, Bool.not_true, Bool.false_eq_true, if_false]

theorem State.axisCommand_moveRefused (refused : s.moveErr a false (s.rdI (Reg.MO_Aa_TARGET a)) ≠ 0) :
    s.axisCommand a d = s.axisErr a (s.moveErr a false (s.rdI (Reg.MO_Aa_TARGET a))) := by
  obtain ⟨e, code⟩ := Nat.exists_eq_succ_of_ne_zero refused
  unfold State.axisCommand
  simp only [fitted, op, code, Bool.not_true, Bool.false_eq_true, if_false]

end

theorem State.axisCommand_home (op : F.MO_Aa_CMD_OP.get d = 2) (accepted : s.moveErr a true (s.rdI (Reg.MO_Aa_TARGET a)) = 0) :
    s.axisCommand a d = (s.axisErr a 0).startHome a := by
  unfold State.axisCommand
  simp only [fitted, op, accepted, Bool.not_true, Bool.false_eq_true, if_false]

theorem State.axisCommand_stop (op : F.MO_Aa_CMD_OP.get d = 3) : s.axisCommand a d = (s.axisErr a 0).stopAxis a := by
  unfold State.axisCommand
  simp only [fitted, op, Bool.not_true, Bool.false_eq_true, if_false]

theorem State.axisCommand_enable (op : F.MO_Aa_CMD_OP.get d = 4) (boot : s.mode ≠ .boot) (test : s.mode ≠ .test)
    (free : s.estopped = false) (disabled : (s.axis a).st = .disabled) :
    s.axisCommand a d = (s.axisErr a 0).setAxis a { s.axis a with st := .stopped } := by
  unfold State.axisCommand
  simp [fitted, op, boot, test, free, State.axisErr_axis, disabled]

theorem State.axisCommand_disable (op : F.MO_Aa_CMD_OP.get d = 5) : s.axisCommand a d = (s.axisErr a 0).disableAxis a := by
  unfold State.axisCommand
  simp only [fitted, op, Bool.not_true, Bool.false_eq_true, if_false]

end

/-- An axis in motion comes to rest LOST; another loses its queued move alone (R284). -/
theorem State.stopAxis_eq (s : State) (a : Nat) : s.stopAxis a =
    if (s.axis a).st = .moving ∨ (s.axis a).st = .homing then
      (s.setAxis a { s.axis a with
        queued := none, st := .stopped, v := 0, a := 0, lost := true, homed := false, backoff := false, scanMove := false,
        endAt := some s.now }).moDisarm a
    else s.setAxis a { s.axis a with queued := none } := by
  unfold State.stopAxis
  cases phase : (s.axis a).st <;> simp [phase]

theorem State.axisErr_stopAxis (s : State) (a : Nat) : (s.axisErr a 0).stopAxis a =
    if (s.axis a).st = .moving ∨ (s.axis a).st = .homing then
      ((s.axisErr a 0).setAxis a { s.axis a with
        queued := none, st := .stopped, v := 0, a := 0, lost := true, homed := false, backoff := false, scanMove := false,
        endAt := some s.now }).moDisarm a
    else (s.axisErr a 0).setAxis a { s.axis a with queued := none } := by
  rw [State.stopAxis_eq, State.axisErr_axis, State.axisErr_now]

theorem State.axisErr_disableAxis (s : State) (a : Nat) : (s.axisErr a 0).disableAxis a =
    ((s.axisErr a 0).setAxis a { s.axis a with
      st := .disabled, v := 0, a := 0, lost := true, homed := false, queued := none, backoff := false, scanMove := false, va := 0, vb := 0,
      da := 0, db := 0 }).moDisarm a := by
  unfold State.disableAxis
  rw [State.axisErr_axis]

/-! ## Switches -/

/-- A switch level kept. -/
def State.switchKept (s : State) (a : Nat) (hi level : Bool) : State :=
  s.setAxis a (if hi then { s.axis a with limHi := level } else { s.axis a with limLo := level })

theorem State.limitAccept_eq (s : State) (a : Nat) (hi level : Bool) : s.limitAccept a hi level =
    if !level then s.switchKept a hi level
    else match (s.axis a).st with
      | .homing => if !(s.axis a).backoff && (s.switchKept a hi level).homeHigh a = hi then (s.switchKept a hi level).homingFault a 0
          else s.switchKept a hi level
      | .moving => if decide (0 < (s.axis a).v) && hi || decide ((s.axis a).v < 0) && !hi then
            (((s.switchKept a hi level).stopAxis a).flag Reg.MO_STAT F.MO_STAT_LIMIT).raise Ev.MO_LIMIT
          else s.switchKept a hi level
      | _ => s.switchKept a hi level := rfl

/-- The edges of a switch within LIM_DB of now (R282). -/
def State.freshEdges (s : State) (a : Nat) (hi : Bool) : List Nat :=
  ((if hi then (s.axis a).edgesHi else (s.axis a).edgesLo) ++ [s.now]).filter fun t =>
    decide (s.now - t ≤ max 1 (s.fld (Reg.MO_Aa_LIM a) F.MO_Aa_LIM_LIM_DB) * 1000)

/-- Fewer than three edges within LIM_DB are no chatter (R282). -/
theorem State.limitEdge_calm {s : State} {a : Nat} {hi : Bool} (calm : (s.freshEdges a hi).length < 3) : s.limitEdge a hi =
    s.setAxis a (if hi then { s.axis a with edgesHi := s.freshEdges a hi } else { s.axis a with edgesLo := s.freshEdges a hi }) := by
  have few : decide (3 ≤ (s.freshEdges a hi).length) = false := decide_eq_false (Nat.not_le.2 calm)
  unfold State.freshEdges at *
  unfold State.limitEdge
  simp only [few, Bool.false_eq_true, if_false, Bool.not_false, if_true]

/-! ## The drive -/

/-- A phase is never driven past its period (R278); saturation is told of in MO_Aa_STAT alone. -/
theorem State.phaseTime_spec {s : State} (a : Nat) (v : Int) (supplied : s.rdN Reg.MO_VM ≠ 0) : (s.phaseTime a v).1 ≤ 25000 ∧
    (s.phaseTime a v).2.mo = s.mo ∧ (s.phaseTime a v).2.dram = s.dram ∧ (s.phaseTime a v).2.rdN Reg.MO_VM = s.rdN Reg.MO_VM := by
  unfold State.phaseTime
  dsimp only
  rw [if_neg (by simp [supplied])]
  split
  · refine ⟨Nat.le_refl _, State.flag_mo _ _ _, State.flag_dram _ _ _, congrArg BitVec.toNat (State.rd_flag_ne _ _ ?_)⟩
    unfold Reg.MO_VM Reg.MO_Aa_STAT
    omega
  next within => exact ⟨Nat.not_lt.1 within, rfl, rfl, rfl⟩

/-- The raw currents of an axis kept. -/
def State.sampled (s : State) (a ra rb : Nat) : State :=
  { s with mo := { s.mo with raw := (s.mo.raw.set (2 * a) (s.motorRaw (2 * a) ra)).set (2 * a + 1) (s.motorRaw (2 * a + 1) rb) } }

theorem State.pwmPeriod_low {s : State} {a ra rb : Nat} (low : s.fitted a = false ∨ (s.axis a).st = .disabled) :
    s.pwmPeriod a ra rb = (s.sampled a ra rb).setAxis a { s.axis a with va := 0, vb := 0, da := 0, db := 0, stall := 0 } := by
  have off : (!(s.sampled a ra rb).fitted a || decide ((s.axis a).st = .disabled)) = true := by
    rcases low with absent | disabled
    · have absent' : (s.sampled a ra rb).fitted a = false := absent
      rw [absent']
      rfl
    · simp [disabled]
  exact if_pos off

theorem State.stalled_rest {s : State} {a : Nat} (rest : (s.axis a).st = .stopped) : s.stalled a = s := by
  unfold State.stalled
  simp only [rest]

/-- The voltage of a stopped axis (R278). -/
def State.holdAmp (s : State) (a : Nat) : Int :=
  ((s.axis a).iHold * s.fld (Reg.MO_Aa_ELEC a) F.MO_Aa_ELEC_R_COIL / 1000 +
    s.fld (Reg.MO_Aa_ELEC a) F.MO_Aa_ELEC_KE * (s.axis a).v.natAbs / 2 ^ 48 : Nat)

/-- An axis as a period drives it. -/
def Axis.driven (x : Axis) (amp : Int) (da db n : Nat) : Axis :=
  { x with va := amp * cosTab (x.pos % 1024).toNat / 2 ^ 15, vb := amp * sinTab (x.pos % 1024).toNat / 2 ^ 15, da := da, db := db, stall := n }

/-- A stopped axis is driven at its hold current, and never stalls. -/
theorem State.pwmPeriod_rest {s : State} {a ra rb : Nat} (fitted : s.fitted a = true) (rest : (s.axis a).st = .stopped)
    (settled : (s.axis a).endAt = none) (supplied : s.rdN Reg.MO_VM ≠ 0) (there : a < s.mo.axes.length) :
    ∃ (u : State) (da db n : Nat), s.pwmPeriod a ra rb = u.setAxis a ((s.axis a).driven (s.holdAmp a) da db n) ∧ da ≤ 25000 ∧ db ≤ 25000 ∧
      u.mo.axes = s.mo.axes ∧ u.dram = s.dram := by
  unfold State.pwmPeriod
  extract_lets x ia ib mo t moving held iSet r ke amp k va vb da db u lsb bemf e eExp counts n full w
  have on : ¬(!t.fitted a || decide (x.st = .disabled)) = true := by
    have fitted' : t.fitted a = true := fitted
    simp [fitted', x, rest]
  have still : moving = false := by simp [moving, x, rest]
  have late : held = false := by simp [held, x, settled]
  have noRun : iSet = (s.axis a).iHold := by
    simp only [iSet, still, late]
    rfl
  have volts : amp = s.holdAmp a := by
    simp only [amp, noRun]
    rfl
  obtain ⟨first, mo1, dram1, vm1⟩ := t.phaseTime_spec a va supplied
  obtain ⟨second, mo2, dram2, -⟩ := da.2.phaseTime_spec a vb (by rw [vm1]; exact supplied)
  have moU : u.mo.axes = s.mo.axes := (congrArg MoState.axes mo2).trans ((congrArg MoState.axes mo1).trans (show t.mo.axes = s.mo.axes from rfl))
  have dramU : u.dram = s.dram := dram2.trans dram1
  have driven : w = u.setAxis a ((s.axis a).driven (s.holdAmp a) da.1 db.1 (if full then 0 else n)) := by
    rw [← volts]
    rfl
  have resting : (w.axis a).st = .stopped := by
    rw [driven, State.axis_setAxis_self _ (by rwa [moU])]
    exact rest
  refine ⟨u, da.1, db.1, if full then 0 else n, ?_, first, second, moU, dramU⟩
  rw [if_neg on, ← driven]
  split
  · exact State.stalled_rest resting
  · rfl

/-! ## The cap sequence -/

theorem State.capNext_done {s : State} (ended : s.mo.capSeq = some []) : s.capNext = { s with mo := { s.mo with capSeq := none, capPhase := 0 } } := by
  unfold State.capNext State.capStep
  rw [ended]

section
variable {s : State} {a : Nat} {rest : List Nat} (next : s.mo.capSeq = some (a :: rest)) (begins : s.mo.capPhase = 0)
  (free : s.estopped = false) (still : (s.axis a).st ≠ .moving) (home : (s.axis a).st ≠ .homing) (limits : s.limitsZero a = false)
include next begins free still home limits

/-- An axis whose position is known moves to CAP_POS. -/
theorem State.capNext_moves (known : (s.axis a).lost = false) (clear' : s.limitToward a (s.rdI (Reg.MO_Aa_CAP_POS a)) = false) :
    s.capNext = { s with mo := { s.mo with capPhase := 2 } }.startMove a (s.rdI (Reg.MO_Aa_CAP_POS a)) := by
  unfold State.capNext State.capStep
  simp only [next, begins, free, still, home, limits, known, clear']
  simp

/-- A LOST axis is homed first. -/
theorem State.capNext_homes (lost : (s.axis a).lost = true) (homes : s.isSet Reg.MO_CFG F.MO_CFG_CAP_HOME = true)
    (fast : s.fld (Reg.MO_Aa_STALL a) F.MO_Aa_STALL_STALL_VMIN * 64 ≤ s.fld (Reg.MO_Aa_HOME a) F.MO_Aa_HOME_HOME_V) :
    s.capNext = { s with mo := { s.mo with capPhase := 1 } }.startHome a := by
  unfold State.capNext State.capStep
  simp only [next, begins, free, still, home, limits, lost, homes, fast]
  simp

end

/-! ## Axis compares -/

theorem holdsField_cmpArm (k : Fin 8) : holdsField (Reg.MO_CMPm_CTRL k.val) F.MO_CMPm_CTRL_ARM = true := by
  revert k
  decide

/-- A state that differs in one register at most. -/
structure State.OnlyReg (a : Nat) (s t : State) : Prop where
  mo : t.mo = s.mo
  dram : t.dram = s.dram
  rd : ∀ b, b ≠ a → t.rd b = s.rd b

theorem State.setFld_onlyReg (s : State) (a : Nat) (f : BitField) (v : Nat) : State.OnlyReg a s (s.setFld a f v) :=
  ⟨State.setFld_mo _ _ _ _, State.setFld_dram _ _ _ _, fun _ other => State.rd_setFld_ne _ _ _ other⟩

theorem State.OnlyReg.trans {a : Nat} {s t u : State} (h : State.OnlyReg a s t) (k : State.OnlyReg a t u) : State.OnlyReg a s u :=
  ⟨k.mo.trans h.mo, k.dram.trans h.dram, fun b other => (k.rd b other).trans (h.rd b other)⟩

theorem State.OnlyReg.refl (a : Nat) (s : State) : State.OnlyReg a s s := ⟨rfl, rfl, fun _ _ => rfl⟩

/-- The fields a write of MO_CMPm_CTRL stores, and those it clears. -/
def State.moCmpStored (s : State) (k : Nat) (w : Word) : State :=
  forEach [F.MO_CMPm_CTRL_TAXIS, F.MO_CMPm_CTRL_ACTION, F.MO_CMPm_CTRL_DIR] (fun s f => s.setFld (Reg.MO_CMPm_CTRL k) f (f.get w)) s

def State.moCmpCleared (s : State) (k : Nat) (w : Word) : State :=
  forEach [F.MO_CMPm_CTRL_BEHIND, F.MO_CMPm_CTRL_FIRED] (fun s f => if f.get w = 1 then s.setFld (Reg.MO_CMPm_CTRL k) f 0 else s) s

theorem State.moCmpStored_onlyReg (s : State) (k : Nat) (w : Word) : State.OnlyReg (Reg.MO_CMPm_CTRL k) s (s.moCmpStored k w) := by
  unfold State.moCmpStored forEach
  exact foldl_keeps (fun s => .refl _ s) (fun h k => h.trans k) (fun s f => s.setFld_onlyReg _ f _) _ s

theorem State.moCmpCleared_onlyReg (s : State) (k : Nat) (w : Word) : State.OnlyReg (Reg.MO_CMPm_CTRL k) s (s.moCmpCleared k w) := by
  unfold State.moCmpCleared forEach
  refine foldl_keeps (fun s => .refl _ s) (fun h k => h.trans k) (fun s f => ?_) _ s
  split
  · exact s.setFld_onlyReg _ f _
  · exact .refl _ s

/-- An axis compare that is behind when armed is told of (R287). -/
def State.moCmpBehind (s : State) (k : Nat) : State :=
  ((s.flag (Reg.MO_CMPm_CTRL k) F.MO_CMPm_CTRL_BEHIND).flag Reg.WP_STAT F.WP_STAT_COMPARE_BEHIND).raise Ev.COMPARE_BEHIND

theorem State.moCmpBehind_spec (s : State) (k : Nat) : (s.moCmpBehind k).mo = s.mo ∧ (s.moCmpBehind k).dram = s.dram ∧
    (s.moCmpBehind k).fld (Reg.MO_CMPm_CTRL k) F.MO_CMPm_CTRL_BEHIND = 1 := by
  have kept := ((s.flag (Reg.MO_CMPm_CTRL k) F.MO_CMPm_CTRL_BEHIND).flag Reg.WP_STAT F.WP_STAT_COMPARE_BEHIND).raise_keeps Ev.COMPARE_BEHIND 0
  have apart : ∀ b ∈ [Reg.FL_STAT, Reg.FL_CSR, Reg.FL_LOST, Reg.WP_STAT], Reg.MO_CMPm_CTRL k ≠ b := by
    unfold Reg.MO_CMPm_CTRL
    simp only [List.forall_mem_cons, List.not_mem_nil, false_imp_iff, implies_true, and_true, Reg.FL_STAT, Reg.FL_CSR, Reg.FL_LOST, Reg.WP_STAT]
    omega
  simp only [List.forall_mem_cons, List.not_mem_nil, false_imp_iff, implies_true, and_true] at apart
  obtain ⟨stat, csr, lost, wp⟩ := apart
  unfold State.moCmpBehind
  refine ⟨?_, ?_, ?_⟩
  · exact kept.mo.trans ((State.flag_mo _ _ _).trans (State.flag_mo _ _ _))
  · exact kept.dram.trans ((State.flag_dram _ _ _).trans (State.flag_dram _ _ _))
  · rw [State.fld_of_rd (kept.rd _ stat csr lost), State.fld_of_rd (State.rd_flag_ne _ _ wp)]
    exact State.fld_setFld _ _ _ _ (by decide) (by decide)

/-- ARM on an axis whose position is known (R287). -/
theorem State.moCmpCtrl_arms {s : State} {k : Nat} {w : Word} (arm : F.MO_CMPm_CTRL_ARM.get w = 1) (dir : F.MO_CMPm_CTRL_DIR.get w ≠ 3)
    (known : (s.axis (k / 2)).lost = false) : s.moCmpCtrl k w =
    if behind (F.MO_CMPm_CTRL_DIR.get w) (s.rdI (Reg.MO_CMPm_TARGET k)) (s.axis (k / 2)).pos (s.axis (k / 2)).back then
      (((s.moCmpStored k w).moCmpCleared k w).setMoCmp k
        ⟨false, s.rdI (Reg.MO_CMPm_TARGET k), k / 2, F.MO_CMPm_CTRL_DIR.get w⟩).moCmpBehind k
    else ((s.moCmpStored k w).moCmpCleared k w).setMoCmp k ⟨true, s.rdI (Reg.MO_CMPm_TARGET k), k / 2, F.MO_CMPm_CTRL_DIR.get w⟩ := by
  have kept := (s.moCmpStored_onlyReg k w).trans (State.moCmpCleared_onlyReg _ k w)
  have axes : ((s.moCmpStored k w).moCmpCleared k w).axis (k / 2) = s.axis (k / 2) := by
    unfold State.axis
    rw [kept.mo]
  have target : ((s.moCmpStored k w).moCmpCleared k w).rdI (Reg.MO_CMPm_TARGET k) = s.rdI (Reg.MO_CMPm_TARGET k) := by
    have apart : Reg.MO_CMPm_TARGET k ≠ Reg.MO_CMPm_CTRL k := by
      unfold Reg.MO_CMPm_TARGET Reg.MO_CMPm_CTRL
      omega
    unfold State.rdI State.rdN
    rw [kept.rd _ apart]
  have armed : ¬(decide (F.MO_CMPm_CTRL_ARM.get w = 0) || decide (F.MO_CMPm_CTRL_DIR.get w = 3) ||
      (((s.moCmpStored k w).moCmpCleared k w).axis (k / 2)).lost) = true := by
    rw [axes]
    simp [arm, dir, known]
  rw [← axes, ← target]
  exact if_neg armed

theorem State.moCmpCtrl_spec {s : State} {k : Nat} {w : Word} (arm : F.MO_CMPm_CTRL_ARM.get w = 1) (dir : F.MO_CMPm_CTRL_DIR.get w ≠ 3)
    (known : (s.axis (k / 2)).lost = false) : (s.moCmpCtrl k w).mo.axes = s.mo.axes ∧ (s.moCmpCtrl k w).dram = s.dram ∧
    (behind (F.MO_CMPm_CTRL_DIR.get w) (s.rdI (Reg.MO_CMPm_TARGET k)) (s.axis (k / 2)).pos (s.axis (k / 2)).back = false →
      (s.moCmpCtrl k w).mo.cmps = s.mo.cmps.set k ⟨true, s.rdI (Reg.MO_CMPm_TARGET k), k / 2, F.MO_CMPm_CTRL_DIR.get w⟩) ∧
    (behind (F.MO_CMPm_CTRL_DIR.get w) (s.rdI (Reg.MO_CMPm_TARGET k)) (s.axis (k / 2)).pos (s.axis (k / 2)).back = true →
      (s.moCmpCtrl k w).mo.cmps = s.mo.cmps.set k ⟨false, s.rdI (Reg.MO_CMPm_TARGET k), k / 2, F.MO_CMPm_CTRL_DIR.get w⟩ ∧
      (s.moCmpCtrl k w).fld (Reg.MO_CMPm_CTRL k) F.MO_CMPm_CTRL_BEHIND = 1) := by
  have kept := (s.moCmpStored_onlyReg k w).trans (State.moCmpCleared_onlyReg _ k w)
  have set' (c : Cmp) : (((s.moCmpStored k w).moCmpCleared k w).setMoCmp k c).mo = { s.mo with cmps := s.mo.cmps.set k c } := by
    unfold State.setMoCmp
    rw [kept.mo]
  rw [State.moCmpCtrl_arms arm dir known]
  split
  next late =>
    obtain ⟨mo, dram, told⟩ := (((s.moCmpStored k w).moCmpCleared k w).setMoCmp k
      ⟨false, s.rdI (Reg.MO_CMPm_TARGET k), k / 2, F.MO_CMPm_CTRL_DIR.get w⟩).moCmpBehind_spec k
    rw [mo, set', dram]
    exact ⟨rfl, kept.dram, fun ahead => by simp [late] at ahead, fun _ => ⟨rfl, told⟩⟩
  next ahead =>
    rw [set']
    exact ⟨rfl, kept.dram, fun _ => rfl, fun late => absurd late ahead⟩

/-- Settles O32: the commands and events of the axes. -/
theorem axes : Obligations.Axes := by
  unfold Obligations.Axes
  refine ⟨⟨?move, ?home, ?stop, ?enable, ?disable, ?unfitted⟩, ?low, ?drive, ?accept, ?edge, ?capDone, ?capNext, ?arm⟩
  case move =>
    intro s m a w takes fitted d target
    have op : F.MO_Aa_CMD_OP.get d = 1 := get_axisOp a w (by decide)
    refine ⟨fun accepted untriggered stopped => (next_axisCmd takes w 1).trans ?_, fun accepted waits => (next_axisCmd takes w 1).trans ?_,
      fun refused => (next_axisCmd takes w 1).trans ?_⟩
    · rw [State.axisCommand_move fitted op accepted, if_pos (by simp [untriggered, stopped, d])]
    · rw [State.axisCommand_move fitted op accepted, if_neg (by simpa [imp_iff_not_or] using waits)]
    · rw [State.axisCommand_moveRefused fitted op refused]
  case home =>
    intro s m a w takes fitted accepted
    exact (next_axisCmd takes w 2).trans (by rw [State.axisCommand_home fitted (get_axisOp a w (by decide)) accepted])
  case stop =>
    intro s m a w takes fitted
    exact (next_axisCmd takes w 3).trans (by rw [State.axisCommand_stop fitted (get_axisOp a w (by decide)), State.axisErr_stopAxis])
  case enable =>
    intro s m a w takes fitted boot test free disabled
    exact (next_axisCmd takes w 4).trans (by rw [State.axisCommand_enable fitted (get_axisOp a w (by decide)) boot test free disabled])
  case disable =>
    intro s m a w takes fitted
    exact (next_axisCmd takes w 5).trans (by rw [State.axisCommand_disable fitted (get_axisOp a w (by decide)), State.axisErr_disableAxis])
  case unfitted =>
    intro s m a w takes absent
    exact ⟨(next_axisCmd takes w 1).trans (by rw [State.axisCommand_unfitted _ absent]),
      (next_axisCmd takes w 2).trans (by rw [State.axisCommand_unfitted _ absent]),
      (next_axisCmd takes w 3).trans (by rw [State.axisCommand_unfitted _ absent])⟩
  case low => exact fun s a ra rb out low => State.next_act out (State.pwmPeriod_low low)
  case drive =>
    intro s a ra rb out fitted rest settled supplied there x amp k
    obtain ⟨u, da, db, n, driven, first, second, same, dram⟩ := State.pwmPeriod_rest (ra := ra.val) (rb := rb.val) fitted rest settled supplied there
    refine ⟨_, State.next_act out driven, ?_⟩
    rw [State.axis_setAxis_self _ (by rwa [same])]
    exact ⟨rfl, rfl, first, second, dram⟩
  case accept =>
    intro s a hi level out t
    refine State.next_act out ((s.limitAccept_eq a.val hi level).trans ?_)
    cases level with
    | false => rfl
    | true =>
      simp only [Bool.not_true, Bool.false_eq_true, Bool.true_eq_false, if_false, Bool.and_eq_true, Bool.or_eq_true, Bool.not_eq_true',
        decide_eq_true_eq]
      rfl
  case edge =>
    intro s a hi out db es calm
    exact State.next_act out (State.limitEdge_calm (a := a.val) (hi := hi) calm)
  case capDone => exact fun s out ended => State.next_act out (State.capNext_done ended)
  case capNext =>
    intro s a rest out next begins free still home limits
    exact ⟨fun known clear' => State.next_act out (State.capNext_moves next begins free still home limits known clear'),
      fun lost homes fast => State.next_act out (State.capNext_homes next begins free still home limits lost homes fast)⟩
  case arm =>
    intro s m k w takes known a dir target x upward
    have arm : F.MO_CMPm_CTRL_ARM.get (cmdWord a w [(F.MO_CMPm_CTRL_ARM, 1)]) = 1 :=
      (get_regMask (holdsField_cmpArm k) _).trans (F.MO_CMPm_CTRL_ARM.get_put w 1 (by decide) (by decide))
    refine ⟨_, (State.next_moWrite takes (by unfold Reg.MO_CMPm_CTRL; omega) _).trans ?_, State.moCmpCtrl_spec arm upward known⟩
    rw [State.writeMo_cmp]
    rfl

end Sys2Proof.Machine
end

section
/-! PROOFS of O52: the stored form decodes, and with the check every other form must pass so does every block; the header and size
of a container. -/

namespace Sys2Proof.Machine

/-! ## Bits -/

/-- The number of bits, least significant first. -/
def bitsNat : List Bool → Nat
  | [] => 0
  | b :: l => b2n b + 2 * bitsNat l

theorem bitsNat_append (k l : List Bool) : bitsNat (k ++ l) = bitsNat k + 2 ^ k.length * bitsNat l := by
  induction k with
  | nil => simp [bitsNat]
  | cons b k ih =>
    rw [List.cons_append, bitsNat, bitsNat, ih, List.length_cons, Nat.pow_succ]
    ring

/-- Bits in front are the bits taken. -/
theorem takeBits_append (k l : List Bool) : takeBits k.length (k ++ l) = .ok (bitsNat k, l) := by
  induction k with
  | nil => rfl
  | cons b k ih =>
    rw [List.length_cons, List.cons_append, takeBits, ih]
    rfl

theorem takeBits_of {n : Nat} {k : List Bool} (length : k.length = n) (l : List Bool) : takeBits n (k ++ l) = .ok (bitsNat k, l) :=
  length ▸ takeBits_append k l

/-- The bits of a byte. -/
def byteBits (b : Byte) : List Bool := (List.range 8).map fun i => b.toNat.testBit i

theorem bitsNat_testBits (n v : Nat) : bitsNat ((List.range n).map fun i => v.testBit i) = v % 2 ^ n := by
  induction n generalizing v with
  | zero => rw [Nat.pow_zero, Nat.mod_one]; rfl
  | succ n ih =>
    have shifted : (List.range (n + 1)).map (fun i => v.testBit i) = v.testBit 0 :: (List.range n).map fun i => (v / 2).testBit i := by
      rw [List.range_succ_eq_map, List.map_cons, List.map_map]
      simp only [Function.comp_def, Nat.testBit_succ]
    have low : b2n (v.testBit 0) = v % 2 := by
      rw [Nat.testBit_zero]
      rcases Nat.mod_two_eq_zero_or_one v with even | odd <;> simp [*, b2n]
    rw [shifted, bitsNat, ih, low, Nat.pow_succ, Nat.mul_comm (2 ^ n) 2, Nat.mod_mul]

theorem bitsNat_byteBits (b : Byte) : bitsNat (byteBits b) = b.toNat :=
  (bitsNat_testBits 8 b.toNat).trans (Nat.mod_eq_of_lt b.isLt)

theorem length_byteBits (b : Byte) : (byteBits b).length = 8 := by
  unfold byteBits
  rw [List.length_map, List.length_range]

theorem bitsOf_cons (b : Byte) (bs : List Byte) : bitsOf (b :: bs) = byteBits b ++ bitsOf bs := rfl

theorem bitsOf_append (bs cs : List Byte) : bitsOf (bs ++ cs) = bitsOf bs ++ bitsOf cs := List.flatMap_append

theorem length_bitsOf (bs : List Byte) : (bitsOf bs).length = 8 * bs.length := by
  induction bs with
  | nil => rfl
  | cons b bs ih =>
    rw [bitsOf_cons, List.length_append, length_byteBits, ih, List.length_cons]
    omega

/-- Bits and bytes of a string give one number. -/
theorem bitsNat_bitsOf (bs : List Byte) : bitsNat (bitsOf bs) = leNat bs := by
  induction bs with
  | nil => rfl
  | cons b bs ih => rw [bitsOf_cons, bitsNat_append, bitsNat_byteBits, length_byteBits, ih, leNat]; norm_num

/-- A field of whole bytes taken. -/
theorem takeBits_bytes {n : Nat} {bs : List Byte} (length : 8 * bs.length = n) (l : List Bool) :
    takeBits n (bitsOf bs ++ l) = .ok (leNat bs, l) := by
  rw [takeBits_of ((length_bitsOf bs).trans length), bitsNat_bitsOf]

/-! ## The stored form -/

theorem infStored_bytes {limit : Nat} (bs : List Byte) (l : List Bool) {o : InfOut} (room : o.len + bs.length ≤ limit) :
    infStored limit bs.length (bitsOf bs ++ l) o = .ok (l, ⟨bs.reverse ++ o.rev, o.len + bs.length⟩) := by
  induction bs generalizing o with
  | nil => rfl
  | cons b bs ih =>
    rw [List.length_cons] at room
    have taken : takeBits 8 (byteBits b ++ (bitsOf bs ++ l)) = .ok (b.toNat, bitsOf bs ++ l) := by
      rw [takeBits_of (length_byteBits b), bitsNat_byteBits]
    have pushed : o.push limit (BitVec.ofNat 8 b.toNat) = .ok ⟨b :: o.rev, o.len + 1⟩ := by
      rw [BitVec.ofNat_toNat, BitVec.setWidth_eq]
      exact if_pos (by omega)
    have rest := ih (o := ⟨b :: o.rev, o.len + 1⟩) (by dsimp only; omega)
    rw [List.length_cons, infStored, bitsOf_cons, List.append_assoc, taken]
    change (o.push limit (BitVec.ofNat 8 b.toNat) >>= infStored limit bs.length (bitsOf bs ++ l)) = _
    rw [pushed]
    change infStored limit bs.length (bitsOf bs ++ l) ⟨b :: o.rev, o.len + 1⟩ = _
    rw [rest, List.reverse_cons, List.append_assoc, Nat.add_right_comm, Nat.add_assoc]
    rfl

/-- The last block, in stored form: its lengths agree behind the padding, and its bytes follow. -/
theorem infBlocks_stored {limit f n m : Nat} {l b body : List Bool} {o : InfOut} {r : List Bool × InfOut}
    (len : takeBits 16 (l.drop (l.length % 8)) = .ok (n, b)) (nlen : takeBits 16 b = .ok (m, body)) (sum : n + m = 65535)
    (stored : infStored limit n body o = .ok r) : infBlocks limit (f + 1) (true :: false :: false :: l) o = .ok r.2 := by
  have fin : takeBits 1 (true :: false :: false :: l) = .ok (1, false :: false :: l) := takeBits_append [true] _
  have ty : takeBits 2 (false :: false :: l) = .ok (0, l) := takeBits_append [false, false] _
  unfold infBlocks
  simp only [fin, ty, len, nlen, sum, stored, bind, Except.bind, if_true]

/-- The bits of a stored form behind its type: padding, the two lengths and the bytes. -/
def storedTail (bs : List Byte) : List Bool :=
  List.replicate 5 false ++ (bitsOf (leBytes 2 bs.length) ++ (bitsOf (leBytes 2 (65535 - bs.length)) ++ bitsOf bs))

theorem bitsOf_storedForm (bs : List Byte) : bitsOf (storedForm bs) = true :: false :: false :: storedTail bs := by
  unfold storedForm storedTail
  rw [bitsOf_append, bitsOf_append, bitsOf_append, List.append_assoc, List.append_assoc]
  rfl

theorem drop_storedTail (bs : List Byte) : (storedTail bs).drop ((storedTail bs).length % 8) =
    bitsOf (leBytes 2 bs.length) ++ (bitsOf (leBytes 2 (65535 - bs.length)) ++ bitsOf bs) := by
  have odd : (storedTail bs).length % 8 = 5 := by
    unfold storedTail
    simp only [List.length_append, List.length_replicate, length_bitsOf, length_leBytes]
    omega
  rw [odd]
  exact List.drop_left' (List.length_replicate ..)

theorem inflate_stored {bs : List Byte} (short : bs.length ≤ 65535) : inflate bs.length (storedForm bs) = .ok bs := by
  have count : leNat (leBytes 2 bs.length) = bs.length := by
    rw [leNat_leBytes]
    exact Nat.mod_eq_of_lt (by omega)
  have check : leNat (leBytes 2 (65535 - bs.length)) = 65535 - bs.length := by
    rw [leNat_leBytes]
    exact Nat.mod_eq_of_lt (by omega)
  have len : takeBits 16 ((storedTail bs).drop ((storedTail bs).length % 8)) =
      .ok (bs.length, bitsOf (leBytes 2 (65535 - bs.length)) ++ bitsOf bs) := by
    rw [drop_storedTail, takeBits_bytes (by rw [length_leBytes]), count]
  have nlen : takeBits 16 (bitsOf (leBytes 2 (65535 - bs.length)) ++ bitsOf bs) = .ok (65535 - bs.length, bitsOf bs) := by
    rw [takeBits_bytes (by rw [length_leBytes]), check]
  have bytes := infStored_bytes (limit := bs.length) bs [] (o := ⟨[], 0⟩) (by simp)
  rw [List.append_nil] at bytes
  have block := infBlocks_stored (f := (bitsOf (storedForm bs)).length) len nlen (Nat.add_sub_cancel' short) bytes
  unfold inflate
  dsimp only
  rw [bitsOf_storedForm] at block ⊢
  rw [block]
  change Except.ok (bs.reverse ++ []).reverse = _
  rw [List.append_nil, List.reverse_reverse]

/-! ## Blocks -/

theorem inflate_of_formOk {ty : Nat} {bs c : List Byte} (form : formOk ty bs c = true) : inflate bs.length c = .ok bs := by
  unfold formOk at form
  obtain ⟨-, decodes⟩ := Bool.and_eq_true_iff.1 form
  cases out : inflate bs.length c with
  | error e =>
    rw [out] at decodes
    cases decodes
  | ok o =>
    rw [out] at decodes
    rw [of_decide_eq_true decodes]

/-- The shorter of two forms of a block (R406). -/
def shorterForm (bs : List Byte) (ty : Nat) (a c : List Byte) : List Byte := if c.length < a.length && formOk ty bs c then c else a

theorem deflateBlock_eq (level : Nat) (bs : List Byte) : deflateBlock level bs = shorterForm bs 2
    (shorterForm bs 1 (storedForm bs) (staticForm (lzTokens (Config.matchAt level bs) bs bs.length 0))) (Config.dynamicForm level bs) := rfl

/-- A form that decodes is given up for a shorter one alone that decodes. -/
theorem shorterForm_spec {bs a : List Byte} (ty : Nat) (c : List Byte) (decodes : inflate bs.length a = .ok bs) :
    inflate bs.length (shorterForm bs ty a c) = .ok bs ∧ (shorterForm bs ty a c).length ≤ a.length := by
  unfold shorterForm
  split
  next better =>
    obtain ⟨short, form⟩ := Bool.and_eq_true_iff.1 better
    exact ⟨inflate_of_formOk form, (of_decide_eq_true short).le⟩
  · exact ⟨decodes, Nat.le_refl _⟩

theorem length_storedForm (bs : List Byte) : (storedForm bs).length = bs.length + 5 := by
  unfold storedForm
  simp only [List.length_append, length_leBytes, List.length_cons, List.length_nil]
  omega

/-- A block decodes to its input, and is at most 5 bytes longer. -/
theorem deflateBlock_spec (level : Nat) {bs : List Byte} (short : bs.length ≤ blockIn) :
    inflate bs.length (deflateBlock level bs) = .ok bs ∧ (deflateBlock level bs).length ≤ bs.length + 5 := by
  have fits : bs.length ≤ 65535 := short.trans (by decide)
  obtain ⟨static, less⟩ := shorterForm_spec 1 (staticForm (lzTokens (Config.matchAt level bs) bs bs.length 0)) (inflate_stored fits)
  obtain ⟨dynamic, least⟩ := shorterForm_spec 2 (Config.dynamicForm level bs) static
  rw [deflateBlock_eq]
  exact ⟨dynamic, (least.trans less).trans (length_storedForm bs).le⟩

/-! ## Containers -/

/-- Blocks of a container for an input of `n` bytes. -/
def blockCount (n : Nat) : Nat := (n + blockIn - 1) / blockIn

theorem blockCount_zero : blockCount 0 = 0 := by decide

theorem blockCount_succ {n : Nat} (some' : 0 < n) : blockCount n = blockCount (n - blockIn) + 1 := by
  unfold blockCount blockIn
  omega

/-- A container's blocks cover its input, each at most 21 bytes longer than its part of it. -/
theorem containerBlocks_spec (level n b : Nat) {bs : List Byte} (enough : blockCount bs.length ≤ n) :
    (containerBlocks level n b bs).length = blockCount bs.length ∧
    ((containerBlocks level n b bs).flatMap id).length ≤ bs.length + 21 * blockCount bs.length := by
  induction n generalizing b bs with
  | zero =>
    have none' : blockCount bs.length = 0 := Nat.le_zero.1 enough
    rw [none']
    exact ⟨rfl, Nat.zero_le _⟩
  | succ n ih =>
    rw [containerBlocks]
    split
    next empty =>
      rw [List.isEmpty_iff.1 empty]
      exact ⟨blockCount_zero.symm, Nat.zero_le _⟩
    next more =>
      have some' : 0 < bs.length := List.length_pos_iff.2 fun none' => more (by rw [none']; rfl)
      have step := blockCount_succ some'
      obtain ⟨count, size⟩ := ih (b + 1) (bs := bs.drop blockIn) (by rw [List.length_drop]; omega)
      obtain ⟨-, data⟩ := deflateBlock_spec level (bs := bs.take blockIn) (List.length_take_le _ _)
      have parts : (bs.take blockIn).length + (bs.drop blockIn).length = bs.length := by
        rw [← List.length_append, List.take_append_drop]
      rw [List.length_drop] at count size parts
      refine ⟨by rw [List.length_cons, count, step], ?_⟩
      simp only [List.flatMap_cons, id_eq, List.length_append, length_leBytes]
      omega

theorem length_blockIndex (off : Nat) (blocks : List (List Byte)) : (blockIndex off blocks).length = 8 * blocks.length := by
  induction blocks generalizing off with
  | nil => rfl
  | cons b blocks ih =>
    rw [blockIndex, List.length_append, List.length_append, length_leBytes, length_leBytes, ih, List.length_cons]
    omega

/-- The header of a container (R402). -/
def containerHead (blocks size index : Nat) : List Byte :=
  leBytes 4 0x5A43594A ++ (leBytes 2 1 ++ (leBytes 2 0 ++ (leBytes 4 blockIn ++ (leBytes 4 blocks ++ (leBytes 8 size ++
    (leBytes 4 index ++ leBytes 4 0))))))

theorem length_containerHead (blocks size index : Nat) : (containerHead blocks size index).length = 32 := by
  simp only [containerHead, List.length_append, length_leBytes]

/-- A header passes the decompressors' check for every block of its container (R403). -/
theorem headerOk_containerHead {blocks : Nat} (size index : Nat) (fits : blocks < 2 ^ 32) :
    headerOk (containerHead blocks size index) 0 blocks = true := by
  have magic : leAt (containerHead blocks size index) 0 4 = 0x5A43594A := leAt_here 4 _ _
  have version : leAt (containerHead blocks size index) 4 2 = 1 := by
    rw [containerHead, leAt_skip _ _ (by decide), leAt_here]
    decide
  have flags : leAt (containerHead blocks size index) 6 2 = 0 := by
    rw [containerHead, leAt_skip _ _ (by decide), leAt_skip _ _ (by decide), leAt_here]
    decide
  have zero : leAt (containerHead blocks size index) 0x1C 4 = 0 := by
    rw [containerHead, leAt_skip _ _ (by decide), leAt_skip _ _ (by decide), leAt_skip _ _ (by decide), leAt_skip _ _ (by decide),
      leAt_skip _ _ (by decide), leAt_skip _ _ (by decide), leAt_skip _ _ (by decide)]
    exact leAt_here 4 0 []
  have unit : leAt (containerHead blocks size index) 8 4 = blockIn := by
    rw [containerHead, leAt_skip _ _ (by decide), leAt_skip _ _ (by decide), leAt_skip _ _ (by decide), leAt_here]
    decide
  have count : leAt (containerHead blocks size index) 0x0C 4 = blocks := by
    rw [containerHead, leAt_skip _ _ (by decide), leAt_skip _ _ (by decide), leAt_skip _ _ (by decide), leAt_skip _ _ (by decide), leAt_here]
    exact Nat.mod_eq_of_lt fits
  have even : (64 ≤ blockIn ∧ blockIn ≤ 65536) ∧ blockIn % 64 = 0 := by decide
  simp [headerOk, magic, version, flags, zero, unit, count, even]

theorem container_fst (level : Nat) (bs : List Byte) : (container level bs).1 =
    containerHead (containerBlocks level (bs.length / blockIn + 1) 0 bs).length bs.length
      (32 + ((containerBlocks level (bs.length / blockIn + 1) 0 bs).flatMap id).length) := by
  simp only [container, containerHead, List.append_assoc]

/-- Settles O52: every form of a block kept decodes to its input; the header tells of its blocks. -/
theorem containersDecode : Obligations.ContainersDecode := by
  unfold Obligations.ContainersDecode
  refine ⟨fun level bs short => deflateBlock_spec level short, fun level bs fits => ?_⟩
  change headerOk (container level bs).1 0 (blockCount bs.length) = true ∧ (container level bs).1.length = 32 ∧
    (container level bs).2.length ≤ bs.length + 29 * blockCount bs.length
  have enough : blockCount bs.length ≤ bs.length / blockIn + 1 := by
    unfold blockCount blockIn
    omega
  have few : blockCount bs.length < 2 ^ 32 := by
    unfold blockCount blockIn
    omega
  obtain ⟨count, size⟩ := containerBlocks_spec level (bs.length / blockIn + 1) 0 enough
  rw [container_fst, count]
  refine ⟨headerOk_containerHead _ _ few, length_containerHead _ _ _, ?_⟩
  change ((containerBlocks level (bs.length / blockIn + 1) 0 bs).flatMap id ++ blockIndex 32 (containerBlocks level (bs.length / blockIn + 1) 0 bs)).length ≤ _
  rw [List.length_append, length_blockIndex, count]
  omega

end Sys2Proof.Machine
end
